-- ==== Sys2Proof/Word.lean ====
section
/-! DEFINITION. The plain words of the model: bit widths, indices of dies, clusters and cores, and the sparse maps in
which repeated state is held. -/

namespace Sys2Proof

/-- A 48-bit physical address (R8). -/
abbrev Addr := BitVec 48
/-- A register or scalar word (R13, R124). -/
abbrev Word := BitVec 32
/-- A byte of memory. -/
abbrev Byte := BitVec 8
/-- A vector register or an accumulator row: 64 lanes of 32 bits (R124, R94). -/
abbrev VReg := BitVec 2048
/-- A 64-byte line (R102). -/
abbrev Line := BitVec 512

/-- Cluster `n` of Tolid die `die` (R16, R37). -/
structure ClusterId where
  die : Fin 6
  n : Fin 12
  deriving DecidableEq, Repr

/-- Core `k` of a cluster (R41). -/
structure CoreId where
  cl : ClusterId
  k : Fin 8
  deriving DecidableEq, Repr

/-- Pair `i` of a cluster: cores 2i (primary) and 2i + 1 (checker) (R41, R114). -/
structure PairId where
  cl : ClusterId
  i : Fin 4
  deriving DecidableEq, Repr

/-- A sparse family of values: an association list. A key that is not listed has a default value, which the reader
names. -/
abbrev AMap (κ α : Type) := List (κ × α)

namespace AMap

/-- The value at a key, or the default of an unlisted key. -/
def get {κ α : Type} [DecidableEq κ] (m : AMap κ α) (k : κ) (d : α) : α :=
  match m with
  | [] => d
  | (k', v) :: t => if k' = k then v else AMap.get t k d

/-- The map with one key changed; the entry keeps its place, a new key goes to the end. -/
def set {κ α : Type} [DecidableEq κ] (m : AMap κ α) (k : κ) (v : α) : AMap κ α :=
  match m with
  | [] => [(k, v)]
  | (k', v') :: t => if k' = k then (k, v) :: t else (k', v') :: AMap.set t k v

/-- The value at a key, if the key is listed. -/
def get? {κ α : Type} [DecidableEq κ] (m : AMap κ α) (k : κ) : Option α :=
  match m with
  | [] => none
  | (k', v) :: t => if k' = k then some v else AMap.get? t k

/-- The map without a key. -/
def erase {κ α : Type} [DecidableEq κ] (m : AMap κ α) (k : κ) : AMap κ α :=
  m.filter (fun e => decide (e.1 ≠ k))

end AMap

end Sys2Proof
end

