-- ==== Sys2Proof/Machine/PwrState.lean ====
section
/-! DEFINITION. The state of the power manager (11_bringup_power.md). The package state, the cap, ownership and the results
are in the PWR_ registers. -/

namespace Sys2Proof.Machine

/-- Who asked for a domain switch: a ring pair, the expert register, or the management core itself (R389, R398). -/
inductive PwrBy where
  | ring (p : Fin 64)
  | expert
  | mgmt
  deriving DecidableEq, Repr

/-- A domain request in the queue, or the switch under way for it. -/
structure PwrReq where
  dom : Nat
  on : Bool
  by_ : PwrBy
  deriving DecidableEq, Repr

/-- A failure of a bring-up step: code, die, the controller or port of a MEMCAL or DIELINK failure, and the silent checker of a
blotter failure: domain, code, unit. -/
structure BootFail where
  code : Fin 256
  die : Fin 8
  unit : Fin 8
  silent : Option (Fin 116 × Fin 11 × Nat)
  deriving DecidableEq, Repr

structure PwrState where
  /-- Requests that wait for a domain that is switching, oldest first (R389). -/
  queue : List PwrReq
  /-- Switches under way (R388), with LT at which each began. -/
  switching : List (PwrReq × Nat)
  /-- Domains shed under R385. -/
  shed : BitVec 116
  /-- LT since which a die has read more than 118 degrees C (R393). -/
  hot : AMap (Fin 8) Nat
  /-- Dies whose THERMWARN has set and has not re-armed (R632). -/
  warned : BitVec 8
  /-- The last junction temperature read of each die. -/
  temp : AMap (Fin 8) Int
  /-- Supply-current samples of the last 10 ms in 0.25 W units, newest first (R392). -/
  samples : List Nat
  /-- LT [31:0] at the end of each bring-up step 1 to 8 (R396). -/
  bootTimes : AMap (Fin 9) Word
  /-- µs from the release of RESET_N to the end of bring-up step 1, when the local time starts. -/
  t1 : Nat
  /-- Every domain was switched off in hardware above 125 degrees C (R393). -/
  cut : Bool
  /-- The density in the DRAM capacity fuses; none while they are blank (R379). -/
  densityBlown : Option Nat
  /-- COOL_OK was recognised at the end of step 2: the start covers the Tolid dies (R382). -/
  bootCool : Bool
  /-- COOL_OK recognised after step 2: the Tolid start that follows PARTIAL, with the step at which it fails, if it does (R383). -/
  lateCool : Option (Option (Fin 8 × BootFail))
  /-- SHUTDOWN in progress: the state in which it ends (R393, R394). -/
  shutTo : Option Nat
  deriving DecidableEq, Repr

def PwrState.reset : PwrState :=
  { queue := [], switching := [], shed := 0, hot := [], warned := 0, temp := [], samples := [], bootTimes := [], t1 := 0,
    cut := false, densityBlown := none, bootCool := false, lateCool := none, shutTo := none }

end Sys2Proof.Machine
end

