-- ==== Sys2Proof/Machine/Bits.lean ====
section
/-! DEFINITION. Bit-field, byte-order, lane and checksum helpers. -/

namespace Sys2Proof

/-- Bits [hi:lo] of a natural number. -/
def nbits (v hi lo : Nat) : Nat := (v >>> lo) % 2 ^ (hi + 1 - lo)

/-- Bits [hi:lo] of a word, as a number. -/
def bitsOf {w : Nat} (v : BitVec w) (hi lo : Nat) : Nat := nbits v.toNat hi lo

/-- One bit of a word. -/
def bitOf {w : Nat} (v : BitVec w) (i : Nat) : Bool := v.getLsbD i

/-- A word with bits [hi:lo] replaced. -/
def putBits (v : Word) (hi lo : Nat) (x : Nat) : Word :=
  let mask : Nat := (2 ^ (hi + 1 - lo) - 1) <<< lo
  (v &&& ~~~(BitVec.ofNat 32 mask)) ||| BitVec.ofNat 32 ((x <<< lo) &&& mask)

/-- A Bool as a number. -/
def b2n (b : Bool) : Nat := if b then 1 else 0

/-- The little-endian number of a list of bytes (R55). -/
def leNat : List Byte → Nat
  | [] => 0
  | b :: t => b.toNat + 256 * leNat t

/-- The `n` little-endian bytes of a number (R55). -/
def leBytes : Nat → Nat → List Byte
  | 0, _ => []
  | n + 1, v => BitVec.ofNat 8 v :: leBytes n (v / 256)

/-- The number of a list of bytes, most significant first, and the `n` bytes of a number in that order. -/
def beNat : List Byte → Nat
  | [] => 0
  | b :: t => b.toNat * 256 ^ t.length + beNat t
def beBytes (n v : Nat) : List Byte := (leBytes n v).reverse

/-- The signed value of a number read as `w`-bit two's complement. -/
def sval (w v : Nat) : Int :=
  let v := v % 2 ^ w
  if v < 2 ^ (w - 1) then (v : Int) else (v : Int) - (2 ^ w : Nat)

/-- The low `w` bits of an integer as two's complement. -/
def wrapN (w : Nat) (x : Int) : Nat := (x % (2 ^ w : Nat)).toNat

/-- An integer clamped to an interval. -/
def clampI (x lo hi : Int) : Int := if x < lo then lo else if hi < x then hi else x

/-- Lane `i` of a vector register (R124). -/
def lane (v : VReg) (i : Nat) : Word := v.extractLsb' (32 * i) 32

/-- The vector register whose lane `i` is `f i`, for the first `n` lanes. -/
def lanesUpTo (f : Nat → Word) : Nat → VReg
  | 0 => 0
  | n + 1 => lanesUpTo f n ||| ((f n).setWidth 2048 <<< (32 * n))

/-- The vector register whose lane `i` is `f i`. -/
def ofLanes (f : Nat → Word) : VReg := lanesUpTo f 64

/-- One byte step of CRC-32C (reflected polynomial 0x82F6_3B78). -/
def crcBits : Nat → BitVec 32 → BitVec 32
  | 0, c => c
  | n + 1, c => crcBits n (if c.getLsbD 0 then (c >>> 1) ^^^ 0x82F63B78 else c >>> 1)

/-- The running CRC-32C register after some bytes. -/
def crcRun : List Byte → BitVec 32 → BitVec 32
  | [], c => c
  | b :: t, c => crcRun t (crcBits 8 (c ^^^ b.setWidth 32))

/-- CRC-32C of a byte list (R49, R157): initial value and final exclusive-or all ones.
PRESUMED: the spec names the code only; this is its usual form. -/
def crc32c (bs : List Byte) : Word := ~~~(crcRun bs 0xFFFFFFFF)

/-- The first element of a list that satisfies a test, with its index. -/
def findIdx {α : Type} (p : α → Bool) : List α → Nat → Option Nat
  | [], _ => none
  | a :: t, i => if p a then some i else findIdx p t (i + 1)

/-- Fold a state update over the numbers 0 to n - 1. -/
def upTo {σ : Type} (n : Nat) (f : Nat → σ → σ) (s : σ) : σ := (List.range n).foldl (fun s i => f i s) s

end Sys2Proof
end

