-- ==== Sys2Proof/Machine/RegTypes.lean ====
section
/-! DEFINITION. Register blocks, keys, access types and table rows (R10, R13). -/

namespace Sys2Proof.Machine

/-- The register blocks of the package. The instance number is the die (die, fab), die * 8 + m (mc), die * 8 + p (dp),
die * 96 + core (tc), die * 48 + pair (pcmp), die * 12 + cluster (cad), the pair (lks), the controller, receiver,
output or port (can, lin, cam, dsp, wdp), and 0 elsewhere. -/
inductive Blk where
  | die | fab | mc | dp | tc | pcmp | cad | tu | whl | fw | pwr | chk | lks | blt | flt | sec | cpu | can | lin | sw
  | gw | pci | cam | gfx | dsp | isp | cdc | wde | wdp
  deriving DecidableEq, Repr

/-- One register: its block, the instance and the byte offset in the block. -/
structure RegKey where
  blk : Blk
  inst : Nat
  off : Nat
  deriving DecidableEq, Repr

/-- Access types (R10). -/
inductive Acc where
  | ro | rw | w1c | wo | rc
  deriving DecidableEq, Repr

/-- A field: bits [hi:lo], access, reset value. -/
structure Field where
  hi : Nat
  lo : Nat
  acc : Acc
  rst : Nat
  deriving DecidableEq, Repr

/-- A row of a register table: registers at base + i * stride for i below count. -/
structure RegRow where
  base : Nat
  stride : Nat
  count : Nat
  fields : List Field
  deriving DecidableEq, Repr

/-- Whether a row holds the register at an offset. -/
def RegRow.has (r : RegRow) (off : Nat) : Bool :=
  if r.stride = 0 then off == r.base
  else decide (r.base ≤ off) && (off - r.base) % r.stride == 0 && decide ((off - r.base) / r.stride < r.count)

end Sys2Proof.Machine
end

