-- ==== Sys2Proof/Machine/CmdTypes.lean ====
section
/-! DEFINITION. Types of operands of commands that are no state. -/

namespace Sys2Proof.Machine

/-- A UDP datagram as it arrives at the management port (R350, R489): IPv6 or not, source and destination addresses (IPv4: the low 32 bits)
and ports, whether it is a fragment, its bytes. -/
structure MgmtDgram where
  v6 : Bool
  addr : BitVec 128
  src : BitVec 16
  dst : BitVec 128
  udp : BitVec 16
  frag : Bool
  bytes : List Byte
  deriving DecidableEq, Repr

/-- What a service takes: a block's interrupt, the oldest ignored write, the oldest condition that firmware detected (R433, R438). -/
inductive SvcRef where
  | block (b : Blk) (i : Nat)
  | ignored
  | cond
  deriving DecidableEq, Repr

/-- A lease of R452 with an expiry of its own. -/
inductive LeaseRef where
  | lock (a : Nat)
  | chan (c : CoreId) (ch : Fin 8)
  | credit (d : Fin 8) (p : Fin 7) (cls : Fin 8)
  deriving DecidableEq, Repr

/-- What a bring-up step gives: the time of its end in µs from the release of RESET_N, and how it failed, if it did. -/
structure BootStep where
  us : Nat
  fail : Option BootFail
  deriving DecidableEq, Repr

/-- The result of a transmission. -/
inductive TxEnd where
  | sent | lost | error
  deriving DecidableEq, Repr

end Sys2Proof.Machine
end

