-- ==== Sys2Proof/Machine/FabricState.lean ====
section
/-! DEFINITION. The state of the package fabric: requesters, transactions in flight, posted-write logs, credits, share
arbiters and memory errors (06_memory_and_bandwidth.md). -/

namespace Sys2Proof.Machine

/-- Who makes a request (the transaction attributes of chapter 1, R33, R108, R466). `world` true is the trusted world;
`fw` says that the requester is device firmware (the management core or a firmware processor). -/
structure Src where
  die : Fin 8
  agent : BitVec 10
  world : Bool
  ctx : BitVec 12
  gen : BitVec 8
  cls : Fin 8
  fw : Bool
  deriving DecidableEq, Repr

/-- A split read or a posted write whose response has not reached its requester (R25, R221). `fail` is none for data or
an acknowledgement and some code for an error response or a failure notice (R223). -/
structure Tx where
  id : Nat
  isRead : Bool
  src : Src
  addr : Nat
  len : Nat
  data : List Byte
  fail : Option Nat
  target : Fin 8
  /-- The DMA channel that issued it, 8 for another source (R109). -/
  chan : Fin 9
  /-- LT at issue, ns. -/
  since : Nat
  /-- Where a channel writes the data of its read. -/
  dst : Nat
  /-- The completion of its descriptor has been signalled (R112, R152). -/
  signalled : Bool
  deriving DecidableEq, Repr

/-- An entry of FAB_PWLOG (R224, R230). -/
structure PwEntry where
  addr : Nat
  code : Nat
  cls : Fin 8
  target : Fin 8
  agent : BitVec 10
  deriving DecidableEq, Repr

/-- A request credit held at a die port (R219, R221): the port, the class, whether it came from the pool, and when it was
taken. -/
structure Credit where
  die : Fin 8
  port : Fin 7
  cls : Fin 8
  pool : Bool
  since : Nat
  deriving DecidableEq, Repr

/-- A latent memory error (R106, R197, R206, R207): correctable or not. -/
inductive EccErr where
  | single | double
  deriving DecidableEq, Repr

/-- Service of one share entry in the current window (R214). -/
structure ShareUse where
  used : Nat
  credit : Int
  deriving DecidableEq, Repr

/-- Bytes that a DMA write has put into a line of a local or cluster store before its channel's completion: until then the cores see
the line before or after the write (R20, R105). -/
structure Landing where
  core : CoreId
  chan : Fin 8
  addr : Nat
  old : List Byte
  deriving DecidableEq, Repr

structure FabState where
  tx : List Tx
  nextId : Nat
  pwlog : AMap (Fin 8) (List PwEntry)
  credits : List Credit
  /-- Escape credits that a yielding Vehicle-die port has granted and the far side has not used (R227). -/
  escape : AMap (Fin 7) Nat
  /-- LT at which a port last received a request credit (R227). -/
  credAt : AMap (Fin 8 × Fin 7) Nat
  landing : List Landing
  /-- Share service by arbiter (block instance: die * 8 + number, true for a die port) and entry. -/
  share : AMap (Bool × Nat × Fin 32) ShareUse
  /-- Expert writes of share entries that wait for the next window: arbiter block, unit, offset, value (R232). -/
  shPend : List (Blk × Nat × Nat × Word)
  /-- Latent errors, keyed by the address of the SRAM word (8 bytes) or DRAM burst (32 bytes). -/
  ecc : AMap Nat EccErr
  /-- Corrected words and bursts whose write-back is still to come. -/
  eccWb : List Nat
  /-- Device temperature read last by each controller, degrees C, and refreshes made (R201, R204). -/
  mcTemp : AMap Nat Nat
  /-- LT of that reading. -/
  mcTempAt : AMap Nat Nat
  mcRefresh : AMap Nat Nat
  mcDrift : AMap Nat Nat
  /-- The refresh rate each controller uses: a free value that the temperature selects (R201). -/
  mcRate : AMap Nat Word
  /-- Posted writes of core DMA channels whose outcome a channel, PWB or END waits for are in `tx`. High halves latched
  by a read of MC_CLBYTESLc or DP_CLBYTESLc. -/
  clHigh : AMap (Bool × Nat × Fin 8) Word
  clBytes : AMap (Bool × Nat × Fin 8) Nat
  /-- The last response that reached each requester: address, data, failure (R25). -/
  got : AMap (Fin 8 × BitVec 10) (Nat × List Byte × Option Nat)
  deriving DecidableEq, Repr

def FabState.reset : FabState :=
  { tx := [], nextId := 0, pwlog := [], credits := [], escape := [], credAt := [], landing := [], share := [], ecc := [], eccWb := [],
    mcTemp := [], mcTempAt := [], mcRefresh := [], mcDrift := [], shPend := [], mcRate := [], clHigh := [], clBytes := [], got := [] }

end Sys2Proof.Machine
end

