-- ==== Sys2Proof/Machine/FwState.lean ====
section
/-! DEFINITION. The state of the firmware processors, rings, remote access and the sillage ring
(10_firmware_rings.md). The directory, the ring control blocks, the rings and the log itself are in memory. -/

namespace Sys2Proof.Machine

/-- State of a firmware processor as FW_FPSTATk codes it (R367): 0 reset, 1 starting, 2 running, 3 held. -/
inductive FpSt where
  | reset | starting | running | held
  deriving DecidableEq, Repr

/-- A firmware processor (R358, R359): state, restarts, LT of the last kick, of its last reset and of the moment it wrote
running (ns), the contexts that the present restart has to charge (R361). -/
structure Fp where
  st : FpSt
  restarts : BitVec 16
  lastKick : Nat
  resetAt : Nat
  runAt : Nat
  affected : List (BitVec 12)
  deriving DecidableEq, Repr

def Fp.reset : Fp := ⟨.reset, 0, 0, 0, 0, []⟩

/-- A ring pair as firmware holds it (R330 to R342): `sqTail` and `cqHead` are the last valid host values, `taken` is the
number of commands whose completion is still to come. -/
structure Ring where
  isOpen : Bool
  closing : Bool
  remote : Bool
  world : Bool
  ctx : BitVec 12
  sqN : Nat
  cqN : Nat
  sqBase : Nat
  cqBase : Nat
  sqTail : Word
  sqHead : Word
  cqTail : Word
  cqHead : Word
  held : List (List Byte)
  /-- The command entry taken from this pair whose completion is still to be posted (R337). -/
  taken : Option (BitVec 512)
  /-- Windows granted to a remote host: base, length, read, write (R349). -/
  windows : List (Nat × Nat × Bool × Bool)
  /-- The pair whose RING_CLOSE waits for this one. -/
  closeBy : Option (Fin 64)
  /-- Invalid values of SQ_TAIL and CQ_HEAD already reported (R332). -/
  badTail : Option Word
  badHead : Option Word
  deriving DecidableEq, Repr

def Ring.closed : Ring := ⟨false, false, false, false, 0, 0, 0, 0, 0, 0, 0, 0, 0, [], none, [], none, none, none⟩

/-- Where a remote host is (R350): the external switch port, whether it uses IPv6, its address (IPv4: the low 32 bits), its UDP port. -/
structure RapPeer where
  port : Fin 10
  v6 : Bool
  addr : BitVec 128
  udp : BitVec 16
  deriving DecidableEq, Repr

/-- A UDP datagram as it arrives at FP6 (R350): its source, VLAN, destination address and port, whether it is a fragment, its bytes. -/
structure RapDgram where
  peer : RapPeer
  vlan : BitVec 12
  dst : BitVec 128
  udp : BitVec 16
  frag : Bool
  bytes : List Byte
  deriving DecidableEq, Repr

/-- A remote-access session (R353 to R357): half open until its first sealed request verifies. `peer` is the source of its last valid
request; `done` holds the last 64 executed sequences with the datagrams that answered them, newest first. -/
structure Session where
  pair : Fin 64
  id : Word
  established : Bool
  openedLt : Nat
  lastValid : Nat
  lastNotify : Option Nat
  nonceHost : List Byte
  nonceDev : List Byte
  peer : RapPeer
  done : List (BitVec 64 × List Byte)
  deriving DecidableEq, Repr

/-- A datagram that the device sends: the pair, where to, and its bytes. -/
structure RapOut where
  pair : Fin 64
  dest : RapPeer
  bytes : List Byte
  deriving DecidableEq, Repr

structure FwState where
  fps : AMap (Fin 8) Fp
  /-- LT of the last kick of the management-core watchdog, and whether it runs. -/
  mcKick : Nat
  mcRunning : Bool
  rings : AMap (Fin 64) Ring
  sessions : List Session
  /-- Key slot of each remote pair, and K_ring in it (R349). -/
  ringKey : AMap (Fin 64) (Fin 256 × List Byte)
  logNext : Word
  /-- Sillage entries of the processors (8: management core) that wait while FP7 restarts: LT, point, arguments (R362). -/
  logHeld : AMap (Fin 9) (List (Nat × Nat × List Nat))
  traceMask : BitVec 16
  /-- gPTP state of each domain, as TIME_READ reports it (R643). -/
  gptpState : AMap (Fin 4) Nat
  /-- The last datagram that the device sent to the host of each pair. -/
  rapOut : AMap (Fin 64) RapOut
  deriving DecidableEq, Repr

def FwState.reset : FwState :=
  { fps := [], mcKick := 0, mcRunning := false, rings := [], sessions := [], ringKey := [],
    logNext := 0, logHeld := [], traceMask := 0, gptpState := [], rapOut := [] }

end Sys2Proof.Machine
end

