-- ==== Sys2Proof/Machine/GwState.lean ====
section
/-! DEFINITION. The state of the gateway: CAN, LIN, switch, flow table, host queues, signal gateway and PCIe root port
(16_gateway.md). Configuration registers and counters are in the register file. -/

namespace Sys2Proof.Machine

/-- A CAN frame (R519). -/
structure CanFrame where
  id : BitVec 29
  ide : Bool
  rtr : Bool
  fdf : Bool
  xlf : Bool
  brs : Bool
  esi : Bool
  sdt : Byte
  vcid : Byte
  af : Word
  data : List Byte
  deriving DecidableEq, Repr

/-- A pending transmit buffer (R517): its frame, and the host queue it came from. -/
structure CanBuf where
  frame : CanFrame
  queue : Option (Fin 32)
  deriving DecidableEq, Repr

/-- A CAN controller (R517, R518): pending buffers, TEC, REC, bus-off. -/
structure Can where
  bufs : AMap (Fin 32) CanBuf
  txErr : Nat
  rxErr : Nat
  busOff : Bool
  deriving DecidableEq, Repr

def Can.reset : Can := ⟨[], 0, 0, false⟩

/-- A LIN controller (R520, R521): schedule, whether it runs, its entry in progress, LT of the last header, the frame ID whose
slot is open, and the published responses (ENHANCED, when a record gave it, and data). -/
structure Lin where
  sched : List (Fin 64 × Nat)
  active : Bool
  entry : Nat
  started : Option Nat
  header : Option (Fin 64)
  resp : AMap (Fin 64) (Option Bool × List Byte)
  deriving DecidableEq, Repr

def Lin.reset : Lin := ⟨[], false, 0, none, none, []⟩

/-- An Ethernet frame in the switch: bytes without FCS, ingress port and stamp, and the host transmit queue it came from. -/
structure EthFrame where
  bytes : List Byte
  ingress : Fin 14
  stamp : Word
  queue : Option (Fin 32)
  deriving DecidableEq, Repr

/-- A transmit descriptor whose frame has not left: CTRL as read, copies still queued, whether one was dropped, the egress stamp. -/
structure TxFly where
  ctrl : Word
  copies : Nat
  dropped : Bool
  stamp : Word
  deriving DecidableEq, Repr

/-- A received frame whose descriptor is to be written back (R532). -/
structure RxDone where
  ctrl : Word
  len : Nat
  err : Nat
  port : Nat
  stamp : Word
  deriving DecidableEq, Repr

/-- A host queue (R529 to R532): state as GW_QSTATi codes it, binding, ring, index of the next descriptor, the descriptor in flight,
its result (error code, stamp, CTRL), received frames to write back. -/
structure GwQueue where
  st : Nat
  ctx : BitVec 12
  cls : Fin 8
  kind : Fin 4
  ctrl : Nat
  n : Nat
  base : Nat
  next : Nat
  fly : Option TxFly
  done : Option (Nat × Word × Word)
  rx : List RxDone
  deriving DecidableEq, Repr

def GwQueue.off : GwQueue := ⟨0, 0, 0, 0, 0, 0, 0, 0, none, none, []⟩

/-- A PDU (R534): descriptor fields, CAN buffer of a target, its 64-byte buffer, LT of the last reception, whether it has timed out,
and the 100 µs unit of the last periodic sending. -/
structure Pdu where
  bus : Fin 4
  ctrl : Nat
  target : Bool
  len : Nat
  fdf : Bool
  brs : Bool
  ide : Bool
  id : BitVec 29
  txmode : Nat
  period : Nat
  phase : Nat
  tmpl : Fin 256
  slot : Nat
  buf : List Byte
  lastRx : Nat
  timedOut : Bool
  lastSent : Option Nat
  deriving DecidableEq, Repr

/-- An MDIO transaction (R547): master, operation, PHY, device or register, address or data. -/
structure Mdio where
  master : Fin 2
  op : Nat
  phy : Nat
  dev : Nat
  data : Nat
  deriving DecidableEq, Repr

structure GwState where
  can : AMap (Fin 24) Can
  lin : AMap (Fin 8) Lin
  /-- Member masks of the configured VLANs. -/
  vlans : AMap (BitVec 12) (BitVec 14)
  /-- Egress queues, oldest first. -/
  egress : AMap (Fin 14 × Fin 8) (List EthFrame)
  /-- Address of the shaper and gate list that SW_PORT gave each port. -/
  shapers : AMap (Fin 14) Nat
  /-- Flow entries by slot: bucket * 8 + way, then the stash from 1,040,384 (R526). -/
  flows : AMap Nat (BitVec 128)
  queues : AMap (Fin 32) GwQueue
  pdus : AMap (Fin 8192) Pdu
  templates : AMap (Fin 256) (List Byte)
  routes : AMap (Fin 65536) (BitVec 128)
  mdio : Option Mdio
  /-- The root port yields (R542). -/
  pciYield : Bool
  /-- Inbound posted requests that the root port holds: requester, address, data (R542). -/
  pciInQ : List (Src × Nat × List Byte)
  /-- LT of the last credit from the link, or into the fabric (R542). -/
  pciCredAt : Nat
  /-- The last inbound read's address and completion (none: Unsupported Request). -/
  pciIn : Option (Nat × Option (List Byte))
  deriving DecidableEq, Repr

def GwState.reset : GwState :=
  { can := [], lin := [], vlans := [], egress := [], shapers := [], flows := [], queues := [], pdus := [], templates := [],
    routes := [], mdio := none, pciYield := false, pciInQ := [], pciCredAt := 0, pciIn := none }

end Sys2Proof.Machine
end

