-- ==== Sys2Proof/Machine/MediaState.lean ====
section
/-! DEFINITION. The state of the Media die: streams, graphics queues, planes, codec sessions (17_media_die.md). -/

namespace Sys2Proof.Machine

/-- A frame of a stream from its Frame Start until its final record (R557 to R559). -/
structure FrameRx where
  frame : Word
  lines : Nat
  crc : Nat
  sof : Nat
  eof : Option Nat
  failed : Bool
  late : Bool
  trunc : Bool
  deriving DecidableEq, Repr

/-- An enabled stream (R556, R557): descriptor fields, the tuning in use and the one of the next frame, the frame being received, and
ended frames whose record is still to be written, oldest first. -/
structure Stream where
  vc : Fin 16
  dt : BitVec 6
  wheel : Fin 4
  ctx : BitVec 12
  height : Nat
  width : Nat
  isp : Bool
  cls : Fin 8
  fmt : Nat
  slots : Nat
  linetime : Nat
  planes : List Nat
  stride : Nat
  slotstr : Nat
  record : Nat
  due : BitVec 17
  tune : Nat
  tuneNext : Nat
  cur : Option FrameRx
  ended : List FrameRx
  deriving DecidableEq, Repr

/-- A CSI-2 packet (R554, R558): whether its header was right, corrected or uncorrectable, its virtual channel, and its kind. -/
inductive CsiKind where
  | frameStart | frameEnd | lineSync
  /-- A long packet: data type, payload, whether its CRC is right, whether the input buffer has room, and whether the ISP's line buffer
  corrected an error. -/
  | line (dt : BitVec 6) (payload : List Byte) (crcOk room ispEcc : Bool)
  deriving DecidableEq, Repr

inductive CsiHeader where
  | good | corrected | bad
  deriving DecidableEq, Repr

/-- Load operations of an attachment (R565). -/
inductive LoadOp where
  | load | clear | fastclear | dontcare
  deriving DecidableEq, Repr

/-- An attachment record (R565): base, line stride, bytes that one sample takes in its format, load operation, store flag, flag-array
base where it has one, and the clear value. -/
structure Attach where
  base : Addr
  stride : Nat
  bpp : Nat
  op : LoadOp
  store : Bool
  flags : Option Addr
  clear : List Byte
  deriving DecidableEq, Repr

/-- A pass descriptor (R565): MAGIC, width and height, samples, whether the draw stream draws anything, SPILL where it is not 0,
PRESENT: output, plane, image; and the attachments. TLBASE and TLSIZE are in the chunks that the lists need (R568). -/
structure PassDesc where
  magic : Word
  width : Nat
  height : Nat
  samples : Nat
  draws : Bool
  spill : Option Addr
  present : Option (Fin 6 × Fin 4 × Fin 4)
  atts : List Attach
  deriving DecidableEq, Repr

/-- A flag array as a reader names it (R572): its base, the tiles of a row, the clear value. -/
structure Flags where
  base : Addr
  row : Nat
  clear : List Byte
  deriving DecidableEq, Repr

/-- A texture level (R572 to R574): base, texels of a row, bytes of a texel as a power of two, line stride of a surface (none for a
level in pages), flag array, and residency and feedback map of a sparse texture. -/
structure Texture where
  base : Addr
  width : Nat
  log : Fin 5
  stride : Option Nat
  flags : Option Flags
  sparse : Option (Addr × Addr)
  deriving DecidableEq, Repr

/-- What a shader does that the device sees (R567, R574): it looks up a texel, writes memory, and inside an ordered region reads or writes
an attachment's value of its sample in tile memory. -/
inductive ShaderOp where
  | look (t : Texture) (x y : Nat)
  | write (a : Addr) (bs : List Byte)
  | regionRead (att : Fin 5)
  | regionWrite (att : Fin 5) (bs : List Byte)
  deriving DecidableEq, Repr

/-- A fragment (R566, R567): submission index, shader core, pixel in its tile, sample, what its shader does, and the values with which
it retires: what its test-and-write and its blend leave in each attachment, empty when it is discarded. -/
structure Frag where
  sub : Nat
  core : Fin 24
  x : Fin 32
  y : Fin 32
  sample : Fin 4
  ops : List ShaderOp
  out : List (Fin 5 × List Byte)
  deriving DecidableEq, Repr

/-- A step of a pass (R566, R569): a shader core, or the binner, works outside tiles; a mid-frame flush renders the tiles whose lists are
not empty; the next tile in tile order is rendered. -/
inductive GfxAct where
  | bin (core : Option (Fin 24)) (op : ShaderOp)
  | flush (tiles : List (Nat × List Frag))
  | tile (frags : List Frag)
  /-- Tile memory meets an error (R586). -/
  | tileError (e : EccErr)
  /-- The texture caches meet wrong parity in their k-th line (R586). -/
  | texParity (k : Nat)
  deriving DecidableEq, Repr

/-- What a shader is given (R567, R574): a texel and whether its page is resident, or a value of tile memory. -/
inductive Given where
  | texel (resident : Bool) (bs : List Byte)
  | tile (bs : List Byte)
  deriving DecidableEq, Repr

/-- A pass of a queue (R563, R564): its entry address, IRQ, WAIT, whether it has started, its descriptor, its result so far; flushes and
those still to be rendered, pool chunks; the next tile; tiles in SPILL (R569); whether a write failed; what its writes replaced, latest
first (R575); and what its shaders were given, in order. -/
structure Pass where
  entry : Nat
  irq : Bool
  wait : Option (Fin 16 × Word)
  started : Bool
  desc : PassDesc
  res : Nat
  flushes : Nat
  flushLeft : Nat
  chunks : Nat
  next : Nat
  flushed : List Nat
  failed : Bool
  before : List (Nat × List Byte)
  given : List Given
  deriving DecidableEq, Repr

/-- A descriptor of nothing, which stands until the pass has read its own. -/
def PassDesc.none : PassDesc := ⟨0, 0, 0, 0, false, .none, .none, []⟩

/-- A graphics queue (R563, R576): state as GFX_QSTATq codes it, binding, ring, next entry, SEQ of the last write-back. -/
structure GfxQueue where
  st : Nat
  ctx : BitVec 12
  cls : Fin 8
  n : Nat
  base : Nat
  compositor : Bool
  next : Nat
  seq : Word
  pass : Option Pass
  deriving DecidableEq, Repr

def GfxQueue.off : GfxQueue := ⟨0, 0, 0, 0, 0, false, 0, 0, none⟩

/-- An overflow pool (R568): base, chunks of 64 KiB, chunks taken. -/
structure Pool where
  base : Nat
  chunks : Nat
  used : Nat
  deriving DecidableEq, Repr

/-- Formats of a plane (R577). -/
inductive PlaneFmt where
  | argb8888 | argb2101010 | argbFp16 | nv12
  deriving DecidableEq, Repr

/-- A rectangle in pixels. -/
structure Rect where
  x : Nat
  y : Nat
  w : Nat
  h : Nat
  deriving DecidableEq, Repr

/-- A plane record (R583): images, format, source and destination rectangles, line stride, flag array, transform slot; and the size of its
images, outside which a coordinate gives the border colour (R578). -/
structure PlaneRec where
  images : List Addr
  fmt : PlaneFmt
  src : Rect
  dst : Rect
  size : Nat × Nat
  stride : Nat
  flags : Option Flags
  slot : Addr
  deriving DecidableEq, Repr

/-- What a plane gives for a pixel of the line sent: the border colour, a pixel of its image, or the point of its image that is sampled
bilinearly, or with a scaling filter (R577, R578). -/
inductive PlanePix where
  | border
  | pixel (bs : List Byte)
  | at (x y : Word)
  | scaled
  deriving DecidableEq, Repr

/-- A display plane (R577 to R580): context, plane record; images written back since the last
latch with LT, oldest first, the image shown, images latched, and the transform last read. -/
structure Plane where
  ctx : BitVec 12
  reproj : Bool
  desc : PlaneRec
  newest : List (Fin 4 × Nat)
  shown : Option (Fin 4)
  latched : List (Fin 4)
  transform : List Byte
  deriving DecidableEq, Repr

/-- A codec session (R582). -/
structure Codec where
  ctx : BitVec 12
  cls : Fin 8
  encode : Bool
  rate : Nat
  ring : Nat
  next : Nat
  deriving DecidableEq, Repr

structure MediaState where
  streams : AMap (Fin 64) Stream
  gfx : AMap (Fin 16) GfxQueue
  pools : AMap (BitVec 12) Pool
  planes : AMap (Fin 6 × Fin 4) Plane
  /-- Planes that take effect from the next frame; none removes one (R583). -/
  planeNext : AMap (Fin 6 × Fin 4) (Option Plane)
  /-- Outputs whose link has trained, and the line each one sends. -/
  trained : BitVec 6
  line : AMap (Fin 6) Nat
  /-- What each plane gave for the line sent last. -/
  sent : AMap (Fin 6 × Fin 4) (List PlanePix)
  /-- The texture caches: texels looked up since the last pass started, by address and length (R575). -/
  tex : AMap (Nat × Nat) (List Byte)
  codecs : AMap (Fin 16) Codec
  deriving DecidableEq, Repr

def MediaState.reset : MediaState :=
  { streams := [], gfx := [], pools := [], planes := [], planeNext := [], trained := 0, line := [], sent := [], tex := [], codecs := [] }

end Sys2Proof.Machine
end

