-- ==== Sys2Proof/Machine/SchedState.lean ====
section
/-! DEFINITION. The state of wheels, partitions, jobs and accounting (08_frame_wheel.md). -/

namespace Sys2Proof.Machine

/-- State of a wheel as WHL_STATw codes it: 0 stopped, 1 armed, 2 running, 3 free run (R261). -/
inductive WheelSt where
  | stopped | armed | running | freeRun
  deriving DecidableEq, Repr

/-- A wheel (R251 to R262). `begun`: a frame has begun since the wheel was last enabled from disabled. `period`: the
nominal period taken at the last accepted enable. `startDue`: a camera frame-start event has ended the frame, the next
tick is phase 0. `hold`: tick 0xFFFF has run its full length and no event has come. -/
structure Wheel where
  st : WheelSt
  begun : Bool
  frame : Word
  phase : BitVec 16
  freeFrames : Nat
  startLt : Word
  period : Word
  startDue : Bool
  hold : Bool
  /-- LT at the last tick, ns (TICKCYCw, R126). -/
  tickLt : Nat
  /-- The moment, in the time base of the wheel's ticks, at which phase `anchorPh` of the frame began (R252, R253, R256). -/
  anchorT : Nat
  anchorPh : Nat
  /-- A start event of the wheel's trigger that has not been taken: the edge time in its base (R241). -/
  event : Option Nat
  deriving DecidableEq, Repr

def Wheel.reset : Wheel := ⟨.stopped, false, 0, 0, 0, 0, 0, false, false, 0, 0, 0, none⟩

/-- A cluster record of a partition descriptor (R268): the cluster, its cores, its paired pairs and its range of the
cluster store in 64 KiB units. -/
structure PRec where
  cl : ClusterId
  cores : BitVec 8
  pairs : BitVec 4
  csEnd : Nat
  csStart : Nat
  deriving DecidableEq, Repr

/-- Type of a job kind (R269). -/
inductive KType where
  | periodic | queued | accordOnly
  deriving DecidableEq, Repr

/-- A job descriptor (R270) with the ring pair its completions go to. -/
structure JobDesc where
  part : Fin 32
  kind : Fin 32
  tag : Word
  arg : Nat
  res : Nat
  pri : Fin 4
  pair : Fin 64
  opcode : BitVec 8
  cmdid : BitVec 16
  notify : Fin 4
  deriving DecidableEq, Repr

/-- A job kind of an admitted formula: its job record in the certificate (R272), whether it is armed and from which
frame, and the argument block staged for its next launch with the frame it was read in (R271). -/
structure Kind where
  typ : KType
  num : Fin 32
  firstRec : Nat
  lastRec : Nat
  launch : BitVec 16
  deadline : BitVec 17
  worst : BitVec 17
  accLen : Nat
  accPhase : BitVec 16
  entry : BitVec 20
  qdepth : Nat
  plead : Nat
  input : BitVec 17
  armed : Bool
  armFrame : Word
  desc : Option JobDesc
  staged : Option (Word × Option (List Byte))
  nextSeq : Word
  lastFrame : Option Word
  /-- The frame at whose launch tick a queued job had to be stopped: that launch is late (R296). -/
  hit : Option Word
  deriving DecidableEq, Repr

/-- A resource record of a certificate (R272) and the share entry it was installed in. -/
structure ResRec where
  typ : Nat
  die : Fin 8
  unit : Nat
  cls : Fin 8
  amount : Word
  agents : Word
  entry : Nat
  deriving DecidableEq, Repr

/-- An admitted partition (R265 to R268, R276, R278). The lead is the cadence unit of the first record's cluster. -/
structure Part where
  ctx : BitVec 12
  wheel : Fin 4
  cls : Fin 8
  paired : Bool
  recs : List PRec
  yline : BitVec 20
  argline : BitVec 20
  kinds : List Kind
  res : List ResRec
  /-- FORMULA, the digest of the certificate, and the weight package with its group (R476, R478). -/
  formula : List Byte
  cert : List Byte
  wpkg : List Byte
  group : Word
  unloading : Bool
  /-- Marked failed by FP3: no launch, arm or submission (R416). -/
  failed : Bool
  /-- A partition reset is under way: requests of its cores are fenced (R458). -/
  fenced : Bool
  /-- Kinds that were armed when the wheel stopped: queued jobs wait until they are armed again (R258). -/
  rearm : List (Fin 32)
  /-- The pair whose PART_UNLOAD waits for UNLOAD_FINISH. -/
  unloadBy : Option (Fin 64)
  /-- What device firmware placed in each local store at admission: core, offset, bytes (R276, R458). -/
  code : List (CoreId × Nat × List Byte)
  deriving DecidableEq, Repr

/-- Outcome of a completion record (R282). -/
inductive JOut where
  | empty | done | aborted | missed | faulted | wheelStop
  deriving DecidableEq, Repr

/-- A job instance and its completion record (R282, R283). `num` is the job frame or the submission number. -/
structure Job where
  part : Fin 32
  kind : Fin 32
  ctx : BitVec 12
  queued : Bool
  num : Word
  desc : JobDesc
  out : JOut
  late : Bool
  freerun : Bool
  pwfail : Word
  endph : BitVec 17
  /-- LT when the submission was accepted, at the first launch and at the last yield, ns. -/
  acceptLt : Nat
  launchLt : Nat
  yieldLt : Nat
  launched : Bool
  yielded : Bool
  /-- Ticks of the wheel since the first launch. -/
  ticks : Nat
  frame : Word
  /-- Cores that still have to END in this (re)launch, and those that ended with a RESUME offset. -/
  running : List CoreId
  resume : List (CoreId × BitVec 20)
  /-- Cores still to become idle after a stop (R285). -/
  stopping : Bool
  /-- LT when the outcome was set, ns (R336). -/
  finalLt : Nat
  /-- Core of the last late event (R287, R366). -/
  lateCore : Nat
  /-- The lead and the class of its partition (R267, R268). -/
  lead : ClusterId
  cls : Fin 8
  posted : Bool
  deriving DecidableEq, Repr

/-- What a launch or a deadline check names: a kind of a partition, or a launch entry of a cadence unit (R301). -/
inductive LaunchRef where
  | job (p k : Fin 32)
  | entry (cl : ClusterId) (i : Fin 64)
  deriving DecidableEq, Repr

/-- Accounting record of a context (R297). -/
structure Acct where
  launched : Word
  done : Word
  aborted : Word
  missed : Word
  late : Word
  preempts : Word
  fwpreempts : Word
  qwaitmax : Word
  qwaitsum : BitVec 64
  preemptns : BitVec 64
  corecyc : BitVec 64
  arrbusy : BitVec 64
  deriving DecidableEq, Repr

def Acct.zero : Acct := ⟨0, 0, 0, 0, 0, 0, 0, 0, 0, 0, 0, 0⟩

/-- An abort on its way from the unit that was written to the lead, or its answer on the way back (R286). -/
structure AbortMsg where
  unit : ClusterId
  part : Fin 32
  kind : Fin 32
  num : BitVec 16
  /-- The answer, once the lead has taken the abort: ALREADY and OUTCOME. -/
  answer : Option (Bool × Nat)
  deriving DecidableEq, Repr

structure SchedState where
  wheels : AMap (Fin 4) Wheel
  parts : AMap (Fin 32) Part
  jobs : List Job
  /-- Final records waiting for FP2, oldest first (R345, R360). -/
  mailbox : List Job
  acct : AMap (BitVec 12) Acct
  /-- Launch entries that device firmware installed: unit, entry, partition, kind (R276, R300). -/
  ltab : AMap (ClusterId × Fin 64) (Fin 32 × Fin 32)
  aborts : List AbortMsg
  deriving DecidableEq, Repr

def SchedState.reset : SchedState := ⟨[], [], [], [], [], [], []⟩

end Sys2Proof.Machine
end

