-- ==== Sys2Proof/Machine/WoadeState.lean ====
section
/-! DEFINITION. The state of the Woade block: ports, flows, schedules, queues, messages, the pair (18_woade_links.md). -/

namespace Sys2Proof.Machine

/-- A flit of a message (R591, R597, R599, R600): its message's source, destination and flow, whether its slot was scheduled, its virtual
channel when not, whether it is the message's first and last, and its payload. -/
structure Flit where
  src : BitVec 14
  dst : BitVec 14
  flow : Fin 256
  sched : Bool
  vc : Fin 2
  first : Bool
  last : Bool
  data : List Byte
  deriving DecidableEq, Repr

/-- What a line frame brings (R591, R607): symbols corrected in each codeword and the flit, a lost flit, or the partner's request to replay
the k-th latest unscheduled flit. -/
inductive WFrame where
  | flit (even odd : Fin 5) (f : Flit)
  | lost
  | replay (k : Fin 256)
  deriving DecidableEq, Repr

/-- A heartbeat (R606). -/
structure Heartbeat where
  dev : BitVec 14
  pkg : BitVec 3
  ready : Bool
  word : Word
  deriving DecidableEq, Repr

/-- A maintenance flit (R596, R606): its send stamp in slot time, the send stamp of the partner's last one with its receive stamp, and on
a pair port the heartbeat. -/
structure Maint where
  stamp : Nat
  echo : Option (Nat × Nat)
  hb : Option Heartbeat
  deriving DecidableEq, Repr

/-- A message in a flow's send buffer (R600, R601): header and payload, flits that have left, the send queue that waits for it, and the LT
since which it waits for an output port (R599, R608). -/
structure WMsg where
  bytes : List Byte
  off : Nat
  sq : Option (Fin 16)
  wait : Nat
  deriving DecidableEq, Repr

structure WFlow where
  ctx : BitVec 12
  cls : Fin 8
  sched : Bool
  dev : BitVec 14
  rq : Fin 64
  seq : BitVec 16
  buf : List WMsg
  deriving DecidableEq, Repr

/-- A port (R596, R608, R612): state as WDE_PSTATp codes it; SUSPENDED now and from the next round; consecutive rounds within the
limit; LT at which training began or failed; LT at which the port stopped being up; LT of frames lost, latest first (R608); credits in use on
each virtual channel (R599); the maintenance flit sent last, and the send and receive stamps of the one received last (R596); the flits sent
in this slot; the unscheduled ones that can be replayed, latest first (R607). -/
structure WPort where
  st : Nat
  suspended : Bool
  susNext : Bool
  good : Nat
  since : Nat
  downAt : Nat
  lostAt : List Nat
  cred : Nat × Nat
  maint : Option Maint
  got : Option (Nat × Nat)
  out : List Flit
  replay : List Flit
  deriving DecidableEq, Repr

def WPort.reset : WPort :=
  { st := 0, suspended := false, susNext := false, good := 0, since := 0, downAt := 0, lostAt := [], cred := (0, 0), maint := none, got := none,
    out := [], replay := [] }

/-- A valid schedule entry (R597). -/
structure WEntry where
  transit : Bool
  inport : Fin 8
  flow : Fin 256
  deriving DecidableEq, Repr

/-- A send queue (R603): state as WDE_SQSTATq codes it, flow, ring, next descriptor to take and to write back, and ended messages:
error code and stamp. -/
structure WSq where
  st : Nat
  flow : Fin 256
  n : Nat
  base : Nat
  next : Nat
  wb : Nat
  done : List (Nat × Word)
  deriving DecidableEq, Repr

/-- A receive queue (R604). -/
structure WRq where
  st : Nat
  ctx : BitVec 12
  cls : Fin 8
  n : Nat
  base : Nat
  next : Nat
  lo : BitVec 14
  hi : BitVec 14
  deriving DecidableEq, Repr

/-- A message at its destination with the bytes of the flits that arrived, its arrival port and the LT of its last flit. -/
structure WRx where
  bytes : List Byte
  port : Fin 8
  stamp : Word
  deriving DecidableEq, Repr

/-- The fail-operational pair (R606): rounds since the last valid heartbeat, a heartbeat in this round (with READY), consecutive good
rounds, PARTNERLOSS since ALIVE. -/
structure WPair where
  enabled : Bool
  partner : BitVec 14
  hbmiss : Nat
  alive : Bool
  lost : Bool
  pkg : BitVec 3
  count : Nat
  seen : Bool
  good : Nat
  deriving DecidableEq, Repr

structure WoadeState where
  ports : AMap (Fin 8) WPort
  flows : AMap (Fin 255) WFlow
  sched : AMap (Fin 8 × Fin 1024) WEntry
  pending : Option (Word × AMap (Fin 8 × Fin 1024) WEntry)
  /-- The round and the slot that began last. -/
  round : Nat
  slot : Nat
  sqs : AMap (Fin 16) WSq
  rqs : AMap (Fin 64) WRq
  /-- Scheduled flits for other devices that arrived in this slot, and unscheduled ones that wait for an output port. -/
  arrived : List (Fin 8 × Flit)
  transit : List (Fin 8 × Flit)
  /-- Messages being received, by source and flow, and whole ones that wait for their queue. -/
  partials : AMap (BitVec 14 × Fin 256) (List Byte)
  ready : List WRx
  /-- The SEQ that follows the last message of a flow, by source (R604). -/
  expect : AMap (BitVec 14 × Fin 256) (BitVec 16)
  pair : WPair
  deriving DecidableEq, Repr

def WoadeState.reset : WoadeState :=
  { ports := [], flows := [], sched := [], pending := none, round := 0, slot := 0, sqs := [], rqs := [], arrived := [], transit := [],
    partials := [], ready := [], expect := [], pair := ⟨false, 0, 3, false, false, 0, 0, false, 0⟩ }

end Sys2Proof.Machine
end

