-- ==== Sys2Proof/Syntax.lean ====
section
/-! DEFINITION. The commands of the block: one constructor for each row of opcode_table.json, in the table's order.

An event that the world outside the package decides (what a line delivers, what a signature gives, when a plan ends) has what was
decided as operands. A command that does not find its condition met leaves the state as it is. `src` is the requester of a register
write, `p` the ring pair whose next entry the command takes, `c` a core. -/

namespace Sys2Proof

open Machine

/-- The commands, each with the rule that gives it. -/
inductive Instr where
  /-- REGISTER_WRITE (R14): `size` bytes of a word at address `a`. -/
  | registerWrite (src : Src) (a : Addr) (size : Fin 9) (v : BitVec 64)
  /-- EXPERT_EN_WRITE (R640). -/
  | expertEnWrite (src : Src) (a : Addr) (v : Word)
  /-- READ_CLEAR (R10). -/
  | readClear (src : Src) (a : Addr)
  /-- READ_REQUEST (R25): `len` bytes from address `a`; `reply` is the completion of a PCIe endpoint, which only a read of its space uses. -/
  | readRequest (src : Src) (a : Addr) (len : Nat) (reply : Option (List Byte))
  /-- POSTED_WRITE (R25). -/
  | postedWrite (src : Src) (a : Addr) (data : List Byte)
  /-- READ_RESPONSE (R25): of the transaction with that number. -/
  | readResponse (id : Nat)
  /-- WRITE_ACK (R25): of the transaction with that number. -/
  | writeAck (id : Nat)
  /-- FAILURE_NOTICE (R224): of the transaction with that number. -/
  | failureNotice (id : Nat)
  /-- SPLIT_READ_TIMEOUT (R222). -/
  | splitReadTimeout (id : Nat)
  /-- POSTED_WRITE_TIMEOUT (R223). -/
  | postedWriteTimeout (id : Nat)
  /-- CREDIT_RETURN (R219): die, port, class. -/
  | creditReturn (d : Fin 8) (p : Fin 7) (c : Fin 8)
  /-- PORT_YIELD (R227): port of the Vehicle die; flits that pass through the escape buffer. -/
  | portYield (p : Fin 7) (n : Fin 33)
  /-- FLIT_CRC_ERROR (R229): die, port. -/
  | flitCrcError (d : Fin 8) (p : Fin 7)
  /-- DIE_PORT_LINK_FAIL (R457). -/
  | diePortLinkFail (d : Fin 8) (p : Fin 7)
  /-- SHARE_WINDOW_START (R214): a die-port direction or a memory controller, its number, and the entries that waited throughout the window that ends, with slots received and requests waiting. -/
  | shareWindowStart (isPort : Bool) (i : Nat) (ended : List (Fin 32 × Nat × Nat))
  /-- DRAM_REFRESH (R204). -/
  | dramRefresh (i : Nat)
  /-- DRIFT_COMPENSATION (R203). -/
  | driftCompensation (i : Nat)
  /-- DRAM_TEMP_READ (R201): controller, temperature. -/
  | dramTempRead (i temp : Nat)
  /-- DRAM_CE_WRITEBACK (R206): granule address. -/
  | dramCeWriteback (g : Nat)
  /-- LS_ECC_WRITEBACK (R106): granule address. -/
  | lsEccWriteback (g : Nat)
  /-- CS_ECC_WRITEBACK (R197): granule address. -/
  | csEccWriteback (g : Nat)
  /-- PWLOG_POP (R231). -/
  | pwlogPop (src : Src) (d : Fin 8)
  /-- DOMAIN_SWITCH_DONE (R388): `silent` is a checker that the blotter test finds silent: code, unit. -/
  | domainSwitchDone (d : Fin 116) (silent : Option (Fin 11 × Nat))
  /-- DOMAIN_DRAIN_END (R54). -/
  | domainDrainEnd (d : Fin 116)
  /-- CONTEXT_LOAD (R107): a set of cores of one cluster. -/
  | contextLoad (cl : ClusterId) (mask : BitVec 8)
  /-- CORE_START (R118). -/
  | coreStart (src : Src) (c : CoreId)
  /-- CORE_STEP (R118). -/
  | coreStep (src : Src) (c : CoreId)
  /-- HALT_REQUEST (R122). -/
  | haltRequest (src : Src) (c : CoreId)
  /-- HALT_COMPLETE (R122). -/
  | haltComplete (c : CoreId)
  /-- DMA_CHANNEL_GO (R110). -/
  | dmaChannelGo (src : Src) (c : CoreId) (ch : Fin 8)
  /-- DMA_CHANNEL_STOP (R110). -/
  | dmaChannelStop (src : Src) (c : CoreId) (ch : Fin 8)
  /-- DMA_CHAIN_START (R144). -/
  | dmaChainStart (c : CoreId) (ch : Fin 8)
  /-- DMA_DESCRIPTOR_LAUNCH (R110): `ep` is what a PCIe endpoint answers to the read of each beat. -/
  | dmaDescriptorLaunch (c : CoreId) (ch : Fin 8) (ep : List (Option (List Byte)))
  /-- DMA_PHASED_LAUNCH (R111): `ep` as above. -/
  | dmaPhasedLaunch (c : CoreId) (ch : Fin 8) (ep : List (Option (List Byte)))
  /-- DMA_COMPLETION (R112): `ep` as above. -/
  | dmaCompletion (c : CoreId) (ch : Fin 8) (ep : List (Option (List Byte)))
  /-- DMA_STOP_SETTLE (R110). -/
  | dmaStopSettle (c : CoreId) (ch : Fin 8)
  /-- ERRSTOP (R130). -/
  | errstop (c : CoreId)
  /-- PAIR_MISMATCH (R116): kind of the mismatch (R120). -/
  | pairMismatch (p : PairId) (kind : Fin 8)
  /-- PAIR_ENABLE (R422). -/
  | pairEnable (src : Src) (p : PairId) (en : Bool)
  /-- STREAM_START (R171). -/
  | streamStart (c : CoreId)
  /-- ACCORD_DONE (R157): `wrong` is the signature of a core that does not work (R415). -/
  | accordDone (c : CoreId) (wrong : Option Word)
  /-- NOP (R134): bits [55:0] of the word as fetched, as in every Benvor row. -/
  | nop (c : CoreId) (w : BitVec 56)
  /-- WAITC (R134). -/
  | waitc (c : CoreId) (w : BitVec 56)
  /-- SOP (R135). -/
  | sop (c : CoreId) (w : BitVec 56)
  /-- SOPI (R135). -/
  | sopi (c : CoreId) (w : BitVec 56)
  /-- SRD (R126). -/
  | srd (c : CoreId) (w : BitVec 56)
  /-- AADD (R134). -/
  | aadd (c : CoreId) (w : BitVec 56)
  /-- AADDI (R134). -/
  | aaddi (c : CoreId) (w : BitVec 56)
  /-- ALI (R134). -/
  | ali (c : CoreId) (w : BitVec 56)
  /-- AMOVS (R134). -/
  | amovs (c : CoreId) (w : BitVec 56)
  /-- ASETS (R134). -/
  | asets (c : CoreId) (w : BitVec 56)
  /-- BR (R136). -/
  | br (c : CoreId) (w : BitVec 56)
  /-- JMP (R136). -/
  | jmp (c : CoreId) (w : BitVec 56)
  /-- JAL (R136). -/
  | jal (c : CoreId) (w : BitVec 56)
  /-- JR (R136). -/
  | jr (c : CoreId) (w : BitVec 56)
  /-- LOOP (R137). -/
  | loop (c : CoreId) (w : BitVec 56)
  /-- LOOPI (R137). -/
  | loopi (c : CoreId) (w : BitVec 56)
  /-- POP (R140). -/
  | pop (c : CoreId) (w : BitVec 56)
  /-- PLANE (R140). -/
  | plane (c : CoreId) (w : BitVec 56)
  /-- PMOVS (R140). -/
  | pmovs (c : CoreId) (w : BitVec 56)
  /-- PFROMS (R140). -/
  | pfroms (c : CoreId) (w : BitVec 56)
  /-- LDB (R141). -/
  | ldb (c : CoreId) (w : BitVec 56)
  /-- LDBU (R141). -/
  | ldbu (c : CoreId) (w : BitVec 56)
  /-- LDH (R141). -/
  | ldh (c : CoreId) (w : BitVec 56)
  /-- LDHU (R141). -/
  | ldhu (c : CoreId) (w : BitVec 56)
  /-- LDW (R141). -/
  | ldw (c : CoreId) (w : BitVec 56)
  /-- LDA (R141). -/
  | lda (c : CoreId) (w : BitVec 56)
  /-- STB (R141). -/
  | stb (c : CoreId) (w : BitVec 56)
  /-- STH (R141). -/
  | sth (c : CoreId) (w : BitVec 56)
  /-- STW (R141). -/
  | stw (c : CoreId) (w : BitVec 56)
  /-- STA (R141). -/
  | sta (c : CoreId) (w : BitVec 56)
  /-- VLD (R141). -/
  | vld (c : CoreId) (w : BitVec 56)
  /-- VST (R141). -/
  | vst (c : CoreId) (w : BitVec 56)
  /-- AMOADD (R143). -/
  | amoadd (c : CoreId) (w : BitVec 56)
  /-- AMOSWAP (R143). -/
  | amoswap (c : CoreId) (w : BitVec 56)
  /-- AMOCAS (R143). -/
  | amocas (c : CoreId) (w : BitVec 56)
  /-- DMAGO (R144). -/
  | dmago (c : CoreId) (w : BitVec 56)
  /-- DMASTOP (R144). -/
  | dmastop (c : CoreId) (w : BitVec 56)
  /-- SIGWAIT (R146). -/
  | sigwait (c : CoreId) (w : BitVec 56)
  /-- SIGPOST (R147). -/
  | sigpost (c : CoreId) (w : BitVec 56)
  /-- BAR (R148). -/
  | bar (c : CoreId) (w : BitVec 56)
  /-- FENCE (R151). -/
  | fence (c : CoreId) (w : BitVec 56)
  /-- PWB (R152). -/
  | pwb (c : CoreId) (w : BitVec 56)
  /-- PWAIT (R154). -/
  | pwait (c : CoreId) (w : BitVec 56)
  /-- ACCORD (R157). -/
  | accord (c : CoreId) (w : BitVec 56)
  /-- END (R158). -/
  | endProgram (c : CoreId) (w : BitVec 56)
  /-- MMA (R169). -/
  | mma (c : CoreId) (w : BitVec 56)
  /-- WLD (R167). -/
  | wld (c : CoreId) (w : BitVec 56)
  /-- AMV (R172). -/
  | amv (c : CoreId) (w : BitVec 56)
  /-- AMVW (R173). -/
  | amvw (c : CoreId) (w : BitVec 56)
  /-- VIOP (R175). -/
  | viop (c : CoreId) (w : BitVec 56)
  /-- VSOP (R175). -/
  | vsop (c : CoreId) (w : BitVec 56)
  /-- VFOP (R175). -/
  | vfop (c : CoreId) (w : BitVec 56)
  /-- VFMA (R175). -/
  | vfma (c : CoreId) (w : BitVec 56)
  /-- VFDS (R175). -/
  | vfds (c : CoreId) (w : BitVec 56)
  /-- VFAPX (R175). -/
  | vfapx (c : CoreId) (w : BitVec 56)
  /-- VCMP (R176). -/
  | vcmp (c : CoreId) (w : BitVec 56)
  /-- VMOV (R175). -/
  | vmov (c : CoreId) (w : BitVec 56)
  /-- VCVT (R177). -/
  | vcvt (c : CoreId) (w : BitVec 56)
  /-- VREQ (R178). -/
  | vreq (c : CoreId) (w : BitVec 56)
  /-- VMXQ_QUANTISE (R179). -/
  | vmxqQuantise (c : CoreId) (w : BitVec 56)
  /-- VMXQ_DEQUANTISE (R180). -/
  | vmxqDequantise (c : CoreId) (w : BitVec 56)
  /-- VRED (R181). -/
  | vred (c : CoreId) (w : BitVec 56)
  /-- AOPEN (R183). -/
  | aopen (c : CoreId) (w : BitVec 56)
  /-- ASTEP (R184). -/
  | astep (c : CoreId) (w : BitVec 56)
  /-- ASTATE (R186). -/
  | astate (c : CoreId) (w : BitVec 56)
  /-- AVAC (R169). -/
  | avac (c : CoreId) (w : BitVec 56)
  /-- AEXP2 (R187). -/
  | aexp2 (c : CoreId) (w : BitVec 56)
  /-- VAPP (R190). -/
  | vapp (c : CoreId) (w : BitVec 56)
  /-- VFIL (R191). -/
  | vfil (c : CoreId) (w : BitVec 56)
  /-- VFLS (R191). -/
  | vfls (c : CoreId) (w : BitVec 56)
  /-- PHASE_TICK (R251). -/
  | phaseTick (w : Fin 4)
  /-- WHEEL_START_EVENT (R252). -/
  | wheelStartEvent (w : Fin 4)
  /-- SOURCE_HOLD_TIMEOUT (R256). -/
  | sourceHoldTimeout (w : Fin 4)
  /-- FREE_RUN_EXPIRE (R256). -/
  | freeRunExpire (w : Fin 4)
  /-- WHEEL_ENABLE (R260). -/
  | wheelEnable (src : Src) (w : Fin 4) (v : Word)
  /-- ARGUMENT_READ (R271). -/
  | argumentRead (p k : Fin 32)
  /-- PERIODIC_LAUNCH (R279). -/
  | periodicLaunch (r : LaunchRef)
  /-- QUEUED_LAUNCH (R280). -/
  | queuedLaunch (pid : Fin 32)
  /-- YIELD_REQUEST (R292). -/
  | yieldRequest (pid : Fin 32)
  /-- END_NOTICE (R281). -/
  | endNotice (c : CoreId)
  /-- YIELD_RELAUNCH (R294). -/
  | yieldRelaunch (pid : Fin 32)
  /-- DEADLINE_CHECK (R288). -/
  | deadlineCheck (r : LaunchRef)
  /-- ACCORD_SLOT_CHECK (R289). -/
  | accordSlotCheck (c : CoreId)
  /-- IDLE_ACCORD_START (R290). -/
  | idleAccordStart (cl : ClusterId)
  /-- JOB_STOP_COMPLETE (R285): partition, kind, job number. -/
  | jobStopComplete (p k : Fin 32) (num : Word)
  /-- CAD_ABORT (R286): the unit written and the word. -/
  | cadAbort (src : Src) (cl : ClusterId) (v : Word)
  /-- ABORT_FORWARD (R286): partition. -/
  | abortForward (p : Fin 32)
  /-- ABORT_RESULT (R286): the unit that was written. -/
  | abortResult (cl : ClusterId)
  /-- JOB_RECORD_POST (R345). -/
  | jobRecordPost
  /-- DOMAIN_STEP (R235). -/
  | domainStep (src : Src) (d : Fin 4) (v : Word)
  /-- DOMAIN_LOAD (R235). -/
  | domainLoad (src : Src) (d : Fin 4)
  /-- DOMAIN_SLEW (R234). -/
  | domainSlew (src : Src) (d : Fin 4) (v : Word)
  /-- DOMAIN_ENABLE (R235). -/
  | domainEnable (src : Src) (d : Fin 4) (en : Bool)
  /-- TRIGGER_CONFIG (R243). -/
  | triggerConfig (src : Src) (n : Fin 32) (v : Word)
  /-- TRIGGER_EDGE (R241). -/
  | triggerEdge (n : Fin 32)
  /-- TRIGGER_PULSE_START (R241): trigger. -/
  | triggerPulseStart (n : Fin 32)
  /-- TRIGGER_PULSE_END (R241). -/
  | triggerPulseEnd (n : Fin 32)
  /-- CAPTURE_EDGE (R245): input, and whether the edge rises. -/
  | captureEdge (n : Fin 32) (rising : Bool)
  /-- CAPTURE_POP (R247). -/
  | capturePop (src : Src) (n : Fin 32)
  /-- TIME_CLOCK_LOSS (R249). -/
  | timeClockLoss
  /-- GPTP_FRAME_RECEIVE (R237): port, domain, whether it is a Sync, the state and the grandmaster that the instance comes to. -/
  | gptpFrameReceive (port : Fin 10) (d : Fin 4) (sync : Bool) (st : Fin 5) (gm : Word)
  /-- GPTP_RECEIPT_TIMEOUT (R237). -/
  | gptpReceiptTimeout (d : Fin 4)
  /-- DOORBELL (R333). -/
  | doorbell (src : Src) (p : Fin 64)
  /-- RING_POLL (R333). -/
  | ringPoll (p : Fin 64)
  /-- CMD_NOP (R339). -/
  | cmdNop (p : Fin 64)
  /-- RING_OPEN (R339). -/
  | ringOpen (p : Fin 64)
  /-- RING_CLOSE (R339). -/
  | ringClose (p : Fin 64)
  /-- PART_LOAD (R275): whether the signature verifies, what firmware takes from the image for each local store, and the lock words. -/
  | partLoad (p : Fin 64) (sigOk : Bool) (code : List (CoreId × Nat × List Byte)) (locks : List Nat)
  /-- PART_UNLOAD (R278). -/
  | partUnload (p : Fin 64)
  /-- UNLOAD_FINISH (R278). -/
  | unloadFinish (pid : Fin 32)
  /-- JOB_ARM (R276). -/
  | jobArm (p : Fin 64)
  /-- JOB_DISARM (R339). -/
  | jobDisarm (p : Fin 64)
  /-- JOB_SUBMIT (R280). -/
  | jobSubmit (p : Fin 64)
  /-- JOB_ABORT (R286). -/
  | jobAbort (p : Fin 64)
  /-- WHEEL_SET (R260). -/
  | wheelSet (p : Fin 64)
  /-- TIME_SET_ENABLE (R235). -/
  | timeSetEnable (p : Fin 64)
  /-- TIME_SET_DISABLE (R235). -/
  | timeSetDisable (p : Fin 64)
  /-- TIME_SET_RATE (R234). -/
  | timeSetRate (p : Fin 64)
  /-- TIME_SET_SLEW (R234). -/
  | timeSetSlew (p : Fin 64)
  /-- TIME_SET_STEP (R235). -/
  | timeSetStep (p : Fin 64)
  /-- TIME_SET_LOAD (R235). -/
  | timeSetLoad (p : Fin 64)
  /-- TIME_SET_DOMAIN_NUMBER (R339). -/
  | timeSetDomainNumber (p : Fin 64)
  /-- TRIG_SET (R339). -/
  | trigSet (p : Fin 64)
  /-- CAP_SET (R339). -/
  | capSet (p : Fin 64)
  /-- TIME_READ (R643). -/
  | timeRead (p : Fin 64)
  /-- CAP_READ (R339). -/
  | capRead (p : Fin 64)
  /-- STATUS_READ (R339). -/
  | statusRead (p : Fin 64)
  /-- ACCT_READ (R297). -/
  | acctRead (p : Fin 64)
  /-- LOG_CFG (R366). -/
  | logCfg (p : Fin 64)
  /-- RAP_OPEN (R353): the datagram; session number and device nonce that the device draws. -/
  | rapOpen (q : RapDgram) (id : Word) (nd : List Byte)
  /-- RAP_READ (R355). -/
  | rapRead (q : RapDgram)
  /-- RAP_WRITE (R355). -/
  | rapWrite (q : RapDgram)
  /-- RAP_DOORBELL (R355). -/
  | rapDoorbell (q : RapDgram)
  /-- RAP_CLOSE (R357). -/
  | rapClose (q : RapDgram)
  /-- RAP_KEEPALIVE (R354). -/
  | rapKeepalive (q : RapDgram)
  /-- RAP_NOTIFY (R355). -/
  | rapNotify (p : Fin 64)
  /-- RAP_SESSION_TIMEOUT (R357). -/
  | rapSessionTimeout (p : Fin 64)
  /-- RAP_HALFOPEN_TIMEOUT (R353). -/
  | rapHalfopenTimeout (p : Fin 64)
  /-- WATCHDOG_KICK (R358): `self` says that the processor itself writes. -/
  | watchdogKick (src : Src) (self : Bool) (k : Fin 8)
  /-- WATCHDOG_EXPIRE (R358). -/
  | watchdogExpire (k : Fin 8)
  /-- FP_EXCEPTION (R358). -/
  | fpException (k : Fin 8)
  /-- FP_RUNNING (R359): digest of FP4's image as loaded. -/
  | fpRunning (k : Fin 8) (digest : List Word)
  /-- FP_START_TIMEOUT (R359). -/
  | fpStartTimeout (k : Fin 8)
  /-- MC_WATCHDOG_KICK (R363): `self` says that the management core writes. -/
  | mcWatchdogKick (src : Src) (self : Bool)
  /-- MC_WATCHDOG_EXPIRE (R363). -/
  | mcWatchdogExpire
  /-- FP_RESTART (R369). -/
  | fpRestart (src : Src) (k : Fin 8) (v : Word)
  /-- RESET_ASSERT (R626): how long RESET_N is low; `may` says whether a pulse from 200 ns to 1 µs resets. -/
  | resetAssert (ns : Nat) (may : Bool)
  /-- RESET_RELEASE (R624): COOL_OK, and how each step ends. -/
  | resetRelease (cool : Bool) (steps : List BootStep)
  /-- BRINGUP_TIMEOUT (R380): the die whose step is late. -/
  | bringupTimeout (die : Fin 8)
  /-- COOL_OK_ASSERT (R383): how the bring-up of a die that was off fails, if it does. -/
  | coolOkAssert (fail : Option (Fin 8 × BootFail))
  /-- COOL_OK_DEASSERT (R384). -/
  | coolOkDeassert
  /-- THERMAL_SAMPLE (R393): the hottest reading of each die, °C. -/
  | thermalSample (readings : List (Fin 8 × Int))
  /-- POWER_SAMPLE (R392): units of 0.25 W. -/
  | powerSample (quarters : Nat)
  /-- SUPPLY_FAULT (R622): duration. -/
  | supplyFault (ns : Nat)
  /-- REFCLK_LOSS (R625). -/
  | refclkLoss
  /-- POWER_REMOVAL (R395). -/
  | powerRemoval
  /-- PWR_DOMAIN (R387). -/
  | pwrDomain (p : Fin 64)
  /-- PWR_CAP (R391). -/
  | pwrCap (p : Fin 64)
  /-- PWR_READ (R396). -/
  | pwrRead (p : Fin 64)
  /-- SHUTDOWN (R394). -/
  | shutdown (p : Fin 64)
  /-- BOOT_REPORT (R396). -/
  | bootReport (p : Fin 64)
  /-- PWR_REQ (R398). -/
  | pwrReq (src : Src) (v : Word)
  /-- PWR_CAP_WRITE (R398). -/
  | pwrCapWrite (src : Src) (v : Word)
  /-- SAFE_MON_LOAD (R402): whether the certificate's signature verifies. -/
  | safeMonLoad (p : Fin 64) (sigOk : Bool)
  /-- SAFE_MON_UNLOAD (R427). -/
  | safeMonUnload (p : Fin 64)
  /-- SAFE_PAIR (R406). -/
  | safePair (p : Fin 64)
  /-- SAFE_UNPAIR (R413). -/
  | safeUnpair (p : Fin 64)
  /-- SAFE_RETEST (R426): `silent` is a checker that does not fire: code, unit. -/
  | safeRetest (p : Fin 64) (silent : Option (Fin 11 × Nat))
  /-- SAFE_STATUS (R427). -/
  | safeStatus (p : Fin 64)
  /-- MONITOR_LAUNCH (R403). -/
  | monitorLaunch (m : Fin 16)
  /-- MONITOR_DEADLINE (R403). -/
  | monitorDeadline (m : Fin 16)
  /-- COMPARISON_START (R411). -/
  | comparisonStart (i : Fin 16)
  /-- VERDICT_WRITE (R412). -/
  | verdictWrite (i : Fin 16)
  /-- ACCORD_SIGNATURE_CHECK (R414). -/
  | accordSignatureCheck (c : CoreId)
  /-- COMPARATOR_SELF_TEST (R424): whether the two checks gave what they must. -/
  | comparatorSelfTest (pass : Bool)
  /-- CPU_LOCKSTEP_MISMATCH (R419): pair, kind, address. -/
  | cpuLockstepMismatch (p kind : Fin 8) (a : Addr)
  /-- FAULT_SERVICE (R433). -/
  | faultService (r : SvcRef)
  /-- FAULT_SWEEP (R434). -/
  | faultSweep
  /-- WINDOW_EVENT (R444). -/
  | windowEvent
  /-- PIN_PULSE_END (R441): SAFE_ERR_N, or SAFE_WARN_N. -/
  | pinPulseEnd (isErr : Bool)
  /-- FLT_PULSE (R441): the word written. -/
  | fltPulse (src : Src) (v : Word)
  /-- LEASE_EXPIRE (R454). -/
  | leaseExpire (r : LeaseRef)
  /-- FLT_READ (R461). -/
  | fltRead (p : Fin 64)
  /-- FLT_WINDOW (R445). -/
  | fltWindow (p : Fin 64)
  /-- FLT_PIN (R442). -/
  | fltPin (p : Fin 64)
  /-- FLT_PARTRESET (R458). -/
  | fltPartreset (p : Fin 64)
  /-- PARTRESET_DRAIN_END (R458). -/
  | partresetDrainEnd (pid : Fin 32)
  /-- FLT_LEASES (R461). -/
  | fltLeases (p : Fin 64)
  /-- FLT_SOURCE (R644). -/
  | fltSource (p : Fin 64)
  /-- FLT_PWSTICKY (R461). -/
  | fltPwsticky (p : Fin 64)
  /-- CTX_CREATE (R465). -/
  | ctxCreate (p : Fin 64)
  /-- CTX_DESTROY (R483). -/
  | ctxDestroy (p : Fin 64)
  /-- CTX_DESTROY_DRAIN_END (R483): whether the key sideband has an error. -/
  | ctxDestroyDrainEnd (ctx : BitVec 12) (keyErr : Bool)
  /-- CTX_DESTROY_RELEASE (R484). -/
  | ctxDestroyRelease (ctx : BitVec 12)
  /-- MEM_MAP (R468). -/
  | memMap (p : Fin 64)
  /-- WPKG_LOAD (R476). -/
  | wpkgLoad (p : Fin 64)
  /-- GROUP_KEY_INSTALL (R475): the key that unwraps, when the signature verifies. -/
  | groupKeyInstall (p : Fin 64) (gk : Option (List Byte))
  /-- GROUP_KEY_REMOVE (R492). -/
  | groupKeyRemove (p : Fin 64)
  /-- ATTEST (R478): signature of the report. -/
  | attest (p : Fin 64) (sig : List Byte)
  /-- DIRTY_START (R485). -/
  | dirtyStart (p : Fin 64)
  /-- DIRTY_READ (R486). -/
  | dirtyRead (p : Fin 64)
  /-- DIRTY_STOP (R492). -/
  | dirtyStop (p : Fin 64)
  /-- DOM_CLOCK (R487). -/
  | domClock (p : Fin 64)
  /-- MGMT_HELLO (R490): the datagram; session number, device nonce and signature that the device makes. -/
  | mgmtHello (q : MgmtDgram) (id : Word) (nd sig : List Byte)
  /-- MGMT_AUTH (R490): the datagram; the secret that it brings, when key digest and signature are right. -/
  | mgmtAuth (q : MgmtDgram) (secret : Option (List Byte))
  /-- SLICE_CREATE (R481). -/
  | sliceCreate (q : MgmtDgram)
  /-- SLICE_DESTROY (R481). -/
  | sliceDestroy (q : MgmtDgram)
  /-- SLICE_READ (R490). -/
  | sliceRead (q : MgmtDgram)
  /-- CRED_REVOKE (R490). -/
  | credRevoke (q : MgmtDgram)
  /-- PKG_ATTEST (R490): signature of the report. -/
  | pkgAttest (q : MgmtDgram) (sig : List Byte)
  /-- LOG_READ (R490). -/
  | logRead (q : MgmtDgram)
  /-- MGMT_CLOSE (R489). -/
  | mgmtClose (q : MgmtDgram)
  /-- MGMT_SESSION_TIMEOUT (R489). -/
  | mgmtSessionTimeout
  /-- MGMT_LOCKOUT_END (R491). -/
  | mgmtLockoutEnd
  /-- HXATTR_WRITE (R497): hart, value. -/
  | hxattrWrite (h : Fin 16) (v : BitVec 64)
  /-- HXWAY_WRITE (R504). -/
  | hxwayWrite (h : Fin 16) (v : BitVec 64)
  /-- MXPARK (R499). -/
  | mxpark (h : Fin 16)
  /-- MXWDKICK (R501). -/
  | mxwdkick (h : Fin 16)
  /-- CPU_PWB (R509). -/
  | cpuPwb (h : Fin 16)
  /-- CPU_WATCHDOG_EXPIRE (R501). -/
  | cpuWatchdogExpire (p : Fin 8)
  /-- CPU_PAIR_STOP (R499). -/
  | cpuPairStop (src : Src) (p : Fin 8) (v : Word)
  /-- CPU_PAIR_START (R499). -/
  | cpuPairStart (src : Src) (p : Fin 8) (v : Word)
  /-- CPU_PAIR_STOPPED (R499). -/
  | cpuPairStopped (p : Fin 8)
  /-- CPU_IO_LOAD (R509): hart, address, size, whether in a guest, its VMID. -/
  | cpuIoLoad (h : Fin 16) (a : Addr) (size : Nat) (v : Bool) (vmid : BitVec 12)
  /-- CPU_IO_STORE (R509): hart, address, data, whether in a guest, its VMID. -/
  | cpuIoStore (h : Fin 16) (a : Addr) (data : List Byte) (v : Bool) (vmid : BitVec 12)
  /-- CAN_MODE_WRITE (R515). -/
  | canModeWrite (src : Src) (c : Fin 24) (v : Word)
  /-- CAN_FRAME_RECEIVE (R516): `ago` is the time since start of frame, in the unit of the stamp; whether the
  receive buffer has room; errors that REC counted since the frame before. -/
  | canFrameReceive (c : Fin 24) (f : CanFrame) (ago : Nat) (room : Bool) (errs : Nat)
  /-- CAN_FRAME_SENT (R517): how the transmission ended, and whether reading its buffer corrected an error. -/
  | canFrameSent (c : Fin 24) (r : TxEnd) (corrected : Bool)
  /-- CAN_BUSOFF_RECOVERY (R518). -/
  | canBusoffRecovery (c : Fin 24)
  /-- LIN_SCHEDULE_ENTRY (R521). -/
  | linScheduleEntry (c : Fin 8)
  /-- LIN_FRAME_END (R521): the response, if any: bytes, whether its checksum is enhanced, and right. -/
  | linFrameEnd (c : Fin 8) (resp : Option (List Byte × Bool × Bool))
  /-- LIN_WAKEUP (R520). -/
  | linWakeup (c : Fin 8)
  /-- SWITCH_FRAME_RECEIVE (R524): whether meters, gates and FRER let it pass, and the error of the flow entry it hits. -/
  | switchFrameReceive (p : Fin 14) (bytes : List Byte) (pass : Bool) (ecc : Option EccErr)
  /-- GW_QUEUE_DOORBELL (R531). -/
  | gwQueueDoorbell (src : Src) (i : Fin 32)
  /-- GW_QUEUE_POLL (R531). -/
  | gwQueuePoll (i : Fin 32)
  /-- QUEUE_TX_WRITEBACK (R531). -/
  | queueTxWriteback (i : Fin 32)
  /-- QUEUE_RX_WRITEBACK (R532). -/
  | queueRxWriteback (i : Fin 32)
  /-- PDU_SOURCE_TIMEOUT (R538). -/
  | pduSourceTimeout (n : Fin 8192)
  /-- PDU_PERIODIC_SEND (R534). -/
  | pduPeriodicSend (n : Fin 8192)
  /-- MDIO_COMMAND (R547). -/
  | mdioCommand (src : Src) (v : Word)
  /-- MDIO_DONE (R547): what the PHY answers. -/
  | mdioDone (data : BitVec 16)
  /-- PCIE_OUTBOUND_REQUEST (R540): a read of `len` bytes, or a posted write of `data`; `reply` is the completion of the endpoint. -/
  | pcieOutboundRequest (src : Src) (a : Addr) (isRead : Bool) (len : Nat) (data : List Byte) (reply : Option (List Byte))
  /-- PCIE_COMPLETION_TIMEOUT (R540). -/
  | pcieCompletionTimeout (id : Nat)
  /-- PCIE_LINK_DOWN (R540). -/
  | pcieLinkDown
  /-- PCIE_INBOUND_REQUEST (R541): a read of `len` bytes or a write of `data`; whether a correctable error was reported. -/
  | pcieInboundRequest (a : Addr) (isRead : Bool) (len : Nat) (data : List Byte) (aer : Bool)
  /-- PCIE_YIELD (R542): inbound requests that pass. -/
  | pcieYield (n : Fin 17)
  /-- CAN_SET_CONFIGURE (R543). -/
  | canSetConfigure (p : Fin 64)
  /-- CAN_SET_FILTER (R543). -/
  | canSetFilter (p : Fin 64)
  /-- CAN_SET_ABORT_BUFFER (R543). -/
  | canSetAbortBuffer (p : Fin 64)
  /-- LIN_SET_CONFIGURE (R543). -/
  | linSetConfigure (p : Fin 64)
  /-- LIN_SET_LOAD_SCHEDULE (R543). -/
  | linSetLoadSchedule (p : Fin 64)
  /-- LIN_SET_START (R543). -/
  | linSetStart (p : Fin 64)
  /-- LIN_SET_STOP (R543). -/
  | linSetStop (p : Fin 64)
  /-- SW_PORT (R543). -/
  | swPort (p : Fin 64)
  /-- SW_VLAN (R543). -/
  | swVlan (p : Fin 64)
  /-- FLOW_ADD (R527). -/
  | flowAdd (p : Fin 64)
  /-- FLOW_DEL (R543). -/
  | flowDel (p : Fin 64)
  /-- FLOW_READ (R543). -/
  | flowRead (p : Fin 64)
  /-- GW_PDU (R543). -/
  | gwPdu (p : Fin 64)
  /-- GW_ROUTE (R535). -/
  | gwRoute (p : Fin 64)
  /-- GW_QUEUE (R529). -/
  | gwQueue (p : Fin 64)
  /-- PCI_WINDOW (R543). -/
  | pciWindow (p : Fin 64)
  /-- PCI_LINK_TRAIN (R543): rate and width in L0, none when training fails. -/
  | pciLinkTrain (p : Fin 64) (result : Option (Fin 6 × Fin 5))
  /-- PCI_LINK_PERST_ASSERT (R543). -/
  | pciLinkPerstAssert (p : Fin 64)
  /-- PCI_LINK_PERST_RELEASE (R543). -/
  | pciLinkPerstRelease (p : Fin 64)
  /-- CSI_PACKET_RECEIVE (R558): receiver, header check, virtual channel, kind. -/
  | csiPacketReceive (r : Fin 16) (hdr : CsiHeader) (vc : Fin 16) (k : CsiKind)
  /-- FRAME_RECORD_FINAL (R557). -/
  | frameRecordFinal (sid : Fin 64)
  /-- STREAM_DUE_CHECK (R559). -/
  | streamDueCheck (sid : Fin 64)
  /-- GFX_DOORBELL (R563). -/
  | gfxDoorbell (src : Src) (q : Fin 16)
  /-- GFX_QUEUE_POLL (R563). -/
  | gfxQueuePoll (q : Fin 16)
  /-- RENDER_PASS_START (R563): the descriptor, none when it is bad; chunks that its lists need; cycles of waiting fragments; what binning
  and flushes do. -/
  | renderPassStart (q : Fin 16) (d : Option PassDesc) (need stalls : Nat) (acts : List GfxAct)
  /-- PASS_WRITEBACK (R564): what the pass still renders. -/
  | passWriteback (q : Fin 16) (acts : List GfxAct)
  /-- COMPOSITOR_PREEMPT (R576): what the running pass does up to its next boundary. -/
  | compositorPreempt (acts : List GfxAct)
  /-- DISPLAY_LATCH (R578). -/
  | displayLatch (o : Fin 6)
  /-- IMAGE_RELEASE (R580). -/
  | imageRelease (o : Fin 6)
  /-- CODEC_PICTURE (R582): what the coding standard makes of the picture: bytes, length, error code 0, 2 or 3, and an error
  of the reference store. -/
  | codecPicture (k : Fin 16) (out : List Byte) (len : BitVec 16) (err : Fin 4) (ref : Option EccErr)
  /-- CAM_STREAM (R561). -/
  | camStream (p : Fin 64)
  /-- ISP_TUNE (R583): whether the block is good. -/
  | ispTune (p : Fin 64) (good : Bool)
  /-- GFX_QUEUE (R563). -/
  | gfxQueue (p : Fin 64)
  /-- GFX_POOL (R583). -/
  | gfxPool (p : Fin 64)
  /-- DSP_OUT (R583): whether the link trains. -/
  | dspOut (p : Fin 64) (trained : Bool)
  /-- DSP_PLANE (R583): what the plane record says. -/
  | dspPlane (p : Fin 64) (r : Option PlaneRec)
  /-- CODEC_SESSION (R582). -/
  | codecSession (p : Fin 64)
  /-- WOADE_ROUND_START (R595). -/
  | woadeRoundStart
  /-- WOADE_SLOT_START (R597): for each port, the credits of its two virtual channels that come back. -/
  | woadeSlotStart (back : List (Nat × Nat))
  /-- MAINTENANCE_FLIT (R596): stamps, heartbeat. -/
  | maintenanceFlit (p : Fin 8) (m : Maint)
  /-- WOADE_FLIT_RECEIVE (R607). -/
  | woadeFlitReceive (p : Fin 8) (f : WFrame)
  /-- WOADE_MESSAGE_RECEIVE (R604). -/
  | woadeMessageReceive
  /-- WOADE_SQ_DOORBELL (R603). -/
  | woadeSqDoorbell (src : Src) (q : Fin 16)
  /-- WOADE_SEND_WRITEBACK (R603). -/
  | woadeSendWriteback (q : Fin 16)
  /-- WOADE_PORT_DOWN (R608). -/
  | woadePortDown (p : Fin 8)
  /-- WOADE_PORT_UP (R608). -/
  | woadePortUp (p : Fin 8)
  /-- WOADE_TRAIN_TIMEOUT (R608). -/
  | woadeTrainTimeout (p : Fin 8)
  /-- WOADE_TRAIN_RETRY (R608). -/
  | woadeTrainRetry (p : Fin 8)
  /-- WOADE_MESSAGE_DISCARD (R608): flow. -/
  | woadeMessageDiscard (f : Fin 256)
  /-- PARTNER_LOSS (R606). -/
  | partnerLoss
  /-- WDE_TOPO (R592). -/
  | wdeTopo (p : Fin 64)
  /-- WDE_PORT (R609). -/
  | wdePort (p : Fin 64)
  /-- WDE_FLOW (R601). -/
  | wdeFlow (p : Fin 64)
  /-- WDE_SCHED (R598). -/
  | wdeSched (p : Fin 64)
  /-- WDE_SQUEUE (R603). -/
  | wdeSqueue (p : Fin 64)
  /-- WDE_RQUEUE (R604). -/
  | wdeRqueue (p : Fin 64)
  /-- WDE_PAIR (R606). -/
  | wdePair (p : Fin 64)
  /-- MONITOR_COMPLETE (R411): what the job writes, and whether its buffers had a corrected (1) or uncorrectable (2) error. -/
  | monitorComplete (m : Fin 16) (writes : List (Addr × List Byte)) (ecc : Fin 3)
  /-- MC_SHADOW_MISMATCH (R420). -/
  | mcShadowMismatch
  /-- JTAG_ACCESS (R618): boundary scan of those cells, or the debug transport to a pair, to enter or to leave. -/
  | jtagAccess (scan : Option (List Bool)) (p : Fin 8) (enter : Bool)
  /-- PCS_LINK_CHANGE (R547): whether the port has a link, and whether preemption is verified on it. -/
  | pcsLinkChange (p : Fin 10) (linked verified : Bool)
  /-- DISPLAY_LINK_LOSS (R587). -/
  | displayLinkLoss (o : Fin 6)
  /-- SCAN_OUT_LINE (R577): whether its pixels arrived in time. -/
  | scanOutLine (o : Fin 6) (arrived : Bool)
  /-- CSI_PHY_SYNC (R585): whether it has synchronised. -/
  | csiPhySync (r : Fin 16) (sync : Bool)
  /-- WOADE_SQ_POLL (R603). -/
  | woadeSqPoll (q : Fin 16)
  /-- TRUSTED_PAIR_RELEASE (R501): the image that boot flash holds. -/
  | trustedPairRelease (p : Fin 8) (image : List Byte)
  /-- SLEW_COMPLETE (R234). -/
  | slewComplete (d : Fin 4)
  /-- GPTP_SYNC_SEND (R236). -/
  | gptpSyncSend (port : Fin 10) (d : Fin 4) (relayed : Option Word)
  /-- SWITCH_FRAME_EGRESS (R524): port, queue; sent, or dropped at egress; an error of the packet buffer. -/
  | switchFrameEgress (p : Fin 14) (q : Fin 8) (sent : Bool) (ecc : Option EccErr)
  /-- LIN_HEADER_RECEIVE (R520): identifier. -/
  | linHeaderReceive (c : Fin 8) (id : Fin 64)
  deriving DecidableEq, Repr

end Sys2Proof
end

