-- ==== Sys2Proof/Decode.lean ====
section
/-! DEFINITION. Commands that words spell. opcode_table.json gives the fields of no row, so no word spells a command. A Benvor
word is not an opcode-table word: the command that issues it also names the core, and takes bits [55:0] as an operand (log entry 38). -/

namespace Sys2Proof

/-- The command that a table word spells: none. -/
def decodeTableWord (_nbits _w : Nat) : Option Instr := none

end Sys2Proof
end

