-- ==== Sys2Proof/Machine/CoreState.lean ====
section
/-! DEFINITION. The state of tensor cores, their DMA channels and their clusters (03_tensor_core.md,
04_benvor_control.md, 05_benvor_tensor.md). -/

namespace Sys2Proof.Machine

/-- Mode tag of an accumulator bank (R94). -/
inductive AccMode where
  | none | int | fp
  deriving DecidableEq, Repr

/-- The pairing of a weight tile: activation format, weight format, sparse (R165). -/
structure WTag where
  af : Fin 16
  wf : Fin 16
  sp : Bool
  deriving DecidableEq, Repr

/-- A weight buffer (R88 to R90, R166 to R168): its tag (none: no usable tile), whether some metadata code is invalid,
and the tile as one list of lines for each part. -/
structure WBuf where
  tag : Option WTag
  bad : Bool
  data : List Line
  scales : List Line
  metas : List Line
  deriving DecidableEq, Repr

def WBuf.empty : WBuf := ⟨none, false, [], [], []⟩

/-- A matrix-multiply in the stream queue (R160, R169), its register operands read at issue. -/
structure StreamOp where
  avac : Bool
  /-- Offset of the instruction, for an exception at its start (R131). -/
  pc : BitVec 20
  xa : Addr
  stride : Word
  xb : Addr
  m : Nat
  row : Nat
  bk : Fin 2
  wb : Fin 2
  ow : Bool
  cv : Fin 4
  deriving DecidableEq, Repr

/-- An active hardware loop level (R137). -/
structure Loop where
  lv : Fin 4
  start : BitVec 20
  stop : BitVec 20
  count : Word
  deriving DecidableEq, Repr

/-- The queue of a unit: the weight port, the vector unit, the attention unit (R101, R160). The stream queue is apart. -/
inductive QUnit where
  | weight | vector | attention
  deriving DecidableEq, Repr

/-- An instruction in the queue of a unit, its scalar operands read at issue (R101, R160): opcode, fields, offset, and how many entries of
the stream queue it follows. -/
structure UOp where
  unit : QUnit
  op : Nat
  w : BitVec 56
  pc : BitVec 20
  s : AMap (Fin 32) Word
  a : AMap (Fin 16) Addr
  ahead : Nat
  deriving DecidableEq, Repr

/-- An exception raised and not yet recorded (R130, R131): the TC_ERRSTAT bit and the address. -/
structure Pend where
  bit : Nat
  addr : Addr
  deriving DecidableEq, Repr

/-- What a core waits for with an instruction issued and not complete (R101). -/
inductive Wait where
  | none
  /-- At a barrier slot (R148). -/
  | bar (slot : Fin 16) (rd : Fin 32)
  /-- For a phase of a frame of a wheel (R154). -/
  | phase (wheel : Fin 4) (frame : Word) (phase : BitVec 16) (rd : Fin 32)
  /-- For a signal count (R144). -/
  | sig (sid : Fin 32) (n : BitVec 16) (consume : Bool)
  /-- For the reference program of ACCORD (R157). -/
  | accord (rd : Fin 32)
  deriving DecidableEq, Repr

/-- State of a DMA channel, as TC_DMASTAT reports it (R118). -/
inductive ChanSt where
  | idle | waitPhase | active | error | stopped
  deriving DecidableEq, Repr

/-- A DMA channel (R109 to R113, R144). -/
structure Chan where
  st : ChanSt
  /-- Local-store offset of the head descriptor, when the channel has one. -/
  head : Option (BitVec 20)
  /-- Chains queued by DMAGO, oldest first, at most 4 (R101). -/
  queue : List (BitVec 20)
  /-- Bytes remaining in the current descriptor (TC_DMAREMc). -/
  rem : Nat
  late : Bool
  /-- The frame number of each wheel when the descriptor became the head (R111). -/
  headFrame : AMap (Fin 4) Word
  /-- A stop has been asked for: some true for DMASTOP or STOP, some false for a stop of the job (R110). -/
  stopping : Option Bool
  /-- The descriptor being executed, the number of its beats issued, and write beats that wait at their source: address and bytes
  (R109 to R112, R221). -/
  desc : BitVec 512
  beat : Nat
  out : List (Nat × List Byte)
  deriving DecidableEq, Repr

def Chan.idle : Chan := ⟨.idle, none, [], 0, false, [], none, 0, 0, []⟩

/-- A tensor core (R124 and the units table of chapter 3). Signal counters, TC_FLAGS, TC_ENTRY, TC_CTX and the error
registers are in the register file. -/
structure CoreState where
  s : AMap (Fin 32) Word
  a : AMap (Fin 16) Addr
  v : AMap (Fin 32) VReg
  p : AMap (Fin 8) (BitVec 64)
  acc : AMap (Fin 2 × Fin 128) VReg
  accMode : AMap (Fin 2) AccMode
  wb : AMap (Fin 2) WBuf
  rowM : AMap (Fin 128) Word
  rowL : AMap (Fin 128) Word
  cv : AMap (Fin 4) VReg
  vial : AMap (Fin 512) Line
  pc : BitVec 20
  loops : List Loop
  /-- The two fetch lines: line index in the store and contents (R133). -/
  fetch : List (Nat × Line)
  failCount : Word
  streamQ : List StreamOp
  /-- Instructions that wait in the other unit queues, oldest first (R101, R160). -/
  unitQ : List UOp
  pend : Option Pend
  /-- Exceptions that queued instructions raised after `pend`, oldest first (R119, R130). -/
  more : List Pend
  wait : Wait
  /-- An instruction is in issue and stalls there (R101, R122). -/
  stalled : Bool
  /-- The posted writes that the PWB in issue covers (R152). -/
  pwb : Option (List Nat)
  /-- S registers that hold a value of PAIRED, which differs on the checker (R127). -/
  pairedS : List (Fin 32)
  /-- The core has run since TC_BANKSTALL was read, and a DMA beat or a zeroing may have met it since TC_DMAWAIT was read (R104). -/
  ran : Bool
  moved : Bool
  run : Bool
  halted : Bool
  idle : Bool
  errstop : Bool
  /-- LT at the last context load, ns (CYCLO, R126). -/
  loadLt : Nat
  cychi : Word
  jobWheel : Fin 4
  /-- Frame of each wheel current at the launch (R154). -/
  jobFrame : AMap (Fin 4) Word
  chans : AMap (Fin 8) Chan
  /-- LT at START, ns: the base of the comparator's cycle count (R120). -/
  startLt : Nat
  /-- A HALT request waits for the units to finish (R122). -/
  haltPending : Bool
  /-- The reference input that the last context load wrote, and the context loads since RESET_N (R107, R414). -/
  accInput : Nat
  loads : Nat
  /-- END has been issued and its notice not yet taken (R158). -/
  ended : Bool
  /-- Far-side failures that the END notice carries (R158). -/
  endFails : Word
  /-- TC_ARRBUSY at the last start (R297). -/
  arrBase : Word
  /-- LT at the last END, and the launch entry of expert code that started the core (R297, R301). -/
  endLt : Nat
  entry : Option (Fin 64)
  deriving DecidableEq, Repr

/-- A core after package reset: no program loaded (R118). Register values are DESIGN CHOICE zero, log entry 5. -/
def CoreState.reset : CoreState :=
  { s := [], a := [], v := [], p := [], acc := [], accMode := [], wb := [], rowM := [], rowL := [], cv := [],
    vial := [], pc := 0, loops := [], fetch := [], failCount := 0, streamQ := [], unitQ := [], pend := none, more := [], wait := .none,
    stalled := false, pwb := none, pairedS := [], ran := false, moved := false, run := false, halted := false, idle := true, errstop := false, loadLt := 0, cychi := 0, jobWheel := 0,
    jobFrame := [], chans := [], startLt := 0, haltPending := false, accInput := 0, loads := 0, ended := false, endFails := 0, arrBase := 0, endLt := 0, entry := none }

/-- A barrier slot that is waiting (R148): its mask and the cores that have arrived. An idle slot is not listed. -/
structure BarSlot where
  mask : BitVec 8
  arrived : BitVec 8
  deriving DecidableEq, Repr

end Sys2Proof.Machine
end

