-- ==== Sys2Proof/Machine/Fields.lean ====
section
/-! DEFINITION. The fields of Benvor instructions, and what the units of a core read and write (R100, R128, R129, R160 to R163). -/

namespace Sys2Proof.Machine

/-! ### Fields of an instruction word, bits [55:0] -/

def iRD (w : BitVec 56) : Nat := bitsOf w 55 51
def iRS1 (w : BitVec 56) : Nat := bitsOf w 50 46
def iRS2 (w : BitVec 56) : Nat := bitsOf w 45 41
def iIMM (w : BitVec 56) : Word := w.extractLsb' 0 32
/-- RSV of format R, I, X, M, B and S is zero (R128, R129). -/
def rsvR (w : BitVec 56) : Bool := bitsOf w 36 0 == 0
def rsvI (w : BitVec 56) : Bool := bitsOf w 41 32 == 0
def rsvX (w : BitVec 56) : Bool := bitsOf w 50 48 == 0
def rsvM (w : BitVec 56) : Bool := bitsOf w 40 32 == 0
def rsvB (w : BitVec 56) : Bool := bitsOf w 40 40 == 0
def rsvS (w : BitVec 56) : Bool := bitsOf w 25 20 == 0
def fnR (w : BitVec 56) : Nat := bitsOf w 40 37
def fnI (w : BitVec 56) : Nat := bitsOf w 45 42
/-- A field that an opcode does not use is zero. Chapter 4 states this for opcodes from 0x80 (R163) only. -/
def zf (w : BitVec 56) (hi lo : Nat) : Bool := bitsOf w hi lo == 0

/-! ### Format S -/

def iCH (w : BitVec 56) : Fin 8 := Fin.ofNat 8 (bitsOf w 45 43)
def iWH (w : BitVec 56) : Fin 4 := Fin.ofNat 4 (bitsOf w 42 41)
def iSID (w : BitVec 56) : Fin 32 := Fin.ofNat 32 (bitsOf w 40 36)
def iMASK (w : BitVec 56) : BitVec 8 := w.extractLsb' 28 8
def iF (w : BitVec 56) : Bool := bitOf w 27
def iC (w : BitVec 56) : Bool := bitOf w 26
def iVAL (w : BitVec 56) : Nat := bitsOf w 19 0

/-! ### Fields of format T and V (R161) -/

def tXA (w : BitVec 56) : Nat := bitsOf w 55 51
def tXS (w : BitVec 56) : Nat := bitsOf w 50 46
def tXB (w : BitVec 56) : Nat := bitsOf w 45 41
def tXC (w : BitVec 56) : Nat := bitsOf w 40 36
def tCNT (w : BitVec 56) : Nat := bitsOf w 35 29
def tROW (w : BitVec 56) : Nat := bitsOf w 28 22
def tBK (w : BitVec 56) : Fin 2 := Fin.ofNat 2 (bitsOf w 21 21)
def tWB (w : BitVec 56) : Fin 2 := Fin.ofNat 2 (bitsOf w 20 20)
def tOW (w : BitVec 56) : Bool := bitOf w 19
def tCV (w : BitVec 56) : Fin 4 := Fin.ofNat 4 (bitsOf w 18 17)
def tTag (w : BitVec 56) : WTag := ⟨Fin.ofNat 16 (bitsOf w 16 13), Fin.ofNat 16 (bitsOf w 12 9), bitOf w 8⟩

def vVD (w : BitVec 56) : Nat := bitsOf w 55 51
def vVA (w : BitVec 56) : Nat := bitsOf w 50 46
def vVB (w : BitVec 56) : Nat := bitsOf w 45 41
def vVC (w : BitVec 56) : Nat := bitsOf w 40 36
def vPG (w : BitVec 56) : Nat := bitsOf w 35 33
def vRM (w : BitVec 56) : Nat := bitsOf w 32 31
def vSAT (w : BitVec 56) : Bool := bitOf w 30
def vFN (w : BitVec 56) : Nat := bitsOf w 29 24
def vSF (w : BitVec 56) : Nat := bitsOf w 23 20
def vDF (w : BitVec 56) : Nat := bitsOf w 19 16
def vNM (w : BitVec 56) : Nat := bitsOf w 15 12
def vIMM (w : BitVec 56) : Nat := bitsOf w 11 0

/-- Fields of format V that an opcode does not use are zero (R163); one flag for each field it uses. -/
def vUnused (w : BitVec 56) (vd va vb vc pg rm sat fn sf df nm imm : Bool) : Bool :=
  (vd || zf w 55 51) && (va || zf w 50 46) && (vb || zf w 45 41) && (vc || zf w 40 36) && (pg || zf w 35 33) &&
  (rm || zf w 32 31) && (sat || zf w 30 30) && (fn || zf w 29 24) && (sf || zf w 23 20) && (df || zf w 19 16) &&
  (nm || zf w 15 12) && (imm || zf w 11 0)

/-! ### What an instruction reads and writes (R100) -/

/-- A register, or a piece of a unit's storage, on which the sequencer interlocks. -/
inductive Res where
  | s (n : Nat)
  | v (n : Nat)
  | p (n : Nat)
  | acc (bk : Fin 2) (row : Nat)
  | tag (bk : Fin 2)
  | wb (n : Fin 2)
  | cv (n : Fin 4)
  | row (n : Nat)
  | vial (slot : Nat)
  deriving DecidableEq, Repr

/-- `n` consecutive ones from a first. -/
def resRange (f : Nat → Res) (a n : Nat) : List Res := (List.range n).map (fun i => f (a + i))

/-- S0 and P0 are constants (R125). -/
def Res.isConst : Res → Bool
  | .s n => n % 32 == 0
  | .p n => n % 8 == 0
  | _ => false

/-- What a scalar, memory or synchronisation instruction reads and writes of the storage that a unit may still write, or read (R100). -/
def scalarUse (op : Nat) (w : BitVec 56) : List Res × List Res :=
  let d := Res.s (iRD w)
  let a := Res.s (iRS1 w)
  let b := Res.s (iRS2 w)
  match op with
  | 0x04 => ([a, b], [d])
  | 0x05 => ([a], [d])
  | 0x08 => ([b], [])
  | 0x0C => ([a, b], [])
  | 0x10 => ([d, a], [])
  | 0x13 | 0x14 | 0x28 | 0x29 | 0x2A => ([d], [])
  | 0x18 => ([.p (iRS1 w), .p (iRS2 w)], [.p (iRD w)])
  | 0x19 => ([a], [.p (iRD w)])
  | 0x1A => ([.p (iRS1 w)], [d])
  | 0x1B => ([a, b], [.p (iRD w)])
  | 0x06 | 0x0B | 0x12 | 0x20 | 0x21 | 0x22 | 0x23 | 0x24 | 0x3C | 0x3E | 0x40 => ([], [d])
  | 0x2C => ([], [.v (iRD w)])
  | 0x2D => ([.v (iRD w), .p (iRS2 w)], [])
  | 0x30 | 0x31 => ([b], [d])
  | 0x32 => ([b, d], [d])
  | 0x38 | 0x3A | 0x3B => ([a], [])
  | 0x3F => ([a], [d])
  | _ => ([], [])

/-- What an instruction of the vector unit, the attention unit or the array reads and writes (R161 to R190). -/
def unitUse (op : Nat) (w : BitVec 56) : List Res × List Res :=
  let n := vNM w + 1
  let d := Res.v (vVD w)
  let as := resRange .v (vVA w) n
  let a := Res.v (vVA w)
  let b := Res.v (vVB w)
  let c := Res.v (vVC w)
  let sc := Res.s (vVC w)
  let pg := Res.p (vPG w)
  let bk : Fin 2 := Fin.ofNat 2 (bitsOf w 7 7)
  let r := bitsOf w 6 0
  match op with
  | 0x80 | 0xC3 => ([.s (tXS w)], [])
  | 0x88 => (if bitOf w 7 then resRange (fun i => .vial (i % 16)) (bitsOf w 25 22) 8 else [], [.wb (tWB w)])
  | 0x90 => (.tag bk :: resRange (.acc bk) r n, resRange .v (vVD w) n)
  | 0x91 => ([a, .tag bk], [.acc bk r, .tag bk])
  | 0xA1 => ([a, sc, pg, d], [d])
  | 0xA3 => ([a, b, c, pg, d], [d])
  | 0xA6 => ([a, b, pg], [.p (vVD w)])
  | 0xA7 => (match vFN w with
    | 0 => ([a, pg, d], [d])
    | 1 => ([sc, pg, d], [d])
    | 2 => ([a, b, pg], [d])
    | 3 => ([a, sc], [.s (vVD w)])
    | _ => ([], [d]))
  | 0xA8 => (pg :: d :: as, [d])
  | 0xA9 => (b :: c :: as, [d])
  | 0xAA => if vFN w = 0 then (as, [d, sc]) else ([a, sc], [d])
  | 0xA0 | 0xA2 | 0xA4 => ([a, b, pg, d], [d])
  | 0xA5 | 0xAB | 0xC4 => ([a, pg, d], [d])
  | 0xC0 => ([], resRange .row r (vFN w + 1))
  | 0xC1 => (pg :: as ++ resRange .row r n, .cv (Fin.ofNat 4 (bitsOf w 9 8)) :: resRange .v (vVD w) n ++ resRange .row r n)
  | 0xC2 => (match vFN w with
    | 0 | 1 => (resRange .row r 64, [d])
    | 2 | 3 => (a :: resRange .row r 64, resRange .row r 64)
    | _ => ([.row r], [d]))
  | 0xC8 => ([a, sc], [.vial (vIMM w % 16)])
  | 0xC9 => ([], [.vial (bitsOf w 25 22)])
  | 0xCA => ([.vial (bitsOf w 25 22)], [])
  | _ => ([], [])

def resUse (op : Nat) (w : BitVec 56) : List Res × List Res := if op < 0x80 then scalarUse op w else unitUse op w

/-- The later of two instructions may not pass the earlier one: it reads or writes what that writes, or writes what that reads (R100). -/
def resConflict (early late : List Res × List Res) : Bool :=
  late.1.any (fun r => !r.isConst && early.2.contains r) ||
    late.2.any (fun r => !r.isConst && (early.1.contains r || early.2.contains r))

/-- The queue that an opcode from 0x80 waits in; the stream queue, and opcodes of the sequencer, have none here (R160). -/
def unitOf (op : Nat) : Option QUnit :=
  if op = 0x88 then some .weight
  else if 0x90 ≤ op ∧ op ≤ 0xAB then some .vector
  else if 0xC0 ≤ op ∧ op ≤ 0xCA ∧ op ≠ 0xC3 then some .attention
  else none

end Sys2Proof.Machine
end

