-- ==== Sys2Proof/Config.lean ====
section
/-! DEFINITION. What the manual leaves open and the model does not fix: constants with no body. A statement holds for
every value of them. Each is named in notes/assumptions. -/

namespace Sys2Proof.Config

/-- Which of the values within 1 ulp the reciprocal gives (R81): a function of the input bits. Log entry 10. -/
opaque rcpPick : BitVec 32 → BitVec 2
/-- Which of the values within 1 ulp the reciprocal square root gives (R81). Log entry 10. -/
opaque rsqrtPick : BitVec 32 → BitVec 2
/-- Which of the values within 1 ulp exp2 gives (R81). Log entry 10. -/
opaque exp2Pick : BitVec 32 → BitVec 2
/-- The order in which an online softmax step adds its 64 probabilities, which is not stated (R99): which two of the terms left are
added next, as a function of the lanes. Log entry 10. -/
opaque laneOrder : BitVec 2048 → Nat → Nat
/-- The scale bytes 4 to 7 of VMXQ FN 1 with IMM 2 or 3, which its scalar register does not hold (R180): a function of the operands
(R87). Log entry 13. -/
opaque mxScales : BitVec 2048 → BitVec 32 → Nat → BitVec 32
/-- A vector register the manual leaves undefined (V16 to V31 after ACCORD, R157). Log entry 11. -/
opaque freeVReg : Nat → BitVec 2048
/-- A word the manual leaves open, for the n-th time one is needed. Log entry 11. -/
opaque freeWord : Nat → BitVec 32
/-- Byte `i` of reference input `r` in the accord ROM (R107, R156, R414). Log entry 12. -/
opaque accordInput : Nat → Nat → BitVec 8
/-- Byte `i` of the reference output that the reference program computes from input `r` (R157). Log entry 12. -/
opaque accordOutput : Nat → Nat → BitVec 8

/-- The schedule that a LIN schedule table in memory spells: its layout is not stated (R520, R543). Log entry 24. -/
opaque linSchedule : List (BitVec 8) → List (Fin 64 × Nat)
/-- Byte `i` of a plane's line that the camera path writes from a payload: whether the ISP processed it, output format, plane, data
type, tuning (R554, R556, R561): neither the placing of raw bits nor the tuning is stated. Log entry 26. -/
opaque camLine : Bool → Nat → Nat → BitVec 6 → Nat → List (BitVec 8) → Nat → BitVec 8
/-- One less than the number of descriptors in a codec session's ring, which is not stated (R582, R583). Log entry 27. -/
opaque codecLast : Nat
/-- The seed of the flow table's second hash (R526). Log entry 20. -/
opaque flowSeed : BitVec 32

/-- Sine and cosine of the comparator, within 2 ulp (R410). Log entry 32. -/
opaque fsin : BitVec 32 → BitVec 32
opaque fcos : BitVec 32 → BitVec 32
/-- A yaw difference outside [-pi, pi], wrapped into it (R410): the arithmetic of the wrap is not stated. Log entry 32. -/
opaque wrapPi : BitVec 32 → BitVec 32

/-- How SLICE_READ codes the key slots, partitions and contexts in use (R490): the layout is not stated. Log entry 36. -/
opaque sliceUse : Nat → Nat → Nat → BitVec 64

/-- SECDED banks of a power domain, which the blotter test makes fire one by one (R423): their number is not stated. Log entry 30. -/
opaque eccBanks : Nat → Nat

end Sys2Proof.Config
end

