-- ==== Sys2Proof/Machine/Float.lean ====
section
/-! DEFINITION. The number formats and the arithmetic of 02_number_formats.md: exact integers, one rounding, flags. -/

namespace Sys2Proof

/-- Sticky arithmetic flags in the order of TC_FLAGS (R83): [3] NV, [2] OF, [1] UF, [0] IOV. -/
abbrev AFlags := BitVec 4
def fNV : AFlags := 8#4
def fOF : AFlags := 4#4
def fUF : AFlags := 2#4
def fIOV : AFlags := 1#4

/-- A floating element format (R57, R58): exponent width, mantissa width, bias, code of the largest finite magnitude,
whether it has infinity, and its canonical NaN if it has one. -/
structure FFmt where
  ew : Nat
  mw : Nat
  bias : Nat
  maxCode : Nat
  hasInf : Bool
  nan : Option Nat
  deriving DecidableEq, Repr

def fmtFP32 : FFmt := ⟨8, 23, 127, 0x7F7FFFFF, true, some 0x7FC00000⟩
def fmtBF16 : FFmt := ⟨8, 7, 127, 0x7F7F, true, some 0x7FC0⟩
def fmtFP16 : FFmt := ⟨5, 10, 15, 0x7BFF, true, some 0x7E00⟩
def fmtE5M2 : FFmt := ⟨5, 2, 15, 0x7B, true, some 0x7E⟩
def fmtE4M3 : FFmt := ⟨4, 3, 7, 0x7E, false, some 0x7F⟩
def fmtE3M2 : FFmt := ⟨3, 2, 3, 0x1F, false, none⟩
def fmtE2M3 : FFmt := ⟨2, 3, 1, 0x1F, false, none⟩
def fmtE2M1 : FFmt := ⟨2, 1, 1, 0x7, false, none⟩

/-- A value of a floating format: not a number, an infinity, or (-1)^neg * m * 2^e exactly. -/
inductive FVal where
  | nan
  | inf (neg : Bool)
  | fin (neg : Bool) (m : Nat) (e : Int)
  deriving DecidableEq, Repr

/-- The value of an encoding (R57 to R59). Subnormals keep their full value. -/
def FFmt.decode (f : FFmt) (c : Nat) : FVal :=
  let neg := c.testBit (f.ew + f.mw)
  let mag := c % 2 ^ (f.ew + f.mw)
  let ex := mag >>> f.mw
  let man := mag % 2 ^ f.mw
  if f.maxCode < mag then
    (if f.hasInf && man == 0 then .inf neg else .nan)
  else if ex = 0 then .fin neg man (1 - (f.bias : Int) - f.mw)
  else .fin neg (2 ^ f.mw + man) ((ex : Int) - f.bias - f.mw)

/-- The integer nearest n / 2^s in the sense of rounding mode `rm` (R74: 0 RNE, 1 RTZ, 2 RDN, 3 RUP) for a magnitude
with sign `neg`, and whether the quotient was inexact. -/
def roundShift (rm : Nat) (neg : Bool) (n s : Nat) : Nat × Bool :=
  let q := n >>> s
  let r := n % 2 ^ s
  let up : Bool :=
    if r = 0 then false
    else match rm with
      | 0 => decide (2 ^ s < 2 * r) || (decide (2 ^ s = 2 * r) && q % 2 == 1)
      | 1 => false
      | 2 => neg
      | _ => !neg
  (if up then q + 1 else q, r != 0)

/-- Exact quotient of a signed integer by 2^s, rounded once under `rm` (R79). -/
def roundDivPow (rm : Nat) (x : Int) (s : Nat) : Int :=
  let r := (roundShift rm (x < 0) x.natAbs s).1
  if x < 0 then -(r : Int) else r

/-- m * 2^e rounded to a multiple of 2^q: the number of quanta and whether the rounding was inexact. -/
def roundAt (rm : Nat) (neg : Bool) (m : Nat) (e q : Int) : Nat × Bool :=
  if q ≤ e then (m <<< (e - q).toNat, false) else roundShift rm neg m (q - e).toNat

/-- Weight of the last bit of m * 2^e at the precision of format `f`, m not 0. -/
def FFmt.quantum (f : FFmt) (m : Nat) (e : Int) : Int := e + m.log2 - f.mw

/-- Weight of the last bit of the subnormals of format `f`. -/
def FFmt.quantumMin (f : FFmt) : Int := 1 - (f.bias : Int) - f.mw

/-- m * 2^e rounded to the precision of format `f` with an unbounded exponent (R75): n * 2^q, and whether it was inexact. -/
def FFmt.roundFree (f : FFmt) (rm : Nat) (neg : Bool) (m : Nat) (e : Int) : Nat × Int × Bool :=
  let q := f.quantum m e
  let r := roundAt rm neg m e q
  (r.1, q, r.2)

/-- m * 2^e rounded once to format `f`, the subnormal quantum below: the magnitude code (above `maxCode` on overflow) and whether
the rounding was inexact. -/
def FFmt.roundMag (f : FFmt) (rm : Nat) (neg : Bool) (m : Nat) (e : Int) : Nat × Bool :=
  if m = 0 then (0, false) else
  let q0 := f.quantum m e
  let qmin := f.quantumMin
  let q := if q0 < qmin then qmin else q0
  let r := roundAt rm neg m e q
  -- r.1 counts quanta 2^q, at most 2^(mw+1); codes of consecutive quanta are consecutive, so a carry is an addition
  (((q - qmin).toNat <<< f.mw) + r.1, r.2)

/-- The sign bit of a format in place. -/
def FFmt.signed (f : FFmt) (neg : Bool) (mag : Nat) : Nat := (b2n neg <<< (f.ew + f.mw)) + mag

/-- The result of an overflow in format `f` (R75). -/
def FFmt.overflow (f : FFmt) (rm : Nat) (sat neg : Bool) : Nat × AFlags :=
  let toInf : Bool := match rm with
    | 0 => true
    | 1 => false
    | 2 => neg
    | _ => !neg
  if sat || !toInf then (f.signed neg f.maxCode, fOF)
  else if f.hasInf then (f.signed neg (f.maxCode + 1), fOF)
  else match f.nan with
    | some n => (n, fOF)
    | none => (f.signed neg f.maxCode, fOF)

/-- n * 2^q, not 0, lies below the smallest normal value of format `f`. -/
def FFmt.tiny (f : FFmt) (n : Nat) (q : Int) : Bool := decide (q + n.log2 < f.quantumMin + f.mw)

/-- A finite value placed in format `f`. The result is rounded to the precision with an unbounded exponent; where that value is below
the normal range, `twice` tells whether it, or the exact value, is rounded to the subnormal quantum: a conversion rounds twice
(R75), arithmetic once (R80). UF follows the value rounded with the unbounded exponent (R78; log entry 97). -/
def FFmt.place (f : FFmt) (twice : Bool) (rm : Nat) (sat neg : Bool) (m : Nat) (e : Int) : Nat × AFlags :=
  if m = 0 then (f.signed neg 0, 0) else
  let (n, q, ix1) := f.roundFree rm neg m e
  let (code, ix2) := if twice then f.roundMag rm neg n q else f.roundMag rm neg m e
  if f.maxCode < code then f.overflow rm sat neg
  else (f.signed neg code, if (ix1 || ix2) && f.tiny n q then fUF else 0)

/-- A value that is not finite placed in format `f` (R75, R83): NV when the format cannot hold it. -/
def FFmt.special (f : FFmt) (sat : Bool) : FVal → Nat × AFlags
  | .inf neg =>
    if f.hasInf then (f.signed neg (if sat then f.maxCode else f.maxCode + 1), 0)
    else match sat, f.nan with
      | false, some n => (n, fNV)
      | _, _ => (f.signed neg f.maxCode, fNV)
  | _ => match f.nan with
    | some n => (n, 0)
    | none => (0, fNV)

/-- A conversion to format `f` under rounding mode and saturation, with the flags it sets (R75, R78). -/
def FFmt.encode (f : FFmt) (rm : Nat) (sat : Bool) (v : FVal) : Nat × AFlags :=
  match v with
  | .fin neg m e => f.place true rm sat neg m e
  | v => f.special sat v

/-- FP32 word to value. -/
def fval (w : Word) : FVal := fmtFP32.decode w.toNat
/-- The result of FP32 arithmetic: one rounding, no saturation (R80). -/
def fpack (rm : Nat) (v : FVal) : Word × AFlags :=
  let r := match v with
    | .fin neg m e => fmtFP32.place false rm false neg m e
    | v => fmtFP32.special false v
  (BitVec.ofNat 32 r.1, r.2)

/-- The canonical FP32 NaN (R58). -/
def nan32 : Word := 0x7FC00000
def inf32 (neg : Bool) : Word := if neg then 0xFF800000 else 0x7F800000
def isNan32 (w : Word) : Bool := fval w == .nan

/-- Exact sum of two finite values; the sign of an exact zero is that of IEEE 754 under `rm`. -/
def finAdd (rm : Nat) (na : Bool) (ma : Nat) (ea : Int) (nb : Bool) (mb : Nat) (eb : Int) : FVal :=
  let e := if ea < eb then ea else eb
  let xa : Int := (ma <<< (ea - e).toNat : Nat)
  let xb : Int := (mb <<< (eb - e).toNat : Nat)
  let x := (if na then -xa else xa) + (if nb then -xb else xb)
  if x = 0 then
    .fin (if ma = 0 && mb = 0 && na == nb then na else decide (rm = 2)) 0 0
  else .fin (decide (x < 0)) x.natAbs e

/-- Sum of two values before rounding, with NV for infinities of opposite sign. -/
def vAdd (rm : Nat) : FVal → FVal → FVal × AFlags
  | .nan, _ => (.nan, 0)
  | _, .nan => (.nan, 0)
  | .inf a, .inf b => if a == b then (.inf a, 0) else (.nan, fNV)
  | .inf a, _ => (.inf a, 0)
  | _, .inf b => (.inf b, 0)
  | .fin na ma ea, .fin nb mb eb => (finAdd rm na ma ea nb mb eb, 0)

/-- Product of two values, exact, with NV for zero times infinity. -/
def vMul : FVal → FVal → FVal × AFlags
  | .nan, _ => (.nan, 0)
  | _, .nan => (.nan, 0)
  | .inf a, .inf b => (.inf (a != b), 0)
  | .inf a, .fin nb mb _ => if mb = 0 then (.nan, fNV) else (.inf (a != nb), 0)
  | .fin na ma _, .inf b => if ma = 0 then (.nan, fNV) else (.inf (na != b), 0)
  | .fin na ma ea, .fin nb mb eb => (.fin (na != nb) (ma * mb) (ea + eb), 0)

def FVal.negate : FVal → FVal
  | .nan => .nan
  | .inf n => .inf (!n)
  | .fin n m e => .fin (!n) m e

def FVal.isZero : FVal → Bool
  | .fin _ 0 _ => true
  | _ => false

/-- FP32 add under `rm` (R80). -/
def fadd (rm : Nat) (a b : Word) : Word × AFlags :=
  let (v, f1) := vAdd rm (fval a) (fval b)
  let (w, f2) := fpack rm v
  (w, f1 ||| f2)

/-- The negated word, NaN canonical (R175 NEG). -/
def fneg (a : Word) : Word := if isNan32 a then nan32 else a ^^^ 0x80000000
/-- The absolute value, NaN canonical (R175 ABS). -/
def fabs (a : Word) : Word := if isNan32 a then nan32 else a &&& 0x7FFFFFFF

def fsub (rm : Nat) (a b : Word) : Word × AFlags :=
  let (v, f1) := vAdd rm (fval a) (fval b).negate
  let (w, f2) := fpack rm v
  (w, f1 ||| f2)

/-- FP32 multiply under `rm` (R80). -/
def fmul (rm : Nat) (a b : Word) : Word × AFlags :=
  let (v, f1) := vMul (fval a) (fval b)
  let (w, f2) := fpack rm v
  (w, f1 ||| f2)

/-- Fused multiply-add with one rounding (R80): (-1)^np * a * b + (-1)^nc * c. Zero times infinity plus NaN sets NV, which IEEE 754
leaves open (DESIGN CHOICE, log entry 98). -/
def ffma (rm : Nat) (np nc : Bool) (a b c : Word) : Word × AFlags :=
  let (p, f1) := vMul (fval a) (fval b)
  let p := if np then p.negate else p
  let c := if nc then (fval c).negate else fval c
  let (v, f2) := vAdd rm p c
  let (w, f3) := fpack rm v
  (w, f1 ||| f2 ||| f3)

/-- FP32 divide (R80, R175): a finite non-zero over zero is infinity with no flag, 0/0 is NaN with NV. -/
def fdiv (rm : Nat) (a b : Word) : Word × AFlags :=
  match fval a, fval b with
  | .nan, _ => (nan32, 0)
  | _, .nan => (nan32, 0)
  | .inf _, .inf _ => (nan32, fNV)
  | .inf na, .fin nb _ _ => (inf32 (na != nb), 0)
  | .fin na _ _, .inf nb => (fpack rm (.fin (na != nb) 0 0))
  | .fin na ma ea, .fin nb mb eb =>
    if mb = 0 then (if ma = 0 then (nan32, fNV) else (inf32 (na != nb), 0))
    else
      let q := (ma <<< 64) / mb
      let st := b2n ((ma <<< 64) % mb != 0)
      fpack rm (.fin (na != nb) (2 * q + st) (ea - eb - 65))

/-- The largest r with r * r ≤ n, by bits from 2^(k-1) down. -/
def isqrtAux (n : Nat) : Nat → Nat → Nat
  | 0, r => r
  | k + 1, r => if (r + 2 ^ k) * (r + 2 ^ k) ≤ n then isqrtAux n k (r + 2 ^ k) else isqrtAux n k r

/-- Integer square root. -/
def isqrt (n : Nat) : Nat := isqrtAux n (n.log2 / 2 + 1) 0

/-- FP32 square root under `rm` (R80). -/
def fsqrt (rm : Nat) (a : Word) : Word × AFlags :=
  match fval a with
  | .nan => (nan32, 0)
  | .inf n => if n then (nan32, fNV) else (inf32 false, 0)
  | .fin n m e =>
    if m = 0 then (a, 0)
    else if n then (nan32, fNV)
    else
      let (m, e) := if e % 2 = 0 then (m, e) else (2 * m, e - 1)
      let z := m <<< 64
      let r := isqrt z
      fpack rm (.fin false (2 * r + b2n (r * r != z)) (e / 2 - 33))

/-- A value known to 1 ulp: the truncated magnitude code, moved by a free pick. When the value is itself a number of the
format its two neighbours are within 1 ulp as well; otherwise only the two around it are (R81). -/
def pickUlp (neg : Bool) (v : Nat × Bool) (pick : BitVec 2) : Word :=
  let mag := if v.2 then v.1 + pick.toNat % 2
    else if pick = 0 || v.1 = 0 then v.1 else if pick = 1 then v.1 - 1 else v.1 + 1
  BitVec.ofNat 32 (fmtFP32.signed neg mag)

/-- An approximate result of the exact value `v` (its truncated magnitude code and whether that is inexact), with its flags: OF
when it is infinite, UF when it is subnormal, not zero and not the exact value (R78, R81, R83). -/
def approx (neg : Bool) (v : Nat × Bool) (pick : BitVec 2) : Word × AFlags :=
  let w := pickUlp neg v pick
  let mag := (w &&& 0x7FFFFFFF).toNat
  (w, if mag = 0x7F800000 then fOF else if mag != 0 && decide (mag < 2 ^ 23) && (v.2 || mag != v.1) then fUF else 0)

/-- Magnitude code no greater than that of infinity. -/
def capInf (v : Nat × Bool) : Nat × Bool := if fmtFP32.maxCode < v.1 then (fmtFP32.maxCode, true) else v

/-- Reciprocal within 1 ulp (R81). -/
def frcp (a : Word) : Word × AFlags :=
  match fval a with
  | .nan => (nan32, 0)
  | .inf n => (if n then 0x80000000 else 0, 0)
  | .fin n m e =>
    if m = 0 then (inf32 n, 0)
    else
      let q := (1 <<< 90) / m
      let st := b2n ((1 <<< 90) % m != 0)
      let v := fmtFP32.roundMag 1 n (2 * q + st) (-e - 91)
      if fmtFP32.maxCode < v.1 then (inf32 n, fOF) else approx n v (Config.rcpPick a)

/-- Reciprocal square root within 1 ulp (R81). -/
def frsqrt (a : Word) : Word × AFlags :=
  match fval a with
  | .nan => (nan32, 0)
  | .inf n => if n then (nan32, fNV) else (0, 0)
  | .fin n m e =>
    if m = 0 then (inf32 n, 0)
    else if n then (nan32, fNV)
    else
      let (m, e) := if e % 2 = 0 then (m, e) else (2 * m, e - 1)
      let t := isqrt ((1 <<< 160) / m)
      let st := b2n (t * t * m != 1 <<< 160)
      (pickUlp false (fmtFP32.roundMag 1 false (2 * t + st) (-(e / 2) - 81)) (Config.rsqrtPick a), 0)

/-- The constants 2^(2^-i), i = 1 .. n, scaled by 2^128 and truncated. -/
def exp2Consts : Nat → Nat → List Nat
  | 0, _ => []
  | n + 1, c => let r := isqrt (c <<< 128); r :: exp2Consts n r

/-- 2^f scaled by 2^128 for a fraction f of `bits.length` bits, high bit first. -/
def exp2Prod : List Nat → Nat → Nat → Nat → Nat
  | [], _, _, acc => acc
  | c :: cs, f, k, acc => exp2Prod cs f (k - 1) (if f.testBit (k - 1) then (acc * c) >>> 128 else acc)

/-- exp2 within 1 ulp (R81). -/
def fexp2 (a : Word) : Word × AFlags :=
  match fval a with
  | .nan => (nan32, 0)
  | .inf n => if n then (0, 0) else (inf32 false, fOF)
  | .fin n m e =>
    -- x = floor part + fraction in 2^-64; bits of x below 2^-64 only make the value inexact
    let x : Int := if 0 ≤ e + 64 then (m <<< (e + 64).toNat : Nat) else (m >>> (-(e + 64)).toNat : Nat)
    let lost : Bool := decide (e + 64 < 0) && m % 2 ^ (-(e + 64)).toNat != 0
    let x := if n then (if lost then -x - 1 else -x) else x
    let hi := x / (2 ^ 64 : Nat)
    let f := (x % (2 ^ 64 : Nat)).toNat
    if 128 ≤ hi then (inf32 false, fOF)
    else if hi < -150 then (0, 0)
    else
      let y := exp2Prod (exp2Consts 64 (2 <<< 128)) f 64 (1 <<< 128)
      let st := b2n (lost || f != 0)
      approx false (capInf (fmtFP32.roundMag 1 false (2 * y + st) (hi - 129))) (Config.exp2Pick a)

/-- Order key of an FP32 word that is not NaN: the signed magnitude, with -0 just below +0. -/
def fkey (w : Word) : Int := if w.getLsbD 31 then -((w &&& 0x7FFFFFFF).toNat : Int) - 1 else (w.toNat : Int)

/-- Maximum with NaN kept visible and +0 above -0 (R82). -/
def fmax (a b : Word) : Word := if isNan32 a || isNan32 b then nan32 else if fkey a < fkey b then b else a
/-- Minimum with NaN kept visible and +0 above -0 (R82). -/
def fmin (a b : Word) : Word := if isNan32 a || isNan32 b then nan32 else if fkey b < fkey a then b else a

/-- IEEE comparison key: both zeros equal. -/
def fcmpKey (w : Word) : Int := if w.getLsbD 31 then -((w &&& 0x7FFFFFFF).toNat : Int) else (w.toNat : Int)

/-- An exact integer narrowed to `w` bits: clamped or wrapped, with IOV when it was out of range (R77). -/
def narrowInt (w : Nat) (sat : Bool) (x : Int) : Nat × AFlags :=
  let lo : Int := -(2 ^ (w - 1) : Nat)
  let hi : Int := (2 ^ (w - 1) : Nat) - 1
  let out := x < lo || hi < x
  (wrapN w (if sat then clampI x lo hi else x), if out then fIOV else 0)

/-- A float converted to a `w`-bit integer: rounded, always saturated (R76). NaN gives 0 and NV; an infinity gives
the limit of its sign, IOV and, since the format cannot hold it, NV (R83). -/
def floatToInt (w rm : Nat) (v : FVal) : Nat × AFlags :=
  let hi : Int := (2 ^ (w - 1) : Nat) - 1
  let lo : Int := -(2 ^ (w - 1) : Nat)
  match v with
  | .nan => (0, fNV)
  | .inf n => (wrapN w (if n then lo else hi), fNV ||| fIOV)
  | .fin n m e =>
    let r := if 0 ≤ e then m <<< e.toNat else (roundShift rm n m (-e).toNat).1
    narrowInt w true (if n then -(r : Int) else r)

/-- Requantisation of one element (R79): the `w`-bit result and IOV. -/
def requant (w rm : Nat) (sat : Bool) (x mul : Word) (s : Nat) (z : Int) : Nat × AFlags :=
  narrowInt w sat (roundDivPow rm (x.toInt * mul.toInt) s + z)

/-- The value of an E8M0 scale: none for NaN (R57, R62). -/
def scaleExp (x : Nat) : Option Int := if x = 0xFF then none else some ((x : Int) - 127)

end Sys2Proof
end

