-- ==== Sys2Proof/Machine/Memory.lean ====
section
/-! DEFINITION. Memory as one canonical list: addresses strictly rising, no byte equal to what an unlisted address reads
as. An unlisted byte reads 0: every store of the package is zeroed before any agent can read it (R54, R107, R377). -/

namespace Sys2Proof.Machine

/-- One byte of memory. -/
def memGet : List Host.Cell → Nat → Byte
  | [], _ => 0
  | (a', b) :: t, a => if a' = a then b else memGet t a

/-- Memory with one byte changed, kept canonical. -/
def memSet : List Host.Cell → Nat → Byte → List Host.Cell
  | [], a, b => if b = 0 then [] else [(a, b)]
  | (a', b') :: t, a, b =>
    if a < a' then (if b = 0 then (a', b') :: t else (a, b) :: (a', b') :: t)
    else if a = a' then (if b = 0 then t else (a, b) :: t)
    else (a', b') :: memSet t a b

/-- The bytes at an address. -/
def memRead (m : List Host.Cell) (a : Nat) : Nat → List Byte
  | 0 => []
  | n + 1 => memGet m a :: memRead m (a + 1) n

/-- Memory after bytes are stored from an address upwards. -/
def memWrite (m : List Host.Cell) (a : Nat) : List Byte → List Host.Cell
  | [] => m
  | b :: t => memWrite (memSet m a b) (a + 1) t

/-- Memory with every byte from `a` for `n` bytes zeroed. -/
def memZero (m : List Host.Cell) (a n : Nat) : List Host.Cell :=
  m.filter (fun c => decide (c.1 < a) || decide (a + n ≤ c.1))

/-- The canonical form. -/
def Memory.wf : List Host.Cell → Bool
  | [] => true
  | [c] => c.2 != 0
  | c :: d :: t => c.2 != 0 && decide (c.1 < d.1) && Memory.wf (d :: t)

end Sys2Proof.Machine
end

