-- ==== Sys2Proof/Machine/RegTable.lean ====
section
/-! DEFINITION. The register tables of the spec: offset, stride, count and fields of every register (R10, R13, R47,
R118, R120, R228 to R230, R248, R261, R299, R367, R397, R428 to R430, R462, R493, R511, R545 to R549, R585 to R589,
R611, R612). Reserved fields are not listed: they read 0. A reset value that comes from fuses, the manifest or the
instance is 0 here and is supplied by the register view. -/

namespace Sys2Proof.Machine

namespace Reg
abbrev DIE_ID : Nat := 0x0
abbrev DIE_CTRL : Nat := 0x4
abbrev DIE_COREEN0 : Nat := 0x10
abbrev DIE_COREEN1 : Nat := 0x14
abbrev DIE_COREEN2 : Nat := 0x18
abbrev DIE_CORECNT : Nat := 0x1c
abbrev DIE_PAIROK0 : Nat := 0x20
abbrev DIE_PAIROK1 : Nat := 0x24
abbrev DIE_PDSTAT : Nat := 0x30
abbrev DIE_PDBUSY : Nat := 0x34
abbrev DIE_DRAMCFG : Nat := 0x40
abbrev DIE_PORTSTAT : Nat := 0x44
abbrev TC_ID : Nat := 0x0
abbrev TC_CTRL : Nat := 0x4
abbrev TC_STAT : Nat := 0x8
abbrev TC_CTX : Nat := 0xc
abbrev TC_PC : Nat := 0x10
abbrev TC_ENTRY : Nat := 0x14
abbrev TC_FLAGS : Nat := 0x18
abbrev TC_ERRSTAT : Nat := 0x20
abbrev TC_FIRSTERR : Nat := 0x24
abbrev TC_ERRADDRL : Nat := 0x28
abbrev TC_ERRADDRH : Nat := 0x2c
abbrev TC_ECCCNT : Nat := 0x30
abbrev TC_INTEN : Nat := 0x34
abbrev TC_BANKSTALL : Nat := 0x40
abbrev TC_DMAWAIT : Nat := 0x44
abbrev TC_ARRBUSY : Nat := 0x48
abbrev TC_DMAHEADc (c : Nat) : Nat := 0x100 + c * 0x10
abbrev TC_DMACTRLc (c : Nat) : Nat := 0x104 + c * 0x10
abbrev TC_DMASTATc (c : Nat) : Nat := 0x108 + c * 0x10
abbrev TC_DMAREMc (c : Nat) : Nat := 0x10c + c * 0x10
abbrev TC_SIGs (s : Nat) : Nat := 0x200 + s * 0x4
abbrev PCMP_CTRL : Nat := 0x0
abbrev PCMP_STAT : Nat := 0x4
abbrev PCMP_MISCYC : Nat := 0x8
abbrev PCMP_MISKIND : Nat := 0xc
abbrev MC_CTRL : Nat := 0x0
abbrev MC_STAT : Nat := 0x4
abbrev MC_ERRSTAT : Nat := 0x8
abbrev MC_FIRSTERR : Nat := 0xc
abbrev MC_ERRADDRL : Nat := 0x10
abbrev MC_ERRADDRH : Nat := 0x14
abbrev MC_CECNT : Nat := 0x18
abbrev MC_INTEN : Nat := 0x1c
abbrev MC_SHSRCe (e : Nat) : Nat := 0x100 + e * 0x10
abbrev MC_SHCFGe (e : Nat) : Nat := 0x104 + e * 0x10
abbrev MC_SHMISSe (e : Nat) : Nat := 0x108 + e * 0x10
abbrev MC_SHSRC31 : Nat := 0x2f0
abbrev MC_SHCFG31 : Nat := 0x2f4
abbrev MC_CLBYTESLc (c : Nat) : Nat := 0x400 + c * 0x10
abbrev MC_CLBYTESHc (c : Nat) : Nat := 0x404 + c * 0x10
abbrev MC_CLREQc (c : Nat) : Nat := 0x408 + c * 0x10
abbrev MC_CLWORSTc (c : Nat) : Nat := 0x40c + c * 0x10
abbrev DP_CTRL : Nat := 0x0
abbrev DP_STAT : Nat := 0x4
abbrev DP_ERRSTAT : Nat := 0x8
abbrev DP_FIRSTERR : Nat := 0xc
abbrev DP_RETRYCNT : Nat := 0x18
abbrev DP_INTEN : Nat := 0x1c
abbrev DP_YIELDCNT : Nat := 0x20
abbrev DP_CREDc (c : Nat) : Nat := 0x40 + c * 0x4
abbrev FAB_CTRL : Nat := 0x0
abbrev FAB_ERRSTAT : Nat := 0x8
abbrev FAB_FIRSTERR : Nat := 0xc
abbrev FAB_ERRADDRL : Nat := 0x10
abbrev FAB_ERRADDRH : Nat := 0x14
abbrev FAB_ERRINFO : Nat := 0x18
abbrev FAB_INTEN : Nat := 0x1c
abbrev FAB_PWSTICKYw (w : Nat) : Nat := 0x100 + w * 0x4
abbrev FAB_PWLOGCNT : Nat := 0x180
abbrev FAB_PWLOGPOP : Nat := 0x184
abbrev FAB_PWLOGADDRLi (i : Nat) : Nat := 0x200 + i * 0x10
abbrev FAB_PWLOGADDRHi (i : Nat) : Nat := 0x204 + i * 0x10
abbrev FAB_PWLOGINFOi (i : Nat) : Nat := 0x208 + i * 0x10
abbrev TU_CTRL : Nat := 0x0
abbrev TU_ERRSTAT : Nat := 0x8
abbrev TU_FIRSTERR : Nat := 0xc
abbrev TU_INTEN : Nat := 0x1c
abbrev TU_LTL : Nat := 0x20
abbrev TU_LTH : Nat := 0x24
abbrev TU_DdCTRL (d : Nat) : Nat := 0x100 + d * 0x40
abbrev TU_DdSTAT (d : Nat) : Nat := 0x104 + d * 0x40
abbrev TU_DdTIMEL (d : Nat) : Nat := 0x108 + d * 0x40
abbrev TU_DdTIMEH (d : Nat) : Nat := 0x10c + d * 0x40
abbrev TU_DdRATE (d : Nat) : Nat := 0x110 + d * 0x40
abbrev TU_DdSTEP (d : Nat) : Nat := 0x114 + d * 0x40
abbrev TU_DdSETL (d : Nat) : Nat := 0x118 + d * 0x40
abbrev TU_DdSETH (d : Nat) : Nat := 0x11c + d * 0x40
abbrev TU_DdLOAD (d : Nat) : Nat := 0x120 + d * 0x40
abbrev TU_DdSLEW (d : Nat) : Nat := 0x124 + d * 0x40
abbrev TU_DdSLEWREM (d : Nat) : Nat := 0x128 + d * 0x40
abbrev TU_DdREFUSE (d : Nat) : Nat := 0x12c + d * 0x40
abbrev TU_TRGCFGn (n : Nat) : Nat := 0x400 + n * 0x20
abbrev TU_TRGSTARTLn (n : Nat) : Nat := 0x404 + n * 0x20
abbrev TU_TRGSTARTHn (n : Nat) : Nat := 0x408 + n * 0x20
abbrev TU_TRGPERn (n : Nat) : Nat := 0x40c + n * 0x20
abbrev TU_TRGWIDn (n : Nat) : Nat := 0x410 + n * 0x20
abbrev TU_TRGADVn (n : Nat) : Nat := 0x414 + n * 0x20
abbrev TU_TRGSTATn (n : Nat) : Nat := 0x418 + n * 0x20
abbrev TU_TRGNEXTn (n : Nat) : Nat := 0x41c + n * 0x20
abbrev TU_CAPCFGn (n : Nat) : Nat := 0x800 + n * 0x20
abbrev TU_CAPn (n : Nat) : Nat := 0x804 + n * 0x20
abbrev TU_CAPINFOn (n : Nat) : Nat := 0x808 + n * 0x20
abbrev TU_CAPPOPn (n : Nat) : Nat := 0x80c + n * 0x20
abbrev TU_CAPDROPn (n : Nat) : Nat := 0x810 + n * 0x20
abbrev WHL_CTRL : Nat := 0x0
abbrev WHL_ERRSTAT : Nat := 0x8
abbrev WHL_FIRSTERR : Nat := 0xc
abbrev WHL_INTEN : Nat := 0x1c
abbrev WHL_CFGw (w : Nat) : Nat := 0x100 + w * 0x40
abbrev WHL_PERw (w : Nat) : Nat := 0x104 + w * 0x40
abbrev WHL_STATw (w : Nat) : Nat := 0x108 + w * 0x40
abbrev WHL_FRAMEw (w : Nat) : Nat := 0x10c + w * 0x40
abbrev WHL_STARTw (w : Nat) : Nat := 0x110 + w * 0x40
abbrev WHL_SPURCNTw (w : Nat) : Nat := 0x114 + w * 0x40
abbrev WHL_LOSSCNTw (w : Nat) : Nat := 0x118 + w * 0x40
abbrev CAD_CTRL : Nat := 0x0
abbrev CAD_STAT : Nat := 0x4
abbrev CAD_ERRSTAT : Nat := 0x8
abbrev CAD_FIRSTERR : Nat := 0xc
abbrev CAD_ERRINFO : Nat := 0x10
abbrev CAD_ERRADDRL : Nat := 0x14
abbrev CAD_ERRADDRH : Nat := 0x18
abbrev CAD_INTEN : Nat := 0x1c
abbrev CAD_PHASEw (w : Nat) : Nat := 0x20 + w * 0x8
abbrev CAD_FRAMEw (w : Nat) : Nat := 0x24 + w * 0x8
abbrev CAD_LATECNT : Nat := 0x40
abbrev CAD_MISSCNT : Nat := 0x44
abbrev CAD_PREEMPTCNT : Nat := 0x48
abbrev CAD_IDLEACC : Nat := 0x4c
abbrev CAD_ABORT : Nat := 0x50
abbrev CAD_ABORTRES : Nat := 0x54
abbrev CAD_CSECCNT : Nat := 0x58
abbrev CAD_COREk (k : Nat) : Nat := 0x100 + k * 0x20
abbrev CAD_RESUMEk (k : Nat) : Nat := 0x104 + k * 0x20
abbrev CAD_ACCSIGk (k : Nat) : Nat := 0x108 + k * 0x20
abbrev CAD_ACCFRMk (k : Nat) : Nat := 0x10c + k * 0x20
abbrev CAD_ACCPHk (k : Nat) : Nat := 0x110 + k * 0x20
abbrev CAD_ENDPHk (k : Nat) : Nat := 0x114 + k * 0x20
abbrev CAD_LTABi (i : Nat) : Nat := 0x400 + i * 0x10
abbrev CAD_LDLi (i : Nat) : Nat := 0x404 + i * 0x10
abbrev CAD_LENTRYi (i : Nat) : Nat := 0x408 + i * 0x10
abbrev CAD_LACCi (i : Nat) : Nat := 0x40c + i * 0x10
abbrev FW_CTRL : Nat := 0x0
abbrev FW_ERRSTAT : Nat := 0x8
abbrev FW_FIRSTERR : Nat := 0xc
abbrev FW_INTEN : Nat := 0x1c
abbrev FW_FPSTATk (k : Nat) : Nat := 0x40 + k * 0x10
abbrev FW_WDKICKk (k : Nat) : Nat := 0x44 + k * 0x10
abbrev FW_WDLASTk (k : Nat) : Nat := 0x48 + k * 0x10
abbrev FW_FPCTRLk (k : Nat) : Nat := 0x4c + k * 0x10
abbrev FW_MCWDKICK : Nat := 0xc0
abbrev FW_MCWDLAST : Nat := 0xc4
abbrev FW_MBCNT : Nat := 0x100
abbrev FW_MBMAX : Nat := 0x104
abbrev FW_CQDROP : Nat := 0x108
abbrev FW_RAPDROP : Nat := 0x10c
abbrev FW_LOGDROP : Nat := 0x110
abbrev FW_DBp (p : Nat) : Nat := 0x200 + p * 0x4
abbrev FW_CQPENDw (w : Nat) : Nat := 0x300 + w * 0x4
abbrev PWR_CTRL : Nat := 0x0
abbrev PWR_STAT : Nat := 0x4
abbrev PWR_ERRSTAT : Nat := 0x8
abbrev PWR_FIRSTERR : Nat := 0xc
abbrev PWR_INTEN : Nat := 0x1c
abbrev PWR_CAP : Nat := 0x20
abbrev PWR_BUDGET : Nat := 0x24
abbrev PWR_MEAS : Nat := 0x28
abbrev PWR_BOOTTIME : Nat := 0x2c
abbrev PWR_BOOTERR : Nat := 0x30
abbrev PWR_THERM : Nat := 0x34
abbrev PWR_OWNi (i : Nat) : Nat := 0x40 + i * 0x4
abbrev PWR_ONi (i : Nat) : Nat := 0x60 + i * 0x4
abbrev PWR_WWCNT : Nat := 0x80
abbrev PWR_REQ : Nat := 0x90
abbrev PWR_REQRES : Nat := 0x94
abbrev PWR_BUDk (k : Nat) : Nat := 0x100 + k * 0x4
abbrev CHK_CTRL : Nat := 0x0
abbrev CHK_STAT : Nat := 0x4
abbrev CHK_ERRSTAT : Nat := 0x8
abbrev CHK_FIRSTERR : Nat := 0xc
abbrev CHK_ERRINFO : Nat := 0x10
abbrev CHK_INTEN : Nat := 0x1c
abbrev CHK_SLICEs (s : Nat) : Nat := 0x20 + s * 0x4
abbrev CHK_PAIRi (i : Nat) : Nat := 0x40 + i * 0x10
abbrev CHK_AGREEi (i : Nat) : Nat := 0x44 + i * 0x10
abbrev CHK_DISAGi (i : Nat) : Nat := 0x48 + i * 0x10
abbrev CHK_INDETi (i : Nat) : Nat := 0x4c + i * 0x10
abbrev LKS_STAT : Nat := 0x0
abbrev LKS_MISCYC : Nat := 0x4
abbrev LKS_MISKIND : Nat := 0x8
abbrev LKS_MISADDRL : Nat := 0xc
abbrev LKS_MISADDRH : Nat := 0x10
abbrev BLT_STAT : Nat := 0x0
abbrev BLT_FAIL : Nat := 0x4
abbrev BLT_INJk (k : Nat) : Nat := 0x10 + k * 0x8
abbrev BLT_FIREDk (k : Nat) : Nat := 0x14 + k * 0x8
abbrev BLT_DOMTIMEd (d : Nat) : Nat := 0x200 + d * 0x4
abbrev FLT_CTRL : Nat := 0x0
abbrev FLT_PINSTAT : Nat := 0x4
abbrev FLT_PINHOLD : Nat := 0x8
abbrev FLT_PINAUTO : Nat := 0xc
abbrev FLT_PULSE : Nat := 0x10
abbrev FLT_ERRPULSES : Nat := 0x14
abbrev FLT_WARNPULSES : Nat := 0x18
abbrev FLT_LOGBASEL : Nat := 0x20
abbrev FLT_LOGBASEH : Nat := 0x24
abbrev FLT_LOGSIZE : Nat := 0x28
abbrev FLT_LOGNEXT : Nat := 0x2c
abbrev FLT_LASTCNT : Nat := 0x30
abbrev FLT_REVOKECNT : Nat := 0x34
abbrev SEC_CTRL : Nat := 0x0
abbrev SEC_STAT : Nat := 0x4
abbrev SEC_ERRSTAT : Nat := 0x8
abbrev SEC_FIRSTERR : Nat := 0xc
abbrev SEC_ERRADDRL : Nat := 0x10
abbrev SEC_ERRADDRH : Nat := 0x14
abbrev SEC_VIOLINFO : Nat := 0x18
abbrev SEC_INTEN : Nat := 0x1c
abbrev SEC_VIOLCNT : Nat := 0x20
abbrev SEC_KGDISCARD : Nat := 0x24
abbrev SEC_FP4RST : Nat := 0x28
abbrev SEC_FP4MEASi (i : Nat) : Nat := 0x30 + i * 0x4
abbrev SEC_MGMTFAIL : Nat := 0x50
abbrev SEC_MGMTSESS : Nat := 0x54
abbrev SEC_SLOTs (s : Nat) : Nat := 0x100 + s * 0x4
abbrev CPU_CTRL : Nat := 0x0
abbrev CPU_CFG : Nat := 0x4
abbrev CPU_ERRSTAT : Nat := 0x8
abbrev CPU_FIRSTERR : Nat := 0xc
abbrev CPU_ERRADDRL : Nat := 0x10
abbrev CPU_ERRADDRH : Nat := 0x14
abbrev CPU_INTEN : Nat := 0x1c
abbrev CPU_CECNT : Nat := 0x20
abbrev CPU_PAIRSTATp (p : Nat) : Nat := 0x100 + p * 0x20
abbrev CPU_ENTRYLp (p : Nat) : Nat := 0x104 + p * 0x20
abbrev CPU_ENTRYHp (p : Nat) : Nat := 0x108 + p * 0x20
abbrev CPU_PAIRCMDp (p : Nat) : Nat := 0x10c + p * 0x20
abbrev CPU_RESTARTp (p : Nat) : Nat := 0x110 + p * 0x20
abbrev CAN_CTRL : Nat := 0x0
abbrev CAN_STAT : Nat := 0x4
abbrev CAN_ERRSTAT : Nat := 0x8
abbrev CAN_FIRSTERR : Nat := 0xc
abbrev CAN_INTEN : Nat := 0x1c
abbrev CAN_NBT : Nat := 0x20
abbrev CAN_FDBT : Nat := 0x24
abbrev CAN_XLBT : Nat := 0x28
abbrev CAN_XLPWM : Nat := 0x2c
abbrev CAN_TSCFG : Nat := 0x30
abbrev CAN_RXCNT : Nat := 0x40
abbrev CAN_TXCNT : Nat := 0x44
abbrev CAN_NOMATCH : Nat := 0x48
abbrev CAN_SGOVW : Nat := 0x4c
abbrev CAN_FLTIDf (f : Nat) : Nat := 0x100 + f * 0x10
abbrev CAN_FLTMSKf (f : Nat) : Nat := 0x104 + f * 0x10
abbrev CAN_FLTDSTf (f : Nat) : Nat := 0x108 + f * 0x10
abbrev LIN_CTRL : Nat := 0x0
abbrev LIN_STAT : Nat := 0x4
abbrev LIN_ERRSTAT : Nat := 0x8
abbrev LIN_BAUD : Nat := 0x20
abbrev SW_CTRL : Nat := 0x0
abbrev SW_ERRSTAT : Nat := 0x8
abbrev SW_FIRSTERR : Nat := 0xc
abbrev SW_INTEN : Nat := 0x1c
abbrev SW_MDIOCMD : Nat := 0x20
abbrev SW_MDIORES : Nat := 0x24
abbrev SW_PCFGp (p : Nat) : Nat := 0x10000 + p * 0x1000
abbrev SW_PSTATp (p : Nat) : Nat := 0x10004 + p * 0x1000
abbrev SW_PCPMAPp (p : Nat) : Nat := 0x10008 + p * 0x1000
abbrev SW_EXPMASKp (p : Nat) : Nat := 0x1000c + p * 0x1000
abbrev SW_RXFRMp (p : Nat) : Nat := 0x10010 + p * 0x1000
abbrev SW_TXFRMp (p : Nat) : Nat := 0x10014 + p * 0x1000
abbrev SW_DROPp (p : Nat) : Nat := 0x10018 + p * 0x1000
abbrev GW_CTRL : Nat := 0x0
abbrev GW_STAT : Nat := 0x4
abbrev GW_ERRSTAT : Nat := 0x8
abbrev GW_FIRSTERR : Nat := 0xc
abbrev GW_ERRINFO : Nat := 0x10
abbrev GW_INTEN : Nat := 0x1c
abbrev GW_STASH : Nat := 0x20
abbrev GW_QSTATi (i : Nat) : Nat := 0x100 + i * 0x10
abbrev GW_QDBi (i : Nat) : Nat := 0x104 + i * 0x10
abbrev GW_QDROPi (i : Nat) : Nat := 0x108 + i * 0x10
abbrev GW_QPENDi (i : Nat) : Nat := 0x10c + i * 0x10
abbrev PCI_CTRL : Nat := 0x0
abbrev PCI_STAT : Nat := 0x4
abbrev PCI_ERRSTAT : Nat := 0x8
abbrev PCI_FIRSTERR : Nat := 0xc
abbrev PCI_ERRADDRL : Nat := 0x10
abbrev PCI_ERRADDRH : Nat := 0x14
abbrev PCI_INTEN : Nat := 0x1c
abbrev PCI_YIELDCNT : Nat := 0x20
abbrev PCI_WINBASELw (w : Nat) : Nat := 0x100 + w * 0x10
abbrev PCI_WINBASEHw (w : Nat) : Nat := 0x104 + w * 0x10
abbrev PCI_WINSIZEw (w : Nat) : Nat := 0x108 + w * 0x10
abbrev PCI_WINATTRw (w : Nat) : Nat := 0x10c + w * 0x10
abbrev CAM_CTRL : Nat := 0x0
abbrev CAM_CFG : Nat := 0x4
abbrev CAM_ERRSTAT : Nat := 0x8
abbrev CAM_FIRSTERR : Nat := 0xc
abbrev CAM_ERRINFO : Nat := 0x10
abbrev CAM_INTEN : Nat := 0x1c
abbrev CAM_STAT : Nat := 0x20
abbrev CAM_SSTATs (s : Nat) : Nat := 0x100 + s * 0x10
abbrev CAM_SFRAMEs (s : Nat) : Nat := 0x104 + s * 0x10
abbrev CAM_SDROPs (s : Nat) : Nat := 0x108 + s * 0x10
abbrev CAM_SCRCs (s : Nat) : Nat := 0x10c + s * 0x10
abbrev GFX_CTRL : Nat := 0x0
abbrev GFX_STAT : Nat := 0x4
abbrev GFX_ERRSTAT : Nat := 0x8
abbrev GFX_FIRSTERR : Nat := 0xc
abbrev GFX_ERRINFO : Nat := 0x10
abbrev GFX_INTEN : Nat := 0x1c
abbrev GFX_TLFLUSH : Nat := 0x20
abbrev GFX_PREEMPT : Nat := 0x24
abbrev GFX_SBSTALL : Nat := 0x28
abbrev GFX_QSTATq (q : Nat) : Nat := 0x100 + q * 0x10
abbrev GFX_QDBq (q : Nat) : Nat := 0x104 + q * 0x10
abbrev GFX_QSEQq (q : Nat) : Nat := 0x108 + q * 0x10
abbrev GFX_QPENDq (q : Nat) : Nat := 0x10c + q * 0x10
abbrev DSP_CTRL : Nat := 0x0
abbrev DSP_CFG : Nat := 0x4
abbrev DSP_ERRSTAT : Nat := 0x8
abbrev DSP_FIRSTERR : Nat := 0xc
abbrev DSP_INTEN : Nat := 0x1c
abbrev DSP_HTIM : Nat := 0x20
abbrev DSP_VTIM : Nat := 0x24
abbrev DSP_LATCH : Nat := 0x28
abbrev DSP_STAT : Nat := 0x30
abbrev DSP_REUSE : Nat := 0x34
abbrev DSP_UNDERCNT : Nat := 0x38
abbrev WDE_CTRL : Nat := 0x0
abbrev WDE_ID : Nat := 0x4
abbrev WDE_ERRSTAT : Nat := 0x8
abbrev WDE_FIRSTERR : Nat := 0xc
abbrev WDE_ERRINFO : Nat := 0x10
abbrev WDE_INTEN : Nat := 0x1c
abbrev WDE_TOPO : Nat := 0x20
abbrev WDE_ROUND : Nat := 0x24
abbrev WDE_NEXTRND : Nat := 0x28
abbrev WDE_HBWORD : Nat := 0x30
abbrev WDE_PAIRSTAT : Nat := 0x34
abbrev WDE_PARTNERWORD : Nat := 0x38
abbrev WDE_SQSTATq (q : Nat) : Nat := 0x100 + q * 0x10
abbrev WDE_SQDBq (q : Nat) : Nat := 0x104 + q * 0x10
abbrev WDE_SQPENDq (q : Nat) : Nat := 0x10c + q * 0x10
abbrev WDE_RQSTATq (q : Nat) : Nat := 0x400 + q * 0x10
abbrev WDE_RQDROPq (q : Nat) : Nat := 0x404 + q * 0x10
abbrev WDE_RQLOSTq (q : Nat) : Nat := 0x408 + q * 0x10
abbrev WDE_RQPENDq (q : Nat) : Nat := 0x40c + q * 0x10
abbrev WDP_STATp : Nat := 0x0
abbrev WDP_SKEWp : Nat := 0x4
abbrev WDP_FECCp : Nat := 0x8
abbrev WDP_FECUEp : Nat := 0xc
abbrev WDP_REPLAYp : Nat := 0x10
abbrev WDP_TXFLITp : Nat := 0x14
abbrev WDP_RXFLITp : Nat := 0x18
abbrev WDP_DOWNp : Nat := 0x1c
abbrev WDP_XMITDROPp : Nat := 0x20
abbrev DP_SHSRCe (e : Nat) : Nat := 0x100 + e * 0x10
abbrev DP_SHCFGe (e : Nat) : Nat := 0x104 + e * 0x10
abbrev DP_SHMISSe (e : Nat) : Nat := 0x108 + e * 0x10
abbrev DP_SHSRC31 : Nat := 0x2f0
abbrev DP_SHCFG31 : Nat := 0x2f4
abbrev DP_CLBYTESLc (c : Nat) : Nat := 0x400 + c * 0x10
abbrev DP_CLBYTESHc (c : Nat) : Nat := 0x404 + c * 0x10
abbrev DP_CLREQc (c : Nat) : Nat := 0x408 + c * 0x10
abbrev DP_CLWORSTc (c : Nat) : Nat := 0x40c + c * 0x10
end Reg

/-- Registers of the die block. -/
def regs_die : List RegRow := [
  ⟨0x0, 0x0, 1, [⟨31, 16, .ro, 0x4738⟩, ⟨15, 12, .ro, 0⟩, ⟨11, 8, .ro, 1⟩, ⟨2, 0, .ro, 0⟩]⟩,
  ⟨0x4, 0x0, 1, [⟨0, 0, .rw, 0⟩]⟩,
  ⟨0x10, 0x0, 1, [⟨31, 0, .ro, 0⟩]⟩,
  ⟨0x14, 0x0, 1, [⟨31, 0, .ro, 0⟩]⟩,
  ⟨0x18, 0x0, 1, [⟨31, 0, .ro, 0⟩]⟩,
  ⟨0x1c, 0x0, 1, [⟨6, 0, .ro, 0⟩]⟩,
  ⟨0x20, 0x0, 1, [⟨31, 0, .ro, 0⟩]⟩,
  ⟨0x24, 0x0, 1, [⟨15, 0, .ro, 0⟩]⟩,
  ⟨0x30, 0x0, 1, [⟨31, 0, .ro, 0⟩]⟩,
  ⟨0x34, 0x0, 1, [⟨31, 0, .ro, 0⟩]⟩,
  ⟨0x40, 0x0, 1, [⟨11, 8, .ro, 0⟩, ⟨3, 0, .ro, 0⟩]⟩,
  ⟨0x44, 0x0, 1, [⟨6, 0, .ro, 0⟩]⟩]

/-- Registers of the tc block. -/
def regs_tc : List RegRow := [
  ⟨0x0, 0x0, 1, [⟨7, 4, .ro, 0⟩, ⟨2, 0, .ro, 0⟩]⟩,
  ⟨0x4, 0x0, 1, [⟨3, 3, .wo, 0⟩, ⟨2, 2, .wo, 0⟩, ⟨1, 1, .rw, 0⟩, ⟨0, 0, .rw, 0⟩]⟩,
  ⟨0x8, 0x0, 1, [⟨6, 6, .ro, 0⟩, ⟨5, 5, .ro, 0⟩, ⟨4, 4, .ro, 0⟩, ⟨3, 3, .ro, 0⟩, ⟨2, 2, .ro, 1⟩, ⟨1, 1, .ro, 0⟩, ⟨0, 0, .ro, 0⟩]⟩,
  ⟨0xc, 0x0, 1, [⟨20, 13, .rw, 0⟩, ⟨12, 12, .rw, 0⟩, ⟨11, 0, .rw, 0⟩]⟩,
  ⟨0x10, 0x0, 1, [⟨19, 0, .ro, 0⟩]⟩,
  ⟨0x14, 0x0, 1, [⟨19, 3, .rw, 0⟩]⟩,
  ⟨0x18, 0x0, 1, [⟨3, 3, .w1c, 0⟩, ⟨2, 2, .w1c, 0⟩, ⟨1, 1, .w1c, 0⟩, ⟨0, 0, .w1c, 0⟩]⟩,
  ⟨0x20, 0x0, 1, [⟨8, 8, .w1c, 0⟩, ⟨7, 7, .w1c, 0⟩, ⟨6, 6, .w1c, 0⟩, ⟨5, 5, .w1c, 0⟩, ⟨4, 4, .w1c, 0⟩, ⟨3, 3, .w1c, 0⟩, ⟨2, 2, .w1c, 0⟩, ⟨1, 1, .w1c, 0⟩, ⟨0, 0, .w1c, 0⟩]⟩,
  ⟨0x24, 0x0, 1, [⟨31, 31, .w1c, 0⟩, ⟨3, 0, .ro, 0⟩]⟩,
  ⟨0x28, 0x0, 1, [⟨31, 0, .ro, 0⟩]⟩,
  ⟨0x2c, 0x0, 1, [⟨15, 0, .ro, 0⟩]⟩,
  ⟨0x30, 0x0, 1, [⟨31, 0, .rc, 0⟩]⟩,
  ⟨0x34, 0x0, 1, [⟨8, 0, .rw, 0x1fe⟩]⟩,
  ⟨0x40, 0x0, 1, [⟨31, 0, .rc, 0⟩]⟩,
  ⟨0x44, 0x0, 1, [⟨31, 0, .rc, 0⟩]⟩,
  ⟨0x48, 0x0, 1, [⟨31, 0, .rc, 0⟩]⟩,
  ⟨0x100, 0x10, 8, [⟨19, 6, .rw, 0⟩]⟩,
  ⟨0x104, 0x10, 8, [⟨1, 1, .wo, 0⟩, ⟨0, 0, .wo, 0⟩]⟩,
  ⟨0x108, 0x10, 8, [⟨31, 28, .ro, 0⟩, ⟨27, 27, .w1c, 0⟩]⟩,
  ⟨0x10c, 0x10, 8, [⟨31, 0, .ro, 0⟩]⟩,
  ⟨0x200, 0x4, 32, [⟨15, 0, .rw, 0⟩]⟩]

/-- Registers of the pcmp block. -/
def regs_pcmp : List RegRow := [
  ⟨0x0, 0x0, 1, [⟨1, 1, .rw, 0⟩, ⟨0, 0, .rw, 0⟩]⟩,
  ⟨0x4, 0x0, 1, [⟨3, 3, .ro, 0⟩, ⟨2, 2, .ro, 0⟩, ⟨1, 1, .w1c, 0⟩, ⟨0, 0, .ro, 0⟩]⟩,
  ⟨0x8, 0x0, 1, [⟨31, 0, .ro, 0⟩]⟩,
  ⟨0xc, 0x0, 1, [⟨2, 0, .ro, 0⟩]⟩]

/-- Registers of the mc block. -/
def regs_mc : List RegRow := [
  ⟨0x0, 0x0, 1, [⟨0, 0, .rw, 0⟩]⟩,
  ⟨0x4, 0x0, 1, [⟨3, 0, .ro, 0⟩]⟩,
  ⟨0x8, 0x0, 1, [⟨4, 4, .w1c, 0⟩, ⟨3, 3, .w1c, 0⟩, ⟨2, 2, .w1c, 0⟩, ⟨1, 1, .w1c, 0⟩, ⟨0, 0, .w1c, 0⟩]⟩,
  ⟨0xc, 0x0, 1, [⟨31, 31, .w1c, 0⟩, ⟨2, 0, .ro, 0⟩]⟩,
  ⟨0x10, 0x0, 1, [⟨31, 0, .ro, 0⟩]⟩,
  ⟨0x14, 0x0, 1, [⟨15, 0, .ro, 0⟩]⟩,
  ⟨0x18, 0x0, 1, [⟨31, 0, .rc, 0⟩]⟩,
  ⟨0x1c, 0x0, 1, [⟨4, 0, .rw, 0x1e⟩]⟩,
  ⟨0x100, 0x10, 31, [⟨31, 31, .rw, 0⟩, ⟨30, 30, .rw, 0⟩, ⟨29, 27, .rw, 0⟩, ⟨19, 10, .rw, 0⟩, ⟨9, 0, .rw, 0⟩]⟩,
  ⟨0x104, 0x10, 31, [⟨31, 24, .rw, 0⟩, ⟨15, 8, .rw, 0⟩, ⟨7, 0, .rw, 0⟩]⟩,
  ⟨0x108, 0x10, 31, [⟨31, 0, .rc, 0⟩]⟩,
  ⟨0x2f0, 0x0, 1, [⟨31, 0, .ro, 0xc00ffc00⟩]⟩,
  ⟨0x2f4, 0x0, 1, [⟨31, 0, .ro, 0xff000001⟩]⟩,
  ⟨0x400, 0x10, 8, [⟨31, 0, .ro, 0⟩]⟩,
  ⟨0x404, 0x10, 8, [⟨31, 0, .ro, 0⟩]⟩,
  ⟨0x408, 0x10, 8, [⟨31, 0, .ro, 0⟩]⟩,
  ⟨0x40c, 0x10, 8, [⟨31, 0, .rc, 0⟩]⟩]

/-- Registers of the dp block. -/
def regs_dp : List RegRow := [
  ⟨0x0, 0x0, 1, [⟨0, 0, .rw, 0⟩]⟩,
  ⟨0x4, 0x0, 1, [⟨8, 8, .ro, 0⟩, ⟨3, 0, .ro, 0⟩]⟩,
  ⟨0x8, 0x0, 1, [⟨4, 4, .w1c, 0⟩, ⟨3, 3, .w1c, 0⟩, ⟨2, 2, .w1c, 0⟩, ⟨1, 1, .w1c, 0⟩, ⟨0, 0, .w1c, 0⟩]⟩,
  ⟨0xc, 0x0, 1, [⟨31, 31, .w1c, 0⟩, ⟨2, 0, .ro, 0⟩]⟩,
  ⟨0x18, 0x0, 1, [⟨31, 0, .rc, 0⟩]⟩,
  ⟨0x1c, 0x0, 1, [⟨4, 0, .rw, 0x1e⟩]⟩,
  ⟨0x20, 0x0, 1, [⟨31, 0, .rc, 0⟩]⟩,
  ⟨0x40, 0x4, 8, [⟨25, 16, .ro, 0x40⟩, ⟨9, 0, .rw, 0x40⟩]⟩,
  ⟨0x100, 0x10, 31, [⟨31, 31, .rw, 0⟩, ⟨30, 30, .rw, 0⟩, ⟨29, 27, .rw, 0⟩, ⟨19, 10, .rw, 0⟩, ⟨9, 0, .rw, 0⟩]⟩,
  ⟨0x104, 0x10, 31, [⟨31, 24, .rw, 0⟩, ⟨15, 8, .rw, 0⟩, ⟨7, 0, .rw, 0⟩]⟩,
  ⟨0x108, 0x10, 31, [⟨31, 0, .rc, 0⟩]⟩,
  ⟨0x2f0, 0x0, 1, [⟨31, 0, .ro, 0xc00ffc00⟩]⟩,
  ⟨0x2f4, 0x0, 1, [⟨31, 0, .ro, 0xff000001⟩]⟩,
  ⟨0x400, 0x10, 8, [⟨31, 0, .ro, 0⟩]⟩,
  ⟨0x404, 0x10, 8, [⟨31, 0, .ro, 0⟩]⟩,
  ⟨0x408, 0x10, 8, [⟨31, 0, .ro, 0⟩]⟩,
  ⟨0x40c, 0x10, 8, [⟨31, 0, .rc, 0⟩]⟩]

/-- Registers of the fab block. -/
def regs_fab : List RegRow := [
  ⟨0x0, 0x0, 1, [⟨0, 0, .rw, 0⟩]⟩,
  ⟨0x8, 0x0, 1, [⟨3, 3, .w1c, 0⟩, ⟨2, 2, .w1c, 0⟩, ⟨1, 1, .w1c, 0⟩, ⟨0, 0, .w1c, 0⟩]⟩,
  ⟨0xc, 0x0, 1, [⟨31, 31, .w1c, 0⟩, ⟨1, 0, .ro, 0⟩]⟩,
  ⟨0x10, 0x0, 1, [⟨31, 0, .ro, 0⟩]⟩,
  ⟨0x14, 0x0, 1, [⟨15, 0, .ro, 0⟩]⟩,
  ⟨0x18, 0x0, 1, [⟨12, 10, .ro, 0⟩, ⟨9, 0, .ro, 0⟩]⟩,
  ⟨0x1c, 0x0, 1, [⟨3, 0, .rw, 0xf⟩]⟩,
  ⟨0x100, 0x4, 32, [⟨31, 0, .w1c, 0⟩]⟩,
  ⟨0x180, 0x0, 1, [⟨31, 31, .w1c, 0⟩, ⟨4, 0, .ro, 0⟩]⟩,
  ⟨0x184, 0x0, 1, [⟨0, 0, .wo, 0⟩]⟩,
  ⟨0x200, 0x10, 16, [⟨31, 0, .ro, 0⟩]⟩,
  ⟨0x204, 0x10, 16, [⟨15, 0, .ro, 0⟩]⟩,
  ⟨0x208, 0x10, 16, [⟨31, 28, .ro, 0⟩, ⟨27, 25, .ro, 0⟩, ⟨24, 22, .ro, 0⟩, ⟨9, 0, .ro, 0⟩]⟩]

/-- Registers of the tu block. -/
def regs_tu : List RegRow := [
  ⟨0x0, 0x0, 1, [⟨0, 0, .rw, 0⟩]⟩,
  ⟨0x8, 0x0, 1, [⟨2, 2, .w1c, 0⟩, ⟨1, 1, .w1c, 0⟩, ⟨0, 0, .w1c, 0⟩]⟩,
  ⟨0xc, 0x0, 1, [⟨31, 31, .w1c, 0⟩, ⟨1, 0, .ro, 0⟩]⟩,
  ⟨0x1c, 0x0, 1, [⟨2, 0, .rw, 7⟩]⟩,
  ⟨0x20, 0x0, 1, [⟨31, 0, .ro, 0⟩]⟩,
  ⟨0x24, 0x0, 1, [⟨31, 0, .ro, 0⟩]⟩,
  ⟨0x100, 0x40, 4, [⟨31, 31, .rw, 0⟩, ⟨6, 0, .rw, 0⟩]⟩,
  ⟨0x104, 0x40, 4, [⟨1, 1, .ro, 0⟩, ⟨0, 0, .ro, 0⟩]⟩,
  ⟨0x108, 0x40, 4, [⟨31, 0, .ro, 0⟩]⟩,
  ⟨0x10c, 0x40, 4, [⟨31, 0, .ro, 0⟩]⟩,
  ⟨0x110, 0x40, 4, [⟨31, 0, .rw, 0⟩]⟩,
  ⟨0x114, 0x40, 4, [⟨31, 0, .wo, 0⟩]⟩,
  ⟨0x118, 0x40, 4, [⟨31, 0, .rw, 0⟩]⟩,
  ⟨0x11c, 0x40, 4, [⟨31, 0, .rw, 0⟩]⟩,
  ⟨0x120, 0x40, 4, [⟨0, 0, .wo, 0⟩]⟩,
  ⟨0x124, 0x40, 4, [⟨31, 0, .wo, 0⟩]⟩,
  ⟨0x128, 0x40, 4, [⟨31, 0, .ro, 0⟩]⟩,
  ⟨0x12c, 0x40, 4, [⟨31, 0, .rc, 0⟩]⟩,
  ⟨0x400, 0x20, 32, [⟨31, 31, .rw, 0⟩, ⟨30, 28, .rw, 0⟩, ⟨27, 27, .rw, 0⟩, ⟨26, 26, .rw, 0⟩, ⟨25, 25, .rw, 0⟩, ⟨24, 24, .rw, 0⟩, ⟨23, 22, .rw, 0⟩, ⟨15, 0, .rw, 0⟩]⟩,
  ⟨0x404, 0x20, 32, [⟨31, 0, .rw, 0⟩]⟩,
  ⟨0x408, 0x20, 32, [⟨31, 0, .rw, 0⟩]⟩,
  ⟨0x40c, 0x20, 32, [⟨31, 0, .rw, 0⟩]⟩,
  ⟨0x410, 0x20, 32, [⟨31, 0, .rw, 0⟩]⟩,
  ⟨0x414, 0x20, 32, [⟨15, 0, .rw, 0⟩]⟩,
  ⟨0x418, 0x20, 32, [⟨31, 31, .ro, 0⟩, ⟨30, 30, .w1c, 0⟩, ⟨15, 0, .ro, 0⟩]⟩,
  ⟨0x41c, 0x20, 32, [⟨31, 0, .ro, 0⟩]⟩,
  ⟨0x800, 0x20, 32, [⟨31, 31, .rw, 0⟩, ⟨30, 28, .rw, 0⟩, ⟨27, 26, .rw, 0⟩, ⟨25, 25, .rw, 0⟩, ⟨4, 0, .rw, 0⟩]⟩,
  ⟨0x804, 0x20, 32, [⟨31, 0, .ro, 0⟩]⟩,
  ⟨0x808, 0x20, 32, [⟨31, 31, .w1c, 0⟩, ⟨5, 5, .ro, 0⟩, ⟨4, 0, .ro, 0⟩]⟩,
  ⟨0x80c, 0x20, 32, [⟨0, 0, .wo, 0⟩]⟩,
  ⟨0x810, 0x20, 32, [⟨31, 0, .rc, 0⟩]⟩]

/-- Registers of the whl block. -/
def regs_whl : List RegRow := [
  ⟨0x0, 0x0, 1, [⟨0, 0, .rw, 0⟩]⟩,
  ⟨0x8, 0x0, 1, [⟨3, 3, .w1c, 0⟩, ⟨2, 2, .w1c, 0⟩, ⟨1, 1, .w1c, 0⟩, ⟨0, 0, .w1c, 0⟩]⟩,
  ⟨0xc, 0x0, 1, [⟨31, 31, .w1c, 0⟩, ⟨1, 0, .ro, 0⟩]⟩,
  ⟨0x1c, 0x0, 1, [⟨3, 0, .rw, 0xf⟩]⟩,
  ⟨0x100, 0x40, 4, [⟨31, 31, .rw, 0⟩, ⟨30, 30, .rw, 0⟩, ⟨25, 21, .rw, 0⟩, ⟨19, 16, .rw, 0⟩]⟩,
  ⟨0x104, 0x40, 4, [⟨31, 0, .rw, 0⟩]⟩,
  ⟨0x108, 0x40, 4, [⟨31, 30, .ro, 0⟩, ⟨18, 16, .ro, 0⟩, ⟨15, 0, .ro, 0⟩]⟩,
  ⟨0x10c, 0x40, 4, [⟨31, 0, .ro, 0⟩]⟩,
  ⟨0x110, 0x40, 4, [⟨31, 0, .ro, 0⟩]⟩,
  ⟨0x114, 0x40, 4, [⟨31, 0, .rc, 0⟩]⟩,
  ⟨0x118, 0x40, 4, [⟨31, 0, .rc, 0⟩]⟩]

/-- Registers of the cad block. -/
def regs_cad : List RegRow := [
  ⟨0x0, 0x0, 1, [⟨0, 0, .rw, 0⟩]⟩,
  ⟨0x4, 0x0, 1, [⟨3, 0, .ro, 0⟩]⟩,
  ⟨0x8, 0x0, 1, [⟨6, 6, .w1c, 0⟩, ⟨5, 5, .w1c, 0⟩, ⟨4, 4, .w1c, 0⟩, ⟨3, 3, .w1c, 0⟩, ⟨2, 2, .w1c, 0⟩, ⟨1, 1, .w1c, 0⟩, ⟨0, 0, .w1c, 0⟩]⟩,
  ⟨0xc, 0x0, 1, [⟨31, 31, .w1c, 0⟩, ⟨2, 0, .ro, 0⟩]⟩,
  ⟨0x10, 0x0, 1, [⟨28, 24, .ro, 0⟩, ⟨20, 16, .ro, 0⟩, ⟨2, 0, .ro, 0⟩]⟩,
  ⟨0x14, 0x0, 1, [⟨31, 0, .ro, 0⟩]⟩,
  ⟨0x18, 0x0, 1, [⟨15, 0, .ro, 0⟩]⟩,
  ⟨0x1c, 0x0, 1, [⟨6, 0, .rw, 0x5f⟩]⟩,
  ⟨0x20, 0x8, 4, [⟨31, 16, .ro, 0⟩, ⟨15, 0, .ro, 0⟩]⟩,
  ⟨0x24, 0x8, 4, [⟨31, 0, .ro, 0⟩]⟩,
  ⟨0x40, 0x0, 1, [⟨31, 0, .rc, 0⟩]⟩,
  ⟨0x44, 0x0, 1, [⟨31, 0, .rc, 0⟩]⟩,
  ⟨0x48, 0x0, 1, [⟨31, 0, .rc, 0⟩]⟩,
  ⟨0x4c, 0x0, 1, [⟨31, 31, .rw, 0⟩, ⟨17, 16, .rw, 0⟩, ⟨15, 0, .rw, 0⟩]⟩,
  ⟨0x50, 0x0, 1, [⟨31, 31, .wo, 0⟩, ⟨28, 24, .wo, 0⟩, ⟨20, 16, .wo, 0⟩, ⟨15, 0, .wo, 0⟩]⟩,
  ⟨0x54, 0x0, 1, [⟨31, 31, .ro, 0⟩, ⟨4, 4, .ro, 0⟩, ⟨3, 0, .ro, 0⟩]⟩,
  ⟨0x58, 0x0, 1, [⟨31, 0, .rc, 0⟩]⟩,
  ⟨0x100, 0x20, 8, [⟨31, 31, .ro, 0⟩, ⟨30, 26, .ro, 0⟩, ⟨25, 24, .ro, 0⟩, ⟨3, 0, .ro, 0⟩]⟩,
  ⟨0x104, 0x20, 8, [⟨19, 3, .ro, 0⟩]⟩,
  ⟨0x108, 0x20, 8, [⟨31, 0, .ro, 0⟩]⟩,
  ⟨0x10c, 0x20, 8, [⟨31, 0, .ro, 0⟩]⟩,
  ⟨0x110, 0x20, 8, [⟨15, 0, .ro, 0⟩]⟩,
  ⟨0x114, 0x20, 8, [⟨16, 0, .ro, 0⟩]⟩,
  ⟨0x400, 0x10, 64, [⟨31, 31, .rw, 0⟩, ⟨28, 24, .rw, 0⟩, ⟨23, 16, .rw, 0⟩, ⟨15, 0, .rw, 0⟩]⟩,
  ⟨0x404, 0x10, 64, [⟨16, 0, .rw, 0⟩]⟩,
  ⟨0x408, 0x10, 64, [⟨19, 3, .rw, 0⟩]⟩,
  ⟨0x40c, 0x10, 64, [⟨23, 16, .rw, 0⟩, ⟨15, 0, .rw, 0⟩]⟩]

/-- Registers of the fw block. -/
def regs_fw : List RegRow := [
  ⟨0x0, 0x0, 1, [⟨0, 0, .rw, 0⟩]⟩,
  ⟨0x8, 0x0, 1, [⟨4, 4, .w1c, 0⟩, ⟨3, 3, .w1c, 0⟩, ⟨2, 2, .w1c, 0⟩, ⟨1, 1, .w1c, 0⟩, ⟨0, 0, .w1c, 0⟩]⟩,
  ⟨0xc, 0x0, 1, [⟨31, 31, .w1c, 0⟩, ⟨2, 0, .ro, 0⟩]⟩,
  ⟨0x1c, 0x0, 1, [⟨4, 0, .rw, 0x1f⟩]⟩,
  ⟨0x40, 0x10, 8, [⟨31, 28, .ro, 0⟩, ⟨15, 0, .ro, 0⟩]⟩,
  ⟨0x44, 0x10, 8, [⟨31, 0, .wo, 0⟩]⟩,
  ⟨0x48, 0x10, 8, [⟨31, 0, .ro, 0⟩]⟩,
  ⟨0x4c, 0x10, 8, [⟨0, 0, .wo, 0⟩]⟩,
  ⟨0xc0, 0x0, 1, [⟨31, 0, .wo, 0⟩]⟩,
  ⟨0xc4, 0x0, 1, [⟨31, 0, .ro, 0⟩]⟩,
  ⟨0x100, 0x0, 1, [⟨13, 0, .ro, 0⟩]⟩,
  ⟨0x104, 0x0, 1, [⟨31, 0, .rc, 0⟩]⟩,
  ⟨0x108, 0x0, 1, [⟨31, 0, .rc, 0⟩]⟩,
  ⟨0x10c, 0x0, 1, [⟨31, 0, .rc, 0⟩]⟩,
  ⟨0x110, 0x0, 1, [⟨31, 0, .rc, 0⟩]⟩,
  ⟨0x200, 0x4, 64, [⟨31, 0, .wo, 0⟩]⟩,
  ⟨0x300, 0x4, 2, [⟨31, 0, .w1c, 0⟩]⟩]

/-- Registers of the pwr block. -/
def regs_pwr : List RegRow := [
  ⟨0x0, 0x0, 1, [⟨0, 0, .rw, 0⟩]⟩,
  ⟨0x4, 0x0, 1, [⟨31, 28, .ro, 0⟩, ⟨27, 24, .ro, 0⟩, ⟨2, 2, .ro, 0⟩, ⟨1, 1, .ro, 0⟩, ⟨0, 0, .ro, 0⟩]⟩,
  ⟨0x8, 0x0, 1, [⟨6, 6, .w1c, 0⟩, ⟨5, 5, .w1c, 0⟩, ⟨4, 4, .w1c, 0⟩, ⟨3, 3, .w1c, 0⟩, ⟨2, 2, .w1c, 0⟩, ⟨1, 1, .w1c, 0⟩, ⟨0, 0, .w1c, 0⟩]⟩,
  ⟨0xc, 0x0, 1, [⟨31, 31, .w1c, 0⟩, ⟨2, 0, .ro, 0⟩]⟩,
  ⟨0x1c, 0x0, 1, [⟨6, 0, .rw, 0x7f⟩]⟩,
  ⟨0x20, 0x0, 1, [⟨9, 0, .rw, 0x230⟩]⟩,
  ⟨0x24, 0x0, 1, [⟨11, 0, .ro, 0⟩]⟩,
  ⟨0x28, 0x0, 1, [⟨27, 16, .ro, 0⟩, ⟨11, 0, .ro, 0⟩]⟩,
  ⟨0x2c, 0x0, 1, [⟨31, 0, .ro, 0⟩]⟩,
  ⟨0x30, 0x0, 1, [⟨18, 16, .ro, 0⟩, ⟨11, 8, .ro, 0⟩, ⟨7, 0, .ro, 0⟩]⟩,
  ⟨0x34, 0x0, 1, [⟨14, 12, .ro, 0⟩, ⟨8, 0, .ro, 0⟩]⟩,
  ⟨0x40, 0x4, 4, [⟨31, 0, .ro, 0⟩]⟩,
  ⟨0x60, 0x4, 4, [⟨31, 0, .ro, 0⟩]⟩,
  ⟨0x80, 0x0, 1, [⟨31, 0, .rc, 0⟩]⟩,
  ⟨0x90, 0x0, 1, [⟨31, 31, .wo, 0⟩, ⟨30, 30, .wo, 0⟩, ⟨6, 0, .wo, 0⟩]⟩,
  ⟨0x94, 0x0, 1, [⟨31, 31, .ro, 0⟩, ⟨3, 0, .ro, 0⟩]⟩,
  ⟨0x100, 0x4, 116, [⟨11, 0, .ro, 0⟩]⟩]

/-- Registers of the chk block. -/
def regs_chk : List RegRow := [
  ⟨0x0, 0x0, 1, [⟨0, 0, .rw, 0⟩]⟩,
  ⟨0x4, 0x0, 1, [⟨7, 4, .ro, 0⟩, ⟨3, 0, .ro, 0⟩]⟩,
  ⟨0x8, 0x0, 1, [⟨6, 6, .w1c, 0⟩, ⟨5, 5, .w1c, 0⟩, ⟨4, 4, .w1c, 0⟩, ⟨3, 3, .w1c, 0⟩, ⟨2, 2, .w1c, 0⟩, ⟨1, 1, .w1c, 0⟩, ⟨0, 0, .w1c, 0⟩]⟩,
  ⟨0xc, 0x0, 1, [⟨31, 31, .w1c, 0⟩, ⟨2, 0, .ro, 0⟩]⟩,
  ⟨0x10, 0x0, 1, [⟨5, 4, .ro, 0⟩, ⟨3, 0, .ro, 0⟩]⟩,
  ⟨0x1c, 0x0, 1, [⟨6, 0, .rw, 0x7d⟩]⟩,
  ⟨0x20, 0x4, 4, [⟨31, 31, .ro, 0⟩, ⟨1, 0, .ro, 0⟩]⟩,
  ⟨0x40, 0x10, 16, [⟨31, 31, .ro, 0⟩, ⟨30, 30, .ro, 0⟩, ⟨19, 16, .ro, 0⟩, ⟨12, 8, .ro, 0⟩, ⟨4, 0, .ro, 0⟩]⟩,
  ⟨0x44, 0x10, 16, [⟨31, 0, .ro, 0⟩]⟩,
  ⟨0x48, 0x10, 16, [⟨31, 0, .ro, 0⟩]⟩,
  ⟨0x4c, 0x10, 16, [⟨31, 0, .ro, 0⟩]⟩]

/-- Registers of the lks block. -/
def regs_lks : List RegRow := [
  ⟨0x0, 0x0, 1, [⟨4, 4, .ro, 0⟩, ⟨3, 3, .ro, 0⟩, ⟨2, 2, .w1c, 0⟩, ⟨1, 1, .ro, 0⟩, ⟨0, 0, .ro, 0⟩]⟩,
  ⟨0x4, 0x0, 1, [⟨31, 0, .ro, 0⟩]⟩,
  ⟨0x8, 0x0, 1, [⟨2, 0, .ro, 0⟩]⟩,
  ⟨0xc, 0x0, 1, [⟨31, 0, .ro, 0⟩]⟩,
  ⟨0x10, 0x0, 1, [⟨15, 0, .ro, 0⟩]⟩]

/-- Registers of the blt block. -/
def regs_blt : List RegRow := [
  ⟨0x0, 0x0, 1, [⟨31, 28, .ro, 0⟩]⟩,
  ⟨0x4, 0x0, 1, [⟨31, 28, .ro, 0⟩, ⟨27, 25, .ro, 0⟩, ⟨16, 10, .ro, 0⟩, ⟨9, 0, .ro, 0⟩]⟩,
  ⟨0x18, 0x8, 10, [⟨31, 0, .ro, 0⟩]⟩,
  ⟨0x1c, 0x8, 10, [⟨31, 0, .ro, 0⟩]⟩,
  ⟨0x200, 0x4, 116, [⟨31, 0, .ro, 0⟩]⟩]

/-- Registers of the flt block. -/
def regs_flt : List RegRow := [
  ⟨0x0, 0x0, 1, [⟨0, 0, .rw, 0⟩]⟩,
  ⟨0x4, 0x0, 1, [⟨3, 3, .ro, 0⟩, ⟨2, 2, .ro, 0⟩, ⟨1, 1, .ro, 1⟩, ⟨0, 0, .ro, 0⟩]⟩,
  ⟨0x8, 0x0, 1, [⟨1, 1, .rw, 1⟩, ⟨0, 0, .rw, 0⟩]⟩,
  ⟨0xc, 0x0, 1, [⟨1, 1, .rw, 1⟩, ⟨0, 0, .rw, 0⟩]⟩,
  ⟨0x10, 0x0, 1, [⟨1, 1, .wo, 0⟩, ⟨0, 0, .wo, 0⟩]⟩,
  ⟨0x14, 0x0, 1, [⟨31, 0, .rc, 0⟩]⟩,
  ⟨0x18, 0x0, 1, [⟨31, 0, .rc, 0⟩]⟩,
  ⟨0x20, 0x0, 1, [⟨31, 0, .ro, 0⟩]⟩,
  ⟨0x24, 0x0, 1, [⟨15, 0, .ro, 0⟩]⟩,
  ⟨0x28, 0x0, 1, [⟨31, 0, .ro, 0⟩]⟩,
  ⟨0x2c, 0x0, 1, [⟨31, 0, .ro, 0⟩]⟩,
  ⟨0x30, 0x0, 1, [⟨31, 0, .ro, 0⟩]⟩,
  ⟨0x34, 0x0, 1, [⟨31, 0, .rc, 0⟩]⟩]

/-- Registers of the sec block. -/
def regs_sec : List RegRow := [
  ⟨0x0, 0x0, 1, [⟨0, 0, .rw, 0⟩]⟩,
  ⟨0x4, 0x0, 1, [⟨24, 16, .ro, 0xff⟩, ⟨4, 0, .ro, 0⟩]⟩,
  ⟨0x8, 0x0, 1, [⟨3, 3, .w1c, 0⟩, ⟨2, 2, .w1c, 0⟩, ⟨1, 1, .w1c, 0⟩, ⟨0, 0, .w1c, 0⟩]⟩,
  ⟨0xc, 0x0, 1, [⟨31, 31, .w1c, 0⟩, ⟨1, 0, .ro, 0⟩]⟩,
  ⟨0x10, 0x0, 1, [⟨31, 0, .ro, 0⟩]⟩,
  ⟨0x14, 0x0, 1, [⟨15, 0, .ro, 0⟩]⟩,
  ⟨0x18, 0x0, 1, [⟨31, 31, .ro, 0⟩, ⟨30, 28, .ro, 0⟩, ⟨27, 18, .ro, 0⟩, ⟨17, 16, .ro, 0⟩, ⟨11, 0, .ro, 0⟩]⟩,
  ⟨0x1c, 0x0, 1, [⟨3, 0, .rw, 0xf⟩]⟩,
  ⟨0x20, 0x0, 1, [⟨31, 0, .rc, 0⟩]⟩,
  ⟨0x24, 0x0, 1, [⟨31, 0, .rc, 0⟩]⟩,
  ⟨0x28, 0x0, 1, [⟨15, 0, .ro, 0⟩]⟩,
  ⟨0x30, 0x4, 8, [⟨31, 0, .ro, 0⟩]⟩,
  ⟨0x50, 0x0, 1, [⟨31, 0, .rc, 0⟩]⟩,
  ⟨0x54, 0x0, 1, [⟨1, 0, .ro, 0⟩]⟩,
  ⟨0x100, 0x4, 256, [⟨31, 30, .ro, 0⟩, ⟨19, 12, .ro, 0⟩, ⟨11, 0, .ro, 0⟩]⟩]

/-- Registers of the cpu block. -/
def regs_cpu : List RegRow := [
  ⟨0x0, 0x0, 1, [⟨0, 0, .rw, 0⟩]⟩,
  ⟨0x4, 0x0, 1, [⟨3, 0, .ro, 0⟩]⟩,
  ⟨0x8, 0x0, 1, [⟨6, 6, .w1c, 0⟩, ⟨5, 5, .w1c, 0⟩, ⟨4, 4, .w1c, 0⟩, ⟨3, 3, .w1c, 0⟩, ⟨2, 2, .w1c, 0⟩, ⟨1, 1, .w1c, 0⟩, ⟨0, 0, .w1c, 0⟩]⟩,
  ⟨0xc, 0x0, 1, [⟨31, 31, .w1c, 0⟩, ⟨2, 0, .ro, 0⟩]⟩,
  ⟨0x10, 0x0, 1, [⟨31, 0, .ro, 0⟩]⟩,
  ⟨0x14, 0x0, 1, [⟨18, 16, .ro, 0⟩, ⟨15, 0, .ro, 0⟩]⟩,
  ⟨0x1c, 0x0, 1, [⟨6, 0, .rw, 0x7a⟩]⟩,
  ⟨0x20, 0x0, 1, [⟨31, 0, .rc, 0⟩]⟩,
  ⟨0x100, 0x20, 8, [⟨31, 28, .ro, 0⟩, ⟨8, 8, .ro, 0⟩, ⟨0, 0, .ro, 0⟩]⟩,
  ⟨0x104, 0x20, 8, [⟨31, 0, .rw, 0⟩]⟩,
  ⟨0x108, 0x20, 8, [⟨15, 0, .rw, 0⟩]⟩,
  ⟨0x10c, 0x20, 8, [⟨1, 1, .wo, 0⟩, ⟨0, 0, .wo, 0⟩]⟩,
  ⟨0x110, 0x20, 8, [⟨15, 0, .ro, 0⟩]⟩]

/-- Registers of the can block. -/
def regs_can : List RegRow := [
  ⟨0x0, 0x0, 1, [⟨4, 4, .rw, 0⟩, ⟨3, 2, .rw, 0⟩, ⟨1, 1, .rw, 1⟩, ⟨0, 0, .rw, 0⟩]⟩,
  ⟨0x4, 0x0, 1, [⟨31, 24, .ro, 0⟩, ⟨23, 16, .ro, 0⟩, ⟨1, 0, .ro, 0⟩]⟩,
  ⟨0x8, 0x0, 1, [⟨4, 4, .w1c, 0⟩, ⟨3, 3, .w1c, 0⟩, ⟨2, 2, .w1c, 0⟩, ⟨1, 1, .w1c, 0⟩, ⟨0, 0, .w1c, 0⟩]⟩,
  ⟨0xc, 0x0, 1, [⟨31, 31, .w1c, 0⟩, ⟨2, 0, .ro, 0⟩]⟩,
  ⟨0x1c, 0x0, 1, [⟨4, 0, .rw, 0x1e⟩]⟩,
  ⟨0x20, 0x0, 1, [⟨31, 24, .rw, 0⟩, ⟨23, 16, .rw, 0⟩, ⟨15, 9, .rw, 0⟩, ⟨8, 2, .rw, 0⟩]⟩,
  ⟨0x24, 0x0, 1, [⟨31, 2, .rw, 0⟩, ⟨1, 1, .rw, 0⟩]⟩,
  ⟨0x28, 0x0, 1, [⟨31, 2, .rw, 0⟩, ⟨1, 1, .rw, 0⟩]⟩,
  ⟨0x2c, 0x0, 1, [⟨23, 0, .rw, 0⟩]⟩,
  ⟨0x30, 0x0, 1, [⟨2, 0, .rw, 4⟩]⟩,
  ⟨0x40, 0x0, 1, [⟨31, 0, .rc, 0⟩]⟩,
  ⟨0x44, 0x0, 1, [⟨31, 0, .rc, 0⟩]⟩,
  ⟨0x48, 0x0, 1, [⟨31, 0, .rc, 0⟩]⟩,
  ⟨0x4c, 0x0, 1, [⟨31, 0, .rc, 0⟩]⟩,
  ⟨0x100, 0x10, 64, [⟨31, 31, .rw, 0⟩, ⟨30, 30, .rw, 0⟩, ⟨28, 0, .rw, 0⟩]⟩,
  ⟨0x104, 0x10, 64, [⟨28, 0, .rw, 0⟩]⟩,
  ⟨0x108, 0x10, 64, [⟨17, 17, .rw, 0⟩, ⟨16, 16, .rw, 0⟩, ⟨4, 0, .rw, 0⟩]⟩]

/-- Registers of the lin block. -/
def regs_lin : List RegRow := [
  ⟨0x0, 0x0, 1, [⟨3, 3, .rw, 0⟩, ⟨2, 1, .rw, 0⟩, ⟨0, 0, .rw, 0⟩]⟩,
  ⟨0x4, 0x0, 1, [⟨5, 0, .ro, 0⟩]⟩,
  ⟨0x8, 0x0, 1, [⟨2, 2, .w1c, 0⟩, ⟨1, 1, .w1c, 0⟩, ⟨0, 0, .w1c, 0⟩]⟩,
  ⟨0xc, 0x0, 1, [⟨31, 31, .w1c, 0⟩, ⟨1, 0, .ro, 0⟩]⟩,
  ⟨0x1c, 0x0, 1, [⟨2, 0, .rw, 7⟩]⟩,
  ⟨0x20, 0x0, 1, [⟨14, 0, .rw, 0x4b00⟩]⟩]

/-- Registers of the sw block. -/
def regs_sw : List RegRow := [
  ⟨0x0, 0x0, 1, [⟨0, 0, .rw, 0⟩]⟩,
  ⟨0x8, 0x0, 1, [⟨1, 1, .w1c, 0⟩, ⟨0, 0, .w1c, 0⟩]⟩,
  ⟨0xc, 0x0, 1, [⟨31, 31, .w1c, 0⟩, ⟨0, 0, .ro, 0⟩]⟩,
  ⟨0x1c, 0x0, 1, [⟨1, 0, .rw, 2⟩]⟩,
  ⟨0x20, 0x0, 1, [⟨31, 31, .wo, 0⟩, ⟨30, 30, .wo, 0⟩, ⟨29, 28, .wo, 0⟩, ⟨27, 23, .wo, 0⟩, ⟨22, 18, .wo, 0⟩, ⟨15, 0, .wo, 0⟩]⟩,
  ⟨0x24, 0x0, 1, [⟨31, 31, .ro, 0⟩, ⟨15, 0, .ro, 0⟩]⟩,
  ⟨0x10000, 0x1000, 14, [⟨31, 31, .rw, 0⟩, ⟨30, 28, .rw, 0⟩, ⟨27, 27, .rw, 0⟩, ⟨26, 26, .rw, 0⟩, ⟨25, 25, .rw, 0⟩, ⟨11, 0, .rw, 1⟩]⟩,
  ⟨0x10004, 0x1000, 14, [⟨1, 1, .ro, 0⟩, ⟨0, 0, .ro, 0⟩]⟩,
  ⟨0x10008, 0x1000, 14, [⟨23, 0, .rw, 0xfac688⟩]⟩,
  ⟨0x1000c, 0x1000, 14, [⟨7, 0, .rw, 0xff⟩]⟩,
  ⟨0x10010, 0x1000, 14, [⟨31, 0, .rc, 0⟩]⟩,
  ⟨0x10014, 0x1000, 14, [⟨31, 0, .rc, 0⟩]⟩,
  ⟨0x10018, 0x1000, 14, [⟨31, 0, .rc, 0⟩]⟩]

/-- Registers of the gw block. -/
def regs_gw : List RegRow := [
  ⟨0x0, 0x0, 1, [⟨0, 0, .rw, 0⟩]⟩,
  ⟨0x4, 0x0, 1, [⟨20, 0, .ro, 0⟩]⟩,
  ⟨0x8, 0x0, 1, [⟨3, 3, .w1c, 0⟩, ⟨2, 2, .w1c, 0⟩, ⟨1, 1, .w1c, 0⟩, ⟨0, 0, .w1c, 0⟩]⟩,
  ⟨0xc, 0x0, 1, [⟨31, 31, .w1c, 0⟩, ⟨1, 0, .ro, 0⟩]⟩,
  ⟨0x10, 0x0, 1, [⟨31, 30, .ro, 0⟩, ⟨20, 0, .ro, 0⟩]⟩,
  ⟨0x1c, 0x0, 1, [⟨3, 0, .rw, 0xe⟩]⟩,
  ⟨0x20, 0x0, 1, [⟨13, 0, .ro, 0⟩]⟩,
  ⟨0x100, 0x10, 32, [⟨31, 28, .ro, 0⟩, ⟨11, 0, .ro, 0⟩]⟩,
  ⟨0x104, 0x10, 32, [⟨31, 0, .wo, 0⟩]⟩,
  ⟨0x108, 0x10, 32, [⟨31, 0, .rc, 0⟩]⟩,
  ⟨0x10c, 0x10, 32, [⟨0, 0, .w1c, 0⟩]⟩]

/-- Registers of the pci block. -/
def regs_pci : List RegRow := [
  ⟨0x0, 0x0, 1, [⟨1, 1, .rw, 1⟩, ⟨0, 0, .rw, 0⟩]⟩,
  ⟨0x4, 0x0, 1, [⟨31, 28, .ro, 0⟩, ⟨27, 24, .ro, 0⟩, ⟨23, 20, .ro, 0⟩]⟩,
  ⟨0x8, 0x0, 1, [⟨3, 3, .w1c, 0⟩, ⟨2, 2, .w1c, 0⟩, ⟨1, 1, .w1c, 0⟩, ⟨0, 0, .w1c, 0⟩]⟩,
  ⟨0xc, 0x0, 1, [⟨31, 31, .w1c, 0⟩, ⟨1, 0, .ro, 0⟩]⟩,
  ⟨0x10, 0x0, 1, [⟨31, 0, .ro, 0⟩]⟩,
  ⟨0x14, 0x0, 1, [⟨15, 0, .ro, 0⟩]⟩,
  ⟨0x1c, 0x0, 1, [⟨3, 0, .rw, 0xe⟩]⟩,
  ⟨0x20, 0x0, 1, [⟨31, 0, .rc, 0⟩]⟩,
  ⟨0x100, 0x10, 8, [⟨31, 12, .rw, 0⟩]⟩,
  ⟨0x104, 0x10, 8, [⟨15, 0, .rw, 0⟩]⟩,
  ⟨0x108, 0x10, 8, [⟨31, 0, .rw, 0⟩]⟩,
  ⟨0x10c, 0x10, 8, [⟨31, 31, .rw, 0⟩, ⟨30, 30, .rw, 0⟩, ⟨29, 29, .rw, 0⟩, ⟨28, 26, .rw, 0⟩, ⟨11, 0, .rw, 0⟩]⟩]

/-- Registers of the cam block. -/
def regs_cam : List RegRow := [
  ⟨0x0, 0x0, 1, [⟨0, 0, .rw, 0⟩]⟩,
  ⟨0x4, 0x0, 1, [⟨7, 7, .rw, 0⟩, ⟨6, 3, .rw, 0⟩, ⟨2, 0, .rw, 4⟩]⟩,
  ⟨0x8, 0x0, 1, [⟨4, 4, .w1c, 0⟩, ⟨3, 3, .w1c, 0⟩, ⟨2, 2, .w1c, 0⟩, ⟨1, 1, .w1c, 0⟩, ⟨0, 0, .w1c, 0⟩]⟩,
  ⟨0xc, 0x0, 1, [⟨31, 31, .w1c, 0⟩, ⟨2, 0, .ro, 0⟩]⟩,
  ⟨0x10, 0x0, 1, [⟨1, 0, .ro, 0⟩]⟩,
  ⟨0x1c, 0x0, 1, [⟨4, 0, .rw, 0x1e⟩]⟩,
  ⟨0x20, 0x0, 1, [⟨0, 0, .ro, 0⟩]⟩,
  ⟨0x100, 0x10, 4, [⟨31, 28, .ro, 0⟩, ⟨3, 0, .ro, 0⟩]⟩,
  ⟨0x104, 0x10, 4, [⟨31, 0, .ro, 0⟩]⟩,
  ⟨0x108, 0x10, 4, [⟨31, 0, .rc, 0⟩]⟩,
  ⟨0x10c, 0x10, 4, [⟨31, 0, .rc, 0⟩]⟩]

/-- Registers of the gfx block. -/
def regs_gfx : List RegRow := [
  ⟨0x0, 0x0, 1, [⟨0, 0, .rw, 0⟩]⟩,
  ⟨0x4, 0x0, 1, [⟨4, 0, .ro, 0⟩]⟩,
  ⟨0x8, 0x0, 1, [⟨4, 4, .w1c, 0⟩, ⟨3, 3, .w1c, 0⟩, ⟨2, 2, .w1c, 0⟩, ⟨1, 1, .w1c, 0⟩, ⟨0, 0, .w1c, 0⟩]⟩,
  ⟨0xc, 0x0, 1, [⟨31, 31, .w1c, 0⟩, ⟨2, 0, .ro, 0⟩]⟩,
  ⟨0x10, 0x0, 1, [⟨3, 0, .ro, 0⟩]⟩,
  ⟨0x1c, 0x0, 1, [⟨4, 0, .rw, 0x1c⟩]⟩,
  ⟨0x20, 0x0, 1, [⟨31, 0, .rc, 0⟩]⟩,
  ⟨0x24, 0x0, 1, [⟨31, 0, .rc, 0⟩]⟩,
  ⟨0x28, 0x0, 1, [⟨31, 0, .rc, 0⟩]⟩,
  ⟨0x100, 0x10, 16, [⟨31, 28, .ro, 0⟩, ⟨11, 0, .ro, 0⟩]⟩,
  ⟨0x104, 0x10, 16, [⟨31, 0, .wo, 0⟩]⟩,
  ⟨0x108, 0x10, 16, [⟨31, 0, .ro, 0⟩]⟩,
  ⟨0x10c, 0x10, 16, [⟨0, 0, .w1c, 0⟩]⟩]

/-- Registers of the dsp block. -/
def regs_dsp : List RegRow := [
  ⟨0x0, 0x0, 1, [⟨0, 0, .rw, 0⟩]⟩,
  ⟨0x4, 0x0, 1, [⟨31, 31, .rw, 0⟩, ⟨30, 29, .rw, 0⟩, ⟨28, 26, .rw, 0⟩, ⟨25, 23, .rw, 0⟩, ⟨22, 21, .rw, 0⟩, ⟨20, 20, .rw, 0⟩, ⟨19, 0, .rw, 0⟩]⟩,
  ⟨0x8, 0x0, 1, [⟨2, 2, .w1c, 0⟩, ⟨1, 1, .w1c, 0⟩, ⟨0, 0, .w1c, 0⟩]⟩,
  ⟨0xc, 0x0, 1, [⟨31, 31, .w1c, 0⟩, ⟨1, 0, .ro, 0⟩]⟩,
  ⟨0x1c, 0x0, 1, [⟨2, 0, .rw, 7⟩]⟩,
  ⟨0x20, 0x0, 1, [⟨31, 16, .rw, 0⟩, ⟨15, 0, .rw, 0⟩]⟩,
  ⟨0x24, 0x0, 1, [⟨31, 16, .rw, 0⟩, ⟨15, 0, .rw, 0⟩]⟩,
  ⟨0x28, 0x0, 1, [⟨7, 0, .rw, 8⟩]⟩,
  ⟨0x30, 0x0, 1, [⟨31, 16, .ro, 0⟩, ⟨1, 0, .ro, 0⟩]⟩,
  ⟨0x34, 0x0, 1, [⟨31, 0, .rc, 0⟩]⟩,
  ⟨0x38, 0x0, 1, [⟨31, 0, .rc, 0⟩]⟩]

/-- Registers of the wde block. -/
def regs_wde : List RegRow := [
  ⟨0x0, 0x0, 1, [⟨0, 0, .rw, 0⟩]⟩,
  ⟨0x4, 0x0, 1, [⟨13, 0, .ro, 0⟩]⟩,
  ⟨0x8, 0x0, 1, [⟨8, 8, .w1c, 0⟩, ⟨7, 7, .w1c, 0⟩, ⟨6, 6, .w1c, 0⟩, ⟨5, 5, .w1c, 0⟩, ⟨4, 4, .w1c, 0⟩, ⟨3, 3, .w1c, 0⟩, ⟨2, 2, .w1c, 0⟩, ⟨1, 1, .w1c, 0⟩, ⟨0, 0, .w1c, 0⟩]⟩,
  ⟨0xc, 0x0, 1, [⟨31, 31, .w1c, 0⟩, ⟨3, 0, .ro, 0⟩]⟩,
  ⟨0x10, 0x0, 1, [⟨10, 8, .ro, 0⟩, ⟨5, 0, .ro, 0⟩]⟩,
  ⟨0x1c, 0x0, 1, [⟨8, 0, .rw, 0x1fe⟩]⟩,
  ⟨0x20, 0x0, 1, [⟨28, 24, .ro, 0⟩, ⟨20, 16, .ro, 0⟩, ⟨11, 8, .ro, 0⟩, ⟨1, 0, .ro, 0⟩]⟩,
  ⟨0x24, 0x0, 1, [⟨31, 0, .ro, 0⟩]⟩,
  ⟨0x28, 0x0, 1, [⟨31, 0, .ro, 0xffffffff⟩]⟩,
  ⟨0x30, 0x0, 1, [⟨31, 0, .rw, 0⟩]⟩,
  ⟨0x34, 0x0, 1, [⟨31, 31, .ro, 0⟩, ⟨30, 30, .ro, 0⟩, ⟨29, 16, .ro, 0⟩, ⟨14, 12, .ro, 0⟩, ⟨3, 0, .ro, 0⟩]⟩,
  ⟨0x38, 0x0, 1, [⟨31, 0, .ro, 0⟩]⟩,
  ⟨0x100, 0x10, 16, [⟨31, 28, .ro, 0⟩, ⟨11, 0, .ro, 0⟩]⟩,
  ⟨0x104, 0x10, 16, [⟨31, 0, .wo, 0⟩]⟩,
  ⟨0x10c, 0x10, 16, [⟨0, 0, .w1c, 0⟩]⟩,
  ⟨0x400, 0x10, 64, [⟨31, 28, .ro, 0⟩, ⟨11, 0, .ro, 0⟩]⟩,
  ⟨0x404, 0x10, 64, [⟨31, 0, .rc, 0⟩]⟩,
  ⟨0x408, 0x10, 64, [⟨31, 0, .rc, 0⟩]⟩,
  ⟨0x40c, 0x10, 64, [⟨0, 0, .w1c, 0⟩]⟩]

/-- Registers of the wdp block. -/
def regs_wdp : List RegRow := [
  ⟨0x0, 0x0, 1, [⟨31, 28, .ro, 0⟩, ⟨8, 8, .ro, 0⟩]⟩,
  ⟨0x4, 0x0, 1, [⟨31, 0, .ro, 0⟩]⟩,
  ⟨0x8, 0x0, 1, [⟨31, 0, .rc, 0⟩]⟩,
  ⟨0xc, 0x0, 1, [⟨31, 0, .rc, 0⟩]⟩,
  ⟨0x10, 0x0, 1, [⟨31, 0, .rc, 0⟩]⟩,
  ⟨0x14, 0x0, 1, [⟨31, 0, .ro, 0⟩]⟩,
  ⟨0x18, 0x0, 1, [⟨31, 0, .ro, 0⟩]⟩,
  ⟨0x1c, 0x0, 1, [⟨31, 0, .rc, 0⟩]⟩,
  ⟨0x20, 0x0, 1, [⟨31, 0, .rc, 0⟩]⟩]

/-- Registers of the isp block (R588). -/
def regs_isp : List RegRow := [
  ⟨0x0, 0x0, 1, [⟨0, 0, .rw, 0⟩]⟩,
  ⟨0x8, 0x0, 1, [⟨1, 1, .w1c, 0⟩, ⟨0, 0, .w1c, 0⟩]⟩,
  ⟨0xc, 0x0, 1, [⟨31, 31, .w1c, 0⟩, ⟨0, 0, .ro, 0⟩]⟩,
  ⟨0x1c, 0x0, 1, [⟨1, 0, .rw, 2⟩]⟩]

/-- Registers of the cdc block (R588). -/
def regs_cdc : List RegRow := [
  ⟨0x0, 0x0, 1, [⟨0, 0, .rw, 0⟩]⟩,
  ⟨0x8, 0x0, 1, [⟨2, 2, .w1c, 0⟩, ⟨1, 1, .w1c, 0⟩, ⟨0, 0, .w1c, 0⟩]⟩,
  ⟨0xc, 0x0, 1, [⟨31, 31, .w1c, 0⟩, ⟨1, 0, .ro, 0⟩]⟩,
  ⟨0x1c, 0x0, 1, [⟨2, 0, .rw, 6⟩]⟩]

/-- The register table of a block. -/
def regTable : Blk → List RegRow
  | .die => regs_die
  | .tc => regs_tc
  | .pcmp => regs_pcmp
  | .mc => regs_mc
  | .dp => regs_dp
  | .fab => regs_fab
  | .tu => regs_tu
  | .whl => regs_whl
  | .cad => regs_cad
  | .fw => regs_fw
  | .pwr => regs_pwr
  | .chk => regs_chk
  | .lks => regs_lks
  | .blt => regs_blt
  | .flt => regs_flt
  | .sec => regs_sec
  | .cpu => regs_cpu
  | .can => regs_can
  | .lin => regs_lin
  | .sw => regs_sw
  | .gw => regs_gw
  | .pci => regs_pci
  | .cam => regs_cam
  | .gfx => regs_gfx
  | .dsp => regs_dsp
  | .isp => regs_isp
  | .cdc => regs_cdc
  | .wde => regs_wde
  | .wdp => regs_wdp

end Sys2Proof.Machine
end

