-- ==== Sys2Proof/Machine/ChkState.lean ====
section
/-! DEFINITION. The state of the checker engine and the comparator (12_functional_safety.md). -/

namespace Sys2Proof.Machine

/-- A loaded monitor (R400 to R404): its slice, wheel and times, the resource records it holds, the digests of its formula
and certificate, the frame its argument block was read for, the frame it runs, and its last final frame. -/
structure Monitor where
  slice : Fin 4
  wheel : Fin 4
  launch : Nat
  deadline : Nat
  shares : List ResRec
  formula : List Byte
  cert : List Byte
  running : Option Word
  /-- Last final frame: its frame number, whether it is DONE, and whether R404 applied to it. -/
  final : Option (Word × Bool × Bool)
  deriving DecidableEq, Repr

/-- The result of a comparison that FP3 has still to write (R411, R412). -/
structure Verdict where
  frame : Word
  verdict : Nat
  reason : Nat
  up : Nat
  um : Nat
  cm : Nat
  bv : Nat
  matched : Nat
  lt : Word
  primary : Nat
  /-- ACCORDOK and DEBUG at the end of the comparison (R412, R414). -/
  accord : Bool
  debug : Bool
  deriving DecidableEq, Repr

/-- A pairing (R405, R406): base, slots and stride of each list, its first frame, the last frame compared, and verdicts still
to be written. An inactive pairing goes once they are. `by_` is the pair whose SAFE_UNPAIR waits. -/
structure Pairing where
  active : Bool
  lasting : Bool
  part : Fin 32
  kind : Fin 32
  mon : Fin 16
  cphase : BitVec 17
  plist : Nat × Nat × Nat
  mlist : Nat × Nat × Nat
  prog : Nat
  vtab : Nat
  marg : Nat
  firstFrame : Word
  compared : Option Word
  pend : List Verdict
  by_ : Option (Fin 64)
  deriving DecidableEq, Repr

structure ChkState where
  mons : AMap (Fin 16) Monitor
  pairs : AMap (Fin 16) Pairing
  /-- Whether the most recent checked ACCORD of a core matched, and its LT at the start of that ACCORD (R414, R415). -/
  accord : AMap CoreId (Bool × Nat)
  /-- LT at which the last ACCORD of a core began, and cores with an ACCSLIP since then (R414). -/
  begun : AMap CoreId Nat
  slips : List CoreId
  /-- ACCORDs that ended and are not yet checked: core and reference input (R414). -/
  due : AMap CoreId Nat
  /-- LT of the last self-test (R424). -/
  selfTest : Nat
  deriving DecidableEq, Repr

def ChkState.reset : ChkState := ⟨[], [], [], [], [], [], 0⟩

end Sys2Proof.Machine
end

