-- ==== Sys2Proof/Machine/CpuState.lean ====
section
/-! DEFINITION. The state of the application CPU pairs that other agents can see (15_vehicle_cpus.md). -/

namespace Sys2Proof.Machine

/-- State of a pair as CPU_PAIRSTATp codes it (R499): 0 off, 1 stopped, 2 running, 3 stopping, 4 halted. -/
inductive PairSt where
  | off | stopped | running | stopping | halted
  deriving DecidableEq, Repr

/-- A CPU pair (R498 to R501): its state, which CPUs have parked, LT of the last release and of the last watchdog kick, whether
its main is in debug mode, whether a trusted image is being reloaded. -/
structure CpuPair where
  st : PairSt
  parked : BitVec 2
  releasedLt : Nat
  lastKick : Nat
  debug : Bool
  reloading : Bool
  deriving DecidableEq, Repr

def CpuPair.off : CpuPair := ⟨.off, 0, 0, 0, false, false⟩

/-- A hart (R497, R508, R509): HXATTR, HXWAY, its start address, the failures that PWB has still to return, the value of the last
PWB read, the last I/O load, and the address of the last access fault. -/
structure Hart where
  attr : BitVec 8
  way : BitVec 16
  start : Nat
  fails : Word
  pwb : Word
  loaded : Option (Nat × List Byte)
  fault : Option Nat
  deriving DecidableEq, Repr

def Hart.reset (ways : BitVec 16) (start : Nat) : Hart := ⟨0x22, ways, start, 0, 0, none, none⟩

/-- A cache of the complex (R502): shared, or a CPU's L1 instruction, L1 data or L2 cache. -/
inductive CacheAt where
  | shared
  | l1i (cpu : Fin 16)
  | l1d (cpu : Fin 16)
  | l2 (cpu : Fin 16)
  deriving DecidableEq, Repr

/-- A line of 64 bytes in a cache (R502 to R507): its address, way and world, a latent error of its array, and for a dirty line what the
level below it holds. Memory of the model holds the newest bytes. -/
structure CLine where
  cache : CacheAt
  addr : Nat
  way : Fin 16
  world : Bool
  dirty : Option (List Byte)
  err : Option EccErr
  deriving DecidableEq, Repr

/-- An APLIC source in a domain as software has set it up, and its wire (R510): enabled, the IMSIC page and identity it is delivered to,
the level last seen, and an interrupt not yet delivered. -/
structure AplicSrc where
  enable : Bool
  page : Nat
  eiid : Fin 256
  seen : Bool
  pend : Bool
  deriving DecidableEq, Repr

structure CpuState where
  pairs : AMap (Fin 8) CpuPair
  harts : AMap (Fin 16) Hart
  /-- Pending identities of the IMSIC pages that MSIs have reached: world and page (R495, R541). -/
  imsic : AMap (Bool × Nat) (BitVec 256)
  /-- Boundary-scan cells as the JTAG port last loaded them (R618). -/
  scan : List Bool
  /-- Lines of all caches. -/
  lines : List CLine
  /-- Sources set up in an APLIC domain: trusted or not, source number. -/
  aplic : AMap (Bool × Fin 1024) AplicSrc
  deriving DecidableEq, Repr

def CpuState.reset : CpuState := ⟨[], [], [], [], [], []⟩

end Sys2Proof.Machine
end

