-- ==== Sys2Proof/Machine/SafetyState.lean ====
section
/-! DEFINITION. The state of fault collection, pins, windowed counters and leases (13_faults.md). -/

namespace Sys2Proof.Machine

/-- A condition that device firmware detects (R438), not yet recorded: condition, block, unit, address, context. -/
structure FwCond where
  cond : Nat
  blk : Blk
  inst : Nat
  addr : Nat
  ctx : BitVec 12
  deriving DecidableEq, Repr

/-- What an F fault or a lasting U source acts on (R449). -/
inductive Scope where
  /-- Partitions; a pairing's is its partition. -/
  | parts (l : List (Fin 32))
  | core (c : CoreId)
  | wheel (w : Fin 4)
  | dies (l : List (Fin 8))
  | domain (d : Nat)
  | cpuPair (p : Fin 8)
  | package
  | report
  deriving DecidableEq, Repr

/-- A recorded event on its way to FP3 (R444): source, class (0 C, 1 U, 2 F), stamp and scope. -/
structure Ev where
  source : Word
  cls : Nat
  stamp : Nat
  scope : Scope
  deriving DecidableEq, Repr

/-- A rule of FLT_WINDOW (R445); the window in ms. -/
structure WinRule where
  id : Word
  mask : Word
  thresh : Nat
  window : Nat
  deriving DecidableEq, Repr

structure FaultState where
  /-- LT at which the pulse of SAFE_ERR_N or SAFE_WARN_N in progress began (R441). -/
  errPulse : Option (BitVec 64)
  warnPulse : Option (BitVec 64)
  /-- Ignored writes signalled on the sidebands and not yet serviced by FP7 (R438, R441). -/
  ignWr : List (Blk × Nat)
  /-- Lease expiries and accord mismatches still to be recorded (R438). -/
  conds : List FwCond
  /-- Occurrences merged into a set ERRSTAT bit, by block, unit and bit (R436). -/
  merged : AMap (Blk × Nat × Nat) Nat
  /-- What a set ERRSTAT bit's event names: wheel, input, partition or pairing; the initiator of a FAB_ event (R437, R450). -/
  subs : AMap (Blk × Nat × Nat) Nat
  /-- Set bits whose record is written while expert control keeps them set (R433). -/
  recorded : List (Blk × Nat × Nat)
  /-- Pulses that a processor makes when it runs again: processor (8: management core), true for SAFE_ERR_N (R441). -/
  owed : List (Fin 9 × Bool)
  /-- Events recorded and not yet counted by FP3. -/
  events : List Ev
  /-- Stamps held for a source, newest first (R444). -/
  hist : AMap Word (List Nat)
  /-- Lasting sources, each with the partitions whose unload ends that state (R448). -/
  lasting : List (Word × List (Fin 32))
  /-- Lasting class C sources, and sources that had an event while lasting (R447). -/
  degraded : List Word
  rules : AMap (Fin 64) WinRule
  quarantined : List CoreId
  badDies : List (Fin 8)
  badDomains : List Nat
  /-- Declared lock words (R453): address and partition. -/
  lockWords : List (Nat × Fin 32)
  /-- Leases on lock words: address, holder, LT of acquisition. -/
  locks : List (Nat × CoreId × Nat)
  /-- LT of the acquisition and of the last renewal of a channel's lease (R452). -/
  chanLease : AMap (CoreId × Fin 8) (Nat × Nat)
  /-- Partitions in the drain of a reset (R458): pair that asked, LT of the start of the drain. -/
  drains : AMap (Fin 32) (Fin 64 × Nat)
  deriving DecidableEq, Repr

def FaultState.reset : FaultState :=
  { errPulse := none, warnPulse := none, ignWr := [], conds := [], merged := [], subs := [], recorded := [], owed := [], events := [], hist := [], lasting := [],
    degraded := [], rules := [], quarantined := [], badDies := [], badDomains := [], lockWords := [], locks := [],
    chanLease := [], drains := [] }

end Sys2Proof.Machine
end

