-- ==== Sys2Proof/Machine/SecState.lean ====
section
/-! DEFINITION. The state of contexts, regions, owners, key slots, slices and management sessions
(14_security_sharing.md). -/

namespace Sys2Proof.Machine

/-- A context (R465, R472, R482, R483): its world, slice and key slot (0: none of its own), whether it is closing, whether
the CPU-to-fabric bridge blocks it (R508), and its refusals since its generation advanced. -/
structure Ctx where
  world : Bool
  slice : Fin 64
  slot : Fin 256
  closing : Bool
  blocked : Bool
  discards : Nat
  deriving DecidableEq, Repr

/-- A DRAM region (R468): base and size in 2 MiB units of a die's mapped DRAM. -/
structure Region where
  die : Fin 8
  base : Nat
  size : Nat
  ctx : BitVec 12
  world : Bool
  deriving DecidableEq, Repr

/-- A key slot (R472, R493): 0 free, 1 memory, 2 ring, 3 device. -/
structure Slot where
  typ : Nat
  ctx : BitVec 12
  deriving DecidableEq, Repr

/-- A weight package decrypted into place (R476): destination, its FORMULA digest, the package digest, the group. -/
structure WPkg where
  ctx : BitVec 12
  dest : Nat
  formula : List Byte
  digest : List Byte
  group : Word
  deriving DecidableEq, Repr

/-- A slice descriptor's contents (R480). -/
structure Slice where
  world : Bool
  slots : Nat
  parts : Nat
  ctxs : Nat
  mcShare : Nat
  dpShare : Nat
  clusters : AMap (Fin 6) (BitVec 12)
  dram : AMap (Fin 8) Nat
  deriving DecidableEq, Repr

/-- A management session (R489, R490): session number, credential, the two nonces and the secret S, whether AUTH was accepted, LT of the
last valid request, and the last 64 executed sequences with the datagrams that answered them, newest first (R356). -/
structure Mgmt where
  id : Word
  cred : Fin 8
  ns : List Byte
  nd : List Byte
  secret : List Byte
  established : Bool
  lastValid : Nat
  done : List (BitVec 64 × List Byte)
  deriving DecidableEq, Repr

/-- A datagram that leaves by the management port: where to, and its bytes. -/
structure MgmtOut where
  v6 : Bool
  addr : BitVec 128
  udp : BitVec 16
  bytes : List Byte
  deriving DecidableEq, Repr

/-- A context removal under way (R483): the control pair and command that asked, LT of the end of the fence, and whether
the generation has advanced. -/
structure Removal where
  ctx : BitVec 12
  pair : Fin 64
  cmdid : BitVec 16
  since : Nat
  advanced : Bool
  deriving DecidableEq, Repr

structure SecState where
  ctxs : AMap (BitVec 12) Ctx
  /-- Current generation of every context; an unlisted one is at 1 (R472). -/
  gens : AMap (BitVec 12) (BitVec 8)
  regions : List Region
  /-- Owner context of a cluster; 0 for none (R469). -/
  owner : AMap ClusterId (BitVec 12)
  slots : AMap (Fin 256) Slot
  /-- Memory keys of the slots: AES-256-XTS key pairs, 64 bytes (R471, R472). No command reads one. -/
  memKey : AMap (Fin 256) (List Byte)
  /-- Installed group keys: group ID and GK (R471, R475). -/
  groups : AMap Word (List Byte)
  wpkgs : List WPkg
  /-- Logged contexts with the granules written: die and granule number (R485). -/
  dirty : AMap (BitVec 12) (List (Fin 8 × Nat))
  slices : AMap (Fin 64) Slice
  mgmt : List Mgmt
  revoked : BitVec 8
  /-- LT of the failed authentications still in their 60 s window, and the end of the lock-out (R491). -/
  authFails : List Nat
  lockUntil : Option Nat
  /-- The package-scope report built for a nonce (R490). -/
  report : Option (List Byte × List Byte)
  /-- The last datagram that the management port sent. -/
  mgmtOut : Option MgmtOut
  removals : List Removal
  deriving DecidableEq, Repr

def SecState.reset : SecState :=
  { ctxs := [], gens := [], regions := [], owner := [], slots := [(0, ⟨3, 0⟩)], memKey := [], groups := [], wpkgs := [], dirty := [],
    slices := [], mgmt := [], revoked := 0, authFails := [], lockUntil := none, report := none, mgmtOut := none,
    removals := [] }

end Sys2Proof.Machine
end

