-- ==== Sys2Proof/Machine/TimeState.lean ====
section
/-! DEFINITION. The state of the time unit (07_vehicle_time.md). Configuration registers are in the register file. -/

namespace Sys2Proof.Machine

/-- A write that changes a domain time in the cycle after it (R235). -/
inductive TimeAct where
  | step (ns : Int)
  | load (t : BitVec 64)
  deriving DecidableEq, Repr

/-- A domain time (R233 to R235): nanoseconds, the hidden fraction in 2^-40 ns, and the slew that remains in 2^-9 ns. -/
structure Domain where
  time : BitVec 64
  frac : BitVec 40
  slew : Int
  /-- No Sync within the receipt timeout (R237). -/
  holdover : Bool
  /-- Steps and loads that the next cycle makes, oldest first. -/
  acts : List TimeAct
  deriving DecidableEq, Repr

def Domain.reset : Domain := ⟨0, 0, 0, false, []⟩

/-- A trigger (R241 to R244): the number of the next edge, edges produced, whether edges remain, LATE, whether its pin has
ever been enabled and with which polarity, the edge whose pulse is in progress, the first edge whose pulse has not begun,
and whether its interrupt has been raised. -/
structure Trig where
  next : Nat
  produced : BitVec 16
  active : Bool
  late : Bool
  pinUsed : Bool
  pinPol : Bool
  pulse : Option Nat
  pulsed : Nat
  irq : Bool
  deriving DecidableEq, Repr

def Trig.reset : Trig := ⟨0, 0, false, false, false, false, none, 0, false⟩

/-- A capture input (R245 to R247): queued stamps with their polarity, oldest first, LT of the last stamped edge, and the edges of this
cycle: stamp, LT and polarity. -/
structure Cap where
  fifo : List (Word × Bool)
  last : Option Nat
  ovf : Bool
  edges : List (Word × Nat × Bool)
  deriving DecidableEq, Repr

structure TimeState where
  lt : BitVec 64
  /-- The time clock has failed: every base holds (R249). -/
  frozen : Bool
  dom : AMap (Fin 4) Domain
  trig : AMap (Fin 32) Trig
  cap : AMap (Fin 32) Cap
  /-- gPTP frames delivered to device firmware: ingress port and stamp, newest last (R237). -/
  gptpRx : List (Fin 14 × Word)
  /-- Messages sent with a stamp request: port, egress stamp, residence in the correction field (R236). -/
  gptpTx : List (Fin 14 × Word × Nat)
  /-- LT of the last Sync of each instance (R237). -/
  lastSync : AMap (Fin 4) Nat
  deriving DecidableEq, Repr

def TimeState.reset : TimeState := ⟨0, false, [], [], [], [], [], []⟩

end Sys2Proof.Machine
end

