-- ==== Sys2Proof/Machine/State.lean ====
section
/-! DEFINITION. The state of the package as plain data, and the state right after reset. -/

namespace Sys2Proof.Machine

/-- Reasons for which a command stops the machine. There are none: the spec gives every command an effect, and every
fault of the spec is an effect on the state (an error register, a fault record, a job outcome). -/
inductive Fault where
  deriving DecidableEq, Repr

/-- Reasons for which a command has no meaning in the model. -/
inductive Refusal where
  /-- Raised by the dispatcher only, for a command that the model gives no meaning yet. Safe: the run stops. -/
  | notModelled (mnemonic : String)
  deriving DecidableEq, Repr

/-- The board configuration of the manifest (R236, R238, R350, R374): the latencies of each external port's PHY in ns, received and sent;
clockClass, priority1 and priority2 of each gPTP instance; UDP port, VLAN and addresses (IPv4, IPv6) of remote access;
UDP port and addresses of the management network (R489). -/
structure Board where
  phy : AMap (Fin 10) (Nat × Nat)
  gptp : AMap (Fin 4) (BitVec 8 × BitVec 8 × BitVec 8)
  rapPort : BitVec 16
  rapVlan : BitVec 12
  rapV4 : BitVec 32
  rapV6 : BitVec 128
  mgmtPort : BitVec 16
  mgmtV4 : BitVec 32
  mgmtV6 : BitVec 128
  deriving DecidableEq, Repr

/-- What final test and the board fix: fuse values, the boot manifest and the areas that firmware lays out (R16, R41 to R47,
R329, R364, R374, R382, R390, R439, R468, R471, R504, R511). Log entry 15. -/
structure Fixed where
  /-- Enabled cores of each Tolid die (DIE_COREENi). -/
  coreEn : AMap (Fin 6) (BitVec 96)
  /-- GiB in each LPDDR6 channel: 2 or 4 (R34); channels (die * 8 + m) that are fitted otherwise (R379). -/
  dramGiB : Nat
  oddGiB : AMap (Fin 64) Nat
  /-- The core enable masks of the expected descriptor (R379). -/
  expCore : AMap (Fin 6) (BitVec 96)
  /-- Domains the trusted world owns (R390). -/
  ownTrusted : BitVec 116
  /-- Optional domains to start without coolant, in order, and domains to leave off at READY (R374, R382). -/
  optional : List Nat
  leaveOff : BitVec 116
  /-- Application CPU pairs to release, and their entry addresses (R374). -/
  cpuEntry : AMap (Fin 8) Nat
  cpuTrusted : BitVec 8
  /-- Pairs in lock mode, trusted ways of the shared cache, watchdog periods of trusted pairs in ms (R498, R501, R504). -/
  cpuLock : BitVec 8
  trustedWays : Nat
  cpuWd : AMap (Fin 8) Nat
  /-- Image of a trusted pair: where it stands in a carve-out, and its SHA-256 digest (R501). -/
  cpuImage : AMap (Fin 8) (Nat × List Byte)
  /-- Firmware release, device identifier (R329, R471). -/
  fwVer : Word
  devid : List Byte
  /-- Sillage ring, fault log, accounting records, rings of pairs 0 and 1, in the first 512 MiB of Vehicle DRAM. -/
  logBase : Nat
  logSize : Nat
  fltBase : Nat
  acctBase : Nat
  ctlBase : Nat
  /-- Trusted carve-outs in Vehicle-die DRAM: base and size in 2 MiB units (R468). -/
  carve : List (Nat × Nat)
  /-- Digests of the boot manifest and of the nine firmware images (R478). -/
  manifest : List Byte
  fwDig : List Byte
  /-- Role bits of the management credentials (R490). -/
  roles : AMap (Fin 8) (Bool × Bool)
  board : Board
  deriving DecidableEq, Repr

/-- The part of the model at reset: every core enabled, 2 GiB channels. DESIGN CHOICE, log entry 15. -/
def Fixed.part : Fixed :=
  { coreEn := [], dramGiB := 2, oddGiB := [], expCore := [], ownTrusted := 0, optional := [], leaveOff := 0, cpuEntry := [], cpuTrusted := 0, cpuLock := 0, trustedWays := 0, cpuWd := [], cpuImage := [], fwVer := 0,
    devid := [], logBase := 0xC00000100000, logSize := 4096, fltBase := 0xC00000200000, acctBase := 0xC00000400000,
    ctlBase := 0xC00000500000, carve := [], manifest := [], fwDig := [], roles := [], board := ⟨[], [], 0, 0, 0, 0, 0, 0, 0⟩ }

/-- The whole machine. -/
structure State where
  /-- Commands waiting, first in, first out. -/
  pending : List Instr
  /-- Memory: bytes that are not 0, by physical address, strictly rising (R8). -/
  mem : List Host.Cell
  /-- Registers with a value other than the reset value of their table, by key. -/
  regs : AMap RegKey Word
  fixed : Fixed
  fab : FabState
  cores : AMap CoreId CoreState
  bars : AMap (ClusterId × Fin 16) (Option BarSlot)
  time : TimeState
  sched : SchedState
  fw : FwState
  flt : FaultState
  sec : SecState
  pwr : PwrState
  chk : ChkState
  cpu : CpuState
  gw : GwState
  media : MediaState
  wde : WoadeState
  /-- Power domains that are on, and that are switching (R50). -/
  on : BitVec 116
  busy : BitVec 116
  /-- Power domains whose clocks are gated (R487). -/
  gated : BitVec 116
  /-- How many free values have been taken; the model's own field (log entry 11). -/
  freeCtr : Nat
  deriving DecidableEq, Repr

/-- The package right after RESET_N is asserted. -/
def State.reset : State :=
  { pending := [], mem := [], regs := [],
    fixed := Fixed.part,
    fab := FabState.reset, cores := [], bars := [], time := TimeState.reset, sched := SchedState.reset,
    fw := FwState.reset, flt := FaultState.reset,
    sec := SecState.reset, pwr := PwrState.reset, chk := ChkState.reset, cpu := CpuState.reset, gw := GwState.reset, media := MediaState.reset, wde := WoadeState.reset, on := 0, busy := 0, gated := 0, freeCtr := 0 }

end Sys2Proof.Machine
end

