-- ==== Sys2Proof/Machine/Ops.lean ====
section
/-! DEFINITION. The shared operations: registers, error recording, memory, addresses, power domains, cores. -/

namespace Sys2Proof

/-! ### Indices -/

/-- Global number of a Tolid cluster, core or pair: the instance of its register block. -/
def ClusterId.inst (cl : ClusterId) : Nat := cl.die * 12 + cl.n
def CoreId.inst (c : CoreId) : Nat := c.cl.die * 96 + c.cl.n * 8 + c.k
def PairId.inst (p : PairId) : Nat := p.cl.die * 48 + p.cl.n * 4 + p.i

/-- The primary and the checker of a pair (R114), and the pair of a core. -/
def PairId.primary (p : PairId) : CoreId := ⟨p.cl, ⟨2 * p.i, by omega⟩⟩
def PairId.checker (p : PairId) : CoreId := ⟨p.cl, ⟨2 * p.i + 1, by omega⟩⟩
def CoreId.pair (c : CoreId) : PairId := ⟨c.cl, ⟨c.k / 2, by omega⟩⟩
def CoreId.isPrimary (c : CoreId) : Bool := c.k.val % 2 == 0
def ClusterId.core (cl : ClusterId) (k : Fin 8) : CoreId := ⟨cl, k⟩
def ClusterId.cores (cl : ClusterId) : List CoreId := (List.finRange 8).map (ClusterId.core cl)

/-- Agent ID of a core's DMA engine (R33). -/
def CoreId.agent (c : CoreId) : BitVec 10 := BitVec.ofNat 10 (c.cl.n * 16 + c.k)
def CoreId.die8 (c : CoreId) : Fin 8 := ⟨c.cl.die, by omega⟩
def ClusterId.die8 (c : ClusterId) : Fin 8 := ⟨c.die, by omega⟩

namespace Machine

/-- What a command answers. -/
abbrev Out := Host.Outcome State Fault Refusal

/-- Number of a power domain (R50). -/
def domCluster (cl : ClusterId) : Nat := cl.die * 14 + 2 + cl.n
def domFab (d : Fin 8) : Nat := if d.val < 6 then d.val * 14 else if d.val = 6 then 84 else 104
def domMem (d : Fin 8) : Nat := if d.val < 6 then d.val * 14 + 1 else if d.val = 6 then 88 else 105
def State.domOn (s : State) (n : Nat) : Bool := s.on.getLsbD n

/-! ### Registers -/

/-- The fields of a register, none where no listed register lies at the offset (R39). -/
def regFields (k : RegKey) : Option (List Field) :=
  ((regTable k.blk).find? (fun r => r.has k.off)).map (fun r => r.fields)

/-- The reset value of a register's table. -/
def regReset (k : RegKey) : Word :=
  match regFields k with
  | none => 0
  | some fs => fs.foldl (fun w f => putBits w f.hi f.lo f.rst) 0

/-- The stored value of a register. -/
def State.reg (s : State) (b : Blk) (i off : Nat) : Word :=
  match s.regs.get? ⟨b, i, off⟩ with
  | some v => v
  | none => regReset ⟨b, i, off⟩

/-- Store a register. -/
def State.setReg (s : State) (b : Blk) (i off : Nat) (v : Word) : State :=
  { s with regs := s.regs.set ⟨b, i, off⟩ v }

/-- One field of a stored register, and its update. -/
def State.fld (s : State) (b : Blk) (i off hi lo : Nat) : Nat := bitsOf (s.reg b i off) hi lo
def State.setFld (s : State) (b : Blk) (i off hi lo : Nat) (v : Nat) : State :=
  s.setReg b i off (putBits (s.reg b i off) hi lo v)

/-- Add to a counter register, wrapping (the RC and wrapping RO counters). -/
def State.count (s : State) (b : Blk) (i off : Nat) (n : Nat) : State :=
  s.setReg b i off (s.reg b i off + BitVec.ofNat 32 n)

/-- Replace a 64-bit value held in two registers. -/
def State.setReg2 (s : State) (b : Blk) (i offL offH : Nat) (v : Nat) : State :=
  (s.setReg b i offL (BitVec.ofNat 32 v)).setReg b i offH (BitVec.ofNat 32 (v / 2 ^ 32))

/-! ### Free values -/

/-- A fresh free word, and the state in which the next one differs (log entry 11). -/
def State.freeWord (s : State) : Word × State := (Config.freeWord s.freeCtr, { s with freeCtr := s.freeCtr + 1 })

/-- Fresh free bytes (log entry 11). -/
def State.freeBytes (s : State) : Nat → State × List Byte
  | 0 => (s, [])
  | n + 1 =>
    let (v, s) := s.freeWord
    let (s, bs) := s.freeBytes n
    (s, v.setWidth 8 :: bs)

/-! ### Classes, pins and error records -/

/-- Fault classes (R15). -/
inductive FClass where
  | c | u | f
  deriving DecidableEq, Repr

/-- The class of an ERRSTAT bit (R450 and the register tables). -/
def errClass (b : Blk) (bit : Nat) : FClass :=
  match b, bit with
  | .tc, 0 | .mc, 0 | .dp, 0 | .cad, 5 | .cpu, 0 | .cpu, 2 | .can, 0 | .sw, 0 | .gw, 0 | .pci, 0 | .cam, 0
  | .gfx, 0 | .gfx, 1 | .isp, 0 | .cdc, 0 | .wde, 0 | .chk, 1 => .c
  | .tc, 8 | .mc, 2 | .dp, 2 | .tu, 2 | .fw, 3 | .fw, 4 | .pwr, 0 | .pwr, 1 | .pwr, 3 | .pwr, 6
  | .chk, 6 | .lks, 2 | .sec, 2 | .sec, 3 | .cpu, 5 => .f
  | _, _ => .u

/-- Offsets of a block's ERRSTAT, FIRSTERR, address and info registers (0 where the block has none). -/
structure ErrRegs where
  stat : Nat
  first : Nat
  addr : Nat
  info : Nat

def errRegs : Blk → ErrRegs
  | .tc => ⟨0x20, 0x24, 0x28, 0⟩
  | .cad => ⟨0x08, 0x0C, 0x14, 0x10⟩
  | .fab => ⟨0x08, 0x0C, 0x10, 0x18⟩
  | .mc | .cpu | .pci => ⟨0x08, 0x0C, 0x10, 0⟩
  | .chk | .gw | .cam | .gfx | .wde => ⟨0x08, 0x0C, 0, 0x10⟩
  | .lks => ⟨0, 0, 0, 0⟩
  | _ => ⟨0x08, 0x0C, 0, 0⟩

/-- The instant of a pulse: SAFE_ERR_N for class F, SAFE_WARN_N for class U, with AUTOHOLD (R440 to R442). -/
def State.pulse (s : State) (isErr : Bool) : State :=
  let bit := if isErr then 1 else 0
  let s := if isErr then { s with flt := { s.flt with errPulse := some s.time.lt } }
           else { s with flt := { s.flt with warnPulse := some s.time.lt } }
  let s := s.count .flt 0 (if isErr then Reg.FLT_ERRPULSES else Reg.FLT_WARNPULSES) 1
  if s.fld .flt 0 Reg.FLT_PINAUTO bit bit = 1 then s.setFld .flt 0 Reg.FLT_PINHOLD bit bit 1 else s

/-- A new event of a bit: the partition of a CAD_ event, and the initiator of a FAB_ event that becomes the first error, are kept
for its record (R437, R450). -/
def State.noteEvent (s : State) (b : Blk) (i bit info : Nat) : State :=
  let s := { s with flt := { s.flt with recorded := s.flt.recorded.filter (· != (b, i, bit)) } }
  if b = .cad ∧ bit < 5 then { s with flt := { s.flt with subs := s.flt.subs.set (b, i, bit) (info / 2 ^ 24) } }
  else if b = .fab ∧ bit ≠ 1 ∧ !bitOf (s.reg .fab i 0xC) 31 then { s with flt := { s.flt with subs := s.flt.subs.set (b, i, bit) info } }
  else s

/-- An ERRSTAT bit sets (R119, R432, R436, R440): the hardware pulse of its class, and the first-error record when VALID
was clear. A bit already set merges the occurrence. -/
def State.raise (s : State) (b : Blk) (i bit : Nat) (addr info : Nat) : State :=
  let r := errRegs b
  let was := bitOf (s.reg b i r.stat) bit
  let s := if was then { s with flt := { s.flt with merged := s.flt.merged.set (b, i, bit) (s.flt.merged.get (b, i, bit) 0 + 1) } }
    else (match errClass b bit with
      | .c => s
      | .u => s.pulse false
      | .f => s.pulse true).noteEvent b i bit info
  let s := s.setReg b i r.stat (s.reg b i r.stat ||| BitVec.ofNat 32 (1 <<< bit))
  if r.first = 0 || bitOf (s.reg b i r.first) 31 then s
  else
    let s := s.setReg b i r.first (BitVec.ofNat 32 (2 ^ 31 + bit))
    let s := if r.addr = 0 then s else s.setReg2 b i r.addr (r.addr + 4) addr
    if r.info = 0 then s else s.setReg b i r.info (BitVec.ofNat 32 info)

/-- An ignored write that would have changed something: a contained fault signalled to FP7 (R14, R438). -/
def State.ignoredWrite (s : State) (b : Blk) (i : Nat) : State :=
  { s with flt := { s.flt with ignWr := s.flt.ignWr ++ [(b, i)] } }

/-- Whether a block's interrupt is asserted (R433). -/
def State.intPending (s : State) (b : Blk) (i : Nat) : Bool :=
  let r := errRegs b
  let en := if b = .tc then Reg.TC_INTEN else 0x1C
  s.reg b i r.stat &&& s.reg b i en != 0

/-! ### Cores -/

def State.core (s : State) (c : CoreId) : CoreState := s.cores.get c CoreState.reset
def State.setCore (s : State) (c : CoreId) (x : CoreState) : State := { s with cores := s.cores.set c x }
def State.modCore (s : State) (c : CoreId) (f : CoreState → CoreState) : State := s.setCore c (f (s.core c))

/-- Whether a core is enabled (R42, R43). -/
def State.coreEnabled (s : State) (c : CoreId) : Bool :=
  (s.fixed.coreEn.get c.cl.die (BitVec.allOnes 96)).getLsbD (c.cl.n * 8 + c.k)

/-- Whether a pair is usable in paired mode (R44). -/
def State.pairUsable (s : State) (p : PairId) : Bool := s.coreEnabled p.primary && s.coreEnabled p.checker

/-- LOCKED of a pair (R120). -/
def State.locked (s : State) (p : PairId) : Bool := s.fld .pcmp p.inst Reg.PCMP_STAT 0 0 == 1

/-- The core is the checker of a pair in lockstep. -/
def State.isChecker (s : State) (c : CoreId) : Bool := !c.isPrimary && s.locked c.pair

def Chan.get (x : CoreState) (ch : Fin 8) : Chan := x.chans.get ch Chan.idle
def CoreState.modChan (x : CoreState) (ch : Fin 8) (f : Chan → Chan) : CoreState :=
  { x with chans := x.chans.set ch (f (Chan.get x ch)) }

/-! ### Addresses (R8, R9, R35 to R40) -/

/-- What lies at a physical address. -/
inductive Target where
  | dram (die : Fin 8)
  | ls (c : CoreId) (off : Nat)
  | cs (cl : ClusterId) (off : Nat)
  | vsram (off : Nat)
  | msram (off : Nat)
  | reg (k : RegKey)
  /-- PCIe configuration space and memory window (R512). -/
  | pciCfg (off : Nat)
  | pciMem (off : Nat)
  | unmapped
  deriving DecidableEq, Repr

def dieBase (d : Nat) : Nat := 0x200000000000 * d
def clusterBase (cl : ClusterId) : Nat := 0x100000000000 + dieBase cl.die + 0x2000000 * cl.n
def lsBase (c : CoreId) : Nat := clusterBase c.cl + 0x100000 * c.k
def csBase (cl : ClusterId) : Nat := 0x1000000 + clusterBase cl
def vehicleBase : Nat := 0xC00000000000
def vsramBase : Nat := 0xD00000000000

/-- DRAM channels of a die, and their bytes (R34, R35). -/
def channels (d : Fin 8) : Nat := if d.val < 6 then 6 else 4
def State.dramBytes (s : State) (d : Fin 8) : Nat := channels d * s.fixed.dramGiB * 2 ^ 30

/-- A register block at a fixed base on the Vehicle or Media die, with its stride and instances. -/
structure BlkAt where
  blk : Blk
  base : Nat
  stride : Nat
  count : Nat
  size : Nat

/-- The blocks of the Vehicle die (offsets from its register base, R248, R261, R367, R397, R428 to R430, R462, R493, R511,
R512, R611, R612) . -/
def vehicleBlocks : List BlkAt :=
  [⟨.fw, 0x1300000, 0, 1, 0x10000⟩, ⟨.tu, 0x1400000, 0, 1, 0x10000⟩, ⟨.whl, 0x1410000, 0, 1, 0x10000⟩,
   ⟨.pwr, 0x1500000, 0, 1, 0x10000⟩, ⟨.chk, 0x1600000, 0, 1, 0x10000⟩, ⟨.lks, 0x1620000, 0x1000, 8, 0x1000⟩,
   ⟨.blt, 0x1630000, 0, 1, 0x10000⟩, ⟨.flt, 0x1700000, 0, 1, 0x10000⟩, ⟨.sec, 0x1800000, 0, 1, 0x10000⟩,
   ⟨.cpu, 0x1900000, 0, 1, 0x10000⟩, ⟨.can, 0x1A00000, 0x1000, 24, 0x1000⟩, ⟨.lin, 0x1A20000, 0x1000, 8, 0x1000⟩,
   ⟨.sw, 0x1B00000, 0, 1, 0x20000⟩, ⟨.gw, 0x1C00000, 0, 1, 0x10000⟩, ⟨.pci, 0x1D00000, 0, 1, 0x10000⟩,
   ⟨.wde, 0x1E00000, 0, 1, 0x10000⟩, ⟨.wdp, 0x1E10000, 0x1000, 8, 0x1000⟩]

/-- The blocks of the Media die (R551). -/
def mediaBlocks : List BlkAt :=
  [⟨.cam, 0x1000000, 0x1000, 16, 0x1000⟩, ⟨.gfx, 0x1100000, 0, 1, 0x10000⟩, ⟨.dsp, 0x1200000, 0x1000, 6, 0x1000⟩,
   ⟨.isp, 0x1020000, 0, 1, 0x10000⟩, ⟨.cdc, 0x1300000, 0, 1, 0x10000⟩]

/-- The block and offset at a register-region offset, from a list of blocks. -/
def blockAt (r : Nat) : List BlkAt → Option RegKey
  | [] => none
  | b :: t =>
    let i := if b.stride = 0 then 0 else (r - b.base) / b.stride
    let o := r - b.base - i * b.stride
    if b.base ≤ r ∧ i < b.count ∧ o < b.size then some ⟨b.blk, i, o⟩ else blockAt r t

/-- The register block instance and offset at an offset `r` of a die's register region (R39, R40), listed or not. -/
def regAt (d : Fin 8) (r : Nat) : Option RegKey :=
  if r < 0x10000 then some ⟨.die, d, r⟩
  else if r < 0x20000 then some ⟨.fab, d, r - 0x10000⟩
  else if 0x100000 ≤ r ∧ r < 0x100000 + (if d.val < 6 then 6 else 4) * 0x10000 then
    some ⟨.mc, d * 8 + (r - 0x100000) / 0x10000, (r - 0x100000) % 0x10000⟩
  else if 0x200000 ≤ r ∧ r < 0x200000 + (if d.val < 6 then 4 else 7) * 0x10000 then
    some ⟨.dp, d * 8 + (r - 0x200000) / 0x10000, (r - 0x200000) % 0x10000⟩
  else if d.val < 6 then
    if 0x1000000 ≤ r ∧ r < 0x1000000 + 12 * 0x100000 then
      let n := (r - 0x1000000) / 0x100000
      let o := (r - 0x1000000) % 0x100000
      if o < 0x80000 then some ⟨.tc, d * 96 + n * 8 + o / 0x10000, o % 0x10000⟩
      else if o < 0x90000 then some ⟨.cad, d * 12 + n, o - 0x80000⟩
      else if 0xA0000 ≤ o ∧ o < 0xA4000 then some ⟨.pcmp, d * 48 + n * 4 + (o - 0xA0000) / 0x1000, (o - 0xA0000) % 0x1000⟩
      else none
    else none
  else if d.val = 6 then blockAt r vehicleBlocks
  else blockAt r mediaBlocks

/-- The core and cluster of a block instance. -/
def coreOfInst (i : Nat) : CoreId := ⟨⟨Fin.ofNat 6 (i / 96), Fin.ofNat 12 (i / 8 % 12)⟩, Fin.ofNat 8 i⟩
def clusterOfInst (i : Nat) : ClusterId := ⟨Fin.ofNat 6 (i / 12), Fin.ofNat 12 (i % 12)⟩
def pairOfInst (i : Nat) : PairId := ⟨⟨Fin.ofNat 6 (i / 48), Fin.ofNat 12 (i / 4 % 12)⟩, Fin.ofNat 4 i⟩

/-- The die of an address (R8). -/
def addrDie (a : Nat) : Fin 8 := Fin.ofNat 8 (a >>> 45)

/-- The controller of a DRAM address, and the channel offset there (R35). -/
def mcOf (a : Nat) : Nat := (addrDie a).val * 8 + a % 2 ^ 45 / 2048 % channels (addrDie a)
def mcOffset (a : Nat) : Nat := a % 2 ^ 45 / (2048 * channels (addrDie a)) * 2048 + a % 2048

/-- What lies at an address (R35 to R40, R43, R512). A register is a target only where a listed register lies. -/
def State.target (s : State) (a : Nat) : Target :=
  let d := addrDie a
  let o := a % 2 ^ 45
  if o < 0x100000000000 then (if o < s.dramBytes d then .dram d else .unmapped)
  else if o < 0x180000000000 then
    let x := o - 0x100000000000
    if d.val = 6 then (if x < 0x2000000 then .vsram x else .unmapped)
    else if d.val = 7 then (if x < 0x1800000 then .msram x else .unmapped)
    else if x < 12 * 0x2000000 then
      let cl : ClusterId := ⟨Fin.ofNat 6 d.val, Fin.ofNat 12 (x / 0x2000000)⟩
      let y := x % 0x2000000
      if y < 0x800000 then .ls ⟨cl, Fin.ofNat 8 (y / 0x100000)⟩ (y % 0x100000)
      else if y < 0x1000000 then .unmapped
      else .cs cl (y - 0x1000000)
    else .unmapped
  else
    let r := o - 0x180000000000
    if d.val = 6 ∧ 0x2000000 ≤ r ∧ r < 0x2800000 then .pciCfg (r - 0x2000000)
    else if d.val = 6 ∧ 0x40000000000 ≤ r ∧ r < 0x40000000000 + 0x1000000000 then .pciMem (r - 0x40000000000)
    else match regAt d (r / 4 * 4) with
      | none => .unmapped
      | some k =>
        if k.blk = .tc && !s.coreEnabled (coreOfInst k.inst) then .unmapped
        else if (regFields k).isSome then .reg k else .unmapped

/-- The power domain that holds a register block (R50). -/
def blkDomain (k : RegKey) : Nat :=
  match k.blk with
  | .die | .fab => domFab (Fin.ofNat 8 k.inst)
  | .dp => domFab (Fin.ofNat 8 (k.inst / 8))
  | .mc => domMem (Fin.ofNat 8 (k.inst / 8))
  | .tc => domCluster (coreOfInst k.inst).cl
  | .cad => domCluster (clusterOfInst k.inst)
  | .pcmp => domCluster (pairOfInst k.inst).cl
  | .tu | .whl => 86
  | .fw => 89
  | .pwr | .flt | .blt => 85
  | .chk => 100
  | .lks => 92 + k.inst
  | .sec => 87
  | .cpu => 91
  | .can | .lin | .sw | .gw => 101
  | .pci => 103
  | .wde | .wdp => 102
  | .cam => if k.inst < 8 then 106 else 107
  | .gfx => 109
  | .dsp => 114
  | .isp => 108
  | .cdc => 115

/-- The power domain that holds a target. -/
def Target.domain (t : Target) (a : Nat) : Nat :=
  match t with
  | .dram d => domMem d
  | .ls c _ => domCluster c.cl
  | .cs cl _ => domCluster cl
  | .vsram _ => 84
  | .msram _ => 104
  | .reg k => blkDomain k
  | .pciCfg _ | .pciMem _ => 103
  | .unmapped => domFab (addrDie a)

/-! ### Memory with check bits (R106, R197, R202, R206, R207) -/

/-- The latent-error granules (SRAM words or DRAM bursts) that a range touches. -/
def State.granules (s : State) (a n : Nat) : List Nat :=
  let g := match s.target a with
    | .dram _ => 32
    | _ => 8
  (List.range (if n = 0 then 0 else (a + n + g - 1) / g - a / g)).map (fun i => (a / g + i) * g)

/-- Bytes of a range with those of a write over them. -/
def overlay (base : Nat) (old : List Byte) (a : Nat) (bs : List Byte) : List Byte :=
  (List.range old.length).map (fun i => if a ≤ base + i ∧ base + i < a + bs.length then bs.getD (base + i - a) 0 else old.getD i 0)

/-- The local store of the primary of a pair in lockstep, whose writes and reads its checker repeats (R114). -/
def State.doubled (s : State) (a : Nat) : Bool :=
  match s.target a with
  | .ls c _ => c.isPrimary && s.locked c.pair
  | _ => false

/-- Store bytes: check bits of every granule written whole are recomputed, and writes into the primary of a pair in lockstep are
repeated in its checker (R114). A lock word that reads 0 after the write has no lease (R453). -/
def State.store (s : State) (a : Nat) (bs : List Byte) : State :=
  let g := match s.target a with
    | .dram _ => 32
    | _ => 8
  let two := s.doubled a
  let m := memWrite s.mem a bs
  let m := if two then memWrite m (a + 0x100000) bs else m
  let whole (e : Nat) (a : Nat) : Bool := decide (a ≤ e) && decide (e + g ≤ a + bs.length)
  { s with mem := m,
           flt := { s.flt with locks := s.flt.locks.filter (fun l =>
             !(decide (a < l.1 + 4) && decide (l.1 < a + bs.length)) || leNat (memRead m l.1 4) != 0) },
           fab := { s.fab with ecc := s.fab.ecc.filter (fun e => !(whole e.1 a || (two && whole e.1 (a + 0x100000)))),
                               landing := s.fab.landing.map (fun l => { l with old := overlay l.addr l.old a bs }) } }

/-- Bytes as stored. -/
def State.load (s : State) (a n : Nat) : List Byte := memRead s.mem a n
def State.loadNat (s : State) (a n : Nat) : Nat := leNat (s.load a n)
def State.load32 (s : State) (a : Nat) : Word := BitVec.ofNat 32 (s.loadNat a 4)
def State.store32 (s : State) (a : Nat) (v : Word) : State := s.store a (leBytes 4 v.toNat)

/-- Zero a range of memory and its latent errors (R54, R107). -/
def State.zero (s : State) (a n : Nat) : State :=
  { s with mem := memZero s.mem a n,
           fab := { s.fab with ecc := s.fab.ecc.filter (fun e => decide (e.1 < a) || decide (a + n ≤ e.1)),
                               landing := s.fab.landing.filter (fun l => decide (l.addr < a) || decide (a + n ≤ l.addr)) } }

/-- Record a corrected or an uncorrectable error at a granule: in the owning core, in the cadence unit for a cluster store
or a disabled core's local store, or in the memory controller (R106, R197, R206, R207). -/
def State.recordEcc (s : State) (g : Nat) (e : EccErr) : State :=
  let wb (s : State) : State :=
    if s.fab.eccWb.contains g then s else { s with fab := { s.fab with eccWb := s.fab.eccWb ++ [g] } }
  match s.target g, e with
  | .ls c _, .single =>
    if s.coreEnabled c then wb ((s.count .tc c.inst Reg.TC_ECCCNT 1).raise .tc c.inst 0 g 0)
    else wb ((s.count .cad c.cl.inst Reg.CAD_CSECCNT 1).raise .cad c.cl.inst 5 g c.k)
  | .ls c _, .double =>
    if s.coreEnabled c then s.raise .tc c.inst 1 g 0 else s.raise .cad c.cl.inst 6 g c.k
  | .cs cl _, .single => wb ((s.count .cad cl.inst Reg.CAD_CSECCNT 1).raise .cad cl.inst 5 g 0)
  | .cs cl _, .double => s.raise .cad cl.inst 6 g 0
  | .dram _, .single => wb ((s.count .mc (mcOf g) Reg.MC_CECNT 1).raise .mc (mcOf g) 0 g 0)
  | .dram _, .double => s.raise .mc (mcOf g) 1 g 0
  | _, _ => s

/-- A checked read: the state with every error of the range recorded, the bytes, and the first granule with an
uncorrectable error, if any. -/
def State.read (s : State) (a n : Nat) : State × List Byte × Option Nat :=
  let gs := (s.granules a n).filterMap (fun g => (s.fab.ecc.get? g).map (fun e => (g, e)))
  let s' := gs.foldl (fun s ge => s.recordEcc ge.1 ge.2) s
  (s', s.load a n, (gs.find? (fun ge => ge.2 == .double)).map (·.1))

/-- Bytes as an instruction finds them: where a DMA write has come in whose channel has not completed, the line before or after that
write, as a free value has it (R20, R105). -/
def State.landed (s : State) (a : Nat) (bs : List Byte) : State × List Byte :=
  s.fab.landing.foldr (fun l (r : State × List Byte) =>
    if l.addr < a + bs.length ∧ a < l.addr + l.old.length then
      let (v, t) := r.1.freeWord
      (t, if v.getLsbD 0 then overlay a r.2 l.addr l.old else r.2)
    else r) (s, bs)

/-- A checked read by an instruction of a core. The checker of a pair reads the same words of its own store (R114). -/
def State.coreRead (s : State) (a n : Nat) : State × List Byte × Option Nat :=
  let (s1, bs, bad) := s.read a n
  let (s2, bad2) : State × Option Nat := if s.doubled a then
      (let r := s1.read (a + 0x100000) n
       (r.1, r.2.2)) else (s1, none)
  let (s3, bs) := s2.landed a bs
  (s3, bs, bad.or bad2)

/-! ### Time -/

/-- LT in ns as a number. -/
def State.now (s : State) : Nat := s.time.lt.toNat
def State.now32 (s : State) : Word := s.time.lt.setWidth 32

end Machine

end Sys2Proof
end

