-- ==== Sys2Proof/Machine/CoreCtl.lean ====
section
/-! DEFINITION. How a core issues an instruction: who may issue, completion and loops, transfers, exceptions, waits and
their release (R123 to R133, R137 to R139, R146, R148, R149). -/

namespace Sys2Proof.Machine

/-- In lockstep the checker runs the primary's program from the same contents (R114): what the primary's state becomes, the
checker's becomes. Log entry 7. -/
def State.mirrored (s : State) (c : CoreId) : List CoreId :=
  if c.isPrimary && s.locked c.pair then [c, c.pair.checker] else [c]

/-- The checker's contents: its primary's, but for the S registers that hold PAIRED (R114, R127). -/
def CoreState.asChecker (x : CoreState) : CoreState := { x with s := x.pairedS.foldl (fun m r => m.set r 3) x.s }

def State.putCore (s : State) (c : CoreId) (x : CoreState) : State :=
  (s.mirrored c).foldl (fun s d => s.setCore d (if d = c then x else x.asChecker)) s

/-! ### Scalar state -/

/-- S0 reads as 0 and discards writes (R125). -/
def CoreState.getS (x : CoreState) (i : Nat) : Word := if i % 32 = 0 then 0 else x.s.get (Fin.ofNat 32 i) 0
def CoreState.setS (x : CoreState) (i : Nat) (v : Word) : CoreState :=
  if i % 32 = 0 then x else { x with s := x.s.set (Fin.ofNat 32 i) v, pairedS := x.pairedS.filter (· != Fin.ofNat 32 i) }
def CoreState.getA (x : CoreState) (i : Nat) : Addr := x.a.get (Fin.ofNat 16 i) 0
def CoreState.setA (x : CoreState) (i : Nat) (v : Addr) : CoreState := { x with a := x.a.set (Fin.ofNat 16 i) v }
/-- P0 reads as all ones and discards writes (R125). -/
def CoreState.getP (x : CoreState) (i : Nat) : BitVec 64 := if i % 8 = 0 then BitVec.allOnes 64 else x.p.get (Fin.ofNat 8 i) 0
def CoreState.setP (x : CoreState) (i : Nat) (v : BitVec 64) : CoreState :=
  if i % 8 = 0 then x else { x with p := x.p.set (Fin.ofNat 8 i) v }
def CoreState.getV (x : CoreState) (i : Nat) : VReg := x.v.get (Fin.ofNat 32 i) 0
def CoreState.setV (x : CoreState) (i : Nat) (v : VReg) : CoreState := { x with v := x.v.set (Fin.ofNat 32 i) v }

/-- Sticky flags of a core (R83). -/
def State.orFlags (s : State) (c : CoreId) (f : AFlags) : State :=
  if f = 0 then s
  else (s.mirrored c).foldl (fun s d => s.setReg .tc d.inst Reg.TC_FLAGS (s.reg .tc d.inst Reg.TC_FLAGS ||| f.setWidth 32)) s

def State.sig (s : State) (c : CoreId) (sid : Nat) : BitVec 16 := (s.reg .tc c.inst (Reg.TC_SIGs sid)).setWidth 16
def State.setSig (s : State) (c : CoreId) (sid : Nat) (v : BitVec 16) : State :=
  (s.mirrored c).foldl (fun s d => s.setReg .tc d.inst (Reg.TC_SIGs sid) (v.setWidth 32)) s

/-! ### Program counter, loops and fetch lines -/

/-- Levels whose end is `pc` are evaluated, most recently started first: at most one back-edge (R137, R138). The flag says
that a back-edge was taken. -/
def evalLoops : List Loop → BitVec 20 → List Loop × BitVec 20 × Bool
  | [], pc => ([], pc + 8, false)
  | l :: t, pc =>
    if l.stop = pc then
      if 1 < l.count.toNat then ({ l with count := l.count - 1 } :: t, l.start, true)
      else evalLoops t pc
    else
      let r := evalLoops t pc
      (l :: r.1, r.2.1, r.2.2)

/-- The line of a transfer target is fetched again (R133). -/
def CoreState.refetch (x : CoreState) (t : BitVec 20) : CoreState :=
  { x with fetch := x.fetch.filter (fun e => e.1 != t.toNat / 64) }

/-- The instruction in issue leaves it (R101, R122). -/
def CoreState.leave (x : CoreState) : CoreState := { x with stalled := false, pwb := none }

/-- The instruction in issue waits, and no other issues. -/
def CoreState.waits (x : CoreState) (w : Wait) : CoreState := { x.leave with wait := w }

/-- The instruction at `pc` completes with no taken transfer (R137). -/
def CoreState.complete (x : CoreState) (pc : BitVec 20) : CoreState :=
  let r := evalLoops x.loops pc
  let x := { x.leave with loops := r.1, pc := r.2.1 }
  if r.2.2 then x.refetch r.2.1 else x

/-- A taken transfer: levels whose body does not hold the target become inactive (R139). -/
def CoreState.transfer (x : CoreState) (t : BitVec 20) : CoreState :=
  let x := { x.leave with pc := t, loops := x.loops.filter (fun l => decide (l.start ≤ t) && decide (t ≤ l.stop)) }
  x.refetch t

/-- Remaining count of a loop level, 0 when it is inactive (R126). -/
def CoreState.lc (x : CoreState) (lv : Nat) : Word := ((x.loops.find? (fun l => l.lv.val == lv)).map (·.count)).getD 0

/-! ### Issue -/

/-- What an instruction does when it issues. -/
inductive Issue where
  /-- It completes and the next instruction follows. -/
  | ok (s : State)
  /-- It completes with a taken transfer. -/
  | jump (s : State) (t : BitVec 20)
  /-- It completes with the program counter and the loops as set. -/
  | own (s : State)
  /-- It has issued and waits; the program counter stays. -/
  | stay (s : State)
  /-- Issue stalls; the program counter stays (R101). -/
  | stall (s : State)
  /-- It raises an exception and has no effect (R130). -/
  | exc (bit : Nat) (addr : Nat)
  /-- It raises an exception after a read that recorded a memory error. -/
  | fail (s : State) (bit : Nat) (addr : Nat)

/-- TC_ERRSTAT bits of the exceptions (R131). -/
abbrev xILLEGAL : Nat := 3
abbrev xACCESS : Nat := 2
abbrev xLSECC : Nat := 1
abbrev xSPMETA : Nat := 4
abbrev xACCMODE : Nat := 5

/-- Physical address of the instruction at the program counter (R131). -/
def State.pcAddr (s : State) (c : CoreId) : Nat := lsBase c + (s.core c).pc.toNat

/-- Offsets of the accord area (R156). -/
def inAccord (off : Nat) : Bool := decide (0xFC000 ≤ off)

/-- An exception is pending until the units have drained (R130). -/
def State.except (s : State) (c : CoreId) (bit addr : Nat) : State :=
  s.putCore c { (s.core c).leave with pend := some ⟨bit, BitVec.ofNat 48 addr⟩ }

/-- A core that can issue: enabled, powered, running, not halted, with no exception pending and nothing it waits for. A HALT request
lets the instruction that stalls in issue go on (R122). The checker of a pair in lockstep issues with its primary only. -/
def State.canIssue (s : State) (c : CoreId) : Bool :=
  let x := s.core c
  s.coreEnabled c && s.domOn (domCluster c.cl) && x.run && !x.halted && (!x.haltPending || x.stalled) && !x.errstop && !x.ended &&
    x.pend.isNone && x.wait == .none && !s.isChecker c

/-- The instruction reads what an instruction in a unit queue still has to write, or would write what that reads or writes (R100). Within
one queue the order of the queue does. -/
def CoreState.interlocked (x : CoreState) (op : Nat) (w : BitVec 56) : Bool :=
  x.unitQ.any (fun q => unitOf op != some q.unit && resConflict (resUse q.op q.w) (resUse op w))

/-- One issue of the instruction with opcode `op` and fields `w`: nothing happens on a core that cannot issue; a fetch from the accord
area raises ACCESS (R156); an interlock stalls issue (R100, R101). -/
def State.issue (s : State) (c : CoreId) (op : Nat) (w : BitVec 56) (r : Issue) : State :=
  if !s.canIssue c then s
  else if inAccord (s.core c).pc.toNat then s.except c xACCESS (s.pcAddr c)
  else if (s.core c).interlocked op w then s.putCore c { s.core c with stalled := true }
  else match r with
    | .ok s' => s'.putCore c ((s'.core c).complete (s.core c).pc)
    | .jump s' t => s'.putCore c ((s'.core c).transfer t)
    | .own s' => s'
    | .stay s' => s'
    | .stall s' => s'.putCore c { s'.core c with stalled := true }
    | .exc b a => s.except c b a
    | .fail s' b a => s'.except c b a

/-- An instruction raises ILLEGAL unless it is well-formed (R129, R163). -/
def State.legal (s : State) (c : CoreId) (ok : Bool) (r : Issue) : Issue := if ok then r else .exc xILLEGAL (s.pcAddr c)

/-- A scalar result goes to S[RD]. -/
def State.toS (s : State) (c : CoreId) (w : BitVec 56) (v : Word) : Issue :=
  .ok (s.putCore c ((s.core c).setS (iRD w) v))

/-! ### Waits and their release -/

/-- A waiting core goes on: S[rd] is written and the instruction completes. -/
def State.release (s : State) (c : CoreId) (rd : Nat) (v : Word) : State :=
  let x := s.core c
  s.putCore c (({ x with wait := .none }.setS rd v).complete x.pc)

/-- A SIGWAIT whose count is reached is satisfied (R144, R146). -/
def State.sigCheck (s : State) (c : CoreId) : State :=
  match (s.core c).wait with
  | .sig sid n consume =>
    if n ≤ s.sig c sid then
      let s := if consume then s.setSig c sid (s.sig c sid - n) else s
      s.release c 0 0
    else s
  | _ => s

/-- Signal counter `sid` of a core gains `n`, modulo 2^16 (R144, R146, R150). -/
def State.sigAdd (s : State) (c : CoreId) (sid : Nat) (n : BitVec 16) : State :=
  (s.setSig c sid (s.sig c sid + n)).sigCheck c

/-- Every core that waits at a slot is released with S[RD] = v and the slot becomes idle (R148, R149). -/
def State.barRelease (s : State) (cl : ClusterId) (slot : Fin 16) (v : Word) : State :=
  let s := { s with bars := s.bars.set (cl, slot) none }
  cl.cores.foldl (fun s c =>
    match (s.core c).wait with
    | .bar sl rd => if sl = slot && !s.isChecker c then s.release c rd v else s
    | _ => s) s

/-- Slots whose mask names a core are cleared: the waiting cores read 1 (R149). -/
def State.barClear (s : State) (c : CoreId) : State :=
  (List.finRange 16).foldl (fun s slot =>
    match s.bars.get (c.cl, slot) none with
    | some b => if b.mask.getLsbD c.k then s.barRelease c.cl slot 1 else s
    | none => s) s

/-- TC_STAT (R118). -/
def State.tcStat (s : State) (c : CoreId) : Word :=
  let x := s.core c
  let wait := match x.wait with
    | .bar _ _ | .phase _ _ _ _ | .sig _ _ _ => true
    | _ => false
  let paired := s.locked c.pair
  BitVec.ofNat 32 (b2n x.errstop * 64 + b2n wait * 32 + b2n (paired && !c.isPrimary) * 16 + b2n paired * 8 + b2n x.idle * 4
    + b2n x.halted * 2 + b2n (x.run && !x.halted && !x.ended))

end Sys2Proof.Machine
end

