-- ==== Sys2Proof/Machine/BenvorScalar.lean ====
section
/-! DEFINITION. Benvor scalar, address, branch, loop and predicate instructions (R134 to R140). -/

namespace Sys2Proof.Machine

/-- NOP (R134). -/
def execNop (c : CoreId) (w : BitVec 56) (s : State) : Out := .next (s.issue c 0x01 w (s.legal c (rsvI w) (.ok s)))

/-- WAITC (R134): issue is held for some cycles, which the model does not count. -/
def execWaitc (c : CoreId) (w : BitVec 56) (s : State) : Out := .next (s.issue c 0x02 w (s.legal c (rsvI w) (.ok s)))

/-- The scalar functions (R135); none where the code is reserved. -/
def scalarFn (fn : Nat) (a b : Word) : Option Word :=
  match fn with
  | 0 => some (a + b)
  | 1 => some (a - b)
  | 2 => some (a &&& b)
  | 3 => some (a ||| b)
  | 4 => some (a ^^^ b)
  | 5 => some (a <<< (b.toNat % 32))
  | 6 => some (a >>> (b.toNat % 32))
  | 7 => some (a.sshiftRight (b.toNat % 32))
  | 8 => some (if a.slt b then 1 else 0)
  | 9 => some (if a.ult b then 1 else 0)
  | 10 => some (if b.slt a then b else a)
  | 11 => some (if a.slt b then b else a)
  | 12 => some (a * b)
  | 13 => some (BitVec.ofInt 32 (a.toInt * b.toInt / 2 ^ 32))
  | 14 => some (BitVec.ofNat 32 (a.toNat * b.toNat / 2 ^ 32))
  | _ => none

/-- SOP (R134, R135). -/
def execSop (c : CoreId) (w : BitVec 56) (s : State) : Out :=
  let x := s.core c
  .next (s.issue c 0x04 w (match scalarFn (fnR w) (x.getS (iRS1 w)) (x.getS (iRS2 w)) with
    | some v => s.legal c (rsvR w) (s.toS c w v)
    | none => .exc xILLEGAL (s.pcAddr c)))

/-- SOPI (R134, R135): SUB is reserved. -/
def execSopi (c : CoreId) (w : BitVec 56) (s : State) : Out :=
  let x := s.core c
  .next (s.issue c 0x05 w (match scalarFn (fnI w) (x.getS (iRS1 w)) (iIMM w) with
    | some v => s.legal c (rsvI w && fnI w != 1) (s.toS c w v)
    | none => .exc xILLEGAL (s.pcAddr c)))

/-- Cycles of the 320 MHz clock in a number of ns (R6). -/
def cyclesOf (ns : Nat) : Nat := ns * 8 / 25

/-- Cycles since the core's last context load (R126). -/
def State.cycles (s : State) (c : CoreId) : Nat := cyclesOf (s.now - (s.core c).loadLt)

def State.wheel (s : State) (w : Fin 4) : Wheel := s.sched.wheels.get w Wheel.reset
def State.setWheel (s : State) (w : Fin 4) (x : Wheel) : State :=
  { s with sched := { s.sched with wheels := s.sched.wheels.set w x } }

/-- COREID of a core (R126). -/
def coreIdWord (c : CoreId) : Word := BitVec.ofNat 32 (c.cl.die * 256 + c.cl.n * 16 + c.k)

/-- The special values of SRD; none for an undefined ID (R126). -/
def State.special (s : State) (c : CoreId) (id : Nat) : Option Word :=
  let x := s.core c
  if id = 0 then some (BitVec.ofNat 32 (s.cycles c))
  else if id = 1 then some x.cychi
  else if id = 2 then some (coreIdWord c)
  else if id = 3 then some (BitVec.ofNat 32 (s.fld .tc c.inst Reg.TC_CTX 11 0))
  else if id = 4 then some (BitVec.ofNat 32 x.jobWheel)
  else if id = 5 then some (x.jobFrame.get x.jobWheel 0)
  else if 8 ≤ id ∧ id < 12 then
    let wh := s.wheel (Fin.ofNat 4 (id - 8))
    some ((wh.frame <<< 16) ||| wh.phase.setWidth 32)
  else if 12 ≤ id ∧ id < 16 then some (BitVec.ofNat 32 (cyclesOf (s.now - (s.wheel (Fin.ofNat 4 (id - 12))).tickLt)))
  else if 16 ≤ id ∧ id < 20 then some (x.lc (id - 16))
  else if id = 0x14 then some (BitVec.ofNat 32 (s.fld .tc c.inst Reg.TC_FLAGS 3 0))
  else if id = 0x15 then some (if s.locked c.pair then (if c.isPrimary then 1 else 3) else 0)
  else none

/-- SRD (R126, R134). CYCLO latches the high half; PAIRED is the one value the checker does not take from its primary
(R127): while it stands in a register, the checker's holds 3. -/
def execSrd (c : CoreId) (w : BitVec 56) (s : State) : Out :=
  let id := (iIMM w).toNat
  .next (s.issue c 0x06 w (match s.special c id with
    | none => .exc xILLEGAL (s.pcAddr c)
    | some v =>
      s.legal c (rsvI w)
        (let x := (s.core c).setS (iRD w) v
         let x := if id = 0 then { x with cychi := BitVec.ofNat 32 (s.cycles c / 2 ^ 32) } else x
         let x := if id = 0x15 ∧ s.locked c.pair ∧ iRD w % 32 ≠ 0 then { x with pairedS := x.pairedS ++ [Fin.ofNat 32 (iRD w)] } else x
         .own (s.putCore c (x.complete x.pc)))))

/-- AADD (R134). -/
def execAadd (c : CoreId) (w : BitVec 56) (s : State) : Out :=
  let x := s.core c
  .next (s.issue c 0x08 w (s.legal c (rsvR w && decide (iRD w < 16) && decide (iRS1 w < 16))
    (.ok (s.putCore c (x.setA (iRD w) (x.getA (iRS1 w) + (x.getS (iRS2 w)).signExtend 48))))))

/-- AADDI (R134). -/
def execAaddi (c : CoreId) (w : BitVec 56) (s : State) : Out :=
  let x := s.core c
  .next (s.issue c 0x09 w (s.legal c (rsvI w && decide (iRD w < 16) && decide (iRS1 w < 16))
    (.ok (s.putCore c (x.setA (iRD w) (x.getA (iRS1 w) + (iIMM w).signExtend 48))))))

/-- ALI (R134). -/
def execAli (c : CoreId) (w : BitVec 56) (s : State) : Out :=
  .next (s.issue c 0x0A w (s.legal c (rsvX w && decide (iRD w < 16))
    (.ok (s.putCore c ((s.core c).setA (iRD w) (w.extractLsb' 0 48))))))

/-- AMOVS (R134): FN 0 the low word, FN 1 the high 16 bits; other codes are reserved. -/
def execAmovs (c : CoreId) (w : BitVec 56) (s : State) : Out :=
  let a := (s.core c).getA (iRS1 w)
  .next (s.issue c 0x0B w (s.legal c (rsvR w && decide (iRS1 w < 16) && decide (fnR w < 2))
    (s.toS c w (if fnR w = 0 then a.setWidth 32 else (a >>> 32).setWidth 32))))

/-- ASETS (R134). -/
def execAsets (c : CoreId) (w : BitVec 56) (s : State) : Out :=
  let x := s.core c
  .next (s.issue c 0x0C w (s.legal c (rsvR w && decide (iRD w < 16))
    (.ok (s.putCore c (x.setA (iRD w) (((x.getS (iRS2 w)).setWidth 48 <<< 32) ||| (x.getS (iRS1 w)).setWidth 48))))))

/-! ### Branches and loops -/

def iTGT (w : BitVec 56) : BitVec 20 := w.extractLsb' 0 20
def tgtOk (w : BitVec 56) : Bool := bitsOf w 2 0 == 0

/-- A branch condition; none where the code is reserved (R136). -/
def condHolds (cond : Nat) (a b : Word) : Option Bool :=
  match cond with
  | 0 => some (a == b)
  | 1 => some (a != b)
  | 2 => some (a.slt b)
  | 3 => some (!a.slt b)
  | 4 => some (a.ult b)
  | 5 => some (!a.ult b)
  | _ => none

/-- BR (R136). -/
def execBr (c : CoreId) (w : BitVec 56) (s : State) : Out :=
  let x := s.core c
  .next (s.issue c 0x10 w (match condHolds (bitsOf w 45 43) (x.getS (iRD w)) (x.getS (iRS1 w)) with
    | none => .exc xILLEGAL (s.pcAddr c)
    | some taken => s.legal c (rsvB w && tgtOk w) (if taken then .jump s (iTGT w) else .ok s)))

/-- JMP (R136). -/
def execJmp (c : CoreId) (w : BitVec 56) (s : State) : Out :=
  .next (s.issue c 0x11 w (s.legal c (rsvB w && tgtOk w) (.jump s (iTGT w))))

/-- JAL (R136): the link is the offset of the next instruction. -/
def execJal (c : CoreId) (w : BitVec 56) (s : State) : Out :=
  let x := s.core c
  .next (s.issue c 0x12 w (s.legal c (rsvB w && tgtOk w)
    (.jump (s.putCore c (x.setS (iRD w) ((x.pc + 8).setWidth 32))) (iTGT w))))

/-- JR (R136): ACCESS for a target that is misaligned or above 20 bits; the address is the fetch address. -/
def execJr (c : CoreId) (w : BitVec 56) (s : State) : Out :=
  let t := (s.core c).getS (iRD w)
  .next (s.issue c 0x13 w (s.legal c (rsvB w && tgtOk w)
    (if bitsOf t 2 0 ≠ 0 ∨ bitsOf t 31 20 ≠ 0 then .exc xACCESS (lsBase c + t.toNat) else .jump s (t.setWidth 20))))

/-- Start of a loop level (R137, R138, R139). -/
def State.loopStart (s : State) (c : CoreId) (w : BitVec 56) (count : Word) : Issue :=
  let x := s.core c
  let lv : Fin 4 := Fin.ofNat 4 (bitsOf w 42 41)
  let t := iTGT w
  let first := x.pc.toNat + 8
  let nested := x.loops.all (fun l => decide (l.start.toNat ≤ first) && decide (t ≤ l.stop))
  if !(rsvB w && tgtOk w) || decide (t.toNat < first) || x.loops.any (fun l => l.lv == lv) || !nested then
    .exc xILLEGAL (s.pcAddr c)
  else if count = 0 then .own (s.putCore c (x.complete t))
  else .own (s.putCore c { x.leave with loops := ⟨lv, x.pc + 8, t, count⟩ :: x.loops, pc := x.pc + 8 })

/-- LOOP (R136, R137). -/
def execLoop (c : CoreId) (w : BitVec 56) (s : State) : Out :=
  .next (s.issue c 0x14 w (s.loopStart c w ((s.core c).getS (iRD w))))

/-- LOOPI (R136, R137). -/
def execLoopi (c : CoreId) (w : BitVec 56) (s : State) : Out :=
  .next (s.issue c 0x15 w (s.loopStart c w (BitVec.ofNat 32 (bitsOf w 39 20))))

/-! ### Predicates -/

/-- POP (R140). -/
def execPop (c : CoreId) (w : BitVec 56) (s : State) : Out :=
  let x := s.core c
  let a := x.getP (iRS1 w)
  let b := x.getP (iRS2 w)
  let v := match fnR w with
    | 0 => a &&& b
    | 1 => a ||| b
    | 2 => a ^^^ b
    | 3 => a &&& ~~~b
    | _ => ~~~a
  .next (s.issue c 0x18 w (s.legal c
    (rsvR w && decide (fnR w < 5) && decide (iRD w < 8) && decide (iRS1 w < 8) && decide (iRS2 w < 8))
    (.ok (s.putCore c (x.setP (iRD w) v)))))

/-- The predicate whose first n bits are 1. -/
def firstLanes (n : Nat) : BitVec 64 := BitVec.ofNat 64 (2 ^ n - 1)

/-- PLANE (R140). -/
def execPlane (c : CoreId) (w : BitVec 56) (s : State) : Out :=
  let x := s.core c
  let n := if fnI w = 0 then (iIMM w).toNat else Nat.min (x.getS (iRS1 w)).toNat 64
  .next (s.issue c 0x19 w (s.legal c
    (rsvI w && decide (fnI w < 2) && decide (iRD w < 8) && decide ((iIMM w).toNat ≤ 64))
    (.ok (s.putCore c (x.setP (iRD w) (firstLanes n))))))

/-- Number of bits set. -/
def popcount (p : BitVec 64) : Nat := ((List.range 64).filter (fun i => p.getLsbD i)).length

/-- PMOVS (R140). -/
def execPmovs (c : CoreId) (w : BitVec 56) (s : State) : Out :=
  let p := (s.core c).getP (iRS1 w)
  let v : Word := match fnR w with
    | 0 => p.setWidth 32
    | 1 => (p >>> 32).setWidth 32
    | _ => BitVec.ofNat 32 (popcount p)
  .next (s.issue c 0x1A w (s.legal c (rsvR w && decide (fnR w < 3) && decide (iRS1 w < 8)) (s.toS c w v)))

/-- PFROMS (R140). -/
def execPfroms (c : CoreId) (w : BitVec 56) (s : State) : Out :=
  let x := s.core c
  .next (s.issue c 0x1B w (s.legal c (rsvR w && decide (iRD w < 8))
    (.ok (s.putCore c (x.setP (iRD w) (((x.getS (iRS2 w)).setWidth 64 <<< 32) ||| (x.getS (iRS1 w)).setWidth 64))))))

end Sys2Proof.Machine
end

