-- ==== Sys2Proof/Machine/Sillage.lean ====
section
/-! DEFINITION. The sillage ring and its trace points (R362, R364 to R366). -/

namespace Sys2Proof.Machine

def State.fp (s : State) (k : Fin 8) : Fp := s.fw.fps.get k Fp.reset
def State.fpRuns (s : State) (k : Fin 8) : Bool := (s.fp k).st == .running

/-- The firmware directory (R329). -/
abbrev dirBase : Nat := 0xD00001FFC000

/-- Level of a trace point; FAULT is level 0 for class F and level 1 otherwise (R366). -/
def traceLevel (point : Nat) (args : List Nat) : Nat :=
  match point with
  | 0x0002 | 0x0303 | 0x0401 => 0
  | 0x0003 | 0x0004 | 0x0103 | 0x0104 | 0x0202 | 0x0304 | 0x0402 | 0x0502 | 0x0602 | 0x0702 => 1
  | 0x0101 | 0x0102 | 0x0301 | 0x0302 => 3
  | 0x0701 => if (args.drop 1).head? = some 2 then 0 else 1
  | _ => 2

/-- One entry is written and LOGNEXT advances (R364, R365). -/
def State.logWrite (s : State) (fp : Fin 9) (lt point : Nat) (args : List Nat) : State :=
  let n := s.fw.logNext
  let bytes := leBytes 8 lt ++ leBytes 4 (fp.val * 2 ^ 28 + traceLevel point args * 2 ^ 24 + point) ++ leBytes 4 n.toNat ++
    (List.range 4).flatMap (fun i => leBytes 4 (args.getD i 0))
  let s := s.store (s.fixed.logBase + n.toNat % s.fixed.logSize * 32) bytes
  ({ s with fw := { s.fw with logNext := n + 1 } }).store32 (dirBase + 0x1C) (n + 1)

/-- A trace point of a processor (8: the management core). While FP7 does not run, entries of other processors wait in
buffers of 256 entries, and overflow counts in FW_LOGDROP (R362). -/
def State.trace (s : State) (fp : Fin 9) (point : Nat) (args : List Nat) : State :=
  if 2 ≤ traceLevel point args ∧ !s.fw.traceMask.getLsbD (point / 256 % 16) then s
  else if s.fpRuns 7 then s.logWrite fp s.now point args
  else
    let h := s.fw.logHeld.get fp []
    if h.length < 256 then { s with fw := { s.fw with logHeld := s.fw.logHeld.set fp (h ++ [(s.now, point, args)]) } }
    else s.count .fw 0 Reg.FW_LOGDROP 1

end Sys2Proof.Machine
end

