-- ==== Sys2Proof/Machine/SchedOps.lean ====
section
/-! DEFINITION. Shared operations over wheels, partitions and jobs (R251 to R301). -/

namespace Sys2Proof.Machine

/-! ### Wheels -/

def Wheel.going (x : Wheel) : Bool := x.st == .running || x.st == .freeRun

/-- Frames from `b` to `a`, signed (frame numbers wrap, R262). -/
def frameDiff (a b : Word) : Int := (a - b).toInt

/-- Phase `ph` of frame `fr` has passed: its tick has begun (R111, R155, R254; log entry 8). -/
def Wheel.passed (x : Wheel) (fr : Word) (ph : Nat) : Bool :=
  x.begun && (decide (0 < frameDiff x.frame fr) || (x.frame == fr && decide (ph ≤ x.phase.toNat)))

/-- A moment of a wheel in the encoding of R263 relative to job frame `n`. -/
def Wheel.encode (x : Wheel) (n : Word) : BitVec 17 :=
  if x.frame = n then x.phase.setWidth 17 else BitVec.ofNat 17 (0x10000 + x.phase.toNat)

/-! ### Partitions -/

def State.part (s : State) (p : Fin 32) : Option Part := s.sched.parts.get? p
def State.setPart (s : State) (p : Fin 32) (x : Part) : State :=
  { s with sched := { s.sched with parts := s.sched.parts.set p x } }

def PRec.coreList (r : PRec) : List CoreId := r.cl.cores.filter (fun c => r.cores.getLsbD c.k)

/-- A pair in paired mode counts as one core: its primary (R265). A partition that does not ask for paired mode has no such pair. -/
def PRec.leads (paired : Bool) (r : PRec) : List CoreId :=
  r.coreList.filter (fun c => c.isPrimary || !(paired && r.pairs.getLsbD (c.k.val / 2)))

def Part.cores (p : Part) : List CoreId := p.recs.flatMap PRec.coreList
def Part.has (p : Part) (c : CoreId) : Bool := p.cores.contains c

/-- Cluster records of a kind's range (R269). -/
def Part.kindRecs (p : Part) (k : Kind) : List PRec := (p.recs.drop k.firstRec).take (k.lastRec + 1 - k.firstRec)
def Part.kindCores (p : Part) (k : Kind) : List CoreId := (p.kindRecs k).flatMap (PRec.leads p.paired)
def Part.kind (p : Part) (k : Fin 32) : Option Kind := p.kinds.find? (fun x => x.num == k)
def Part.setKind (p : Part) (k : Kind) : Part := { p with kinds := p.kinds.map (fun x => if x.num = k.num then k else x) }

/-- The lead: the cluster of the first record (R267). -/
def Part.lead (p : Part) : ClusterId := ((p.recs.map (·.cl)).head?).getD ⟨0, 0⟩

/-- The partition that holds a core. -/
def State.partOf (s : State) (c : CoreId) : Option (Fin 32 × Part) := s.sched.parts.find? (fun e => e.2.has c)

/-- Partitions bound to a wheel (R260). -/
def State.boundParts (s : State) (w : Fin 4) : List (Fin 32 × Part) := s.sched.parts.filter (fun e => e.2.wheel == w)

/-! ### Jobs -/

/-- The launched job of a core whose record is not final. -/
def State.jobOf (s : State) (c : CoreId) : Option Job :=
  s.sched.jobs.find? (fun j => j.out == .empty && j.running.contains c)

def Job.same (a b : Job) : Bool := a.part == b.part && a.kind == b.kind && a.num == b.num && a.queued == b.queued

def State.setJob (s : State) (j : Job) : State :=
  { s with sched := { s.sched with jobs := s.sched.jobs.map (fun x => if x.same j then j else x) } }

def State.acct (s : State) (ctx : BitVec 12) : Acct := s.sched.acct.get ctx Acct.zero

/-- The accounting record of a context, as it stands in memory (R297). -/
def Acct.bytes (a : Acct) : List Byte :=
  [a.launched, a.done, a.aborted, a.missed, a.late, a.preempts, a.fwpreempts, a.qwaitmax].flatMap (fun w => leBytes 4 w.toNat) ++
    [a.qwaitsum, a.preemptns, a.corecyc, a.arrbusy].flatMap (fun w => leBytes 8 w.toNat)

/-- The record in Vehicle-die memory follows the counts of a context (R297). -/
def State.syncAcct (s : State) (ctx : BitVec 12) : State := s.store (s.fixed.acctBase + ctx.toNat * 64) (s.acct ctx).bytes

def State.setAcct (s : State) (ctx : BitVec 12) (f : Acct → Acct) : State :=
  ({ s with sched := { s.sched with acct := s.sched.acct.set ctx (f (s.acct ctx)) } }).syncAcct ctx

/-- Saturating add (R297). -/
def satAdd {w : Nat} (a : BitVec w) (n : Nat) : BitVec w :=
  if a.toNat + n < 2 ^ w then BitVec.ofNat w (a.toNat + n) else BitVec.allOnes w

/-- CAD_ERRINFO of a partition, kind and core (R299). -/
def cadInfo (p k c : Nat) : Nat := p * 2 ^ 24 + k * 2 ^ 16 + c

/-- PARTID and KIND of a job, as trace points give them (R366). -/
def Job.name (j : Job) : Nat := j.part.val * 256 + j.kind.val

/-- A late event on a core (R287, R366): counted, reported, traced by FP2, and set in the job's record. -/
def State.lateEvent (s : State) (c : CoreId) : State :=
  let s := s.count .cad c.cl.inst Reg.CAD_LATECNT 1
  match s.jobOf c with
  | some j =>
    let s := (s.raise .cad c.cl.inst 2 0 (cadInfo j.part j.kind c.k)).trace 2 0x0304 [j.name, j.num.toNat, c.inst]
    (s.setJob { j with late := true, lateCore := c.inst }).setAcct j.ctx (fun a => { a with late := satAdd a.late 1 })
  | none => (s.raise .cad c.cl.inst 2 0 (cadInfo 0 0 c.k)).trace 2 0x0304 [0, 0, c.inst]

/-- The kind that carries the accord slot of a core (R275, R289). -/
def Part.slotKind (p : Part) (c : CoreId) : Option Kind :=
  p.kinds.find? (fun k => k.accPhase != 0xFFFF && (p.kindRecs k).any (fun r => r.coreList.contains c))

/-- The frames in which a kind's accord slot is checked: from its first launch after the arm, and while it is disarmed the frame of its
last launch (R289). -/
def Kind.slotLive (k : Kind) (n : Word) : Bool := (k.armed && decide (0 ≤ frameDiff n k.armFrame)) || k.lastFrame == some n

/-- Whether a wheel's present phase lies in a kind's accord slot. -/
def Kind.inSlot (k : Kind) (ph : BitVec 16) : Bool :=
  decide (k.accPhase.toNat ≤ ph.toNat) && decide (ph.toNat < k.accPhase.toNat + k.accLen)

/-- ACCSLIP of a core (R289, R290, R414). -/
def State.accslip (s : State) (c : CoreId) (p k : Nat) : State :=
  { s.raise .cad c.cl.inst 3 0 (cadInfo p k c.k) with chk := { s.chk with slips := s.chk.slips.filter (· != c) ++ [c] } }

/-- An ACCORD begins on a core: its frame and phase are kept, and outside its slot ACCSLIP is set (R289). -/
def State.accordBegin (s : State) (c : CoreId) : State :=
  let s := { s with chk := { s.chk with begun := s.chk.begun.set c s.now, slips := s.chk.slips.filter (· != c) } }
  match s.partOf c with
  | some (pid, p) =>
    let wh := s.wheel p.wheel
    let s := (s.setReg .cad c.cl.inst (Reg.CAD_ACCFRMk c.k) wh.frame).setReg .cad c.cl.inst (Reg.CAD_ACCPHk c.k)
      (wh.phase.setWidth 32)
    match p.slotKind c with
    | some k => if k.slotLive wh.frame && !k.inSlot wh.phase then s.accslip c pid k.num else s
    | none => s
  | none =>
    let w : Fin 4 := Fin.ofNat 4 (s.fld .cad c.cl.inst Reg.CAD_IDLEACC 17 16)
    let wh := s.wheel w
    (s.setReg .cad c.cl.inst (Reg.CAD_ACCFRMk c.k) wh.frame).setReg .cad c.cl.inst (Reg.CAD_ACCPHk c.k)
      (wh.phase.setWidth 32)

end Sys2Proof.Machine
end

