-- ==== Sys2Proof/Machine/Tiles.lean ====
section
/-! DEFINITION. Pairings, tile shapes and element formats of the MAC array (R55, R64, R88, R89, R162, R165, R166, R170). -/

namespace Sys2Proof.Machine

/-- Whether R64 lists the pairing and, when sparse, marks it as sparse (R165). Codes are those of R162. -/
def WTag.valid (t : WTag) : Bool :=
  let a := t.af.val
  let b := t.wf.val
  let mx (x : Nat) := decide (4 ≤ x) && decide (x ≤ 7)
  let fp6 (x : Nat) := x == 5 || x == 6
  (decide (a < 2) && decide (b < 2))
    || ((a == 2 || a == 3) && (b == 2 || b == 3))
    || (mx a && mx b && !(t.sp && (fp6 a || fp6 b)))
    || ((a == 8 || a == 9) && a == b && !t.sp)

/-- Bits of an element of an array format. -/
def fmtBits (f : Nat) : Nat := if f = 1 ∨ f = 7 then 4 else if f = 5 ∨ f = 6 then 6 else if f = 8 ∨ f = 9 then 16 else 8

def isMX (f : Nat) : Bool := decide (4 ≤ f) && decide (f ≤ 7)

/-- K rows of the dense shape, and of the tile (R165). -/
def WTag.ktDense (t : WTag) : Nat :=
  if t.af.val ≥ 8 then 32 else if fmtBits t.af = 4 ∧ fmtBits t.wf = 4 then 128 else 64
def WTag.kt (t : WTag) : Nat := if t.sp then 2 * t.ktDense else t.ktDense

/-- Accumulator mode of a pairing (R64, R94). -/
def WTag.mode (t : WTag) : AccMode := if t.af.val < 2 then .int else .fp

/-- Lines of the three parts of a tile (R166). -/
def WTag.dataLines (t : WTag) : Nat := t.ktDense * fmtBits t.wf / 8
def WTag.scaleLines (t : WTag) : Nat := if isMX t.wf then t.kt / 32 else 0
def WTag.metaLines (t : WTag) : Nat := if t.sp then t.kt / 8 else 0

/-- Bytes and lines of an activation row (R88, R89, R170). -/
def WTag.rowBytes (t : WTag) : Nat := t.kt * fmtBits t.af / 8
def WTag.rowLines (t : WTag) : Nat := (t.rowBytes + 63) / 64

/-- A range lies in the core's own local store, or in its own cluster store (R17). -/
def inOwnLs (c : CoreId) (a n : Nat) : Bool := decide (lsBase c ≤ a) && decide (a + n ≤ lsBase c + 0x100000)
def inOwnCs (c : CoreId) (a n : Nat) : Bool := decide (csBase c.cl ≤ a) && decide (a + n ≤ csBase c.cl + 0x1000000)

/-- Two byte ranges meet. -/
def overlaps (a n b m : Nat) : Bool := decide (a < b + m) && decide (b < a + n)

/-- Address of activation row `i` (R169). -/
def StreamOp.rowAddr (o : StreamOp) (i : Nat) : Addr := o.xa + BitVec.ofInt 48 (o.stride.toInt * i)

/-- Whether a queued stream instruction will read some byte of a range (R132, R171). -/
def StreamOp.reads (o : StreamOp) (t : WTag) (a n : Nat) : Bool :=
  (List.range o.m).any (fun i => overlaps (o.rowAddr i).toNat (t.rowLines * 64) a n)
    || (isMX t.af && overlaps o.xb.toNat (o.m * (t.kt / 32)) a n)

/-- The pairings that a buffer may have when a queued stream instruction starts: the loaded one, and those of the WLDs in the weight-port
queue (R90, R160). -/
def CoreState.tagsOf (x : CoreState) (wb : Fin 2) : List WTag :=
  (x.wb.get wb WBuf.empty).tag.toList ++ (x.unitQ.filter (fun q => q.op == 0x88 && tWB q.w == wb)).map (fun q => tTag q.w)

/-- The pairing that a stream instruction issued now will find. -/
def CoreState.tagAt (x : CoreState) (wb : Fin 2) : Option WTag := (x.tagsOf wb).getLast?

/-- Whether some queued stream instruction of a core reads a range: a later store to it waits. -/
def CoreState.streamReads (x : CoreState) (a n : Nat) : Bool := x.streamQ.any (fun o => (x.tagsOf o.wb).any (fun t => o.reads t a n))

/-- Stream instructions that write an accumulator row of a range, or use a weight buffer. -/
def writesRows (qs : List StreamOp) (bk : Fin 2) (r n : Nat) : Bool :=
  qs.any (fun o => o.bk == bk && decide (o.row < r + n) && decide (r < o.row + o.m))
def usesBuf (qs : List StreamOp) (wb : Fin 2) : Bool := qs.any (fun o => o.wb == wb)

/-! ### Unit queues (R101, R160) -/

/-- An instruction of a unit waits for stream instructions before it: WLD for the last use of its buffer (R90), AMV and AMVW for the rows
that they touch (R96, R173), ASTEP for an AVAC that still reads its correction register. -/
def unitBlocked (op : Nat) (w : BitVec 56) (qs : List StreamOp) : Bool :=
  match op with
  | 0x88 => usesBuf qs (tWB w)
  | 0x90 => writesRows qs (Fin.ofNat 2 (bitsOf w 7 7)) (bitsOf w 6 0) (vNM w + 1)
  | 0x91 => writesRows qs (Fin.ofNat 2 (bitsOf w 7 7)) (bitsOf w 6 0) 1
  | 0xC1 => qs.any (fun o => o.avac && !o.ow && o.cv == Fin.ofNat 4 (bitsOf w 9 8))
  | _ => false

/-- Every unit queue is empty (R151). -/
def CoreState.unitsIdle (x : CoreState) : Bool := x.streamQ.isEmpty && x.unitQ.isEmpty

/-- An instruction of a unit joins the unit's queue of depth 4 when it has to wait or others wait there; else it starts. -/
def State.queued (s : State) (c : CoreId) (op : Nat) (w : BitVec 56) (r : Issue) : Issue :=
  let x := s.core c
  match unitOf op with
  | none => r
  | some u =>
    let mine := x.unitQ.filter (fun q => q.unit == u)
    if mine.isEmpty && !unitBlocked op w x.streamQ then r
    else if 4 ≤ mine.length then .stall s
    else .ok (s.putCore c { x with unitQ := x.unitQ ++ [⟨u, op, w, x.pc, x.s, x.a, x.streamQ.length⟩] })

/-- A well-formed instruction of a unit goes to its queue. -/
def State.unit (s : State) (c : CoreId) (op : Nat) (w : BitVec 56) (ok : Bool) (r : Issue) : Issue := s.legal c ok (s.queued c op w r)

/-- A register operand of a queued instruction, as it was at issue. -/
def UOp.getA (q : UOp) (i : Nat) : Nat := (q.a.get (Fin.ofNat 16 i) 0).toNat

/-- The parts of a tile that a WLD reads: bases and lines (R166). -/
def tileParts (t : WTag) (a b c : Addr) : List (Addr × Nat) := [(a, t.dataLines), (b, t.scaleLines), (c, t.metaLines)]

/-- Ranges of the local store that a queued instruction reads, or writes (R166, R191). -/
def UOp.memReads (q : UOp) : List (Nat × Nat) :=
  if q.op = 0x88 ∧ bitOf q.w 7 = false then
    (tileParts (tTag q.w) (q.a.get (Fin.ofNat 16 (tXA q.w)) 0) (q.a.get (Fin.ofNat 16 (tXB q.w)) 0) (q.a.get (Fin.ofNat 16 (tXC q.w)) 0)).map
      (fun x => (x.1.toNat, 64 * x.2))
  else if q.op = 0xC9 then [(q.getA (tXA q.w), 2048)] else []
def UOp.memWrites (q : UOp) : List (Nat × Nat) := if q.op = 0xCA then [(q.getA (tXA q.w), 2048)] else []

/-- A queued instruction still has to write, or to read, some byte of a range: a later access to it waits (R132). -/
def CoreState.unitWrites (x : CoreState) (a n : Nat) : Bool := x.unitQ.any (fun q => q.memWrites.any (fun m => overlaps m.1 m.2 a n))
def CoreState.unitReads (x : CoreState) (a n : Nat) : Bool := x.unitQ.any (fun q => q.memReads.any (fun m => overlaps m.1 m.2 a n))

end Sys2Proof.Machine
end

