-- ==== Sys2Proof/Machine/BenvorSync.lean ====
section
/-! DEFINITION. Benvor DMA, signal, barrier, fence, phase, accord and end instructions (R144 to R158). -/

namespace Sys2Proof.Machine

/-- A channel asked to stop (R110, R144): an active one stops after its current beat, any other at once; a stop of the job leaves one in
its error state there. Its queue is emptied. -/
def Chan.stop (h : Chan) (toStopped : Bool) : Chan :=
  let h := { h with queue := [] }
  match h.st with
  | .active => { h with stopping := some toStopped }
  | .error => if toStopped then { h with st := .stopped } else h
  | _ => { h with st := if toStopped then .stopped else .idle, head := none }

/-- DMAGO (R144): the chain waits in its channel's queue of depth 4; a stopped channel runs again (R110). -/
def execDmago (c : CoreId) (w : BitVec 56) (s : State) : Out :=
  let x := s.core c
  let v := if iF w then bitsOf (x.getS (iRS1 w)) 19 0 else iVAL w
  let h := Chan.get x (iCH w)
  .next (s.issue c 0x38 w (s.legal c (rsvS w && v % 64 == 0)
    (if h.queue.length < 4 then
      .ok (s.putCore c (x.modChan (iCH w) (fun h =>
        { h with queue := h.queue ++ [BitVec.ofNat 20 v], st := if h.st = .stopped then .idle else h.st })))
     else .stall s)))

/-- DMASTOP (R144). -/
def execDmastop (c : CoreId) (w : BitVec 56) (s : State) : Out :=
  .next (s.issue c 0x39 w (s.legal c (rsvS w) (.ok (s.putCore c ((s.core c).modChan (iCH w) (fun h => h.stop true))))))

/-- SIGWAIT (R144, R146): unsigned comparison; a consuming wait subtracts. -/
def execSigwait (c : CoreId) (w : BitVec 56) (s : State) : Out :=
  let x := s.core c
  let n : BitVec 16 := if iF w then (x.getS (iRS1 w)).setWidth 16 else BitVec.ofNat 16 (iVAL w)
  let have_ := s.sig c (iSID w)
  .next (s.issue c 0x3A w (s.legal c (rsvS w && bitsOf w 19 16 == 0)
    (if n ≤ have_ then .ok (if iC w then s.setSig c (iSID w) (have_ - n) else s)
     else .stay (s.putCore c (x.waits (.sig (iSID w) n (iC w)))))))

/-- SIGPOST (R144, R147, R150): ACCESS with the instruction's address for a disabled core (R131). -/
def execSigpost (c : CoreId) (w : BitVec 56) (s : State) : Out :=
  let n : BitVec 16 := if iF w then ((s.core c).getS (iRS1 w)).setWidth 16 else BitVec.ofNat 16 (iVAL w)
  let t : CoreId := ⟨c.cl, iCH w⟩
  .next (s.issue c 0x3B w (s.legal c (rsvS w)
    (if !s.coreEnabled t then .exc xACCESS (s.pcAddr c) else .ok (s.sigAdd t (iSID w) n))))

/-- A mask names enabled cores only. -/
def State.maskEnabled (s : State) (cl : ClusterId) (m : BitVec 8) : Bool :=
  cl.cores.all (fun c => !m.getLsbD c.k || s.coreEnabled c)

/-- BAR (R148): the first arrival fixes the slot's mask; the last arrival releases every participant with 0. -/
def execBar (c : CoreId) (w : BitVec 56) (s : State) : Out :=
  let slot : Fin 16 := Fin.ofNat 16 (iVAL w)
  let m := iMASK w
  let held := s.bars.get (c.cl, slot) none
  let maskOk := match held with
    | some b => b.mask == m
    | none => true
  .next (s.issue c 0x3C w (s.legal c
    (rsvS w && bitsOf w 19 4 == 0 && m.getLsbD c.k && s.maskEnabled c.cl m && maskOk)
    (let b : BarSlot := match held with
        | some b => { b with arrived := b.arrived ||| (1#8 <<< c.k.val) }
        | none => ⟨m, 1#8 <<< c.k.val⟩
     let s1 := { s with bars := s.bars.set (c.cl, slot) (some b) }
     let s2 := s1.putCore c ((s1.core c).waits (.bar slot (Fin.ofNat 32 (iRD w))))
     if b.arrived = b.mask then .own (s2.barRelease c.cl slot 0) else .stay s2)))

/-- FENCE (R151): kinds 2 and 3 stall until every unit queue is empty. Kind 1 orders accesses that this model makes in
program order already. -/
def execFence (c : CoreId) (w : BitVec 56) (s : State) : Out :=
  let k := bitsOf w 1 0
  .next (s.issue c 0x3D w (s.legal c (rsvS w && k != 0 && bitsOf w 19 2 == 0)
    (if 2 ≤ k ∧ !(s.core c).unitsIdle then .stall s else .ok s)))

/-- Posted writes of a core whose outcome is still to come (R152, R158). -/
def State.postedOf (s : State) (c : CoreId) : List Tx :=
  s.fab.tx.filter (fun t => !t.isRead && t.src.die == c.die8 && t.src.agent == c.agent && !t.src.fw)

/-- The posted writes that a PWB waits for: those whose descriptor had completed when it issued (R112, R152). -/
def State.covered (s : State) (c : CoreId) : List Nat :=
  (s.core c).pwb.getD (((s.postedOf c).filter (·.signalled)).map (·.id))

/-- PWB (R152, R153): stalls until every posted write that it covers has its outcome, then takes the failure count. -/
def execPwb (c : CoreId) (w : BitVec 56) (s : State) : Out :=
  let x := s.core c
  .next (s.issue c 0x3E w (s.legal c (rsvS w)
    (if (s.postedOf c).any (fun t => (s.covered c).contains t.id) then .stall (s.putCore c { x with pwb := some (s.covered c) })
     else .ok (s.putCore c ({ x with failCount := 0 }.setS (iRD w) x.failCount)))))

/-- PWAIT (R154, R155): a phase already passed gives 1 and a late event, otherwise the core waits for its tick. -/
def execPwait (c : CoreId) (w : BitVec 56) (s : State) : Out :=
  let x := s.core c
  let r := x.getS (iRS1 w)
  let t := if iF w then bitsOf r 16 0 else bitsOf w 16 0
  let wh := s.wheel (iWH w)
  let n := x.jobFrame.get (iWH w) 0
  let fr := if t < 0x10000 then n else n + 1
  .next (s.issue c 0x3F w (s.legal c
    (rsvS w && (if iF w then bitsOf r 31 17 == 0 else bitsOf w 19 17 == 0) && decide (t ≤ 0x13FFF) && wh.going)
    (if wh.passed fr (t % 0x10000) then .ok ((s.lateEvent c).putCore c (x.setS (iRD w) 1))
     else .stay (s.putCore c (x.waits (.phase (iWH w) fr (BitVec.ofNat 16 t) (Fin.ofNat 32 (iRD w))))))))

/-- ACCORD (R157): waits for the unit queues as FENCE kind 2, then the reference program runs and no instruction issues. -/
def execAccord (c : CoreId) (w : BitVec 56) (s : State) : Out :=
  let x := s.core c
  .next (s.issue c 0x40 w (s.legal c (rsvS w)
    (if !x.unitsIdle then .stall s
     else .stay ((s.putCore c (x.waits (.accord (Fin.ofNat 32 (iRD w))))).accordBegin c))))

/-- A channel that END and ERRSTOP need not wait for (R110, R158). -/
def Chan.settled (h : Chan) : Bool := h.st == .error || h.st == .stopped || (h.st == .idle && h.queue.isEmpty && h.head.isNone)
def CoreState.chansSettled (x : CoreState) : Bool := (List.finRange 8).all (fun i => (Chan.get x i).settled)

/-- END (R158): waits for queues, channels and posted writes, then gives the notice with the failures not collected. -/
def execEnd (c : CoreId) (w : BitVec 56) (s : State) : Out :=
  let x := s.core c
  .next (s.issue c 0x41 w (s.legal c (rsvS w)
    (if !x.unitsIdle ∨ !x.chansSettled ∨ s.postedOf c ≠ [] then .stall s
     else
      let wh := s.wheel x.jobWheel
      let y : CoreState := { x.leave with
        run := false, ended := true, endLt := s.now, endFails := x.failCount, failCount := 0, pc := (s.reg .tc c.inst Reg.TC_ENTRY).setWidth 20 }
      .own ((s.putCore c y).setReg .cad c.cl.inst (Reg.CAD_ENDPHk c.k) ((wh.encode (x.jobFrame.get x.jobWheel 0)).setWidth 32)))))

end Sys2Proof.Machine
end

