-- ==== Sys2Proof/Machine/Cache.lean ====
section
/-! DEFINITION. The caches of the application CPU complex (R470, R499, R502 to R507). The shared cache is the point of coherence, so an
access finds the newest bytes; what the caches add are lines, ways and errors. Log entry 117. -/

namespace Sys2Proof.Machine

/-- The application CPU of a requester (R498), and its hart state. -/
def Src.hart (src : Src) : Option (Fin 16) :=
  if !src.fw && src.die == 6 && decide (16 ≤ src.agent.toNat) && decide (src.agent.toNat < 32) then some (Fin.ofNat 16 src.agent.toNat) else none

/-- Ways of the normal world (R504). -/
def State.normalWays (s : State) : BitVec 16 := BitVec.ofNat 16 (2 ^ (16 - s.fixed.trustedWays) - 1)
def State.hart (s : State) (h : Fin 16) : Hart := s.cpu.harts.get h (Hart.reset s.normalWays 0)
def State.setHart (s : State) (h : Fin 16) (x : Hart) : State := { s with cpu := { s.cpu with harts := s.cpu.harts.set h x } }

/-! ### Lines -/

/-- Sets and ways of a cache (R502), 64-byte lines. -/
def CacheAt.sets : CacheAt → Nat
  | .shared => 16384
  | .l1i _ | .l1d _ => 256
  | .l2 _ => 2048
def CacheAt.ways : CacheAt → Nat
  | .shared => 16
  | .l1i _ | .l1d _ => 4
  | .l2 _ => 8

/-- The caches below a private cache, nearest first. -/
def CacheAt.below : CacheAt → List CacheAt
  | .l1d c | .l1i c => [.l2 c, .shared]
  | .l2 _ => [.shared]
  | .shared => []

/-- The CPU of a private cache. -/
def CacheAt.cpu : CacheAt → Option (Fin 16)
  | .l1i c | .l1d c | .l2 c => some c
  | .shared => none

def State.setLines (s : State) (l : List CLine) : State := { s with cpu := { s.cpu with lines := l } }

/-- The line of an address in a cache; a line never crosses worlds (R505). -/
def State.lineAt (s : State) (c : CacheAt) (world : Bool) (a : Nat) : Option CLine :=
  s.cpu.lines.find? (fun x => x.cache == c && x.world == world && x.addr == a)

def State.dropLine (s : State) (x : CLine) : State :=
  s.setLines (s.cpu.lines.filter (fun y => !(y.cache == x.cache && y.world == x.world && y.addr == x.addr)))
def State.putLine (s : State) (x : CLine) : State := (s.dropLine x).setLines ((s.dropLine x).cpu.lines ++ [x])

/-- A line leaves a cache: its changes go to the next cache below that holds the address, or to memory. -/
def State.writeDown (s : State) (x : CLine) : State :=
  let s := s.dropLine x
  match x.dirty, (x.cache.below.filterMap (fun c => s.lineAt c x.world x.addr)).head? with
  | some b, some y => if y.dirty.isSome then s else s.putLine { y with dirty := some b }
  | _, _ => s

/-- A line is lost with its changes: where no cache above holds newer bytes, memory reads as the level below has it. -/
def State.loseLine (s : State) (x : CLine) : State :=
  let s := s.dropLine x
  match x.dirty, s.cpu.lines.find? (fun y => y.world == x.world && y.addr == x.addr && y.dirty.isSome && y.cache.below.contains x.cache) with
  | some b, some y => s.putLine { y with dirty := some b }
  | some b, none => { s with mem := memWrite s.mem x.addr b }
  | none, _ => s

/-- Private copies of an address, those nearest a CPU first. -/
def State.copies (s : State) (world : Bool) (a : Nat) : List CLine :=
  let l := s.cpu.lines.filter (fun x => x.world == world && x.addr == a)
  l.filter (fun x => match x.cache with
    | .l1i _ | .l1d _ => true
    | _ => false) ++ l.filter (fun x => match x.cache with
    | .l2 _ => true
    | _ => false)

/-- A line leaves the shared cache, and with it every private copy: the shared cache is inclusive. -/
def State.evict (s : State) (x : CLine) : State :=
  let s := if x.cache = .shared then (s.copies x.world x.addr).foldl (fun s y => s.writeDown ((s.lineAt y.cache y.world y.addr).getD y)) s else s
  s.writeDown ((s.lineAt x.cache x.world x.addr).getD x)

/-- A line is allocated in one of the allowed ways of its set: a free one, or the one that a free value picks (the replacement is not
stated). -/
def State.allocate (s : State) (c : CacheAt) (world : Bool) (a : Nat) (ways : BitVec 16) : State :=
  if (s.lineAt c world a).isSome then s
  else
    let allowed := (List.finRange 16).filter (fun w => decide (w.val < c.ways) && ways.getLsbD w.val)
    let here := s.cpu.lines.filter (fun x => x.cache == c && x.addr / 64 % c.sets == a / 64 % c.sets && allowed.contains x.way)
    match allowed.find? (fun w => !here.any (fun x => x.way == w)) with
    | some w => s.putLine ⟨c, a, w, world, none, none⟩
    | none =>
      let (v, s) := s.freeWord
      match here[v.toNat % here.length]? with
      | some x => (s.evict x).putLine ⟨c, a, x.way, world, none, none⟩
      | none => s

/-! ### Errors (R507) -/

/-- An access meets a line: a correctable error, or one in a clean line, which is invalidated and refetched, is class C and counted; an
uncorrectable one in a dirty line loses the line, and its address is recorded. -/
def State.lineError (s : State) (pair : Nat) (x : CLine) : State × Bool :=
  let bit := if x.cache = .shared then 0 else 2
  let at_ := pair * 2 ^ 48 + x.addr
  match x.err, x.dirty with
  | none, _ => (s, false)
  | some .double, some _ => ((s.loseLine x).raise .cpu 0 (bit + 1) at_ 0, true)
  | some _, _ => (((s.putLine { x with err := none }).count .cpu 0 Reg.CPU_CECNT 1).raise .cpu 0 bit at_ 0, false)

/-! ### Accesses -/

/-- Memory of the Vehicle-die window while the shared cache has power: what CPUs cache, and the shared cache serves (R24, R503). -/
def State.cacheable (s : State) (a : Nat) : Bool :=
  s.on.getLsbD 91 && (match s.target a with
    | .dram d => d == 6
    | .vsram _ => true
    | _ => false)

/-- Ways of the shared cache in which a hart's request allocates (R470, R504): its world's, and those of HXWAY for a guest. -/
def State.hartWays (s : State) (h : Fin 16) (src : Src) : BitVec 16 :=
  if src.world then ~~~s.normalWays else if src.ctx = 0 then s.normalWays else (s.hart h).way &&& s.normalWays

/-- The CPUs whose private caches a hart's accesses fill: in lock mode the checker's mirror the main's (R502). -/
def State.hartCpus (s : State) (h : Fin 16) : List (Fin 16) :=
  if s.fixed.cpuLock.getLsbD (h.val / 2) then [⟨h.val / 2 * 2, by omega⟩, ⟨h.val / 2 * 2 + 1, by omega⟩] else [h]

/-- The caches at one line of an access, and whether the line was lost: errors of the copies that it meets first, then a hart's line comes
in, and a write ends every other private copy (R503, R507). -/
def State.cachedLine (s : State) (src : Src) (write : Bool) (a : Nat) : State × Bool :=
  let cpus := match src.hart with
    | some h => s.hartCpus h
    | none => []
  let pair := ((src.hart).map (fun h => h.val / 2)).getD 0
  let mine (c : CacheAt) : Bool := match c.cpu with
    | some k => cpus.contains k
    | none => false
  let met := (s.copies src.world a).filter (fun x => mine x.cache || x.dirty.isSome) ++ (s.lineAt .shared src.world a).toList
  let (s, lost) := met.foldl (fun (r : State × Bool) x =>
    if r.2 then r
    else match r.1.lineAt x.cache x.world x.addr with
      | some y => r.1.lineError pair y
      | none => r) (s, false)
  if lost then (s, true)
  else
    let s := match src.hart with
      | some h =>
        let s := s.allocate .shared src.world a (s.hartWays h src)
        if (s.lineAt .shared src.world a).isSome then
          cpus.foldl (fun (s : State) k => (s.allocate (.l2 k) src.world a 0xFF).allocate (.l1d k) src.world a 0xF) s
        else s
      | none => s
    if !write then (s, false)
    else
      let s := ((s.copies src.world a).filter (fun x => !mine x.cache)).foldl (fun s x => s.writeDown x) s
      let old := s.load a 64
      (cpus.foldl (fun (s : State) k => match s.lineAt (.l1d k) src.world a with
        | some x => if x.dirty.isSome then s else s.putLine { x with dirty := some old }
        | none => s) s, false)

/-- The caches at an access to memory, and whether one of its lines was lost. -/
def State.cached (s : State) (src : Src) (a n : Nat) (write : Bool) : State × Bool :=
  if s.cacheable a && (src.hart.isSome || !s.cpu.lines.isEmpty) then
    (List.range ((a + n + 63) / 64 - a / 64)).foldl (fun (r : State × Bool) i =>
      let t := r.1.cachedLine src write ((a / 64 + i) * 64)
      (t.1, r.2 || t.2)) (s, false)
  else (s, false)

/-! ### Whole caches -/

/-- The private caches of a pair are written back (R499). -/
def State.flushPair (s : State) (p : Fin 8) : State :=
  (s.cpu.lines.filter (fun x => (x.cache.cpu.map (fun k => k.val / 2 == p.val)).getD false)).foldl (fun s x =>
    s.writeDown ((s.lineAt x.cache x.world x.addr).getD x)) s

/-- The private caches of a pair are empty: changes not written back are lost (R499, R505). -/
def State.emptyPair (s : State) (p : Fin 8) : State :=
  (s.cpu.lines.filter (fun x => (x.cache.cpu.map (fun k => k.val / 2 == p.val)).getD false)).foldl (fun s x => s.loseLine x) s

/-- The shared cache loses power, and with it every line. -/
def State.emptyCaches (s : State) : State := s.cpu.lines.foldl (fun s x => s.loseLine x) s

/-- Every line of a range is invalidated without write-back, private copies with it (R506). -/
def State.invalidate (s : State) (a n : Nat) : State :=
  (s.cpu.lines.filter (fun x => decide (a ≤ x.addr) && decide (x.addr < a + n))).foldl (fun s x => s.loseLine x) s

end Sys2Proof.Machine
end

