-- ==== Sys2Proof/Machine/Shares.lean ====
section
/-! DEFINITION. Share arbiters of memory controllers and die ports (R212 to R216). -/

namespace Sys2Proof.Machine

/-- Share entries of an arbiter: VALID with its source range, MINSHARE, WEIGHT and classes. Entry 31 is fixed. -/
def State.shSrc (s : State) (b : Blk) (i : Nat) (e : Fin 32) : Word := s.reg b i (Reg.MC_SHSRCe e)
def State.shCfg (s : State) (b : Blk) (i : Nat) (e : Fin 32) : Word := s.reg b i (Reg.MC_SHCFGe e)
def State.minShare (s : State) (b : Blk) (i : Nat) (e : Fin 32) : Nat := bitsOf (s.shCfg b i e) 15 8
def State.weight (s : State) (b : Blk) (i : Nat) (e : Fin 32) : Nat := bitsOf (s.shCfg b i e) 7 0

/-- Entry `e` matches a request (R213). -/
def State.shMatch (s : State) (b : Blk) (i : Nat) (e : Fin 32) (src : Src) : Bool :=
  let x := s.shSrc b i e
  bitOf x 31 && (bitOf x 30 || bitsOf x 29 27 == src.die.val) && decide (bitsOf x 9 0 ≤ src.agent.toNat) &&
    decide (src.agent.toNat ≤ bitsOf x 19 10) && bitOf (s.shCfg b i e) (24 + src.cls.val)

/-- The lowest-numbered matching entry takes the request (R213). -/
def State.shEntry (s : State) (b : Blk) (i : Nat) (src : Src) : Fin 32 :=
  ((List.finRange 32).find? (fun e => s.shMatch b i e src)).getD 31

/-- Sum of MINSHARE over the valid entries (R215). -/
def State.shSum (s : State) (b : Blk) (i : Nat) : Nat :=
  ((List.finRange 31).map (fun e =>
    let e : Fin 32 := ⟨e.val, by omega⟩
    if bitOf (s.shSrc b i e) 31 then s.minShare b i e else 0)).foldl (· + ·) 0

def State.shUse (s : State) (b : Blk) (i : Nat) (e : Fin 32) : ShareUse := s.fab.share.get (b == .dp, i, e) ⟨0, 0⟩
def State.setShUse (s : State) (b : Blk) (i : Nat) (e : Fin 32) (u : ShareUse) : State :=
  { s with fab := { s.fab with share := s.fab.share.set (b == .dp, i, e) u } }

/-- The element with the largest value of a function; of equals the first. -/
def argMax (f : Fin 32 → Int) : List (Fin 32) → Option (Fin 32)
  | [] => none
  | a :: t => match argMax f t with
    | none => some a
    | some b => if f b ≤ f a then some a else some b

/-- One slot of an arbiter (R214): the entries with a waiting request, the oldest arrival first. SHAREOVR serves by weight
alone (R215). -/
def State.shareSlot (s : State) (b : Blk) (i : Nat) (waiting : List (Fin 32)) : State × Option (Fin 32) :=
  let excess : Bool := decide (256 < s.shSum b i)
  match waiting.find? (fun e => !excess && decide ((s.shUse b i e).used < s.minShare b i e)) with
  | some e =>
    let u := s.shUse b i e
    (s.setShUse b i e { u with used := u.used + 1 }, some e)
  | none =>
    let w := (List.finRange 32).filter (fun e => waiting.contains e && decide (0 < s.weight b i e))
    let s := (List.finRange 32).foldl (fun s e =>
      let u := s.shUse b i e
      if w.contains e then s.setShUse b i e { u with credit := u.credit + s.weight b i e }
      else if waiting.contains e then s
      else s.setShUse b i e { u with credit := 0 }) s
    let total : Int := w.foldl (fun n e => n + s.weight b i e) 0
    match argMax (fun e => (s.shUse b i e).credit) w with
    | none => (s, none)
    | some e =>
      let u := s.shUse b i e
      (s.setShUse b i e { u with credit := u.credit - total }, some e)

end Sys2Proof.Machine
end

