-- ==== Sys2Proof/Machine/Access.lean ====
section
/-! DEFINITION. Requests at their targets: routes, target checks, refusals and their records, posted-write failures,
served traffic (R13, R25, R30 to R32, R43, R156, R218, R223 to R225, R459, R464 to R467, R485). -/

namespace Sys2Proof.Machine

/-! ### Sources and routes -/

/-- The core whose DMA engine has an agent ID (R33). -/
def agentCore (die : Fin 8) (agent : BitVec 10) : Option CoreId :=
  if h : die.val < 6 then
    if hn : agent.toNat / 16 < 12 then
      if hk : agent.toNat % 16 < 8 then some ⟨⟨⟨die, h⟩, ⟨agent.toNat / 16, hn⟩⟩, ⟨agent.toNat % 16, hk⟩⟩ else none
    else none
  else none

def Src.core (src : Src) : Option CoreId := if src.fw then none else agentCore src.die src.agent

/-- The requester of a core's DMA engine: attributes of TC_CTX (R108) and a traffic class. -/
def State.dmaSrc (s : State) (c : CoreId) (cls : Fin 8) : Src :=
  let x := s.reg .tc c.inst Reg.TC_CTX
  ⟨c.die8, c.agent, bitOf x 12, BitVec.ofNat 12 (bitsOf x 11 0), BitVec.ofNat 8 (bitsOf x 20 13), cls, false⟩

/-- Device firmware as a requester: context 0; FP4 and the management core act in either world (R464). -/
def fwSrc (world : Bool) : Src := ⟨6, 8, world, 0, 0, 7, true⟩

/-- The ports a request leaves by, from one die to another (R30): die and port of each hop. -/
def route (a b : Fin 8) : List (Fin 8 × Fin 7) :=
  if a = b then []
  else if a.val < 6 then
    if b.val < 6 then
      if (a.val + 1) % 6 = b.val then [(a, 1)]
      else if (b.val + 1) % 6 = a.val then [(a, 0)]
      else [(a, 2), (6, Fin.ofNat 7 b.val)]
    else if b.val = 6 then [(a, 2)] else [(a, 3)]
  else if b.val < 6 then [(a, Fin.ofNat 7 b.val)] else [(a, 6)]

/-- The die on the near side of the last hop (R32). -/
def nearDie (a b : Fin 8) : Fin 8 := (((route a b).getLast?).map (·.1)).getD a

/-! ### Owners -/

/-- A domain is on and its clocks run (R32, R487). -/
def State.up (s : State) (n : Nat) : Bool := s.domOn n && !s.gated.getLsbD n

/-- The trusted world owns a domain (R390, R488): VD_SEC and VD_FP4 always. -/
def State.trustedOwns (s : State) (n : Nat) : Bool := n == 87 || n == 90 || s.fixed.ownTrusted.getLsbD n

def State.gen (s : State) (ctx : BitVec 12) : BitVec 8 := if ctx = 0 then 0 else s.sec.gens.get ctx 1
def State.ownerOf (s : State) (cl : ClusterId) : BitVec 12 := s.sec.owner.get cl 0
def State.ctxWorld (s : State) (ctx : BitVec 12) : Bool := ((s.sec.ctxs.get? ctx).map (·.world)).getD false

/-- The context exists and is not closing (R465). -/
def State.ctxLive (s : State) (ctx : BitVec 12) : Bool :=
  match s.sec.ctxs.get? ctx with
  | some x => !x.closing
  | none => false

/-- Every region: those of contexts, and the trusted carve-outs of context 0 in Vehicle-die DRAM (R468). -/
def State.allRegions (s : State) : List Region := s.fixed.carve.map (fun c => ⟨6, c.1, c.2, 0, true⟩) ++ s.sec.regions

/-- The region that holds a DRAM address (R468). -/
def State.regionAt (s : State) (a : Nat) : Option Region :=
  s.allRegions.find? (fun r => r.die == addrDie a && decide (r.base ≤ a % 2 ^ 45 / 2 ^ 21) && decide (a % 2 ^ 45 / 2 ^ 21 < r.base + r.size))

/-! ### Target checks -/

/-- Why a request is refused: a failure code of R223 and, for SECURITY, the reason of SEC_VIOLINFO (R493). -/
structure Refused where
  code : Nat
  reason : Nat
  deriving DecidableEq, Repr

/-- Bytes of the published floor-plan descriptor and of the firmware directory, which every source may read (R48, R329). -/
def openRead (a : Nat) : Bool := decide (0xD00001FFC000 ≤ a) && decide (a < 0xD00001FFE000) || decide (0xD00001FFF000 ≤ a) && decide (a < 0xD00002000000)

/-- World and context checks of a request against an owner (R466): none when it is accepted. -/
def State.ownerCheck (s : State) (src : Src) (ctx : BitVec 12) (world : Bool) : Option Refused :=
  if world && !src.world then some ⟨3, 0⟩
  else if src.ctx = 0 then none
  else if src.ctx ≠ ctx then some ⟨3, 1⟩
  else if src.gen ≠ s.gen ctx then some ⟨4, 0⟩
  else none

/-- The rule of R466 for the target at an address. Device firmware uses its private paths and context 0. -/
def State.secCheck (s : State) (src : Src) (a : Nat) (t : Target) (write : Bool) : Option Refused :=
  match t with
  | .dram _ =>
    match s.regionAt a with
    | some r => s.ownerCheck src r.ctx r.world
    | none => if src.ctx = 0 then none else some ⟨3, 1⟩
  | .ls c _ => s.ownerCheck src (s.ownerOf c.cl) (s.ctxWorld (s.ownerOf c.cl))
  | .cs cl _ => s.ownerCheck src (s.ownerOf cl) (s.ctxWorld (s.ownerOf cl))
  | .vsram _ =>
    if openRead a then
      (if !write then none
       else if decide (0xD00001FFF000 ≤ a) || (!src.fw && src.ctx ≠ 0) then some ⟨3, 3⟩
       else none)
    else if src.ctx = 0 then none else some ⟨3, 3⟩
  | .msram _ => if src.ctx = 0 then none else some ⟨3, 3⟩
  | .reg k => if src.ctx ≠ 0 ∨ (s.trustedOwns (blkDomain k) ∧ !src.world) then some ⟨3, 2⟩ else none
  | .pciCfg _ | .pciMem _ => if src.ctx ≠ 0 then some ⟨3, 2⟩ else none
  | .unmapped => none

/-- The requester is outside a partition that a reset has fenced and that holds the address (R459). -/
def State.fencedAt (s : State) (src : Src) (t : Target) : Bool :=
  let outside (p : Part) : Bool := !src.fw && (match src.core with
    | some c => !p.has c
    | none => true)
  match t with
  | .ls c _ => s.sched.parts.any (fun e => e.2.fenced && e.2.has c && outside e.2)
  | .cs cl off => s.sched.parts.any (fun e => e.2.fenced && outside e.2 &&
      e.2.recs.any (fun r => r.cl == cl && decide (r.csStart * 65536 ≤ off) && decide (off < r.csEnd * 65536)))
  | _ => false

/-- Whether a request is refused, in the order in which it meets the dies, the domains, the decoder and the checks (R13, R32). -/
def State.refusal (s : State) (src : Src) (a n : Nat) (write : Bool) : Option Refused :=
  let t := s.target a
  let bad : Bool := match t with
    | .unmapped => true
    | .reg _ => n != 4 || a % 4 != 0
    | _ => n == 0 || s.target (a + n - 1) == .unmapped
  let accord : Bool := match t with
    | .ls c off => write && inAccord (off + n - 1) && (s.core c).run
    | _ => false
  if !s.domOn (domFab (addrDie a)) || !s.up (t.domain a) then some ⟨2, 0⟩
  else if bad then some ⟨1, 0⟩
  else if s.fencedAt src t then some ⟨2, 0⟩
  else match s.secCheck src a t write with
    | some r => some r
    | none => if accord then some ⟨8, 0⟩ else none

/-! ### Records of a refusal -/

/-- FAB_ERRINFO of a requester (R230). -/
def Src.info (src : Src) : Nat := src.die.val * 1024 + src.agent.toNat

/-- SECVIOL and its records (R467, R493): the address and the requester of the first one. -/
def State.secViol (s : State) (src : Src) (a reason : Nat) : State :=
  let first := !bitOf (s.reg .sec 0 Reg.SEC_ERRSTAT) 0
  let s := (s.count .sec 0 Reg.SEC_VIOLCNT 1).raise .sec 0 0 0 0
  if first then
    (s.setReg2 .sec 0 Reg.SEC_ERRADDRL Reg.SEC_ERRADDRH a).setReg .sec 0 Reg.SEC_VIOLINFO
      (BitVec.ofNat 32 (b2n src.world * 2 ^ 31 + src.die.val * 2 ^ 28 + src.agent.toNat * 2 ^ 18 + reason * 2 ^ 16 + src.ctx.toNat))
  else s

/-- What a refusal records at the target side (R13, R32, R467). -/
def State.recordRefusal (s : State) (src : Src) (a : Nat) (r : Refused) : State :=
  let d := addrDie a
  match r.code with
  | 1 => s.raise .fab d 3 a src.info
  | 2 => s.raise .fab (if s.domOn (domFab d) then d else nearDie src.die d) 0 a src.info
  | 3 => s.secViol src a r.reason
  | 4 =>
    let s := s.count .sec 0 Reg.SEC_KGDISCARD 1
    match s.sec.ctxs.get? src.ctx with
    | some x => { s with sec := { s.sec with ctxs := s.sec.ctxs.set src.ctx { x with discards := x.discards + 1 } } }
    | none => s
  | _ => s

/-! ### Failure of a posted write (R224) -/

/-- What the initiator's die does when a failure notice or a timeout reaches it, in one cycle. -/
def State.pwFail (s : State) (src : Src) (a code : Nat) (target : Fin 8) : State :=
  let d := src.die
  let w := src.agent.toNat / 32
  let s := s.setReg .fab d (Reg.FAB_PWSTICKYw w) (s.reg .fab d (Reg.FAB_PWSTICKYw w) ||| BitVec.ofNat 32 (1 <<< (src.agent.toNat % 32)))
  let log := s.fab.pwlog.get d []
  let s := if log.length < 16 then { s with fab := { s.fab with pwlog := s.fab.pwlog.set d (log ++ [⟨a, code, src.cls, target, src.agent⟩]) } }
    else s.setFld .fab d Reg.FAB_PWLOGCNT 31 31 1
  let s := s.raise .fab d 1 a src.info
  match src.core, src.hart with
  | some c, _ => s.putCore c { s.core c with failCount := satAdd (s.core c).failCount 1 }
  | none, some h => s.setHart h { s.hart h with fails := satAdd (s.hart h).fails 1 }
  | none, none => s

/-! ### Traffic served (R212 to R215, R218) -/

/-- The parts of a range that lie in one 2 KiB stripe each (R35). -/
def stripes : Nat → Nat → Nat → List (Nat × Nat)
  | 0, _, _ => []
  | f + 1, a, n =>
    if n = 0 then []
    else
      let k := Nat.min n (2048 - a % 2048)
      (a, k) :: stripes f (a + k) (n - k)
def stripesOf (a n : Nat) : List (Nat × Nat) := stripes (n / 2048 + 2) a n

/-- Bursts that a write covers only in part (R205). -/
def partBursts (a n : Nat) : List Nat :=
  let lo := a / 32 * 32
  let hi := (a + n) / 32 * 32
  (if a % 32 = 0 ∧ lo + 32 ≤ a + n then [] else [lo]) ++ (if (a + n) % 32 = 0 ∨ hi = lo then [] else [hi])

/-- Service slots of a controller for a range of one stripe: one for each request of up to 64 bytes, two for a write that covers
part of a burst (R205, R212). -/
def mcSlots (write : Bool) (a n : Nat) : Nat :=
  ((List.range ((n + 63) / 64)).map (fun i =>
    if write && !(partBursts (a + 64 * i) (Nat.min 64 (n - 64 * i))).isEmpty then 2 else 1)).foldl (· + ·) 0

/-- Flits of a request at a die port: 240 payload bytes each (R212, R219). -/
def flits (write : Bool) (n : Nat) : Nat := if write then Nat.max 1 ((n + 239) / 240) else 1

/-- The ports that a request leaves by: not the last one where the fabric of the target's die is off, since the near side answers then
(R30, R32). -/
def State.hops (s : State) (src : Src) (a : Nat) : List (Fin 8 × Fin 7) :=
  (route src.die (addrDie a)).filter (fun h => s.domOn (domFab (addrDie a)) || decide (1 < (route h.1 (addrDie a)).length))

/-- One arbiter serves a request of n bytes in `slots` slots of its entry (R213, R214): bytes, requests and the worst latency, whose
figure the model leaves open (log entry 14). -/
def State.serveAt (s : State) (b : Blk) (i : Nat) (src : Src) (n slots : Nat) : State :=
  let cls := src.cls
  let key := (b == .dp, i, cls)
  let e := s.shEntry b i src
  let s := upTo slots (fun _ (s : State) => (s.shareSlot b i [e]).1) s
  let (v, s) := s.freeWord
  let off := Reg.MC_CLWORSTc cls
  let old := s.reg b i off
  let s := { s with fab := { s.fab with clBytes := s.fab.clBytes.set key ((s.fab.clBytes.get key 0 + n) % 2 ^ 64) } }
  (s.count b i (Reg.MC_CLREQc cls) 1).setReg b i off (if old.ult v then v else old)

/-- The arbiter can serve the request in this window: its entry has slots of its minimum left, or a weight (R214, R215). -/
def State.slotsLeft (s : State) (b : Blk) (i : Nat) (src : Src) (slots : Nat) : Bool :=
  let e := s.shEntry b i src
  decide (0 < s.weight b i e) || (decide (s.shSum b i ≤ 256) && decide ((s.shUse b i e).used + slots ≤ s.minShare b i e))

/-- Every port on a request's way, and every controller, can serve it in this window; otherwise it waits for the next one. -/
def State.mayCross (s : State) (src : Src) (a n : Nat) (write : Bool) : Bool :=
  (s.hops src a).all (fun h => s.slotsLeft .dp (h.1.val * 8 + h.2.val) src (flits write n))
def State.mayServe (s : State) (src : Src) (a n : Nat) (write : Bool) : Bool :=
  s.mayCross src a n write && (match s.target a with
   | .dram _ => (stripesOf a n).all (fun x => s.slotsLeft .mc (mcOf x.1) src (mcSlots write x.1 x.2))
   | _ => true)

/-- A request crosses the ports of its route. -/
def State.cross (s : State) (src : Src) (a n : Nat) (write : Bool) : State :=
  (s.hops src a).foldl (fun s h => s.serveAt .dp (h.1.val * 8 + h.2.val) src n (flits write n)) s

/-- An accepted request is served by the memory controllers that hold its bytes. -/
def State.serve (s : State) (src : Src) (a n : Nat) (write : Bool) : State :=
  match s.target a with
  | .dram _ => (stripesOf a n).foldl (fun s x => s.serveAt .mc (mcOf x.1) src x.2 (mcSlots write x.1 x.2)) s
  | _ => s

/-! ### Accepted accesses to memory -/

/-- A write into a region of a logged context sets its granules (R485). -/
def State.logDirty (s : State) (a n : Nat) : State :=
  match s.regionAt a with
  | some r =>
    match s.sec.dirty.get? r.ctx with
    | some l =>
      let lo := a % 2 ^ 45 / 65536
      let gs := (List.range ((a % 2 ^ 45 + n - 1) / 65536 + 1 - lo)).map (fun i => (addrDie a, lo + i))
      { s with sec := { s.sec with dirty := s.sec.dirty.set r.ctx (l ++ gs.filter (fun g => !l.contains g)) } }
    | none => s
  | none => s

/-- A read-modify-write of a DRAM write: errors of its partial bursts, and whether one is uncorrectable (R207). -/
def State.rmw (s : State) (a n : Nat) : State × Bool :=
  let es := (partBursts a n).filterMap (fun g => (s.fab.ecc.get? g).map (fun e => (g, e)))
  (es.foldl (fun s e => s.recordEcc e.1 e.2) s, es.any (fun e => e.2 == .double))

/-- Bits of a byte of the firmware directory that the host writes (R331): SQ_TAIL, CQ_HEAD and bit 0 of FLAGS of a control block. -/
def hostBits (a : Nat) : Byte :=
  if 0xD00001FFD000 ≤ a ∧ a < 0xD00001FFE000 then
    if a % 0x40 / 4 * 4 = 0x18 ∨ a % 0x40 / 4 * 4 = 0x24 then 0xFF else if a % 0x40 = 0x2C then 1 else 0
  else 0

/-- A write into the firmware directory from outside firmware: only host bits change, the rest is ignored and counted
(R329, R640). Bits that are RSV are neither changed nor counted (R640). -/
def State.dirWrite (s : State) (a : Nat) (bs : List Byte) : State :=
  let ps := (List.range bs.length).map (fun i => (a + i, bs.getD i 0))
  let flags (a : Nat) : Bool := decide (0xD00001FFD000 ≤ a) && decide (a < 0xD00001FFE000) && a % 0x40 / 4 * 4 == 0x2C
  let lost := ps.any (fun p => hostBits p.1 == 0 && !flags p.1 && memGet s.mem p.1 != p.2)
  let s := ps.foldl (fun s p =>
    let m := hostBits p.1
    if m = 0 then s else s.store p.1 [(memGet s.mem p.1 &&& ~~~m) ||| (p.2 &&& m)]) s
  if lost then s.ignoredWrite .fw 0 else s

/-- A write lands in memory, or fails with UNCORR (R205, R207, R223). -/
def State.landWrite (s : State) (src : Src) (a : Nat) (bs : List Byte) : State × Option Nat :=
  let (s, lost) := (s.serve src a bs.length true).cached src a bs.length true
  if lost then (s, some 5)
  else match s.target a with
  | .dram _ =>
    let (s, bad) := s.rmw a bs.length
    if bad then (s, some 5) else ((s.logDirty a bs.length).store a bs, none)
  | .vsram _ => (if !src.fw && openRead a then s.dirWrite a bs else s.store a bs, none)
  | .reg _ | .pciCfg _ | .pciMem _ | .unmapped => (s, none)
  | _ => (s.store a bs, none)

/-- A read of memory: the data, or none when a word or burst is uncorrectable (R106, R197, R207). -/
def State.landRead (s : State) (src : Src) (a n : Nat) : State × Option (List Byte) :=
  let (s, lost) := (s.serve src a n false).cached src a n false
  let (s', bs, bad) := s.read a n
  (s', if lost || bad.isSome then none else some bs)

/-! ### Exceptions that a unit raises -/

/-- A unit or a channel of a core raises an exception: its bit sets and the core settles towards ERRSTOP (R110, R113,
R130). -/
def State.unitExc (s : State) (c : CoreId) (bit a : Nat) : State :=
  let s := s.raise .tc c.inst bit a 0
  if (s.core c).pend.isSome then s else s.except c bit a

/-- A response reaches its requester (R25): an error response to a core's DMA read is FABRESP (R113), to a hart's load a precise
access fault (R509). -/
def State.deliver (s : State) (src : Src) (a : Nat) (data : List Byte) (fail : Option Nat) : State :=
  let s := { s with fab := { s.fab with got := s.fab.got.set (src.die, src.agent) (a, data, fail) } }
  match src.core, src.hart, fail with
  | some c, _, some _ => s.unitExc c 7 a
  | none, some h, some _ => s.setHart h { s.hart h with fault := some a }
  | none, some h, none => s.setHart h { s.hart h with loaded := some (a, data) }
  | _, _, _ => s

/-! ### DMA channels whose reads fail (R110, R112) -/

def State.chan (s : State) (c : CoreId) (ch : Fin 8) : Chan := Chan.get (s.core c) ch
def State.modChan (s : State) (c : CoreId) (ch : Fin 8) (f : Chan → Chan) : State := s.putCore c ((s.core c).modChan ch f)

/-- The lease of a channel: it starts with a chain, each beat renews it, and it ends when the channel is idle or settled (R452). -/
def State.chanAcquire (s : State) (c : CoreId) (ch : Fin 8) : State :=
  { s with flt := { s.flt with chanLease := s.flt.chanLease.set (c, ch) (s.now, s.now) } }
def State.chanRenew (s : State) (c : CoreId) (ch : Fin 8) : State :=
  match s.flt.chanLease.get? (c, ch) with
  | some x => { s with flt := { s.flt with chanLease := s.flt.chanLease.set (c, ch) (x.1, s.now) } }
  | none => s
def State.chanRelease (s : State) (c : CoreId) (ch : Fin 8) : State :=
  { s with flt := { s.flt with chanLease := s.flt.chanLease.erase (c, ch) } }

/-- A channel stops in its error state: it holds no descriptor, does not signal and does not go on with its chain (R110). -/
def State.chanError (s : State) (c : CoreId) (ch : Fin 8) : State :=
  (s.modChan c ch (fun h => { h with st := .error, head := none, stopping := none, out := [] })).chanRelease c ch

/-- The channel that issued a transaction. -/
def Tx.channel (t : Tx) : Option (CoreId × Fin 8) :=
  match t.src.core with
  | some c => if h : t.chan.val < 8 then some (c, ⟨t.chan.val, h⟩) else none
  | none => none

/-- A read without data leaves a write that can neither land nor leave, so its descriptor cannot complete (R112): the channel stops in
its error state, DEDUCED, log entry 39. -/
def State.chanFails (s : State) (t : Tx) : State :=
  match t.channel with
  | some (c, ch) => if (s.chan c ch).st = .active ∧ (s.chan c ch).stopping = none then s.chanError c ch else s
  | none => s

/-- A split read ends with an error response. -/
def State.readFailed (s : State) (t : Tx) (code : Nat) : State := (s.chanFails t).deliver t.src t.addr [] (some code)

/-! ### Requests of a unit of the package, resolved at once (log entry 17) -/

/-- A posted write of a unit and whether it succeeded: it lands, or its failure is recorded (R223, R224). -/
def State.unitWriteOk (s : State) (src : Src) (a : Nat) (bs : List Byte) : State × Bool :=
  let s := s.cross src a bs.length true
  match s.refusal src a bs.length true with
  | some r => ((s.recordRefusal src a r).pwFail src a r.code (addrDie a), false)
  | none => match s.landWrite src a bs with
    | (s, none) => (s, true)
    | (s, some code) => (s.pwFail src a code (addrDie a), false)

def State.unitWrite (s : State) (src : Src) (a : Nat) (bs : List Byte) : State := (s.unitWriteOk src a bs).1

/-- A read of a unit: the data, or none on an error response. -/
def State.unitRead (s : State) (src : Src) (a n : Nat) : State × Option (List Byte) :=
  let s := s.cross src a n false
  match s.refusal src a n false with
  | some r => (s.recordRefusal src a r, none)
  | none => s.landRead src a n

/-! ### Register writes -/

/-- Whether a requester's write of a configuration field of a block takes effect (R14, R640). -/
def State.mayWrite (s : State) (src : Src) (b : Blk) (i : Nat) : Bool :=
  src.fw || (match b with
    | .die | .tc => bitOf (s.reg b i 4) 0
    | .wdp => bitOf (s.reg .wde 0 0) 0
    | .lks | .blt => false
    | _ => bitOf (s.reg b i 0) 0)

/-- A guarded write: it takes effect under expert control or from device firmware; otherwise it is ignored, and counted
when it would have acted or changed something (R14, R640). -/
def State.guarded (s : State) (src : Src) (b : Blk) (i : Nat) (would : Bool) (f : State → State) : State :=
  if s.mayWrite src b i then f s else if would then s.ignoredWrite b i else s

/-- A register write that is a command of its own: it passes the target checks, or fails as a posted write does. -/
def State.regCommand (s : State) (src : Src) (_b : Blk) (_i off : Nat) (base : Nat) (f : State → State) : State :=
  let a := base + off
  match s.refusal src a 4 true with
  | some r => if src.fw && r.code == 3 then f s else (s.recordRefusal src a r).pwFail src a r.code (addrDie a)
  | none => f s

/-- Addresses of register blocks (R39, R40, R248, R261, R367, R397, R462, R493, R511, R551). -/
def dieRegs (d : Nat) : Nat := 0x180000000000 + dieBase d
def tcBase (c : CoreId) : Nat := 0x1000000 + dieRegs c.cl.die + 0x100000 * c.cl.n + 0x10000 * c.k
def cadBase (cl : ClusterId) : Nat := 0x1080000 + dieRegs cl.die + 0x100000 * cl.n
def pcmpBase (p : PairId) : Nat := 0x10A0000 + dieRegs p.cl.die + 0x100000 * p.cl.n + 0x1000 * p.i
def fabBase (d : Fin 8) : Nat := 0x10000 + dieRegs d
def vehRegs (o : Nat) : Nat := dieRegs 6 + o
def mediaRegs (o : Nat) : Nat := dieRegs 7 + o

end Sys2Proof.Machine
end

