-- ==== Sys2Proof/Machine/FwOps.lean ====
section
/-! DEFINITION. Shared operations of device firmware: the sillage ring, ring control blocks, taking commands and posting
completions (R329 to R343, R362, R364 to R366, R370). -/

namespace Sys2Proof.Machine

/-! ### Firmware processors and the package state -/


/-- FWSTATE of the firmware directory: which processors run (R329). -/
def State.syncFwState (s : State) : State :=
  s.store 0xD00001FFC00C (leBytes 4 (((List.finRange 8).map (fun k => b2n (s.fpRuns k) * 2 ^ k.val)).foldl (· + ·) (b2n s.fw.mcRunning * 256)))

def State.setFp (s : State) (k : Fin 8) (x : Fp) : State := ({ s with fw := { s.fw with fps := s.fw.fps.set k x } }).syncFwState

/-- Package states (R371). -/
abbrev pkRESET : Nat := 0
abbrev pkBOOTING : Nat := 1
abbrev pkPARTIAL : Nat := 2
abbrev pkREADY : Nat := 3
abbrev pkFAILED : Nat := 4
abbrev pkSHUTTING : Nat := 5
abbrev pkOFF : Nat := 6

def State.pkg (s : State) : Nat := s.fld .pwr 0 Reg.PWR_STAT 31 28

/-- The package enters a state; READY is high exactly in READY (R372). Only RESET_N leaves FAILED (R380). -/
def State.setPkg (s : State) (k : Nat) : State :=
  if s.pkg = pkFAILED then s
  else (s.setFld .pwr 0 Reg.PWR_STAT 31 28 k).setFld .pwr 0 Reg.PWR_STAT 0 0 (b2n (k == pkREADY))

/-- The floor-plan descriptor is withdrawn: MAGIC and CHECK read 0 (R48). -/
def State.withdraw (s : State) : State := (s.store 0xD00001FFF000 (leBytes 4 0)).store 0xD00001FFF210 (leBytes 4 0)

/-- The package enters FAILED: READY falls, ERR HOLD stays 1, no descriptor is valid (R48, R372, R380, R443, R449). -/
def State.packageFail (s : State) : State := ((s.setPkg pkFAILED).withdraw).setFld .flt 0 Reg.FLT_PINHOLD 1 1 1

def State.cool (s : State) : Bool := s.fld .pwr 0 Reg.PWR_STAT 2 2 == 1

/-! ### Sillage ring (R362, R364 to R366) -/

/-- The ring control block of a pair (R329). -/
def ringCb (p : Fin 64) : Nat := 0xD00001FFD000 + p * 0x40

/-- FP7 runs again: the waiting entries are made, with the LT at which they were due (R362, R364). -/
def State.logFlush (s : State) : State :=
  let held := s.fw.logHeld
  let s := { s with fw := { s.fw with logHeld := [] } }
  held.foldl (fun s e => e.2.foldl (fun s x => s.logWrite e.1 x.1 x.2.1 x.2.2) s) s

/-! ### Firmware accesses to memory -/

/-- A firmware write through the fabric, with a flag for an error response (R464, STATUS 9). A failure is recorded as that of
any posted write (R224, R225). -/
def State.fwWrite (s : State) (world : Bool) (a : Nat) (bs : List Byte) : State × Bool :=
  s.unitWriteOk (fwSrc world) a bs

/-- A firmware read, none on an error response. -/
def State.fwRead (s : State) (world : Bool) (a n : Nat) : State × Option (List Byte) :=
  s.unitRead (fwSrc world) a n

/-! ### Contexts that a restart charges (R361) -/

/-- A context has work with a processor that restarts. -/
def State.touch (s : State) (ctx : BitVec 12) : State :=
  { s with fw := { s.fw with fps := s.fw.fps.map (fun (e : Fin 8 × Fp) =>
      if e.2.st == .starting && !e.2.affected.contains ctx then (e.1, { e.2 with affected := e.2.affected ++ [ctx] }) else e) } }

/-! ### Ring pairs -/

def State.ring (s : State) (p : Fin 64) : Ring := s.fw.rings.get p Ring.closed

/-- The words of a control block that firmware writes (R331). -/
def State.syncRing (s : State) (p : Fin 64) : State :=
  let r := s.ring p
  let b := ringCb p
  let st := (if r.isOpen then (if r.closing then 2 else 1) else 0) * 2 ^ 30 + b2n r.remote * 2 ^ 29 + b2n r.world * 2 ^ 28 + r.ctx.toNat
  let s := s.store b (leBytes 4 st ++ leBytes 4 (r.sqN * 256 + r.cqN) ++ leBytes 8 r.sqBase ++ leBytes 8 r.cqBase)
  let s := s.store32 (b + 0x1C) r.sqHead
  let s := s.store32 (b + 0x20) r.cqTail
  s.store32 (b + 0x28) (BitVec.ofNat 32 r.held.length)

def State.setRing (s : State) (p : Fin 64) (r : Ring) : State :=
  ({ s with fw := { s.fw with rings := s.fw.rings.set p r } }).syncRing p

/-- The processor that serves a pair (R330). -/
def ringFp (p : Fin 64) : Fin 8 := if p.val = 1 then 4 else 0

/-- A control pair (R329). -/
def isControl (p : Fin 64) : Bool := decide (p.val < 2)

/-- A pair's bit of FW_CQPENDw sets when FLAGS.IRQ is 1 (R370). -/
def State.cqPend (s : State) (p : Fin 64) : State :=
  if bitOf (s.load32 (ringCb p + 0x2C)) 0 then
    let off := Reg.FW_CQPENDw (p.val / 32)
    s.setReg .fw 0 off (s.reg .fw 0 off ||| BitVec.ofNat 32 (1 <<< (p.val % 32)))
  else s

def Ring.room (r : Ring) : Bool := decide ((r.cqTail - r.cqHead).toNat < 2 ^ r.cqN)

/-- One entry is written into the completion ring and CQ_TAIL advances past it (R334, R346). -/
def State.cqWrite (s : State) (p : Fin 64) (bs : List Byte) : State :=
  let r := s.ring p
  let s := (s.fwWrite r.world (r.cqBase + r.cqTail.toNat % 2 ^ r.cqN * 32) bs).1
  (s.setRing p { s.ring p with cqTail := r.cqTail + 1 }).cqPend p

/-- Held entries move into the ring in order as room appears (R342). -/
def State.cqMove : Nat → State → Fin 64 → State
  | 0, s, _ => s
  | n + 1, s, p =>
    let r := s.ring p
    match r.held with
    | [] => s
    | e :: t => if r.room then State.cqMove n ((s.setRing p { r with held := t }).cqWrite p e) p else s

/-- Holding limit of a pair (R342). -/
abbrev holdMax : Nat := 65536

/-- A completion entry is posted, or held while the ring is full (R342). A TYPE 1 entry with outcome DONE is not made at
the holding limit. -/
def State.post (s : State) (p : Fin 64) (bs : List Byte) (droppable : Bool) : State :=
  let r := s.ring p
  if !r.isOpen then s
  else if r.held.isEmpty && r.room then s.cqWrite p bs
  else if droppable && decide (holdMax ≤ r.held.length) then
    (s.count .fw 0 Reg.FW_CQDROP 1).trace 2 0x0104 [p, r.held.length]
  else s.setRing p { r with held := r.held ++ [bs] }

/-! ### Commands (R335 to R341) -/

/-- Word, bit field and address operand of a command entry. -/
def eWord (e : BitVec 512) (off : Nat) : Word := e.extractLsb' (off * 8) 32
def eBits (e : BitVec 512) (off hi lo : Nat) : Nat := bitsOf (eWord e off) hi lo
def eAddr (e : BitVec 512) (off : Nat) : Nat := (e.extractLsb' (off * 8) 64).toNat
def eOp (e : BitVec 512) : Nat := eBits e 0 31 24
def eCmd (e : BitVec 512) : BitVec 16 := e.extractLsb' 0 16

/-- A command entry whose bits outside the listed fields (offset, high bit, low bit) and the header are 0. -/
def eClean (e : BitVec 512) (fields : List (Nat × Nat × Nat)) : Bool :=
  let used := fields.foldl (fun m f => m ||| ((2 ^ (f.2.1 + 1 - f.2.2) - 1) <<< (f.1 * 8 + f.2.2))) (0xFF00FFFF : Nat)
  e &&& ~~~(BitVec.ofNat 512 used) == 0

/-- An operand address: 48 bits, with an alignment. -/
def addrOk (a align : Nat) : Bool := decide (a < 2 ^ 48) && a % align == 0

/-- Completion status (R340). -/
abbrev stOK : Nat := 0
abbrev stBADCMD : Nat := 1
abbrev stBADARG : Nat := 2
abbrev stREFUSED : Nat := 3
abbrev stNOTFOUND : Nat := 4
abbrev stQFULL : Nat := 5
abbrev stDENIED : Nat := 6
abbrev stALREADY : Nat := 7
abbrev stABORTED : Nat := 8
abbrev stFAULT : Nat := 9

/-- A key slot becomes free, or takes a type and a context (R472, R493). -/
def State.setSlot (s : State) (n : Fin 256) (x : Option Slot) : State :=
  { s with sec := { s.sec with slots := match x with
      | some x => s.sec.slots.set n x
      | none => s.sec.slots.erase n } }

/-- A memory key is drawn from the random source into a slot (R471 to R473). -/
def State.drawKey (s : State) (n : Fin 256) : State :=
  let (s, k) := s.freeBytes 64
  { s with sec := { s.sec with memKey := s.sec.memKey.set n k } }

/-- The lowest free key slot. -/
def State.freeSlot (s : State) : Option (Fin 256) := (List.finRange 256).find? (fun n => (s.sec.slots.get? n).isNone)

/-- A pair closes: its untaken commands are discarded, its sessions end, its ring key goes (R339, R357). A restart under way charges the
context of commands that are discarded (R361). -/
def State.closeRing (s : State) (p : Fin 64) : State :=
  let s := if s.load32 (ringCb p + 0x18) != (s.ring p).sqHead then s.touch (s.ring p).ctx else s
  let s := match s.fw.ringKey.get? p with
    | some k => { s.setSlot k.1 none with fw := { s.fw with ringKey := s.fw.ringKey.erase p } }
    | none => s
  let s := { s with fw := { s.fw with sessions := s.fw.sessions.filter (fun x => x.pair != p) } }
  s.setRing p Ring.closed

/-- The TYPE 0 entry of the command taken from a pair is posted (R336, R337). -/
def State.finish (s : State) (p : Fin 64) (status detail v0 v1 : Nat) : State :=
  let r := s.ring p
  match r.taken with
  | none => s
  | some e =>
    let s := s.setRing p { r with taken := none }
    let s := s.post p (leBytes 4 (eOp e * 2 ^ 16 + (eCmd e).toNat) ++ leBytes 4 (status * 2 ^ 24 + detail * 2 ^ 16) ++
      leBytes 4 v0 ++ leBytes 4 v1 ++ leBytes 16 0) false
    s.trace (Fin.ofNat 9 (ringFp p).val) 0x0102 [p, eOp e, (eCmd e).toNat, status]

/-- The command taken from a pair completes. A pair that is closing closes then, and the RING_CLOSE that waits for it
completes (R339). -/
def State.complete (s : State) (p : Fin 64) (status detail v0 v1 : Nat) : State :=
  let s := s.finish p status detail v0 v1
  let r := s.ring p
  if r.closing && r.taken.isNone then
    let s := s.closeRing p
    match r.closeBy with
    | some q => s.finish q stOK 0 0 0
    | none => s
  else s

def State.refuse (s : State) (p : Fin 64) (detail : Nat) : State := s.complete p stREFUSED detail 0 0
def State.ok (s : State) (p : Fin 64) : State := s.complete p stOK 0 0 0

/-- A refusal whose DETAIL the spec does not state: a free value (log entry 34). -/
def State.refuseFree (s : State) (p : Fin 64) : State :=
  let (v, s) := s.freeWord
  s.refuse p (v.toNat % 256)

/-- In FAILED only control pair 0 serves (R380). -/
def State.served (s : State) (p : Fin 64) : Bool := s.pkg != pkFAILED || p == 0

/-- The command taken from a pair, when it has an opcode and its processors run. -/
def State.takenCmd (s : State) (p : Fin 64) (op : Nat) (needs : List (Fin 8)) : Option (BitVec 512) :=
  match (s.ring p).taken with
  | some e => if eOp e = op ∧ (ringFp p :: needs).all s.fpRuns ∧ s.served p then some e else none
  | none => none

/-- One command of a ring pair: nothing happens unless it has been taken from the pair and its processors run; its form is
checked first, then who may use it (R340, R341), and SHUTTING denies every command but PWR_READ (R394). -/
def State.command (s : State) (p : Fin 64) (op : Nat) (needs : List (Fin 8)) (fields : List (Nat × Nat × Nat))
    (controlOnly : Bool) (k : BitVec 512 → State) : State :=
  match s.takenCmd p op needs with
  | none => s
  | some e =>
    if s.pkg = pkSHUTTING ∧ op ≠ 0x2A then s.complete p stDENIED 0 0 0
    else if !eClean e fields then s.complete p stBADCMD 0 0 0
    else if controlOnly && !isControl p then s.complete p stDENIED 0 0 0
    else k e

/-- Whether a pair may operate on a context: a context pair on its own only, the normal control pair on normal ones only
(R341). -/
def State.mayUse (s : State) (p : Fin 64) (ctx : BitVec 12) : Bool :=
  if isControl p then p.val == 1 || !s.ctxWorld ctx
  else (s.ring p).ctx == ctx

/-- Opcodes that some command has (R339, R396, R427, R461, R492, R543, R583, R609). -/
def knownOps : List Nat :=
  [0x01, 0x02, 0x03, 0x10, 0x11, 0x12, 0x13, 0x14, 0x15, 0x18, 0x19, 0x1A, 0x1B, 0x1C, 0x1D, 0x20, 0x21, 0x22,
   0x28, 0x29, 0x2A, 0x2B, 0x2C, 0x30, 0x31, 0x32, 0x33, 0x34, 0x35, 0x38, 0x39, 0x3A, 0x3B, 0x3C, 0x3D, 0x3E,
   0x40, 0x41, 0x42, 0x43, 0x44, 0x45, 0x46, 0x47, 0x48, 0x49, 0x50, 0x51, 0x52, 0x53, 0x54, 0x55, 0x56, 0x57, 0x58, 0x59,
   0x5A, 0x5B, 0x60, 0x61, 0x62, 0x63, 0x64, 0x65, 0x66, 0x68, 0x69, 0x6A, 0x6B, 0x6C, 0x6D, 0x6E]

/-- A range of bytes is copied into a buffer operand and the command completes, with FAULT on an error response. -/
def State.copyOut (s : State) (p : Fin 64) (buf : Nat) (bs : List Byte) (v0 v1 : Nat) : State :=
  if bs = [] then s.complete p stOK 0 v0 v1
  else match s.fwWrite (p.val == 1) buf bs with
    | (s, true) => s.complete p stOK 0 v0 v1
    | (s, false) => s.complete p stFAULT 0 0 0

/-- The same for a result buffer, which is 64-byte aligned (R642). -/
def State.copyBuf (s : State) (p : Fin 64) (buf : Nat) (bs : List Byte) (v0 v1 : Nat) : State :=
  if buf % 64 ≠ 0 then s.complete p stBADARG 0 0 0 else s.copyOut p buf bs v0 v1

/-! ### Pulses that firmware makes (R441) -/

/-- A processor runs (8: the management core). -/
def State.procRuns (s : State) (k : Fin 9) : Bool := if h : k.val < 8 then s.fpRuns ⟨k, h⟩ else s.fw.mcRunning

/-- A processor pulses a pin, or owes the pulse until it runs (R441). -/
def State.fwPulse (s : State) (k : Fin 9) (isErr : Bool) : State :=
  if s.procRuns k then s.pulse isErr else { s with flt := { s.flt with owed := s.flt.owed ++ [(k, isErr)] } }

/-- The pulses that a processor owes. -/
def State.payPulses (s : State) (k : Fin 9) : State :=
  let mine := s.flt.owed.filter (fun x => x.1 == k)
  mine.foldl (fun (s : State) (x : Fin 9 × Bool) => s.pulse x.2) { s with flt := { s.flt with owed := s.flt.owed.filter (fun x => x.1 != k) } }

end Sys2Proof.Machine
end

