-- ==== Sys2Proof/Machine/Fabric.lean ====
section
/-! DEFINITION. Fabric commands: responses, acknowledgements, timeouts, credits, ports, share windows, DRAM upkeep and the
posted-write log (R201 to R232, R457). -/

namespace Sys2Proof.Machine

/-! ### Transactions in flight -/

def State.txOf (s : State) (id : Nat) : Option Tx := s.fab.tx.find? (fun t => t.id == id)
def State.dropTx (s : State) (id : Nat) : State :=
  { s with fab := { s.fab with tx := s.fab.tx.filter (fun t => t.id != id) } }

/-- A split read or a posted write that crosses a die holds a tracker until its outcome (R221). -/
def State.addTx (s : State) (isRead : Bool) (src : Src) (a len : Nat) (data : List Byte) (fail : Option Nat) (chan : Fin 9) :
    State :=
  { s with fab := { s.fab with nextId := s.fab.nextId + 1,
                               tx := s.fab.tx ++ [⟨s.fab.nextId, isRead, src, a, len, data, fail, addrDie a, chan, s.now, 0, false⟩] } }

/-- A request has a tracker at every port of its route (R221). -/
def State.trackerFree (s : State) (isRead : Bool) (src : Src) (a : Nat) : Bool :=
  (route src.die (addrDie a)).all (fun h =>
    decide ((s.fab.tx.filter (fun t => t.isRead == isRead && (route t.src.die t.target).contains h)).length < 4096))

/-! ### Credits (R219) -/

def portInst (d : Fin 8) (p : Fin 7) : Nat := d.val * 8 + p.val

def State.reservedCred (s : State) (d : Fin 8) (p : Fin 7) (c : Nat) : Nat := s.fld .dp (portInst d p) (Reg.DP_CREDc c) 9 0

def State.heldCred (s : State) (d : Fin 8) (p : Fin 7) (c : Fin 8) (pool : Bool) : Nat :=
  (s.fab.credits.filter (fun x => x.die == d && x.port == p && x.pool == pool && (pool || x.cls == c))).length

/-- Buffers that no class reserves (R219). -/
def State.poolSize (s : State) (d : Fin 8) (p : Fin 7) : Nat :=
  1024 - ((List.range 8).map (s.reservedCred d p)).foldl (· + ·) 0

/-- The kind of credit a flit may take at a port: its class's, else one of the pool; none when the flit waits. -/
def State.creditAt (s : State) (d : Fin 8) (p : Fin 7) (c : Fin 8) : Option Bool :=
  if s.heldCred d p c false < s.reservedCred d p c then some false
  else if s.heldCred d p c true < s.poolSize d p then some true
  else none

/-- A yielding Vehicle-die port sends no requests (R227). -/
def State.yielding (s : State) (h : Fin 8 × Fin 7) : Bool := s.fld .dp (portInst h.1 h.2) Reg.DP_STAT 8 8 == 1

/-- The port at the far end of a link (R29). -/
def peer (d : Fin 8) (p : Fin 7) : Option (Fin 8 × Fin 7) :=
  if d.val < 6 then
    match p.val with
    | 0 => some (Fin.ofNat 8 ((d.val + 5) % 6), 1)
    | 1 => some (Fin.ofNat 8 ((d.val + 1) % 6), 0)
    | 2 => some (6, Fin.ofNat 7 d.val)
    | 3 => some (7, Fin.ofNat 7 d.val)
    | _ => none
  else if p.val < 6 then some (Fin.ofNat 8 p.val, if d.val = 6 then 2 else 3)
  else some (if d.val = 6 then 7 else 6, 6)

/-- The flits of a request take one credit each at a port, or the request waits (R219). -/
def State.takeBuffers (h : Fin 8 × Fin 7) (cls : Fin 8) : Nat → State → Option State
  | 0, s => some s
  | k + 1, s =>
    if s.yielding h then none
    else match s.creditAt h.1 h.2 cls with
      | some pool => State.takeBuffers h cls k { s with fab := { s.fab with credits := s.fab.credits ++ [⟨h.1, h.2, cls, pool, s.now⟩] } }
      | none => none

/-- Escape credits of the port at the far end of a link, which yields: they carry the request over it, and onward where it is transit
(R227). -/
def State.takeEscape (h : Fin 8 × Fin 7) (k : Nat) (s : State) : Option State :=
  match peer h.1 h.2 with
  | some (6, p) =>
    if s.yielding (6, p) ∧ k ≤ s.fab.escape.get p 0 then
      some { s with fab := { s.fab with escape := s.fab.escape.set p (s.fab.escape.get p 0 - k) } }
    else none
  | _ => none

/-- A request of `k` flits takes its credits at each port of a route, or none of them and it waits at its source. -/
def State.takeRoute (cls : Fin 8) (k : Nat) : List (Fin 8 × Fin 7) → State → Option State
  | [], s => some s
  | h :: t, s => match State.takeBuffers h cls k s with
    | some s => State.takeRoute cls k t s
    | none => State.takeEscape h k s

def State.takeCredits (s : State) (src : Src) (a k : Nat) : Option State := State.takeRoute src.cls k (route src.die (addrDie a)) s

/-- FREE of DP_CREDc: reserved credits not held (R229). -/
def State.freeCred (s : State) (i : Nat) (c : Fin 8) : Nat :=
  let d : Fin 8 := Fin.ofNat 8 (i / 8)
  let p : Fin 7 := Fin.ofNat 7 (i % 8)
  s.reservedCred d p c - s.heldCred d p c false

/-- The first list element that satisfies a test is removed. -/
def removeFirst {α : Type} (p : α → Bool) : List α → List α
  | [] => []
  | a :: t => if p a then t else a :: removeFirst p t

/-- A port's 1,024 receive buffers at the far end are all held, and no request credit has come back for 400 ns (R219, R227). -/
def State.stuck (s : State) (h : Fin 8 × Fin 7) : Bool :=
  decide (1024 ≤ (s.fab.credits.filter (fun x => x.die == h.1 && x.port == h.2)).length) && decide (s.fab.credAt.get h 0 + 400 ≤ s.now)

/-- PORT_YIELD (R227): both sides of Vehicle-die port p have been full without a credit for 400 ns; the Vehicle side stops sending,
grants 32 escape credits and takes n of those flits into its escape buffer at once. -/
def execPortYield (p : Fin 7) (n : Fin 33) (s : State) : Out :=
  let far := (peer 6 p).getD (6, p)
  .next (if s.up (domFab 6) && !s.yielding (6, p) && s.stuck (6, p) && s.stuck far then
    (({ s with fab := { s.fab with escape := s.fab.escape.set p (32 - n.val) } }).setFld .dp (portInst 6 p) Reg.DP_STAT 8 8 1).count
      .dp (portInst 6 p) Reg.DP_YIELDCNT 1
  else s)

/-- FLIT_CRC_ERROR (R229): the flit is replayed. -/
def execFlitCrcError (d : Fin 8) (p : Fin 7) (s : State) : Out :=
  .next (if s.up (domFab d) then (s.count .dp (portInst d p) Reg.DP_RETRYCNT 1).raise .dp (portInst d p) 0 0 0 else s)

/-! ### Outcomes -/

/-- A credit from the PCIe link ends a yield of the root port, and the 400 ns start again (R542). -/
def State.pciCredit (s : State) (a : Nat) : State :=
  match s.target a with
  | .pciCfg _ | .pciMem _ => { s with gw := { s.gw with pciYield := false, pciCredAt := s.now } }
  | _ => s

/-- 100 µs have passed since a transaction took its tracker (R222, R223, R452). -/
def State.txExpired (s : State) (t : Tx) : Bool := decide (t.since + 100000 ≤ s.now)

/-- A split read without a response ends with an error response; the requester's die sets RSPTO (R222). -/
def State.readTimeout (s : State) (t : Tx) : State :=
  ((s.dropTx t.id).raise .fab t.src.die 2 t.addr t.src.info).readFailed t 6

/-- A transaction ends with a failure code: a read with an error response, a posted write as a far-side failure. -/
def State.endTx (s : State) (t : Tx) (code : Nat) : State :=
  let s := s.dropTx t.id
  if t.isRead then s.readFailed t code else s.pwFail t.src t.addr code t.target

/-- Every credit and tracker of a link is revoked; its transactions fail with code 2 POWER (R457). -/
def State.revokeLink (s : State) (d : Fin 8) (p : Fin 7) : State :=
  let ends := (d, p) :: (peer d p).toList
  let on (h : Fin 8 × Fin 7) : Bool := ends.contains h
  let cs := s.fab.credits.filter (fun x => on (x.die, x.port))
  let ts := s.fab.tx.filter (fun t => (route t.src.die t.target).any on)
  let s := { s with fab := { s.fab with credits := s.fab.credits.filter (fun x => !on (x.die, x.port)) } }
  let s := cs.foldl (fun s x => ((s.raise .dp (portInst x.die x.port) 1 0 0).count .flt 0 Reg.FLT_REVOKECNT 1).trace 8 0x0702
    [3, x.die.val * 1024, x.die]) s
  ts.foldl (fun s t => ((s.count .flt 0 Reg.FLT_REVOKECNT 1).trace 8 0x0702 [4, t.src.info, t.src.die]).endTx t 2) s

/-- DIE_PORT_LINK_FAIL (R229, R457): the port has lost training. -/
def execDiePortLinkFail (d : Fin 8) (p : Fin 7) (s : State) : Out :=
  if !s.up (domFab d) || (peer d p).isNone then .next s
  else
    let s := (s.setFld .dp (portInst d p) Reg.DP_STAT 3 0 3).setFld .die d Reg.DIE_PORTSTAT p p 0
    .next ((s.raise .dp (portInst d p) 2 0 0).revokeLink d p)

/-! ### Share arbiters (R212 to R216) -/

/-- Whether an arbiter exists: six or four controllers, four or seven ports. -/
def arbiterOk (isPort : Bool) (i : Nat) : Bool :=
  decide (i < 64) && decide (i % 8 < (if isPort then (if i / 8 < 6 then 4 else 7) else (if i / 8 < 6 then 6 else 4)))

def arbBlk (isPort : Bool) : Blk := if isPort then .dp else .mc

def ResRec.isShare (r : ResRec) : Bool := r.typ == 1 || r.typ == 2
def ResRec.arb (r : ResRec) : Blk × Nat := if r.typ = 1 then (.mc, r.die.val * 8 + r.unit) else (.dp, r.die.val * 8 + r.unit)

/-- A share entry or a credit reservation that an admitted partition or a monitor holds (R232). -/
def State.resHeld (s : State) (b : Blk) (i off : Nat) : Bool :=
  let rs := s.sched.parts.flatMap (fun e => e.2.res) ++ s.chk.mons.flatMap (fun e => e.2.shares)
  rs.any (fun r => (r.isShare && r.arb == (b, i) && decide (r.entry < 31) && (off == Reg.MC_SHSRCe r.entry || off == Reg.MC_SHCFGe r.entry)) ||
    (r.typ == 3 && b == .dp && portInst r.die (Fin.ofNat 7 r.unit) == i && off == Reg.DP_CREDc r.cls))

/-- SHARE_WINDOW_START (R214, R216): the window that ends had these entries waiting throughout, each with the slots it
received; an entry short of its guarantee counts in SHMISS and sets SHAREMISS. Expert writes of entries that firmware has not installed
since take effect (R232), and the used counts start again from 0. -/
def execShareWindowStart (isPort : Bool) (i : Nat) (ended : List (Fin 32 × Nat × Nat)) (s : State) : Out :=
  let b := arbBlk isPort
  if !arbiterOk isPort i then .next s
  else
    let s := ended.foldl (fun s x =>
      if x.2.2 < Nat.min (s.minShare b i x.1) x.2.1 ∧ s.shSum b i ≤ 256 then
        (s.count b i (Reg.MC_SHMISSe x.1) 1).raise b i 4 0 0
      else s) s
    let pend := s.fab.shPend.filter (fun x => x.1 == b && x.2.1 == i)
    let s := pend.foldl (fun (s : State) x => if s.resHeld b i x.2.2.1 then s.ignoredWrite b i else s.setReg b i x.2.2.1 x.2.2.2) s
    let s := { s with fab := { s.fab with shPend := s.fab.shPend.filter (fun x => !(x.1 == b && x.2.1 == i)) } }
    let s : State := (List.finRange 32).foldl (fun (s : State) (e : Fin 32) => s.setShUse b i e { s.shUse b i e with used := 0 }) s
    .next (if 256 < State.shSum s b i then s.raise b i 3 0 0 else s)

/-! ### DRAM upkeep -/

def mcOk (i : Nat) : Bool := arbiterOk false i
def mcReady (s : State) (i : Nat) : Bool := mcOk i && s.up (domMem (Fin.ofNat 8 (i / 8))) && s.fld .mc i Reg.MC_STAT 3 0 == 2

/-- DRAM_REFRESH (R204): contents are kept; the model counts the refresh. -/
def execDramRefresh (i : Nat) (s : State) : Out :=
  .next (if mcReady s i then { s with fab := { s.fab with mcRefresh := s.fab.mcRefresh.set i (s.fab.mcRefresh.get i 0 + 1) } } else s)

/-- DRIFT_COMPENSATION (R203): a step of at most 25 ns in a refresh interval changes no stored value. -/
def execDriftCompensation (i : Nat) (s : State) : Out :=
  .next (if mcReady s i then { s with fab := { s.fab with mcDrift := s.fab.mcDrift.set i (s.fab.mcDrift.get i 0 + 1) } } else s)

/-- 16 ms have passed since a controller's last temperature readout (R201). -/
def State.tempDue (s : State) (i : Nat) : Bool :=
  match s.fab.mcTempAt.get? i with
  | some t => decide (t + 16000000 ≤ s.now)
  | none => true

/-- DRAM_TEMP_READ (R201): every 16 ms. The temperature sets the refresh rate, whose value the spec does not give: a free value. -/
def execDramTempRead (i : Nat) (temp : Nat) (s : State) : Out :=
  .next (if mcReady s i && s.tempDue i then
    let (v, s) := s.freeWord
    { s with fab := { s.fab with mcTemp := s.fab.mcTemp.set i temp, mcTempAt := s.fab.mcTempAt.set i s.now, mcRate := s.fab.mcRate.set i v } }
  else s)

/-- A corrected word or burst is written back: its latent error goes (R106, R197, R206). -/
def State.writeBack (s : State) (g : Nat) : State :=
  if s.fab.eccWb.contains g then
    { s with fab := { s.fab with eccWb := s.fab.eccWb.filter (· != g),
                                 ecc := if s.fab.ecc.get? g = some .single then s.fab.ecc.erase g else s.fab.ecc } }
  else s

/-- DRAM_CE_WRITEBACK (R206). -/
def execDramCeWriteback (g : Nat) (s : State) : Out :=
  .next (match s.target g with
    | .dram _ => s.writeBack g
    | _ => s)

/-- LS_ECC_WRITEBACK (R106). -/
def execLsEccWriteback (g : Nat) (s : State) : Out :=
  .next (match s.target g with
    | .ls _ _ => s.writeBack g
    | _ => s)

/-- CS_ECC_WRITEBACK (R197). -/
def execCsEccWriteback (g : Nat) (s : State) : Out :=
  .next (match s.target g with
    | .cs _ _ => s.writeBack g
    | _ => s)

/-! ### Posted-write log -/

/-- Entry 0 of FAB_PWLOG is removed and later entries move down (R230, R231). -/
def State.pwlogPop (s : State) (d : Fin 8) : State :=
  { s with fab := { s.fab with pwlog := s.fab.pwlog.set d ((s.fab.pwlog.get d []).drop 1) } }

/-- PWLOG_POP (R14, R231): a pop register is written whatever EXPERT_EN holds. -/
def execPwlogPop (src : Src) (d : Fin 8) (s : State) : Out :=
  .next (s.regCommand src .fab d Reg.FAB_PWLOGPOP (fabBase d) (fun s => s.pwlogPop d))

end Sys2Proof.Machine
end

