-- ==== Sys2Proof/Machine/JobOps.lean ====
section
/-! DEFINITION. Shared operations over jobs: records, stops, launches and context loads (R107, R110, R159, R271, R279,
R281 to R286, R345, R360, R455). -/

namespace Sys2Proof.Machine

/-! ### Records -/

/-- State of a core as CAD_COREk shows it (R299): 0 idle, 1 argument copy, 2 running, 3 ended, 4 yielded, 5 stopped. -/
def State.setCadCore (s : State) (c : CoreId) (v : Nat) : State := s.setFld .cad c.cl.inst (Reg.CAD_COREk c.k) 3 0 v
def State.cadCore (s : State) (c : CoreId) : Nat := s.fld .cad c.cl.inst (Reg.CAD_COREk c.k) 3 0

def JOut.code : JOut → Nat
  | .empty => 0
  | .done => 1
  | .aborted => 2
  | .missed => 3
  | .faulted => 4
  | .wheelStop => 5

def State.findJob (s : State) (p k : Fin 32) (num : Word) : Option Job :=
  s.sched.jobs.reverse.find? (fun j => j.part == p && j.kind == k && j.num == num)

/-- ENDPH of a record set now (R282): the R263 encoding, or ticks from the first launch. -/
def State.endPhase (s : State) (j : Job) : BitVec 17 :=
  if j.queued then
    if j.launched && decide (j.ticks ≤ 0x1FFFE) then BitVec.ofNat 17 j.ticks else 0x1FFFF
  else match s.part j.part with
    | some p => (s.wheel p.wheel).encode j.num
    | none => 0x1FFFF

/-- Records in the mailbox: the hardware queue holds 8,192, and later records wait at their leads, oldest first (R360). DESIGN CHOICE, log
entry 114. -/
def State.mbCount (s : State) : Nat := Nat.min 8192 s.sched.mailbox.length

/-- A final record enters the completion mailbox; above 6,144 records MBHIGH is set (R360). -/
def State.mailboxPush (s : State) (j : Job) : State :=
  let s := { s.touch j.ctx with sched := { s.sched with mailbox := s.sched.mailbox ++ [j] } }
  let n := s.mbCount
  let s := if (s.reg .fw 0 Reg.FW_MBMAX).toNat < n then s.setReg .fw 0 Reg.FW_MBMAX (BitVec.ofNat 32 n) else s
  if 6144 < n then (s.raise .fw 0 2 0 0).trace 2 0x0004 [n] else s

/-- The lead sets an outcome: the record changes from EMPTY exactly once (R283), with the failures that its END notices have brought
(R281, R282). -/
def State.finalize (s : State) (j : Job) (out : JOut) : State :=
  match s.sched.jobs.find? (fun x => x.same j) with
  | some x =>
    if x.out ≠ .empty then s
    else
      let y := { x with out := out, endph := s.endPhase x, finalLt := s.now }
      (s.setJob y).mailboxPush y
  | none => s

/-! ### Leases (R453, R455) -/

/-- A lease is revoked: one LEASE_REVOKED trace point, and a count. -/
def State.revoked (s : State) (kind holder die : Nat) : State := (s.count .flt 0 Reg.FLT_REVOKECNT 1).trace 8 0x0702 [kind, holder, die]

/-- Lock words held by a core are written to 0. -/
def State.revokeLocks (s : State) (c : CoreId) : State :=
  (s.flt.locks.filter (fun l => l.2.1 == c)).foldl (fun s l => (s.store32 l.1 0).revoked 1 (c.die8.val * 1024 + c.agent.toNat) c.cl.die) s

/-- Channels of a core that hold a lease return to idle (R110, R455). -/
def State.revokeChans (s : State) (c : CoreId) : State :=
  (List.finRange 8).foldl (fun s ch =>
    let h := Chan.get (s.core c) ch
    let s := if h.head.isSome && h.st != .error && h.st != .stopped then s.revoked 2 (c.die8.val * 1024 + c.agent.toNat) c.cl.die else s
    s.modCore c (fun x => x.modChan ch (fun h => { Chan.idle with late := h.late }))) s

/-! ### Stopping -/

/-- A core's issue stops; its channels stop after their beat and its barrier slots are cleared (R285). -/
def State.stopCore (s : State) (c : CoreId) : State :=
  let s := s.barClear c
  let x := s.core c
  let x := { x.leave with run := false, wait := .none, haltPending := false }
  let x := (List.finRange 8).foldl (fun (x : CoreState) ch => x.modChan ch (fun h => h.stop false)) x
  (s.putCore c x).setCadCore c 5

/-- The lead stops a job: every core that still runs it (R285). The cores of a yielded job hold no resume offset any more (R299). -/
def State.stopJob (s : State) (j : Job) : State :=
  match s.sched.jobs.find? (fun x => x.same j) with
  | some x =>
    let s := x.resume.foldl (fun (s : State) (e : CoreId × BitVec 20) =>
      if x.yielded then (s.setReg .cad e.1.cl.inst (Reg.CAD_RESUMEk e.1.k) 0).setCadCore e.1 5 else s) s
    x.running.foldl (fun s c => s.stopCore c) (s.setJob { x with stopping := true, resume := [] })
  | none => s

/-- FAULTED and stopped (R284, R296, R384, R454, R458). -/
def State.faultJob (s : State) (j : Job) : State := (s.finalize j .faulted).stopJob j

/-- CAD_ERRINFO names the first core of a list, or core 0 where none is left: DESIGN CHOICE, log entry 113. -/
def coreField (cs : List CoreId) : Nat := ((cs.head?).map (fun c => c.k.val)).getD 0

/-- A queued job that still runs on cores of a periodic launch or accord slot is FAULTED and stopped, and PREFAIL is set (R296). -/
def State.prefail (s : State) (pid kn : Fin 32) (lead : ClusterId) (j : Job) (cs : List CoreId) : State :=
  (s.faultJob j).raise .cad lead.inst 4 0 (cadInfo pid kn (coreField (j.running.filter cs.contains)))

/-- A core of a running job has failed (R284). -/
def State.coreFailed (s : State) (c : CoreId) : State :=
  match s.jobOf c with
  | some j => s.faultJob j
  | none => s

/-! ### Launching -/

/-- The first entry of a launch: argument lines of a core (R271). -/
def State.writeArgs (s : State) (p : Part) (c : CoreId) (bs : List Byte) : State := s.store (lsBase c + p.argline.toNat) bs

/-- A core starts at an offset (R110, R158, R279): the frames current on every wheel become its job frames (R154). -/
def State.startCore (s : State) (c : CoreId) (entry : BitVec 20) (w : Fin 4) : State :=
  let frames : AMap (Fin 4) Word := (List.finRange 4).map (fun i => (i, (s.wheel i).frame))
  let x := s.core c
  let x : CoreState := { x.leave with
    run := true, halted := false, haltPending := false, idle := false, entry := none, errstop := false, ended := false, pend := none, more := [],
    ran := true, wait := .none, jobWheel := w, jobFrame := frames, startLt := s.now, endFails := 0,
    arrBase := s.reg .tc c.inst Reg.TC_ARRBUSY }
  let x := (List.finRange 8).foldl (fun (x : CoreState) ch => x.modChan ch (fun h =>
    if h.st == .error || h.st == .stopped then { Chan.idle with late := h.late } else h)) x
  let s := s.putCore c (x.transfer entry)
  let s := (s.mirrored c).foldl (fun s d => s.setReg .tc d.inst Reg.TC_ENTRY (entry.setWidth 32)) s
  s.setCadCore c 2

/-! ### Context load (R95, R107, R159, R168, R182) -/

/-- Bytes of the accord reference input, offsets 0xF_C000 to 0xF_EFFF (R156). -/
def accordBytes (r : Nat) : List Byte := (List.range 0x3000).map (Config.accordInput r)

/-- A core's local store is zeroed with reference input k mod 8 in the accord area, k the number of its loads so far (R414),
and its state is as after a context load. TC_CTX is device firmware's and stays. FP7 clears the agent's sticky bit (R435). -/
def State.loadCore (s : State) (c : CoreId) : State :=
  let s := s.barClear c
  let k := (s.core c).loads
  let s := (s.zero (lsBase c) 0x100000).store (lsBase c + 0xFC000) (accordBytes (k % 8))
  let x := { CoreState.reset with loadLt := s.now, moved := true, accInput := k % 8, loads := k + 1, jobWheel := (s.core c).jobWheel }
  let s := s.setCore c x
  let s := s.setReg .tc c.inst Reg.TC_FLAGS 0
  let s := upTo 32 (fun i s => s.setReg .tc c.inst (Reg.TC_SIGs i) 0) s
  let w := Reg.FAB_PWSTICKYw (c.agent.toNat / 32)
  s.setReg .fab c.die8 w (s.reg .fab c.die8 w &&& ~~~(BitVec.ofNat 32 (1 <<< (c.agent.toNat % 32))))

/-- A context load that covers all enabled cores of a cluster sets every barrier slot of it to idle (R159). -/
def State.idleBars (s : State) (cl : ClusterId) : State :=
  { s with bars := s.bars.filter (fun e => e.1.1 != cl) }

/-- Context loads of a set of cores of one cluster. -/
def State.loadCores (s : State) (cl : ClusterId) (cs : List CoreId) : State :=
  let all := (cl.cores.filter s.coreEnabled).all (fun c => cs.contains c)
  cs.foldl (fun s c => s.loadCore c) (if all then s.idleBars cl else s)

/-! ### Starting and stopping of kinds -/

def State.modKind (s : State) (p k : Fin 32) (f : Kind → Kind) : State :=
  match s.part p with
  | some x => s.setPart p { x with kinds := x.kinds.map (fun y => if y.num = k then f y else y) }
  | none => s

/-- Jobs of a partition whose record is still EMPTY. -/
def State.openJobs (s : State) (p : Fin 32) : List Job := s.sched.jobs.filter (fun j => j.part == p && j.out == .empty)

/-- Every running job of a partition gets an outcome and is stopped; queued jobs that never launched get another. -/
def State.endJobs (s : State) (p : Fin 32) (running waiting : JOut) : State :=
  (s.openJobs p).foldl (fun s j => if j.launched then (s.finalize j running).stopJob j else s.finalize j waiting) s

/-- FP3 marks a partition failed (R416): no launch follows, running jobs end FAULTED, its pairings are LASTING. -/
def State.failPart (s : State) (p : Fin 32) : State :=
  match s.part p with
  | none => s
  | some x =>
    if x.failed then s
    else
      let s := s.setPart p { x with failed := true }
      let s := ((s.openJobs p).filter (fun j => j.launched)).foldl (fun (s : State) j => s.faultJob j) s
      { s with chk := { s.chk with pairs := s.chk.pairs.map (fun (e : Fin 16 × Pairing) =>
          if e.2.part = p then (e.1, { e.2 with lasting := true }) else e) } }

/-- The argument copy of a kind is dropped: its cores no longer show it (R299). -/
def State.unstage (s : State) (p : Part) (k : Kind) : State :=
  if k.staged.isSome then (p.kindCores k).foldl (fun (s : State) c => if s.cadCore c = 1 then s.setCadCore c 0 else s) s else s

/-- Every periodic kind of a partition is disarmed. -/
def State.disarmAll (s : State) (p : Fin 32) : State :=
  match s.part p with
  | some x => (x.kinds.foldl (fun (s : State) k => s.unstage x k) s).setPart p { x with kinds := x.kinds.map (fun k => { k with armed := false, staged := none }) }
  | none => s

end Sys2Proof.Machine
end

