-- ==== Sys2Proof/Machine/WheelOps.lean ====
section
/-! DEFINITION. Shared operations over time bases, triggers and wheels (R233 to R235, R241 to R244, R251 to R262). -/

namespace Sys2Proof.Machine

/-- An ERRSTAT bit of a block with several inputs sets: SUB names the input of the event (R437). -/
def State.raiseSub (s : State) (b : Blk) (i bit sub : Nat) : State :=
  let s := if bitOf (s.reg b i (errRegs b).stat) bit then s else { s with flt := { s.flt with subs := s.flt.subs.set (b, i, bit) sub } }
  s.raise b i bit 0 0

/-! ### Time bases (R233, R234, R248) -/

def State.dom (s : State) (d : Fin 4) : Domain := s.time.dom.get d Domain.reset
def State.setDom (s : State) (d : Fin 4) (x : Domain) : State := { s with time := { s.time with dom := s.time.dom.set d x } }
def State.domEnabled (s : State) (d : Fin 4) : Bool := bitOf (s.reg .tu 0 (Reg.TU_DdCTRL d)) 31

/-- The time of a base code: T0 to T3, or LT (R248). -/
def State.baseTime (s : State) (b : Nat) : Nat := if h : b < 4 then (s.dom ⟨b, h⟩).time.toNat else s.now

def State.trig (s : State) (n : Fin 32) : Trig := s.time.trig.get n Trig.reset
def State.setTrig (s : State) (n : Fin 32) (x : Trig) : State := { s with time := { s.time with trig := s.time.trig.set n x } }
def State.trgCfg (s : State) (n : Fin 32) : Word := s.reg .tu 0 (Reg.TU_TRGCFGn n)
def trgEn (v : Word) : Bool := bitOf v 31
def trgBase (v : Word) : Nat := bitsOf v 30 28
def trgPol (v : Word) : Bool := bitOf v 27
def trgIrq (v : Word) : Bool := bitOf v 26
def trgWheel (v : Word) : Bool := bitOf v 25
def trgPin (v : Word) : Bool := bitOf v 24
def trgWW (v : Word) : Fin 4 := Fin.ofNat 4 (bitsOf v 23 22)
def trgCount (v : Word) : Nat := bitsOf v 15 0
def State.trgStart (s : State) (n : Fin 32) : Nat :=
  (s.reg .tu 0 (Reg.TU_TRGSTARTHn n)).toNat * 2 ^ 32 + (s.reg .tu 0 (Reg.TU_TRGSTARTLn n)).toNat
def State.trgPer (s : State) (n : Fin 32) : Nat := (s.reg .tu 0 (Reg.TU_TRGPERn n)).toNat
def State.trgWid (s : State) (n : Fin 32) : Nat := (s.reg .tu 0 (Reg.TU_TRGWIDn n)).toNat
def State.trgAdv (s : State) (n : Fin 32) : Nat := s.fld .tu 0 (Reg.TU_TRGADVn n) 15 0

/-- Time of edge `k` of a trigger (R241). -/
def State.edgeTime (s : State) (n : Fin 32) (k : Nat) : Nat := s.trgStart n + k * s.trgPer n

/-! ### Wheels -/

def State.whlCfg (s : State) (w : Fin 4) : Word := s.reg .whl 0 (Reg.WHL_CFGw w)
def whlEnabled (v : Word) : Bool := bitOf v 31
def whlCamera (v : Word) : Bool := bitOf v 30
def whlTrig (v : Word) : Fin 32 := Fin.ofNat 32 (bitsOf v 25 21)
def whlRecv (v : Word) : Fin 16 := Fin.ofNat 16 (bitsOf v 19 16)

/-- The wheel that a trigger's configuration drives with DEST WHEEL (R241). -/
def trgDrives (v : Word) (w : Fin 4) : Bool := trgWheel v && trgWW v == w

/-- A wheel derives from a domain: it is enabled and its trigger, on that domain, is enabled for it (R235). A wheel whose trigger is
disabled runs free in LT and derives from none (R256, R259). -/
def State.wheelOn (s : State) (w : Fin 4) (d : Fin 4) : Bool :=
  let v := s.whlCfg w
  let t := s.trgCfg (whlTrig v)
  whlEnabled v && !whlCamera v && trgEn t && trgDrives t w && trgBase t == d.val

/-- A domain is bound (R235). -/
def State.bound (s : State) (d : Fin 4) : Bool :=
  (List.finRange 32).any (fun n => trgEn (s.trgCfg n) && trgBase (s.trgCfg n) == d.val) ||
    (List.finRange 32).any (fun n => let v := s.reg .tu 0 (Reg.TU_CAPCFGn n); bitOf v 31 && bitsOf v 30 28 == d.val) ||
    (List.finRange 4).any (fun w => s.wheelOn w d)

/-- An admitted partition is bound to a wheel (R260). -/
def State.admitted (s : State) (w : Fin 4) : Bool := !(s.boundParts w).isEmpty

/-- The wheels that follow a trigger: those that name it and that its DEST WHEEL names (R241, R252). -/
def State.followers (s : State) (n : Fin 32) : List (Fin 4) :=
  (List.finRange 4).filter (fun w => whlEnabled (s.whlCfg w) && !whlCamera (s.whlCfg w) && whlTrig (s.whlCfg w) == n && trgDrives (s.trgCfg n) w)

/-- The time base of a wheel's ticks: its trigger's base while it runs from a trigger, else LT (R252, R253, R256). -/
def State.tickBase (s : State) (w : Fin 4) : Nat :=
  let v := s.whlCfg w
  if (s.wheel w).st == .running && !whlCamera v then s.baseTime (trgBase (s.trgCfg (whlTrig v))) else s.now

/-- The moment at which phase `ph` of the present frame begins has come: anchor + (ph − anchorPh) × P / 65,536, exactly. -/
def State.tickDue (s : State) (w : Fin 4) (ph : Nat) : Bool :=
  let x := s.wheel w
  decide (x.anchorT * 65536 + (ph - x.anchorPh) * x.period.toNat ≤ s.tickBase w * 65536)

/-- Every core that waits for a phase of a wheel that has come goes on with S[RD] = 0 (R154). -/
def State.releasePhases (s : State) (w : Fin 4) : State :=
  s.cores.foldl (fun s e =>
    match (s.core e.1).wait with
    | .phase wh fr ph rd =>
      if wh = w && (s.wheel w).passed fr ph.toNat && !s.isChecker e.1 then s.release e.1 rd 0 else s
    | _ => s) s

/-- A launched job without an outcome whose partition is bound to a wheel. -/
def State.jobOn (s : State) (w : Fin 4) (j : Job) : Bool := j.launched && j.out == .empty && (match s.part j.part with
  | some p => p.wheel == w
  | none => false)

/-- Launched jobs of a wheel's partitions count its ticks; a tick in free run is recorded (R282). -/
def State.countTicks (s : State) (w : Fin 4) : State :=
  let fr := (s.wheel w).st == .freeRun
  { s with sched := { s.sched with jobs := s.sched.jobs.map (fun j =>
      if s.jobOn w j then { j with ticks := j.ticks + 1, freerun := j.freerun || fr } else j) } }

/-- A periodic or accord-only kind has a launch or an accord slot that begins at a phase of a frame (R296). -/
def Kind.beginsAt (k : Kind) (n : Word) (ph : BitVec 16) : Bool :=
  k.typ != .queued && k.armed && decide (0 ≤ frameDiff n k.armFrame) && (k.launch == ph || (k.accPhase != 0xFFFF && k.accPhase == ph))

/-- Queued jobs that still run on a core at the tick of a periodic launch or accord slot on it are FAULTED and stopped; the launch is
late (R296). -/
def State.prefailTick (s : State) (w : Fin 4) : State :=
  let x := s.wheel w
  (s.boundParts w).foldl (fun (s : State) e =>
    if e.2.failed || e.2.fenced then s
    else (e.2.kinds.filter (fun k => k.beginsAt x.frame x.phase)).foldl (fun (s : State) k =>
      let cs := e.2.kindCores k
      let js := s.sched.jobs.filter (fun j => j.part == e.1 && j.queued && !j.stopping && j.out == .empty && j.running.any cs.contains)
      let s := js.foldl (fun (s : State) j => s.prefail e.1 k.num e.2.lead j cs) s
      if js.isEmpty || k.launch != x.phase then s else s.modKind e.1 k.num (fun k => { k with hit := some x.frame })) s) s

/-- What every phase tick brings (R154, R251, R282, R296). -/
def State.tickEffects (s : State) (w : Fin 4) : State := ((s.countTicks w).prefailTick w).releasePhases w

/-- A frame begins with its tick 0 at a moment of the tick base (R252, R253, R262). -/
def State.startFrame (s : State) (w : Fin 4) (at_ : Nat) (st : WheelSt) : State :=
  let x := s.wheel w
  let x := { x with st := st, frame := if x.begun then x.frame + 1 else 0, begun := true, phase := 0, startLt := s.now32,
                    startDue := false, hold := false, tickLt := s.now, anchorT := at_, anchorPh := 0,
                    freeFrames := if st = .freeRun then x.freeFrames + 1 else 0 }
  let s := s.setWheel w x
  let s := (s.setReg .whl 0 (Reg.WHL_FRAMEw w) x.frame).setReg .whl 0 (Reg.WHL_STARTw w) x.startLt
  s.tickEffects w

/-- A wheel stops (R256 to R258): jobs of its partitions get WHEELSTOP, their periodic kinds are disarmed. -/
def State.wheelStop (s : State) (w : Fin 4) : State :=
  let s := (s.setWheel w { s.wheel w with st := .stopped, startDue := false, hold := false, event := none }).raiseSub .whl 0 2 w
  (s.boundParts w).foldl (fun s e =>
    let s := (s.openJobs e.1).foldl (fun s j => if j.launched then (s.finalize j .wheelStop).stopJob j else s) s
    let armed := (e.2.kinds.filter (fun k => k.armed)).map (fun k => k.num)
    match (s.disarmAll e.1).part e.1 with
    | some x => (s.disarmAll e.1).setPart e.1 { x with rearm := x.rearm ++ armed }
    | none => s) s

/-- A wheel loses its source and enters free run, timed in LT (R256). A holding wheel ends its frame at once. -/
def State.loseSource (s : State) (w : Fin 4) : State :=
  let x := s.wheel w
  if x.st = .running then
    let s := s.setWheel w { x with st := .freeRun, freeFrames := 0, anchorT := s.now, anchorPh := x.phase.toNat,
                                   startDue := x.hold, hold := false }
    let s := { s with sched := { s.sched with jobs := s.sched.jobs.map (fun j => if s.jobOn w j then { j with freerun := true } else j) } }
    (s.raiseSub .whl 0 1 w).count .whl 0 (Reg.WHL_LOSSCNTw w) 1
  else s

/-- A source event of an enabled wheel (R252, R253, R256): before phase 0xFF00 of a running frame it is ignored and SPUR is
set; otherwise the frame ends. A camera event makes the next tick phase 0; a trigger edge starts the frame itself. -/
def State.sourceEvent (s : State) (w : Fin 4) (at_ : Nat) (camera : Bool) : State :=
  let x := s.wheel w
  if s.time.frozen || x.st = .stopped then s
  else if x.st = .armed then s.startFrame w at_ .running
  else if x.phase.toNat < 0xFF00 then (s.count .whl 0 (Reg.WHL_SPURCNTw w) 1).raiseSub .whl 0 0 w
  else if camera then s.setWheel w { x with st := .running, startDue := true }
  else s.startFrame w at_ .running

/-- The wheels that follow the frame starts of a receiver (R253). -/
def State.cameraEvent (s : State) (r : Fin 16) : State :=
  (List.finRange 4).foldl (fun s w =>
    let v := s.whlCfg w
    if whlEnabled v && whlCamera v && whlRecv v == r then s.sourceEvent w s.now true else s) s

/-- The checks of R260 on an enable. -/
def State.enableOk (s : State) (w : Fin 4) (v : Word) (per : Nat) : Bool :=
  let n := whlTrig v
  let t := s.trgCfg n
  !s.time.frozen && decide (4000000 ≤ per) && decide (per ≤ 200000000) &&
    (whlCamera v || (trgEn t && trgDrives t w && s.trgPer n == per))

/-- Whether a wheel is armed, running or in free run. -/
def Wheel.live (x : Wheel) : Bool := x.st != .stopped

/-- An accepted enable: it arms the wheel, which takes its period; a wheel enabled from disabled starts from frame 0 (R260,
R262). -/
def State.armWheel (s : State) (w : Fin 4) (v : Word) : State :=
  let x := s.wheel w
  let was := whlEnabled (s.whlCfg w)
  let s := s.setWheel w { x with st := .armed, begun := x.begun && was, period := s.reg .whl 0 (Reg.WHL_PERw w),
                                 startDue := false, hold := false, event := none, freeFrames := 0 }
  s.setReg .whl 0 (Reg.WHL_CFGw w) v

/-- A write of WHL_CFGw (R257, R260): it acts, changes nothing, or is refused with BADCFG. -/
def State.writeWhlCfg (s : State) (w : Fin 4) (v : Word) : State :=
  let v := v &&& 0xC3EF0000
  let was := whlEnabled (s.whlCfg w)
  if whlEnabled v then
    if (s.wheel w).live then s
    else if s.enableOk w v (s.reg .whl 0 (Reg.WHL_PERw w)).toNat then s.armWheel w v
    else s.raiseSub .whl 0 3 w
  else if was && s.admitted w then s.raiseSub .whl 0 3 w
  else (s.setWheel w { s.wheel w with st := .stopped, begun := false, startDue := false, hold := false, event := none }).setReg
    .whl 0 (Reg.WHL_CFGw w) v

end Sys2Proof.Machine
end

