-- ==== Sys2Proof/Machine/Time.lean ====
section
/-! DEFINITION. Time commands: the tick of the time clock, domains, triggers, captures, gPTP (R233 to R250). -/

namespace Sys2Proof.Machine

/-! ### The time clock -/

/-- One cycle of a domain: its time advances by 2 ns × (1 + RATE × 2^-40) and by 2^-9 ns of slew (R234). -/
def Domain.tick (x : Domain) (rate : Int) : Domain :=
  let sl : Int := if 0 < x.slew then 1 else if x.slew < 0 then -1 else 0
  let t : Int := (x.time.toNat * 2 ^ 40 + x.frac.toNat : Nat) + 2 ^ 41 + 2 * rate + sl * 2 ^ 31
  { x with time := BitVec.ofInt 64 (t / 2 ^ 40), frac := BitVec.ofInt 40 t, slew := x.slew - sl }

/-- The steps and loads of the writes before a cycle act in it, oldest first; a load takes the place of the cycle's increment (R235):
DESIGN CHOICE, log entry 111. -/
def Domain.act (x : Domain) : Domain :=
  { x.acts.foldl (fun (x : Domain) (a : TimeAct) => match a with
      | .step v => { x with time := x.time + BitVec.ofInt 64 v }
      | .load t => { x with time := t, frac := 0 }) x with acts := [] }

def State.cap (s : State) (n : Fin 32) : Cap := s.time.cap.get n ⟨[], none, false, []⟩
def State.setCap (s : State) (n : Fin 32) (x : Cap) : State := { s with time := { s.time with cap := s.time.cap.set n x } }

/-- An edge of a capture input enters the FIFO, or is dropped when it comes less than 40 ns after the last stamped one or the FIFO is
full (R246). -/
def State.takeStamp (s : State) (n : Fin 32) (e : Word × Nat × Bool) : State :=
  let x := s.cap n
  if decide (16 ≤ x.fifo.length) || (match x.last with
      | some l => decide (e.2.1 < l + 40)
      | none => false) then
    ((s.setCap n { x with ovf := true }).count .tu 0 (Reg.TU_CAPDROPn n) 1).raiseSub .tu 0 1 n
  else s.setCap n { x with fifo := x.fifo ++ [(e.1, e.2.2)], last := some e.2.1 }

/-- The edges of a cycle are taken at its end, after every removal of the cycle (R247). -/
def State.takeStamps (s : State) : State :=
  s.time.cap.foldl (fun (s : State) (e : Fin 32 × Cap) =>
    e.2.edges.foldl (fun (s : State) x => s.takeStamp e.1 x) (s.setCap e.1 { s.cap e.1 with edges := [] })) s

/-- One 500 MHz cycle (R233 to R235, R247, R249): nothing advances before VD_TIME is on or after the clock has failed. -/
def State.clockTick (s : State) : State :=
  if s.time.frozen || !s.domOn 86 then s
  else
    let s := s.takeStamps
    let s := { s with time := { s.time with lt := s.time.lt + 2 } }
    (List.finRange 4).foldl (fun s d =>
      let x := s.dom d
      s.setDom d (if s.domEnabled d then x.tick (s.reg .tu 0 (Reg.TU_DdRATE d)).toInt else x).act) s

/-! ### Domains -/

/-- The trigger of a wheel with an admitted partition, and the domain it derives from, are device firmware's (R250). -/
def State.fwTrig (s : State) (n : Fin 32) : Bool := trgWheel (s.trgCfg n) && (s.followers n).any s.admitted
def State.fwDomain (s : State) (d : Fin 4) : Bool := (List.finRange 4).any (fun w => s.wheelOn w d && s.admitted w)

/-- A write of a TU_ register from outside firmware: it needs expert control, and may not touch what R250 guards. -/
def State.tuWrite (s : State) (src : Src) (off : Nat) (guard would : Bool) (f : State → State) : State :=
  s.regCommand src .tu 0 off (vehRegs 0x1400000) (fun s =>
    if guard && !src.fw then (if would then s.ignoredWrite .tu 0 else s)
    else s.guarded src .tu 0 would f)

def State.refuseDom (s : State) (d : Fin 4) : State := s.count .tu 0 (Reg.TU_DdREFUSE d) 1

/-- A change of the time in the next cycle, unless the domain is bound now (R235). -/
def State.domAct (s : State) (d : Fin 4) (a : TimeAct) : State :=
  if s.bound d then s.refuseDom d else s.setDom d { s.dom d with acts := (s.dom d).acts ++ [a] }

/-- A step: signed ns are added to the time (R235). -/
def State.domStep (s : State) (d : Fin 4) (v : Int) : State := s.domAct d (.step v)

/-- A load: the time becomes a value with fraction 0 (R235). -/
def State.domLoad (s : State) (d : Fin 4) (v : BitVec 64) : State := s.domAct d (.load v)

/-- A slew amount replaces what remains of the previous one; it is held in units of 2^-9 ns (R234, R235). -/
def State.domSlew (s : State) (d : Fin 4) (v : Int) : State :=
  s.setDom d { s.dom d with slew := v * 512 }

/-- ENABLE of a domain; a disable of a bound domain is refused (R235). -/
def State.domEnable (s : State) (d : Fin 4) (en : Bool) : State :=
  if !en && s.domEnabled d && s.bound d then s.refuseDom d
  else s.setFld .tu 0 (Reg.TU_DdCTRL d) 31 31 (b2n en)

/-- SET value of a domain (R248). -/
def State.domSet (s : State) (d : Fin 4) : BitVec 64 :=
  (s.reg .tu 0 (Reg.TU_DdSETH d)).setWidth 64 <<< 32 ||| (s.reg .tu 0 (Reg.TU_DdSETL d)).setWidth 64

/-- DOMAIN_STEP (R235, R250). -/
def execDomainStep (src : Src) (d : Fin 4) (v : Word) (s : State) : Out :=
  .next (s.tuWrite src (Reg.TU_DdSTEP d) (s.fwDomain d) true (fun s => s.domStep d v.toInt))

/-- DOMAIN_LOAD (R235, R250). -/
def execDomainLoad (src : Src) (d : Fin 4) (s : State) : Out :=
  .next (s.tuWrite src (Reg.TU_DdLOAD d) (s.fwDomain d) true (fun s => s.domLoad d (s.domSet d)))

/-- DOMAIN_SLEW (R234, R250). -/
def execDomainSlew (src : Src) (d : Fin 4) (v : Word) (s : State) : Out :=
  .next (s.tuWrite src (Reg.TU_DdSLEW d) (s.fwDomain d) true (fun s => s.domSlew d v.toInt))

/-- DOMAIN_ENABLE (R235, R250). -/
def execDomainEnable (src : Src) (d : Fin 4) (en : Bool) (s : State) : Out :=
  .next (s.tuWrite src (Reg.TU_DdCTRL d) (s.fwDomain d) (s.domEnabled d != en) (fun s => s.domEnable d en))

/-- SLEW_COMPLETE (R234): the slew amount is used up. SLEWING shows that an amount remains, so it reads 0 from the cycle that uses the
last of it, and the event itself changes nothing. -/
def execSlewComplete (_ : Fin 4) (s : State) : Out := .next s

/-! ### Triggers -/

/-- The limits of R242 and R248 on an enable with configuration `v`. -/
def State.trigOk (s : State) (n : Fin 32) (v : Word) : Bool :=
  let p := s.trgPer n
  let wid := s.trgWid n
  decide (trgBase v < 5) && decide (8 ≤ wid) && (p == 0 || (decide (wid < p) && decide (1000 ≤ p))) &&
    (!trgWheel v || (List.finRange 32).all (fun m => m == n || !(trgEn (s.trgCfg m) && trgWheel (s.trgCfg m) && trgWW (s.trgCfg m) == trgWW v)))

/-- The first edge not yet reached when a trigger is enabled, if one remains (R244). -/
def State.firstEdge (s : State) (n : Fin 32) (v : Word) : Option Nat :=
  let t := s.baseTime (trgBase v)
  let st := s.trgStart n
  let p := s.trgPer n
  if t ≤ st then some 0
  else if p = 0 then none
  else
    let k := (t - st + p - 1) / p
    if trgCount v ≠ 0 ∧ trgCount v ≤ k then none else some k

/-- How many pulses, from that of the edge at `e` on, should have begun at `t`: those of edges before `t + adv` (R244). -/
def State.begunPulses (_ : State) (e p t adv : Nat) (left : Option Nat) : Nat :=
  let n := if t + adv ≤ e then 0 else if p = 0 then 1 else (t + adv - e + p - 1) / p
  match left with
  | some m => Nat.min n m
  | none => n

/-- An accepted enable: edges already passed are skipped and LATE set; a pin pulse that should have begun begins at once, or
is not made when it should have ended (R244). -/
def State.trigEnable (s : State) (n : Fin 32) (v : Word) : State :=
  let x := { s.trig n with pinUsed := (s.trig n).pinUsed || trgPin v,
                           pinPol := if trgPin v then trgPol v else (s.trig n).pinPol, produced := 0, pulse := none }
  let s := s.setReg .tu 0 (Reg.TU_TRGCFGn n) v
  let t := s.baseTime (trgBase v)
  match s.firstEdge n v with
  | none => s.setTrig n { x with active := false, late := true, next := 0, pulsed := 0 }
  | some k =>
    let p := s.trgPer n
    let x := { x with active := true, late := x.late || decide (0 < k), next := k, pulsed := k }
    let b := s.begunPulses (s.edgeTime n k) p t (s.trgAdv n) (if trgCount v = 0 then none else some (trgCount v - k))
    s.setTrig n (if trgPin v && decide (0 < b) then
      { x with late := true, pulsed := k + b, pulse := if t + s.trgAdv n < s.edgeTime n (k + b - 1) + s.trgWid n then some (k + b - 1) else none }
    else x)

/-- A trigger is disabled: its pin takes the inactive level and a wheel that follows it loses its source (R241, R256). -/
def State.trigDisable (s : State) (n : Fin 32) : State :=
  let fs := s.followers n
  let s := (s.setFld .tu 0 (Reg.TU_TRGCFGn n) 31 31 0).setTrig n { s.trig n with active := false, pulse := none }
  fs.foldl (fun s w => s.loseSource w) s

/-- A write of TU_TRGCFGn (R242, R243). -/
def State.writeTrig (s : State) (n : Fin 32) (v : Word) : State :=
  let v := v &&& 0xFFC0FFFF
  if trgEn (s.trgCfg n) then (if trgEn v then s else s.trigDisable n)
  else if !trgEn v then s.setReg .tu 0 (Reg.TU_TRGCFGn n) v
  else if s.trigOk n v && !s.time.frozen then s.trigEnable n v
  else (s.setReg .tu 0 (Reg.TU_TRGCFGn n) (v &&& 0x7FFFFFFF)).raise .tu 0 0 0 0

/-- TRIGGER_CONFIG (R242 to R244, R250). -/
def execTriggerConfig (src : Src) (n : Fin 32) (v : Word) (s : State) : Out :=
  .next (s.tuWrite src (Reg.TU_TRGCFGn n) (s.fwTrig n) (s.trgCfg n != v) (fun s => s.writeTrig n v))

/-- Edges from the next one on that the base time has left behind: their successor's time has come too (R244). -/
def State.edgesBehind (s : State) (n : Fin 32) : Nat :=
  let x := s.trig n
  let p := s.trgPer n
  let b := if p = 0 then 0 else (s.baseTime (trgBase (s.trgCfg n)) - s.edgeTime n x.next) / p
  if trgCount (s.trgCfg n) = 0 then b else Nat.min b (trgCount (s.trgCfg n) - 1 - x.next)

/-- TRIGGER_EDGE (R241, R244, R256): the WHEEL and IRQ actions of the next edge take place at its time. Edges left behind are skipped,
counted and set LATE: DEDUCED, log entry 112. -/
def execTriggerEdge (n : Fin 32) (s : State) : Out :=
  let x := s.trig n
  let v := s.trgCfg n
  if s.time.frozen || !s.domOn 86 || !trgEn v || !x.active || !decide (s.edgeTime n x.next ≤ s.baseTime (trgBase v)) then .next s
  else
    let b := s.edgesBehind n
    let k := x.next + b + 1
    let last := s.trgPer n == 0 || (trgCount v != 0 && decide (trgCount v ≤ k))
    let e := s.edgeTime n (x.next + b)
    let s := s.setTrig n { x with next := k, produced := x.produced + 1, active := !last, irq := x.irq || trgIrq v,
                                  late := x.late || decide (0 < b), pulsed := Nat.max x.pulsed (x.next + b) }
    .next (if trgWheel v then
      (s.followers n).foldl (fun s w => s.setWheel w { s.wheel w with event := some e }) s else s)

/-- TRIGGER_PULSE_START (R241): at the edge time minus ADV the pin goes to its active level. -/
def execTriggerPulseStart (n : Fin 32) (s : State) : Out :=
  let x := s.trig n
  let v := s.trgCfg n
  let p := s.trgPer n
  let left := if x.pulsed = x.next then x.active else x.active && p != 0 && (trgCount v == 0 || decide (x.pulsed < trgCount v))
  .next (if !s.time.frozen && s.domOn 86 && trgEn v && trgPin v && left && x.pulse.isNone &&
      decide (s.edgeTime n x.pulsed ≤ s.baseTime (trgBase v) + s.trgAdv n) then
    s.setTrig n { x with pulse := some x.pulsed, pulsed := x.pulsed + 1 } else s)

/-- TRIGGER_PULSE_END (R241): WID ns later it returns to its inactive level. -/
def execTriggerPulseEnd (n : Fin 32) (s : State) : Out :=
  let x := s.trig n
  match x.pulse with
  | some k => .next (if decide (s.edgeTime n k + s.trgWid n ≤ s.baseTime (trgBase (s.trgCfg n)) + s.trgAdv n) then
      s.setTrig n { x with pulse := none } else s)
  | none => .next s

/-- Level of TRG_OUTn (R241, R249): low while VD_TIME is off and before its first enable with DEST PIN. -/
def State.trgOut (s : State) (n : Fin 32) : Bool :=
  let x := s.trig n
  s.domOn 86 && x.pinUsed && (if x.pulse.isSome && !s.time.frozen then x.pinPol else !x.pinPol)

/-! ### Captures -/

/-- An edge of a capture input: it is stamped with its base's time of this cycle (R245). -/
def State.captureEdge (s : State) (n : Fin 32) (rising : Bool) : State :=
  let v := s.reg .tu 0 (Reg.TU_CAPCFGn n)
  let sel := if rising then bitOf v 26 else bitOf v 27
  let x := s.cap n
  if s.time.frozen || !s.domOn 86 || !bitOf v 31 || !sel then s
  else s.setCap n { x with edges := x.edges ++ [(BitVec.ofNat 32 (s.baseTime (bitsOf v 30 28)), s.now, rising)] }

/-- CAPTURE_EDGE (R245, R246): an edge at the pin of an input that takes its edges from the pin. -/
def execCaptureEdge (n : Fin 32) (rising : Bool) (s : State) : Out :=
  .next (if bitOf (s.reg .tu 0 (Reg.TU_CAPCFGn n)) 25 then s else s.captureEdge n rising)

/-- Internal events reach the inputs that select them: frame starts 0 to 15, vertical syncs 16 to 21 (R245). -/
def State.internalEvent (s : State) (ev : Nat) : State :=
  (List.finRange 32).foldl (fun (s : State) (n : Fin 32) =>
    let v := s.reg .tu 0 (Reg.TU_CAPCFGn n)
    if bitOf v 25 && bitsOf v 4 0 == ev then s.captureEdge n true else s) s

/-- The oldest stamp is removed (R247). -/
def State.capPop (s : State) (n : Fin 32) : State := s.setCap n { s.cap n with fifo := (s.cap n).fifo.drop 1 }

/-- CAPTURE_POP (R14, R247): a pop register is written whatever EXPERT_EN holds. -/
def execCapturePop (src : Src) (n : Fin 32) (s : State) : Out :=
  .next (s.regCommand src .tu 0 (Reg.TU_CAPPOPn n) (vehRegs 0x1400000) (fun s => s.capPop n))

/-- A write of TU_CAPCFGn: an enable with a reserved base, edge or event is refused with BADCFG (R248). -/
def capOk (v : Word) : Bool := !bitOf v 31 || (decide (bitsOf v 30 28 < 5) && bitsOf v 27 26 != 0 && (!bitOf v 25 || decide (bitsOf v 4 0 ≤ 21)))
def State.writeCap (s : State) (n : Fin 32) (v : Word) : State :=
  let v := v &&& 0xFE00001F ||| (v &&& 0x0C000000)
  if capOk v then s.setReg .tu 0 (Reg.TU_CAPCFGn n) v
  else (s.setReg .tu 0 (Reg.TU_CAPCFGn n) (v &&& 0x7FFFFFFF)).raiseSub .tu 0 0 n

/-! ### Failure of the clock -/

/-- TIME_CLOCK_LOSS (R249, R257): times freeze, pins go inactive, wheels stop. -/
def execTimeClockLoss (s : State) : Out :=
  if s.time.frozen || !s.domOn 86 then .next s
  else
    let s := { s with time := { s.time with frozen := true, trig := s.time.trig.map (fun (e : Fin 32 × Trig) => (e.1, { e.2 with pulse := none })) } }
    let s := s.raise .tu 0 2 0 0
    .next ((List.finRange 4).foldl (fun (s : State) (w : Fin 4) => if (s.wheel w).live then s.wheelStop w else s) s)

/-! ### gPTP (R236, R237) -/

/-- gPTP state of a domain changes: GPTP_STATE is traced by FP5 (R366). -/
def State.setGptp (s : State) (d : Fin 4) (st : Nat) (gm : Word) : State :=
  if s.fw.gptpState.get d 0 = st then s
  else ({ s with fw := { s.fw with gptpState := s.fw.gptpState.set d st } }).trace 5 0x0501 [d, st, gm.toNat]

/-- A switch port that gPTP frames pass: the gateway is on, the port is enabled, enabled for gPTP, and its link is up (R237, R532). -/
def State.gptpPort (s : State) (p : Fin 14) : Bool :=
  s.up 101 && bitOf (s.reg .sw 0 (Reg.SW_PCFGp p)) 31 && bitOf (s.reg .sw 0 (Reg.SW_PCFGp p)) 26 && s.fld .sw 0 (Reg.SW_PSTATp p) 1 1 == 1

/-- GPTP_FRAME_RECEIVE (R236 to R238): a frame on a port is stamped with LT and delivered; the instance takes state `st`, which ends
holdover unless it is 3. Which state a message gives is the standard's: DESIGN CHOICE, log entry 124. -/
def execGptpFrameReceive (port : Fin 10) (d : Fin 4) (sync : Bool) (st : Fin 5) (gm : Word) (s : State) : Out :=
  let rx := s.time.gptpRx ++ [(⟨port.val, by omega⟩, s.now32)]
  .next (if s.gptpPort ⟨port.val, by omega⟩ && s.fpRuns 5 && s.fpRuns 6 then
    let s := { s with time := { s.time with gptpRx := rx } }
    let s := s.setDom d { s.dom d with holdover := st.val == 3 }
    let s := if sync then { s with time := { s.time with lastSync := s.time.lastSync.set d s.now } } else s
    s.setGptp d st gm else s)

/-- GPTP_RECEIPT_TIMEOUT (R237): a synchronised instance enters holdover; the domain keeps its last RATE. -/
def execGptpReceiptTimeout (d : Fin 4) (s : State) : Out :=
  .next (if s.fw.gptpState.get d 0 = 2 && s.fpRuns 5 then
    (s.setDom d { s.dom d with holdover := true }).setGptp d 3 0 else s)

/-- The residence time of a relayed Sync, from its ingress stamp, which wraps (R236, R239): ns that its correction field carries. -/
def State.residence (s : State) (stamp : Word) : Nat := (s.now32 - stamp).toNat

/-- GPTP_SYNC_SEND (R236, R237): firmware sends a message out of a port with a stamp request, and its egress stamp returns. The operand is
the ingress stamp of a Sync that it relays: the residence, at most 2 ms, goes into the correction field. -/
def execGptpSyncSend (port : Fin 10) (d : Fin 4) (relayed : Option Word) (s : State) : Out :=
  let res := (relayed.map s.residence).getD 0
  .next (if s.gptpPort ⟨port.val, by omega⟩ && s.fpRuns 5 && s.fpRuns 6 && s.fw.gptpState.get d 0 != 0 && decide (res ≤ 2000000) then
    { s with time := { s.time with gptpTx := s.time.gptpTx ++ [(⟨port.val, by omega⟩, s.now32, res)] } } else s)

end Sys2Proof.Machine
end

