-- ==== Sys2Proof/Machine/Wheel.lean ====
section
/-! DEFINITION. Wheel commands: phase ticks, source events, free run, enables (R251 to R262, R300). -/

namespace Sys2Proof.Machine

/-- The wheel master runs (R249, R251). -/
def State.wheelClock (s : State) : Bool := !s.time.frozen && s.domOn 86

/-- The moment at which the frame of a free-running wheel ends, in whole ns. -/
def Wheel.frameEnd (x : Wheel) : Nat := x.anchorT + (65536 - x.anchorPh) * x.period.toNat / 65536

/-- A tick of a wheel whose moment has come (R252, R253, R255, R256): a camera event ends the frame with the tick in progress, and a
hold that enters free run ends it at once. -/
def State.phaseTick (s : State) (w : Fin 4) : State :=
  let x := s.wheel w
  if !s.wheelClock || !x.going then s
  else if x.startDue then
    (if x.st = .freeRun || x.hold || s.tickDue w (x.phase.toNat + 1) then s.startFrame w s.now x.st else s)
  else if !s.tickDue w (x.phase.toNat + 1) then s
  else if x.phase = 0xFFFF then
    if x.st = .freeRun then (if 4 ≤ x.freeFrames then s else s.startFrame w x.frameEnd .freeRun)
    else if whlCamera (s.whlCfg w) then s.setWheel w { x with hold := true }
    else s
  else (s.setWheel w { x with phase := x.phase + 1, tickLt := s.now }).tickEffects w

/-- PHASE_TICK (R251). -/
def execPhaseTick (w : Fin 4) (s : State) : Out := .next (s.phaseTick w)

/-- WHEEL_START_EVENT (R252, R256): the start event of the wheel's trigger; its last edge is also the loss of the source. -/
def execWheelStartEvent (w : Fin 4) (s : State) : Out :=
  let x := s.wheel w
  match x.event with
  | none => .next s
  | some t =>
    let s := (s.setWheel w { x with event := none }).sourceEvent w t false
    .next (if (s.trig (whlTrig (s.whlCfg w))).active then s else s.loseSource w)

/-- SOURCE_HOLD_TIMEOUT (R256). -/
def execSourceHoldTimeout (w : Fin 4) (s : State) : Out :=
  let x := s.wheel w
  .next (if s.wheelClock && x.hold && whlCamera (s.whlCfg w) && s.tickDue w (65536 + 1024) then s.loseSource w else s)

/-- FREE_RUN_EXPIRE (R256, R258). -/
def execFreeRunExpire (w : Fin 4) (s : State) : Out :=
  let x := s.wheel w
  .next (if s.wheelClock && x.st == .freeRun && x.freeFrames == 4 && x.phase == 0xFFFF && !x.startDue && s.tickDue w 65536 then
    s.wheelStop w else s)

/-- A WHL_ register write from outside firmware may not touch a wheel with an admitted partition (R300). -/
def State.whlWrite (s : State) (src : Src) (w : Fin 4) (off : Nat) (would : Bool) (f : State → State) : State :=
  s.regCommand src .whl 0 off (vehRegs 0x1410000) (fun s =>
    if s.admitted w && !src.fw then (if would then s.ignoredWrite .whl 0 else s)
    else s.guarded src .whl 0 would f)

/-- WHEEL_ENABLE (R257, R260, R262). -/
def execWheelEnable (src : Src) (w : Fin 4) (v : Word) (s : State) : Out :=
  .next (s.whlWrite src w (Reg.WHL_CFGw w)
    (s.whlCfg w != v &&& 0xC3EF0000 || (whlEnabled v && !(s.wheel w).live)) (fun s => s.writeWhlCfg w v))

end Sys2Proof.Machine
end

