-- ==== Sys2Proof/Machine/Jobs.lean ====
section
/-! DEFINITION. Job commands: argument reads, launches, ENDs, yields, deadlines, accord slots, stops, aborts and the posting
of records (R263 to R301, R344 to R348, R360). -/

namespace Sys2Proof.Machine

/-! ### The cadence units as requesters -/

/-- A cadence unit acts with the world, context and class of a partition (R33, R209, R464). -/
def State.cadSrc (s : State) (cl : ClusterId) (ctx : BitVec 12) (cls : Fin 8) : Src :=
  ⟨cl.die8, BitVec.ofNat 10 (cl.n.val * 16 + 9), s.ctxWorld ctx, ctx, s.gen ctx, cls, false⟩

/-- STATE of a result header is written as 0 at a launch (R345). -/
def State.clearReady (s : State) (j : Job) : State := s.unitWrite (s.cadSrc j.lead j.ctx j.cls) (j.desc.res + 4) (leBytes 4 0)

/-- Every cadence unit of a kind reads the argument block in class 7 (R271); an error response sets ARGCOPY. -/
def State.argRead (s : State) (pid : Fin 32) (p : Part) (k : Kind) (a : Nat) : State × Option (List Byte) :=
  (p.kindRecs k).foldl (fun (r : State × Option (List Byte)) x =>
    match r.1.unitRead (r.1.cadSrc x.cl p.ctx 7) a 256 with
    | (s, some bs) => (s, r.2.map (fun _ => bs))
    | (s, none) => (s.raise .cad x.cl.inst 0 a (cadInfo pid k.num (coreField (x.leads p.paired))), none)) (s, some [])

/-- A core runs nothing (R264, R280). -/
def State.coreFree (s : State) (c : CoreId) : Bool :=
  !(s.core c).run && (s.core c).wait == .none && s.sched.jobs.all (fun j => !j.running.contains c)

/-- A new instance of a kind; an old final one of the same number gives way. -/
def newJob (pid : Fin 32) (p : Part) (k : Kind) (d : JobDesc) (queued : Bool) (num : Word) : Job :=
  { part := pid, kind := k.num, ctx := p.ctx, queued := queued, num := num, desc := d, out := .empty, late := false,
    freerun := false, pwfail := 0, endph := 0, acceptLt := 0, launchLt := 0, yieldLt := 0, launched := false, yielded := false,
    ticks := 0, frame := 0, running := [], resume := [], stopping := false, finalLt := 0, lateCore := 0, lead := p.lead,
    cls := p.cls, posted := false }

def State.addJob (s : State) (j : Job) : State :=
  { s with sched := { s.sched with jobs := s.sched.jobs.filter (fun x => !x.same j) ++ [j] } }

/-! ### Launches -/

/-- Ticks from a wheel's phase to a launch phase, and the frame in which it comes. -/
def ticksTo (x : Wheel) (l : Nat) : Nat × Word :=
  if x.phase.toNat ≤ l then (l - x.phase.toNat, x.frame) else (65536 - x.phase.toNat + l, x.frame + 1)

/-- The kind launches in a frame: it is armed from that frame on and its partition is neither failed nor fenced (R276, R416,
R458). -/
def Part.launches (p : Part) (k : Kind) (n : Word) : Bool :=
  k.typ != .queued && k.armed && decide (0 ≤ frameDiff n k.armFrame) && !p.failed && !p.fenced

/-- The argument block of a periodic kind is read in the 64 ticks before its launch phase (R271). -/
def State.argumentRead (s : State) (pid kn : Fin 32) : State :=
  match s.part pid with
  | none => s
  | some p => match p.kind kn with
    | none => s
    | some k =>
      let x := s.wheel p.wheel
      let t := ticksTo x k.launch.toNat
      let again : Bool := match k.staged with
        | some st => st.1 == t.2
        | none => false
      match k.desc with
      | none => s
      | some d =>
        if !x.going || !p.launches k t.2 || t.1 = 0 || 64 < t.1 || again then s
        else
          let (s, bs) := s.argRead pid p k d.arg
          let s := if bs.isSome then (p.kindCores k).foldl (fun s c => if s.coreFree c then s.setCadCore c 1 else s) s else s
          s.modKind pid kn (fun k => { k with staged := some (t.2, bs) })

/-- ARGUMENT_READ (R271). -/
def execArgumentRead (p k : Fin 32) (s : State) : Out := .next (s.argumentRead p k)

/-- The cores of an instance start: their argument lines are written first (R271, R279); the header reads not ready (R345). -/
def State.launch (s : State) (p : Part) (k : Kind) (j : Job) (bs : List Byte) : State :=
  let cs := p.kindCores k
  let x := s.wheel p.wheel
  let j := { j with launched := true, launchLt := s.now, running := cs, frame := x.frame, freerun := j.freerun || x.st == .freeRun }
  let s := (s.setJob j).clearReady j
  let s := s.setAcct p.ctx (fun a => { a with launched := satAdd a.launched 1 })
  cs.foldl (fun s c => (s.writeArgs p c bs).startCore c k.entry p.wheel) s

/-- A periodic launch of a partition's kind (R264, R271, R279, R287, R296). Its job frame is the frame current at the launch (R263). A
launch after its tick, or after the stop of a queued job, is late. -/
def State.periodicLaunch (s : State) (pid kn : Fin 32) : State :=
  match s.part pid with
  | none => s
  | some p => match p.kind kn with
    | none => s
    | some k => match k.desc, k.staged with
      | some d, some (n, bs) =>
        let x := s.wheel p.wheel
        let cs := p.kindCores k
        if !x.going || !p.launches k n || !x.passed n k.launch.toNat || k.lastFrame == some n then s
        else match s.sched.jobs.find? (fun j => j.queued && !j.stopping && j.out == .empty && j.running.any cs.contains) with
          | some j => (s.prefail pid kn p.lead j cs).modKind pid kn (fun k => { k with hit := some n })
          | none =>
            if !cs.all s.coreFree then s
            else
              let s := s.modKind pid kn (fun k => { k with staged := none, lastFrame := some n, hit := none })
              let j := newJob pid p k d false (if bs.isSome then x.frame else n)
              let s := s.addJob j
              match bs with
              | none => s.finalize j .faulted
              | some bs =>
                let s := s.launch p k j bs
                if x.frame = n ∧ x.phase = k.launch ∧ k.hit ≠ some n then s
                else match cs.head? with
                  | some c => s.lateEvent c
                  | none => s
      | _, _ => s

/-- A launch entry of a cadence unit that device firmware did not install (R301). -/
def State.expertEntry (s : State) (cl : ClusterId) (i : Fin 64) : Bool :=
  bitOf (s.reg .cad cl.inst (Reg.CAD_LTABi i)) 31 && (s.sched.ltab.get? (cl, i)).isNone

/-- The cores of a launch entry that belong to no partition. -/
def State.entryCores (s : State) (cl : ClusterId) (i : Fin 64) : List CoreId :=
  cl.cores.filter (fun c => bitOf (s.reg .cad cl.inst (Reg.CAD_LTABi i)) (16 + c.k.val) && s.coreEnabled c && (s.partOf c).isNone)

/-- An expert launch at its phase of the core's wheel, once a tick. Log entry 18. -/
def State.entryLaunch (s : State) (cl : ClusterId) (i : Fin 64) : State :=
  if !s.expertEntry cl i || !s.up (domCluster cl) then s
  else (s.entryCores cl i).foldl (fun s c =>
    let w := (s.core c).jobWheel
    let x := s.wheel w
    if x.going && x.phase.toNat == s.fld .cad cl.inst (Reg.CAD_LTABi i) 15 0 && s.coreFree c &&
        decide ((s.core c).startLt < x.tickLt) then
      (s.startCore c (BitVec.ofNat 20 (s.fld .cad cl.inst (Reg.CAD_LENTRYi i) 19 3 * 8)) w).modCore c (fun y => { y with entry := some i })
    else s) s

/-- PERIODIC_LAUNCH (R279, R301). -/
def execPeriodicLaunch (r : LaunchRef) (s : State) : Out :=
  .next (match r with
    | .job p k => s.periodicLaunch p k
    | .entry cl i => s.entryLaunch cl i)

/-! ### Queued jobs -/

/-- A job that waits for a launch or a relaunch. -/
def Job.waits (j : Job) : Bool := j.queued && j.out == .empty && !j.stopping && (!j.launched || j.yielded)

/-- Of the waiting jobs of a partition, the one of highest priority; of equals the earliest (R280). -/
def bestJob : List Job → Option Job
  | [] => none
  | j :: t => match bestJob t with
    | none => some j
    | some x => if x.desc.pri.val < j.desc.pri.val then some x else some j

def State.nextQueued (s : State) (p : Fin 32) : Option Job := bestJob (s.sched.jobs.filter (fun j => j.part == p && j.waits))

/-- Ticks to the earliest periodic launch or accord slot on some cores (R280, R292). -/
def State.nextPeriodic (s : State) (p : Part) (cs : List CoreId) : List Nat :=
  let x := s.wheel p.wheel
  (p.kinds.filter (fun k => k.typ != .queued && k.armed && (p.kindCores k).any cs.contains)).flatMap (fun k =>
    (k.launch.toNat :: (if k.accPhase = 0xFFFF then [] else [k.accPhase.toNat])).filterMap (fun l =>
      let t := ticksTo x l
      if 0 ≤ frameDiff t.2 k.armFrame then some t.1 else none))

/-- The conditions of R280 other than priority, with R258, R360 and R416. -/
def State.mayLaunch (s : State) (p : Part) (k : Kind) (cs : List CoreId) : Bool :=
  let x := s.wheel p.wheel
  x.going && x.begun && cs.all s.coreFree && (s.nextPeriodic p cs).all (fun t => decide (k.plead < t)) &&
    decide (s.sched.mailbox.length ≤ 6144) && !p.failed && !p.fenced && p.rearm.isEmpty

/-- The waiting job that a partition may launch now, with its partition and kind. -/
def State.queuedReady (s : State) (pid : Fin 32) (relaunch : Bool) : Option (Part × Kind × Job) :=
  match s.part pid, s.nextQueued pid with
  | some p, some j => match p.kind j.kind with
    | some k =>
      let cs := if relaunch then j.resume.map (·.1) else p.kindCores k
      if j.yielded = relaunch && s.mayLaunch p k (if relaunch then p.kindCores k else cs) then some (p, k, j) else none
    | none => none
  | _, _ => none

/-- QUEUED_LAUNCH (R271, R279, R280, R298): the lead decides, the argument block is read, and the launch follows. -/
def execQueuedLaunch (pid : Fin 32) (s : State) : Out :=
  match s.queuedReady pid false with
  | none => .next s
  | some (p, k, j) =>
    match s.argRead pid p k j.desc.arg with
    | (s, none) => .next (s.finalize j .faulted)
    | (s, some bs) =>
      let q := s.now - j.acceptLt
      let s := s.setAcct p.ctx (fun a => { a with
        qwaitmax := if a.qwaitmax.toNat < q then satAdd (0 : Word) q else a.qwaitmax, qwaitsum := satAdd a.qwaitsum q })
      .next ((s.touch p.ctx).launch p k j bs)

/-- YIELDREQ is due for a queued job: its earliest periodic launch or accord slot lies PLEAD ticks ahead (R292). -/
def State.yieldDue (s : State) (p : Part) (k : Kind) : Bool :=
  let ts := s.nextPeriodic p (p.kindCores k)
  (s.wheel p.wheel).going && ts.contains k.plead && ts.all (fun t => decide (k.plead ≤ t))

/-- YIELD_REQUEST (R292): YIELDREQ is written into the yield line of the first core of every queued job for which it is due. -/
def execYieldRequest (pid : Fin 32) (s : State) : Out :=
  .next (match s.part pid with
  | none => s
  | some p =>
    (s.sched.jobs.filter (fun j => j.part == pid && j.queued && j.out == .empty && j.launched && !j.yielded && !j.stopping)).foldl
      (fun (s : State) j => match p.kind j.kind with
        | none => s
        | some k => match (p.kindCores k).head? with
          | some c => if s.yieldDue p k then s.store32 (lsBase c + p.yline.toNat) 1 else s
          | none => s) s)

/-- YIELD_RELAUNCH (R294, R298). -/
def execYieldRelaunch (pid : Fin 32) (s : State) : Out :=
  match s.queuedReady pid true with
  | none => .next s
  | some (p, _, j) =>
    let s := s.setAcct p.ctx (fun a => { a with preemptns := satAdd a.preemptns (s.now - j.yieldLt) })
    let s := s.setJob { j with yielded := false, running := j.resume.map (·.1), resume := [] }
    .next (j.resume.foldl (fun s (e : CoreId × BitVec 20) =>
      (s.setReg .cad e.1.cl.inst (Reg.CAD_RESUMEk e.1.k) 0).startCore e.1 e.2 p.wheel) s)

/-! ### END (R281, R286, R294) -/

/-- A job is yielded: a pre-emption is counted, the offsets are kept, and 0 for the cores that have ended for good; every yield line is
cleared (R294). -/
def State.yieldJob (s : State) (p : Part) (k : Kind) (j : Job) : State :=
  let s := s.count .cad p.lead.inst Reg.CAD_PREEMPTCNT 1
  let s := s.setAcct p.ctx (fun a => { a with preempts := satAdd a.preempts 1 })
  let s := (p.kindCores k).foldl (fun (s : State) c => s.setReg .cad c.cl.inst (Reg.CAD_RESUMEk c.k) 0) s
  let s := j.resume.foldl (fun s (e : CoreId × BitVec 20) =>
    (s.setReg .cad e.1.cl.inst (Reg.CAD_RESUMEk e.1.k) (e.2.setWidth 32 &&& 0xFFFF8)).setCadCore e.1 4) s
  let s := (p.kindCores k).foldl (fun s c => s.store (lsBase c + p.yline.toNat) (leBytes 8 0)) s
  (s.setJob { j with yielded := true, yieldLt := s.now }).trace 2 0x0302 [j.name, j.num.toNat, j.resume.length]

/-- The deadline tick of an instance has come. -/
def State.deadlineDue (s : State) (p : Part) (k : Kind) (j : Job) : Bool :=
  if j.queued then decide (k.deadline.toNat ≤ j.ticks)
  else (s.wheel p.wheel).passed (if k.deadline.toNat < 0x10000 then j.num else j.num + 1) (k.deadline.toNat % 0x10000)

/-- A job misses its deadline: its record reads MISSED, it is stopped, and DLMISS is set (R288). -/
def State.missJob (s : State) (pid kn : Fin 32) (p : Part) (j : Job) : State :=
  let s := (s.finalize j .missed).stopJob j
  let s := (s.raise .cad p.lead.inst 1 0 (cadInfo pid kn (coreField j.running))).count .cad p.lead.inst Reg.CAD_MISSCNT 1
  s.trace 2 0x0303 [j.name, j.num.toNat, p.lead.inst]

/-- The lead takes an END notice: the failures add up; the last one completes or yields the job (R281, R294). A notice after
the record is final is discarded (R286), and one after the deadline tick finds the record MISSED (R1, R263, R288). -/
def State.endNotice (s : State) (c : CoreId) : State :=
  let x := s.core c
  if !x.ended || s.isChecker c then s
  else
    let s := (s.putCore c { x with ended := false, endFails := 0 }).setCadCore c 3
    match s.jobOf c with
    | none => s
    | some j => match s.part j.part with
      | none => s
      | some p => match p.kind j.kind with
        | none => s
        | some k =>
          let resume : Word := s.load32 (lsBase c + p.yline.toNat + 4)
          let busy := s.reg .tc c.inst Reg.TC_ARRBUSY
          let s := s.setAcct p.ctx (fun a => { a with
            corecyc := satAdd a.corecyc (cyclesOf (x.endLt - x.startLt)),
            arrbusy := satAdd a.arrbusy (if x.arrBase ≤ busy then (busy - x.arrBase).toNat else busy.toNat) })
          let j := { j with running := j.running.filter (· != c), pwfail := satAdd j.pwfail x.endFails.toNat,
                            resume := if resume = 0 then j.resume else j.resume ++ [(c, resume.setWidth 20)] }
          let s := s.setJob j
          if s.deadlineDue p k j then s.missJob j.part j.kind p j
          else if !j.running.isEmpty then s
          else if j.resume.isEmpty then s.finalize j .done
          else s.yieldJob p k j

/-- END_NOTICE (R281). -/
def execEndNotice (c : CoreId) (s : State) : Out := .next (s.endNotice c)

/-! ### Deadlines (R263, R288, R301) -/

def State.deadlineCheck (s : State) (pid kn : Fin 32) : State :=
  match s.part pid with
  | none => s
  | some p => match p.kind kn with
    | none => s
    | some k =>
      (s.sched.jobs.filter (fun j => j.part == pid && j.kind == kn && j.launched && j.out == .empty)).foldl (fun s j =>
        if s.deadlineDue p k j then s.missJob pid kn p j else s) s

/-- The deadline of an expert launch entry: a core that it started and that has not ended is stopped (R301). -/
def State.entryDeadline (s : State) (cl : ClusterId) (i : Fin 64) : State :=
  let d := s.fld .cad cl.inst (Reg.CAD_LDLi i) 16 0
  if !s.expertEntry cl i || d = 0x1FFFF then s
  else (s.entryCores cl i).foldl (fun s c =>
    let x := s.core c
    let n := x.jobFrame.get x.jobWheel 0
    if x.run && x.entry == some i && (s.wheel x.jobWheel).passed (if d < 0x10000 then n else n + 1) (d % 0x10000) then
      (s.stopCore c).raise .cad cl.inst 1 0 (cadInfo 0 (s.fld .cad cl.inst (Reg.CAD_LTABi i) 28 24) c.k)
    else s) s

/-- DEADLINE_CHECK (R288, R301). -/
def execDeadlineCheck (r : LaunchRef) (s : State) : Out :=
  .next (match r with
    | .job p k => s.deadlineCheck p k
    | .entry cl i => s.entryDeadline cl i)

/-! ### Accord slots (R289, R290) -/

/-- The frame in which a core's last ACCORD began is `n`, and its phase lies in a slot. -/
def State.accordIn (s : State) (c : CoreId) (n : Word) (ok : BitVec 16 → Bool) : Bool :=
  s.reg .cad c.cl.inst (Reg.CAD_ACCFRMk c.k) == n && ok ((s.reg .cad c.cl.inst (Reg.CAD_ACCPHk c.k)).setWidth 16)

/-- ACCORD_SLOT_CHECK (R289, R290): the slot's end tick of a frame in which it is checked. A slot of the idle accord job
has no stated length: it is checked at any later phase. -/
def execAccordSlotCheck (c : CoreId) (s : State) : Out :=
  .next (match s.partOf c with
    | some (pid, p) =>
      let x := s.wheel p.wheel
      match p.slotKind c with
      | some k =>
        if x.going && k.slotLive x.frame && x.phase.toNat == k.accPhase.toNat + k.accLen &&
            !s.accordIn c x.frame k.inSlot then
          s.accslip c pid k.num
        else s
      | none => s
    | none =>
      let v := s.reg .cad c.cl.inst Reg.CAD_IDLEACC
      let x := s.wheel (Fin.ofNat 4 (bitsOf v 17 16))
      if bitOf v 31 && s.coreEnabled c && x.going && decide (bitsOf v 15 0 < x.phase.toNat) &&
          !s.accordIn c x.frame (fun ph => ph.toNat == bitsOf v 15 0) then
        s.accslip c 0 0
      else s)

/-- IDLE_ACCORD_START (R290). -/
def execIdleAccordStart (cl : ClusterId) (s : State) : Out :=
  let v := s.reg .cad cl.inst Reg.CAD_IDLEACC
  let x := s.wheel (Fin.ofNat 4 (bitsOf v 17 16))
  .next (if bitOf v 31 && s.up (domCluster cl) && x.going && x.phase.toNat == bitsOf v 15 0 then
    cl.cores.foldl (fun s c =>
      if s.coreEnabled c && (s.partOf c).isNone && s.coreFree c && !s.isChecker c then
        (s.putCore c { s.core c with wait := .accord 0 }).accordBegin c
      else s) s
  else s)

/-! ### Stops and aborts -/

/-- The cores of a stopped job have run out: they become idle and their leases are revoked (R285, R455). -/
def State.stopComplete (s : State) (j : Job) : State :=
  if !j.stopping || !j.running.all (fun c => (s.core c).unitsIdle &&
      (List.finRange 8).all (fun i => (Chan.get (s.core c) i).st != .active)) then s
  else
    let s := j.running.foldl (fun s c =>
      let s := (s.revokeLocks c).revokeChans c
      (s.putCore c { s.core c with run := false, ended := false, pend := none }).setCadCore c 5) s
    s.setJob { j with running := [], stopping := false }

/-- JOB_STOP_COMPLETE (R285). -/
def execJobStopComplete (p k : Fin 32) (num : Word) (s : State) : Out :=
  .next (match s.findJob p k num with
    | some j => s.stopComplete j
    | none => s)

/-- The lead takes an abort (R286): ALREADY and the outcome that the record holds. -/
def State.abortJob (s : State) (p k : Fin 32) (num : BitVec 16) : State × Bool × Nat :=
  match s.sched.jobs.reverse.find? (fun j => j.part == p && j.kind == k && j.num.setWidth 16 == num) with
  | none => (s, false, 0)
  | some j =>
    if j.out ≠ .empty then (s, true, j.out.code)
    else ((if j.launched then (s.finalize j .aborted).stopJob j else s.finalize j .aborted), false, 2)

/-- The answer in CAD_ABORTRES (R286, R299). -/
def State.abortResult (s : State) (cl : ClusterId) (r : Bool × Nat) : State :=
  s.setReg .cad cl.inst Reg.CAD_ABORTRES (BitVec.ofNat 32 (2 ^ 31 + b2n r.1 * 16 + r.2))

/-- A write of CAD_ABORT by device firmware (R286). -/
def State.cadAbort (s : State) (cl : ClusterId) (v : Word) : State :=
  if !bitOf v 31 then s
  else
    let p : Fin 32 := Fin.ofNat 32 (bitsOf v 28 24)
    let k : Fin 32 := Fin.ofNat 32 (bitsOf v 20 16)
    let num : BitVec 16 := v.setWidth 16
    let s := s.setReg .cad cl.inst Reg.CAD_ABORTRES 0
    match s.part p with
    | none => s.abortResult cl (false, 0)
    | some x =>
      if x.lead = cl then
        let (s, r) := s.abortJob p k num
        s.abortResult cl r
      else { s with sched := { s.sched with aborts := s.sched.aborts ++ [⟨cl, p, k, num, none⟩] } }

/-- CAD_ABORT (R286, R300). -/
def execCadAbort (src : Src) (cl : ClusterId) (v : Word) (s : State) : Out :=
  .next (s.regCommand src .cad cl.inst Reg.CAD_ABORT (cadBase cl) (fun s =>
    if src.fw then s.cadAbort cl v else if bitOf v 31 then s.ignoredWrite .cad cl.inst else s))

/-- The first element that satisfies a test is replaced. -/
def mapFirst {α : Type} (p : α → Bool) (f : α → α) : List α → List α
  | [] => []
  | a :: t => if p a then f a :: t else a :: mapFirst p f t

/-- ABORT_FORWARD (R286): the lead of a partition takes the oldest forwarded abort. -/
def execAbortForward (p : Fin 32) (s : State) : Out :=
  let mine (m : AbortMsg) : Bool := m.part == p && m.answer.isNone
  match s.sched.aborts.find? mine with
  | none => .next s
  | some m =>
    let (s, r) := s.abortJob m.part m.kind m.num
    .next { s with sched := { s.sched with aborts := mapFirst mine (fun m => { m with answer := some r }) s.sched.aborts } }

/-- ABORT_RESULT (R286). -/
def execAbortResult (cl : ClusterId) (s : State) : Out :=
  let mine (m : AbortMsg) : Bool := m.unit == cl && m.answer.isSome
  match s.sched.aborts.find? mine with
  | none => .next s
  | some m =>
    let s := { s with sched := { s.sched with aborts := removeFirst mine s.sched.aborts } }
    .next (match m.answer with
      | some r => s.abortResult cl r
      | none => s)

/-! ### Records -/

/-- The completion record of a job (R282). -/
def Job.record (j : Job) : List Byte :=
  leBytes 4 (j.kind.val * 2 ^ 16 + j.part.val * 2 ^ 8 + b2n j.freerun * 64 + b2n (j.pwfail != 0) * 32 + b2n j.late * 16 + j.out.code) ++
    leBytes 4 j.num.toNat ++ leBytes 4 j.endph.toNat ++ leBytes 4 j.pwfail.toNat

/-- The whole result header after a final outcome (R344, R345): `old` is the header as it stood. -/
def headerAfter (old : List Byte) (j : Job) (later : Bool) (now : Nat) : List Byte :=
  if j.out = .done then
    leBytes 4 j.num.toNat ++ leBytes 4 (b2n (!later) * 2 ^ 31) ++ leBytes 4 j.num.toNat ++ leBytes 4 j.out.code ++ j.record ++
      leBytes 8 now ++ leBytes 4 j.desc.tag.toNat ++ leBytes 4 (leNat ((old.drop 0x2C).take 4) + 1) ++ leBytes 16 0
  else
    old.take 4 ++ leBytes 4 0 ++ leBytes 4 j.num.toNat ++ leBytes 4 j.out.code ++ (old.drop 0x10).take 0x20 ++ leBytes 16 0

/-- A later instance of the kind has launched (R345). -/
def State.laterLaunched (s : State) (j : Job) : Bool :=
  s.sched.jobs.any (fun x => x.part == j.part && x.kind == j.kind && x.launched && !x.same j && decide (j.launchLt < x.launchLt))

/-- The TYPE 1 entry of a job (R336). -/
def Job.entry (j : Job) : List Byte :=
  leBytes 4 (2 ^ 30 + j.desc.opcode.toNat * 2 ^ 16 + j.desc.cmdid.toNat) ++ leBytes 4 0 ++ leBytes 4 j.desc.tag.toNat ++
    leBytes 4 j.finalLt ++ j.record

/-- FP2 posts the oldest record of the mailbox (R283, R297, R337, R342, R345). -/
def State.postRecord (s : State) (j : Job) (rest : List Job) : State :=
  let s := { s with sched := { s.sched with mailbox := rest, jobs := s.sched.jobs.map (fun (x : Job) => if x.same j then { x with posted := true } else x) } }
  let s := s.unitWrite (s.cadSrc j.lead j.ctx j.cls) j.desc.res (headerAfter (s.load j.desc.res 64) j (s.laterLaunched j) s.now)
  let s := s.setAcct j.ctx (fun a => match j.out with
    | .done => { a with done := satAdd a.done 1 }
    | .aborted => { a with aborted := satAdd a.aborted 1 }
    | .missed => { a with missed := satAdd a.missed 1 }
    | _ => a)
  let s := if j.desc.notify.val = 0 ∨ (j.desc.notify.val = 1 ∧ j.out ≠ .done) then s.post j.desc.pair j.entry (j.out == JOut.done) else s
  s.trace 2 0x0301 [j.name, j.num.toNat, j.out.code, j.endph.toNat]

/-- JOB_RECORD_POST (R345, R348, R360). -/
def execJobRecordPost (s : State) : Out :=
  match s.sched.mailbox with
  | [] => .next s
  | j :: t => .next (if s.fpRuns 2 then s.postRecord j t else s)

end Sys2Proof.Machine
end

