-- ==== Sys2Proof/Machine/Certs.lean ====
section
/-! DEFINITION. Partition descriptors, certificates and formula images as device firmware reads them (R255, R268, R272,
R275, R401, R634, R635). -/

namespace Sys2Proof.Machine

/-! ### Reading a layout from bytes -/

def bWord (bs : List Byte) (off : Nat) : Nat := leNat ((bs.drop off).take 4)
def bBits (bs : List Byte) (off hi lo : Nat) : Nat := nbits (bWord bs off) hi lo
/-- Every named field (offset, high bit, low bit) of a layout is 0: its RSV fields. -/
def bZero (bs : List Byte) (fs : List (Nat × Nat × Nat)) : Bool := fs.all (fun f => bBits bs f.1 f.2.1 f.2.2 == 0)
def bBytes (bs : List Byte) (off n : Nat) : List Byte := (bs.drop off).take n

/-! ### Partition descriptor (R268) -/

structure PDesc where
  pid : Fin 32
  wheel : Fin 4
  cls : Fin 8
  paired : Bool
  ctx : BitVec 12
  yline : BitVec 20
  argline : BitVec 20
  recs : List PRec
  deriving DecidableEq, Repr

/-- Record `r` of a descriptor. -/
def parsePRec (bs : List Byte) (r : Nat) : Option PRec :=
  let o := 0x20 + r * 8
  let die := bBits bs o 31 29
  let n := bBits bs o 28 25
  let cores := BitVec.ofNat 8 (bBits bs o 15 8)
  let pairs := BitVec.ofNat 4 (bBits bs o 3 0)
  let e := bBits bs (o + 4) 24 16
  let st := bBits bs (o + 4) 8 0
  if h : die < 6 ∧ n < 12 then
    if bZero bs [(o, 24, 16), (o, 7, 4), (o + 4, 31, 25), (o + 4, 15, 9)] && decide (1 ≤ e) && decide (e ≤ 256) && decide (st ≤ 255) &&
        decide (st < e) && (List.range 4).all (fun i => !pairs.getLsbD i || (cores.getLsbD (2 * i) && cores.getLsbD (2 * i + 1))) then
      some ⟨⟨⟨die, h.1⟩, ⟨n, h.2⟩⟩, cores, pairs, e, st⟩
    else none
  else none

/-- All values, when each is present. -/
def allSome {α : Type} : List (Option α) → Option (List α)
  | [] => some []
  | none :: _ => none
  | some a :: t => (allSome t).map (fun l => a :: l)

/-- No element twice. -/
def noDup {α : Type} [DecidableEq α] : List α → Bool
  | [] => true
  | a :: t => !t.contains a && noDup t

/-- Cluster records that a descriptor's header names, when its count is in range. -/
def descRecs (hdr : List Byte) : Option Nat :=
  let n := bBits hdr 0x18 6 0
  if 1 ≤ n ∧ n ≤ 72 then some n else none

/-- A descriptor whose form is right (R268, R275). -/
def parseDesc (bs : List Byte) : Option PDesc :=
  match descRecs bs with
  | none => none
  | some n => match allSome ((List.range n).map (parsePRec bs)) with
    | none => none
    | some recs =>
      let y := bBits bs 0x10 19 0
      let a := bBits bs 0x14 19 0
      if bWord bs 0 = 0x50445331 ∧ bBits bs 4 31 16 = 0x20 + 8 * n ∧ bBits bs 4 15 0 = 1 ∧
          bZero bs [(8, 31, 17), (8, 15, 13), (8, 7, 5), (0xC, 31, 12), (0x10, 31, 20), (0x10, 5, 0), (0x14, 31, 20), (0x14, 5, 0),
            (0x18, 31, 7), (0x1C, 31, 0)] ∧
          noDup (recs.map (·.cl)) ∧ y + 64 ≤ 0xFC000 ∧ a + 256 ≤ 0xFC000 ∧ (y + 64 ≤ a ∨ a + 256 ≤ y) then
        some ⟨Fin.ofNat 32 (bBits bs 8 4 0), Fin.ofNat 4 (bBits bs 8 9 8), Fin.ofNat 8 (bBits bs 8 12 10), bBits bs 8 16 16 == 1,
          BitVec.ofNat 12 (bBits bs 0xC 11 0), BitVec.ofNat 20 y, BitVec.ofNat 20 a, recs⟩
      else none

/-! ### Certificates (R272) -/

structure Cert where
  formula : List Byte
  placement : List Byte
  permin : Nat
  permax : Nat
  tickcyc : Nat
  drymax : Nat
  toolver : Nat
  kinds : List Kind
  res : List ResRec
  deriving DecidableEq, Repr

/-- Job record `j`, for `n` cluster records. -/
def parseKind (bs : List Byte) (n j : Nat) : Option Kind :=
  let o := 0x60 + j * 0x20
  let t := bBits bs o 31 30
  let first := bBits bs o 14 8
  let last := bBits bs o 22 16
  let typ : KType := if t = 0 then .periodic else if t = 1 then .queued else .accordOnly
  let q := bBits bs (o + 0x18) 31 16
  let pl := bBits bs (o + 0x18) 15 0
  let launch := bBits bs (o + 4) 15 0
  if t ≠ 3 ∧ first ≤ last ∧ last < n ∧
      bZero bs [(o, 29, 29), (o, 23, 23), (o, 15, 15), (o, 7, 0), (o + 4, 31, 16), (o + 8, 31, 17), (o + 0xC, 31, 17), (o + 0x10, 31, 24),
        (o + 0x14, 31, 20), (o + 0x14, 2, 0), (o + 0x1C, 31, 17)] ∧
      (if typ = .queued then 1 ≤ q ∧ q ≤ 1024 ∧ launch = 0 else q = 0 ∧ pl = 0) then
    some { typ := typ, num := Fin.ofNat 32 (bBits bs o 28 24), firstRec := first, lastRec := last, launch := BitVec.ofNat 16 launch,
           deadline := BitVec.ofNat 17 (bBits bs (o + 8) 16 0), worst := BitVec.ofNat 17 (bBits bs (o + 0xC) 16 0),
           accLen := bBits bs (o + 0x10) 23 16, accPhase := BitVec.ofNat 16 (bBits bs (o + 0x10) 15 0),
           entry := BitVec.ofNat 20 (bBits bs (o + 0x14) 19 0), qdepth := q, plead := pl,
           input := BitVec.ofNat 17 (bBits bs (o + 0x1C) 16 0), armed := false, armFrame := 0, desc := none, staged := none,
           nextSeq := 1, lastFrame := none, hit := none }
  else none

/-- Resource record at an offset; its share entry is chosen at installation. -/
def parseRes (bs : List Byte) (o : Nat) : Option ResRec :=
  let t := bBits bs o 31 28
  let die := bBits bs o 27 25
  let unit := bBits bs o 24 19
  let amount := bWord bs (o + 4)
  let okUnit : Bool := match t with
    | 1 => decide (unit < if die < 6 then 6 else 4)
    | 2 | 3 => decide (unit < if die < 6 then 4 else 7)
    | 4 => decide (die < 6) && decide (unit < 48)
    | _ => false
  let okAmount : Bool := match t with
    | 1 | 2 => decide (amount < 65536)
    | 3 => decide (amount < 1024)
    | _ => true
  if okUnit ∧ okAmount ∧ bZero bs [(o, 15, 0), (o + 8, 31, 30), (o + 8, 26, 20), (o + 0xC, 31, 0)] then
    some ⟨t, Fin.ofNat 8 die, unit, Fin.ofNat 8 (bBits bs o 18 16), BitVec.ofNat 32 amount, BitVec.ofNat 32 (bWord bs (o + 8)), 31⟩
  else none

/-- Length of a certificate with a header `hdr`: its records and its signature of 384 bytes (R272, R477). -/
def certLen (hdr : List Byte) : Nat := 0x60 + bBits hdr 0x54 5 0 * 0x20 + bBits hdr 0x54 31 16 * 0x10 + 0x180

/-- A certificate whose form is right, for a placement of `n` cluster records (R272, R275). -/
def parseCert (bs : List Byte) (n : Nat) : Option Cert :=
  let nj := bBits bs 0x54 5 0
  let nr := bBits bs 0x54 31 16
  match allSome ((List.range nj).map (parseKind bs n)), allSome ((List.range nr).map (fun i => parseRes bs (0x60 + nj * 0x20 + i * 0x10))) with
  | some ks, some rs =>
    if bWord bs 0 = 0x4E5A4331 ∧ bBits bs 4 31 16 = certLen bs ∧ bBits bs 4 15 0 = 1 ∧ 1 ≤ nj ∧ nj ≤ 32 ∧
        bZero bs [(0x50, 31, 8), (0x54, 15, 6), (0x58, 31, 17)] ∧ noDup (ks.map (·.num)) then
      some ⟨bBytes bs 8 32, bBytes bs 0x28 32, bWord bs 0x48, bWord bs 0x4C, bBits bs 0x50 7 0, bBits bs 0x58 16 0, bWord bs 0x5C, ks, rs⟩
    else none
  | _, _ => none

/-- Cycles per tick at a nominal period, in units of 0.01 cycles per ns: 32 for Tolid cores (R255), 80 for checker slices
(R401). -/
def tickCyc (per rate : Nat) : Nat := per * 997 * rate / (1000 * 100 * 65536)

/-- A formula image header that fits (R634, R635). -/
def formulaOk (hdr : List Byte) (magic toolver : Nat) : Bool :=
  bWord hdr 0 == magic && bWord hdr 4 == 0x400001 && bWord hdr 0xC == toolver &&
    bZero hdr [(0x10, 31, 6), (0x14, 31, 9), (0x18, 31, 0), (0x1C, 31, 0), (0x20, 31, 0), (0x24, 31, 0), (0x28, 31, 0), (0x2C, 31, 0),
      (0x30, 31, 0), (0x34, 31, 0), (0x38, 31, 0), (0x3C, 31, 0)]

/-! ### The PLAN conditions (R254, R263, R264, R273, R275) -/

def ceilDiv (a b : Nat) : Nat := (a + b - 1) / b

/-- A periodic kind by itself: guard band, deadline, accord slot. -/
def planKind (k : Kind) (drymax tick : Nat) : Bool :=
  let l := k.launch.toNat
  let d := k.deadline.toNat
  let a := k.accPhase.toNat
  decide (l < 0xFF00) && decide (d ≤ 0x14000) && decide (d ≤ drymax) && !(decide (0xFF00 ≤ d) && decide (d < 0x10000)) && decide (l < d) &&
    (a == 0xFFFF || (decide (a + k.accLen ≤ 0xFF00) && decide (ceilDiv 7502 tick ≤ k.accLen)))

/-- A periodic deadline on a core comes no later than the core's next periodic launch (R264). -/
def planPair (a b : Kind) : Bool :=
  let next := if a.num = b.num then a.launch.toNat + 0x10000
    else if a.launch.toNat ≤ b.launch.toNat then b.launch.toNat else b.launch.toNat + 0x10000
  decide (a.deadline.toNat ≤ next)

/-- Condition 7 does not apply. -/
def planOk (recs : List PRec) (c : Cert) : Bool :=
  let per := c.kinds.filter (fun k => k.typ != .queued)
  let que := c.kinds.filter (fun k => k.typ == .queued)
  let onRec (k : Kind) (i : Nat) : Bool := decide (k.firstRec ≤ i) && decide (i ≤ k.lastRec)
  decide (0 < c.tickcyc) && per.all (fun k => planKind k c.drymax c.tickcyc) &&
    que.all (fun k => k.accPhase == 0xFFFF && decide (ceilDiv 12800 c.tickcyc + 1 ≤ k.plead)) &&
    (List.range recs.length).all (fun i =>
      let here := per.filter (fun k => onRec k i)
      here.all (fun a => here.all (fun b => planPair a b)) && (here.filter (fun k => k.accPhase != 0xFFFF)).length == 1)

end Sys2Proof.Machine
end

