-- ==== Sys2Proof/Machine/BenvorTensor.lean ====
section
/-! DEFINITION. Weight tiles, matrix-multiplies, their streaming and accumulator moves (R64 to R73, R88 to R96, R165 to
R173, R189, R192). -/

namespace Sys2Proof.Machine

/-- An exception that a unit raises after issue: the instruction has issued, the program counter is past it (R130). -/
def State.exceptAfter (s : State) (c : CoreId) (bit addr : Nat) : Issue :=
  let x := s.core c
  let s := s.putCore c (x.complete x.pc)
  .own (s.except c bit addr)

/-- Lines as one little-endian number. -/
def linesNat : List Line → Nat
  | [] => 0
  | l :: t => l.toNat + 2 ^ 512 * linesNat t

/-- A number as n lines. -/
def natLines (v : Nat) (n : Nat) : List Line := (List.range n).map (fun i => BitVec.ofNat 512 (v >>> (512 * i)))

/-- Element i of a packed stream of b-bit elements (R55). -/
def elemAt (v b i : Nat) : Nat := (v >>> (b * i)) % 2 ^ b

/-! ### Weight tiles -/

/-- Two 2-bit positions of a metadata code, none for an invalid code (R71, R72). -/
def metaPos (code : Nat) : Option (Nat × Nat) :=
  let i0 := code % 4
  let i1 := code / 4 % 4
  if i0 < i1 then some (i0, i1) else none

/-- Metadata code of group g of column n (R166). -/
def metaCode (ms : Nat) (g n : Nat) : Nat := elemAt ms 4 (2 * (64 * (g / 2) + n) + g % 2)

/-- Some metadata code of a tile is invalid (R72, R167). -/
def badMeta (t : WTag) (ms : Nat) : Bool :=
  (List.range (t.kt / 4)).any (fun g => (List.range 64).any (fun n => (metaPos (metaCode ms g n)).isNone))

/-- The weight code at K position k of column n; none where a sparse tile keeps no weight, which is then zero (R71). -/
def weightAt (t : WTag) (data ms : Nat) (k n : Nat) : Option Nat :=
  let b := fmtBits t.wf
  if !t.sp then some (elemAt data b (64 * k + n))
  else match metaPos (metaCode ms (k / 4) n) with
    | none => none
    | some (i0, i1) =>
      if k % 4 = i0 then some (elemAt data b (64 * (2 * (k / 4)) + n))
      else if k % 4 = i1 then some (elemAt data b (64 * (2 * (k / 4) + 1) + n))
      else none

/-- Byte b of token row t of vial slot s (R188). -/
def CoreState.vialByte (x : CoreState) (slot tok b : Nat) : Nat :=
  let l := x.vial.get (Fin.ofNat 512 (32 * (slot % 16) + 2 * tok + b / 64)) 0
  bitsOf l (8 * (b % 64) + 7) (8 * (b % 64))

/-- Little-endian element of n bytes in a vial token row. -/
def CoreState.vialElem (x : CoreState) (slot tok b n : Nat) : Nat :=
  (List.range n).foldl (fun acc i => acc + x.vialByte slot tok (b + i) * 2 ^ (8 * i)) 0

/-- The tile a vial load builds, as the data lines of a dense tile (R189). -/
def CoreState.vialTile (x : CoreState) (t : WTag) (slot : Nat) (tr h : Bool) : List Line :=
  let nb := fmtBits t.wf / 8
  let off := if h then 64 else 0
  let el (k n : Nat) : Nat :=
    if tr then x.vialElem (slot + n / 16) (n % 16) (off + k * nb) nb
    else x.vialElem (slot + k / 16) (k % 16) (off + n * nb) nb
  let v := (List.range (t.ktDense * 64)).foldl (fun acc i => acc + el (i / 64) (i % 64) * 2 ^ (8 * nb * i)) 0
  natLines v t.dataLines

/-- Read `n` lines of a tile part: the state, the lines, and an uncorrectable word if one was met. -/
def State.readLines (s : State) (a : Addr) (n : Nat) : State × List Line × Option Nat :=
  let r := s.coreRead a.toNat (64 * n)
  (r.1, natLines (leNat r.2.1) n, r.2.2)

/-- The first address of a tile in the local store that offends: a base that is not 64-byte aligned, whether its part has lines or not, or
a line outside the own local store (R167; DEDUCED, log entry 100). -/
def badPart (c : CoreId) : List (Addr × Nat) → Option Nat
  | [] => none
  | (a, n) :: t =>
    if a.toNat % 64 ≠ 0 then some a.toNat
    else match (List.range n).find? (fun i => !inOwnLs c (a.toNat + 64 * i) 64) with
      | some i => some (a.toNat + 64 * i)
      | none => badPart c t

/-- WLD (R90, R160, R166, R167, R189): the check of its addresses is made at issue. -/
def execWld (c : CoreId) (w : BitVec 56) (s : State) : Out :=
  let x := s.core c
  let t := tTag w
  let src := bitOf w 7
  let tr := bitOf w 6
  let h := bitOf w 5
  let wide := fmtBits t.wf == 16
  let vialOk := !src || (zf w 28 26 && !t.sp && zf w 55 51 && zf w 45 36 &&
    (t.wf.val == 0 || t.wf.val == 2 || t.wf.val == 3 || wide) && !(wide && h && !tr))
  let ok := zf w 50 46 && zf w 35 29 && zf w 21 21 && zf w 19 17 && zf w 4 0 && t.valid && vialOk &&
    decide (tXA w < 16) && decide (tXB w < 16) && decide (tXC w < 16)
  .next (s.issue c 0x88 w (s.legal c ok
    (if src then
      s.queued c 0x88 w
        (.ok (s.putCore c { x with wb := x.wb.set (tWB w) ⟨some t, false, x.vialTile t (bitsOf w 25 22) tr h, [], []⟩ }))
     else
      let parts := tileParts t (x.getA (tXA w)) (x.getA (tXB w)) (x.getA (tXC w))
      match badPart c parts with
      | some a => .exc xACCESS a
      | none =>
        if parts.any (fun p => x.unitWrites p.1.toNat (64 * p.2)) then .stall s
        else s.queued c 0x88 w
          (let (s, d, e1) := s.readLines (x.getA (tXA w)) t.dataLines
           let (s, sc, e2) := s.readLines (x.getA (tXB w)) t.scaleLines
           let (s, m, e3) := s.readLines (x.getA (tXC w)) t.metaLines
           match e1.or (e2.or e3) with
           | some g => s.exceptAfter c xLSECC g
           | none =>
             let x := s.core c
             let b : WBuf := ⟨some t, t.sp && badMeta t (linesNat m), d, sc, m⟩
             .ok (s.putCore c { x with wb := x.wb.set (tWB w) b })))))

/-- MMA and AVAC at issue (R101, R169, R170): ILLEGAL ranges, ACCESS for a stride that is not a multiple of 64 or a row
outside the own local store; the instruction enters the stream queue of depth 4. Neither base has to be aligned, and ACCESS for a bad
stride records A[XA] (DESIGN CHOICE, log entry 101). -/
def State.streamIssue (s : State) (c : CoreId) (w : BitVec 56) (avac : Bool) : Issue :=
  let x := s.core c
  let m := tCNT w + 1
  let o : StreamOp := ⟨avac, x.pc, x.getA (tXA w), x.getS (tXS w), x.getA (tXB w), m, tROW w, tBK w, tWB w, tOW w, tCV w⟩
  let lines := match x.tagAt o.wb with
    | some t => t.rowLines
    | none => 1
  let out := (List.range m).find? (fun i => !inOwnLs c (o.rowAddr i).toNat (64 * lines))
  let scaleOut := match x.tagAt o.wb with
    | some t => isMX t.af && !inOwnLs c o.xb.toNat (m * (t.kt / 32))
    | none => false
  let ok := zf w 40 36 && zf w 16 0 && (avac || zf w 18 17) && decide (tXA w < 16) && decide (tXB w < 16)
    && decide (tROW w + m ≤ 128) && (!avac || decide (m ≤ 64))
  s.legal c ok
    (if bitsOf o.stride 5 0 ≠ 0 then .exc xACCESS o.xa.toNat
     else match out with
      | some i => .exc xACCESS (o.rowAddr i).toNat
      | none =>
        if scaleOut then .exc xACCESS o.xb.toNat
        else if 4 ≤ x.streamQ.length ∨ (List.range m).any (fun i => x.unitWrites (o.rowAddr i).toNat (64 * lines)) then .stall s
        else .ok (s.putCore c { x with streamQ := x.streamQ ++ [o] }))

/-- MMA (R169, R170). -/
def execMma (c : CoreId) (w : BitVec 56) (s : State) : Out := .next (s.issue c 0x80 w (s.streamIssue c w false))
/-- AVAC (R169, R170). -/
def execAvac (c : CoreId) (w : BitVec 56) (s : State) : Out := .next (s.issue c 0xC3 w (s.streamIssue c w true))

/-! ### Array arithmetic -/

/-- Floating format of an array format code (R162); MXINT8 and the integers have none. -/
def arrFmt (f : Nat) : Option FFmt :=
  match f with
  | 2 => some fmtE4M3
  | 3 => some fmtE5M2
  | 5 => some fmtE3M2
  | 6 => some fmtE2M3
  | 7 => some fmtE2M1
  | 8 => some fmtBF16
  | 9 => some fmtFP16
  | _ => none

/-- Value of an element, MXINT8 as n * 2^-6 (R57, R61). -/
def elemVal (f code : Nat) : FVal :=
  match arrFmt f with
  | some ff => ff.decode code
  | none => let n := sval 8 code; .fin (decide (n < 0)) n.natAbs (-6)

/-- A value times a block scale: NaN for the NaN scale (R61, R62). -/
def scaled (v : FVal) (x : Option Int) : FVal :=
  match x, v with
  | none, _ => .nan
  | some e, .fin n m ev => .fin n m (ev + e)
  | some _, v => v

/-- Weight of the leading bit of a product that is not zero. -/
def leadExp : FVal → Option Int
  | .fin _ m e => if m = 0 then none else some (e + m.log2)
  | _ => none

/-- Sum of the finite products of a group, each cut toward zero below weight 2^q, as a multiple of 2^base. -/
def groupInt (q base : Int) : List FVal → Int
  | [] => 0
  | .fin n m e :: t =>
    let (m, e) := if e < q then (m >>> (q - e).toNat, q) else (m, e)
    let v : Int := (m <<< (e - base).toNat : Nat)
    (if n then -v else v) + groupInt q base t
  | _ :: t => groupInt q base t

/-- The sum of a group of products, rounded once to FP32 (R67, R69, R70). -/
def groupSum (ps : List FVal) : Word × AFlags :=
  let pos := ps.any (fun p => p == .inf false)
  let neg := ps.any (fun p => p == .inf true)
  if pos && neg then (nan32, fNV)
  else if ps.any (fun p => p == .nan) then (nan32, 0)
  else if pos || neg then (inf32 neg, 0)
  else
    let leads := ps.filterMap leadExp
    let emax := leads.foldl (fun a b => if a < b then b else a) (leads.headD 0)
    let q := emax - 47
    let x := groupInt q q ps
    let (w, f) := fpack 0 (.fin (decide (x < 0)) x.natAbs q)
    if x = 0 then (0, 0) else (w, f)

/-- One column of one row: integer products added one by one with saturation (R65), floating products in groups of 32
consecutive K positions (R67). -/
def dotInt (acc : Int) : List (Int × Int) → Int × AFlags
  | [] => (acc, 0)
  | (a, b) :: t =>
    let v := acc + a * b
    let v' := clampI v (-(2 ^ 31)) (2 ^ 31 - 1)
    let r := dotInt v' t
    (r.1, (if v = v' then 0 else fIOV) ||| r.2)

def dotFp (fuel : Nat) (acc : Word) (ps : List (FVal × AFlags)) : Word × AFlags :=
  match fuel with
  | 0 => (acc, 0)
  | n + 1 =>
    if ps.isEmpty then (acc, 0)
    else
      let g := ps.take 32
      let (w, f1) := groupSum (g.map (·.1))
      let (a, f2) := fadd 0 acc w
      let r := dotFp n a (ps.drop 32)
      (r.1, g.foldl (fun x p => x ||| p.2) 0 ||| f1 ||| f2 ||| r.2)

/-- One accumulator element after a row has entered (R169): `act` the row's packed elements, `sa` its scale bytes. -/
def macElem (t : WTag) (b : WBuf) (act sa : Nat) (n : Nat) (acc : Word) : Word × AFlags :=
  let data := linesNat b.data
  let ms := linesNat b.metas
  let sc := linesNat b.scales
  let ks := List.range t.kt
  let wt (k : Nat) := weightAt t data ms k n
  if t.mode = .int then
    let r := dotInt acc.toInt (ks.map (fun k =>
      (sval (fmtBits t.af) (elemAt act (fmtBits t.af) k), match wt k with
        | some v => sval (fmtBits t.wf) v
        | none => 0)))
    (BitVec.ofInt 32 r.1, r.2)
  else
    let ps := ks.map (fun k =>
      let a := elemVal t.af (elemAt act (fmtBits t.af) k)
      let v := match wt k with
        | some v => elemVal t.wf v
        | none => .fin false 0 0
      let a := if isMX t.af then scaled a (scaleExp (elemAt sa 8 (k / 32))) else a
      let v := if isMX t.wf then scaled v (scaleExp (elemAt sc 8 (64 * (k / 32) + n))) else v
      vMul a v)
    let r := dotFp (t.kt / 32 + 1) acc ps
    (r.1, r.2 &&& ~~~fUF)

/-- One row of a matrix-multiply (R169): the new accumulator row and the flags of its 64 elements. The correction of AVAC
multiplies the row by its lane of the correction register first. -/
def macRow (t : WTag) (b : WBuf) (o : StreamOp) (cv : VReg) (r act sa : Nat) (old : VReg) : VReg × AFlags :=
  let start (n : Nat) : Word × AFlags :=
    if o.ow then (0, 0)
    else if o.avac then
      let p := fmul 0 (lane old n) (lane cv (r % 64))
      (p.1, p.2 &&& ~~~fUF)
    else (lane old n, 0)
  let out := (List.range 64).map (fun n =>
    let a := start n
    let e := macElem t b act sa n a.1
    (e.1, a.2 ||| e.2))
  (ofLanes (fun n => ((out[n]?).map (·.1)).getD 0), out.foldl (fun f e => f ||| e.2) 0)

/-- Rows that one 64-byte line of the scale stream serves (R93). -/
def WTag.lineRows (t : WTag) : Nat := 64 / (t.kt / 32)

/-- The scale bytes of row i: the array reads its stream as 64-byte lines, each once, before the first row that it serves (R93, R170). A
line may begin at any byte (log entry 101). -/
def State.scaleRow (s : State) (t : WTag) (o : StreamOp) (i : Nat) (line : List Byte) : State × List Byte × Option Nat :=
  if isMX t.af then
    (if i % t.lineRows = 0 then s.coreRead (o.xb.toNat + i * (t.kt / 32)) (Nat.min 64 ((o.m - i) * (t.kt / 32))) else (s, line, none))
  else (s, [], none)

/-- Rows of a stream instruction from row i on, n rows to go, with the scale line in use (R91, R93, R169): it stops at an uncorrectable
read. -/
def State.streamRows (s : State) (c : CoreId) (t : WTag) (b : WBuf) (o : StreamOp) : Nat → Nat → List Byte → State × Option Nat
  | 0, _, _ => (s, none)
  | n + 1, i, line =>
    let (s, line, e2) := s.scaleRow t o i line
    let (s, bs, e) := s.coreRead (o.rowAddr i).toNat t.rowBytes
    match e2.or e with
    | some g => (s, some g)
    | none =>
      let x := s.core c
      let r := o.row + i
      let key : Fin 2 × Fin 128 := (o.bk, Fin.ofNat 128 r)
      let ss := (line.drop (i % t.lineRows * (t.kt / 32))).take (t.kt / 32)
      let (v, f) := macRow t b o (x.cv.get o.cv 0) r (leNat bs) (leNat ss) (x.acc.get key 0)
      let s := (s.putCore c { x with acc := x.acc.set key v }).orFlags c f
      let s := (s.mirrored c).foldl (fun (s : State) d => s.count .tc d.inst Reg.TC_ARRBUSY 1) s
      s.streamRows c t b o n (i + 1) line

/-- An exception that a queued instruction raises: with another pending, it is recorded after that one (R119, R130). -/
def State.exceptQueued (s : State) (c : CoreId) (bit addr : Nat) : State :=
  let x := s.core c
  let p : Pend := ⟨bit, BitVec.ofNat 48 addr⟩
  s.putCore c (if x.pend.isSome then { x with more := x.more ++ [p] } else { x with pend := some p })

/-- The head of the stream queue checks its exceptions and streams its rows (R90, R91, R169, R171); the instructions in the other queues
have one less before them. -/
def State.streamHead (s : State) (c : CoreId) : State :=
  let x := s.core c
  match x.streamQ with
  | [] => s
  | o :: rest =>
    let b := x.wb.get o.wb WBuf.empty
    let s := s.putCore c { x with streamQ := rest, unitQ := x.unitQ.map (fun q => { q with ahead := q.ahead - 1 }) }
    let ia := lsBase c + o.pc.toNat
    match b.tag with
    | none => s.exceptQueued c xACCMODE ia
    | some t =>
      if b.bad then s.exceptQueued c xSPMETA ia
      else if (!o.ow && x.accMode.get o.bk .none != t.mode) || (o.avac && t.mode != .fp) then s.exceptQueued c xACCMODE ia
      else
        let x := s.core c
        let s := if o.ow then s.putCore c { x with accMode := x.accMode.set o.bk t.mode } else s
        match s.streamRows c t b o o.m 0 [] with
        | (s, some g) => s.exceptQueued c xLSECC g
        | (s, none) => s

/-! ### Accumulator moves -/

/-- AMV (R96, R172). -/
def execAmv (c : CoreId) (w : BitVec 56) (s : State) : Out :=
  let x := s.core c
  let n := vNM w + 1
  let r := bitsOf w 6 0
  let bk : Fin 2 := Fin.ofNat 2 (bitsOf w 7 7)
  let ok := vUnused w true false false false false false false false false false true true && zf w 11 8
    && decide (vVD w + n ≤ 32) && decide (r + n ≤ 128)
  .next (s.issue c 0x90 w (s.unit c 0x90 w ok
    (if x.accMode.get bk .none = .none then s.exceptAfter c xACCMODE (s.pcAddr c)
     else .ok (s.putCore c (upTo n (fun i x => x.setV (vVD w + i) (x.acc.get (bk, Fin.ofNat 128 (r + i)) 0)) x)))))

/-- AMVW (R173). IMM[11:8] must be 0 (DEDUCED, log entry 99). -/
def execAmvw (c : CoreId) (w : BitVec 56) (s : State) : Out :=
  let x := s.core c
  let r := bitsOf w 6 0
  let bk : Fin 2 := Fin.ofNat 2 (bitsOf w 7 7)
  let m : AccMode := if vFN w = 0 then .int else .fp
  let tag := x.accMode.get bk .none
  let ok := vUnused w false true false false false false false true false false false true && zf w 11 8
    && decide (vFN w < 2)
  .next (s.issue c 0x91 w (s.unit c 0x91 w ok
    (if tag ≠ .none ∧ tag ≠ m then s.exceptAfter c xACCMODE (s.pcAddr c)
     else .ok (s.putCore c { x with accMode := x.accMode.set bk m, acc := x.acc.set (bk, Fin.ofNat 128 r) (x.getV (vVA w)) }))))

end Sys2Proof.Machine
end

