-- ==== Sys2Proof/Machine/Operands.lean ====
section
/-! DEFINITION. Operand forms of vector instructions: formats, packing, predicated lanes (R55, R162, R174, R177). -/

namespace Sys2Proof.Machine

/-- The element formats of VCVT other than FP32 and INT32: floating formats and integers by code (R162). -/
def vecFmt (f : Nat) : Option FFmt :=
  match f with
  | 2 => some fmtE4M3
  | 3 => some fmtE5M2
  | 8 => some fmtBF16
  | 9 => some fmtFP16
  | 12 => some fmtE3M2
  | 13 => some fmtE2M3
  | 14 => some fmtE2M1
  | _ => none

/-- Bits of a packed element, none where the code is no packed format of VCVT. -/
def vecBits (f : Nat) : Option Nat :=
  match f with
  | 0 | 2 | 3 => some 8
  | 1 | 14 => some 4
  | 8 | 9 => some 16
  | 12 | 13 => some 6
  | _ => none

/-- Elements packed from the least significant bit upwards (R55). -/
def packElems (b : Nat) : List Nat → Nat
  | [] => 0
  | e :: t => e % 2 ^ b + 2 ^ b * packElems b t

/-- One element narrowed from FP32 or INT32 to a packed format (R75 to R77). -/
def narrowElem (fromInt : Bool) (df rm : Nat) (sat : Bool) (x : Word) : Nat × AFlags :=
  match vecFmt df with
  | some f => f.encode rm sat (fval x)
  | none =>
    let w := if df = 1 then 4 else 8
    if fromInt then narrowInt w sat x.toInt else floatToInt w rm (fval x)

/-- One packed element widened: floating formats to FP32 exactly, integers sign-extended (R177). -/
def widenElem (sf : Nat) (code : Nat) : Word :=
  match vecFmt sf with
  | some f => (fpack 0 (f.decode code)).1
  | none => BitVec.ofInt 32 (sval (if sf = 1 then 4 else 8) code)

/-- A lane function applied where the predicate bit is 1; other lanes keep their value and raise no flag (R174). -/
def predLanes (p : BitVec 64) (old : VReg) (f : Nat → Word × AFlags) : VReg × AFlags :=
  let r := (List.range 64).map (fun i => if p.getLsbD i then f i else (lane old i, 0))
  (ofLanes (fun i => ((r[i]?).map (·.1)).getD 0), r.foldl (fun a e => a ||| e.2) 0)

/-- A predicated vector result goes to V[VD] and its flags to TC_FLAGS. -/
def State.toV (s : State) (c : CoreId) (w : BitVec 56) (f : Nat → Word × AFlags) : Issue :=
  let x := s.core c
  let r := predLanes (x.getP (vPG w)) (x.getV (vVD w)) f
  .ok ((s.putCore c (x.setV (vVD w) r.1)).orFlags c r.2)

/-- A whole vector result. -/
def State.putV (s : State) (c : CoreId) (w : BitVec 56) (v : VReg) (f : AFlags) : Issue :=
  .ok ((s.putCore c ((s.core c).setV (vVD w) v)).orFlags c f)

/-- Packed results of N source registers (R177): elements in order from lane 0 of the first source. -/
def packRegs (b n : Nat) (f : Nat → Nat → Nat × AFlags) : VReg × AFlags :=
  let es := (List.range (64 * n)).map (fun i => f (i / 64) (i % 64))
  (BitVec.ofNat 2048 (packElems b (es.map (·.1))), es.foldl (fun a e => a ||| e.2) 0)

end Sys2Proof.Machine
end

