-- ==== Sys2Proof/Machine/BenvorAttention.lean ====
section
/-! DEFINITION. Attention instructions and the vial (R98, R99, R182 to R191). -/

namespace Sys2Proof.Machine

def CoreState.getM (x : CoreState) (r : Nat) : Word := x.rowM.get (Fin.ofNat 128 r) 0xFF800000
def CoreState.getL (x : CoreState) (r : Nat) : Word := x.rowL.get (Fin.ofNat 128 r) 0
def CoreState.setRow (x : CoreState) (r : Nat) (m l : Word) : CoreState :=
  { x with rowM := x.rowM.set (Fin.ofNat 128 r) m, rowL := x.rowL.set (Fin.ofNat 128 r) l }

/-- AOPEN (R183). -/
def execAopen (c : CoreId) (w : BitVec 56) (s : State) : Out :=
  let r := bitsOf w 6 0
  let ok := vUnused w false false false false false false false true false false false true && decide (r + vFN w ≤ 127)
  .next (s.issue c 0xC0 w (s.unit c 0xC0 w ok
    (.ok (s.putCore c (upTo (vFN w + 1) (fun i x => x.setRow (r + i) 0xFF800000 0) (s.core c))))))

/-- What one online step gives (R99, R185): new m and l, the 64 probabilities, the correction, the flags. -/
structure Step where
  m : Word
  l : Word
  p : VReg
  c : Word
  fl : AFlags

/-- A sum of FP32 words under RNE in the order of `ord`: two of the terms left are added, n times (R82, R99; log entry 10). -/
def sumIn (ord : Nat → Nat) : Nat → List Word → Word × AFlags
  | 0, xs => (xs.headD 0, 0)
  | n + 1, xs =>
    let i := ord (2 * n) % xs.length
    let ys := xs.eraseIdx i
    let j := ord (2 * n + 1) % ys.length
    let r := fadd 0 (xs.getD i 0) (ys.getD j 0)
    let t := sumIn ord n (r.1 :: ys.eraseIdx j)
    (t.1, r.2 ||| t.2)

/-- One online softmax step (R99, R185). -/
def softStep (m l : Word) (sc : List Word) : Step :=
  let mn := sc.foldl fmax m
  if mn = 0xFF800000 then ⟨m, l, 0, 0x3F800000, 0⟩
  else
    let ex (a : Word) : Word × AFlags :=
      let d := fsub 0 a mn
      let e := fexp2 d.1
      (e.1, d.2 ||| e.2)
    let ps := sc.map ex
    let c := ex m
    let p := ofLanes (fun i => ((ps[i]?).map (·.1)).getD 0)
    let sum := sumIn (Config.laneOrder p) 63 (ps.map (·.1))
    let t := fmul 0 l c.1
    let l' := fadd 0 t.1 sum.1
    let nanScore := sc.any isNan32
    ⟨mn, l'.1, p, c.1, ps.foldl (fun a e => a ||| e.2) (c.2 ||| t.2 ||| sum.2 ||| l'.2) ||| (if nanScore then fNV else 0)⟩

/-- ASTEP (R184): N online steps. -/
def execAstep (c : CoreId) (w : BitVec 56) (s : State) : Out :=
  let x := s.core c
  let n := vNM w + 1
  let q := bitsOf w 6 0
  let cv : Fin 4 := Fin.ofNat 4 (bitsOf w 9 8)
  let ok := vUnused w true true false false true false false false false false true true && zf w 11 10
    && decide (vVD w + n ≤ 32) && decide (vVA w + n ≤ 32) && decide (q + n ≤ 128)
  .next (s.issue c 0xC1 w (s.unit c 0xC1 w ok
    (let p := x.getP (vPG w)
     let r := upTo n (fun k (a : CoreState × AFlags) =>
        let x := a.1
        let sc := (List.range 64).map (fun i => if p.getLsbD i then lane (x.getV (vVA w + k)) i else 0xFF800000)
        let st := softStep (x.getM (q + k)) (x.getL (q + k)) sc
        let cvr := x.cv.get cv 0
        let cvr := ofLanes (fun i => if i = (q + k) % 64 then st.c else lane cvr i)
        ({ (x.setV (vVD w + k) st.p).setRow (q + k) st.m st.l with cv := x.cv.set cv cvr }, a.2 ||| st.fl)) (x, 0)
     .ok ((s.putCore c r.1).orFlags c r.2))))

/-- ASTATE (R186). -/
def execAstate (c : CoreId) (w : BitVec 56) (s : State) : Out :=
  let x := s.core c
  let r := bitsOf w 6 0
  let va := x.getV (vVA w)
  let ok := vUnused w true true false false false false false true false false false true && decide (vFN w ≤ 4)
    && (vFN w == 4 || decide (r ≤ 64))
  .next (s.issue c 0xC2 w (s.unit c 0xC2 w ok
    (match vFN w with
      | 0 => s.putV c w (ofLanes (fun i => x.getL (r + i))) 0
      | 1 => s.putV c w (ofLanes (fun i => x.getM (r + i))) 0
      | 2 => .ok (s.putCore c (upTo 64 (fun i x => x.setRow (r + i) (x.getM (r + i)) (lane va i)) x))
      | 3 => .ok (s.putCore c (upTo 64 (fun i x => x.setRow (r + i) (lane va i) (x.getL (r + i))) x))
      | _ => s.putV c w (ofLanes (fun _ => x.getL r)) 0)))

/-- AEXP2 (R187). -/
def execAexp2 (c : CoreId) (w : BitVec 56) (s : State) : Out :=
  let x := s.core c
  let ok := vUnused w true true false false true false false false false false false false
  .next (s.issue c 0xC4 w (s.unit c 0xC4 w ok (s.toV c w (fun i => fexp2 (lane (x.getV (vVA w)) i)))))

/-- VAPP (R190): 8-bit formats fill half of a token row, 16-bit formats the row. The source is FP32. -/
def execVapp (c : CoreId) (w : BitVec 56) (s : State) : Out :=
  let x := s.core c
  let df := vDF w
  let half := bitsOf w 4 4
  let wide := df == 8 || df == 9
  let ok := vUnused w false true false true false true true false false true false true
    && (df == 0 || df == 2 || df == 3 || wide) && !(wide && half == 1)
  let b := if wide then 16 else 8
  let p := packRegs b 1 (fun _ i => narrowElem false df (vRM w) (vSAT w) (lane (x.getV (vVA w)) i))
  let l := 32 * (vIMM w % 16) + 2 * ((x.getS (vVC w)).toNat % 16)
  let put (x : CoreState) (i : Nat) (v : Line) : CoreState := { x with vial := x.vial.set (Fin.ofNat 512 i) v }
  let x := if wide then put (put x l (p.1.setWidth 512)) (l + 1) ((p.1 >>> 512).setWidth 512)
    else put x (l + half) (p.1.setWidth 512)
  .next (s.issue c 0xC8 w (s.unit c 0xC8 w ok (.ok ((s.putCore c x).orFlags c p.2))))

/-- Address check of VFIL and VFLS (R191): 64-byte aligned, 2 KiB within the own local store. -/
def vialAddrOk (c : CoreId) (a : Nat) : Bool := a % 64 == 0 && inOwnLs c a 2048

/-- Fields of VFIL and VFLS other than XA and ROW[3:0] are zero (R163, R191). -/
def vialRsv (w : BitVec 56) : Bool := zf w 50 26 && zf w 21 0 && decide (tXA w < 16)

/-- VFIL (R191). -/
def execVfil (c : CoreId) (w : BitVec 56) (s : State) : Out :=
  let a := (s.core c).getA (tXA w)
  let slot := bitsOf w 25 22
  .next (s.issue c 0xC9 w (s.legal c (vialRsv w)
    (if !vialAddrOk c a.toNat then .exc xACCESS a.toNat
     else s.queued c 0xC9 w (match s.readLines a 32 with
      | (s, _, some g) => s.exceptAfter c xLSECC g
      | (s, ls, none) =>
        let x := s.core c
        .ok (s.putCore c { x with vial := upTo 32 (fun i v => v.set (Fin.ofNat 512 (32 * slot + i)) ((ls[i]?).getD 0)) x.vial })))))

/-- VFLS (R191). -/
def execVfls (c : CoreId) (w : BitVec 56) (s : State) : Out :=
  let x := s.core c
  let a := (x.getA (tXA w)).toNat
  let slot := bitsOf w 25 22
  .next (s.issue c 0xCA w (s.legal c (vialRsv w)
    (if !vialAddrOk c a ∨ inAccord (a - lsBase c + 2047) then .exc xACCESS a
     else if x.streamReads a 2048 || (x.unitQ.filter (fun q => q.unit != .attention)).any (fun q => q.memReads.any (fun m => overlaps m.1 m.2 a 2048)) then .stall s
     else s.queued c 0xCA w
      (.ok (s.store a (leBytes 2048 (linesNat ((List.range 32).map (fun i => x.vial.get (Fin.ofNat 512 (32 * slot + i)) 0)))))))))

end Sys2Proof.Machine
end

