-- ==== Sys2Proof/Machine/BenvorMem.lean ====
section
/-! DEFINITION. Benvor loads, stores and atomics (R17, R132, R141 to R143, R156). -/

namespace Sys2Proof.Machine

/-- Effective address A[AB] + sext(OFF), modulo 2^48 (R141). -/
def State.ea (s : State) (c : CoreId) (w : BitVec 56) : Nat :=
  ((s.core c).getA (iRS1 w) + (iIMM w).signExtend 48).toNat


/-- A load of n bytes: ACCESS outside the own stores or misaligned (R142), LSECC_U on an uncorrectable error (R106, R197). -/
def State.coreLoad (s : State) (c : CoreId) (a n : Nat) (k : State → Nat → Issue) : Issue :=
  if a % (if n = 256 then 64 else n) ≠ 0 ∨ !(inOwnLs c a n || inOwnCs c a n) then .exc xACCESS a
  else if (s.core c).unitWrites a n then .stall s
  else match s.coreRead a n with
    | (s', _, some g) => .fail s' xLSECC g
    | (s', bs, none) => k s' (leNat bs)

/-- A store: ACCESS outside the own stores, misaligned or into the accord area; it waits for queued instructions that still touch the
bytes (R132, R142, R156). -/
def State.coreStore (s : State) (c : CoreId) (a align : Nat) (bs : List Byte) : Issue :=
  let n := bs.length
  if a % align ≠ 0 ∨ !(inOwnLs c a n || inOwnCs c a n) ∨ (inOwnLs c a n ∧ inAccord (a - lsBase c + n - 1)) then .exc xACCESS a
  else if (s.core c).streamReads a n || (s.core c).unitReads a n || (s.core c).unitWrites a n then .stall s
  else .ok (s.store a bs)

/-- A scalar load: extension of the value read (R141). -/
def State.loadS (s : State) (c : CoreId) (w : BitVec 56) (n : Nat) (signed : Bool) : Issue :=
  s.legal c (rsvM w && decide (iRS1 w < 16))
    (s.coreLoad c (s.ea c w) n (fun s' v =>
      s'.toS c w (BitVec.ofInt 32 (if signed then sval (8 * n) v else (v : Int)))))

/-- LDB (R141). -/
def execLdb (c : CoreId) (w : BitVec 56) (s : State) : Out := .next (s.issue c 0x20 w (s.loadS c w 1 true))
/-- LDBU (R141). -/
def execLdbu (c : CoreId) (w : BitVec 56) (s : State) : Out := .next (s.issue c 0x21 w (s.loadS c w 1 false))
/-- LDH (R141). -/
def execLdh (c : CoreId) (w : BitVec 56) (s : State) : Out := .next (s.issue c 0x22 w (s.loadS c w 2 true))
/-- LDHU (R141). -/
def execLdhu (c : CoreId) (w : BitVec 56) (s : State) : Out := .next (s.issue c 0x23 w (s.loadS c w 2 false))
/-- LDW (R141). -/
def execLdw (c : CoreId) (w : BitVec 56) (s : State) : Out := .next (s.issue c 0x24 w (s.loadS c w 4 false))

/-- LDA (R141). -/
def execLda (c : CoreId) (w : BitVec 56) (s : State) : Out :=
  .next (s.issue c 0x25 w (s.legal c (rsvM w && decide (iRS1 w < 16) && decide (iRD w < 16))
    (s.coreLoad c (s.ea c w) 8 (fun s' v => .ok (s'.putCore c ((s'.core c).setA (iRD w) (BitVec.ofNat 48 v)))))))

/-- A store of the low n bytes of a value (R141). -/
def State.storeV (s : State) (c : CoreId) (w : BitVec 56) (n : Nat) (v : Nat) : Issue :=
  s.legal c (rsvM w && decide (iRS1 w < 16)) (s.coreStore c (s.ea c w) n (leBytes n v))

/-- STB (R141). -/
def execStb (c : CoreId) (w : BitVec 56) (s : State) : Out :=
  .next (s.issue c 0x28 w (s.storeV c w 1 ((s.core c).getS (iRD w)).toNat))
/-- STH (R141). -/
def execSth (c : CoreId) (w : BitVec 56) (s : State) : Out :=
  .next (s.issue c 0x29 w (s.storeV c w 2 ((s.core c).getS (iRD w)).toNat))
/-- STW (R141). -/
def execStw (c : CoreId) (w : BitVec 56) (s : State) : Out :=
  .next (s.issue c 0x2A w (s.storeV c w 4 ((s.core c).getS (iRD w)).toNat))
/-- STA (R141). -/
def execSta (c : CoreId) (w : BitVec 56) (s : State) : Out :=
  .next (s.issue c 0x2B w (s.legal c (decide (iRD w < 16)) (s.storeV c w 8 ((s.core c).getA (iRD w)).toNat)))

/-- VLD (R141). -/
def execVld (c : CoreId) (w : BitVec 56) (s : State) : Out :=
  .next (s.issue c 0x2C w (s.legal c (rsvM w && decide (iRS1 w < 16))
    (s.coreLoad c (s.ea c w) 256 (fun s' v => .ok (s'.putCore c ((s'.core c).setV (iRD w) (BitVec.ofNat 2048 v)))))))

/-- Store the lanes of a vector whose predicate bit is 1, lane 0 first. -/
def State.storeLanes (s : State) (a : Nat) (p : BitVec 64) (v : VReg) : State :=
  upTo 64 (fun i s => if p.getLsbD i then s.store32 (a + 4 * i) (lane v i) else s) s

/-- VST (R141): lanes whose predicate bit is 0 leave their bytes unchanged. The predicate field names P0 to P7 (R128,
R129). -/
def execVst (c : CoreId) (w : BitVec 56) (s : State) : Out :=
  let x := s.core c
  let a := s.ea c w
  .next (s.issue c 0x2D w (s.legal c (rsvM w && decide (iRS1 w < 16) && decide (iRS2 w < 8))
    (match s.coreStore c a 64 (List.replicate 256 0) with
      | .ok _ => .ok (s.storeLanes a (x.getP (iRS2 w)) (x.getV (iRD w)))
      | r => r)))

/-- An atomic on the own cluster store (R141 to R143): the new word is a function of the old one. An atomic that changes a
declared lock word from 0 starts a lease of its core (R453). -/
def State.amo (s : State) (c : CoreId) (w : BitVec 56) (f : Word → Option Word) : Issue :=
  let a := s.ea c w
  s.legal c (rsvM w && decide (iRS1 w < 16))
    (if a % 4 ≠ 0 ∨ !inOwnCs c a 4 then .exc xACCESS a
     else match s.coreRead a 4 with
      | (s', _, some g) => .fail s' xLSECC g
      | (s', bs, none) =>
        let t : Word := BitVec.ofNat 32 (leNat bs)
        let s' := match f t with
          | some v =>
            let s' := s'.store32 a v
            if t = 0 ∧ v ≠ 0 ∧ s'.flt.lockWords.any (fun l => l.1 == a) then
              { s' with flt := { s'.flt with locks := s'.flt.locks ++ [(a, c, s'.now)] } }
            else s'
          | none => s'
        s'.toS c w t)

/-- AMOADD (R141). -/
def execAmoadd (c : CoreId) (w : BitVec 56) (s : State) : Out :=
  .next (s.issue c 0x30 w (s.amo c w (fun t => some (t + (s.core c).getS (iRS2 w)))))
/-- AMOSWAP (R141). -/
def execAmoswap (c : CoreId) (w : BitVec 56) (s : State) : Out :=
  .next (s.issue c 0x31 w (s.amo c w (fun _ => some ((s.core c).getS (iRS2 w)))))
/-- AMOCAS (R141): the comparand is S[RD] before the instruction. -/
def execAmocas (c : CoreId) (w : BitVec 56) (s : State) : Out :=
  .next (s.issue c 0x32 w (s.amo c w (fun t => if t = (s.core c).getS (iRD w) then some ((s.core c).getS (iRS2 w)) else none)))

end Sys2Proof.Machine
end

