-- ==== Sys2Proof/Machine/BenvorVector.lean ====
section
/-! DEFINITION. Vector instructions (R174 to R181). -/

namespace Sys2Proof.Machine

/-- Lane operations of VIOP and VSOP; none where the code is not listed (R175). -/
def viopFn (fn rm : Nat) (a b : Word) : Option (Word × AFlags) :=
  let sh := b.toNat % 32
  match fn with
  | 0 => some (a + b, 0)
  | 1 => some (a - b, 0)
  | 2 => some (a &&& b, 0)
  | 3 => some (a ||| b, 0)
  | 4 => some (a ^^^ b, 0)
  | 5 => some (a <<< sh, 0)
  | 6 => some (a >>> sh, 0)
  | 7 => some (a.sshiftRight sh, 0)
  | 8 => some (if b.slt a then b else a, 0)
  | 9 => some (if a.slt b then b else a, 0)
  | 10 => some (a * b, 0)
  | 11 => let r := narrowInt 32 true (a.toInt + b.toInt); some (BitVec.ofNat 32 r.1, r.2)
  | 12 => let r := narrowInt 32 true (a.toInt - b.toInt); some (BitVec.ofNat 32 r.1, r.2)
  | 13 => some (BitVec.ofInt 32 (roundDivPow rm a.toInt sh), 0)
  | 14 => some (if a.slt 0 then -a else a, if a = 0x80000000 then fIOV else 0)
  | 15 => some (-a, if a = 0x80000000 then fIOV else 0)
  | _ => none

/-- The lane function, or nothing done, once the code is known to be listed. -/
def orZero (o : Option (Word × AFlags)) : Word × AFlags := o.getD (0, 0)

/-- VIOP (R175). RM is used by SRAR. -/
def execViop (c : CoreId) (w : BitVec 56) (s : State) : Out :=
  let x := s.core c
  let ok := vUnused w true true true false true true false true false false false false && (viopFn (vFN w) 0 0 0).isSome
  .next (s.issue c 0xA0 w (s.unit c 0xA0 w ok
    (s.toV c w (fun i => orZero (viopFn (vFN w) (vRM w) (lane (x.getV (vVA w)) i) (lane (x.getV (vVB w)) i))))))

/-- VSOP (R175): b is S[VC] for every lane. -/
def execVsop (c : CoreId) (w : BitVec 56) (s : State) : Out :=
  let x := s.core c
  let ok := vUnused w true true false true true true false true false false false false && (viopFn (vFN w) 0 0 0).isSome
  .next (s.issue c 0xA1 w (s.unit c 0xA1 w ok
    (s.toV c w (fun i => orZero (viopFn (vFN w) (vRM w) (lane (x.getV (vVA w)) i) (x.getS (vVC w)))))))

/-- Lane operations of VFOP (R80, R82, R175). -/
def vfopFn (fn rm : Nat) (a b : Word) : Word × AFlags :=
  match fn with
  | 0 => fadd rm a b
  | 1 => fsub rm a b
  | 2 => fmul rm a b
  | 3 => (fmin a b, 0)
  | 4 => (fmax a b, 0)
  | 5 => (fabs a, 0)
  | _ => (fneg a, 0)

/-- VFOP (R175). -/
def execVfop (c : CoreId) (w : BitVec 56) (s : State) : Out :=
  let x := s.core c
  let ok := vUnused w true true true false true true false true false false false false && decide (vFN w ≤ 6)
  .next (s.issue c 0xA2 w (s.unit c 0xA2 w ok
    (s.toV c w (fun i => vfopFn (vFN w) (vRM w) (lane (x.getV (vVA w)) i) (lane (x.getV (vVB w)) i)))))

/-- VFMA (R175): 0 a*b+c, 1 a*b-c, 2 -a*b+c, 3 -a*b-c, one rounding. -/
def execVfma (c : CoreId) (w : BitVec 56) (s : State) : Out :=
  let x := s.core c
  let fn := vFN w
  let ok := vUnused w true true true true true true false true false false false false && decide (fn ≤ 3)
  .next (s.issue c 0xA3 w (s.unit c 0xA3 w ok
    (s.toV c w (fun i => ffma (vRM w) (fn ≥ 2) (fn % 2 == 1) (lane (x.getV (vVA w)) i) (lane (x.getV (vVB w)) i)
      (lane (x.getV (vVC w)) i)))))

/-- VFDS (R175): 0 divide, 1 square root. -/
def execVfds (c : CoreId) (w : BitVec 56) (s : State) : Out :=
  let x := s.core c
  let ok := vUnused w true true true false true true false true false false false false && decide (vFN w ≤ 1)
  .next (s.issue c 0xA4 w (s.unit c 0xA4 w ok
    (s.toV c w (fun i => if vFN w = 0 then fdiv (vRM w) (lane (x.getV (vVA w)) i) (lane (x.getV (vVB w)) i)
      else fsqrt (vRM w) (lane (x.getV (vVA w)) i)))))

/-- VFAPX (R81, R175): 0 reciprocal, 1 reciprocal square root. -/
def execVfapx (c : CoreId) (w : BitVec 56) (s : State) : Out :=
  let x := s.core c
  let ok := vUnused w true true false false true false false true false false false false && decide (vFN w ≤ 1)
  .next (s.issue c 0xA5 w (s.unit c 0xA5 w ok
    (s.toV c w (fun i => (if vFN w = 0 then frcp else frsqrt) (lane (x.getV (vVA w)) i)))))

/-- A comparison of VCMP (R176): INT32 signed, or FP32 with NaN unequal to everything and -0 equal to +0. -/
def vcmpFn (fp : Bool) (op : Nat) (a b : Word) : Bool :=
  let nan := fp && (isNan32 a || isNan32 b)
  let ka := if fp then fcmpKey a else a.toInt
  let kb := if fp then fcmpKey b else b.toInt
  if nan then op == 1
  else match op with
    | 0 => ka == kb
    | 1 => ka != kb
    | 2 => decide (ka < kb)
    | 3 => decide (ka ≤ kb)
    | 4 => decide (kb < ka)
    | _ => decide (kb ≤ ka)

/-- A predicate from its bits. -/
def predOf (f : Nat → Bool) : BitVec 64 := BitVec.ofNat 64 ((List.range 64).foldl (fun a i => a + b2n (f i) * 2 ^ i) 0)

/-- VCMP (R176). -/
def execVcmp (c : CoreId) (w : BitVec 56) (s : State) : Out :=
  let x := s.core c
  let op := bitsOf w 27 24
  let ok := vUnused w true true true false true false false true false false false false && zf w 55 54
    && decide (bitsOf w 29 28 ≤ 1) && decide (op ≤ 5)
  let p := predOf (fun i => (x.getP (vPG w)).getLsbD i &&
    vcmpFn (bitsOf w 29 28 == 1) op (lane (x.getV (vVA w)) i) (lane (x.getV (vVB w)) i))
  .next (s.issue c 0xA6 w (s.unit c 0xA6 w ok (.ok (s.putCore c (x.setP (vVD w) p)))))

/-- VMOV (R175). FN 2 writes every lane, as its row of the table says, and PG chooses the source (R174; DEDUCED, log entry 102). -/
def execVmov (c : CoreId) (w : BitVec 56) (s : State) : Out :=
  let x := s.core c
  let va := x.getV (vVA w)
  let ok := vUnused w true true true true true false false true false false false false && decide (vFN w ≤ 4)
  .next (s.issue c 0xA7 w (s.unit c 0xA7 w ok
    (match vFN w with
      | 0 => s.toV c w (fun i => (lane va i, 0))
      | 1 => s.toV c w (fun _ => (x.getS (vVC w), 0))
      | 2 => s.putV c w (ofLanes (fun i => if (x.getP (vPG w)).getLsbD i then lane va i else lane (x.getV (vVB w)) i)) 0
      | 3 => .ok (s.putCore c (x.setS (vVD w) (lane va ((x.getS (vVC w)).toNat % 64))))
      | _ => s.putV c w (ofLanes (fun i => BitVec.ofNat 32 i)) 0)))

/-- VCVT (R75 to R78, R177). The lane forms are merged under PG; the packing and unpacking forms require PG = 0 (R174). -/
def execVcvt (c : CoreId) (w : BitVec 56) (s : State) : Out :=
  let x := s.core c
  let va := x.getV (vVA w)
  let sf := vSF w
  let df := vDF w
  let rm := vRM w
  let n := vNM w + 1
  let base := vUnused w true true false false true true true false true true true true
  let r : Option Issue :=
    if sf = 10 ∧ df = 11 then
      if n = 1 then some (s.toV c w (fun i => let r := floatToInt 32 rm (fval (lane va i)); (BitVec.ofNat 32 r.1, r.2))) else none
    else if sf = 11 ∧ df = 10 then
      if n = 1 then some (s.toV c w (fun i =>
        let v := (lane va i).toInt
        fpack rm (.fin (decide (v < 0)) v.natAbs 0))) else none
    else if sf = 10 ∨ sf = 11 then
      match vecBits df with
      | none => none
      | some b =>
        if (sf = 11 ∧ 2 ≤ df) ∨ 256 / (8 * b) < n ∨ 32 < vVA w + n ∨ vPG w ≠ 0 then none
        else
          let p := packRegs b n (fun k i => narrowElem (sf == 11) df rm (vSAT w) (lane (x.getV (vVA w + k)) i))
          some (s.putV c w p.1 p.2)
    else match vecBits sf with
      | none => none
      | some b =>
        let off := vIMM w % 8 * (8 * b)
        if df ≠ (if (vecFmt sf).isSome then 10 else 11) ∨ n ≠ 1 ∨ 256 < off + 8 * b ∨ vPG w ≠ 0 then none
        else
          let v := va.toNat >>> (8 * off)
          some (s.putV c w (ofLanes (fun i => widenElem sf (elemAt v b i))) 0)
  .next (s.issue c 0xA8 w (match r with
    | some i => s.unit c 0xA8 w base i
    | none => .exc xILLEGAL (s.pcAddr c)))

/-- VREQ (R79, R178). -/
def execVreq (c : CoreId) (w : BitVec 56) (s : State) : Out :=
  let x := s.core c
  let n := vNM w + 1
  let b := if vDF w = 1 then 4 else 8
  let ok := vUnused w true true true true false true true false false true true false && decide (vDF w ≤ 1)
    && decide (n ≤ 256 / (8 * b)) && decide (vVA w + n ≤ 32)
  let p := packRegs b n (fun k i =>
    let q := lane (x.getV (vVC w)) i
    requant b (vRM w) (vSAT w) (lane (x.getV (vVA w + k)) i) (lane (x.getV (vVB w)) i) (bitsOf q 21 16)
      (sval 16 (bitsOf q 15 0)))
  .next (s.issue c 0xA9 w (s.unit c 0xA9 w ok (s.putV c w p.1 p.2)))

/-- Largest element magnitude of an MX format as (m, e) for m * 2^e, and bits of an element (R179). -/
def mxMax (df : Nat) : Nat × Int := if df = 4 then (127, -6) else if df = 5 then (7, 2) else if df = 6 then (15, -1) else (3, 1)

/-- The scale byte and the 32 element codes of one block (R179). -/
def mxBlock (df rm : Nat) (xs : List Word) : Nat × List (Nat × AFlags) :=
  let vs := xs.map fval
  let notFin (v : FVal) : Bool := match v with
    | .fin _ _ _ => false
    | _ => true
  if vs.any notFin then (0xFF, vs.map (fun _ => (0, fNV)))
  else
    -- largest magnitude by FP32 encoding, which orders magnitudes
    let amax := xs.foldl (fun a x => Nat.max a (x &&& 0x7FFFFFFF).toNat) 0
    let sc : Nat := match fmtFP32.decode amax with
      | .fin _ m e =>
        if m = 0 then 0
        else
          let (fm, fe) := mxMax df
          let lm := m.log2
          let lf := fm.log2
          let k : Int := e - fe + lm - lf + (if m <<< lf ≤ fm <<< lm then 0 else 1)
          (clampI (k + 127) 0 254).toNat
      | _ => 0
    let el (v : FVal) : Nat × AFlags :=
      let v := match v with
        | .fin n m e => FVal.fin n m (e - ((sc : Int) - 127))
        | v => v
      match df, v with
      | 4, .fin n m e => floatToInt 8 rm (.fin n m (e + 6))
      | 4, v => floatToInt 8 rm v
      | 5, v => fmtE3M2.encode rm true v
      | 6, v => fmtE2M3.encode rm true v
      | _, v => fmtE2M1.encode rm true v
    (sc, vs.map el)

/-- VMXQ FN 0 (R179): blocks of lanes 0 to 31 and 32 to 63 of each source; scales go to the bytes of S[VC]. -/
def execVmxqQuantise (c : CoreId) (w : BitVec 56) (s : State) : Out :=
  let x := s.core c
  let n := vNM w + 1
  let df := vDF w
  let b := fmtBits df
  let ok := vUnused w true true false true false true true true false true true false && vFN w == 0
    && isMX df && decide (n ≤ 2) && decide (vVA w + n ≤ 32)
  let blocks := (List.range (2 * n)).map (fun j =>
    mxBlock df (vRM w) ((List.range 32).map (fun i => lane (x.getV (vVA w + j / 2)) (32 * (j % 2) + i))))
  let es := blocks.flatMap (·.2)
  let scales := packElems 8 (blocks.map (·.1))
  .next (s.issue c 0xAA w (s.unit c 0xAA w ok
    (.ok ((s.putCore c ((x.setV (vVD w) (BitVec.ofNat 2048 (packElems b (es.map (·.1))))).setS (vVC w)
      (BitVec.ofNat 32 scales))).orFlags c (es.foldl (fun a e => a ||| e.2) 0)))))

/-- VMXQ FN 1 (R180): the two blocks from element 64 * IMM[1:0]. SF names the format. The scale bytes 4 to 7, which S[VC]
does not have, are free (log entry 13). Bits [11:2] of IMM are not looked at (log entry 99). -/
def execVmxqDequantise (c : CoreId) (w : BitVec 56) (s : State) : Out :=
  let x := s.core c
  let sf := vSF w
  let b := fmtBits sf
  let i0 := vIMM w % 4
  let ok := vUnused w true true false true false false false true true false false true && vFN w == 1 && isMX sf
  let sc := (x.getS (vVC w)).toNat + 2 ^ 32 * (Config.mxScales (x.getV (vVA w)) (x.getS (vVC w)) i0).toNat
  let v := (x.getV (vVA w)).toNat >>> (64 * i0 * b)
  let r := (List.range 64).map (fun i =>
    fpack 0 (scaled (elemVal sf (elemAt v b i)) (scaleExp (elemAt sc 8 (2 * i0 + i / 32)))))
  .next (s.issue c 0xAA w (s.unit c 0xAA w ok
    (s.putV c w (ofLanes (fun i => ((r[i]?).map (·.1)).getD 0)) (r.foldl (fun a e => a ||| e.2 &&& ~~~fUF) 0))))

/-- A fixed tree over the lanes: halves are combined until one is left (R181). -/
def treeRed (f : Word → Word → Word × AFlags) : Nat → List Word → Word × AFlags
  | 0, xs => (xs.headD 0, 0)
  | n + 1, xs =>
    let h := 2 ^ n
    let r := List.zipWith f (xs.take h) (xs.drop h)
    let t := treeRed f n (r.map (·.1))
    (t.1, r.foldl (fun a e => a ||| e.2) t.2)

/-- Operation and identity of a reduction (R181). -/
def redFn (fn rm : Nat) : Option ((Word → Word → Word × AFlags) × Word) :=
  match fn with
  | 0 => some (fun a b => (a + b, 0), 0)
  | 1 => some (fun a b => (if a.slt b then b else a, 0), 0x80000000)
  | 2 => some (fun a b => (if b.slt a then b else a, 0), 0x7FFFFFFF)
  | 3 => some (fadd rm, 0)
  | 4 => some (fun a b => (fmax a b, 0), 0xFF800000)
  | 5 => some (fun a b => (fmin a b, 0), 0x7F800000)
  | _ => none

/-- VRED (R181). -/
def execVred (c : CoreId) (w : BitVec 56) (s : State) : Out :=
  let x := s.core c
  let base := vUnused w true true false false true true false true false false false false
  .next (s.issue c 0xAB w (match redFn (vFN w) (vRM w) with
    | none => .exc xILLEGAL (s.pcAddr c)
    | some (f, e) =>
      let r := treeRed f 6 ((List.range 64).map (fun i =>
        if (x.getP (vPG w)).getLsbD i then lane (x.getV (vVA w)) i else e))
      s.unit c 0xAB w base (s.putV c w (ofLanes (fun _ => r.1)) r.2)))

end Sys2Proof.Machine
end

