-- ==== Sys2Proof/Machine/CoreCmd.lean ====
section
/-! DEFINITION. Core commands: context load, start, step, halt, ERRSTOP, pairs and the end of ACCORD (R107, R114 to R122,
R130, R133, R149, R157, R159, R421, R422). -/

namespace Sys2Proof.Machine

/-- CONTEXT_LOAD (R107, R159, R414): device firmware loads a set of cores of one cluster. -/
def execContextLoad (cl : ClusterId) (mask : BitVec 8) (s : State) : Out :=
  .next (if s.up (domCluster cl) then
    s.loadCores cl (cl.cores.filter (fun c => mask.getLsbD c.k && s.coreEnabled c)) else s)

/-- A debug action on either core of a pair under expert control ends lockstep (R117, R421). -/
def State.endLockstep (s : State) (c : CoreId) : State :=
  let p := c.pair
  if s.locked p then (s.setFld .pcmp p.inst Reg.PCMP_STAT 0 0 0).setFld .pcmp p.inst Reg.PCMP_STAT 2 2 1 else s

/-- Expert START (R118): run from TC_ENTRY. -/
def State.expertStart (s : State) (c : CoreId) : State :=
  s.startCore c ((s.reg .tc c.inst Reg.TC_ENTRY).setWidth 20) (s.core c).jobWheel

/-- CORE_START (R118, R14). -/
def execCoreStart (src : Src) (c : CoreId) (s : State) : Out :=
  .next (s.regCommand src .tc c.inst Reg.TC_CTRL (tcBase c) (fun s =>
    s.guarded src .tc c.inst true (fun s => s.expertStart c)))

/-- HALT takes effect after the instruction in issue; a BAR that waits at its slot is released with 1 (R122, R149). -/
def State.haltRequest (s : State) (c : CoreId) : State :=
  let s := (s.endLockstep c).setFld .tc c.inst Reg.TC_CTRL 1 1 1
  let s := s.barClear c
  let x := s.core c
  if x.halted then s else s.setCore c { x with haltPending := true }

/-- The HALT request is withdrawn and the core runs again (R122). -/
def State.haltClear (s : State) (c : CoreId) : State :=
  let s := s.setFld .tc c.inst Reg.TC_CTRL 1 1 0
  s.setCore c { s.core c with halted := false, haltPending := false }

/-- HALT_REQUEST (R122). -/
def execHaltRequest (src : Src) (c : CoreId) (s : State) : Out :=
  .next (s.regCommand src .tc c.inst Reg.TC_CTRL (tcBase c) (fun s =>
    s.guarded src .tc c.inst (s.fld .tc c.inst Reg.TC_CTRL 1 1 == 0) (fun s => s.haltRequest c)))

/-- HALT_COMPLETE (R122): the units have finished and the instruction in issue has ended, also one that stalled there. A slot whose mask
names the core is cleared (R149). -/
def execHaltComplete (c : CoreId) (s : State) : Out :=
  let x := s.core c
  .next (if x.haltPending && x.unitsIdle && x.wait == .none && !x.stalled then
    (s.setCore c { x with halted := true, haltPending := false }).barClear c else s)

/-! ### Fetch and step -/

/-- The instruction at a byte of a local store, out of the line that holds it. -/
def lineWord (pc : Nat) (l : Line) : BitVec 64 := l.extractLsb' (pc % 64 / 8 * 64) 64

/-- The instruction at the program counter, through the two fetch lines (R133); none on an uncorrectable error. -/
def State.fetchInstr (s : State) (c : CoreId) : State × Option (BitVec 64) :=
  let x := s.core c
  let n := x.pc.toNat / 64
  match x.fetch.find? (fun e => e.1 == n) with
  | some e => (s, some (lineWord x.pc.toNat e.2))
  | none => match s.coreRead (lsBase c + n * 64) 64 with
    | (s', _, some _) => (s', none)
    | (s', bs, none) =>
      let l : Line := BitVec.ofNat 512 (leNat bs)
      (s'.setCore c { s'.core c with fetch := (n, l) :: x.fetch.take 1 }, some (lineWord x.pc.toNat l))

/-- The meaning of an opcode (R129, R164); none where it is undefined. -/
def opcodeMeaning (op : Nat) (c : CoreId) (w : BitVec 56) (s : State) : Option Out :=
  match op with
  | 0x01 => some (execNop c w s) | 0x02 => some (execWaitc c w s) | 0x04 => some (execSop c w s)
  | 0x05 => some (execSopi c w s) | 0x06 => some (execSrd c w s) | 0x08 => some (execAadd c w s)
  | 0x09 => some (execAaddi c w s) | 0x0A => some (execAli c w s) | 0x0B => some (execAmovs c w s)
  | 0x0C => some (execAsets c w s) | 0x10 => some (execBr c w s) | 0x11 => some (execJmp c w s)
  | 0x12 => some (execJal c w s) | 0x13 => some (execJr c w s) | 0x14 => some (execLoop c w s)
  | 0x15 => some (execLoopi c w s) | 0x18 => some (execPop c w s) | 0x19 => some (execPlane c w s)
  | 0x1A => some (execPmovs c w s) | 0x1B => some (execPfroms c w s) | 0x20 => some (execLdb c w s)
  | 0x21 => some (execLdbu c w s) | 0x22 => some (execLdh c w s) | 0x23 => some (execLdhu c w s)
  | 0x24 => some (execLdw c w s) | 0x25 => some (execLda c w s) | 0x28 => some (execStb c w s)
  | 0x29 => some (execSth c w s) | 0x2A => some (execStw c w s) | 0x2B => some (execSta c w s)
  | 0x2C => some (execVld c w s) | 0x2D => some (execVst c w s) | 0x30 => some (execAmoadd c w s)
  | 0x31 => some (execAmoswap c w s) | 0x32 => some (execAmocas c w s) | 0x38 => some (execDmago c w s)
  | 0x39 => some (execDmastop c w s) | 0x3A => some (execSigwait c w s) | 0x3B => some (execSigpost c w s)
  | 0x3C => some (execBar c w s) | 0x3D => some (execFence c w s) | 0x3E => some (execPwb c w s)
  | 0x3F => some (execPwait c w s) | 0x40 => some (execAccord c w s) | 0x41 => some (execEnd c w s)
  | 0x80 => some (execMma c w s) | 0x88 => some (execWld c w s) | 0x90 => some (execAmv c w s)
  | 0x91 => some (execAmvw c w s) | 0xA0 => some (execViop c w s) | 0xA1 => some (execVsop c w s)
  | 0xA2 => some (execVfop c w s) | 0xA3 => some (execVfma c w s) | 0xA4 => some (execVfds c w s)
  | 0xA5 => some (execVfapx c w s) | 0xA6 => some (execVcmp c w s) | 0xA7 => some (execVmov c w s)
  | 0xA8 => some (execVcvt c w s) | 0xA9 => some (execVreq c w s)
  | 0xAA => some (if vFN w = 0 then execVmxqQuantise c w s else execVmxqDequantise c w s)
  | 0xAB => some (execVred c w s) | 0xC0 => some (execAopen c w s) | 0xC1 => some (execAstep c w s)
  | 0xC2 => some (execAstate c w s) | 0xC3 => some (execAvac c w s) | 0xC4 => some (execAexp2 c w s)
  | 0xC8 => some (execVapp c w s) | 0xC9 => some (execVfil c w s) | 0xCA => some (execVfls c w s)
  | _ => none

/-- The state of an outcome. -/
def outState (o : Out) (s : State) : State :=
  match o with
  | .next t => t
  | _ => s

/-- The contents in which a queued instruction starts: its operands of the scalar sequencer are those of its issue, and it does not wait
again. -/
def CoreState.startUOp (x : CoreState) (q : UOp) : CoreState :=
  { x with pc := q.pc, s := q.s, a := q.a, loops := [], streamQ := [], unitQ := [], pend := none, wait := .none, run := true,
           halted := false, haltPending := false, errstop := false, ended := false }

/-- The contents after a queued instruction: the sequencer's own are as before, but for an S register that it wrote, and an exception
that it raised is recorded in its turn (R130). -/
def CoreState.endUOp (x : CoreState) (q : UOp) (rest : List UOp) (y : CoreState) : CoreState :=
  let wrote := (resUse q.op q.w).2.filterMap (fun r => match r with
    | .s i => if i % 32 = 0 then none else some (Fin.ofNat 32 i)
    | _ => none)
  { y with pc := x.pc, a := x.a, loops := x.loops, fetch := x.fetch, streamQ := x.streamQ, unitQ := rest, wait := x.wait,
           s := wrote.foldl (fun m i => m.set i (y.s.get i 0)) x.s, pairedS := x.pairedS.filter (fun i => !wrote.contains i),
           stalled := x.stalled, pwb := x.pwb, run := x.run, halted := x.halted, haltPending := x.haltPending, errstop := x.errstop,
           ended := x.ended, pend := x.pend.or y.pend, more := x.more ++ (if x.pend.isSome then y.pend.toList else []) }

/-- A queued instruction that no longer waits starts (R101, R160). -/
def State.runUOp (s : State) (c : CoreId) (q : UOp) (rest : List UOp) : State :=
  let x := s.core c
  let s := s.putCore c (x.startUOp q)
  let s := match opcodeMeaning q.op c q.w s with
    | some o => outState o s
    | none => s
  s.putCore c (x.endUOp q rest (s.core c))

/-- The first queued instruction that no stream instruction before it holds up, and that no earlier one of its queue precedes. -/
def nextUOp (streams : List StreamOp) : List QUnit → List UOp → Option (UOp × List UOp)
  | _, [] => none
  | held, q :: t =>
    if held.contains q.unit || unitBlocked q.op q.w (streams.take q.ahead) then
      (nextUOp streams (q.unit :: held) t).map (fun r => (r.1, q :: r.2))
    else some (q, t)

/-- The units start what no longer waits. -/
def State.drainUnits (c : CoreId) : Nat → State → State
  | 0, s => s
  | n + 1, s => match nextUOp (s.core c).streamQ [] (s.core c).unitQ with
    | some (q, rest) => State.drainUnits c n (s.runUOp c q rest)
    | none => s

/-- STREAM_START (R90, R91, R169, R171): the head of the stream queue runs, and then what waited for it in the other queues. -/
def execStreamStart (c : CoreId) (s : State) : Out :=
  .next (if s.coreEnabled c && s.domOn (domCluster c.cl) && !s.isChecker c then
    let s := s.streamHead c
    State.drainUnits c (s.core c).unitQ.length s
  else s)

/-- One instruction of a core is fetched and issued; an undefined opcode raises ILLEGAL (R123, R129). -/
def State.issueNext (s : State) (c : CoreId) : State :=
  if !s.canIssue c then s
  else if inAccord (s.core c).pc.toNat then s.except c xACCESS (s.pcAddr c)
  else match s.fetchInstr c with
    | (s, none) => s.except c xLSECC (s.pcAddr c)
    | (s, some i) => match opcodeMeaning (bitsOf i 63 56) c (i.setWidth 56) s with
      | some o => outState o s
      | none => s.except c xILLEGAL (s.pcAddr c)

/-- Expert STEP (R118): a halted core issues one instruction and is halted again. -/
def State.expertStep (s : State) (c : CoreId) : State :=
  if (s.core c).halted then
    let s := s.endLockstep c
    let s := (s.setCore c { s.core c with halted := false }).issueNext c
    s.setCore c { s.core c with halted := true }
  else s

/-- CORE_STEP (R118, R421). -/
def execCoreStep (src : Src) (c : CoreId) (s : State) : Out :=
  .next (s.regCommand src .tc c.inst Reg.TC_CTRL (tcBase c) (fun s =>
    s.guarded src .tc c.inst true (fun s => s.expertStep c)))

/-! ### Errors -/

/-- The error of an exception is recorded once: a unit or a memory has recorded its own already. -/
def State.recordPend (s : State) (c : CoreId) (p : Pend) : State :=
  if p.bit = 6 ∨ p.bit = 7 ∨ (p.bit = xLSECC ∧ (s.mirrored c).any (fun d => inOwnLs d p.addr.toNat 1)) then s
  else (s.mirrored c).foldl (fun s d => s.raise .tc d.inst p.bit p.addr.toNat 0) s

/-- ERRSTOP (R130, R149, R284): once the unit queues and the channels have run out. -/
def execErrstop (c : CoreId) (s : State) : Out :=
  let x := s.core c
  match x.pend with
  | none => .next s
  | some p =>
    if !x.unitsIdle || !x.chansSettled || s.isChecker c then .next s
    else
      let s := (p :: x.more).foldl (fun (s : State) p => s.recordPend c p) s
      let s := (s.putCore c { s.core c with errstop := true, run := false, pend := none, more := [] }).barClear c
      .next (s.coreFailed c)

/-- PAIR_MISMATCH (R116, R120, R149, R284, R416): both cores halt; kind and cycle of the first mismatch are kept; FP3 marks the
partition failed. -/
def execPairMismatch (p : PairId) (kind : Fin 8) (s : State) : Out :=
  if !s.locked p then .next s
  else
    let i := p.inst
    let first := s.fld .pcmp i Reg.PCMP_STAT 1 1 == 0
    let s := s.setFld .pcmp i Reg.PCMP_STAT 1 1 1
    let s := if first then (s.setReg .pcmp i Reg.PCMP_MISCYC (BitVec.ofNat 32 (cyclesOf (s.now - (s.core p.primary).startLt)))).setReg
        .pcmp i Reg.PCMP_MISKIND (BitVec.ofNat 32 kind.val) else s
    let s := s.setCore p.primary { s.core p.primary with halted := true }
    let s := (s.setCore p.checker { s.core p.checker with halted := true }).barClear p.primary
    let s := (s.raise .tc p.primary.inst 8 0 0).coreFailed p.primary
    .next (match s.partOf p.primary with
      | some (pid, _) => if s.fpRuns 3 then s.failPart pid else s
      | none => s)

/-- Paired mode of a pair is set or cleared (R117, R120, R422): only on a usable pair, and after debug only while both cores
are IDLE. In lockstep the checker takes its primary's contents, but not its local store (R18, R114; log entry 7). -/
def State.pairEnable (s : State) (p : PairId) (en : Bool) : State :=
  let i := p.inst
  if en then
    let debug := s.fld .pcmp i Reg.PCMP_STAT 2 2 == 1
    let idle := (s.core p.primary).idle && (s.core p.checker).idle
    if !s.pairUsable p || (debug && (!idle || s.fld .pcmp i Reg.PCMP_CTRL 1 1 == 1)) || s.locked p then s
    else
      let s := ((s.setFld .pcmp i Reg.PCMP_CTRL 1 1 1).setFld .pcmp i Reg.PCMP_STAT 2 2 0).setFld .pcmp i Reg.PCMP_STAT 0 0 1
      s.setCore p.checker (s.core p.primary)
  else (s.setFld .pcmp i Reg.PCMP_CTRL 1 1 0).setFld .pcmp i Reg.PCMP_STAT 0 0 0

/-- PAIR_ENABLE (R120, R422). -/
def execPairEnable (src : Src) (p : PairId) (en : Bool) (s : State) : Out :=
  .next (s.regCommand src .pcmp p.inst Reg.PCMP_CTRL (pcmpBase p) (fun s =>
    s.guarded src .pcmp p.inst (s.fld .pcmp p.inst Reg.PCMP_CTRL 1 1 != b2n en) (fun s => s.pairEnable p en)))

/-! ### End of the reference program -/

/-- V16 to V31 after ACCORD: free values (R157). -/
def freeV (x : CoreState) (n : Nat) : CoreState := upTo 16 (fun i x => x.setV (16 + i) (Config.freeVReg (n + i))) x

/-- ACCORD_DONE (R157): the reference output, its CRC in S[RD] and in the cadence unit, tags NONE, V16 to V31 undefined. `wrong` is
the signature of a core that does not work (R415). -/
def execAccordDone (c : CoreId) (wrong : Option Word) (s : State) : Out :=
  let x := s.core c
  match x.wait with
  | .accord rd =>
    if s.isChecker c then .next s
    else
      let out := (List.range 0x1000).map (Config.accordOutput x.accInput)
      let sig := wrong.getD (crc32c out)
      let s := s.store (lsBase c + 0xFF000) out
      let x := freeV { x with accMode := [], wb := x.wb.map (fun e => (e.1, { e.2 with tag := none })) } s.freeCtr
      let s := { s with freeCtr := s.freeCtr + 16, chk := { s.chk with due := s.chk.due.set c x.accInput } }
      let s := ((s.mirrored c).foldl (fun s d => s.setReg .cad d.cl.inst (Reg.CAD_ACCSIGk d.k) sig) s).putCore c x
      .next (if x.run then s.release c rd sig else s.putCore c { s.core c with wait := .none })
  | _ => .next s

end Sys2Proof.Machine
end

