-- ==== Sys2Proof/Machine/Crypt.lean ====
section
/-! DEFINITION. The standard functions that the spec names: SHA-256 (FIPS 180-4), HMAC-SHA-256 (RFC 2104), AES-256 (FIPS 197) and its
Galois/counter mode (SP 800-38D) (R352, R471, R474, R489, R635). -/

namespace Sys2Proof.Machine

/-! ### SHA-256 -/

def rotr32 (x n : Nat) : Nat := (x >>> n ||| x <<< (32 - n)) % 2 ^ 32

/-- Round constants. -/
def shaK : List Nat :=
  [0x428A2F98, 0x71374491, 0xB5C0FBCF, 0xE9B5DBA5, 0x3956C25B, 0x59F111F1, 0x923F82A4, 0xAB1C5ED5] ++
  [0xD807AA98, 0x12835B01, 0x243185BE, 0x550C7DC3, 0x72BE5D74, 0x80DEB1FE, 0x9BDC06A7, 0xC19BF174] ++
  [0xE49B69C1, 0xEFBE4786, 0x0FC19DC6, 0x240CA1CC, 0x2DE92C6F, 0x4A7484AA, 0x5CB0A9DC, 0x76F988DA] ++
  [0x983E5152, 0xA831C66D, 0xB00327C8, 0xBF597FC7, 0xC6E00BF3, 0xD5A79147, 0x06CA6351, 0x14292967] ++
  [0x27B70A85, 0x2E1B2138, 0x4D2C6DFC, 0x53380D13, 0x650A7354, 0x766A0ABB, 0x81C2C92E, 0x92722C85] ++
  [0xA2BFE8A1, 0xA81A664B, 0xC24B8B70, 0xC76C51A3, 0xD192E819, 0xD6990624, 0xF40E3585, 0x106AA070] ++
  [0x19A4C116, 0x1E376C08, 0x2748774C, 0x34B0BCB5, 0x391C0CB3, 0x4ED8AA4A, 0x5B9CCA4F, 0x682E6FF3] ++
  [0x748F82EE, 0x78A5636F, 0x84C87814, 0x8CC70208, 0x90BEFFFA, 0xA4506CEB, 0xBEF9A3F7, 0xC67178F2]

/-- The message schedule, newest word first, after `n` more words. -/
def shaWords : Nat → List Nat → List Nat
  | 0, w => w
  | n + 1, w =>
    let a := w.getD 1 0
    let e := w.getD 14 0
    let s0 := rotr32 e 7 ^^^ rotr32 e 18 ^^^ e >>> 3
    let s1 := rotr32 a 17 ^^^ rotr32 a 19 ^^^ a >>> 10
    shaWords n (((w.getD 15 0 + s0 + w.getD 6 0 + s1) % 2 ^ 32) :: w)

/-- The eight working variables. -/
structure Sha where
  a : Nat
  b : Nat
  c : Nat
  d : Nat
  e : Nat
  f : Nat
  g : Nat
  h : Nat

def Sha.round (x : Sha) (kw : Nat × Nat) : Sha :=
  let s1 := rotr32 x.e 6 ^^^ rotr32 x.e 11 ^^^ rotr32 x.e 25
  let ch := (x.e &&& x.f) ^^^ ((x.e ^^^ 0xFFFFFFFF) &&& x.g)
  let t1 := x.h + s1 + ch + kw.1 + kw.2
  let s0 := rotr32 x.a 2 ^^^ rotr32 x.a 13 ^^^ rotr32 x.a 22
  let mj := (x.a &&& x.b) ^^^ (x.a &&& x.c) ^^^ (x.b &&& x.c)
  ⟨(t1 + s0 + mj) % 2 ^ 32, x.a, x.b, x.c, (x.d + t1) % 2 ^ 32, x.e, x.f, x.g⟩

/-- One 64-byte block. -/
def Sha.block (x : Sha) (bs : List Byte) : Sha :=
  let w := ((List.range 16).map (fun i => beNat ((bs.drop (4 * i)).take 4))).reverse
  let y := (shaK.zip (shaWords 48 w).reverse).foldl Sha.round x
  ⟨(x.a + y.a) % 2 ^ 32, (x.b + y.b) % 2 ^ 32, (x.c + y.c) % 2 ^ 32, (x.d + y.d) % 2 ^ 32,
   (x.e + y.e) % 2 ^ 32, (x.f + y.f) % 2 ^ 32, (x.g + y.g) % 2 ^ 32, (x.h + y.h) % 2 ^ 32⟩

def Sha.init : Sha := ⟨0x6A09E667, 0xBB67AE85, 0x3C6EF372, 0xA54FF53A, 0x510E527F, 0x9B05688C, 0x1F83D9AB, 0x5BE0CD19⟩
def Sha.bytes (x : Sha) : List Byte := [x.a, x.b, x.c, x.d, x.e, x.f, x.g, x.h].flatMap (beBytes 4)

/-- Zeros that fill the last block of an `n`-byte message. -/
def shaPad (n : Nat) : Nat := (119 - n % 64) % 64

/-- SHA-256 of a message. -/
def sha256 (bs : List Byte) : List Byte :=
  let m := bs ++ [0x80] ++ leBytes (shaPad bs.length) 0 ++ beBytes 8 (bs.length * 8)
  ((List.range (m.length / 64)).foldl (fun (x : Sha) i => x.block ((m.drop (64 * i)).take 64)) Sha.init).bytes

/-- HMAC-SHA-256. -/
def hmac256 (key msg : List Byte) : List Byte :=
  let k := if 64 < key.length then sha256 key else key
  let k := k ++ leBytes (64 - k.length) 0
  sha256 (k.map (· ^^^ 0x5C) ++ sha256 (k.map (· ^^^ 0x36) ++ msg))

/-! ### AES-256 -/

/-- The S-box, entry 0 in the lowest byte. -/
def aesTable : Nat :=
  0x16BB54B00F2D99416842E6BF0D89A18CDF2855CEE9871E9B948ED9691198F8E19E1DC186B95735610EF6034866B53E708A8BBD4B1F74DDE8C6B4A61C2E2578BA08AE7A65EAF4566CA94ED58D6D37C8E779E4959162ACD3C25C2406490A3A32E0DB0B5EDE14B8EE4688902A22DC4F816073195D643D7EA7C41744975FEC130CCDD2F3FF1021DAB6BCF5389D928F40A351A89F3C507F02F94585334D43FBAAEFD0CF584C4A39BECB6A5BB1FC20ED00D153842FE329B3D63B52A05A6E1B1A2C830975B227EBE28012079A059618C323C7041531D871F1E5A534CCF73F362693FDB7C072A49CAFA2D4ADF04759FA7DC982CA76ABD7FE2B670130C56F6BF27B777C63

def aesSub (x : Nat) : Nat := aesTable >>> (8 * x) % 256
def aesSubWord (w : Nat) : Nat :=
  aesSub (w / 2 ^ 24) * 2 ^ 24 + aesSub (w / 2 ^ 16 % 256) * 2 ^ 16 + aesSub (w / 2 ^ 8 % 256) * 2 ^ 8 + aesSub (w % 256)

/-- Words of the key schedule, newest first, after `n` more words; `i` is the index of the next one. -/
def aesWords : Nat → Nat → List Nat → List Nat
  | 0, _, w => w
  | n + 1, i, w =>
    let t := w.getD 0 0
    let t := if i % 8 = 0 then aesSubWord ((t * 256 + t / 2 ^ 24) % 2 ^ 32) ^^^ 2 ^ (i / 8 - 1) * 2 ^ 24
      else if i % 8 = 4 then aesSubWord t else t
    aesWords n (i + 1) ((w.getD 7 0 ^^^ t) :: w)

/-- The 15 round keys of a 32-byte key, as blocks. -/
def aesKeys (key : List Byte) : List Nat :=
  let w := (aesWords 52 8 (((List.range 8).map (fun i => beNat ((key.drop (4 * i)).take 4))).reverse)).reverse
  (List.range 15).map (fun r => ((w.drop (4 * r)).take 4).foldl (fun a x => a * 2 ^ 32 + x) 0)

/-- Byte `i` of a block, byte 0 most significant. -/
def blkByte (b i : Nat) : Nat := b >>> (8 * (15 - i)) % 256
def blkOf (l : List Nat) : Nat := l.foldl (fun a x => a * 256 + x) 0

/-- SubBytes and ShiftRows. -/
def aesShift (b : Nat) : List Nat := (List.range 16).map (fun i => aesSub (blkByte b ((i + 4 * (i % 4)) % 16)))
def aesX2 (x : Nat) : Nat := if x < 128 then 2 * x else (2 * x) ^^^ 0x11B

/-- MixColumns. -/
def aesMix (l : List Nat) : List Nat :=
  (List.range 16).map (fun i =>
    let at_ (j : Nat) : Nat := l.getD (i / 4 * 4 + (i + j) % 4) 0
    aesX2 (at_ 0) ^^^ (aesX2 (at_ 1) ^^^ at_ 1) ^^^ at_ 2 ^^^ at_ 3)

/-- AES-256 of a block under round keys. -/
def aesBlock (ks : List Nat) (b : Nat) : Nat :=
  let b := b ^^^ ks.getD 0 0
  let b := ((ks.drop 1).take 13).foldl (fun b k => blkOf (aesMix (aesShift b)) ^^^ k) b
  blkOf (aesShift b) ^^^ ks.getD 14 0

/-! ### Galois/counter mode -/

/-- Product in GF(2^128), most significant bit first. -/
def gmul (x y : Nat) : Nat :=
  ((List.range 128).foldl (fun (r : Nat × Nat) i =>
    (if x.testBit (127 - i) then r.1 ^^^ r.2 else r.1, if r.2 % 2 = 1 then (r.2 / 2) ^^^ (0xE1 * 2 ^ 120) else r.2 / 2)) (0, y)).1

/-- The 16-byte blocks of a byte list, the last one filled with zeros. -/
def blocksOf (bs : List Byte) : List Nat :=
  (List.range ((bs.length + 15) / 16)).map (fun i =>
    let c := (bs.drop (16 * i)).take 16
    beNat c * 256 ^ (16 - c.length))

def ghash (h : Nat) (aad ct : List Byte) : Nat :=
  (blocksOf aad ++ blocksOf ct ++ [aad.length * 8 * 2 ^ 64 + ct.length * 8]).foldl (fun y b => gmul (y ^^^ b) h) 0

/-- Counter mode from counter 2 on: encrypts and decrypts. -/
def gcmCtr (ks : List Nat) (nonce : Nat) (bs : List Byte) : List Byte :=
  (List.range ((bs.length + 15) / 16)).flatMap (fun i =>
    let c := (bs.drop (16 * i)).take 16
    let k := (beBytes 16 (aesBlock ks (nonce * 2 ^ 32 + (i + 2)))).take c.length
    (c.zip k).map (fun x => x.1 ^^^ x.2))

/-- The 16-byte tag over a ciphertext. -/
def gcmTag (ks : List Nat) (nonce : Nat) (aad ct : List Byte) : List Byte :=
  beBytes 16 (aesBlock ks (nonce * 2 ^ 32 + 1) ^^^ ghash (aesBlock ks 0) aad ct)

/-- AES-256-GCM: ciphertext and tag of a plaintext. -/
def gcmSeal (key nonce aad pt : List Byte) : List Byte × List Byte :=
  let ks := aesKeys key
  let ct := gcmCtr ks (beNat nonce) pt
  (ct, gcmTag ks (beNat nonce) aad ct)

/-- The plaintext of a ciphertext whose tag verifies. -/
def gcmOpen (key nonce aad ct tag : List Byte) : Option (List Byte) :=
  let ks := aesKeys key
  if gcmTag ks (beNat nonce) aad ct = tag then some (gcmCtr ks (beNat nonce) ct) else none

end Sys2Proof.Machine
end

