-- ==== Sys2Proof/Machine/Admission.lean ====
section
/-! DEFINITION. Admission and unload of partitions (R265 to R278, R469, R476, R481, R482). -/

namespace Sys2Proof.Machine

/-! ### Slices (R480 to R482) -/

/-- The slice of a context; context 0 is in slice 0. -/
def State.sliceOfCtx (s : State) (ctx : BitVec 12) : Fin 64 := ((s.sec.ctxs.get? ctx).map (·.slice)).getD 0

/-- The slice other than 0 that holds a cluster, else 0. -/
def State.sliceOfCluster (s : State) (cl : ClusterId) : Fin 64 :=
  ((s.sec.slices.find? (fun e => (e.2.clusters.get cl.die 0).getLsbD cl.n)).map (·.1)).getD 0

/-- What slices 1 to 63 hold together of a quantity. -/
def State.slicesHold (s : State) (f : Slice → Nat) : Nat := (s.sec.slices.map (fun e => f e.2)).foldl (· + ·) 0

/-- Limit of a quantity for a slice: its descriptor's, or what no other slice holds. -/
def State.sliceLimit (s : State) (sl : Fin 64) (total : Nat) (f : Slice → Nat) : Nat :=
  if sl = 0 then total - s.slicesHold f else ((s.sec.slices.get? sl).map f).getD 0

/-- Admitted partitions of a slice. -/
def State.sliceParts (s : State) (sl : Fin 64) : List Part := (s.sched.parts.map (·.2)).filter (fun p => s.sliceOfCtx p.ctx == sl)

def minShareOf (r : ResRec) : Nat := bitsOf r.amount 15 8
def sameArb (a b : ResRec) : Bool := a.typ == b.typ && a.die == b.die && a.unit == b.unit

/-- MINSHARE that a list of records asks of the arbiter of `r`. -/
def shareAt (r : ResRec) (l : List ResRec) : Nat := ((l.filter (sameArb r)).map minShareOf).foldl (· + ·) 0

/-- Condition 11 (R482). -/
def State.quotaOk (s : State) (d : PDesc) (res : List ResRec) : Bool :=
  let sl := s.sliceOfCtx d.ctx
  let held := (s.sliceParts sl).flatMap (·.res) ++ (if sl = 0 then s.chk.mons.flatMap (fun e => e.2.shares) else [])
  d.recs.all (fun r => s.sliceOfCluster r.cl == sl) &&
    decide ((s.sliceParts sl).length < s.sliceLimit sl 32 (·.parts)) &&
    (res.filter ResRec.isShare).all (fun r =>
      decide (shareAt r res + shareAt r held ≤ s.sliceLimit sl 256 (fun x => if r.typ = 1 then x.mcShare else x.dpShare)))

/-! ### Conditions over the machine (R275) -/


/-- Free programmable share entries of an arbiter (R213). -/
def State.freeEntries (s : State) (b : Blk) (i : Nat) : List (Fin 32) :=
  (List.finRange 32).filter (fun e => e.val != 31 && !bitOf (s.shSrc b i e) 31)

/-- Condition 8. -/
def State.sharesOk (s : State) (res : List ResRec) : Bool :=
  (res.filter ResRec.isShare).all (fun r =>
    let a := r.arb
    decide (s.shSum a.1 a.2 + shareAt r res ≤ 256) && decide ((res.filter (sameArb r)).length ≤ (s.freeEntries a.1 a.2).length))

/-- Condition 9: the certified top-note load of every mesh link, in MB/s (R200). -/
def State.meshOk (s : State) (res : List ResRec) : Bool :=
  let held := s.sched.parts.flatMap (fun e => e.2.res)
  (res.filter (fun r => r.typ == 4)).all (fun r =>
    decide ((((res ++ held).filter (sameArb r)).map (fun x => x.amount.toNat)).foldl (· + ·) 0 ≤ 131070))

/-- Condition 10: DP_CREDc of every class at a port with the new credits (R229). -/
def State.creditsOk (s : State) (res : List ResRec) : Bool :=
  (res.filter (fun r => r.typ == 3)).all (fun r =>
    let add := ((res.filter (sameArb r)).map (fun x => x.amount.toNat % 1024)).foldl (· + ·) 0
    decide (((List.range 8).map (s.reservedCred r.die (Fin.ofNat 7 r.unit))).foldl (· + ·) 0 + add ≤ 1024))

/-- A core that no placement may name: not enabled, its domain off, quarantined, or on a failed die (R43, R383, R417, R447). -/
def State.coreBarred (s : State) (c : CoreId) : Bool :=
  !s.coreEnabled c || !s.up (domCluster c.cl) || s.flt.quarantined.contains c || s.flt.badDies.contains c.die8

/-- Condition 3. -/
def State.floorplanOk (s : State) (d : PDesc) (res : List ResRec) : Bool :=
  s.pkg == pkREADY &&
    d.recs.all (fun r => r.coreList.all (fun c => !s.coreBarred c) &&
      (List.finRange 4).all (fun i => !d.paired || !r.pairs.getLsbD i || s.pairUsable ⟨r.cl, i⟩)) &&
    res.all (fun r => !s.flt.badDies.contains r.die)

/-- Condition 5: R266 and R469. -/
def State.ctxmixOk (s : State) (d : PDesc) : Bool :=
  d.recs.all (fun r =>
    (s.ownerOf r.cl == 0 || s.ownerOf r.cl == d.ctx) &&
      s.sched.parts.all (fun e => e.2.recs.all (fun x => x.cl != r.cl ||
        (e.2.ctx == d.ctx && (decide (x.csEnd ≤ r.csStart) || decide (r.csEnd ≤ x.csStart))))))

/-- Condition 6. -/
def State.wheelFits (s : State) (w : Fin 4) (c : Cert) (rate : Nat) : Bool :=
  let p := (s.wheel w).period.toNat
  whlEnabled (s.whlCfg w) && decide (c.permin ≤ p) && decide (p ≤ c.permax) && c.tickcyc == tickCyc c.permin rate

/-- The first condition of the table of R275 that applies; 0 for none. -/
def State.admitCode (s : State) (d : PDesc) (c : Cert) (sigOk digestOk : Bool) : Nat :=
  if !sigOk then 1
  else if !digestOk then 2
  else if !s.floorplanOk d c.res then 3
  else if (s.part d.pid).isSome || d.recs.any (fun r => r.coreList.any (fun x => (s.partOf x).isSome)) then 4
  else if !s.ctxmixOk d then 5
  else if !s.wheelFits d.wheel c 32 then 6
  else if !planOk d.recs c then 7
  else if !s.sharesOk c.res then 8
  else if !s.meshOk c.res then 9
  else if !s.creditsOk c.res then 10
  else if !s.quotaOk d c.res then 11
  else 0

/-! ### Installation (R276) -/

/-- One share entry for a TYPE 1 or TYPE 2 record, the lowest free one; the credits of a TYPE 3 record. -/
def State.installRes (s : State) (r : ResRec) : State × ResRec :=
  if r.isShare then
    let a := r.arb
    match (s.freeEntries a.1 a.2).head? with
    | some e =>
      let s := s.setReg a.1 a.2 (Reg.MC_SHSRCe e) (BitVec.ofNat 32 (2 ^ 31) ||| (r.agents &&& 0x380FFFFF))
      (s.setReg a.1 a.2 (Reg.MC_SHCFGe e) (BitVec.ofNat 32 (2 ^ (24 + r.cls.val) + r.amount.toNat % 65536)), { r with entry := e })
    | none => (s, r)
  else if r.typ = 3 then
    let i := portInst r.die (Fin.ofNat 7 r.unit)
    (s.setFld .dp i (Reg.DP_CREDc r.cls) 9 0 (s.fld .dp i (Reg.DP_CREDc r.cls) 9 0 + r.amount.toNat % 1024), r)
  else (s, r)

def State.installAll (s : State) (rs : List ResRec) : State × List ResRec :=
  rs.foldl (fun (x : State × List ResRec) r => let y := x.1.installRes r; (y.1, x.2 ++ [y.2])) (s, [])

def State.removeRes (s : State) (r : ResRec) : State :=
  if r.isShare then
    let a := r.arb
    if r.entry = 31 then s
    else (s.setReg a.1 a.2 (Reg.MC_SHSRCe r.entry) 0).setReg a.1 a.2 (Reg.MC_SHCFGe r.entry) 0
  else if r.typ = 3 then
    let i := portInst r.die (Fin.ofNat 7 r.unit)
    s.setFld .dp i (Reg.DP_CREDc r.cls) 9 0 (s.fld .dp i (Reg.DP_CREDc r.cls) 9 0 - r.amount.toNat % 1024)
  else s

/-- A launch entry of a cadence unit for a periodic or accord-only kind (R276, R299). -/
def State.installEntry (s : State) (pid : Fin 32) (k : Kind) (r : PRec) : State :=
  match (List.finRange 64).find? (fun (i : Fin 64) => !bitOf (s.reg .cad r.cl.inst (Reg.CAD_LTABi i)) 31) with
  | none => s
  | some i =>
    let b := r.cl.inst
    let s := s.setReg .cad b (Reg.CAD_LTABi i) (BitVec.ofNat 32 (2 ^ 31 + k.num.val * 2 ^ 24 + r.cores.toNat * 65536 + k.launch.toNat))
    let s := s.setReg .cad b (Reg.CAD_LDLi i) (k.deadline.setWidth 32)
    let s := s.setReg .cad b (Reg.CAD_LENTRYi i) (k.entry.setWidth 32)
    let s := s.setReg .cad b (Reg.CAD_LACCi i) (BitVec.ofNat 32 (k.accLen * 65536 + k.accPhase.toNat))
    { s with sched := { s.sched with ltab := s.sched.ltab.set (r.cl, i) (pid, k.num) } }

/-- What FP4 recorded of the package at a formula address (R476). -/
def State.packageAt (s : State) (a : Nat) (formula : List Byte) : List Byte × Word :=
  match s.sec.wpkgs.find? (fun w => w.dest == a && w.formula == formula) with
  | some w => (w.digest, w.group)
  | none => (List.replicate 32 0, 0)

/-- TC_CTX of a context (R108, R118, R472). -/
def State.ctxWord (s : State) (ctx : BitVec 12) : Word :=
  BitVec.ofNat 32 ((s.gen ctx).toNat * 2 ^ 13 + b2n (s.ctxWorld ctx) * 2 ^ 12 + ctx.toNat)

/-- What device firmware placed from the image goes into the local stores of a partition. -/
def State.installCode (s : State) (p : Part) : State :=
  p.code.foldl (fun (s : State) e => if p.has e.1 ∧ e.2.1 + e.2.2.length ≤ 0xFC000 then
    (s.store (lsBase e.1 + e.2.1) e.2.2).modCore e.1 (fun y => { y with idle := false }) else s) s

/-- An accepted load takes effect (R276): shares and credits, launch tables, paired mode, context loads, lock words (R453). `code` is
what device firmware takes from the image for each local store, `locks` the lock words that it declares (R634); log entry 19. -/
def State.admitPart (s : State) (d : PDesc) (c : Cert) (faddr : Nat) (certDig : List Byte) (code : List (CoreId × Nat × List Byte))
    (locks : List Nat) : State :=
  let (s, res) := s.installAll c.res
  let (wp, grp) := s.packageAt faddr c.formula
  let p : Part := { ctx := d.ctx, wheel := d.wheel, cls := d.cls, paired := d.paired, recs := d.recs, yline := d.yline, argline := d.argline,
                    kinds := c.kinds, res := res, formula := c.formula, cert := certDig, wpkg := wp, group := grp, unloading := false,
                    failed := false, fenced := false, rearm := [], unloadBy := none, code := code }
  let s := s.setPart d.pid p
  let s := { s with sec := { s.sec with owner := d.recs.foldl (fun (m : AMap ClusterId (BitVec 12)) r => if m.get r.cl 0 = 0 then m.set r.cl d.ctx else m) s.sec.owner } }
  let s := (c.kinds.filter (fun k => k.typ != .queued)).foldl (fun s k => (p.kindRecs k).foldl (fun s r => s.installEntry d.pid k r) s) s
  let s := if d.paired then d.recs.foldl (fun s r => (List.finRange 4).foldl (fun (s : State) i =>
    if r.pairs.getLsbD i then s.pairEnable ⟨r.cl, i⟩ true else s) s) s else s
  let s := d.recs.foldl (fun s r => s.loadCores r.cl r.coreList) s
  let s := p.cores.foldl (fun s x => (s.setReg .tc x.inst Reg.TC_CTX (s.ctxWord d.ctx)).modCore x (fun y => { y with jobWheel := d.wheel })) s
  let mine := (locks.filter (fun a => a % 4 == 0 && d.recs.any (fun r => decide (csBase r.cl + r.csStart * 65536 ≤ a) &&
    decide (a + 4 ≤ csBase r.cl + r.csEnd * 65536)))).map (fun a => (a, d.pid))
  { s.installCode p with flt := { s.flt with lockWords := s.flt.lockWords ++ mine } }

/-- A formula image as its digest takes it: all LEN units (R634, R635). -/
def State.readImage (s : State) (world : Bool) (a : Nat) (hdr : List Byte) : State × Option (List Byte) := s.fwRead world a (bWord hdr 8 * 64)

/-- PART_LOAD (R275, R276, R633 to R635, R641): `sigOk` is what the signature gives under the certificate anchors (R477; log entry 92). -/
def execPartLoad (p : Fin 64) (sigOk : Bool) (code : List (CoreId × Nat × List Byte)) (locks : List Nat)
    (s : State) : Out :=
  .next (s.command p 0x10 [1] [(8, 47, 0), (0x10, 47, 0), (0x18, 47, 0)] false (fun e =>
    let w := p.val == 1
    let da := eAddr e 8
    let fa := eAddr e 0x10
    let ca := eAddr e 0x18
    match s.fwRead w da 0x20 with
    | (s, none) => s.complete p stFAULT 0 0 0
    | (s, some hdr) => match descRecs hdr with
      | none => s.complete p stBADARG 0 0 0
      | some n => match s.fwRead w da (0x20 + 8 * n) with
        | (s, none) => s.complete p stFAULT 0 0 0
        | (s, some dbs) => match s.fwRead w ca 0x60 with
          | (s, none) => s.complete p stFAULT 0 0 0
          | (s, some ch) => match s.fwRead w ca (certLen ch) with
            | (s, none) => s.complete p stFAULT 0 0 0
            | (s, some cbs) => match s.fwRead w fa 0x40 with
              | (s, none) => s.complete p stFAULT 0 0 0
              | (s, some fh) => match s.readImage w fa fh with
                | (s, none) => s.complete p stFAULT 0 0 0
                | (s, some img) => match parseDesc dbs, parseCert cbs n with
                  | some d, some c =>
                    if !s.mayUse p d.ctx then s.complete p stDENIED 0 0 0
                    else if d.ctx ≠ 0 ∧ !s.ctxLive d.ctx then s.complete p stNOTFOUND 0 0 0
                    else
                      let code0 := s.admitCode d c sigOk (c.formula == sha256 img && c.placement == sha256 (dbs.drop 0x20) &&
                        formulaOk fh 0x4E5A4631 c.toolver)
                      if code0 ≠ 0 then (s.trace 1 0x0202 [d.pid, d.ctx.toNat, code0]).refuse p code0
                      else
                        let s := s.admitPart d c fa (sha256 cbs) code (locks.take (bBits fh 0x14 8 0))
                        let cores := (d.recs.map (fun r => r.coreList.length)).foldl (· + ·) 0
                        (s.trace 1 0x0201 [d.pid, d.ctx.toNat, cores]).ok p
                  | _, _ => s.complete p stBADARG 0 0 0))

/-! ### Unload (R278) -/

/-- The lasting states of a partition's own sources end (R448). -/
def State.endLasting (s : State) (pid : Fin 32) : State :=
  { s with flt := { s.flt with lasting := s.flt.lasting.filter (fun e => !e.2.contains pid),
                               degraded := s.flt.degraded.filter (fun w => !s.flt.lasting.any (fun e => e.1 == w && e.2.contains pid)) } }

/-- The pairings of a partition end; one with a verdict still to be written ends with it (R413). -/
def State.endPairings (s : State) (pid : Fin 32) : State :=
  { s with chk := { s.chk with pairs := (s.chk.pairs.map (fun (e : Fin 16 × Pairing) =>
      if e.2.part = pid then (e.1, { e.2 with active := false }) else e)).filter (fun e => e.2.active || !e.2.pend.isEmpty) } }

/-- Step 4 of R278: shares, credits, ranges, launch tables, pairings and lock words go; a cluster that the owner's last
partition leaves is zeroed and has no owner (R469). -/
def State.removePart (s : State) (pid : Fin 32) : State :=
  match s.part pid with
  | none => s
  | some p =>
    let s := p.res.foldl (fun s r => s.removeRes r) s
    let mine := s.sched.ltab.filter (fun e => e.2.1 == pid)
    let s := mine.foldl (fun s e => upTo 4 (fun j s => s.setReg .cad e.1.1.inst (Reg.CAD_LTABi e.1.2 + 4 * j) 0) s) s
    let s := { s with sched := { s.sched with ltab := s.sched.ltab.filter (fun e => e.2.1 != pid), parts := s.sched.parts.erase pid,
                                              jobs := s.sched.jobs.filter (fun j => j.part != pid) },
                      flt := { s.flt with lockWords := s.flt.lockWords.filter (fun e => e.2 != pid),
                                          drains := s.flt.drains.erase pid } }
    let s := p.recs.foldl (fun s r =>
      if s.sched.parts.any (fun e => e.2.recs.any (fun x => x.cl == r.cl)) then s
      else { s.zero (csBase r.cl) 0x1000000 with sec := { s.sec with owner := s.sec.owner.erase r.cl } }) s
    ((s.endPairings pid).endLasting pid).trace 1 0x0203 [pid, p.ctx.toNat]

/-- Steps 1 and 2 of R278. -/
def State.beginUnload (s : State) (pid : Fin 32) (by_ : Option (Fin 64)) : State :=
  let s := s.disarmAll pid
  let s := ((s.openJobs pid).filter (fun j => !j.launched)).foldl (fun s j => s.finalize j .aborted) s
  match s.part pid with
  | some x => s.setPart pid { x with unloading := true, unloadBy := by_ }
  | none => s

/-- A partition that commands may name: admitted and not unloading (R278). -/
def State.livePart (s : State) (pid : Fin 32) : Option Part :=
  match s.part pid with
  | some p => if p.unloading then none else some p
  | none => none

/-- PART_UNLOAD (R278): the command completes at UNLOAD_FINISH. -/
def execPartUnload (p : Fin 64) (s : State) : Out :=
  .next (s.command p 0x11 [1] [(8, 4, 0)] false (fun e =>
    let pid : Fin 32 := Fin.ofNat 32 (eBits e 8 4 0)
    match s.part pid with
    | none => s.complete p stNOTFOUND 0 0 0
    | some x =>
      if x.unloadBy = some p then s
      else if !s.mayUse p x.ctx then s.complete p stDENIED 0 0 0
      else if x.unloading then s.complete p stNOTFOUND 0 0 0
      else s.beginUnload pid (some p)))

/-- Every launched job of a partition has its outcome, and its cores have stopped. -/
def State.partQuiet (s : State) (pid : Fin 32) : Bool :=
  s.sched.jobs.all (fun j => j.part != pid || (j.out != .empty && j.running.isEmpty))

/-- UNLOAD_FINISH (R278). -/
def execUnloadFinish (pid : Fin 32) (s : State) : Out :=
  .next (match s.part pid with
    | none => s
    | some x =>
      if !x.unloading || !s.partQuiet pid || !s.fpRuns 1 then s
      else
        let s := s.removePart pid
        match x.unloadBy with
        | some p => s.ok p
        | none => s)

/-- A partition is removed without waiting for launched jobs: they get an outcome and are stopped (R384, R483). -/
def State.forceUnload (s : State) (pid : Fin 32) (out : JOut) : State :=
  let s := s.disarmAll pid
  let s := s.endJobs pid out .aborted
  let js := s.sched.jobs.filter (fun j => j.part == pid)
  let s := js.foldl (fun s j => j.running.foldl (fun s c =>
    ((s.revokeLocks c).revokeChans c).modCore c (fun x => { x with run := false, ended := false, pend := none, more := [], streamQ := [], unitQ := [] })) s) s
  let by_ := ((s.part pid).map (·.unloadBy)).getD none
  let s := s.removePart pid
  match by_ with
  | some p => s.ok p
  | none => s

end Sys2Proof.Machine
end

