-- ==== Sys2Proof/Machine/NetBytes.lean ====
section
/-! DEFINITION. Frames as bytes: Ethernet, IP and PDU headers, CAN records, signal bits (R517, R519, R524, R534 to R536). -/

namespace Sys2Proof.Machine

/-- Big-endian number of `n` bytes at an offset. -/
def beAt (bs : List Byte) (o n : Nat) : Nat := beNat ((bs.drop o).take n)

/-- Bytes replaced from an offset. -/
def putAt (bs : List Byte) (o : Nat) (x : List Byte) : List Byte := bs.take o ++ x ++ bs.drop (o + x.length)

/-! ### Ethernet -/

/-- Destination and source as numbers whose first octet is most significant; PRESUMED. -/
def ethDst (f : List Byte) : Nat := beAt f 0 6
def ethSrc (f : List Byte) : Nat := beAt f 6 6
def ethTagged (f : List Byte) : Bool := beAt f 12 2 == 0x8100
def ethVid (f : List Byte) (pvid : Nat) : Nat := if ethTagged f then beAt f 14 2 % 4096 else pvid
def ethPrio (f : List Byte) : Nat := if ethTagged f then beAt f 14 2 / 8192 else 0
def ethHdr (f : List Byte) : Nat := if ethTagged f then 18 else 14
def ethType (f : List Byte) : Nat := beAt f (ethHdr f - 2) 2

/-- Bytes of the headers before the first PDU (R534): Ethernet, and IPv4 or IPv6 with UDP. DEDUCED, log entry 21. -/
def headerLen (f : List Byte) : Nat :=
  let h := ethHdr f
  if ethType f = 0x0800 then h + (beAt f h 1 % 16) * 4 + 8
  else if ethType f = 0x86DD then h + 48
  else h

/-- A UDP frame, with its destination address and port (R524); fragments but the first have no UDP header. -/
def udpDst (f : List Byte) : Option (Bool × Nat × Nat) :=
  let h := ethHdr f
  if ethType f = 0x0800 then
    if beAt f (h + 9) 1 = 17 ∧ beAt f (h + 6) 2 % 8192 = 0 then some (false, beAt f (h + 16) 4, beAt f (h + (beAt f h 1 % 16) * 4 + 2) 2)
    else none
  else if ethType f = 0x86DD ∧ beAt f (h + 6) 1 = 17 then some (true, beAt f (h + 24) 16, beAt f (h + 42) 2)
  else none

/-- The ones'-complement sum of 16-bit words. -/
def onesSum : List Byte → Nat → Nat
  | a :: b :: t, acc => let x := acc + a.toNat * 256 + b.toNat; onesSum t (x % 65536 + x / 65536)
  | [a], acc => let x := acc + a.toNat * 256; x % 65536 + x / 65536
  | [], acc => acc

/-- Length fields and checksums of a frame built from a template (R534). -/
def fixHeaders (f : List Byte) : List Byte :=
  let h := ethHdr f
  let n := f.length
  if ethType f = 0x0800 then
    let ihl := (beAt f h 1 % 16) * 4
    let f := putAt (putAt f (h + 2) (beBytes 2 (n - h))) (h + 10) [0, 0]
    let f := putAt f (h + 10) (beBytes 2 (65535 - onesSum ((f.drop h).take ihl) 0))
    putAt (putAt f (h + ihl + 4) (beBytes 2 (n - h - ihl))) (h + ihl + 6) [0, 0]
  else if ethType f = 0x86DD then
    let ul := n - h - 40
    let f := putAt f (h + 4) (beBytes 2 ul)
    let f := putAt (putAt f (h + 44) (beBytes 2 ul)) (h + 46) [0, 0]
    let sum := onesSum ((f.drop (h + 8)).take 32 ++ beBytes 4 ul ++ [0, 0, 0, 17] ++ f.drop (h + 40)) 0
    putAt f (h + 46) (beBytes 2 (if sum = 65535 then 65535 else 65535 - sum))
  else f

/-- PDUs in the body of a frame for port 13: ID and length big-endian, then the data. -/
def parsePdus : Nat → List Byte → List (Nat × List Byte)
  | 0, _ => []
  | k + 1, bs =>
    if bs.length < 8 then []
    else
      let n := beAt bs 4 4
      if bs.length < 8 + n then [] else (beAt bs 0 4, (bs.drop 8).take n) :: parsePdus k (bs.drop (8 + n))

/-! ### CAN -/

/-- A valid data length of a frame's format (R514, R519). -/
def canLenOk (xlf fdf : Bool) (n : Nat) : Bool :=
  if xlf then decide (1 ≤ n) && decide (n ≤ 2048)
  else if fdf then decide (n ≤ 8) || [12, 16, 20, 24, 32, 48, 64].contains n
  else decide (n ≤ 8)

/-- The frame of a transmit record; none when it is a bad record. -/
def parseCan (r : List Byte) : Option CanFrame :=
  let w0 : Word := BitVec.ofNat 32 (leNat (r.take 4))
  let w1 : Word := BitVec.ofNat 32 (leNat ((r.drop 4).take 4))
  let n := bitsOf w1 11 0
  if r.length < 16 + n ∨ !canLenOk (bitOf w1 31) (bitOf w1 30) n then none
  else some { id := w0.setWidth 29, ide := bitOf w1 27, rtr := bitOf w1 26, fdf := bitOf w1 30, xlf := bitOf w1 31, brs := bitOf w1 29,
              esi := bitOf w1 28, sdt := BitVec.ofNat 8 (bitsOf w1 23 16), vcid := BitVec.ofNat 8 (leNat ((r.drop 12).take 4) / 2 ^ 24),
              af := BitVec.ofNat 32 (leNat ((r.drop 8).take 4)), data := (r.drop 16).take n }

/-- The record of a received frame, padded to 16 bytes. -/
def canRecord (f : CanFrame) (flt : Nat) : List Byte :=
  let n := f.data.length
  leBytes 4 f.id.toNat ++
    leBytes 4 (b2n f.xlf * 2 ^ 31 + b2n f.fdf * 2 ^ 30 + b2n f.brs * 2 ^ 29 + b2n f.esi * 2 ^ 28 + b2n f.ide * 2 ^ 27 + b2n f.rtr * 2 ^ 26 +
      (if f.xlf then f.sdt.toNat * 2 ^ 16 else 0) + n) ++
    leBytes 4 (if f.xlf then f.af.toNat else 0) ++ leBytes 4 ((if f.xlf then f.vcid.toNat * 2 ^ 24 else 0) + flt) ++
    f.data ++ List.replicate ((16 - n % 16) % 16) 0

/-- Arbitration order of ISO 11898-1: the lower value wins. PRESUMED. -/
def CanFrame.arb (f : CanFrame) : Nat :=
  if f.ide then f.id.toNat / 2 ^ 18 * 2 ^ 21 + 2 ^ 20 + 2 ^ 19 + f.id.toNat % 2 ^ 18 * 2 + b2n f.rtr
  else f.id.toNat % 2 ^ 11 * 2 ^ 21 + b2n f.rtr * 2 ^ 20

/-! ### Signals (R535, R536) -/

/-- The PDU bits of a value, least significant first. -/
def bitsDown : Nat → Nat → List Nat
  | 0, _ => []
  | n + 1, p => p :: bitsDown n (if p % 8 = 0 then p + 15 else p - 1)

def sigBits (ord : Bool) (start len : Nat) : List Nat :=
  if ord then (bitsDown len start).reverse else (List.range len).map (fun j => start + j)

def pduBit (buf : List Byte) (b : Nat) : Bool := (buf.getD (b / 8) 0).getLsbD (b % 8)
def putPduBit (buf : List Byte) (b : Nat) (v : Bool) : List Byte :=
  let x := buf.getD (b / 8) 0
  let m : Byte := BitVec.ofNat 8 (1 <<< (b % 8))
  buf.set (b / 8) (if v then x ||| m else x &&& ~~~m)

/-- The number in some bits, least significant first. -/
def readSig (buf : List Byte) : List Nat → Nat
  | [] => 0
  | b :: t => b2n (pduBit buf b) + 2 * readSig buf t

def writeSig (buf : List Byte) (v : Nat) : List Nat → List Byte
  | [] => buf
  | b :: t => writeSig (putPduBit buf b (v % 2 == 1)) (v / 2) t

/-- Round to nearest, ties to even, of p / 2^16. -/
def rneQ16 (p : Int) : Int :=
  let q := p / 65536
  let r := p - q * 65536
  if 32768 < r ∨ (r = 32768 ∧ q % 2 ≠ 0) then q + 1 else q

/-- Fields of a route. -/
def rSpdu (r : BitVec 128) : Fin 8192 := Fin.ofNat 8192 (bitsOf r 31 19)
def rSbits (r : BitVec 128) : List Nat := sigBits (bitOf r 4) (bitsOf r 18 10) (bitsOf r 9 5 + 1)
def rDpdu (r : BitVec 128) : Fin 8192 := Fin.ofNat 8192 (bitsOf r 63 51)
def rDbits (r : BitVec 128) : List Nat := sigBits (bitOf r 36) (bitsOf r 50 42) (bitsOf r 41 37 + 1)
def rValid (r : BitVec 128) : Bool := bitOf r 32
def rTosub (r : BitVec 128) : Bool := bitOf r 33

/-- The value a route writes, from a source buffer. -/
def routeValue (r : BitVec 128) (src : List Byte) : Nat :=
  let sl := bitsOf r 9 5 + 1
  let dl := bitsOf r 41 37 + 1
  let raw := readSig src (rSbits r)
  let x : Int := if bitOf r 3 then sval sl raw else raw
  let y := rneQ16 (x * sval 32 (bitsOf r 95 64)) + sval 32 (bitsOf r 127 96)
  let y := if bitOf r 34 then
      (if bitOf r 35 then clampI y (-(2 ^ (dl - 1) : Nat)) ((2 ^ (dl - 1) : Nat) - 1) else clampI y 0 ((2 ^ dl : Nat) - 1)) else y
  wrapN dl y

end Sys2Proof.Machine
end

