-- ==== Sys2Proof/Machine/GwOps.lean ====
section
/-! DEFINITION. Shared operations of the gateway: host queues, CAN and LIN buffers, the switch, the signal gateway (R515 to R538). -/

namespace Sys2Proof.Machine

/-- VD_GW is on and clocked. -/
def State.gwUp (s : State) : Bool := s.up 101

def State.can (s : State) (c : Fin 24) : Can := s.gw.can.get c Can.reset
def State.setCan (s : State) (c : Fin 24) (x : Can) : State := { s with gw := { s.gw with can := s.gw.can.set c x } }
def State.lin (s : State) (c : Fin 8) : Lin := s.gw.lin.get c Lin.reset
def State.setLin (s : State) (c : Fin 8) (x : Lin) : State := { s with gw := { s.gw with lin := s.gw.lin.set c x } }
def State.gwq (s : State) (i : Fin 32) : GwQueue := s.gw.queues.get i GwQueue.off
def State.setGwq (s : State) (i : Fin 32) (x : GwQueue) : State := { s with gw := { s.gw with queues := s.gw.queues.set i x } }
def State.pdu (s : State) (n : Fin 8192) : Option Pdu := s.gw.pdus.get? n
def State.setPdu (s : State) (n : Fin 8192) (x : Pdu) : State := { s with gw := { s.gw with pdus := s.gw.pdus.set n x } }

/-! ### Host queues (R529 to R532) -/

def isTxQueue (i : Fin 32) : Bool := i.val / 8 % 2 == 0
def rxQueueOf (port : Nat) (q : Fin 8) : Fin 32 := Fin.ofNat 32 (16 * (port - 10) + 8 + q.val)

/-- The queue engine as a requester (R513). -/
def State.queueSrc (s : State) (i : Fin 32) : Src :=
  let x := s.gwq i
  ⟨6, BitVec.ofNat 10 (64 + i.val / 16), i.val / 16 == 1, x.ctx, s.gen x.ctx, x.cls, false⟩

def GwQueue.descAt (x : GwQueue) (k : Nat) : Nat := x.base + (k % 2 ^ x.n) * 16

/-- Fields of a descriptor (R530). -/
def dBuf (d : List Byte) : Nat := leNat (d.take 6)
def dLen (d : List Byte) : Nat := leNat ((d.drop 6).take 2)
def dCtrl (d : List Byte) : Word := BitVec.ofNat 32 (leNat ((d.drop 8).take 4))

/-- A received frame for a queue: the data are written, and the write-back waits (R532). -/
def State.qDeliver (s : State) (i : Fin 32) (kind : Fin 4) (bs : List Byte) (port : Nat) (stamp : Word) : State :=
  let x := s.gwq i
  let drop (s : State) : State := s.count .gw 0 (Reg.GW_QDROPi i) 1
  if x.st ≠ 1 ∨ x.kind ≠ kind ∨ isTxQueue i then drop s
  else match s.unitRead (s.queueSrc i) (x.descAt (x.next + x.rx.length)) 16 with
    | (s, none) => drop s
    | (s, some d) =>
      if !bitOf (dCtrl d) 31 then drop s
      else
        let r : RxDone := ⟨dCtrl d, bs.length, 0, port, stamp⟩
        if dLen d < bs.length then s.setGwq i { x with rx := x.rx ++ [{ r with len := 0, err := 2 }] }
        else
          let (s, ok) := s.unitWriteOk (s.queueSrc i) (dBuf d) bs
          s.setGwq i { s.gwq i with rx := x.rx ++ [{ r with err := if ok then 0 else 1 }] }

/-- One descriptor is written back in one 16-byte write and the queue goes on; a failed write-back stops it (R531, R532). -/
def State.qWriteBack (s : State) (i : Fin 32) (len : Option Nat) (ctrl err port : Nat) (stamp : Option Word) (irq : Bool) : State :=
  let x := s.gwq i
  let a := x.descAt x.next
  match s.unitRead (s.queueSrc i) a 16 with
  | (s, none) => (s.setGwq i { x with st := 2 }).raise .gw 0 3 0 (2 * 2 ^ 30 + i.val)
  | (s, some d) =>
    let c := ctrl % 2 ^ 31 / 2 ^ 29 % 2 * 2 ^ 29 + b2n stamp.isSome * 2 ^ 30 + (if err = 0 then 0 else 2 ^ 28 + err * 2 ^ 24) + port * 2 ^ 20
    let d := d.take 6 ++ (match len with
      | some n => leBytes 2 n
      | none => (d.drop 6).take 2) ++ leBytes 4 c ++ leBytes 4 (stamp.getD 0).toNat
    match s.unitWriteOk (s.queueSrc i) a d with
    | (s, true) =>
      let s := s.setGwq i { s.gwq i with next := x.next + 1 }
      if irq then s.setFld .gw 0 (Reg.GW_QPENDi i) 0 0 1 else s
    | (s, false) => (s.setGwq i { s.gwq i with st := 2 }).raise .gw 0 3 0 (2 * 2 ^ 30 + i.val)

/-- A copy of a transmitted frame has left or was dropped; the last one ends the descriptor (R531). -/
def State.txCopyEnds (s : State) (i : Fin 32) (dropped : Bool) (stamp : Word) : State :=
  let x := s.gwq i
  match x.fly with
  | none => s
  | some f =>
    let d := f.dropped || dropped
    let st := if dropped then f.stamp else stamp
    if 1 < f.copies then s.setGwq i { x with fly := some { f with copies := f.copies - 1, dropped := d, stamp := st } }
    else s.setGwq i { x with fly := none, done := some (if d then 4 else 0, st, f.ctrl) }

/-! ### CAN and LIN (R517, R521) -/

/-- CAN_STAT: off, bus-off, error passive or error active (R545). -/
def State.canMode (s : State) (c : Fin 24) : Nat := s.fld .can c Reg.CAN_CTRL 3 2
def State.canStatus (s : State) (c : Fin 24) : Nat :=
  let x := s.can c
  if s.canMode c = 0 then 3 else if x.busOff then 2 else if 127 < x.txErr ∨ 127 < x.rxErr then 1 else 0

/-- The signal gateway writes a target's buffer, over one that is still pending (R517). -/
def State.canPutPdu (s : State) (c : Fin 24) (slot : Fin 32) (f : CanFrame) : State :=
  let x := s.can c
  let s := if (x.bufs.get? slot).isSome then s.count .can c Reg.CAN_SGOVW 1 else s
  s.setCan c { x with bufs := x.bufs.set slot ⟨f, none⟩ }

/-- The pending buffer that the controller offers first. -/
def firstBuf : List (Fin 32 × CanBuf) → Option (Fin 32 × CanBuf)
  | [] => none
  | b :: t => match firstBuf t with
    | none => some b
    | some x => if x.2.frame.arb < b.2.frame.arb ∨ (x.2.frame.arb = b.2.frame.arb ∧ x.1 < b.1) then some x else some b

/-- A published response (R521). -/
def State.linPublish (s : State) (c : Fin 8) (id : Fin 64) (enh : Option Bool) (data : List Byte) : State :=
  let x := s.lin c
  let e := match enh with
    | some _ => enh
    | none => (x.resp.get id (none, [])).1
  s.setLin c { x with resp := x.resp.set id (e, data) }

/-! ### The switch (R524 to R526) -/

def State.portEnabled (s : State) (p : Fin 14) : Bool := s.fld .sw 0 (Reg.SW_PCFGp p) 31 31 == 1

/-- The key of an entry, bits [126:64]. -/
def flowKey (e : BitVec 128) : BitVec 63 := e.extractLsb' 64 63
def flowHash0 (k : BitVec 63) : Nat := (crc32c (leBytes 8 k.toNat)).toNat % 65024
def flowHash1 (k : BitVec 63) : Nat := 65024 + (crc32c (leBytes 8 k.toNat ++ leBytes 4 Config.flowSeed.toNat)).toNat % 65024
def stashBase : Nat := 1040384

def State.flowFind (s : State) (k : BitVec 63) : Option (Nat × BitVec 128) := s.gw.flows.find? (fun e => flowKey e.2 == k)

/-- The key that a port looks up for a frame (R524, R525). -/
def State.frameKey (s : State) (f : EthFrame) (vid : Nat) : BitVec 63 :=
  let kt := s.fld .sw 0 (Reg.SW_PCFGp f.ingress) 27 27
  BitVec.ofNat 63 (kt * 2 ^ 62 + vid * 2 ^ 50 + (if kt = 1 then ethSrc f.bytes else ethDst f.bytes) * 4)

def State.egressQ (s : State) (p : Fin 14) (q : Fin 8) : List EthFrame := s.gw.egress.get (p, q) []
def queueBytes (l : List EthFrame) : Nat := (l.map (fun f => f.bytes.length + 4)).foldl (· + ·) 0

/-- Bytes of the packet buffer that queues hold above their guaranteed 64 KiB. -/
def State.sharedBytes (s : State) : Nat := (s.gw.egress.map (fun e => queueBytes e.2 - 65536)).foldl (· + ·) 0

/-- Whether a frame finds room in a queue: 64 KiB of its own, then what is left of 1 MiB. -/
def State.frameRoom (s : State) (p : Fin 14) (q : Fin 8) (f : EthFrame) : Bool :=
  let n := queueBytes (s.egressQ p q)
  let m := n + f.bytes.length + 4
  decide (m ≤ 65536) || decide (s.sharedBytes + (m - 65536) - (n - 65536) ≤ 1048576)

/-- A frame of a port is dropped. -/
def State.swDrop (s : State) (p : Fin 14) : State := s.count .sw 0 (Reg.SW_DROPp p) 1

/-- A frame is queued on its ports; the number of copies. -/
def State.swQueue (s : State) (f : EthFrame) (prio : Nat) (dests : List (Fin 14)) : State × Nat :=
  dests.foldl (fun (r : State × Nat) (p : Fin 14) =>
    let q : Fin 8 := Fin.ofNat 8 (r.1.fld .sw 0 (Reg.SW_PCPMAPp p) (3 * prio + 2) (3 * prio))
    if r.1.frameRoom p q f then
      ({ r.1 with gw := { r.1.gw with egress := r.1.gw.egress.set (p, q) (r.1.egressQ p q ++ [f]) } }, r.2 + 1)
    else (r.1.swDrop f.ingress, r.2)) (s, 0)

/-- Ports of a mask. -/
def maskPorts (m : BitVec 14) : List (Fin 14) := (List.finRange 14).filter (fun p => m.getLsbD p.val)

/-- A UDP frame to one of the device's own addresses and RAPPORT (R350, R524). -/
def State.rapFrame (s : State) (bs : List Byte) : Bool :=
  let b := s.fixed.board
  match udpDst bs with
  | some (v6, a, p) => p == b.rapPort.toNat && a == (if v6 then b.rapV6.toNat else b.rapV4.toNat)
  | none => false

/-- A lookup that hits an entry with an error (R548): a correctable one is corrected; an entry with an uncorrectable one is invalidated,
and the lookup misses. -/
def State.flowLookup (s : State) (k : BitVec 63) (ecc : Option EccErr) : State × Option (Nat × BitVec 128) :=
  match s.flowFind k, ecc with
  | some e, some .single => (s.raise .gw 0 0 0 e.1, some e)
  | some e, some .double => (({ s with gw := { s.gw with flows := s.gw.flows.erase e.1 } }).raise .gw 0 1 0 e.1, none)
  | h, _ => (s, h)

/-- A frame in the switch (R524): `pass` says whether the meter, gate and stream of a hit let it through, `ecc` the error of the entry it hits. -/
def State.swForward (s : State) (f : EthFrame) (pass : Bool) (ecc : Option EccErr) : State × Nat :=
  let vid := ethVid f.bytes (s.fld .sw 0 (Reg.SW_PCFGp f.ingress) 11 0)
  match s.gw.vlans.get? (BitVec.ofNat 12 vid) with
  | none => (s.swDrop f.ingress, 0)
  | some members =>
    let prio := ethPrio f.bytes
    if (s.fld .sw 0 (Reg.SW_PCFGp f.ingress) 26 26 = 1 ∧ ethType f.bytes = 0x88F7) ∨ s.rapFrame f.bytes then s.swQueue f prio [12]
    else
      let (s, hit) := s.flowLookup (s.frameKey f vid) ecc
      let ok : Bool := match hit with
        | some e => pass || (bitsOf e.2 45 30 == 0xFFFF && bitsOf e.2 29 19 == 0x7FF && bitsOf e.2 18 8 == 0x7FF)
        | none => true
      if !ok then (s.swDrop f.ingress, 0)
      else
        let mask : BitVec 14 := match hit with
          | some e => e.2.extractLsb' 50 14
          | none => members
        let prio := match hit with
          | some e => if bitOf e.2 49 then bitsOf e.2 48 46 else prio
          | none => prio
        s.swQueue f prio ((maskPorts (mask &&& members)).filter (fun p => p != f.ingress && s.portEnabled p))

/-! ### The signal gateway (R534 to R538) -/

/-- A target PDU is sent: a CAN buffer, a LIN response, or an Ethernet frame from its template. -/
def State.pduSend (s : State) (n : Fin 8192) : State :=
  match s.pdu n with
  | none => s
  | some p =>
    let data := p.buf.take p.len
    if p.bus = 0 then
      s.canPutPdu (Fin.ofNat 24 p.ctrl) (Fin.ofNat 32 p.slot)
        { id := p.id, ide := p.ide, rtr := false, fdf := p.fdf, xlf := false, brs := p.brs, esi := false, sdt := 0, vcid := 0, af := 0, data := data }
    else if p.bus = 1 then s.linPublish (Fin.ofNat 8 p.ctrl) (Fin.ofNat 64 p.id.toNat) none data
    else match s.gw.templates.get? p.tmpl with
      | none => s
      | some t =>
        let f := fixHeaders (t ++ beBytes 4 p.id.toNat ++ beBytes 4 p.len ++ data)
        (s.swForward ⟨f ++ List.replicate (60 - f.length) 0, 13, s.now32, none⟩ true none).1

/-- Routes of a source, in index order. -/
def insertRoute (e : Fin 65536 × BitVec 128) : List (Fin 65536 × BitVec 128) → List (Fin 65536 × BitVec 128)
  | [] => [e]
  | x :: t => if e.1 < x.1 then e :: x :: t else x :: insertRoute e t

def State.routesOf (s : State) (n : Fin 8192) : List (BitVec 128) :=
  ((s.gw.routes.filter (fun e => rValid e.2 && rSpdu e.2 == n)).foldr insertRoute []).map (·.2)

/-- One route writes a value into its destination. -/
def State.routeWrite (s : State) (r : BitVec 128) (v : Nat) : State :=
  match s.pdu (rDpdu r) with
  | none => s
  | some d => s.setPdu (rDpdu r) { d with buf := writeSig d.buf v (rDbits r) }

/-- A group has run: TXMODE 0 targets are sent once, TXMODE 2 targets when their buffer has changed (R534, R537). -/
def State.groupSend (s : State) (before : State) (rs : List (BitVec 128)) : State :=
  ((rs.map rDpdu).eraseDups).foldl (fun (s : State) n =>
    match s.pdu n, before.pdu n with
    | some d, some o => if d.txmode = 0 ∨ (d.txmode = 2 ∧ d.buf ≠ o.buf) then s.pduSend n else s
    | _, _ => s) s

/-- The route group of a source (R537): `f` gives the value of each route. -/
def State.runGroup (s : State) (rs : List (BitVec 128)) (f : State → BitVec 128 → Nat) : State :=
  (rs.foldl (fun (t : State) r => t.routeWrite r (f t r)) s).groupSend s rs

/-- A source PDU is received. -/
def State.pduReceive (s : State) (n : Fin 8192) (data : List Byte) : State :=
  match s.pdu n with
  | none => s
  | some p =>
    let d := data.take p.len
    let s := s.setPdu n { p with buf := d ++ p.buf.drop d.length, lastRx := s.now, timedOut := false }
    s.runGroup (s.routesOf n) (fun t r => routeValue r (((t.pdu n).map (·.buf)).getD []))

/-- Source PDUs that satisfy a test, in index order. -/
def insertFin {n : Nat} (e : Fin n) : List (Fin n) → List (Fin n)
  | [] => [e]
  | x :: t => if e < x then e :: x :: t else x :: insertFin e t

def State.sources (s : State) (f : Pdu → Bool) : List (Fin 8192) :=
  ((s.gw.pdus.filter (fun e => !e.2.target && f e.2)).map (·.1)).foldr insertFin []

def State.pdusReceive (s : State) (f : Pdu → Bool) (data : List Byte) : State :=
  (s.sources f).foldl (fun (s : State) n => s.pduReceive n data) s

/-- An Ethernet frame reaches port 13. -/
def State.framePdus (s : State) (bs : List Byte) : State :=
  (parsePdus bs.length (bs.drop (headerLen bs))).foldl (fun (s : State) e =>
    s.pdusReceive (fun p => p.bus == 2 && p.id.toNat == e.1) e.2) s

/-- Base of a stamp code: T0 to T3, or LT for 4 (R248). -/
def State.timeBase (s : State) (code : Nat) : Nat := if code < 4 then (s.dom (Fin.ofNat 4 code)).time.toNat else s.now

end Sys2Proof.Machine
end

