-- ==== Sys2Proof/Machine/Camera.lean ====
section
/-! DEFINITION. Camera streams: packets, frame records, due checks, configuration (R550, R554 to R561, R583, R585). -/

namespace Sys2Proof.Machine

/-! ### Streams -/

/-- Stream index `4 * receiver + i`, and its parts. -/
def sidRecv (sid : Fin 64) : Fin 16 := Fin.ofNat 16 (sid.val / 4)
def sidIdx (sid : Fin 64) : Nat := sid.val % 4
def camDomain (r : Fin 16) : Nat := if r.val < 8 then 106 else 107

def State.stream (s : State) (sid : Fin 64) : Option Stream := s.media.streams.get? sid
def State.setStream (s : State) (sid : Fin 64) (x : Stream) : State :=
  { s with media := { s.media with streams := s.media.streams.set sid x } }

/-- The streams of a receiver on a virtual channel. -/
def State.streamsOf (s : State) (r : Fin 16) (vc : Fin 16) : List (Fin 64) :=
  (s.media.streams.filter (fun e => sidRecv e.1 == r && e.2.vc == vc)).map (·.1)

/-- The stream engine as a requester (R550). -/
def State.streamSrc (s : State) (sid : Fin 64) (x : Stream) : Src :=
  ⟨7, BitVec.ofNat 10 (sidRecv sid).val, s.ctxWorld x.ctx, x.ctx, s.gen x.ctx, x.cls, false⟩

/-- A CAM_ error with its stream (R585). -/
def State.camRaise (s : State) (sid : Fin 64) (bit : Nat) : State := s.raise .cam (sidRecv sid) bit 0 (sidIdx sid)

/-- The slot of a frame, and its record (R557). -/
def Stream.slot (x : Stream) (f : Word) : Nat := f.toNat % x.slots
def Stream.recordAt (x : Stream) (f : Word) : Nat := x.record + x.slot f * 32

/-- Bytes of a line in each plane: unpacked raw, YUV420 with a half-height second plane, RGB INT8, RGB FP16 (R556). -/
def Stream.lineBytes (x : Stream) (line : Nat) : List Nat :=
  match x.fmt with
  | 0 => [2 * x.width]
  | 1 => if line % 2 = 0 then [x.width, x.width] else [x.width]
  | 2 => [x.width, x.width, x.width]
  | _ => [2 * x.width, 2 * x.width, 2 * x.width]

def Stream.lineAt (x : Stream) (f : Word) (plane line : Nat) : Nat :=
  x.planes.getD plane 0 + x.slot f * x.slotstr * 4096 + (if x.fmt = 1 ∧ plane = 1 then line / 2 else line) * x.stride

/-! ### Packets (R555, R557, R558, R560) -/

/-- The frame being received ends: short frames are truncated; its final record waits for its posted writes (R557, R558). -/
def State.endFrame (s : State) (sid : Fin 64) (eof : Option Nat) : State :=
  match s.stream sid with
  | none => s
  | some x => match x.cur with
    | none => s
    | some f =>
      let short := decide (f.lines < x.height)
      let s := if short then s.camRaise sid 2 else s
      s.setStream sid { x with cur := none, ended := x.ended ++ [{ f with eof := eof, trunc := short }] }

/-- A frame begins: its record becomes PENDING before any line is written; while the wheel is stopped or armed it is not
written and counts as a drop (R557, R560). A camera event that ends the wheel's frame has its tick 0 next, so the new frame is
the current one (log entry 28). -/
def State.beginFrame (s : State) (sid : Fin 64) : State :=
  match s.stream sid with
  | none => s
  | some x =>
    let w := s.wheel x.wheel
    if !w.going then s.count .cam (sidRecv sid) (Reg.CAM_SDROPs (sidIdx sid)) 1
    else
      let f := if w.startDue then w.frame + 1 else w.frame
      let (s, ok) := s.unitWriteOk (s.streamSrc sid x) (x.recordAt f) (leBytes 4 f.toNat ++ leBytes 4 0)
      s.setStream sid { x with tune := x.tuneNext,
                               cur := some ⟨f, 0, 0, s.now, none, !ok, false, false⟩ }

/-- One line is written into the planes of its slot; the first failure of a posted write makes the frame FAILED. -/
def State.writeLine (s : State) (sid : Fin 64) (x : Stream) (f : FrameRx) (payload : List Byte) : State × Bool :=
  ((x.lineBytes f.lines).zipIdx).foldl (fun (r : State × Bool) (e : Nat × Nat) =>
    let bs := (List.range e.1).map (Config.camLine x.isp x.fmt e.2 x.dt x.tune payload)
    let (s, ok) := r.1.unitWriteOk (r.1.streamSrc sid x) (x.lineAt f.frame e.2 f.lines) bs
    (s, r.2 && ok)) (s, true)

/-- A line of a stream's data type arrives (R558, R588). -/
def State.camLine (s : State) (sid : Fin 64) (dt : BitVec 6) (payload : List Byte) (crcOk room ispEcc : Bool) : State :=
  match s.stream sid with
  | none => s
  | some x => match x.cur with
    | none => s
    | some f =>
      if x.dt ≠ dt ∨ x.height ≤ f.lines then s
      else if !room then s.camRaise sid 3
      else
        let s := if crcOk then s else (s.count .cam (sidRecv sid) (Reg.CAM_SCRCs (sidIdx sid)) 1).camRaise sid 1
        let s := if ispEcc && x.isp then s.raise .isp 0 0 0 0 else s
        let (s, ok) := s.writeLine sid x f payload
        s.setStream sid { x with cur := some { f with lines := f.lines + 1, crc := f.crc + b2n !crcOk, failed := f.failed || !ok } }

/-- A Frame Start: the receiver's frame-start event when EVEN selects the channel (R253, R245, R555), then each stream. -/
def State.frameStart (s : State) (r : Fin 16) (vc : Fin 16) : State :=
  let v := s.reg .cam r Reg.CAM_CFG
  let s := if bitOf v 7 && bitsOf v 6 3 == vc.val then (s.cameraEvent r).internalEvent r else s
  (s.streamsOf r vc).foldl (fun (s : State) sid => (s.endFrame sid none).beginFrame sid) s

/-- CSI_PACKET_RECEIVE (R554, R555, R557, R558, R560). -/
def execCsiPacketReceive (r : Fin 16) (hdr : CsiHeader) (vc : Fin 16) (k : CsiKind) (s : State) : Out :=
  .next (if !s.up (camDomain r) then s
    else match hdr with
      | .bad => s
      | _ =>
        let s := if hdr = .corrected then s.raise .cam r 0 0 ((((s.streamsOf r vc).head?).map sidIdx).getD 0) else s
        match k with
        | .lineSync => s
        | .frameStart => s.frameStart r vc
        | .frameEnd => (s.streamsOf r vc).foldl (fun (s : State) sid => s.endFrame sid (some s.now)) s
        | .line dt payload crcOk room ispEcc =>
          (s.streamsOf r vc).foldl (fun (s : State) sid => s.camLine sid dt payload crcOk room ispEcc) s)

/-- The final record of a frame (R557, R559). A frame ended by the next Frame Start has no Frame End: its EOF is left open. -/
def frameRecord (f : FrameRx) (eof : Word) (ph : BitVec 17) : List Byte :=
  let st := if f.failed then 3 else if f.trunc then 2 else 1
  leBytes 4 f.frame.toNat ++ leBytes 4 (st * 2 ^ 28 + b2n f.late * 2 ^ 27 + b2n (f.crc != 0) * 2 ^ 26 + f.lines) ++
    leBytes 4 f.sof ++ leBytes 4 eof.toNat ++ leBytes 4 ph.toNat ++ leBytes 4 f.crc ++ leBytes 8 0

/-- FRAME_RECORD_FINAL (R557). -/
def execFrameRecordFinal (sid : Fin 64) (s : State) : Out :=
  .next (match s.stream sid with
    | none => s
    | some x => match x.ended with
      | [] => s
      | f :: t =>
        let (eof, s) := match f.eof with
          | some e => (BitVec.ofNat 32 e, s)
          | none => s.freeWord
        let s := s.unitWrite (s.streamSrc sid x) (x.recordAt f.frame) (frameRecord f eof ((s.wheel x.wheel).encode f.frame))
        (s.setStream sid { x with ended := t }).setReg .cam (sidRecv sid) (Reg.CAM_SFRAMEs (sidIdx sid)) f.frame)

/-- The DUE phase of a frame has begun (R559, R263). -/
def State.dueBegun (s : State) (x : Stream) (f : FrameRx) : Bool :=
  let d := x.due.toNat
  (s.wheel x.wheel).passed (if d < 0x10000 then f.frame else f.frame + 1) (d % 0x10000)

/-- STREAM_DUE_CHECK (R559). -/
def execStreamDueCheck (sid : Fin 64) (s : State) : Out :=
  .next (match s.stream sid with
    | none => s
    | some x =>
      let due (f : FrameRx) : Bool := !f.late && s.dueBegun x f
      let mark (f : FrameRx) : FrameRx := if due f then { f with late := true } else f
      if (x.cur.toList ++ x.ended).any due then
        (s.camRaise sid 4).setStream sid { x with cur := x.cur.map mark, ended := x.ended.map mark }
      else s)

/-- CSI_PHY_SYNC (R585). -/
def execCsiPhySync (r : Fin 16) (sync : Bool) (s : State) : Out :=
  .next (if s.up (camDomain r) then s.setFld .cam r Reg.CAM_STAT 0 0 (b2n sync) else s)

/-! ### Commands (R556, R561, R583) -/

/-- Data types that a receiver supports (R554). -/
def csiTypes : List Nat := [0x1E, 0x24, 0x2A, 0x2B, 0x2C, 0x2D, 0x2E, 0x2F, 0x30, 0x31, 0x32, 0x33, 0x34, 0x35, 0x36, 0x37]

/-- The stream of a descriptor (R556), with its stream index; none when the descriptor is malformed. -/
def parseStream (sid : Fin 64) (bs : List Byte) : Option Stream :=
  let w (o : Nat) : Word := BitVec.ofNat 32 (leNat ((bs.drop o).take 4))
  let q (o : Nat) : Nat := leNat ((bs.drop o).take 8)
  let id := w 4
  let pr := w 0xC
  let height := bitsOf (w 8) 31 16
  let width := bitsOf (w 8) 15 0
  let cls := bitsOf pr 30 28
  let fmt := bitsOf pr 26 24
  let slots := bitsOf pr 23 16
  let stride := (w 0x28).toNat
  let due := bitsOf (w 0x38) 16 0
  let np := if fmt = 0 then 1 else if fmt = 1 then 2 else 3
  let planes := [q 0x10, q 0x18, q 0x20].take np
  if w 0 = 0x43535431 ∧ bitsOf id 29 26 = sid.val / 4 ∧ csiTypes.contains (bitsOf id 21 16) ∧ bitsOf id 31 30 = 0 ∧ bitsOf id 13 12 = 0 ∧
      1 ≤ height ∧ height ≤ 8192 ∧ 16 ≤ width ∧ width ≤ 8192 ∧ 1 ≤ cls ∧ cls ≤ 6 ∧ fmt ≤ 3 ∧ !bitOf pr 27 ∧ (fmt = 0 ∨ bitOf pr 31) ∧
      2 ≤ slots ∧ slots ≤ 16 ∧ stride % 64 = 0 ∧ planes.all (fun a => addrOk a 64) ∧ addrOk (q 0x30) 32 ∧ due ≤ 0x14000 ∧
      bitsOf (w 0x38) 31 17 = 0 ∧ w 0x3C = 0 ∧ bitsOf pr 15 0 ≠ 0 then
    some { vc := Fin.ofNat 16 (bitsOf id 25 22), dt := BitVec.ofNat 6 (bitsOf id 21 16), wheel := Fin.ofNat 4 (bitsOf id 15 14),
           ctx := BitVec.ofNat 12 (bitsOf id 11 0), height := height, width := width, isp := bitOf pr 31, cls := Fin.ofNat 8 cls,
           fmt := fmt, slots := slots, linetime := bitsOf pr 15 0, planes := planes, stride := stride, slotstr := (w 0x2C).toNat,
           record := q 0x30, due := BitVec.ofNat 17 due, tune := 0, tuneNext := 0, cur := none, ended := [] }
  else none

/-- The pixel rates of ISP streams fit: the sum of width ÷ LINETIME is at most 4 pixels per ns (R561). The sum is taken over the
product of the denominators. -/
def rateSum : List (Nat × Nat) → Nat × Nat
  | [] => (0, 1)
  | (w, l) :: t => let (n, d) := rateSum t; (w * d + n * l, l * d)

def ispFits (xs : List Stream) : Bool :=
  let (n, d) := rateSum ((xs.filter (·.isp)).map (fun x => (x.width, x.linetime)))
  decide (n ≤ 4 * d)

/-- CAM_STREAM (R556, R561, R583). -/
def execCamStream (p : Fin 64) (s : State) : Out :=
  .next (s.command p 0x68 [] [(8, 5, 0), (8, 8, 8), (0xC, 7, 0), (0x10, 47, 0)] true (fun e =>
    let sid : Fin 64 := Fin.ofNat 64 (eBits e 8 5 0)
    if eBits e 8 8 8 = 0 then
      ({ s with media := { s.media with streams := s.media.streams.erase sid } }).ok p
    else match s.fwRead (p.val == 1) (eAddr e 0x10) 64 with
      | (s, none) => s.complete p stFAULT 0 0 0
      | (s, some bs) => match parseStream sid bs with
        | none => s.refuse p 1
        | some x =>
          let lanes := eBits e 0xC 2 0
          if lanes ≠ 1 ∧ lanes ≠ 2 ∧ lanes ≠ 4 then s.refuse p 1
          else if (s.stream sid).isSome ∨ s.media.streams.any (fun o => sidRecv o.1 == sidRecv sid && o.2.vc == x.vc && o.2.dt == x.dt) then s.refuse p 3
          else if x.ctx ≠ 0 ∧ !s.ctxLive x.ctx then s.complete p stNOTFOUND 0 0 0
          else if !ispFits (x :: s.media.streams.map (·.2)) then s.refuse p 2
          else ((s.setReg .cam (sidRecv sid) Reg.CAM_CFG (eWord e 0xC)).setStream sid x).ok p))

/-- ISP_TUNE (R583, R588): the parameter block is the camera tuning tool's; whether it is good is the operand, and a good one is known
by a number of its own, from the next frame. -/
def execIspTune (p : Fin 64) (good : Bool) (s : State) : Out :=
  .next (s.command p 0x69 [] [(8, 5, 0), (0x10, 47, 0)] true (fun e =>
    let sid : Fin 64 := Fin.ofNat 64 (eBits e 8 5 0)
    match s.stream sid with
    | none => s.complete p stNOTFOUND 0 0 0
    | some x =>
      if !good || !x.isp then (s.raise .isp 0 1 0 0).refuse p 1
      else ({ s.setStream sid { x with tuneNext := s.freeCtr + 1 } with freeCtr := s.freeCtr + 1 }).ok p))

end Sys2Proof.Machine
end

