-- ==== Sys2Proof/Machine/Cpu.lean ====
section
/-! DEFINITION. Application CPU pairs: custom CSRs, parking, watchdogs, lockstep, JTAG (R419, R421, R496 to R511, R618). -/

namespace Sys2Proof.Machine

def State.cpuPair (s : State) (p : Fin 8) : CpuPair := s.cpu.pairs.get p CpuPair.off
def State.setCpuPair (s : State) (p : Fin 8) (x : CpuPair) : State := { s with cpu := { s.cpu with pairs := s.cpu.pairs.set p x } }

def cpuDomain (p : Fin 8) : Nat := 92 + p.val
def State.lockPair (s : State) (p : Fin 8) : Bool := s.fixed.cpuLock.getLsbD p.val
def State.trustedPair (s : State) (p : Fin 8) : Bool := s.fixed.cpuTrusted.getLsbD p.val
def hartPair (h : Fin 16) : Fin 8 := Fin.ofNat 8 (h.val / 2)

/-- The CPU is a hart: every CPU of a split pair, the main of a lock pair (R498). -/
def State.isHart (s : State) (h : Fin 16) : Bool := !s.lockPair (hartPair h) || h.val % 2 == 0

/-- A hart issues instructions (R499): its pair runs, or is stopping while the hart has not parked. -/
def State.hartRuns (s : State) (h : Fin 16) : Bool :=
  let x := s.cpuPair (hartPair h)
  s.isHart h && !x.debug && (x.st == .running || (x.st == .stopping && !x.parked.getLsbD (h.val % 2)))

/-- Entry address of a pair (R511): as written under expert control, else the manifest's. -/
def State.cpuEntryOf (s : State) (p : Fin 8) : Nat :=
  let m := s.fixed.cpuEntry.get p 0
  let lo := ((s.regs.get? ⟨.cpu, 0, Reg.CPU_ENTRYLp p⟩).map (fun (v : Word) => v.toNat)).getD (m % 2 ^ 32)
  let hi := ((s.regs.get? ⟨.cpu, 0, Reg.CPU_ENTRYHp p⟩).map (fun (v : Word) => v.toNat)).getD (m / 2 ^ 32)
  hi * 2 ^ 32 + lo

/-- Release (R499): the harts of a pair are reset, their private caches are zeroed, and they start at the entry address. -/
def State.releasePair (s : State) (p : Fin 8) : State :=
  let e := s.cpuEntryOf p
  let s := (s.emptyPair p).setCpuPair p ⟨.running, 0, s.now, s.now, false, false⟩
  let s := s.setHart ⟨2 * p.val, by omega⟩ (Hart.reset s.normalWays e)
  s.setHart ⟨2 * p.val + 1, by omega⟩ (Hart.reset s.normalWays e)

/-- A fault of scope CPU pair halts the pair (R449, R499). -/
def State.haltPair (s : State) (p : Fin 8) : State :=
  let x := s.cpuPair p
  if x.st = .off then s else s.setCpuPair p { x with st := .halted, debug := false }

/-- Every hart parks and the pair is stopping (R499). -/
def State.stopPair (s : State) (p : Fin 8) : State := s.setCpuPair p { s.cpuPair p with st := .stopping, parked := 3, debug := false }

/-! ### Custom CSRs (R497) -/

/-- A class field of HXATTR: 4 to 7 reads 2. -/
def warlClass (v : Nat) : Nat := if v < 4 then v else 2

/-- HXATTR_WRITE (R497). -/
def execHxattrWrite (h : Fin 16) (v : BitVec 64) (s : State) : Out :=
  .next (if s.hartRuns h then
    s.setHart h { s.hart h with attr := BitVec.ofNat 8 (warlClass (bitsOf v 6 4) * 16 + warlClass (bitsOf v 2 0)) } else s)

/-- HXWAY_WRITE (R497, R504). -/
def execHxwayWrite (h : Fin 16) (v : BitVec 64) (s : State) : Out :=
  .next (if s.hartRuns h then s.setHart h { s.hart h with way := v.setWidth 16 &&& s.normalWays } else s)

/-- MXPARK (R499): the hart stops issuing and its pair is stopping. -/
def execMxpark (h : Fin 16) (s : State) : Out :=
  let p := hartPair h
  let x := s.cpuPair p
  .next (if s.hartRuns h then
    s.setCpuPair p { x with st := .stopping, parked := if s.lockPair p then 3 else x.parked ||| BitVec.ofNat 2 (1 <<< (h.val % 2)) }
  else s)

/-- MXWDKICK (R501): the main of a trusted pair. -/
def execMxwdkick (h : Fin 16) (s : State) : Out :=
  let p := hartPair h
  .next (if s.hartRuns h && h.val % 2 == 0 then s.setCpuPair p { s.cpuPair p with lastKick := s.now } else s)

/-- Agent ID of a hart (R498). -/
def hartAgent (h : Fin 16) : BitVec 10 := BitVec.ofNat 10 (16 + h.val)

/-- A hart's requests without an outcome (R509). -/
def State.hartTx (s : State) (h : Fin 16) (isRead : Bool) : Nat :=
  (s.fab.tx.filter (fun t => t.isRead == isRead && t.src.die == 6 && !t.src.fw && t.src.agent == hartAgent h)).length

/-- CPU_PWB (R509): while posted writes have no outcome the read waits. -/
def execCpuPwb (h : Fin 16) (s : State) : Out :=
  .next (if s.hartRuns h && s.hartTx h false == 0 then
    s.setHart h { s.hart h with pwb := (s.hart h).fails, fails := 0 } else s)

/-! ### Watchdog of trusted pairs (R501) -/

/-- CPU_WATCHDOG_EXPIRE (R501): TWDOG, and the pair is halted while its image is reloaded. -/
def execCpuWatchdogExpire (p : Fin 8) (s : State) : Out :=
  let x := s.cpuPair p
  let period := s.fixed.cpuWd.get p 0
  .next (if s.trustedPair p && period != 0 && (x.st == .running) && decide (x.lastKick + period * 1000000 ≤ s.now) then
    (s.raise .cpu 0 4 (p.val * 2 ^ 48) 0).setCpuPair p { x with st := .halted, reloading := true, debug := false } else s)

/-- TRUSTED_PAIR_RELEASE (R501): the image is what boot flash holds; it is reloaded into the carve-out and measured. -/
def execTrustedPairRelease (p : Fin 8) (image : List Byte) (s : State) : Out :=
  let x := s.cpuPair p
  let m := s.fixed.cpuImage.get p (0, [])
  .next (if (x.st == .halted) && x.reloading then
    let s := s.store m.1 image
    (if sha256 image = m.2 then (s.releasePair p).setFld .cpu 0 (Reg.CPU_RESTARTp p) 15 0 (s.fld .cpu 0 (Reg.CPU_RESTARTp p) 15 0 + 1)
     else (s.raise .cpu 0 5 (p.val * 2 ^ 48) 0).setCpuPair p { x with reloading := false }) else s)

/-! ### Stop and start (R499, R500, R511) -/

/-- A write of CPU_PAIRCMDp takes effect only from the world that owns VD_CPUp, under expert control (R511). -/
def State.pairCmd (s : State) (src : Src) (p : Fin 8) (f : State → State) : State :=
  s.regCommand src .cpu 0 (Reg.CPU_PAIRCMDp p) (vehRegs 0x1900000) (fun s =>
    if src.world ≠ s.trustedOwns (cpuDomain p) then s.ignoredWrite .cpu 0 else s.guarded src .cpu 0 true f)

/-- CPU_PAIR_STOP (R499, R500). -/
def execCpuPairStop (src : Src) (p : Fin 8) (v : Word) (s : State) : Out :=
  .next (s.pairCmd src p (fun s => if bitOf v 1 && !bitOf v 0 && (s.cpuPair p).st == .running then s.stopPair p else s))

/-- CPU_PAIR_START (R499, R500). -/
def execCpuPairStart (src : Src) (p : Fin 8) (v : Word) (s : State) : Out :=
  .next (s.pairCmd src p (fun s => if bitOf v 0 && !bitOf v 1 && (s.cpuPair p).st == .stopped then s.releasePair p else s))

/-- The time CSR of a hart and mtime (R496): LT in ns, sampled once at the pair's boundary, so that a checker has its main's value. -/
def State.timeCsr (s : State) (_ : Fin 16) : BitVec 64 := s.time.lt
def State.mtime (s : State) : BitVec 64 := s.time.lt

/-- CPU_PAIR_STOPPED (R499): every hart has parked, its accesses have their outcomes, and its dirty lines are written back. -/
def execCpuPairStopped (p : Fin 8) (s : State) : Out :=
  let x := s.cpuPair p
  let quiet (h : Fin 16) : Bool := s.hartTx h true == 0 && s.hartTx h false == 0
  .next (if (x.st == .stopping) && x.parked == 3 && quiet ⟨2 * p.val, by omega⟩ && quiet ⟨2 * p.val + 1, by omega⟩ then
    (s.flushPair p).setCpuPair p { x with st := .stopped } else s)

/-! ### Lockstep and debug -/

/-- CPU_LOCKSTEP_MISMATCH (R418, R419, R500): LKS_MISCYC counts cycles of 2.4 GHz since lock; LT moves in steps of 2 ns, so the cycle inside
that step is a free value (log entry 11). -/
def execCpuLockstepMismatch (p : Fin 8) (kind : Fin 8) (a : Addr) (s : State) : Out :=
  let x := s.cpuPair p
  .next (if s.lockPair p && (x.st == .running || x.st == .stopping) then
    let (v, s) := s.freeWord
    let s := (s.setReg .lks p Reg.LKS_MISCYC (BitVec.ofNat 32 ((s.now - x.releasedLt) * 12 / 5 + v.toNat % 5))).setReg .lks p Reg.LKS_MISKIND (BitVec.ofNat 32 kind.val)
    ((s.setReg2 .lks p Reg.LKS_MISADDRL Reg.LKS_MISADDRH a.toNat).raise .lks p 2 0 0).haltPair p
  else s)

/-- A request on the JTAG pins (R618): boundary scan, or the debug transport to a pair, to enter or to leave debug mode. -/
def execJtagAccess (scan : Option (List Bool)) (p : Fin 8) (enter : Bool) (s : State) : Out :=
  .next (match scan with
    | some cells => if s.pkg = pkRESET then { s with cpu := { s.cpu with scan := cells } } else s
    | none =>
      let x := s.cpuPair p
      if s.pkg ≠ pkRESET ∧ !s.trustedPair p ∧ x.st = .running then s.setCpuPair p { x with debug := enter } else s)

end Sys2Proof.Machine
end

