-- ==== Sys2Proof/Machine/Pass.lean ====
section
/-! DEFINITION. What a render pass does to memory: tile memory and ordered regions, flag arrays, textures (R565 to R575). -/

namespace Sys2Proof.Machine

def State.gfx (s : State) (q : Fin 16) : GfxQueue := s.media.gfx.get q GfxQueue.off
def State.setGfx (s : State) (q : Fin 16) (x : GfxQueue) : State := { s with media := { s.media with gfx := s.media.gfx.set q x } }

/-- An agent of a pass as a requester (R550): 32 to 55 the shader cores, 56 the front end and binner, 57 the tile writer. -/
def State.gfxSrc (s : State) (q : Fin 16) (agent : BitVec 10) : Src :=
  let x := s.gfx q
  ⟨7, agent, s.ctxWorld x.ctx, x.ctx, s.gen x.ctx, x.cls, false⟩

def shaderAgent (core : Option (Fin 24)) : BitVec 10 := match core with
  | some k => BitVec.ofNat 10 (32 + k.val)
  | none => 56

/-! ### The pass descriptor (R565) -/

def passMagic : Word := 0x52505331

/-- The ranges of a pass descriptor. -/
def PassDesc.ok (d : PassDesc) : Bool :=
  d.magic == passMagic && decide (1 ≤ d.width) && decide (d.width ≤ 16384) && decide (1 ≤ d.height) && decide (d.height ≤ 16384) &&
    (d.samples == 1 || d.samples == 2 || d.samples == 4) && decide (d.atts.length ≤ 5)

def PassDesc.columns (d : PassDesc) : Nat := (d.width + 31) / 32
def PassDesc.tiles (d : PassDesc) : Nat := d.columns * ((d.height + 31) / 32)

/-- The first pixel of a tile, and how many of its columns and rows lie on the surface. -/
def PassDesc.tileX (d : PassDesc) (t : Nat) : Nat := 32 * (t % d.columns)
def PassDesc.tileY (d : PassDesc) (t : Nat) : Nat := 32 * (t / d.columns)
def PassDesc.tileW (d : PassDesc) (t : Nat) : Nat := min 32 (d.width - d.tileX t)
def PassDesc.tileH (d : PassDesc) (t : Nat) : Nat := min 32 (d.height - d.tileY t)

/-- Bytes of a tile of an attachment at full sample count. -/
def PassDesc.tileBytes (d : PassDesc) (a : Attach) : Nat := 1024 * d.samples * a.bpp

/-- Where a sample lies in a tile. -/
def PassDesc.sampleAt (d : PassDesc) (a : Attach) (x y k : Nat) : Nat := ((32 * y + x) * d.samples + k) * a.bpp

/-- The place of a tile of an attachment in SPILL (R569): attachment by attachment, tile by tile. The order is the model's, DESIGN CHOICE,
log entry 119. -/
def PassDesc.spillAt (d : PassDesc) (base : Addr) (i t : Nat) : Nat :=
  base.toNat + ((d.atts.take i).map (fun a => d.tiles * d.tileBytes a)).foldl (· + ·) 0 + t * ((d.atts[i]?).map d.tileBytes).getD 0

/-- Where row `y` of a tile lies in an attachment. -/
def PassDesc.rowAt (d : PassDesc) (a : Attach) (t y : Nat) : Nat := a.base.toNat + (d.tileY t + y) * a.stride + d.tileX t * a.bpp

/-- The clear value of a format: its first bytes. -/
def clearBytes (clear : List Byte) (n : Nat) : List Byte := leBytes n (leNat clear)

/-! ### Writes of a pass (R564, R575) -/

/-- A write of a pass: a failed one makes its result FAULT (R564), and what it replaced is what lookups of the pass go on seeing (R575). -/
def State.passWrite (s : State) (src : Src) (ps : Pass) (a : Nat) (bs : List Byte) : State × Pass :=
  let old := s.load a bs.length
  let (s, ok) := s.unitWriteOk src a bs
  (s, { ps with failed := ps.failed || !ok, before := (a, old) :: ps.before })

/-- Bytes as they were before any write of the pass. -/
def Pass.asBefore (ps : Pass) (a : Nat) (bs : List Byte) : List Byte := ps.before.foldl (fun bs e => overlay a bs e.1 e.2) bs

/-- Bytes that a pass reads, free where the read fails. -/
def State.passRead (s : State) (src : Src) (a n : Nat) : State × List Byte :=
  match s.unitRead src a n with
  | (s, some bs) => (s, bs)
  | (s, none) => s.freeBytes n

/-- One bit of a map in memory: bit `n % 8` of byte `n / 8`. -/
def mapBit (bs : List Byte) (n : Nat) : Bool := bitOf (bs.headD 0) (n % 8)
def putMapBit (bs : List Byte) (n : Nat) (v : Bool) : List Byte :=
  let m : Byte := 1#8 <<< (n % 8)
  [if v then bs.headD 0 ||| m else bs.headD 0 &&& ~~~m]

/-- A pass changes one bit of a map. -/
def State.putBit (s : State) (src : Src) (ps : Pass) (a : Addr) (n : Nat) (v : Bool) : State × Pass :=
  let (s, bs) := s.passRead src (a.toNat + n / 8) 1
  s.passWrite src ps (a.toNat + n / 8) (putMapBit bs n v)

/-! ### Fast clear (R572) -/

/-- A tile of an attachment reads as the clear value. -/
def State.flagged (s : State) (src : Src) (a : Attach) (t : Nat) : State × Bool :=
  match a.flags with
  | none => (s, false)
  | some f =>
    let (s, bs) := s.passRead src (f.toNat + t / 8) 1
    (s, mapBit bs t)

/-- An attachment with FASTCLEAR sets every bit of its flag array: its whole bytes, then the bits of the last one. -/
def State.fastClear (s : State) (src : Src) (ps : Pass) (a : Attach) : State × Pass :=
  match a.flags with
  | none => (s, ps)
  | some f =>
    if a.op ≠ .fastclear then (s, ps)
    else
      let n := ps.desc.tiles
      let (s, ps) := if n / 8 = 0 then (s, ps) else s.passWrite src ps f.toNat (List.replicate (n / 8) 0xFF)
      if n % 8 = 0 then (s, ps)
      else
        let (s, bs) := s.passRead src (f.toNat + n / 8) 1
        s.passWrite src ps (f.toNat + n / 8) [bs.headD 0 ||| BitVec.ofNat 8 (2 ^ (n % 8) - 1)]

/-! ### Tile memory (R566, R567, R569, R570) -/

/-- One pixel at every sample. -/
def allSamples (n : Nat) (bs : List Byte) : List Byte := (List.replicate n bs).flatten

/-- A tile of an attachment comes to tile memory: from SPILL when it was flushed (R569), else by its load operation. A tile with its flag
set loads as the clear value (R572). -/
def State.loadAtt (s : State) (src : Src) (ps : Pass) (i : Nat) (a : Attach) (t : Nat) : State × List Byte :=
  let d := ps.desc
  let clear := allSamples (1024 * d.samples) (clearBytes a.clear a.bpp)
  if ps.flushed.contains t then
    match d.spill with
    | some base => s.passRead src (d.spillAt base i t) (d.tileBytes a)
    | none => (s, clear)
  else match a.op with
    | .clear | .fastclear => (s, clear)
    | .dontcare => s.freeBytes (d.tileBytes a)
    | .load =>
      let (s, fl) := s.flagged src a t
      if fl then (s, clear)
      else (List.range (d.tileH t)).foldl (fun (r : State × List Byte) y =>
        let (s, row) := r.1.passRead src (d.rowAt a t y) (d.tileW t * a.bpp)
        let px := (List.range (d.tileW t)).map (fun x => allSamples d.samples ((row.drop (x * a.bpp)).take a.bpp))
        (s, overlay 0 r.2 (d.sampleAt a 0 y 0) px.flatten)) (s, List.replicate (d.tileBytes a) 0)

/-- A tile comes to tile memory, attachment by attachment. -/
def State.loadTile (s : State) (src : Src) (ps : Pass) (t : Nat) : State × List (List Byte) :=
  ps.desc.atts.zipIdx.foldl (fun (r : State × List (List Byte)) e =>
    let (s, bs) := r.1.loadAtt src ps e.2 e.1 t
    (s, r.2 ++ [bs])) (s, [])

/-- The pixel that is stored for its samples: with one sample that sample; samples that agree give their value; how others resolve is not
stated and free. -/
def State.resolve (s : State) (n bpp : Nat) (bs : List Byte) : State × List Byte :=
  let px := bs.take bpp
  if bs = allSamples n px then (s, px) else s.freeBytes bpp

/-- A tile of an attachment is stored: every pixel on the surface, then its flag is cleared (R572). -/
def State.storeAtt (s : State) (src : Src) (ps : Pass) (a : Attach) (t : Nat) (tile : List Byte) : State × Pass :=
  let d := ps.desc
  let (s, ps) := (List.range (d.tileH t)).foldl (fun (r : State × Pass) y =>
    let (s, row) := (List.range (d.tileW t)).foldl (fun (r : State × List Byte) x =>
      let (s, px) := r.1.resolve d.samples a.bpp ((tile.drop (d.sampleAt a x y 0)).take (d.samples * a.bpp))
      (s, r.2 ++ px)) (r.1, [])
    s.passWrite src r.2 (d.rowAt a t y) row) (s, ps)
  match a.flags with
  | some f => s.putBit src ps f t false
  | none => (s, ps)

/-- A tile is stored to its attachments. One with no draws and FASTCLEAR stores no pixels, and one with no draws and LOAD holds what memory
holds unless its flag is set (R572). -/
def State.storeTile (s : State) (src : Src) (ps : Pass) (t : Nat) (drawn : Bool) (tiles : List (List Byte)) : State × Pass :=
  (ps.desc.atts.zip tiles).foldl (fun (r : State × Pass) e =>
    let (s, fl) := r.1.flagged src e.1 t
    if e.1.store && (drawn || e.1.op == .clear || e.1.op == .dontcare || (e.1.op == .load && fl)) then s.storeAtt src r.2 e.1 t e.2 else (s, r.2)) (s, ps)

/-- A tile is stored unresolved to its place in SPILL (R569). -/
def State.spillTile (s : State) (src : Src) (ps : Pass) (t : Nat) (tiles : List (List Byte)) : State × Pass :=
  match ps.desc.spill with
  | none => (s, ps)
  | some base =>
    let (s, ps) := tiles.zipIdx.foldl (fun (r : State × Pass) e => r.1.passWrite src r.2 (ps.desc.spillAt base e.2 t) e.1) (s, ps)
    (s, { ps with flushed := if ps.flushed.contains t then ps.flushed else ps.flushed ++ [t] })

/-! ### Textures (R573 to R575) -/

/-- The page of a texel size of 2^log bytes: 2^width by 2^height texels (R573). -/
def pageW (log : Fin 5) : Nat := 8 - log.val / 2
def pageH (log : Fin 5) : Nat := 8 - (log.val + 1) / 2

/-- The offset of texel (x, y) inside its page (R573). -/
def texelOffset (log : Fin 5) (x y : Nat) : Nat :=
  let n := pageH log
  let morton := ((List.range n).map (fun i => nbits x i i * 2 ^ (2 * i) + nbits y i i * 2 ^ (2 * i + 1))).foldl (· + ·) 0
  2 ^ log.val * (morton + (if n < pageW log then nbits x n n * 2 ^ (2 * n) else 0))

/-- The page that holds a texel: pages follow in row-major order across the level (R573). -/
def Texture.page (t : Texture) (x y : Nat) : Nat :=
  y / 2 ^ pageH t.log * ((t.width + 2 ^ pageW t.log - 1) / 2 ^ pageW t.log) + x / 2 ^ pageW t.log

/-- The address of a texel. -/
def Texture.addr (t : Texture) (x y : Nat) : Nat :=
  t.base.toNat + match t.stride with
    | some st => y * st + x * 2 ^ t.log.val
    | none => 65536 * t.page x y + texelOffset t.log (x % 2 ^ pageW t.log) (y % 2 ^ pageH t.log)

/-- Bytes that a lookup takes through the texture caches (R575): a texel looked up since they were invalidated may still be held, as a free
value has it; one fetched is as it was before the writes of the pass. -/
def State.texRead (s : State) (src : Src) (ps : Pass) (a n : Nat) : State × List Byte :=
  let (v, s) := s.freeWord
  match s.media.tex.get? (a, n), v.getLsbD 0 with
  | some bs, true => (s, bs)
  | _, _ =>
    let (s, bs) := s.passRead src a n
    let bs := ps.asBefore a bs
    ({ s with media := { s.media with tex := s.media.tex.set (a, n) bs } }, bs)

/-- A flag array says that a tile reads as the clear value (R572). -/
def State.texFlagged (s : State) (src : Src) (ps : Pass) (t : Texture) (x y : Nat) : State × Option (List Byte) :=
  match t.flags with
  | none => (s, none)
  | some f =>
    let n := y / 32 * f.row + x / 32
    let (s, bs) := s.passRead src (f.base.toNat + n / 8) 1
    (s, if mapBit (ps.asBefore (f.base.toNat + n / 8) bs) n then some (clearBytes f.clear (2 ^ t.log.val)) else none)

/-- A lookup whose page is resident, or of a texture that is not sparse. -/
def State.texel (s : State) (src : Src) (ps : Pass) (t : Texture) (x y : Nat) : State × Pass :=
  let (s, cl) := s.texFlagged src ps t x y
  let (s, bs) := match cl with
    | some bs => (s, bs)
    | none => s.texRead src ps (t.addr x y) (2 ^ t.log.val)
  (s, { ps with given := ps.given ++ [.texel true bs] })

/-- A lookup (R574): in a page whose residency bit is 0 when it is made it gives zeros, reports non-resident, and sets the page's feedback
bit. -/
def State.lookup (s : State) (src : Src) (ps : Pass) (t : Texture) (x y : Nat) : State × Pass :=
  match t.sparse with
  | none => s.texel src ps t x y
  | some (res, fb) =>
    let n := t.page x y
    let (s, bs) := s.passRead src (res.toNat + n / 8) 1
    if mapBit bs n then s.texel src ps t x y
    else s.putBit src { ps with given := ps.given ++ [.texel false (List.replicate (2 ^ t.log.val) 0)] } fb n true

/-! ### Fragments (R566, R567) -/

/-- What one operation of a shader does: memory, and inside an ordered region the values of its sample in tile memory, directly (R567). -/
def State.shaderOp (s : State) (src : Src) (ps : Pass) (tiles : List (List Byte)) (x y k : Nat) (op : ShaderOp) : State × Pass × List (List Byte) :=
  match op with
  | .look t u v =>
    let (s, ps) := s.lookup src ps t u v
    (s, ps, tiles)
  | .write a bs =>
    let (s, ps) := s.passWrite src ps a.toNat bs
    (s, ps, tiles)
  | .regionRead i => match ps.desc.atts[i.val]?, tiles[i.val]? with
    | some a, some m => (s, { ps with given := ps.given ++ [.tile ((m.drop (ps.desc.sampleAt a x y k)).take a.bpp)] }, tiles)
    | _, _ => (s, ps, tiles)
  | .regionWrite i bs => match ps.desc.atts[i.val]?, tiles[i.val]? with
    | some a, some m => (s, ps, tiles.set i.val (overlay 0 m (ps.desc.sampleAt a x y k) (bs.take a.bpp)))
    | _, _ => (s, ps, tiles)

/-- A fragment retires: its shader's operations, then what its test-and-write and its blend leave. -/
def State.retireFrag (s : State) (q : Fin 16) (ps : Pass) (tiles : List (List Byte)) (f : Frag) : State × Pass × List (List Byte) :=
  (f.ops ++ f.out.map (fun e => ShaderOp.regionWrite e.1 e.2)).foldl (fun (r : State × Pass × List (List Byte)) op =>
    r.1.shaderOp (r.1.gfxSrc q (shaderAgent (some f.core))) r.2.1 r.2.2 f.x f.y f.sample op) (s, ps, tiles)

/-- Fragments in submission order, which is the order in which the scoreboard and the interlocks of the cores let those of one sample retire
and those of one pixel into an ordered region, whatever core shades them (R566, R567). -/
def submitted (fs : List Frag) : List Frag :=
  fs.foldr (fun f l => (l.takeWhile (fun g => decide (g.sub < f.sub))) ++ f :: l.dropWhile (fun g => decide (g.sub < f.sub))) []

def State.retireFrags (s : State) (q : Fin 16) (ps : Pass) (tiles : List (List Byte)) (fs : List Frag) : State × Pass × List (List Byte) :=
  (submitted fs).foldl (fun (r : State × Pass × List (List Byte)) f => r.1.retireFrag q r.2.1 r.2.2 f) (s, ps, tiles)

/-! ### The steps of a pass -/

/-- The next tile in tile order is rendered and stored. -/
def State.renderTile (s : State) (q : Fin 16) (ps : Pass) (fs : List Frag) : State × Pass :=
  let t := ps.next
  if ps.desc.tiles ≤ t then (s, ps)
  else
    let (s, tiles) := s.loadTile (s.gfxSrc q 57) ps t
    let (s, ps, tiles) := s.retireFrags q ps tiles fs
    let (s, ps) := s.storeTile (s.gfxSrc q 57) ps t (!fs.isEmpty || ps.flushed.contains t) tiles
    (s, { ps with next := t + 1 })

/-- A mid-frame flush renders every tile with a non-empty list, in tile order, to SPILL (R569). -/
def State.flushTiles (s : State) (q : Fin 16) (ps : Pass) (ts : List (Nat × List Frag)) : State × Pass :=
  if ps.flushLeft = 0 then (s, ps)
  else
    (List.range ps.desc.tiles).foldl (fun (r : State × Pass) t =>
      match ts.find? (fun e => e.1 == t) with
      | none => r
      | some e =>
        let (s, tiles) := r.1.loadTile (r.1.gfxSrc q 57) r.2 t
        let (s, ps, tiles) := s.retireFrags q r.2 tiles e.2
        s.spillTile (s.gfxSrc q 57) ps t tiles) (s, { ps with flushLeft := ps.flushLeft - 1 })

/-- One step of a pass. An uncorrectable error of tile memory ends it with FAULT; a texture line with wrong parity is fetched again
(R586). -/
def State.gfxAct (s : State) (q : Fin 16) (ps : Pass) (a : GfxAct) : State × Pass :=
  match a with
  | .bin core op =>
    let (s, ps, _) := s.shaderOp (s.gfxSrc q (shaderAgent core)) ps [] 0 0 0 op
    (s, ps)
  | .flush ts => s.flushTiles q ps ts
  | .tile fs => s.renderTile q ps fs
  | .tileError .single => (s.raise .gfx 0 1 0 q, ps)
  | .tileError .double => (s.raise .gfx 0 2 0 q, { ps with res := 2 })
  | .texParity k => ({ s with media := { s.media with tex := s.media.tex.eraseIdx k } }.raise .gfx 0 0 0 q, ps)

/-- Steps of a pass, in order, up to its first tile store while its image is latched (R580). -/
def State.gfxActs (s : State) (q : Fin 16) (ps : Pass) (held : Bool) (acts : List GfxAct) : State × Pass :=
  (if held then acts.takeWhile (fun a => match a with | .tile _ => false | _ => true) else acts).foldl
    (fun (r : State × Pass) a => if r.2.res = 0 then r.1.gfxAct q r.2 a else r) (s, ps)

/-- A pass that ran out of room leaves its attachments undefined (R571). -/
def State.spoil (s : State) (q : Fin 16) (ps : Pass) : State × Pass :=
  (List.range ps.desc.tiles).foldl (fun (r : State × Pass) t =>
    (ps.desc.atts.filter (·.store)).foldl (fun (r : State × Pass) a =>
      let (s, bs) := r.1.freeBytes (ps.desc.tileBytes a)
      s.storeAtt (s.gfxSrc q 57) r.2 { a with flags := none } t bs) r) (s, ps)

/-- The rest of a pass: the steps given, then every tile that is left, none of which has a draw. -/
def State.renderRest (s : State) (q : Fin 16) (ps : Pass) (acts : List GfxAct) : State × Pass :=
  let (s, ps) := s.gfxActs q ps false (if ps.desc.draws then acts else [])
  if ps.res = 0 then (List.range (ps.desc.tiles - ps.next)).foldl (fun (r : State × Pass) _ => r.1.renderTile q r.2 []) (s, ps) else (s, ps)

end Sys2Proof.Machine
end

