-- ==== Sys2Proof/Machine/Graphics.lean ====
section
/-! DEFINITION. The raster pipeline: graphics queues, passes, overflow pools, the compositor queue (R562 to R576, R583, R586). -/

namespace Sys2Proof.Machine

def State.pool (s : State) (ctx : BitVec 12) : Option Pool := s.media.pools.get? ctx

/-- MD_RAST is on and clocked (R50). -/
def State.rasterUp (s : State) : Bool := s.up 109

/-- Shader cores available: six in each domain MD_SH0 to MD_SH3 that is on (R50, R586). -/
def State.shaderCores (s : State) : Nat := 6 * ((List.range 4).filter (fun k => s.up (110 + k))).length

def GfxQueue.entryAt (x : GfxQueue) : Nat := x.base + (x.next % 2 ^ x.n) * 32

/-- The queue engine checks its ring: it acts on the next entry only when it reads OWN = 1; passes run in ring order (R563). The pass
waits to start. -/
def State.gfxCheck (s : State) (q : Fin 16) : State :=
  let x := s.gfx q
  if !s.rasterUp || x.st == 0 || x.pass.isSome then s
  else match s.unitRead (s.gfxSrc q 56) x.entryAt 32 with
    | (s, none) => s
    | (s, some bs) =>
      let w (o : Nat) : Word := BitVec.ofNat 32 (leNat ((bs.drop o).take 4))
      if !bitOf (w 4) 31 then s
      else
        let wt : Option (Fin 16 × Word) := if bitOf (w 8) 31 then some (Fin.ofNat 16 (bitsOf (w 8) 3 0), w 0xC) else none
        let ps : Pass := { entry := x.entryAt, irq := bitOf (w 4) 30, wait := wt, started := false, desc := PassDesc.none, res := 0, flushes := 0,
                           flushLeft := 0, chunks := 0, next := 0, flushed := [], failed := false, before := [], given := [] }
        s.setGfx q { x with pass := some ps }

/-- GFX_DOORBELL (R563). -/
def execGfxDoorbell (src : Src) (q : Fin 16) (s : State) : Out :=
  .next (s.regCommand src .gfx 0 (Reg.GFX_QDBq q) (mediaRegs 0x1100000) (fun s => s.gfxCheck q))

/-- GFX_QUEUE_POLL (R563). -/
def execGfxQueuePoll (q : Fin 16) (s : State) : Out := .next (s.gfxCheck q)

/-- The queue waited on has written back the sequence number (R563); numbers wrap. -/
def State.waitMet (s : State) (ps : Pass) : Bool :=
  match ps.wait with
  | none => true
  | some (q, n) => decide (0 ≤ ((s.gfx q).seq - n).toInt)

/-- A pass of a queue is running, or stopped for the compositor. -/
def GfxQueue.started (x : GfxQueue) : Bool := (x.pass.map (·.started)).getD false

/-- The queue whose pass runs now. -/
def State.gfxRunning (s : State) : Option (Fin 16) := (s.media.gfx.find? (fun e => e.2.st == 2 && e.2.started)).map (·.1)

/-- Chunks taken from a pool, with mid-frame flushes when it runs dry and a spill area is given (R568, R569): flushes, chunks held
at the end, and whether the lists fit. -/
def poolTake (pool : Option Pool) (spill : Bool) (need : Nat) : Nat × Nat × Bool :=
  let free := (pool.map (fun p => p.chunks - p.used)).getD 0
  if need ≤ free then (0, need, true)
  else if spill then (if free = 0 then (need, 0, true) else ((need - 1) / free, (need - 1) % free + 1, true))
  else (0, free, false)

/-- The texture caches are invalidated at the start of every pass (R575). -/
def State.emptyTex (s : State) : State := { s with media := { s.media with tex := [] } }

/-- Flag arrays of attachments with FASTCLEAR, at the start of a pass (R572). -/
def State.fastClears (s : State) (q : Fin 16) (ps : Pass) : State × Pass :=
  ps.desc.atts.foldl (fun (r : State × Pass) a => r.1.fastClear (r.1.gfxSrc q 57) r.2 a) (s, ps)

/-- An image is latched (R580). -/
def State.imageLatched (s : State) (pr : Fin 6 × Fin 4 × Fin 4) : Bool :=
  match s.media.planes.get? (pr.1, pr.2.1) with
  | some pl => pl.latched.contains pr.2.2
  | none => false

/-- The image that a pass renders is latched. -/
def State.heldPass (s : State) (ps : Pass) : Bool := (ps.desc.present.map s.imageLatched).getD false

/-- RENDER_PASS_START (R563, R565, R566, R568, R569, R571, R572, R575): the descriptor, which the back end makes, is the operand, none
when it breaks a range of R565 whose code is not stated; so are the pool chunks that its lists need, the cycles in which fragments wait, and
what binning and mid-frame flushes do. -/
def execRenderPassStart (q : Fin 16) (d : Option PassDesc) (need stalls : Nat) (acts : List GfxAct) (s : State) : Out :=
  let x := s.gfx q
  .next (match x.pass with
    | none => s
    | some ps =>
      if !s.rasterUp || ps.started || x.st != 1 || s.gfxRunning.isSome || !s.waitMet ps then s
      else match d.filter PassDesc.ok with
        | none => (s.emptyTex.setGfx q { x with st := 2, pass := some { ps with started := true, res := 2 } }).raise .gfx 0 4 0 q
        | some d =>
          let s := s.emptyTex
          let (fl, ch, fits) := poolTake (s.pool x.ctx) d.spill.isSome need
          let s := match s.pool x.ctx with
            | some po => { s with media := { s.media with pools := s.media.pools.set x.ctx { po with used := po.used + ch } } }
            | none => s
          let s := (s.count .gfx 0 Reg.GFX_TLFLUSH fl).count .gfx 0 Reg.GFX_SBSTALL stalls
          let s := if fits then s else s.raise .gfx 0 3 0 q
          let ps := { ps with started := true, desc := d, res := if fits then 0 else 1, flushes := fl, flushLeft := fl, chunks := ch }
          let (s, ps) := s.fastClears q ps
          let (s, ps) := s.gfxActs q ps (s.heldPass ps) (if d.draws then acts else [])
          s.setGfx q { x with st := 2, pass := some ps })

/-- A plane takes an image that has been written back (R578). -/
def State.present (s : State) (pr : Fin 6 × Fin 4 × Fin 4) : State :=
  match s.media.planes.get? (pr.1, pr.2.1) with
  | some pl => { s with media := { s.media with planes := s.media.planes.set (pr.1, pr.2.1) { pl with newest := pl.newest ++ [(pr.2.2, s.now)] } } }
  | none => s

/-- Chunks return to their pool (R568). -/
def State.poolReturn (s : State) (ctx : BitVec 12) (n : Nat) : State :=
  match s.pool ctx with
  | some po => { s with media := { s.media with pools := s.media.pools.set ctx { po with used := po.used - n } } }
  | none => s

/-- The pass stopped for the compositor goes on (R576). -/
def State.resumeStopped (s : State) : State :=
  { s with media := { s.media with gfx := s.media.gfx.map (fun (e : Fin 16 × GfxQueue) => if e.2.st = 3 then (e.1, { e.2 with st := 2 }) else e) } }

/-- The write-back of a pass in one aligned write (R564). -/
def State.passEnd (s : State) (q : Fin 16) (ps : Pass) (res : Nat) : State :=
  let x := s.gfx q
  let seq := x.seq + 1
  let (s, hd) := s.unitRead (s.gfxSrc q 57) ps.entry 16
  let hd := hd.getD (List.replicate 16 0)
  let hi := (hd.drop 4).take 4
  let entry := hd.take 4 ++ leBytes 4 (leNat hi % 2 ^ 31) ++ hd.drop 8 ++ leBytes 4 (res * 2 ^ 28 + ps.flushes % 65536) ++ leBytes 4 ps.chunks ++
    leBytes 4 s.now ++ leBytes 4 seq.toNat
  let s := s.unitWrite (s.gfxSrc q 57) ps.entry entry
  let s := s.poolReturn x.ctx ps.chunks
  let s := s.setGfx q { x with st := 1, next := x.next + 1, seq := seq, pass := none }
  let s := if ps.irq then s.setFld .gfx 0 (Reg.GFX_QPENDq q) 0 0 1 else s
  if x.compositor then s.resumeStopped else s

/-- PASS_WRITEBACK (R564, R566 to R578, R580): what the pass still renders is the operand; a pass whose image is latched waits. One that
ran out of room leaves its attachments undefined (R571). -/
def execPassWriteback (q : Fin 16) (acts : List GfxAct) (s : State) : Out :=
  let x := s.gfx q
  .next (match x.pass with
    | none => s
    | some ps =>
      if !s.rasterUp || !ps.started || x.st != 2 || s.heldPass ps then s
      else
        let (s, ps) := if ps.res = 0 then s.renderRest q ps acts else if ps.res = 1 then s.spoil q ps else (s, ps)
        let s := s.passEnd q ps (if ps.failed then 2 else ps.res)
        match ps.desc.present with
        | some pr => s.present pr
        | none => s)

/-- COMPOSITOR_PREEMPT (R576): the operand is what the running pass still does up to its next boundary. -/
def execCompositorPreempt (acts : List GfxAct) (s : State) : Out :=
  .next (match s.media.gfx.find? (fun e => e.2.compositor && e.2.st == 1 && (e.2.pass.map (fun ps => !ps.started && s.waitMet ps)).getD false), s.gfxRunning with
    | some _, some q => match (s.gfx q).pass with
      | none => s
      | some ps =>
        let (s, ps) := if ps.res = 0 ∧ ps.desc.draws then s.gfxActs q ps (s.heldPass ps) acts else (s, ps)
        (s.setGfx q { s.gfx q with st := 3, pass := some ps }).count .gfx 0 Reg.GFX_PREEMPT 1
    | _, _ => s)

/-- A context that a pair names: it exists, and a trusted one only through the trusted pair (R465, R583). -/
def State.withCtx (s : State) (p : Fin 64) (ctx : BitVec 12) (world : Nat) (k : State → State) : State :=
  if ctx ≠ 0 ∧ !s.ctxLive ctx then s.complete p stNOTFOUND 0 0 0
  else if !s.mayUse p ctx then s.refuse p world
  else k s

/-- GFX_QUEUE (R563, R576, R583): a queue starts afresh, or goes off. -/
def execGfxQueue (p : Fin 64) (s : State) : Out :=
  .next (s.command p 0x6A [] [(8, 3, 0), (8, 9, 8), (8, 18, 16), (8, 27, 24), (0xC, 11, 0), (0x10, 47, 0)] true (fun e =>
    let q : Fin 16 := Fin.ofNat 16 (eBits e 8 3 0)
    let cls := eBits e 8 18 16
    let n := eBits e 8 27 24
    let comp := eBits e 8 9 9 = 1
    let ctx : BitVec 12 := BitVec.ofNat 12 (eBits e 0xC 11 0)
    if eBits e 8 8 8 = 0 then (s.setGfx q GfxQueue.off).ok p
    else if (cls ≠ 3 ∧ cls ≠ 4) ∨ n < 4 ∨ 12 < n ∨ eAddr e 0x10 % 32 ≠ 0 then s.complete p stBADARG 0 0 0
    else if comp ∧ s.media.gfx.any (fun o => o.1 != q && o.2.compositor && o.2.st != 0) then s.refuse p 3
    else s.withCtx p ctx 4 (fun s =>
      (s.setGfx q { GfxQueue.off with st := 1, ctx := ctx, cls := Fin.ofNat 8 cls, n := n, base := eAddr e 0x10, compositor := comp }).ok p)))

/-- A pass of the context runs. -/
def State.ctxPass (s : State) (ctx : BitVec 12) : Bool := s.media.gfx.any (fun e => e.2.ctx == ctx && e.2.started)

/-- GFX_POOL (R568, R583): a pool of no chunks removes the context's pool. -/
def execGfxPool (p : Fin 64) (s : State) : Out :=
  .next (s.command p 0x6B [] [(8, 11, 0), (0x10, 47, 0), (0x18, 31, 0)] true (fun e =>
    let ctx : BitVec 12 := BitVec.ofNat 12 (eBits e 8 11 0)
    s.withCtx p ctx 4 (fun s =>
      if s.ctxPass ctx then s.refuse p 3
      else
        let n := (eWord e 0x18).toNat
        let m := if n = 0 then s.media.pools.erase ctx else s.media.pools.set ctx ⟨eAddr e 0x10, n, 0⟩
        ({ s with media := { s.media with pools := m } }).ok p)))

/-! ### The end of a context (R553) -/

/-- The graphics queues of a context stop: a running pass ends ABORTED. -/
def State.gfxStop (s : State) (ctx : BitVec 12) : State :=
  let s := s.media.gfx.foldl (fun (s : State) (e : Fin 16 × GfxQueue) =>
    if e.2.ctx ≠ ctx then s
    else match (s.gfx e.1).pass with
      | some ps => if ps.started then s.passEnd e.1 ps 3 else s
      | none => s) s
  { s with media := { s.media with gfx := s.media.gfx.filter (fun e => e.2.ctx != ctx), pools := s.media.pools.erase ctx } }

end Sys2Proof.Machine
end

