-- ==== Sys2Proof/Machine/Display.lean ====
section
/-! DEFINITION. Display outputs and planes, the codec, and the end of a context on the Media die (R553, R577 to R583, R587 to R589). -/

namespace Sys2Proof.Machine

def State.plane (s : State) (o : Fin 6) (k : Fin 4) : Option Plane := s.media.planes.get? (o, k)
def State.setPlane (s : State) (o : Fin 6) (k : Fin 4) (x : Plane) : State :=
  { s with media := { s.media with planes := s.media.planes.set (o, k) x } }

/-- MD_DISP is on, and an output is enabled with its link trained. -/
def State.dspUp (s : State) (o : Fin 6) : Bool := s.up 114 && s.fld .dsp o Reg.DSP_CFG 31 31 == 1 && s.media.trained.getLsbD o

def State.vTotal (s : State) (o : Fin 6) : Nat := s.fld .dsp o Reg.DSP_VTIM 31 16
def State.vActive (s : State) (o : Fin 6) : Nat := s.fld .dsp o Reg.DSP_VTIM 15 0
def State.curLine (s : State) (o : Fin 6) : Nat := s.media.line.get o 0

/-- A display output as a requester (R550). -/
def State.dspSrc (s : State) (o : Fin 6) (ctx : BitVec 12) : Src :=
  ⟨7, BitVec.ofNat 10 (64 + o.val), s.ctxWorld ctx, ctx, s.gen ctx, 4, false⟩

/-- Planes that take effect from the frame that begins (R553, R583). -/
def State.applyPlanes (s : State) (o : Fin 6) : State :=
  s.media.planeNext.foldl (fun (s : State) (e : (Fin 6 × Fin 4) × Option Plane) =>
    if e.1.1 ≠ o then s
    else
      let m := match e.2 with
        | some x => s.media.planes.set e.1 x
        | none => s.media.planes.erase e.1
      { s with media := { s.media with planes := m, planeNext := s.media.planeNext.erase e.1 } }) s

/-- The latch of one reprojecting plane (R578, R579): the newest image whose pass wrote back before the latch cycle, or the previous
one again; then INDEX and the half that it names are read. -/
def State.latchPlane (s : State) (o : Fin 6) (k : Fin 4) : State :=
  match s.plane o k with
  | none => s
  | some x =>
    if !x.reproj then s
    else
      let new := ((x.newest.filter (fun e => decide (e.2 < s.now))).getLast?).map (·.1)
      let img := match new with
        | some i => some i
        | none => x.shown
      let x := { x with shown := img, newest := x.newest.filter (fun e => decide (s.now ≤ e.2)),
                        latched := match img with
                          | some i => if x.latched.contains i then x.latched else x.latched ++ [i]
                          | none => x.latched }
      let s := if new.isNone && img.isSome then s.count .dsp o Reg.DSP_REUSE 1 else s
      let s := match img with
        | some i => s.setFld .dsp o Reg.DSP_STAT 1 0 i.val
        | none => s
      match s.unitRead (s.dspSrc o x.ctx) (x.desc.slot.toNat + 96) 4 with
      | (s, none) => s.setPlane o k x
      | (s, some ix) => match s.unitRead (s.dspSrc o x.ctx) (x.desc.slot.toNat + 48 * (leNat ix % 2)) 48 with
        | (s, none) => s.setPlane o k x
        | (s, some bs) => s.setPlane o k { x with transform := bs.take 36 }

/-- The line of the latch: LATCH lines before the first active line. -/
def State.latchLine (s : State) (o : Fin 6) : Nat := s.vTotal o - s.fld .dsp o Reg.DSP_LATCH 7 0

/-- DISPLAY_LATCH (R578, R579). -/
def execDisplayLatch (o : Fin 6) (s : State) : Out :=
  .next (if s.dspUp o && s.curLine o == s.latchLine o then (List.finRange 4).foldl (fun (s : State) k => s.latchPlane o k) s else s)

/-- IMAGE_RELEASE (R580): at the end of the last active line the image that the frame shows is released. -/
def execImageRelease (o : Fin 6) (s : State) : Out :=
  .next (if s.dspUp o && s.curLine o == s.vActive o then
    (List.finRange 4).foldl (fun (s : State) k => match s.plane o k with
      | some x => s.setPlane o k { x with latched := [] }
      | none => s) s
    else s)

/-! ### What a line shows (R572, R577, R578) -/

/-- Bytes of a pixel of a plane's format; of NV12, of its first plane. -/
def PlaneFmt.bytes : PlaneFmt → Nat
  | .argb8888 | .argb2101010 => 4
  | .argbFp16 => 8
  | .nv12 => 1

/-- The point of its image that a reprojecting plane samples for output pixel (u, v) (R578): (x, y, w) = H × (u + 0.5, v + 0.5, 1) in FP32
under RNE, each sum in the order of the row, DESIGN CHOICE, log entry 120; none gives the border colour. -/
def reproject (h : List Byte) (u v : Nat) (size : Nat × Nat) : Option (Word × Word) :=
  let m (i : Nat) : Word := BitVec.ofNat 32 (leNat ((h.drop (4 * i)).take 4))
  let half (n : Nat) : Word := (fpack 0 (.fin false (2 * n + 1) (-1))).1
  let row (i : Nat) : Word := (fadd 0 (fadd 0 (fmul 0 (m (3 * i)) (half u)).1 (fmul 0 (m (3 * i + 1)) (half v)).1).1 (m (3 * i + 2))).1
  let w := row 2
  let x := (fdiv 0 (row 0) w).1
  let y := (fdiv 0 (row 1) w).1
  let below (a b : Word) : Bool := !isNan32 a && !isNan32 b && decide (fcmpKey a < fcmpKey b)
  let num (n : Nat) : Word := (fpack 0 (.fin false n 0)).1
  if below 0 w && !below x 0 && !below y 0 && below x (num size.1) && below y (num size.2) then some (x, y) else none

/-- The row of an image that a plane shows one to one: its pixels, those of flagged tiles at the clear value (R572); none when the read
failed. -/
def State.planeRow (s : State) (src : Src) (r : PlaneRec) (img y : Nat) : State × Option (List PlanePix) :=
  let n := r.fmt.bytes
  match s.unitRead src (img + y * r.stride + r.src.x * n) (r.src.w * n) with
  | (s, none) => (s, none)
  | (s, some bs) =>
    (List.range r.src.w).foldl (fun (a : State × Option (List PlanePix)) i =>
      let (s, px) : State × List Byte := match r.flags with
        | none => (a.1, (bs.drop (i * n)).take n)
        | some f =>
          let t := y / 32 * f.row + (r.src.x + i) / 32
          let (s, fl) := a.1.passRead src (f.base.toNat + t / 8) 1
          (s, if mapBit fl t then clearBytes f.clear n else (bs.drop (i * n)).take n)
      (s, a.2.map (fun l => l ++ [.pixel px]))) (s, some [])

/-- What one plane gives for a line: none where its data has not come. -/
def State.planeLine (s : State) (o : Fin 6) (x : Plane) (l : Nat) : State × Option (List PlanePix) :=
  let r := x.desc
  if l < r.dst.y ∨ r.dst.y + r.dst.h ≤ l then (s, some [])
  else if x.reproj then
    (s, some ((List.range r.dst.w).map (fun i => match x.shown, reproject x.transform (r.dst.x + i) l r.size with
      | some _, some (a, b) => .at a b
      | _, _ => .border)))
  else if r.src.w = r.dst.w ∧ r.src.h = r.dst.h then s.planeRow (s.dspSrc o x.ctx) r ((r.images.headD 0).toNat) (r.src.y + (l - r.dst.y))
  else (s, some (List.replicate r.dst.w .scaled))

/-- The planes of an output give their pixels of a line; whether all data came. -/
def State.composeLine (s : State) (o : Fin 6) (arrived : Bool) (l : Nat) : State × Bool :=
  (List.finRange 4).foldl (fun (a : State × Bool) k => match a.1.plane o k with
    | none => a
    | some x =>
      let (s, px) := if arrived then a.1.planeLine o x l else (a.1, none)
      ({ s with media := { s.media with sent := s.media.sent.set (o, k) (px.getD (List.replicate x.desc.dst.w .border)) } }, a.2 && px.isSome)) (s, arrived)

/-- SCAN_OUT_LINE (R245, R577, R587): one line is sent, in the border colour when its data has not arrived; its number advances, and the vertical-sync event is the start of the first
line after the last active line. -/
def execScanOutLine (o : Fin 6) (arrived : Bool) (s : State) : Out :=
  .next (if !s.dspUp o then s
    else
      let l := s.curLine o
      let s := if l = 0 then s.applyPlanes o else s
      let (s, ok) := if l < s.vActive o then s.composeLine o arrived l else (s, true)
      let s := if !ok then (s.raise .dsp o 0 0 0).count .dsp o Reg.DSP_UNDERCNT 1 else s
      let n := if s.vTotal o ≤ l + 1 then 0 else l + 1
      let s := { s with media := { s.media with line := s.media.line.set o n } }
      let s := s.setFld .dsp o Reg.DSP_STAT 31 16 n
      if n = s.vActive o then s.internalEvent (16 + o.val) else s)

/-- DISPLAY_LINK_LOSS (R587). -/
def execDisplayLinkLoss (o : Fin 6) (s : State) : Out :=
  .next (if s.dspUp o then ({ s with media := { s.media with trained := s.media.trained &&& ~~~(1#6 <<< o.val) } }).raise .dsp o 1 0 0 else s)

/-- Options that an output supports (R577, R587). -/
def dspCfgOk (o : Nat) (cfg htim vtim : Word) : Bool :=
  let kind := bitsOf cfg 30 29
  let lanes := bitsOf cfg 28 26
  let clk := bitsOf cfg 19 0
  (lanes == 1 || lanes == 2 || lanes == 4) && decide (bitsOf cfg 22 21 ≤ 2) && decide (0 < clk) &&
    (if o < 4 then decide (kind ≤ 1) && decide (bitsOf cfg 25 23 ≤ 3) && decide (clk ≤ 600000)
     else decide (2 ≤ kind) && bitsOf cfg 25 23 == 0 && lanes == 4 && decide (clk ≤ 300000)) &&
    decide (0 < bitsOf htim 15 0) && decide (bitsOf htim 15 0 ≤ bitsOf htim 31 16) &&
    decide (0 < bitsOf vtim 15 0) && decide (bitsOf vtim 15 0 < bitsOf vtim 31 16)

/-- DSP_OUT (R577, R583, R587): the images of DSP_CFG, DSP_INTEN, DSP_HTIM, DSP_VTIM and DSP_LATCH; the command completes once the
link has trained, which is the operand. -/
def execDspOut (p : Fin 64) (trained : Bool) (s : State) : Out :=
  .next (s.command p 0x6C [] [(8, 2, 0), (8, 8, 8), (0xC, 31, 0), (0x10, 2, 0), (0x14, 31, 0), (0x18, 31, 0), (0x1C, 7, 0)] true (fun e =>
    let n := eBits e 8 2 0
    if 5 < n then s.complete p stBADARG 0 0 0
    else
      let o : Fin 6 := Fin.ofNat 6 n
      let off (s : State) : State := { s with media := { s.media with trained := s.media.trained &&& ~~~(1#6 <<< o.val), line := s.media.line.erase o } }
      if eBits e 8 8 8 = 0 then (off (s.setFld .dsp o Reg.DSP_CFG 31 31 0)).ok p
      else if !dspCfgOk n (eWord e 0xC) (eWord e 0x14) (eWord e 0x18) then (s.raise .dsp o 2 0 0).refuse p 1
      else if !trained then s
      else
        let s := s.setReg .dsp o Reg.DSP_CFG (putBits (eWord e 0xC) 31 31 1)
        let s := s.setReg .dsp o Reg.DSP_INTEN (eWord e 0x10)
        let s := s.setReg .dsp o Reg.DSP_HTIM (eWord e 0x14)
        let s := s.setReg .dsp o Reg.DSP_VTIM (eWord e 0x18)
        let s := off (s.setReg .dsp o Reg.DSP_LATCH (eWord e 0x1C))
        ({ s with media := { s.media with trained := s.media.trained ||| (1#6 <<< o.val) } }).ok p))

/-- What an output supports of a plane record (R577, R578): scaling from 1/4 to 8 times; 2 to 4 images for a plane in reprojection mode. -/
def PlaneRec.ok (r : PlaneRec) (reproj : Bool) : Bool :=
  let scale (a b : Nat) : Bool := decide (0 < a) && decide (0 < b) && decide (a ≤ 4 * b) && decide (b ≤ 8 * a)
  (if reproj then decide (2 ≤ r.images.length) && decide (r.images.length ≤ 4)
   else !r.images.isEmpty && scale r.src.w r.dst.w && scale r.src.h r.dst.h)

/-- DSP_PLANE (R578, R583): what the plane record says is the operand (its layout is not stated), none when it names a format that R577 does
not list. -/
def execDspPlane (p : Fin 64) (r : Option PlaneRec) (s : State) : Out :=
  .next (s.command p 0x6D [] [(8, 2, 0), (8, 5, 4), (8, 9, 8), (0xC, 11, 0), (0x10, 47, 0)] true (fun e =>
    let n := eBits e 8 2 0
    let k : Fin 4 := Fin.ofNat 4 (eBits e 8 5 4)
    let reproj := eBits e 8 9 9 = 1
    let ctx : BitVec 12 := BitVec.ofNat 12 (eBits e 0xC 11 0)
    if 5 < n then s.complete p stBADARG 0 0 0
    else
      let o : Fin 6 := Fin.ofNat 6 n
      let next (x : Option Plane) : State := ({ s with media := { s.media with planeNext := s.media.planeNext.set (o, k) x } }).ok p
      if eBits e 8 8 8 = 0 then next none
      else match r.filter (fun r => r.ok reproj) with
        | none => (s.raise .dsp o 2 0 0).refuse p 1
        | some r => s.withCtx p ctx 4 (fun _ =>
            next (some { ctx := ctx, reproj := reproj, desc := r, newest := [], shown := none, latched := [], transform := [] }))))

/-! ### The codec (R581, R582) -/

/-- Pixels per ms of a direction (R581). -/
def codecMax (encode : Bool) : Nat := if encode then 500000 else 1000000

/-- CODEC_SESSION (R582, R583). -/
def execCodecSession (p : Fin 64) (s : State) : Out :=
  .next (s.command p 0x6E [] [(8, 3, 0), (8, 12, 8), (0xC, 11, 0), (0x10, 31, 0), (0x18, 47, 0)] true (fun e =>
    let k : Fin 16 := Fin.ofNat 16 (eBits e 8 3 0)
    let enc := eBits e 8 9 9 = 1
    let cls := eBits e 8 12 10
    let rate := (eWord e 0x10).toNat
    let ctx : BitVec 12 := BitVec.ofNat 12 (eBits e 0xC 11 0)
    if eBits e 8 8 8 = 0 then ({ s with media := { s.media with codecs := s.media.codecs.erase k } }).ok p
    else if cls = 0 ∨ cls = 7 ∨ eAddr e 0x18 % 16 ≠ 0 then s.complete p stBADARG 0 0 0
    else if codecMax enc < rate + ((s.media.codecs.filter (fun o => o.1 != k && o.2.encode == decide enc)).map (fun o => o.2.rate)).foldl (· + ·) 0 then s.refuse p 2
    else s.withCtx p ctx 4 (fun s =>
      ({ s with media := { s.media with codecs := s.media.codecs.set k ⟨ctx, Fin.ofNat 8 cls, decide enc, rate, eAddr e 0x18, 0⟩ } }).ok p)))

/-- CODEC_PICTURE (R530 to R532, R582, R588): the next descriptor of a session, when the codec holds it. What the coding standard makes
of it is the operand: the bytes written to its buffer, the length written back, error code 2 or 3, and an error of the reference store: an
uncorrectable one ends the picture in error, with a code that is not stated and free. -/
def execCodecPicture (k : Fin 16) (out : List Byte) (len : BitVec 16) (err : Fin 4) (ref : Option EccErr) (s : State) : Out :=
  .next (match s.media.codecs.get? k with
    | none => s
    | some x =>
      let src : Src := ⟨7, 80, s.ctxWorld x.ctx, x.ctx, s.gen x.ctx, x.cls, false⟩
      let a := x.ring + (x.next % (Config.codecLast + 1)) * 16
      if !s.up 115 then s
      else match s.unitRead src a 16 with
        | (s, none) => s
        | (s, some d) =>
          let c : Word := BitVec.ofNat 32 (leNat ((d.drop 8).take 4))
          if !bitOf c 31 then s
          else
            let s := if err = 3 then s.raise .cdc 0 2 0 0 else s
            let s := match ref with
              | some .single => s.raise .cdc 0 0 0 0
              | some .double => s.raise .cdc 0 1 0 0
              | none => s
            let (v, s) := s.freeWord
            let (s, ok) := if out = [] then (s, true) else s.unitWriteOk src (leNat (d.take 6)) out
            let bad := ref == some .double && err.val == 0
            let code : Nat := if bad then v.toNat % 16 else if err.val ≠ 0 then err.val else if ok then 0 else 1
            let d := d.take 6 ++ leBytes 2 len.toNat ++
              leBytes 4 (bitsOf c 29 29 * 2 ^ 29 + (if code = 0 && !bad then 0 else 2 ^ 28 + code * 2 ^ 24)) ++ leBytes 4 0
            let s := s.unitWrite src a d
            { s with media := { s.media with codecs := s.media.codecs.set k { x with next := x.next + 1 } } })

/-! ### The end of a context (R553) -/

/-- Streams, queues, planes and sessions of a context stop; a plane of it goes from the next frame. -/
def State.mediaStop (s : State) (ctx : BitVec 12) : State :=
  let s := s.gfxStop ctx
  let gone := (s.media.planes.filter (fun e => e.2.ctx == ctx)).map (·.1)
  let next := gone.foldl (fun (m : AMap (Fin 6 × Fin 4) (Option Plane)) k => m.set k none)
    (s.media.planeNext.filter (fun e => (e.2.map (fun x => x.ctx != ctx)).getD true))
  { s with media := { s.media with streams := s.media.streams.filter (fun e => e.2.ctx != ctx),
                                   codecs := s.media.codecs.filter (fun e => e.2.ctx != ctx), planeNext := next } }

end Sys2Proof.Machine
end

