-- ==== Sys2Proof/Machine/Sources.lean ====
section
/-! DEFINITION. Where a register block lies, and the IDs of fault sources (R437). -/

namespace Sys2Proof.Machine

/-- The die of a register block and its offset from the die's register base (R39, R40, R551). -/
def blkPlace (b : Blk) (i : Nat) : Nat × Nat :=
  match b with
  | .die => (i, 0)
  | .fab => (i, 0x10000)
  | .mc => (i / 8, 0x100000 + i % 8 * 0x10000)
  | .dp => (i / 8, 0x200000 + i % 8 * 0x10000)
  | .tc => (i / 96, 0x1000000 + i / 8 % 12 * 0x100000 + i % 8 * 0x10000)
  | .cad => (i / 12, 0x1080000 + i % 12 * 0x100000)
  | .pcmp => (i / 48, 0x10A0000 + i / 4 % 12 * 0x100000 + i % 4 * 0x1000)
  | _ =>
    match vehicleBlocks.find? (fun x => x.blk == b), mediaBlocks.find? (fun x => x.blk == b) with
    | some x, _ => (6, x.base + i * x.stride)
    | none, some x => (7, x.base + i * x.stride)
    | none, none => (0, 0)

/-- Address of a register. -/
def regAddr (b : Blk) (i off : Nat) : Nat := let (d, o) := blkPlace b i; dieRegs d + o + off

/-- Source ID (R437): die, block, condition, SUB. -/
def sourceId (b : Blk) (i cond sub : Nat) : Word :=
  let (d, o) := blkPlace b i
  BitVec.ofNat 32 (d * 2 ^ 29 + o / 2 ^ 12 % 2 ^ 16 * 2 ^ 13 + cond * 2 ^ 8 + sub)

/-- First argument of the FAULT trace point: die and block offset (R366). -/
def blockArg (b : Blk) (i : Nat) : Nat := let (d, o) := blkPlace b i; d * 2 ^ 29 + o

end Sys2Proof.Machine
end

