-- ==== Sys2Proof/Machine/Rings.lean ====
section
/-! DEFINITION. Ring commands of firmware: doorbells, polls, opening and closing of pairs, jobs (R270, R276, R280, R286, R332
to R349, R368, R641). -/

namespace Sys2Proof.Machine

/-! ### Inspection of a pair (R332, R333, R337, R342) -/

/-- A ring error: the last valid value stays in use; each invalid value is reported once. -/
def State.ringError (s : State) (p : Fin 64) (off : Nat) (v : Word) : State :=
  (s.raise .fw 0 0 0 0).trace (Fin.ofNat 9 (ringFp p).val) 0x0103 [p, off, v.toNat]

/-- CQ_HEAD as the host has written it, when it is valid. -/
def State.takeHead (s : State) (p : Fin 64) : State :=
  let r := s.ring p
  let h := s.load32 (ringCb p + 0x24)
  if (r.cqTail - h).toNat ≤ 2 ^ r.cqN then s.setRing p { r with cqHead := h, badHead := none }
  else if r.badHead = some h then s
  else (s.setRing p { r with badHead := some h }).ringError p 0x24 h

/-- SQ_TAIL as the host has written it, when it is valid. -/
def State.takeTail (s : State) (p : Fin 64) : State :=
  let r := s.ring p
  let t := s.load32 (ringCb p + 0x18)
  if (t - r.sqHead).toNat ≤ 2 ^ r.sqN then s.setRing p { r with sqTail := t, badTail := none }
  else if r.badTail = some t then s
  else (s.setRing p { r with badTail := some t }).ringError p 0x18 t

/-- The next command of a pair is taken, when the previous one has completed; an undefined opcode completes with BADCMD, an
entry that cannot be read with FAULT (R335, R337, R340). -/
def State.takeCommand (s : State) (p : Fin 64) : State :=
  let r := s.ring p
  if r.taken.isSome || r.closing || r.sqTail == r.sqHead then s
  else
    let (s, bs) := s.fwRead r.world (r.sqBase + r.sqHead.toNat % 2 ^ r.sqN * 64) 64
    let e : BitVec 512 := BitVec.ofNat 512 (leNat (bs.getD []))
    let s := (s.setRing p { s.ring p with sqHead := r.sqHead + 1, taken := some e }).touch r.ctx
    let s := s.trace (Fin.ofNat 9 (ringFp p).val) 0x0101 [p, eOp e, (eCmd e).toNat]
    if bs.isNone then s.complete p stFAULT 0 0 0
    else if !knownOps.contains (eOp e) then s.complete p stBADCMD 0 0 0
    else s

/-- Firmware inspects one open pair. -/
def State.inspect (s : State) (p : Fin 64) : State :=
  if (s.ring p).isOpen && s.fpRuns (ringFp p) && s.served p then
    let s := (s.takeHead p).takeTail p
    (s.cqMove 65537 p).takeCommand p
  else s

/-- FP6 as a requester (R328): agent 6, log entry 33. -/
def fp6Src : Src := { fwSrc false with agent := 6 }

/-- A doorbell (R333, R368): accepted from the world of the pair and from FP6. -/
def State.doorbell (s : State) (src : Src) (p : Fin 64) : State :=
  if src == fp6Src || src.world == (s.ring p).world then s.inspect p else s.ignoredWrite .fw 0

/-- DOORBELL (R14, R333, R368). -/
def execDoorbell (src : Src) (p : Fin 64) (s : State) : Out :=
  .next (s.regCommand src .fw 0 (Reg.FW_DBp p) (vehRegs 0x1300000) (fun s => s.doorbell src p))

/-- RING_POLL (R333). -/
def execRingPoll (p : Fin 64) (s : State) : Out := .next (s.inspect p)

/-- NOP (R339). -/
def execCmdNop (p : Fin 64) (s : State) : Out := .next (s.command p 0x01 [] [] false (fun _ => s.ok p))

/-! ### RING_OPEN and RING_CLOSE (R339, R349) -/

/-- A context that a command may name: 0, or one that exists and is not closing (R641). -/
def State.named (s : State) (ctx : BitVec 12) : Bool := ctx == 0 || s.ctxLive ctx

/-- A pair opens with empty rings and FLAGS.IRQ 0. -/
def State.openRing (s : State) (p : Fin 64) (world remote : Bool) (ctx : BitVec 12) (sqN cqN sqBase cqBase : Nat)
    (windows : List (Nat × Nat × Bool × Bool)) : State :=
  let s := s.store (ringCb p) (leBytes 64 0)
  s.setRing p { Ring.closed with isOpen := true, world := world, remote := remote, ctx := ctx, sqN := sqN, cqN := cqN,
                                 sqBase := sqBase, cqBase := cqBase, windows := windows }

/-- A window of a remote descriptor (R349): base, length and permissions, none when it is malformed. -/
def parseWindow (bs : List Byte) (w : Nat) : Option (Nat × Nat × Bool × Bool) :=
  let o := 0x28 + w * 16
  let base := leNat (bBytes bs o 8)
  let len := bWord bs (o + 8)
  let perm := bWord bs (o + 12)
  if addrOk base 64 && len % 64 == 0 && decide (perm < 4) then some (base, len, perm % 2 == 1, decide (2 ≤ perm)) else none

/-- The ring key of a remote pair goes into a key slot (R349, R472); none when no slot is free. -/
def State.ringSlot (s : State) (p : Fin 64) (ctx : BitVec 12) (key : List Byte) : Option State :=
  s.freeSlot.map (fun n => { s.setSlot n (some ⟨2, ctx⟩) with fw := { s.fw with ringKey := s.fw.ringKey.set p (n, key) } })

/-- RING_OPEN (R339, R349, R641). A remote pair with no free key slot is refused with DETAIL 3, as R492 codes it. -/
def execRingOpen (p : Fin 64) (s : State) : Out :=
  .next (s.command p 0x02 [] [(8, 5, 0), (8, 16, 16), (8, 17, 17), (8, 27, 24), (8, 31, 28), (0xC, 11, 0), (0x10, 47, 0), (0x18, 47, 0), (0x20, 47, 0)] true (fun e =>
    let q : Fin 64 := Fin.ofNat 64 (eBits e 8 5 0)
    let world := eBits e 8 16 16 == 1
    let remote := eBits e 8 17 17 == 1
    let sn := eBits e 8 27 24
    let cn := eBits e 8 31 28
    let ctx : BitVec 12 := BitVec.ofNat 12 (eBits e 0xC 11 0)
    let sb := eAddr e 0x10
    let cb := eAddr e 0x18
    let rd := eAddr e 0x20
    if sn < 4 ∨ 12 < sn ∨ cn < 4 ∨ 12 < cn ∨ sb % 4096 ≠ 0 ∨ cb % 4096 ≠ 0 ∨ (!remote ∧ rd ≠ 0) then s.complete p stBADARG 0 0 0
    else if !s.named ctx then s.complete p stNOTFOUND 0 0 0
    else if ctx ≠ 0 ∧ world ≠ s.ctxWorld ctx then s.complete p stBADARG 0 0 0
    else if (s.ring q).isOpen then s.refuseFree p
    else if !remote then (s.openRing q world false ctx sn cn sb cb []).ok p
    else if !s.fpRuns 4 then s
    else match s.fwRead (p.val == 1) rd 0x21 with
      | (s, none) => s.complete p stFAULT 0 0 0
      | (s, some h) =>
        let n := (h.getD 0x20 0).toNat
        if 8 < n then s.complete p stBADARG 0 0 0
        else match s.fwRead (p.val == 1) rd (0x28 + n * 16) with
          | (s, none) => s.complete p stFAULT 0 0 0
          | (s, some bs) => match allSome ((List.range n).map (parseWindow bs)) with
            | none => s.complete p stBADARG 0 0 0
            | some ws => match s.ringSlot q ctx (bs.take 32) with
              | none => s.refuse p 3
              | some s => (s.openRing q world true ctx sn cn sb cb ws).ok p))

/-- RING_CLOSE (R339): untaken commands are discarded; it completes once the pair's taken command has. -/
def execRingClose (p : Fin 64) (s : State) : Out :=
  .next (s.command p 0x03 [] [(8, 5, 0)] true (fun e =>
    let q : Fin 64 := Fin.ofNat 64 (eBits e 8 5 0)
    let r := s.ring q
    if isControl q then s.complete p stBADARG 0 0 0
    else if !r.isOpen then s.complete p stNOTFOUND 0 0 0
    else if r.closing then (if r.closeBy = some p then s else s.complete p stNOTFOUND 0 0 0)
    else if r.taken.isNone then (s.closeRing q).ok p
    else s.setRing q { r with closing := true, closeBy := some p }))

/-! ### Jobs -/

/-- The operands of JOB_ARM and JOB_SUBMIT (R270, R339). -/
def jobFields : List (Nat × Nat × Nat) :=
  [(8, 4, 0), (8, 12, 8), (0xC, 31, 0), (0x10, 47, 0), (0x18, 47, 0), (0x20, 1, 0), (0x28, 1, 0)]

def entryDesc (p : Fin 64) (e : BitVec 512) : JobDesc :=
  { part := Fin.ofNat 32 (eBits e 8 4 0), kind := Fin.ofNat 32 (eBits e 8 12 8), tag := eWord e 0xC, arg := eAddr e 0x10, res := eAddr e 0x18,
    pri := Fin.ofNat 4 (eBits e 0x20 1 0), pair := p, opcode := BitVec.ofNat 8 (eOp e), cmdid := eCmd e,
    notify := Fin.ofNat 4 (eBits e 0x28 1 0) }

/-- A result header lies in a DRAM region of the job's context (R344); DRAM outside every region is context 0's (R466). -/
def State.headerOk (s : State) (ctx : BitVec 12) (a : Nat) : Bool :=
  match s.target a with
  | .dram _ => (match s.regionAt a with
    | some r => r.ctx == ctx
    | none => ctx == 0)
  | _ => false

/-- A command that names a kind of a partition: NOTFOUND, DENIED and the wrong sort come first (R278, R339, R341). -/
def State.withKind (s : State) (p : Fin 64) (pid kn : Fin 32) (queued : Bool) (k : Part → Kind → State) : State :=
  match s.livePart pid with
  | none => s.complete p stNOTFOUND 0 0 0
  | some x =>
    if !s.mayUse p x.ctx then s.complete p stDENIED 0 0 0
    else match x.kind kn with
      | none => s.complete p stNOTFOUND 0 0 0
      | some kd => if (kd.typ == .queued) != queued then s.refuse p 0x21 else k x kd

/-- Frame of the next launch of an armed kind. -/
def nextLaunch (x : Wheel) (k : Kind) : Word :=
  let n := if x.begun && decide (x.phase.toNat ≤ k.launch.toNat) && k.lastFrame != some x.frame then x.frame else x.frame + 1
  if 0 < frameDiff k.armFrame n then k.armFrame else n

/-- JOB_ARM (R276, R339, R344, R416). -/
def execJobArm (p : Fin 64) (s : State) : Out :=
  .next (s.command p 0x12 [] jobFields false (fun e =>
    let d := entryDesc p e
    if d.notify.val = 3 ∨ d.arg % 256 ≠ 0 ∨ d.res % 64 ≠ 0 then s.complete p stBADARG 0 0 0
    else s.withKind p d.part d.kind false (fun x k =>
      if !s.headerOk x.ctx d.res then s.complete p stBADARG 0 0 0
      else if x.failed then s.refuse p 0x20
      else
        let w := s.wheel x.wheel
        if k.armed then s.complete p stOK 0 (nextLaunch w k).toNat 0
        else
          let n : Word := if w.begun then w.frame + 2 else 1
          let s := s.setPart d.part { x.setKind { k with armed := true, armFrame := n, desc := some d, staged := none } with
            rearm := x.rearm.filter (· != d.kind) }
          s.complete p stOK 0 n.toNat 0)))

/-- JOB_DISARM (R339). -/
def execJobDisarm (p : Fin 64) (s : State) : Out :=
  .next (s.command p 0x13 [] [(8, 4, 0), (8, 12, 8)] false (fun e =>
    let pid : Fin 32 := Fin.ofNat 32 (eBits e 8 4 0)
    s.withKind p pid (Fin.ofNat 32 (eBits e 8 12 8)) false (fun x k =>
      ((s.unstage x k).setPart pid (x.setKind { k with armed := false, staged := none })).ok p)))

/-- JOB_SUBMIT (R280, R298, R339, R342, R416). -/
def execJobSubmit (p : Fin 64) (s : State) : Out :=
  .next (s.command p 0x14 [] jobFields false (fun e =>
    let d := entryDesc p e
    if d.notify.val = 3 ∨ d.arg % 256 ≠ 0 ∨ d.res % 64 ≠ 0 then s.complete p stBADARG 0 0 0
    else s.withKind p d.part d.kind true (fun x k =>
      let waiting := s.sched.jobs.filter (fun j => j.part == d.part && j.kind == d.kind && j.out == .empty && !j.launched)
      if !s.headerOk x.ctx d.res then s.complete p stBADARG 0 0 0
      else if x.failed then s.refuse p 0x20
      else if k.qdepth ≤ waiting.length ∨ holdMax ≤ (s.ring p).held.length then s.complete p stQFULL 0 0 0
      else
        let s := s.setPart d.part (x.setKind { k with nextSeq := k.nextSeq + 1 })
        let s := s.addJob { newJob d.part x k d true k.nextSeq with acceptLt := s.now }
        s.complete p stOK 0 k.nextSeq.toNat 0)))

/-- JOB_ABORT (R278, R286, R339). -/
def execJobAbort (p : Fin 64) (s : State) : Out :=
  .next (s.command p 0x15 [] [(8, 4, 0), (8, 12, 8), (0xC, 31, 0)] false (fun e =>
    let pid : Fin 32 := Fin.ofNat 32 (eBits e 8 4 0)
    let kn : Fin 32 := Fin.ofNat 32 (eBits e 8 12 8)
    match s.part pid with
    | none => s.complete p stNOTFOUND 0 0 0
    | some x =>
      if !s.mayUse p x.ctx then s.complete p stDENIED 0 0 0
      else match s.findJob pid kn (eWord e 0xC) with
        | none => s.complete p stNOTFOUND 0 0 0
        | some j =>
          if j.out ≠ .empty then s.complete p stALREADY j.out.code 0 0
          else
            let s := s.finalize j .aborted
            (if j.launched then s.stopJob j else s).complete p stABORTED 0 0 0))

end Sys2Proof.Machine
end

