-- ==== Sys2Proof/Machine/RingTime.lean ====
section
/-! DEFINITION. Ring commands on wheels, time, triggers, captures, accounting and the log (R234, R235, R242 to R247, R257,
R260, R297, R339, R366, R642, R643). -/

namespace Sys2Proof.Machine

/-- WHEEL_SET (R257, R260): every condition is evaluated before a register is written. -/
def execWheelSet (p : Fin 64) (s : State) : Out :=
  .next (s.command p 0x18 [5] [(8, 1, 0), (8, 2, 2), (8, 3, 3), (8, 8, 4), (8, 15, 12), (0xC, 31, 0)] true (fun e =>
    let w : Fin 4 := Fin.ofNat 4 (eBits e 8 1 0)
    let en := eBits e 8 2 2
    let per := eWord e 0xC
    let v : Word := BitVec.ofNat 32 (en * 2 ^ 31 + eBits e 8 3 3 * 2 ^ 30 + eBits e 8 8 4 * 2 ^ 21 + eBits e 8 15 12 * 2 ^ 16)
    let same := v == s.whlCfg w && per == (s.wheel w).period
    if s.time.frozen || (s.admitted w && !(en == 1 && same)) then s.refuseFree p
    else if en = 0 then ((s.setReg .whl 0 (Reg.WHL_PERw w) per).writeWhlCfg w v).ok p
    else if (s.wheel w).live then s.ok p
    else if !s.enableOk w v per.toNat then s.refuseFree p
    else ((s.setReg .whl 0 (Reg.WHL_PERw w) per).armWheel w v).ok p))

/-! ### TIME_SET -/

/-- One action of TIME_SET; an action above 6 is outside its range. -/
def State.timeSet (s : State) (p : Fin 64) (action : Nat) (k : Fin 4 → BitVec 64 → State) : State :=
  s.command p 0x19 [5] [(8, 1, 0), (8, 7, 4), (0x10, 63, 0)] true (fun e =>
    if 6 < eBits e 8 7 4 then s.complete p stBADARG 0 0 0
    else if eBits e 8 7 4 = action then k (Fin.ofNat 4 (eBits e 8 1 0)) (BitVec.ofNat 64 (eAddr e 0x10))
    else s)

/-- A 64-bit value that fits in a signed 32-bit register. -/
def fits32 (v : BitVec 64) : Bool := decide (-(2 ^ 31 : Int) ≤ v.toInt) && decide (v.toInt < 2 ^ 31)

/-- TIME_SET action 0 (R235). -/
def execTimeSetEnable (p : Fin 64) (s : State) : Out := .next (s.timeSet p 0 (fun d _ => (s.domEnable d true).ok p))

/-- TIME_SET action 1 (R235). -/
def execTimeSetDisable (p : Fin 64) (s : State) : Out :=
  .next (s.timeSet p 1 (fun d _ =>
    if s.domEnabled d && s.bound d then (s.domEnable d false).refuseFree p else (s.domEnable d false).ok p))

/-- TIME_SET action 2 (R234). -/
def execTimeSetRate (p : Fin 64) (s : State) : Out :=
  .next (s.timeSet p 2 (fun d v =>
    if fits32 v then (s.setReg .tu 0 (Reg.TU_DdRATE d) (v.setWidth 32)).ok p else s.complete p stBADARG 0 0 0))

/-- TIME_SET action 3 (R234). -/
def execTimeSetSlew (p : Fin 64) (s : State) : Out :=
  .next (s.timeSet p 3 (fun d v => if fits32 v then (s.domSlew d v.toInt).ok p else s.complete p stBADARG 0 0 0))

/-- TIME_SET action 4 (R235); a step is traced (R366). -/
def execTimeSetStep (p : Fin 64) (s : State) : Out :=
  .next (s.timeSet p 4 (fun d v =>
    if s.bound d then (s.domStep d v.toInt).refuseFree p
    else ((s.domStep d v.toInt).trace 5 0x0502 [d, v.toNat % 2 ^ 32, v.toNat / 2 ^ 32]).ok p))

/-- TIME_SET action 5 (R235): firmware writes the SET value and then loads it. -/
def execTimeSetLoad (p : Fin 64) (s : State) : Out :=
  .next (s.timeSet p 5 (fun d v =>
    let s := s.setReg2 .tu 0 (Reg.TU_DdSETL d) (Reg.TU_DdSETH d) v.toNat
    if s.bound d then (s.domLoad d v).refuseFree p else (s.domLoad d v).ok p))

/-- TIME_SET action 6 (R236, R339): domainNumber 0 to 127. -/
def execTimeSetDomainNumber (p : Fin 64) (s : State) : Out :=
  .next (s.timeSet p 6 (fun d v =>
    if v.toNat < 128 then (s.setFld .tu 0 (Reg.TU_DdCTRL d) 6 0 v.toNat).ok p else s.complete p stBADARG 0 0 0))

/-! ### Triggers and captures -/

/-- TRIG_SET (R242, R243, R339). -/
def execTrigSet (p : Fin 64) (s : State) : Out :=
  .next (s.command p 0x1A [5] [(8, 4, 0), (0xC, 31, 22), (0xC, 15, 0), (0x10, 31, 0), (0x14, 31, 0), (0x18, 31, 0), (0x1C, 31, 0), (0x20, 15, 0)] true (fun e =>
    let n : Fin 32 := Fin.ofNat 32 (eBits e 8 4 0)
    let v := eWord e 0xC
    if trgEn (s.trgCfg n) then (if trgEn v then s else s.trigDisable n).complete p stOK 0 1 0
    else
      let s := s.setReg .tu 0 (Reg.TU_TRGSTARTLn n) (eWord e 0x10)
      let s := s.setReg .tu 0 (Reg.TU_TRGSTARTHn n) (eWord e 0x14)
      let s := s.setReg .tu 0 (Reg.TU_TRGPERn n) (eWord e 0x18)
      let s := s.setReg .tu 0 (Reg.TU_TRGWIDn n) (eWord e 0x1C)
      let s := s.setReg .tu 0 (Reg.TU_TRGADVn n) (eWord e 0x20)
      let s := s.writeTrig n v
      if trgEn (s.trgCfg n) = trgEn v then s.ok p else s.refuseFree p))

/-- CAP_SET (R248, R339). -/
def execCapSet (p : Fin 64) (s : State) : Out :=
  .next (s.command p 0x1B [5] [(8, 4, 0), (0xC, 31, 25), (0xC, 4, 0)] true (fun e =>
    let n : Fin 32 := Fin.ofNat 32 (eBits e 8 4 0)
    let v := eWord e 0xC
    if capOk v then (s.writeCap n v).ok p else (s.writeCap n v).refuseFree p))

/-- gPTP state of a domain's instance (R643); FP5's restart puts every instance in holdover (R362). -/
def State.gptpShown (s : State) (d : Fin 4) : Nat :=
  if s.fw.gptpState.get d 0 ≠ 0 ∧ (s.dom d).holdover then 3 else s.fw.gptpState.get d 0

/-- STATEd of TIME_READ (R643). -/
def State.timeState (s : State) (d : Fin 4) : Nat :=
  b2n (s.domEnabled d) * 2 ^ 31 + b2n (s.bound d) * 2 ^ 30 + b2n ((s.dom d).slew != 0) * 2 ^ 29 +
    s.fld .tu 0 (Reg.TU_DdCTRL d) 6 0 * 2 ^ 16 + s.gptpShown d

/-- TIME_READ (R339, R642, R643). -/
def execTimeRead (p : Fin 64) (s : State) : Out :=
  .next (s.command p 0x1C [5] [(8, 47, 0)] true (fun e =>
    if eAddr e 8 % 64 ≠ 0 then s.complete p stBADARG 0 0 0
    else s.copyOut p (eAddr e 8) (leBytes 8 s.now ++ (List.finRange 4).flatMap (fun d => leBytes 8 (s.dom d).time.toNat) ++
      (List.finRange 4).flatMap (fun d => leBytes 4 (s.timeState d)) ++ leBytes 8 0) 0 0))

/-- CAP_READ (R247, R339): the queued stamps move into the buffer, oldest first. -/
def execCapRead (p : Fin 64) (s : State) : Out :=
  .next (s.command p 0x1D [5] [(8, 4, 0), (0x10, 47, 0)] true (fun e =>
    let n : Fin 32 := Fin.ofNat 32 (eBits e 8 4 0)
    let x := s.cap n
    if eAddr e 0x10 % 64 ≠ 0 then s.complete p stBADARG 0 0 0
    else match s.fwWrite (p.val == 1) (eAddr e 0x10) (x.fifo.flatMap (fun f => leBytes 4 f.1.toNat)) with
      | (s', true) => (s'.setCap n { s'.cap n with fifo := [] }).complete p stOK 0 x.fifo.length 0
      | (s', false) => if x.fifo = [] then s.ok p else s'.complete p stFAULT 0 0 0))

/-! ### Accounting and log -/

/-- ACCT_READ (R297, R341, R641). -/
def execAcctRead (p : Fin 64) (s : State) : Out :=
  .next (s.command p 0x21 [2] [(8, 11, 0), (0x10, 47, 0)] false (fun e =>
    let ctx : BitVec 12 := BitVec.ofNat 12 (eBits e 8 11 0)
    if eAddr e 0x10 % 64 ≠ 0 then s.complete p stBADARG 0 0 0
    else if !s.mayUse p ctx then s.complete p stDENIED 0 0 0
    else if !s.named ctx then s.complete p stNOTFOUND 0 0 0
    else s.copyOut p (eAddr e 0x10) (s.acct ctx).bytes 0 0))

/-- LOG_CFG (R339, R366). -/
def execLogCfg (p : Fin 64) (s : State) : Out :=
  .next (s.command p 0x22 [7] [(8, 15, 0)] true (fun e =>
    let m : BitVec 16 := BitVec.ofNat 16 (eBits e 8 15 0)
    (({ s with fw := { s.fw with traceMask := m } }).store32 (dirBase + 0x20) (m.setWidth 32)).ok p))

end Sys2Proof.Machine
end

