-- ==== Sys2Proof/Machine/Watchdog.lean ====
section
/-! DEFINITION. Watchdogs and restarts of the firmware processors and the management core (R358 to R363, R369, R420, R479). -/

namespace Sys2Proof.Machine

/-- Contexts with work that waits on firmware (R361). -/
def State.affectedNow (s : State) : List (BitVec 12) :=
  let rings := (s.fw.rings.filter (fun e => e.2.isOpen && (e.2.taken.isSome || s.load32 (ringCb e.1 + 0x18) != e.2.sqHead))).map (·.2.ctx)
  let jobs := (s.sched.jobs.filter (fun j => j.queued && j.out == .empty && !j.launched)).map (·.ctx)
  (rings ++ jobs ++ s.sched.mailbox.map (·.ctx)).eraseDups

/-- A firmware processor is reset and starts again (R358, R359, R361). FP5's domains go into holdover (R362). -/
def State.restartFp (s : State) (k : Fin 8) : State :=
  let x := s.fp k
  let s := s.setFp k { x with st := .starting, restarts := x.restarts + 1, resetAt := s.now, affected := s.affectedNow }
  let s := (s.raise .fw 0 1 0 0).trace 8 0x0002 [k, x.lastKick % 2 ^ 32]
  if k = 5 then (List.finRange 4).foldl (fun (s : State) (d : Fin 4) => if s.domEnabled d then s.setDom d { s.dom d with holdover := true } else s) s
  else s

/-- WATCHDOG_KICK (R358, R368): `self` says that FPk itself writes. -/
def execWatchdogKick (src : Src) (self : Bool) (k : Fin 8) (s : State) : Out :=
  .next (if self then (if s.fpRuns k then s.setFp k { s.fp k with lastKick := s.now } else s)
    else s.regCommand src .fw 0 (Reg.FW_WDKICKk k) (vehRegs 0x1300000) (fun s => s.ignoredWrite .fw 0))

/-- WATCHDOG_EXPIRE (R358): 250 µs without a kick. -/
def execWatchdogExpire (k : Fin 8) (s : State) : Out :=
  let x := s.fp k
  .next (if s.fpRuns k && decide (Nat.max x.lastKick x.runAt + 250000 ≤ s.now) then s.restartFp k else s)

/-- FP_EXCEPTION (R358, R420). -/
def execFpException (k : Fin 8) (s : State) : Out := .next (if s.fpRuns k then s.restartFp k else s)

/-- FP_RESTART (R369): FW_FPCTRL4 from the trusted world only. -/
def execFpRestart (src : Src) (k : Fin 8) (v : Word) (s : State) : Out :=
  .next (s.regCommand src .fw 0 (Reg.FW_FPCTRLk k) (vehRegs 0x1300000) (fun s =>
    if !bitOf v 0 then s
    else if k = 4 ∧ !src.world then s.ignoredWrite .fw 0
    else s.guarded src .fw 0 true (fun s => if s.fpRuns k then s.restartFp k else s)))

/-- FP4's image as loaded is measured (R479): the digest in SEC_FP4MEASi and one more restart. -/
def State.measureFp4 (s : State) (digest : List Word) : State :=
  upTo 8 (fun i s => s.setReg .sec 0 (Reg.SEC_FP4MEASi i) (digest.getD i 0)) (s.setReg .sec 0 Reg.SEC_FP4RST
    ((s.reg .sec 0 Reg.SEC_FP4RST + 1) &&& 0xFFFF))

/-- Every record of the mailbox is posted, in order (R361). -/
def State.postMailbox : Nat → State → State
  | 0, s => s
  | n + 1, s => match s.sched.mailbox with
    | [] => s
    | j :: t => State.postMailbox n (s.postRecord j t)

/-- The charge of a restart (R361). -/
def State.chargeRestart (s : State) (ctxs : List (BitVec 12)) : State :=
  ctxs.foldl (fun (s : State) (c : BitVec 12) =>
    s.setAcct c (fun a => { a with preempts := satAdd a.preempts 1, fwpreempts := satAdd a.fwpreempts 1 })) s

/-- A restarted processor writes running (R359, R361, R362, R441). -/
def State.fpBack (s : State) (k : Fin 8) : State :=
  let x := s.fp k
  let all := (x.affected ++ s.affectedNow).eraseDups
  let n := if k = 2 then s.mbCount else 0
  let s := (s.setFp k { x with st := .running, runAt := s.now, affected := [] }).trace (Fin.ofNat 9 k.val) 0x0001
    [k, s.fixed.fwVer.toNat, x.restarts.toNat]
  let s := (if k = 7 then s.logFlush else s).payPulses (Fin.ofNat 9 k.val)
  let s := if k = 2 then State.postMailbox s.sched.mailbox.length s else s
  (s.chargeRestart all).trace (Fin.ofNat 9 k.val) 0x0003 [k, (s.now - x.resetAt) / 1000, n]

/-- The digest of FP4's image in the manifest (R478, R479). -/
def State.fp4Digest (s : State) : List Byte := (s.fixed.fwDig.drop 160).take 32

/-- FP_RUNNING (R359, R361, R362, R479): `digest` is the SHA-256 of FP4's image as loaded; it counts for FP4 only. -/
def execFpRunning (k : Fin 8) (digest : List Word) (s : State) : Out :=
  let x := s.fp k
  .next (if x.st != .starting || decide (x.resetAt + 2000000 < s.now) then s
    else if k = 4 then
      let s := s.measureFp4 digest
      if digest.flatMap (fun (w : Word) => leBytes 4 w.toNat) = s.fp4Digest then s.fpBack 4
      else ((s.raise .sec 0 2 0 0).setFp 4 { x with st := .reset }).packageFail
    else s.fpBack k)

/-- FP_START_TIMEOUT (R359). -/
def execFpStartTimeout (k : Fin 8) (s : State) : Out :=
  let x := s.fp k
  .next (if (x.st == .starting) && decide (x.resetAt + 2000000 ≤ s.now) then
    ((s.setFp k { x with st := .held }).raise .fw 0 3 0 0).packageFail else s)

/-- MC_WATCHDOG_KICK (R363, R368). -/
def execMcWatchdogKick (src : Src) (self : Bool) (s : State) : Out :=
  .next (if self then (if s.fw.mcRunning then { s with fw := { s.fw with mcKick := s.now } } else s)
    else s.regCommand src .fw 0 Reg.FW_MCWDKICK (vehRegs 0x1300000) (fun s => s.ignoredWrite .fw 0))

/-- MCWDOG: class F, READY falls, and the management core is not restarted alone (R363, R420). -/
def State.mcFail (s : State) : State :=
  ((({ s with fw := { s.fw with mcRunning := false } }).syncFwState).raise .fw 0 4 0 0).packageFail

/-- MC_WATCHDOG_EXPIRE (R363): 1 ms without a kick. -/
def execMcWatchdogExpire (s : State) : Out :=
  .next (if s.fw.mcRunning && decide (s.fw.mcKick + 1000000 ≤ s.now) then s.mcFail else s)

/-- MC_SHADOW_MISMATCH (R420): handled as MCWDOG. -/
def execMcShadowMismatch (s : State) : Out := .next (if s.fw.mcRunning then s.mcFail else s)

end Sys2Proof.Machine
end

