-- ==== Sys2Proof/Machine/WoadeOps.lean ====
section
/-! DEFINITION. Shared operations of the Woade links: routes, flows, messages, queues (R592 to R608). -/

namespace Sys2Proof.Machine

def State.setWde (s : State) (x : WoadeState) : State := { s with wde := x }
def State.wport (s : State) (p : Fin 8) : WPort := s.wde.ports.get p WPort.reset
def State.setWport (s : State) (p : Fin 8) (x : WPort) : State := s.setWde { s.wde with ports := s.wde.ports.set p x }
def State.wflow (s : State) (f : Fin 256) : Option WFlow := if h : f.val < 255 then s.wde.flows.get? ⟨f.val, h⟩ else none
def State.setWflow (s : State) (f : Fin 256) (x : WFlow) : State :=
  if h : f.val < 255 then s.setWde { s.wde with flows := s.wde.flows.set ⟨f.val, h⟩ x } else s
def State.setWsq (s : State) (q : Fin 16) (x : WSq) : State := s.setWde { s.wde with sqs := s.wde.sqs.set q x }
def State.setWrq (s : State) (q : Fin 64) (x : WRq) : State := s.setWde { s.wde with rqs := s.wde.rqs.set q x }

/-- VD_WOADE is on and clocked; while it is off every port is down. -/
def State.wdeUp (s : State) : Bool := s.up 102
def State.wportUp (s : State) (p : Fin 8) : Bool := s.wdeUp && (s.wport p).st == 2

/-- A WDE_ error with its port and queue (R611). -/
def State.wdeRaise (s : State) (bit port queue : Nat) : State := s.raise .wde 0 bit 0 (port * 256 + queue)

/-! ### Topology and routes (R592, R594) -/

def State.wdeId (s : State) : BitVec 14 := BitVec.ofNat 14 (s.fld .wde 0 Reg.WDE_ID 13 0)
def State.wdeDomain (s : State) : Fin 4 := Fin.ofNat 4 (s.fld .wde 0 Reg.WDE_TOPO 1 0)

/-- X, Y and Z of a device ID, and the three dimensions. -/
def devCoords (d : BitVec 14) : List Nat := [bitsOf d 13 9, bitsOf d 8 4, bitsOf d 3 0]
def State.wdeDims (s : State) : List Nat :=
  [s.fld .wde 0 Reg.WDE_TOPO 28 24 + 1, s.fld .wde 0 Reg.WDE_TOPO 20 16 + 1, s.fld .wde 0 Reg.WDE_TOPO 11 8 + 1]

/-- Where a message goes: to this device, out of a port, or nowhere. -/
inductive WHop where
  | self
  | port (p : Fin 8)
  | nowhere
  deriving DecidableEq, Repr

/-- The first dimension with a difference decides the port (R594). -/
def torusHop : Nat → List (Nat × Nat × Nat) → WHop
  | _, [] => .self
  | i, (dst, own, dim) :: t =>
    let d := (dst + dim - own % dim) % dim
    if d = 0 then torusHop (i + 1) t
    else .port (Fin.ofNat 8 (if d ≤ dim / 2 then 2 * i else 2 * i + 1))

def State.wdeRoute (s : State) (dst : BitVec 14) : WHop :=
  if dst = s.wdeId then .self
  else if s.wde.pair.enabled ∧ dst = s.wde.pair.partner then .port (if s.wportUp 6 then 6 else 7)
  else
    let xs := (devCoords dst).zip ((devCoords s.wdeId).zip s.wdeDims)
    if xs.all (fun e => decide (e.1 < e.2.2)) then
      (match torusHop 0 xs with
        | .port p => .port p
        | _ => .nowhere)
    else .nowhere

/-! ### Messages (R600 to R602) -/

/-- Flits of a message (R600), and those of one in a send buffer that are still to leave. -/
def flitsOf (len : Nat) : Nat := (len + 16 + 239) / 240
def WMsg.len (m : WMsg) : Nat := m.bytes.length - 16
def WMsg.left (m : WMsg) : Nat := flitsOf m.len - m.off

/-- Header and payload of a message. -/
def msgBytes (src dst : BitVec 14) (flow : Fin 256) (rq : Fin 64) (seq : BitVec 16) (data : List Byte) : List Byte :=
  let h := leBytes 4 (src.toNat * 2 ^ 16 + dst.toNat) ++ leBytes 4 (flow.val * 2 ^ 24 + rq.val * 2 ^ 16 + data.length) ++ leBytes 4 seq.toNat
  h ++ leBytes 4 (crc32c (h ++ data)).toNat ++ data

/-- Room in a flow's send buffer of 64 KiB (R601). -/
def WFlow.room (x : WFlow) (n : Nat) : Bool := decide ((x.buf.map (·.len)).foldl (· + ·) 0 + n ≤ 65536)

/-- A send-queue message has ended: its descriptor waits for its write-back (R603, R608). -/
def State.sqEnd (s : State) (q : Option (Fin 16)) (err : Nat) : State :=
  match q with
  | none => s
  | some q => match s.wde.sqs.get? q with
    | some x => s.setWsq q { x with done := x.done ++ [(err, s.now32)] }
    | none => s

/-- A message enters its flow's send buffer, or its receive queue's when this device is the destination (R594, R600, R601). -/
def State.wdeEnqueue (s : State) (f : Fin 256) (x : WFlow) (data : List Byte) (sq : Option (Fin 16)) : State :=
  let y := { x with seq := x.seq + 1 }
  match s.wdeRoute x.dev with
  | .self =>
    let m : WRx := ⟨msgBytes s.wdeId x.dev f x.rq x.seq data, 0, s.now32⟩
    let s := s.setWflow f y
    (s.setWde { s.wde with ready := s.wde.ready ++ [m] }).sqEnd sq 0
  | _ => s.setWflow f { y with buf := x.buf ++ [⟨msgBytes s.wdeId x.dev f x.rq x.seq data, 0, sq, s.now⟩] }

/-- The message engine as a requester: agent 96 with the attributes of its flow or queue (R601). -/
def State.wdeSrc (s : State) (ctx : BitVec 12) (cls : Fin 8) : Src := ⟨6, 96, s.ctxWorld ctx, ctx, s.gen ctx, cls, false⟩

/-- A row of a DMA descriptor of TYPE 2 as a message (R594, R601, R602): none while the buffer is full; otherwise the state and the
failure code. -/
def State.wdeAccept (s : State) (src : Src) (dst : BitVec 14) (rq : Fin 64) (f : Fin 256) (data : List Byte) : Option (State × Option Nat) :=
  if !s.wdeUp then some (s, some 2)
  else match s.wflow f with
    | none => some (s, some 3)
    | some x =>
      if x.ctx ≠ src.ctx ∨ s.gen x.ctx ≠ src.gen ∨ x.dev ≠ dst ∨ x.rq ≠ rq then some (s, some 3)
      else if s.wdeRoute dst = .nowhere then some (s, some 1)
      else if !x.room data.length then none
      else some (s.wdeEnqueue f x data none, none)

/-! ### Send queues (R603) -/

/-- Descriptors that the device holds are taken in order while their messages find room. -/
def State.sqTake : Nat → State → Fin 16 → State
  | 0, s, _ => s
  | k + 1, s, q =>
    match s.wde.sqs.get? q with
    | none => s
    | some x => match s.wflow x.flow with
      | none => s
      | some fl =>
        let src := s.wdeSrc fl.ctx fl.cls
        if x.st ≠ 1 ∨ 2 ^ x.n ≤ x.next - x.wb then s
        else match s.unitRead src (x.base + x.next % 2 ^ x.n * 16) 16 with
          | (s, none) => s
          | (s, some d) =>
            let len := leNat ((d.drop 6).take 2)
            let took (s : State) : State := match s.wde.sqs.get? q with
              | some x => s.setWsq q { x with next := x.next + 1 }
              | none => s
            if leNat ((d.drop 8).take 4) < 2 ^ 31 then s
            else if len = 0 ∨ 4096 < len then State.sqTake k ((took s).sqEnd (some q) (if len = 0 then 3 else 2)) q
            else if s.wdeRoute fl.dev = .nowhere then State.sqTake k ((took s).sqEnd (some q) 3) q
            else if !fl.room len then s
            else match s.unitRead src (leNat (d.take 6)) len with
              | (s, none) => State.sqTake k ((took s).sqEnd (some q) 4) q
              | (s, some bs) => State.sqTake k ((took s).wdeEnqueue x.flow fl bs (some q)) q

/-- The queue checks its next descriptor (R531, R603). -/
def State.sqCheck (s : State) (q : Fin 16) : State :=
  match s.wde.sqs.get? q with
  | some x => if s.wdeUp then State.sqTake (2 ^ x.n) s q else s
  | none => s

/-! ### Sending (R595, R597, R599) -/

/-- Flit `i` of a message: 240 bytes of header and payload. -/
def WMsg.flit (m : WMsg) (src dst : BitVec 14) (flow : Fin 256) (sched : Bool) (vc : Fin 2) (i : Nat) : Flit :=
  { src := src, dst := dst, flow := flow, sched := sched, vc := vc, first := i == 0, last := i + 1 == flitsOf m.len,
    data := (m.bytes.drop (240 * i)).take 240 }

/-- Up to `k` flits of a buffer leave: what remains, the send queues of messages whose last flit has left, and the flits sent. -/
def takeFlits (now : Nat) (mk : WMsg → Nat → Flit) : List WMsg → Nat → List WMsg × List (Option (Fin 16)) × List Flit
  | [], _ => ([], [], [])
  | m :: t, k =>
    if k = 0 then (m :: t, [], [])
    else if m.left ≤ k then
      let (r, d, c) := takeFlits now mk t (k - m.left)
      (r, m.sq :: d, (List.range m.left).map (fun i => mk m (m.off + i)) ++ c)
    else ({ m with off := m.off + k, wait := now } :: t, [], (List.range k).map (fun i => mk m (m.off + i)))

/-- Up to `n` flits of a flow leave: the state and the flits sent. -/
def State.sendFlits (s : State) (f : Fin 256) (n : Nat) (sched : Bool) (vc : Fin 2) : State × List Flit :=
  match s.wflow f with
  | none => (s, [])
  | some x =>
    let (rest, done, sent) := takeFlits s.now (fun m i => m.flit s.wdeId x.dev f sched vc i) x.buf n
    let s := s.setWflow f { x with buf := rest }
    (done.foldl (fun (s : State) q => s.sqEnd q 0) s, sent)

/-- Flits counted out of a port. -/
def State.countTx (s : State) (p : Fin 8) (n : Nat) : State := s.count .wdp p Reg.WDP_TXFLITp n

/-- The schedule entry of a port in a slot. -/
def State.wentry (s : State) (p : Fin 8) (j : Nat) : Option WEntry :=
  if h : j < 1024 then s.wde.sched.get? (p, ⟨j, h⟩) else none

/-- Flows with a local entry on a port. -/
def State.portFlows (s : State) (p : Fin 8) : List (Fin 256) :=
  ((s.wde.sched.filter (fun e => e.1.1 == p && !e.2.transit)).map (fun e => e.2.flow)).eraseDups

/-- The virtual channel of a flit that leaves by a port: 1 from where it crosses coordinate 0 of a dimension (R599). That is the link
between the last coordinate and 0: DEDUCED, log entry 29. -/
def State.wdeVc (s : State) (p : Fin 8) (vc : Fin 2) : Fin 2 :=
  if p.val < 6 then
    let own := (devCoords s.wdeId).getD (p.val / 2) 0
    let dim := s.wdeDims.getD (p.val / 2) 1
    if (p.val % 2 = 0 ∧ own + 1 = dim) ∨ (p.val % 2 = 1 ∧ own = 0) then 1 else vc
  else vc

/-- Flits that each virtual channel of a port may still send (R599). -/
abbrev VcRoom := Nat × Nat
def VcRoom.on (r : VcRoom) (vc : Fin 2) : Nat := if vc = 0 then r.1 else r.2
def VcRoom.less (r : VcRoom) (vc : Fin 2) (n : Nat) : VcRoom := if vc = 0 then (r.1 - n, r.2) else (r.1, r.2 - n)

/-- Transit flits of a port leave in order, up to `n`, as their channels have credits: what stays, the flits sent, and the room left. -/
def takeTransit (p : Fin 8) : List (Fin 8 × Flit) → Nat → VcRoom → List (Fin 8 × Flit) × List Flit × VcRoom
  | [], _, r => ([], [], r)
  | e :: t, n, r =>
    if e.1 = p ∧ 0 < n ∧ 0 < r.on e.2.vc then
      let (k, fs, r) := takeTransit p t (n - 1) (r.less e.2.vc 1)
      (k, e.2 :: fs, r)
    else
      let (k, fs, r) := takeTransit p t n r
      (e :: k, fs, r)

/-- Unscheduled traffic of a port in a slot: transit flits first, then local flows in flow order (log entry 29); a suspended port
carries the flits of its scheduled flows here too (R596). -/
def State.sendUnscheduled (s : State) (p : Fin 8) (n : Nat) (room : VcRoom) : State × List Flit × VcRoom :=
  let (kept, fs, room) := takeTransit p s.wde.transit n room
  let s := s.setWde { s.wde with transit := kept }
  let susp := (s.wport p).suspended
  let vc := s.wdeVc p 0
  (List.finRange 256).foldl (fun (r : State × List Flit × VcRoom) (f : Fin 256) =>
    match r.1.wflow f with
    | none => r
    | some x =>
      let here : Bool := if x.sched then susp && (r.1.portFlows p).contains f else r.1.wdeRoute x.dev == .port p
      if here then
        let (s, c) := r.1.sendFlits f (Nat.min (n - r.2.1.length) (r.2.2.on vc)) false vc
        (s, r.2.1 ++ c, r.2.2.less vc c.length)
      else r) (s, fs, room)

/-- The heartbeat of a pair port (R606). -/
def State.heartbeat (s : State) (p : Fin 8) : Option Heartbeat :=
  if s.wde.pair.enabled ∧ 6 ≤ p.val then
    some ⟨s.wdeId, BitVec.ofNat 3 s.pkg, s.fld .pwr 0 Reg.PWR_STAT 0 0 == 1, s.reg .wde 0 Reg.WDE_HBWORD⟩
  else none

/-- One port sends in a slot: at most 96 frames (R595): the scheduled flow first, then unscheduled traffic within the credits of each virtual
channel, of which `back` came back (R599). Slot 0 begins with the maintenance flit (R596). -/
def State.portSlot (s : State) (p : Fin 8) (j stamp : Nat) (back : Nat × Nat) (arrived : List (Fin 8 × Flit)) : State :=
  if !s.wportUp p then s
  else
    let used := if j = 0 then 1 else 0
    let (s, fs) : State × List Flit := match s.wentry p j with
      | some e =>
        if (s.wport p).suspended then (s, [])
        else if e.transit then (s, ((arrived.filter (fun (a : Fin 8 × Flit) => a.1 == e.inport && a.2.flow == e.flow)).map (·.2)).take 96)
        else s.sendFlits e.flow 96 true 0
      | none => (s, [])
    let o := (s.wport p).cred
    let room : VcRoom := (64 - o.1 + back.1, 64 - o.2 + back.2)
    let (s, more, left) := s.sendUnscheduled p (96 - used - fs.length) room
    let x := s.wport p
    let m : Option Maint := if j = 0 then some ⟨stamp, x.got, s.heartbeat p⟩ else x.maint
    let s := s.setWport p { x with cred := (Nat.min 64 (64 - left.1), Nat.min 64 (64 - left.2)), maint := m, out := fs ++ more,
                                   replay := (more.reverse ++ x.replay).take 256 }
    s.countTx p (used + fs.length + more.length)

/-! ### Receiving (R604) -/

/-- A message is lost: RQLOST of its queue and MSGLOST. -/
def State.msgLost (s : State) (rq n port : Nat) : State := (s.count .wde 0 (Reg.WDE_RQLOSTq rq) n).wdeRaise 5 port rq

/-- A flit for this device joins its message; the last one completes it. A message whose first flit comes before the last flit of
the one before ends that one, and a flit whose message's first one was lost belongs to none. -/
def State.joinFlit (s : State) (p : Fin 8) (f : Flit) : State :=
  let key := (f.src, f.flow)
  let had := s.wde.partials.get key []
  if !f.first && had == [] then s
  else
  let s := if f.first && had != [] then s.setWde { s.wde with ready := s.wde.ready ++ [⟨had, p, s.now32⟩] } else s
  let bs := (if f.first then [] else had) ++ f.data
  if f.last then s.setWde { s.wde with partials := s.wde.partials.erase key, ready := s.wde.ready ++ [⟨bs, p, s.now32⟩] }
  else s.setWde { s.wde with partials := s.wde.partials.set key bs }

/-- Messages missing from a flow by its SEQ (R604): the count, and the state that expects the next one. -/
def State.seqCheck (s : State) (src : BitVec 14) (flow : Fin 256) (seq : BitVec 16) : State × Nat :=
  let gap := match s.wde.expect.get? (src, flow) with
    | some e => (seq - e).toNat
    | none => 0
  (s.setWde { s.wde with expect := s.wde.expect.set (src, flow) (seq + 1) }, gap)

/-- A discarded message that carries the SEQ expected is not counted again by the next one's jump. DESIGN CHOICE, log entry 122. -/
def State.seqSkip (s : State) (src : BitVec 14) (flow : Fin 256) (seq : BitVec 16) : State :=
  if s.wde.expect.get? (src, flow) = some seq then s.setWde { s.wde with expect := s.wde.expect.set (src, flow) (seq + 1) } else s

end Sys2Proof.Machine
end

