-- ==== Sys2Proof/Machine/Woade.lean ====
section
/-! DEFINITION. Woade commands: rounds and slots, flits and messages, queues, ports, the pair, configuration (R590 to R613). -/

namespace Sys2Proof.Machine

/-! ### Rounds and slots (R595 to R598) -/

def State.slotTime (s : State) : Nat := (s.dom s.wdeDomain).time.toNat
def State.roundNow (s : State) : Nat := s.slotTime / 1024000
def State.slotNow (s : State) : Nat := s.slotTime % 1024000 / 1000

/-- WOADE_ROUND_START (R595, R596, R598): a pending schedule whose round has come takes effect, and so do suspensions. -/
def execWoadeRoundStart (s : State) : Out :=
  .next (if !s.wdeUp || s.roundNow == s.wde.round then s
    else
      let due : Bool := match s.wde.pending with
        | some (n, _) => decide (0 ≤ (BitVec.ofNat 32 s.roundNow - n).toInt)
        | none => false
      let s := match s.wde.pending with
        | some (_, t) => if due then (s.setWde { s.wde with sched := t, pending := none }).setReg .wde 0 Reg.WDE_NEXTRND 0xFFFFFFFF else s
        | none => s
      let ports := s.wde.ports.map (fun (e : Fin 8 × WPort) => (e.1, { e.2 with suspended := e.2.susNext }))
      let s := s.setWde { s.wde with round := s.roundNow, slot := 1024, ports := ports }
      s.setReg .wde 0 Reg.WDE_ROUND (BitVec.ofNat 32 s.roundNow))

/-- PARTNERLOSS (R606). -/
def State.partnerLoss (s : State) : State :=
  if !s.wde.pair.enabled || s.wde.pair.lost then s
  else (s.setWde { s.wde with pair := { s.wde.pair with lost := true, alive := false } }).wdeRaise 6 0 0

/-- At the end of slot 0 the heartbeats of the round are known (R606). -/
def State.heartbeatRound (s : State) : State :=
  let x := s.wde.pair
  if !x.enabled then s
  else if x.seen then
    let good := if x.pkg.toNat = pkREADY then Nat.min (x.good + 1) x.hbmiss else 0
    let back : Bool := x.hbmiss ≤ good
    s.setWde { s.wde with pair := { x with count := 0, seen := false, good := good, alive := x.alive || back, lost := x.lost && !back } }
  else
    let n := Nat.min (x.count + 1) 15
    let s := s.setWde { s.wde with pair := { x with count := n, good := 0 } }
    if x.hbmiss ≤ n then s.partnerLoss else s

/-- A scheduled flit for another device that arrived in the last slot (R596, R597): it goes with a transit entry of this slot; on a
suspended port it joins unscheduled traffic; without an entry it is discarded. -/
def State.sortArrival (s : State) (j : Nat) (a : Fin 8 × Flit) : State :=
  match (List.finRange 8).find? (fun p => match s.wentry p j with
    | some e => e.transit && e.inport == a.1 && e.flow == a.2.flow
    | none => false) with
  | none => s.wdeRaise 8 a.1 0
  | some p => if (s.wport p).suspended && s.wportUp p then s.setWde { s.wde with transit := s.wde.transit ++ [(p, a.2)] } else s

/-- WOADE_SLOT_START (R595 to R597, R599): `back` gives, for each port, the credits of its two virtual channels that come back by the end of
the slot. -/
def execWoadeSlotStart (back : List (Nat × Nat)) (s : State) : Out :=
  .next (let j := s.slotNow
    if !s.wdeUp || s.roundNow != s.wde.round || j == s.wde.slot then s
    else
      let arrived := s.wde.arrived
      let s := s.setWde { s.wde with slot := j, arrived := [] }
      let s := if j = 1 then s.heartbeatRound else s
      let s := arrived.foldl (fun (s : State) a => s.sortArrival j a) s
      (List.finRange 8).foldl (fun (s : State) (p : Fin 8) => s.portSlot p j s.slotTime (back.getD p (0, 0)) arrived) s)

/-- The partner's slot time less the own, from the stamps of a flit each way (R596); how the four stamps give it is not stated: the usual half
of the difference of the two ways. PRESUMED, log entry 123. -/
def linkOffset (sent echoed partner now : Nat) : Int := (((echoed : Int) - sent) - ((now : Int) - partner)) / 2

/-- The link offset of a round (R596). -/
def State.linkCheck (s : State) (p : Fin 8) (offset : Int) : State :=
  let x := s.wport p
  let s := s.setReg .wdp p Reg.WDP_SKEWp (BitVec.ofInt 32 offset)
  if 30 < offset.natAbs then (s.setWport p { x with good := 0, susNext := true }).wdeRaise 3 p 0
  else s.setWport p { x with good := x.good + 1, susNext := x.susNext && decide (x.good + 1 < 4) }

/-- MAINTENANCE_FLIT (R596, R606): the link offset computed from the stamps, and on a pair port the heartbeat. -/
def execMaintenanceFlit (p : Fin 8) (m : Maint) (s : State) : Out :=
  .next (if !s.wportUp p then s
    else
      let s := (s.setWport p { s.wport p with got := some (m.stamp, s.slotTime) }).count .wdp p Reg.WDP_RXFLITp 1
      let s := match m.echo with
        | some (sent, echoed) => s.linkCheck p (linkOffset sent echoed m.stamp s.slotTime)
        | none => s
      match m.hb with
      | none => s
      | some h =>
        let y := s.wde.pair
        if !y.enabled || decide (p.val < 6) || h.dev != y.partner then s
        else
          let ok := h.ready && h.pkg.toNat == pkREADY
          let s := s.setWde { s.wde with pair := { y with pkg := h.pkg, seen := true, good := if ok then y.good else 0, count := 0 } }
          let s := s.setReg .wde 0 Reg.WDE_PARTNERWORD h.word
          if ok then s else s.partnerLoss)

/-- Local messages whose next hop is a port wait for it from now on. -/
def State.restartWaits (s : State) (p : Fin 8) : State :=
  s.setWde { s.wde with flows := s.wde.flows.map (fun (e : Fin 255 × WFlow) =>
    if s.wdeRoute e.2.dev = .port p then (e.1, { e.2 with buf := e.2.buf.map (fun m => { m with wait := s.now }) }) else e) }

/-- A port stops being up: its transit flits are discarded, and its credits start afresh (R599, R608). -/
def State.wportOff (s : State) (p : Fin 8) (st : Nat) : State :=
  let s := s.restartWaits p
  let s := s.setWport p { WPort.reset with st := st, suspended := (s.wport p).suspended, susNext := (s.wport p).susNext, since := s.now, downAt := s.now }
  s.setWde { s.wde with transit := s.wde.transit.filter (fun e => e.1 != p) }

/-- A port goes down and retrains (R608). -/
def State.wportDown (s : State) (p : Fin 8) : State := ((s.wportOff p 1).count .wdp p Reg.WDP_DOWNp 1).wdeRaise 2 p 0

/-- A frame that cannot be corrected (R607); the sixteenth within 10 µs takes the port down (R608). -/
def State.frameLost (s : State) (p : Fin 8) : State :=
  let s := (s.count .wdp p Reg.WDP_FECUEp 1).wdeRaise 1 p 0
  let l := (s.now :: (s.wport p).lostAt).take 16
  let s := s.setWport p { s.wport p with lostAt := l }
  match l[15]? with
  | some t => if s.now ≤ t + 10000 then s.wportDown p else s
  | none => s

/-- WOADE_FLIT_RECEIVE (R591, R594, R597, R599, R604, R607, R608). -/
def execWoadeFlitReceive (p : Fin 8) (f : WFrame) (s : State) : Out :=
  .next (if !s.wportUp p then s
    else match f with
      | .lost => s.frameLost p
      | .replay k => match (s.wport p).replay[k.val]? with
        | some x => ((s.setWport p { s.wport p with out := (s.wport p).out ++ [x] }).count .wdp p Reg.WDP_REPLAYp 1).countTx p 1
        | none => s
      | .flit even odd x =>
        let s := s.count .wdp p Reg.WDP_RXFLITp 1
        let n := even.val + odd.val
        let s := if n = 0 then s else (s.count .wdp p Reg.WDP_FECCp n).wdeRaise 0 p 0
        if x.dst = s.wdeId then s.joinFlit p x
        else if x.sched then s.setWde { s.wde with arrived := s.wde.arrived ++ [(p, x)] }
        else match s.wdeRoute x.dst with
          | .port o => if s.wportUp o then s.setWde { s.wde with transit := s.wde.transit ++ [(o, { x with vc := s.wdeVc o x.vc })] } else s
          | _ => s.wdeRaise 8 p 0)

/-! ### Messages (R604) -/

/-- The write-back of a receive descriptor (R532, R604). -/
def State.rqWriteBack (s : State) (q : Fin 64) (x : WRq) (d : List Byte) (len err src : Nat) (m : WRx) : State :=
  let c : Word := BitVec.ofNat 32 (leNat ((d.drop 8).take 4))
  let v := bitsOf c 29 29 * 2 ^ 29 + 2 ^ 30 + (if err = 0 then 0 else 2 ^ 28 + err * 2 ^ 24) + m.port.val * 2 ^ 20 + src * 64
  let d := d.take 6 ++ leBytes 2 len ++ leBytes 4 v ++ leBytes 4 m.stamp.toNat
  match s.unitWriteOk (s.wdeSrc x.ctx x.cls) (x.base + x.next % 2 ^ x.n * 16) d with
  | (s, true) =>
    let s := s.setWrq q { x with next := x.next + 1 }
    if bitOf c 29 then s.setFld .wde 0 (Reg.WDE_RQPENDq q) 0 0 1 else s
  | (s, false) => s.setWrq q { x with st := 2 }

/-- A message with a good CRC meets its receive queue (R604). -/
def State.rqDeliver (s : State) (q : Fin 64) (src : BitVec 14) (data : List Byte) (m : WRx) : State :=
  let drop (s : State) : State := (s.count .wde 0 (Reg.WDE_RQDROPq q) 1).wdeRaise 4 m.port q
  match s.wde.rqs.get? q with
  | none => drop s
  | some x =>
    if x.st ≠ 1 ∨ src < x.lo ∨ x.hi < src then drop s
    else match s.unitRead (s.wdeSrc x.ctx x.cls) (x.base + x.next % 2 ^ x.n * 16) 16 with
      | (s, none) => drop s
      | (s, some d) =>
        if leNat ((d.drop 8).take 4) < 2 ^ 31 then drop s
        else if leNat ((d.drop 6).take 2) < data.length then s.rqWriteBack q x d 0 2 src.toNat m
        else
          let (s, ok) := s.unitWriteOk (s.wdeSrc x.ctx x.cls) (leNat (d.take 6)) data
          s.rqWriteBack q x d data.length (if ok then 0 else 1) src.toNat m

/-- WOADE_MESSAGE_RECEIVE (R600, R604): the oldest message that has arrived. A message without its header flit names no queue; the SEQ
of the flow's next one counts it. -/
def execWoadeMessageReceive (s : State) : Out :=
  .next (match s.wde.ready with
    | [] => s
    | m :: t =>
      let s := s.setWde { s.wde with ready := t }
      let w (o : Nat) : Word := BitVec.ofNat 32 (leNat ((m.bytes.drop o).take 4))
      let len := bitsOf (w 4) 12 0
      let data := (m.bytes.drop 16).take len
      let q : Fin 64 := Fin.ofNat 64 (bitsOf (w 4) 21 16)
      let src : BitVec 14 := BitVec.ofNat 14 (bitsOf (w 0) 29 16)
      let whole : Bool := decide (16 + len ≤ m.bytes.length) && crc32c (m.bytes.take 12 ++ data) == w 0xC
      let flow : Fin 256 := Fin.ofNat 256 (bitsOf (w 4) 31 24)
      let seq : BitVec 16 := BitVec.ofNat 16 (bitsOf (w 8) 15 0)
      if m.bytes.length < 16 then s
      else if !whole then (s.msgLost q 1 m.port).seqSkip src flow seq
      else
        let (s, gap) := s.seqCheck src flow seq
        let s := if gap = 0 then s else s.msgLost q gap m.port
        s.rqDeliver q src data m)

/-! ### Send queues (R603) -/

/-- WOADE_SQ_DOORBELL (R531, R603). -/
def execWoadeSqDoorbell (src : Src) (q : Fin 16) (s : State) : Out :=
  .next (s.regCommand src .wde 0 (Reg.WDE_SQDBq q) (vehRegs 0x1E00000) (fun s => s.sqCheck q))

/-- WOADE_SQ_POLL (R531, R603). -/
def execWoadeSqPoll (q : Fin 16) (s : State) : Out := .next (s.sqCheck q)

/-- WOADE_SEND_WRITEBACK (R531, R603, R608). -/
def execWoadeSendWriteback (q : Fin 16) (s : State) : Out :=
  .next (match s.wde.sqs.get? q with
    | none => s
    | some x => match x.done, s.wflow x.flow with
      | (err, stamp) :: t, some fl =>
        let src := s.wdeSrc fl.ctx fl.cls
        let a := x.base + x.wb % 2 ^ x.n * 16
        (match s.unitRead src a 16 with
          | (s, none) => s.setWsq q { x with st := 2, done := t }
          | (s, some d) =>
            let c : Word := BitVec.ofNat 32 (leNat ((d.drop 8).take 4))
            let v := bitsOf c 29 29 * 2 ^ 29 + bitsOf c 30 30 * 2 ^ 30 + (if err = 0 then 0 else 2 ^ 28 + err * 2 ^ 24)
            match s.unitWriteOk src a (d.take 8 ++ leBytes 4 v ++ leBytes 4 (if err = 0 then stamp.toNat else 0)) with
            | (s, true) =>
              let s := s.setWsq q { x with wb := x.wb + 1, done := t }
              if bitOf c 29 then s.setFld .wde 0 (Reg.WDE_SQPENDq q) 0 0 1 else s
            | (s, false) => s.setWsq q { x with st := 2, done := t })
      | _, _ => s)

/-! ### Ports (R590, R607, R608) -/

/-- WOADE_PORT_DOWN (R608). -/
def execWoadePortDown (p : Fin 8) (s : State) : Out := .next (if s.wportUp p then s.wportDown p else s)

/-- WOADE_PORT_UP (R608). -/
def execWoadePortUp (p : Fin 8) (s : State) : Out :=
  .next (if s.wdeUp && (s.wport p).st == 1 then s.setWport p { s.wport p with st := 2 } else s)

/-- WOADE_TRAIN_TIMEOUT (R608). -/
def execWoadeTrainTimeout (p : Fin 8) (s : State) : Out :=
  let x := s.wport p
  .next (if s.wdeUp && x.st == 1 && decide (x.since + 30000000 ≤ s.now) then (s.setWport p { x with st := 3, since := s.now }).wdeRaise 7 p 0 else s)

/-- WOADE_TRAIN_RETRY (R608). -/
def execWoadeTrainRetry (p : Fin 8) (s : State) : Out :=
  let x := s.wport p
  .next (if s.wdeUp && x.st == 3 && decide (x.since + 1000000000 ≤ s.now) then s.setWport p { x with st := 1, since := s.now } else s)

/-- WOADE_MESSAGE_DISCARD (R594, R599, R608): the flow's first message that has waited 1 ms for its output port; a scheduled flow on a port
that is up waits for its slots. One that no route reaches any more is undeliverable. -/
def execWoadeMessageDiscard (f : Fin 256) (s : State) : Out :=
  .next (match s.wflow f with
    | none => s
    | some x => match s.wdeRoute x.dev, x.buf with
      | .port p, m :: t =>
        if s.wdeUp && decide (m.wait + 1000000 ≤ s.now) && (!s.wportUp p || !x.sched) then
          ((s.setWflow f { x with buf := t }).count .wdp p Reg.WDP_XMITDROPp 1).sqEnd m.sq 4
        else s
      | .nowhere, m :: t => if s.wdeUp then (s.setWflow f { x with buf := t }).sqEnd m.sq 3 else s
      | _, _ => s)

/-- PARTNER_LOSS (R606): both pair ports have been down for 100 µs. -/
def execPartnerLoss (s : State) : Out :=
  let down (p : Fin 8) : Bool := (s.wport p).st != 2 && decide ((s.wport p).downAt + 100000 ≤ s.now)
  .next (if s.wdeUp && down 6 && down 7 then s.partnerLoss else s)

/-! ### Commands (R609) -/

/-- A flow or a queue is bound. -/
def State.wdeBound (s : State) : Bool := !s.wde.flows.isEmpty || !s.wde.sqs.isEmpty || !s.wde.rqs.isEmpty

/-- WDE_TOPO (R592, R609). -/
def execWdeTopo (p : Fin 64) (s : State) : Out :=
  .next (s.command p 0x60 [] [(8, 13, 0), (0xC, 4, 0), (0xC, 12, 8), (0xC, 19, 16), (0xC, 25, 24)] true (fun e =>
    let d := eBits e 0xC 25 24
    if !s.domEnabled (Fin.ofNat 4 d) then s.refuse p 1
    else if s.wdeBound then s.refuse p 2
    else
      let v := eBits e 0xC 4 0 * 2 ^ 24 + eBits e 0xC 12 8 * 2 ^ 16 + eBits e 0xC 19 16 * 2 ^ 8 + d
      ((s.setReg .wde 0 Reg.WDE_ID (BitVec.ofNat 32 (eBits e 8 13 0))).setReg .wde 0 Reg.WDE_TOPO (BitVec.ofNat 32 v)).ok p))

/-- WDE_PORT (R608, R609): the command stays taken until the port is up or 30 ms have passed; VALUE0 is the port's state. -/
def execWdePort (p : Fin 64) (s : State) : Out :=
  .next (s.command p 0x61 [] [(8, 2, 0), (8, 8, 8)] true (fun e =>
    let n : Fin 8 := Fin.ofNat 8 (eBits e 8 2 0)
    let x := s.wport n
    if eBits e 8 8 8 = 0 then
      (if x.st = 2 then s.wportOff n 0 else s.setWport n { x with st := 0 }).ok p
    else if !s.wdeUp ∨ x.st = 2 ∨ x.st = 3 ∨ (x.st = 1 ∧ x.since + 30000000 ≤ s.now) then s.complete p stOK 0 x.st 0
    else if x.st = 0 then s.setWport n { x with st := 1, since := s.now }
    else s))

/-- WDE_FLOW (R601, R609). -/
def execWdeFlow (p : Fin 64) (s : State) : Out :=
  .next (s.command p 0x62 [] [(8, 9, 0), (8, 18, 16), (0xC, 11, 0), (0x10, 13, 0), (0x10, 21, 16)] true (fun e =>
    let f : Fin 256 := Fin.ofNat 256 (eBits e 8 7 0)
    let ctx : BitVec 12 := BitVec.ofNat 12 (eBits e 0xC 11 0)
    if f = 255 then s.refuse p 1
    else if eBits e 8 8 8 = 0 then
      if s.wde.sqs.any (fun q => q.2.flow == f) then s.refuse p 2
      else (s.setWde { s.wde with flows := s.wde.flows.filter (fun x => x.1.val != f.val) }).ok p
    else s.withCtx p ctx 4 (fun s =>
      (s.setWflow f { ctx := ctx, cls := Fin.ofNat 8 (eBits e 8 18 16), sched := eBits e 8 9 9 = 1, dev := BitVec.ofNat 14 (eBits e 0x10 13 0),
                      rq := Fin.ofNat 64 (eBits e 0x10 21 16), seq := 0, buf := [] }).ok p)))

/-- Entry `k` of a schedule in memory (R597): port and slot, and the entry when it is VALID. -/
def schedEntry (bs : List Byte) (k : Fin 8192) : (Fin 8 × Fin 1024) × Word :=
  ((Fin.ofNat 8 (k.val / 1024), Fin.ofNat 1024 k.val), BitVec.ofNat 32 (leNat ((bs.drop (2 * k.val)).take 2)))

/-- What R598 refuses with BADCFG. -/
def schedBad (e : (Fin 8 × Fin 1024) × Word) : Bool :=
  bitsOf e.2 10 8 != 0 || (bitOf e.2 15 && (e.1.2 == 0 || (bitOf e.2 14 && (e.1.2 == 1 || bitsOf e.2 13 11 == e.1.1.val))))

/-- WDE_SCHED (R597, R598, R609). -/
def execWdeSched (p : Fin 64) (s : State) : Out :=
  .next (s.command p 0x63 [] [(8, 31, 0), (0x10, 47, 0)] true (fun e =>
    let n := eWord e 8
    let ahead := (n - BitVec.ofNat 32 s.roundNow).toNat
    if eAddr e 0x10 % 64 ≠ 0 then s.complete p stBADARG 0 0 0
    else match s.fwRead (p.val == 1) (eAddr e 0x10) 16384 with
      | (s, none) => s.complete p stFAULT 0 0 0
      | (s, some bs) =>
        let es := (List.finRange 8192).map (schedEntry bs)
        if es.any schedBad then s.refuse p 1
        else if ahead < 2 ∨ 2 ^ 31 ≤ ahead then s.refuse p 3
        else
          let tab := (es.filter (fun x => bitOf x.2 15)).map (fun x =>
            (x.1, (⟨bitOf x.2 14, Fin.ofNat 8 (bitsOf x.2 13 11), Fin.ofNat 256 (bitsOf x.2 7 0)⟩ : WEntry)))
          ((s.setWde { s.wde with pending := some (n, tab) }).setReg .wde 0 Reg.WDE_NEXTRND n).ok p))

/-- WDE_SQUEUE (R603, R609). -/
def execWdeSqueue (p : Fin 64) (s : State) : Out :=
  .next (s.command p 0x64 [] [(8, 3, 0), (8, 8, 8), (8, 23, 16), (0xC, 3, 0), (0x10, 47, 0)] true (fun e =>
    let q : Fin 16 := Fin.ofNat 16 (eBits e 8 3 0)
    let f : Fin 256 := Fin.ofNat 256 (eBits e 8 23 16)
    let n := eBits e 0xC 3 0
    if eBits e 8 8 8 = 0 then (s.setWde { s.wde with sqs := s.wde.sqs.erase q }).ok p
    else if n < 4 ∨ 12 < n ∨ eAddr e 0x10 % 16 ≠ 0 then s.complete p stBADARG 0 0 0
    else match s.wflow f with
      | none => s.refuse p 1
      | some _ => (s.setWsq q ⟨1, f, n, eAddr e 0x10, 0, 0, []⟩).ok p))

/-- WDE_RQUEUE (R604, R609). -/
def execWdeRqueue (p : Fin 64) (s : State) : Out :=
  .next (s.command p 0x65 [] [(8, 5, 0), (8, 8, 8), (8, 18, 16), (8, 27, 24), (0xC, 11, 0), (0x10, 47, 0), (0x18, 13, 0), (0x18, 29, 16)] true (fun e =>
    let q : Fin 64 := Fin.ofNat 64 (eBits e 8 5 0)
    let n := eBits e 8 27 24
    let ctx : BitVec 12 := BitVec.ofNat 12 (eBits e 0xC 11 0)
    if eBits e 8 8 8 = 0 then (s.setWde { s.wde with rqs := s.wde.rqs.erase q }).ok p
    else if n < 4 ∨ 12 < n ∨ eAddr e 0x10 % 16 ≠ 0 then s.complete p stBADARG 0 0 0
    else s.withCtx p ctx 4 (fun s =>
      (s.setWrq q { st := 1, ctx := ctx, cls := Fin.ofNat 8 (eBits e 8 18 16), n := n, base := eAddr e 0x10, next := 0,
                    lo := BitVec.ofNat 14 (eBits e 0x18 13 0), hi := BitVec.ofNat 14 (eBits e 0x18 29 16) }).ok p)))

/-- WDE_PAIR (R606, R609). -/
def execWdePair (p : Fin 64) (s : State) : Out :=
  .next (s.command p 0x66 [] [(8, 8, 8), (8, 3, 0), (0xC, 13, 0)] true (fun e =>
    let partner : BitVec 14 := BitVec.ofNat 14 (eBits e 0xC 13 0)
    let m := eBits e 8 3 0
    if eBits e 8 8 8 = 0 then (s.setWde { s.wde with pair := WoadeState.reset.pair }).ok p
    else if m = 0 ∨ partner = s.wdeId then s.refuse p 1
    else (s.setWde { s.wde with pair := ⟨true, partner, m, false, false, 0, 0, false, 0⟩ }).ok p))

/-! ### The end of a context (R483) -/

/-- Flows and queues of a context stop. -/
def State.wdeStop (s : State) (ctx : BitVec 12) : State :=
  let gone (f : Fin 256) : Bool := match s.wflow f with
    | some x => x.ctx == ctx
    | none => false
  s.setWde { s.wde with flows := s.wde.flows.filter (fun e => e.2.ctx != ctx), rqs := s.wde.rqs.filter (fun e => e.2.ctx != ctx),
                        sqs := s.wde.sqs.filter (fun e => !gone e.2.flow) }

end Sys2Proof.Machine
end

