-- ==== Sys2Proof/Machine/PowerOps.lean ====
section
/-! DEFINITION. Shared operations of the power manager: domains, budgets, switching, the request queue, the blotter test (R47 to R54,
R386 to R390, R423, R430). -/

namespace Sys2Proof.Machine

/-! ### Domains (R50, R51, R386) -/

/-- The domain that a domain requires (R51); none for VD_FAB. TD_FAB also requires COOL_OK. -/
def domRequires (d : Nat) : Option Nat :=
  if d < 84 then (if d % 14 = 0 then some 84 else some (d / 14 * 14))
  else if d = 84 then none
  else if d ≤ 88 then some 84
  else if d ≤ 91 then some 88
  else if d ≤ 99 then some 91
  else if d ≤ 103 then some 88
  else if d = 104 then some 84
  else if d = 105 then some 104
  else if d ≤ 109 then some 105
  else if d ≤ 113 then some 109
  else some 105

/-- Budget of a domain in units of 0.25 W (R386). -/
def domBudget (d : Nat) : Nat :=
  if d < 84 then (if d % 14 = 0 then 20 else if d % 14 = 1 then 32 else 21)
  else match d with
    | 84 => 16 | 85 => 4 | 86 => 2 | 87 => 4 | 88 => 22 | 89 => 8 | 90 => 2 | 91 => 12
    | 100 => 16 | 101 => 16 | 102 => 24 | 103 => 6
    | 104 => 12 | 105 => 22 | 106 => 4 | 107 => 4 | 108 => 12 | 109 => 12
    | 114 => 8 | 115 => 8
    | _ => if d ≤ 99 then 12 else 20

def isTolid (d : Nat) : Bool := decide (d < 84)
def domDie (d : Nat) : Fin 8 := if d < 84 then Fin.ofNat 8 (d / 14) else if d < 104 then 6 else 7
def domLocal (d : Nat) : Nat := if d < 84 then d % 14 else if d < 104 then d - 84 else d - 104
def allDomains : List Nat := List.range 116

def State.switchOf (s : State) (d : Nat) : Option (PwrReq × Nat) := s.pwr.switching.find? (fun e => e.1.dom == d)

/-- Budget sum: domains that are on, or switching on (R389). -/
def State.budgetSum (s : State) : Nat :=
  ((allDomains.filter (fun d => s.domOn d || ((s.switchOf d).map (·.1.on)).getD false)).map domBudget).foldl (· + ·) 0

/-- The effective cap in units of 0.25 W (R386). -/
def State.effCap (s : State) : Nat := if s.cool then s.fld .pwr 0 Reg.PWR_CAP 9 0 * 4 else 160

/-- PWR_BUDGET follows the domains. -/
def State.syncBudget (s : State) : State := s.setFld .pwr 0 Reg.PWR_BUDGET 11 0 s.budgetSum

/-! ### What a die reports (R47) -/

def dieChannels (d : Nat) : Nat := if d < 6 then 6 else 4
def State.coreMask (s : State) (d : Nat) : BitVec 96 := if h : d < 6 then s.fixed.coreEn.get ⟨d, h⟩ (BitVec.allOnes 96) else 0
def popCount (m : BitVec 96) : Nat := ((List.range 96).filter (fun i => m.getLsbD i)).length
def pairMask (m : BitVec 96) : Nat := ((List.range 48).map (fun j => b2n (m.getLsbD (2 * j) && m.getLsbD (2 * j + 1)) * 2 ^ j)).foldl (· + ·) 0
def localBits (m : BitVec 116) (d : Nat) : Nat :=
  let lo := if d < 6 then d * 14 else if d = 6 then 84 else 104
  let n := if d < 6 then 14 else if d = 6 then 20 else 12
  m.toNat / 2 ^ lo % 2 ^ n

/-- DIE_ registers that fuses and the power manager fix; none for the others. While the density fuses are blank, DIE_DRAMCFG [11:8] reads
0 before calibration; the spec does not say whether it keeps the calibrated value when the memory domain goes off again, and it reads
0 then too: DESIGN CHOICE, log entry 106. -/
def State.dieView (s : State) (d off : Nat) : Option Word :=
  let m := s.coreMask d
  match off with
  | 0x00 => some (BitVec.ofNat 32 (0x4738 * 2 ^ 16 + (if d < 6 then 0 else if d = 6 then 1 else 2) * 2 ^ 12 + 0x100 + d))
  | 0x10 => some (BitVec.ofNat 32 (bitsOf m 31 0))
  | 0x14 => some (BitVec.ofNat 32 (bitsOf m 63 32))
  | 0x18 => some (BitVec.ofNat 32 (bitsOf m 95 64))
  | 0x1C => some (BitVec.ofNat 32 (popCount m))
  | 0x20 => some (BitVec.ofNat 32 (pairMask m))
  | 0x24 => some (BitVec.ofNat 32 (pairMask m / 2 ^ 32))
  | 0x30 => some (BitVec.ofNat 32 (localBits s.on d))
  | 0x34 => some (BitVec.ofNat 32 (localBits s.busy d))
  | 0x40 =>
    let gib := match s.pwr.densityBlown with
      | some g => g
      | none => if s.domOn (domMem (Fin.ofNat 8 d)) then s.fixed.dramGiB else 0
    some (BitVec.ofNat 32 (gib * 256 + dieChannels d))
  | _ => none

/-! ### The blotter test (R423, R430) -/

/-- Checkers of a code in a domain, with the injections that each one takes. -/
def blotterCount (d code : Nat) : Nat :=
  let td := isTolid d
  match code with
  | 1 => if td && decide (2 ≤ d % 14) then 4 else 0
  | 2 => if 92 ≤ d ∧ d ≤ 99 then 1 else 0
  | 3 => if d = 89 then 7 else if d = 85 ∨ d = 90 then 1 else 0
  | 4 => 2 * Config.eccBanks d
  | 5 => if d = 88 ∨ d = 105 then 8 else if td && d % 14 == 1 then 12 else 0
  | 6 => if d = 84 ∨ d = 104 then 7 else if td && d % 14 == 0 then 4 else 0
  | 7 => if d = 100 then 3 else 0
  | 8 => if d = 89 then 7 else if d = 85 ∨ d = 90 then 1 else 0
  | 9 => if td && decide (2 ≤ d % 14) then 2 else 0
  | 10 => if d = 85 then 12 else 0
  | _ => 0

/-- ms from the release of RESET_N. -/
def State.msSinceReset (s : State) : Nat := (s.pwr.t1 * 1000 + s.now) / 1000000

/-- The injections of one domain; `silent` is a checker that does not fire: its code and unit. -/
def State.blotter (s : State) (d : Nat) (silent : Option (Nat × Nat)) : State :=
  let s := (List.range 11).foldl (fun (s : State) k =>
    let n := blotterCount d k
    let missed := match silent with
      | some (c, _) => if c = k then 1 else 0
      | none => 0
    if k = 0 then s else (s.count .blt 0 (Reg.BLT_INJk k) n).count .blt 0 (Reg.BLT_FIREDk k) (n - missed)) s
  let s := s.setReg .blt 0 (Reg.BLT_DOMTIMEd d) (BitVec.ofNat 32 s.msSinceReset)
  match silent with
  | none => s.setFld .blt 0 Reg.BLT_STAT 31 28 2
  | some (c, u) => (s.setFld .blt 0 Reg.BLT_STAT 31 28 3).setReg .blt 0 Reg.BLT_FAIL
      (BitVec.ofNat 32 (c * 2 ^ 28 + (domDie d).val * 2 ^ 25 + d * 2 ^ 10 + u % 1024))

/-! ### A domain goes on or off (R54, R378, R388) -/

/-- A die's links train when the fabric of the far end is on too: both ports are up (R228, R378); `bad` is the port that does not. -/
def State.trainPorts (s : State) (bad : Option (Fin 8 × Fin 7)) (d : Fin 8) : State :=
  (List.finRange 7).foldl (fun (s : State) (p : Fin 7) =>
    match peer d p with
    | none => s
    | some (e, q) =>
      if s.domOn (domFab d) && s.domOn (domFab e) && bad != some (d, p) && bad != some (e, q) then
        let s := (s.setFld .dp (portInst d p) Reg.DP_STAT 3 0 2).setFld .die d Reg.DIE_PORTSTAT p p 1
        (s.setFld .dp (portInst e q) Reg.DP_STAT 3 0 2).setFld .die e Reg.DIE_PORTSTAT q q 1
      else s) s

/-- The ports of a die whose fabric is on begin to train (R229). -/
def State.portsTraining (s : State) (d : Fin 8) : State :=
  (List.finRange 7).foldl (fun (s : State) (p : Fin 7) =>
    if (peer d p).isSome then s.setFld .dp (portInst d p) Reg.DP_STAT 3 0 1 else s) s

/-- The controllers of a memory domain are in a state of MC_STAT (R228). -/
def State.setMcs (s : State) (d : Fin 8) (v : Nat) : State :=
  upTo (dieChannels d) (fun m s => s.setFld .mc (d.val * 8 + m) Reg.MC_STAT 3 0 v) s

/-- The die of a memory domain. -/
def memDie (d : Nat) : Option (Fin 8) := (List.finRange 8).find? (fun e => domMem e == d)

/-- A memory domain that is switching on is calibrating (R203, R388). -/
def State.calibrating (s : State) (d : Nat) : State :=
  match memDie d with
  | some e => s.setMcs e 1
  | none => s

/-- The DRAM controllers of a die are calibrated and their memory is zeroed (R377, R388). -/
def State.memReady (s : State) (d : Fin 8) : State := (s.setMcs d 2).zero (dieBase d) (s.dramBytes d)

/-- A domain has power: its state is at reset and its memory is zero (R54, R377). After bring-up, a CPU pair that the manifest
lists is released (R499). -/
def State.powerUp (s : State) (d : Nat) : State :=
  let s := ({ s with on := s.on ||| BitVec.ofNat 116 (2 ^ d) }).syncBudget
  if d < 84 then (if d % 14 = 0 then s.portsTraining (domDie d) else if d % 14 = 1 then s.memReady (domDie d) else s)
  else match d with
    | 84 | 104 => s.portsTraining (domDie d)
    | 88 => s.memReady 6
    | 105 => s.memReady 7
    | _ =>
      if 92 ≤ d ∧ d ≤ 99 then
        let p : Fin 8 := Fin.ofNat 8 (d - 92)
        if (s.fixed.cpuEntry.get? p).isSome && s.pkg != pkBOOTING then s.releasePair p else s.setCpuPair p { CpuPair.off with st := .stopped }
      else s

/-- A fabric domain. -/
def isFabric (d : Nat) : Bool := (List.finRange 8).any (fun e => domFab e == d)

/-- A domain is switched on after bring-up: the links of a fabric train too. -/
def State.powerOn (s : State) (d : Nat) : State :=
  let s := s.powerUp d
  if isFabric d then s.trainPorts none (domDie d) else s

/-- The domain of an agent (R33, R50, R550). -/
def agentDomain (die : Fin 8) (agent : BitVec 10) : Nat :=
  let a := agent.toNat
  if die.val < 6 then die.val * 14 + 2 + a / 16
  else if die.val = 6 then
    (if a < 9 then 89 else if a < 16 then 91 else if a < 32 then 92 + (a - 16) / 2 else if a < 64 then 91
     else if a < 96 then 101 else 102)
  else if a < 8 then 106 else if a < 16 then 107 else if a < 32 then 108 else if a < 56 then 110 + (a - 32) / 6
  else if a < 64 then 109 else if a < 80 then 114 else 115

/-- Posted writes of a domain's sources that are still outstanding fail with DRAIN (R54, R223). -/
def State.drainDomain (s : State) (d : Nat) : State :=
  (s.fab.tx.filter (fun t => !t.isRead && !t.src.fw && agentDomain t.src.die t.src.agent == d)).foldl (fun (s : State) (t : Tx) => s.endTx t 7) s

/-- What a fabric or the controllers of a die count and hold returns to reset: class bytes, shares, temperatures, and the posted-write
log and credits of a fabric (R228 to R230). -/
def State.dropCounters (s : State) (isPort : Bool) (die : Fin 8) : State :=
  let ours (k : Bool × Nat) : Bool := k.1 == isPort && k.2 / 8 == die.val
  let f := s.fab
  let f := { f with clHigh := f.clHigh.filter (fun e => !ours (e.1.1, e.1.2.1)), clBytes := f.clBytes.filter (fun e => !ours (e.1.1, e.1.2.1)),
                    share := f.share.filter (fun e => !ours (e.1.1, e.1.2.1)),
                    shPend := f.shPend.filter (fun e => !(e.1 == (if isPort then Blk.dp else Blk.mc) && e.2.1 / 8 == die.val)) }
  { s with fab := if isPort then
      { f with pwlog := f.pwlog.erase die, credAt := f.credAt.filter (fun e => e.1.1 != die),
               escape := if die = 6 then [] else f.escape }
    else
      { f with mcTemp := f.mcTemp.filter (fun e => e.1 / 8 != die.val), mcTempAt := f.mcTempAt.filter (fun e => e.1 / 8 != die.val),
               mcRate := f.mcRate.filter (fun e => e.1 / 8 != die.val) } }

/-- Structured state of the Vehicle die's fabric, memory, time, processors and CPU pairs: local time starts again at 0, and a clock that
has failed stays failed (R233, R249). -/
def State.resetVehicle (s : State) (d : Nat) : State :=
  match d with
  | 84 => s.dropCounters true 6
  | 86 => { s with time := { TimeState.reset with frozen := s.time.frozen }, sched := { s.sched with wheels := [] } }
  | 87 => { s with sec := { s.sec with slots := [(0, ⟨3, 0⟩)] } }
  | 88 => s.dropCounters false 6
  | 89 => [0, 1, 2, 3, 5, 6, 7].foldl (fun (s : State) (k : Fin 8) => s.setFp k Fp.reset) s
  | 90 => s.setFp 4 Fp.reset
  | 91 => { s.emptyCaches with cpu := { s.emptyCaches.cpu with aplic := [] } }
  | _ => if 92 ≤ d ∧ d ≤ 99 then (s.emptyPair (Fin.ofNat 8 (d - 92))).setCpuPair (Fin.ofNat 8 (d - 92)) CpuPair.off else s

/-- Structured state of the checker, the interfaces and the Media die. -/
def State.resetInterfaces (s : State) (d : Nat) : State :=
  match d with
  | 100 => { s with chk := { s.chk with mons := [], pairs := [] } }
  | 101 => { s with gw := { GwState.reset with pciYield := s.gw.pciYield, pciInQ := s.gw.pciInQ, pciCredAt := s.gw.pciCredAt,
                                                pciIn := s.gw.pciIn } }
  | 102 => s.setWde WoadeState.reset
  | 103 => { s with gw := { s.gw with pciYield := false, pciInQ := [], pciCredAt := 0, pciIn := none } }
  | 104 => s.dropCounters true 7
  | 105 => s.dropCounters false 7
  | 106 => { s with media := { s.media with streams := s.media.streams.filter (fun e => decide (8 ≤ (sidRecv e.1).val)) } }
  | 107 => { s with media := { s.media with streams := s.media.streams.filter (fun e => decide ((sidRecv e.1).val < 8)) } }
  | 109 => { s with media := { s.media with gfx := [], pools := [], tex := [] } }
  | 114 => { s with media := { s.media with planes := [], planeNext := [], trained := 0, line := [], sent := [] } }
  | 115 => { s with media := { s.media with codecs := [] } }
  | _ => s

/-- Structured state of a domain returns to reset. -/
def State.resetDomain (s : State) (d : Nat) : State :=
  if d < 84 then
    if d % 14 = 0 then s.dropCounters true (domDie d)
    else if d % 14 = 1 then s.dropCounters false (domDie d)
    else
      let cl : ClusterId := ⟨Fin.ofNat 6 (d / 14), Fin.ofNat 12 (d % 14 - 2)⟩
      let s := cl.cores.foldl (fun (s : State) (c : CoreId) => (s.revokeLocks c).revokeChans c) s
      { s with cores := s.cores.filter (fun e => e.1.cl != cl), bars := s.bars.filter (fun e => e.1.1 != cl),
               sched := { s.sched with ltab := s.sched.ltab.filter (fun e => e.1.1 != cl) } }
  else if d < 100 then s.resetVehicle d
  else s.resetInterfaces d

/-- Memory of a domain loses its content. -/
def State.dropMemory (s : State) (d : Nat) : State :=
  if d < 84 then
    if d % 14 = 0 then s
    else if d % 14 = 1 then s.zero (dieBase (d / 14)) (s.dramBytes (domDie d))
    else s.zero (clusterBase ⟨Fin.ofNat 6 (d / 14), Fin.ofNat 12 (d % 14 - 2)⟩) 0x2000000
  else match d with
    | 84 => s.zero vsramBase 0x2000000
    | 88 => s.zero vehicleBase (s.dramBytes 6)
    | 104 => s.zero (dieBase 7 + 0x100000000000) 0x1800000
    | 105 => s.zero (dieBase 7) (s.dramBytes 7)
    | _ => s

/-- Links of a fabric that goes off are down, and their credits and trackers are revoked (R457). -/
def State.dropLinks (s : State) (d : Nat) : State :=
  let die := domDie d
  if (d < 84 ∧ d % 14 = 0) ∨ d = 84 ∨ d = 104 then
    (List.finRange 7).foldl (fun (s : State) (p : Fin 7) => match peer die p with
      | none => s
      | some (e, q) =>
        let s := s.revokeLink die p
        (s.setFld .dp (portInst e q) Reg.DP_STAT 3 0 0).setFld .die e Reg.DIE_PORTSTAT q q 0) s
  else s

/-- A domain is off: its registers and its state are lost, its memory reads zero (R54, R395). -/
def State.powerOff (s : State) (d : Nat) : State :=
  if !s.domOn d then s
  else
    let s := ((s.drainDomain d).dropLinks d).resetDomain d
    let s := s.dropMemory d
    let s := { s with on := s.on &&& ~~~(BitVec.ofNat 116 (2 ^ d)), gated := s.gated &&& ~~~(BitVec.ofNat 116 (2 ^ d)),
                      regs := s.regs.filter (fun e => blkDomain e.1 != d) }
    if d = 85 then s else s.syncBudget

/-! ### Requests (R387 to R389) -/

/-- An admitted partition has cores on a die, or in a cluster. -/
def State.partOnDie (s : State) (d : Nat) : Bool := s.sched.parts.any (fun e => e.2.recs.any (fun r => r.cl.die.val == d))
def State.partInCluster (s : State) (d : Nat) : Bool := s.sched.parts.any (fun e => e.2.recs.any (fun r => domCluster r.cl == d))

/-- INUSE (R387). -/
def State.domInUse (s : State) (d : Nat) : Bool :=
  if d < 84 then (if d % 14 < 2 then s.partOnDie (d / 14) else s.partInCluster d)
  else if d = 86 then (List.finRange 4).any (fun w => whlEnabled (s.whlCfg w))
  else if d = 106 ∨ d = 107 then
    (List.finRange 4).any (fun w => whlEnabled (s.whlCfg w) && whlCamera (s.whlCfg w) && camDomain (whlRecv (s.whlCfg w)) == d)
  else if 92 ≤ d ∧ d ≤ 99 then
    (match (s.cpuPair (Fin.ofNat 8 (d - 92))).st with
      | .running | .stopping => true
      | _ => false)
  else false

/-- The first refusal code that applies to a request; 0 for none (R387). -/
def State.domCode (s : State) (d : Nat) (on : Bool) : Nat :=
  if s.pkg ≠ pkPARTIAL ∧ s.pkg ≠ pkREADY then 1
  else if !on && [84, 85, 88, 89, 90].contains d then 2
  else if on && !s.cool && (isTolid d || s.pwr.shed.getLsbD d) then 3
  else if (if on then ((domRequires d).map (fun r => !s.domOn r || s.busy.getLsbD r)).getD false
           else allDomains.any (fun e => (s.domOn e || s.busy.getLsbD e) && domRequires e == some d)) then 4
  else if !on && s.domInUse d then 5
  else if on && decide (s.effCap < s.budgetSum + domBudget d) then 6
  else if on && s.flt.badDomains.contains d then 7
  else 0

/-- A request has its result. -/
def State.reqResult (s : State) (by_ : PwrBy) (code : Nat) : State :=
  match by_ with
  | .ring p => if code = 0 then s.ok p else s.refuse p code
  | .expert => s.setReg .pwr 0 Reg.PWR_REQRES (BitVec.ofNat 32 (2 ^ 31 + code))
  | .mgmt => s

/-- One request is evaluated: it ends at once, or its switch begins. -/
def State.evalReq (s : State) (r : PwrReq) : State :=
  if s.domOn r.dom = r.on then s.reqResult r.by_ 0
  else
    let c := s.domCode r.dom r.on
    if c ≠ 0 then s.reqResult r.by_ c
    else
      let s := ({ s with busy := s.busy ||| BitVec.ofNat 116 (2 ^ r.dom),
                         pwr := { s.pwr with switching := s.pwr.switching ++ [(r, s.now)] } }).syncBudget
      if r.on then s.calibrating r.dom else s

/-- The queue advances in arrival order until a request names a domain that is switching (R389). -/
def State.runQueue : Nat → State → State
  | 0, s => s
  | n + 1, s => match s.pwr.queue with
    | [] => s
    | r :: t => if s.busy.getLsbD r.dom then s else State.runQueue n (({ s with pwr := { s.pwr with queue := t } }).evalReq r)

def State.advanceQueue (s : State) : State := State.runQueue s.pwr.queue.length s

/-- A request enters the queue. -/
def State.request (s : State) (r : PwrReq) : State := ({ s with pwr := { s.pwr with queue := s.pwr.queue ++ [r] } }).advanceQueue

/-- A request from the world that does not own the domain is dropped (R390, R488). -/
def State.wrongWorld (s : State) : State :=
  ((s.count .pwr 0 Reg.PWR_WWCNT 1).raise .pwr 0 2 0 0).trace 8 0x0701 [blockArg .pwr 0, 1, 2, 0]

/-- A switch ends (R388): a checker that does not fire leaves the domain off and is a class F fault, and a domain whose required domain
has gone off meanwhile stays off (R51). -/
def State.switchDone (s : State) (e : PwrReq × Nat) (silent : Option (Nat × Nat)) : State :=
  let d := e.1.dom
  let s := { s with busy := s.busy &&& ~~~(BitVec.ofNat 116 (2 ^ d)), pwr := { s.pwr with switching := s.pwr.switching.filter (fun x => x.1.dom != d) } }
  let s := if e.1.on && !((domRequires d).map s.domOn).getD true then s.reqResult e.1.by_ 4
    else if e.1.on then
      let s := (s.powerOn d).blotter d silent
      (match silent with
        | none => s.reqResult e.1.by_ 0
        | some _ => (((s.powerOff d).raise .pwr 0 1 0 0).reqResult e.1.by_ 7))
    else (s.powerOff d).reqResult e.1.by_ 0
  s.syncBudget.advanceQueue

end Sys2Proof.Machine
end

