-- ==== Sys2Proof/Machine/Bringup.lean ====
section
/-! DEFINITION. Bring-up: steps, the floor-plan descriptor, control pairs, the start of the Tolid dies (R48, R49, R370 to R383, R624). -/

namespace Sys2Proof.Machine

/-! ### Publication (R48, R49, R329, R370) -/

/-- A die record of the descriptor; a die that is not covered reads 0. -/
def State.dieRecord (s : State) (d : Nat) (covered : Bool) : List Byte :=
  let v (off : Nat) : Nat := ((s.dieView d off).map (fun (w : Word) => w.toNat)).getD 0
  if covered then
    leBytes 4 (v 0) ++ leBytes 4 (v 0x10) ++ leBytes 4 (v 0x14) ++ leBytes 4 (v 0x18) ++ leBytes 4 (v 0x20) ++ leBytes 4 (v 0x24) ++
      leBytes 4 (v 0x40) ++ leBytes 4 (s.reg .die d Reg.DIE_PORTSTAT).toNat ++ leBytes 4 (v 0x1C) ++ leBytes 28 0
  else leBytes 64 0

/-- The floor-plan descriptor, whole in READY and partial otherwise. -/
def State.descriptor (s : State) (whole : Bool) : List Byte :=
  let cores := if whole then ((List.range 6).map (fun d => popCount (s.coreMask d))).foldl (· + ·) 0 else 0
  let body := leBytes 4 0x46504431 ++ leBytes 4 0x02140001 ++ leBytes 4 (cores * 2 ^ 16 + (if whole then 0xFF else 0xC0)) ++ leBytes 4 0 ++
    (List.range 8).flatMap (fun d => s.dieRecord d (whole || decide (6 ≤ d)))
  body ++ leBytes 4 (crc32c body).toNat

/-- The management core publishes it, MAGIC last (R48). -/
def State.publish (s : State) (whole : Bool) : State :=
  let bs := s.descriptor whole
  (s.store 0xD00001FFF004 (bs.drop 4)).store 0xD00001FFF000 (bs.take 4)

/-- Header of the firmware directory (R329). -/
def State.writeDirectory (s : State) : State :=
  s.store dirBase (leBytes 4 0x46574431 ++ leBytes 4 0x00400001 ++ leBytes 4 s.fixed.fwVer.toNat ++
    leBytes 4 (((List.finRange 8).map (fun k => b2n (s.fpRuns k) * 2 ^ k.val)).foldl (· + ·) (b2n s.fw.mcRunning * 256)) ++
    leBytes 8 s.fixed.logBase ++ leBytes 4 s.fixed.logSize ++ leBytes 4 s.fw.logNext.toNat ++ leBytes 4 s.fw.traceMask.toNat ++
    leBytes 4 s.fixed.board.rapPort.toNat)

/-- A control pair with 256 entries in each ring and FLAGS.IRQ = 0 (R329, R370). -/
def State.openControl (s : State) (p : Fin 64) : State :=
  if (s.ring p).isOpen then s
  else
    let base := s.fixed.ctlBase + p.val * 0x6000
    (s.store (ringCb p) (leBytes 64 0)).setRing p { Ring.closed with isOpen := true, world := p == 1, sqN := 8, cqN := 8, sqBase := base, cqBase := base + 0x4000 }

/-- The firmware processors run (R375 step 3; the device memory key is drawn beside them, R471): FW_START for each. -/
def State.startFps (s : State) : State :=
  (List.finRange 8).foldl (fun (s : State) (k : Fin 8) =>
    ((s.setFp k { Fp.reset with st := .running, runAt := s.now }).payPulses (Fin.ofNat 9 k.val)).trace (Fin.ofNat 9 k.val) 0x0001
      [k, s.fixed.fwVer.toNat, 0]) s

/-- Fault-log and sillage areas that firmware sets up (R365, R439, R462). -/
def State.setupLogs (s : State) : State :=
  let s := s.setReg2 .flt 0 Reg.FLT_LOGBASEL Reg.FLT_LOGBASEH s.fixed.fltBase
  s.setReg .flt 0 Reg.FLT_LOGSIZE 65536

/-! ### Steps (R375, R382) -/

/-- The bring-up step that switches a domain on. -/
def startStep (d : Nat) : Nat :=
  if d < 84 then (if d % 14 = 0 then 2 else if d % 14 = 1 then 3 else 5)
  else match d with
    | 84 | 85 => 1
    | 86 | 87 | 104 => 2
    | 88 | 89 | 90 | 105 => 3
    | 101 | 102 | 103 => 4
    | _ => 5

/-- Mandatory domains of a start without coolant (R382). -/
def mandatory : List Nat := [84, 85, 86, 87, 88, 89, 90, 104, 105]

def sumBudget (l : List Nat) : Nat := (l.map domBudget).foldl (· + ·) 0

/-- The optional domains that fit within 40 W, in list order; a domain also needs the one that it requires (R51, R382). -/
def pickOptional : List Nat → List Nat → List Nat
  | acc, [] => acc
  | acc, d :: t =>
    if !isTolid d && !acc.contains d && decide (sumBudget acc + domBudget d ≤ 160) && ((domRequires d).map acc.contains).getD true then
      pickOptional (acc ++ [d]) t
    else pickOptional acc t

/-- Domains that a start switches on: those not listed as off whose required domains are on too, or the partial set. -/
def State.bootDomains (s : State) (cool : Bool) : List Nat :=
  if cool then
    let ok (d : Nat) : Bool := !s.fixed.leaveOff.getLsbD d || mandatory.contains d
    let up (d : Nat) : Bool := ok d && ((domRequires d).map (fun r => ok r && ((domRequires r).map (fun q => ok q && ((domRequires q).map ok).getD true)).getD true)).getD true
    allDomains.filter up
  else pickOptional mandatory s.fixed.optional

/-- A bring-up failure (R380). -/
def State.bootFail (s : State) (step code die : Nat) : State :=
  let s := s.setReg .pwr 0 Reg.PWR_BOOTERR (BitVec.ofNat 32 (die * 2 ^ 16 + step * 2 ^ 8 + code))
  let s := (s.raise .pwr 0 0 0 0).packageFail
  let s := s.setFld .pwr 0 Reg.PWR_STAT 27 24 0
  if s.fpRuns 0 then s.openControl 0 else s

/-- The local time at a step's end: it starts with VD_TIME, at the end of step 1. -/
def State.bootClock (s : State) (us : Nat) : State :=
  { s with time := { s.time with lt := BitVec.ofNat 64 ((us - s.pwr.t1) * 1000) } }

/-- A controller whose channel has failed calibration is a class F fault of its die (R203, R228). -/
def State.calFail (s : State) (f : BootFail) : State :=
  let i := f.die.val * 8 + f.unit.val
  if f.unit.val < dieChannels f.die then (s.setFld .mc i Reg.MC_STAT 3 0 3).raise .mc i 2 0 0 else s

/-- The first channel of the switched memory domains whose density is not 2 GiB or 4 GiB, or not that of the others (R34, R379). -/
def State.oddChannel (s : State) (doms : List Nat) : Option (Fin 64) :=
  (List.finRange 64).find? (fun i => decide (i.val % 8 < dieChannels (i.val / 8)) && doms.contains (domMem (Fin.ofNat 8 (i.val / 8))) &&
    (!(s.fixed.dramGiB == 2 || s.fixed.dramGiB == 4) || s.fixed.oddGiB.get i s.fixed.dramGiB != s.fixed.dramGiB))

/-- A link between two fabrics that are on whose port of this die has not trained. -/
def State.untrained (s : State) (d : Fin 8) : Bool :=
  (List.finRange 7).any (fun p => match peer d p with
    | none => false
    | some (e, _) => s.domOn (domFab d) && s.domOn (domFab e) && s.fld .die d Reg.DIE_PORTSTAT p p == 0)

/-- The first die whose record differs from the expected descriptor; DRAM fields count once they are blown (R379, R382). -/
def State.oddDie (s : State) (cool : Bool) : Option (Fin 8) :=
  ((List.finRange 8).filter (fun d => cool || decide (6 ≤ d.val))).find? (fun d =>
    (if h : d.val < 6 then s.coreMask d != s.fixed.expCore.get ⟨d.val, h⟩ (BitVec.allOnes 96) else false) || s.untrained d ||
      (s.pwr.densityBlown.map (fun g => g != s.fixed.dramGiB)).getD false)

/-- What fails in a step by the state alone: densities that differ, or a floor plan that is not the expected one (R379). -/
def State.bootCheck (s : State) (k : Nat) (doms : List Nat) (cool : Bool) : Option BootFail :=
  if k = 3 then (s.oddChannel doms).map (fun i => ⟨5, Fin.ofNat 8 (i.val / 8), Fin.ofNat 8 i.val, none⟩)
  else if k = 7 then (s.oddDie cool).map (fun d => ⟨9, d, 0, none⟩)
  else none

/-- The silent checker of a step that fails in a domain. -/
def BootFail.silentIn (f : Option BootFail) (d : Nat) : Option (Nat × Nat) :=
  match f.bind (·.silent) with
  | some (e, c, u) => if e.val = d then some (c.val, u) else none
  | none => none

/-- The work of one step on a set of domains, which may end in a failure (R375). Die ports and the Woade ports train in step 4 (R378).
Firmware processors start in step 3 unless it fails: DESIGN CHOICE, log entry 107. -/
def State.bootWork (s : State) (k : Nat) (doms : List Nat) (fail : Option BootFail) : State :=
  let s := ((doms.filter (fun d => startStep d == k && !s.domOn d)).foldl (fun (s : State) d => s.powerUp d) s)
  match k with
  | 1 => { s with fw := { s.fw with mcRunning := true } }
  | 2 => doms.foldl (fun (s : State) d => if s.domOn d then s else s.calibrating d) s
  | 3 =>
    match fail with
    | some f => if f.code = 5 then s.calFail f else s
    | none => if s.fpRuns 0 then s else (((s.startFps).setupLogs).writeDirectory).drawKey 0
  | 4 =>
    let bad : Option (Fin 8 × Fin 7) := match fail with
      | some f => if f.code = 6 then some (f.die, Fin.ofNat 7 f.unit.val) else none
      | none => none
    let s := (List.finRange 8).foldl (fun (s : State) d => s.trainPorts bad d) s
    if s.wdeUp then (List.finRange 8).foldl (fun (s : State) p =>
      if (s.wport p).st = 0 then s.setWport p { s.wport p with st := 1, since := s.now } else s) s
    else s
  | 6 => (doms.filter s.domOn).foldl (fun (s : State) d => s.blotter d (BootFail.silentIn fail d)) s
  | _ => s

/-- The package begins to serve: READY, or PARTIAL without coolant (R48, R370, R372, R382, R443). -/
def State.serve8 (s : State) (cool : Bool) : State :=
  let s := s.setPkg (if cool then pkREADY else pkPARTIAL)
  let s := ((s.setFld .pwr 0 Reg.PWR_STAT 1 1 (b2n cool)).setFld .flt 0 Reg.FLT_PINHOLD 1 1 0).setFld .pwr 0 Reg.PWR_STAT 27 24 0
  (s.openControl 0).openControl 1

/-- The CPU pairs that the manifest lists are released (R375, R499). -/
def State.releaseListed (s : State) : State :=
  (List.finRange 8).foldl (fun (s : State) (p : Fin 8) =>
    if s.domOn (cpuDomain p) && (s.fixed.cpuEntry.get? p).isSome then s.releasePair p else s) s

/-- The density fields are blown when all 44 channels have calibrated (R379). -/
def State.blowDensity (s : State) : State :=
  if s.pwr.densityBlown.isNone && (List.finRange 8).all (fun d => s.domOn (domMem d)) then
    { s with pwr := { s.pwr with densityBlown := some s.fixed.dramGiB } }
  else s

/-- The start of the Tolid dies (R383): steps 2 to 7 for them, then READY; `fail` is where the first failing step fails. -/
def State.tolidSteps (doms : List Nat) (fail : Option (Nat × BootFail)) : List Nat → State → State
  | [], s => (s.blowDensity.publish true).serve8 true
  | k :: t, s =>
    let f := ((fail.filter (fun f => f.1 == k)).map (·.2)).orElse (fun _ => s.bootCheck k doms true)
    let s := s.bootWork k doms f
    match f with
    | some f => s.bootFail k f.code.val f.die.val
    | none => State.tolidSteps doms fail t s

def State.tolidStart (s : State) (fail : Option (Nat × BootFail)) : State :=
  let doms := (s.bootDomains true).filter (fun d => isTolid d || !s.domOn d)
  State.tolidSteps doms fail [2, 3, 4, 5, 6, 7] { s with pwr := { s.pwr with shed := 0, lateCool := none } }

/-- A Tolid start that COOL_OK asked for during bring-up follows at once (R382, R383): DEDUCED, log entry 108. -/
def State.lateStart (s : State) : State :=
  match s.pwr.lateCool with
  | some f => if s.pkg = pkPARTIAL ∧ s.cool then s.tolidStart (f.map (fun x => (x.1.val, x.2))) else s
  | none => s

/-- One step ends, from step `k` on. -/
def State.bootStep (s : State) (k : Nat) (doms : List Nat) (cool : Bool) (r : BootStep) : State :=
  let s := if k = 1 then { s with pwr := { s.pwr with t1 := r.us } } else s
  let s := s.bootClock r.us
  let f := r.fail.orElse (fun _ => s.bootCheck k doms cool)
  let s := s.bootWork k doms f
  match f with
  | some f => s.bootFail k f.code.val f.die.val
  | none =>
    let s := { s with pwr := { s.pwr with bootTimes := s.pwr.bootTimes.set (Fin.ofNat 9 k) s.now32 } }
    let s := if k = 7 then (s.blowDensity).publish cool else s
    if k = 8 then (((s.serve8 cool).releaseListed).setReg .pwr 0 Reg.PWR_BOOTTIME (BitVec.ofNat 32 r.us)).lateStart
    else s.setFld .pwr 0 Reg.PWR_STAT 27 24 (k + 1)

/-- Steps end one after another while the package is BOOTING. `cool` is the level of COOL_OK at the end of step 2, which decides what
the start covers (R382). -/
def State.bootSteps (cool : Bool) : List BootStep → Nat → State → State
  | [], _, s => s
  | r :: t, k, s =>
    if s.pkg ≠ pkBOOTING ∨ 8 < k then s
    else
      let lvl := cool || s.cool
      let s := if k = 2 then { s.setFld .pwr 0 Reg.PWR_STAT 2 2 (b2n lvl) with pwr := { s.pwr with bootCool := lvl } } else s
      let c := if k ≤ 2 then lvl else s.pwr.bootCool
      State.bootSteps cool t (k + 1) (s.bootStep k (s.bootDomains c) c r)

/-- RESET_RELEASE (R375 to R383, R624): bring-up begins, or goes on from the step in progress; each step's end is an operand. -/
def execResetRelease (cool : Bool) (steps : List BootStep) (s : State) : Out :=
  .next (if s.pkg = pkRESET ∧ !s.pwr.cut then
      State.bootSteps cool steps 1 ((s.setPkg pkBOOTING).setFld .pwr 0 Reg.PWR_STAT 27 24 1)
    else if s.pkg = pkBOOTING then State.bootSteps cool steps (s.fld .pwr 0 Reg.PWR_STAT 27 24) s
    else s)

/-- BRINGUP_TIMEOUT (R380): the step in progress exceeds its longest duration. -/
def execBringupTimeout (die : Fin 8) (s : State) : Out :=
  .next (if s.pkg = pkBOOTING then s.bootFail (s.fld .pwr 0 Reg.PWR_STAT 27 24) 10 die else s)

/-! ### Coolant returns (R381, R383) -/

/-- COOL_OK_ASSERT (R381, R383): the recognised level rises. In BOOTING after step 2 it starts the Tolid dies once the package is
PARTIAL; the level at the end of step 2 itself decides what bring-up covers. -/
def execCoolOkAssert (fail : Option (Fin 8 × BootFail)) (s : State) : Out :=
  .next (if s.pkg = pkRESET ∨ s.cool then s
    else
      let s := s.setFld .pwr 0 Reg.PWR_STAT 2 2 1
      if s.pkg = pkPARTIAL then s.tolidStart (fail.map (fun x => (x.1.val, x.2)))
      else if s.pkg = pkBOOTING ∧ 2 < s.fld .pwr 0 Reg.PWR_STAT 27 24 then { s with pwr := { s.pwr with lateCool := some fail } }
      else s)

end Sys2Proof.Machine
end

