-- ==== Sys2Proof/Machine/CanLin.lean ====
section
/-! DEFINITION. CAN and LIN controllers (R514 to R521, R543, R545, R546). -/

namespace Sys2Proof.Machine

/-! ### CAN configuration (R515) -/

/-- CAN clock periods of a bit: PRESC times the quanta. -/
def bitPeriods (v : Word) : Nat := (bitsOf v 31 24 + 1) * (1 + (bitsOf v 23 16 + 1) + (bitsOf v 15 9 + 1))
def sjwOk (v : Word) : Bool := decide (bitsOf v 8 2 ≤ bitsOf v 15 9)

/-- A data phase is enabled when its register is not 0; DEDUCED, log entry 22. -/
def dataPhaseOk (v : Word) (nominal least : Nat) : Bool :=
  v == 0 || (decide (bitPeriods v ≤ nominal) && decide (least ≤ bitPeriods v) && sjwOk v)

/-- The conditions for MODE ≠ 0. -/
def State.canBitsOk (s : State) (c : Fin 24) : Bool :=
  let n := s.reg .can c Reg.CAN_NBT
  let d := bitPeriods n
  decide (160 ≤ d) && decide (d ≤ 1280) && sjwOk n && dataPhaseOk (s.reg .can c Reg.CAN_FDBT) d 20 &&
    dataPhaseOk (s.reg .can c Reg.CAN_XLBT) d 8

/-- A write of MODE: refused with BADCFG, or taken; a start clears the error counters, and any write ends bus-off (R515, R518). -/
def State.canSetMode (s : State) (c : Fin 24) (m : Nat) : State × Bool :=
  if m = 0 then (s.setFld .can c Reg.CAN_CTRL 3 2 0, true)
  else if s.canMode c = m ∧ !(s.can c).busOff then (s, true)
  else if !s.canBitsOk c then ((s.setFld .can c Reg.CAN_CTRL 3 2 0).raise .can c 4 0 0, false)
  else ((s.setFld .can c Reg.CAN_CTRL 3 2 m).setCan c { s.can c with txErr := 0, rxErr := 0, busOff := false }, true)

/-- CAN_CTRL but for EXPERT_EN. -/
def State.canCtrl (s : State) (c : Fin 24) (v : Word) : State × Bool :=
  ((s.setFld .can c Reg.CAN_CTRL 4 4 (bitsOf v 4 4)).setFld .can c Reg.CAN_CTRL 1 1 (bitsOf v 1 1)).canSetMode c (bitsOf v 3 2)

def canBase (c : Fin 24) : Nat := vehRegs (0x1A00000 + 0x1000 * c.val)

/-- CAN_MODE_WRITE (R14, R515, R518). -/
def execCanModeWrite (src : Src) (c : Fin 24) (v : Word) (s : State) : Out :=
  .next (s.regCommand src .can c Reg.CAN_CTRL (canBase c) (fun s =>
    s.guarded src .can c (bitsOf v 4 1 != s.fld .can c Reg.CAN_CTRL 4 1) (fun s => (s.canCtrl c v).1)))

/-- Writes of the bit-timing and stamp registers are ignored while MODE ≠ 0; a stamp base of code 5 to 7 is refused (R248, R515). -/
def State.canTiming (s : State) (c : Fin 24) (off : Nat) (v : Word) : State :=
  if s.canMode c ≠ 0 then s
  else if off = Reg.CAN_TSCFG ∧ 4 < bitsOf v 2 0 then s.raise .can c 4 0 0
  else s.setReg .can c off v

/-! ### CAN frames (R516 to R518) -/

/-- The first valid filter that a frame matches. -/
def State.canFilter (s : State) (c : Fin 24) (f : CanFrame) : Option (Fin 64) :=
  (List.finRange 64).find? (fun i =>
    let x := s.reg .can c (Reg.CAN_FLTIDf i)
    bitOf x 31 && bitOf x 30 == f.ide && ((f.id ^^^ x.setWidth 29) &&& (s.reg .can c (Reg.CAN_FLTMSKf i)).setWidth 29) == 0)

/-- REC after errors seen while receiving, and then after a frame received without error: ISO 11898-1 leaves a value of 119 to 127 where it
was above 127. PRESUMED, log entry 23. -/
def State.canRec (s : State) (c : Fin 24) (errs : Nat) : State :=
  let x := s.can c
  let n := x.rxErr + errs
  let s := if x.rxErr ≤ 127 ∧ 127 < n then s.raise .can c 1 0 0 else s
  let (v, s) := s.freeWord
  s.setCan c { s.can c with rxErr := if 127 < n then 119 + v.toNat % 9 else n - 1 }

/-- CAN_FRAME_RECEIVE (R516, R537, R545): `ago` is the time since the sample point of start-of-frame, in the stamp's base; whether the
receive buffer has room; the errors that REC counted since the frame before. -/
def execCanFrameReceive (c : Fin 24) (f : CanFrame) (ago : Nat) (room : Bool) (errs : Nat) (s : State) : Out :=
  .next (if !s.gwUp || s.canMode c == 0 || (s.can c).busOff then s
    else if !room then (s.canRec c errs).raise .can c 3 0 0
    else
      let s := (s.canRec c errs).count .can c Reg.CAN_RXCNT 1
      let stamp : Word := BitVec.ofNat 32 (s.timeBase (s.fld .can c Reg.CAN_TSCFG 2 0) - ago)
      match s.canFilter c f with
      | none => s.count .can c Reg.CAN_NOMATCH 1
      | some i =>
        let d := s.reg .can c (Reg.CAN_FLTDSTf i)
        let s := if bitOf d 17 then s.qDeliver (Fin.ofNat 32 (bitsOf d 4 0)) 1 (canRecord f i) 0 stamp else s
        if bitOf d 16 then
          s.pdusReceive (fun p => p.bus == 0 && p.ctrl == c.val && p.id == f.id && p.ide == f.ide && p.fdf == f.fdf) f.data
        else s)

/-- A buffer's frame goes: a host frame's descriptor ends (R517, R531). -/
def State.canFree (s : State) (c : Fin 24) (b : Fin 32) (dropped : Bool) : State :=
  let x := s.can c
  let q := ((x.bufs.get? b).map (·.queue)).getD none
  let s := s.setCan c { x with bufs := x.bufs.erase b }
  match q with
  | some i => s.txCopyEnds i dropped s.now32
  | none => s

/-- CAN_FRAME_SENT (R517, R518, R545): TEC as ISO 11898-1 counts, plus 8 for an error and minus 1 for a success (PRESUMED, log entry 23);
whether reading the buffer corrected an error. -/
def execCanFrameSent (c : Fin 24) (r : TxEnd) (corrected : Bool) (s : State) : Out :=
  let x := s.can c
  .next (if !s.gwUp || !(s.canMode c == 1 || s.canMode c == 3) || x.busOff then s
    else match firstBuf x.bufs with
      | none => s
      | some (b, e) =>
        let s := if corrected then s.raise .can c 0 0 0 else s
        let single : Bool := s.fld .can c Reg.CAN_CTRL 4 4 == 1 && e.queue.isSome
        match r with
        | .sent => ((s.setCan c { x with txErr := x.txErr - 1 }).count .can c Reg.CAN_TXCNT 1).canFree c b false
        | .lost => if single then s.canFree c b true else s
        | .error =>
          let n := x.txErr + 8
          let s := s.setCan c { x with txErr := n, busOff := decide (255 < n) }
          let s := if x.txErr ≤ 127 ∧ 127 < n then s.raise .can c 1 0 0 else s
          let s := if 255 < n then s.raise .can c 2 0 0 else s
          if single then s.canFree c b true else s)

/-- CAN_BUSOFF_RECOVERY (R518). -/
def execCanBusoffRecovery (c : Fin 24) (s : State) : Out :=
  let x := s.can c
  .next (if s.gwUp && x.busOff && s.canMode c != 0 && s.fld .can c Reg.CAN_CTRL 1 1 == 1 then
    s.setCan c { x with busOff := false, txErr := 0, rxErr := 0 } else s)

/-! ### CAN_SET (R543) -/

/-- Fields of a CAN_SET: every operand word may be used. -/
def canSetFields : List (Nat × Nat × Nat) :=
  [(8, 4, 0), (8, 9, 8), (0xC, 31, 0), (0x10, 31, 0), (0x14, 31, 0), (0x18, 31, 0), (0x1C, 31, 0), (0x20, 31, 0), (0x24, 31, 0)]

/-- One action of CAN_SET; controllers above 23 and action 3 are outside their ranges. -/
def State.canSet (s : State) (p : Fin 64) (action : Nat) (k : Fin 24 → BitVec 512 → State) : State :=
  s.command p 0x50 [] canSetFields true (fun e =>
    if 23 < eBits e 8 4 0 ∨ eBits e 8 9 8 = 3 then s.complete p stBADARG 0 0 0
    else if eBits e 8 9 8 = action then k (Fin.ofNat 24 (eBits e 8 4 0)) e
    else s)

/-- CAN_SET_CONFIGURE (R515, R543): the controller is stopped, its registers are written, and the new MODE is taken. The seven
words are the writable registers from CAN_CTRL to CAN_TSCFG in address order; DEDUCED, log entry 25. -/
def execCanSetConfigure (p : Fin 64) (s : State) : Out :=
  .next (s.canSet p 0 (fun c e =>
    if 4 < eBits e 0x24 2 0 then (s.raise .can c 4 0 0).refuse p 1
    else
      let s := s.setFld .can c Reg.CAN_CTRL 3 2 0
      let s := s.setReg .can c Reg.CAN_INTEN (eWord e 0x10 &&& 0x1F)
      let s := s.canTiming c Reg.CAN_NBT (eWord e 0x14 &&& 0xFFFFFFFC)
      let s := s.canTiming c Reg.CAN_FDBT (eWord e 0x18 &&& 0xFFFFFFFE)
      let s := s.canTiming c Reg.CAN_XLBT (eWord e 0x1C &&& 0xFFFFFFFE)
      let s := s.canTiming c Reg.CAN_XLPWM (eWord e 0x20 &&& 0xFFFFFF)
      let s := s.canTiming c Reg.CAN_TSCFG (eWord e 0x24 &&& 7)
      match s.canCtrl c (eWord e 0xC) with
      | (s, true) => s.ok p
      | (s, false) => s.refuse p 1))

/-- CAN_SET_FILTER (R543). -/
def execCanSetFilter (p : Fin 64) (s : State) : Out :=
  .next (s.canSet p 1 (fun c e =>
    let f := (eWord e 0xC).toNat
    if 63 < f then s.complete p stBADARG 0 0 0
    else
      let s := s.setReg .can c (Reg.CAN_FLTIDf f) (eWord e 0x10 &&& 0xDFFFFFFF)
      let s := s.setReg .can c (Reg.CAN_FLTMSKf f) (eWord e 0x14 &&& 0x1FFFFFFF)
      (s.setReg .can c (Reg.CAN_FLTDSTf f) (eWord e 0x18 &&& 0x3001F)).ok p))

/-- CAN_SET_ABORT_BUFFER (R543). -/
def execCanSetAbortBuffer (p : Fin 64) (s : State) : Out :=
  .next (s.canSet p 2 (fun c e =>
    let b := (eWord e 0xC).toNat
    if 31 < b then s.complete p stBADARG 0 0 0
    else
      let i : Fin 32 := Fin.ofNat 32 b
      (if ((s.can c).bufs.get? i).isSome then s.canFree c i true else s).ok p))

/-! ### LIN (R520, R521) -/

def State.linMode (s : State) (c : Fin 8) : Nat := s.fld .lin c Reg.LIN_CTRL 2 1
def State.linCommander (s : State) (c : Fin 8) : Bool := s.fld .lin c Reg.LIN_CTRL 3 3 == 1

/-- A write of the configuration fields of LIN_CTRL: MODE ≠ 0 needs a bit rate in range (R546). -/
def State.linCtrl (s : State) (c : Fin 8) (v : Word) : State × Bool :=
  let b := s.fld .lin c Reg.LIN_BAUD 14 0
  let s := s.setFld .lin c Reg.LIN_CTRL 3 3 (bitsOf v 3 3)
  if bitsOf v 2 1 ≠ 0 ∧ (b < 1000 ∨ 20000 < b) then (s.raise .lin c 2 0 0, false)
  else (s.setFld .lin c Reg.LIN_CTRL 2 1 (bitsOf v 2 1), true)

/-- LIN_SCHEDULE_ENTRY (R521): the header of the next entry, DELAY after the previous header. -/
def execLinScheduleEntry (c : Fin 8) (s : State) : Out :=
  let x := s.lin c
  let due : Bool := match x.started with
    | none => true
    | some t => decide (t + (x.sched.getD x.entry (0, 1)).2 * 100000 ≤ s.now)
  let n := match x.started with
    | none => 0
    | some _ => if x.entry + 1 < x.sched.length then x.entry + 1 else 0
  .next (if s.gwUp && s.linCommander c && s.linMode c == 1 && x.active && due then
      match x.sched[n]? with
      | some e => (s.setLin c { x with entry := n, started := some s.now, header := some e.1 }).setFld .lin c Reg.LIN_STAT 5 0 n
      | none => s
    else s)

/-- A LIN record of a received frame (R521). -/
def linRecord (id : Fin 64) (enh : Bool) (data : List Byte) : List Byte :=
  leBytes 4 (id.val + b2n enh * 256 + data.length * 65536) ++ leBytes 4 0 ++ data ++ List.replicate (8 - data.length) 0

/-- A go-to-sleep command: a diagnostic frame 0x3C whose first byte is 0. PRESUMED (ISO 17987). -/
def isSleep (id : Fin 64) (data : List Byte) : Bool := id.val == 0x3C && data.head? == some 0

/-- LIN_FRAME_END (R521, R537): the response that came, if any, with its length right, whether it has the enhanced checksum,
and whether that was right. -/
def execLinFrameEnd (c : Fin 8) (resp : Option (List Byte × Bool × Bool)) (s : State) : Out :=
  let x := s.lin c
  .next (match x.header with
    | none => s
    | some id =>
      let s := s.setLin c { x with header := none }
      match x.resp.get? id with
      | some own => if isSleep id own.2 then s.setFld .lin c Reg.LIN_CTRL 2 1 2 else s
      | none => match resp with
        | none => s.raise .lin c 1 0 0
        | some (_, _, false) => s.raise .lin c 0 0 0
        | some (data, enh, true) =>
          let qs := (List.finRange 32).filter (fun i => !isTxQueue i && (s.gwq i).st == 1 && (s.gwq i).kind == 2 && (s.gwq i).ctrl == c.val)
          let s := qs.foldl (fun (s : State) i => s.qDeliver i 2 (linRecord id enh data) 0 s.now32) s
          let s := s.pdusReceive (fun p => p.bus == 1 && p.ctrl == c.val && p.id.toNat == id.val) data
          if isSleep id data then s.setFld .lin c Reg.LIN_CTRL 2 1 2 else s)

/-- LIN_HEADER_RECEIVE (R520, R521): a responder sends its published response; otherwise it waits for another's. -/
def execLinHeaderReceive (c : Fin 8) (id : Fin 64) (s : State) : Out :=
  .next (if s.gwUp && !s.linCommander c && s.linMode c == 1 then s.setLin c { s.lin c with header := some id } else s)

/-- LIN_WAKEUP (R520): a sleeping controller runs again. -/
def execLinWakeup (c : Fin 8) (s : State) : Out :=
  .next (if s.gwUp && s.linMode c == 2 then s.setFld .lin c Reg.LIN_CTRL 2 1 1 else s)

/-! ### LIN_SET (R543) -/

def linSetFields : List (Nat × Nat × Nat) := [(8, 2, 0), (8, 9, 8), (0xC, 31, 0), (0x10, 47, 0)]

/-- One action of LIN_SET. The images of a configure action are read from 0x0C and 0x10 as CAN_SET's are; log entry 24. -/
def State.linSet (s : State) (p : Fin 64) (action : Nat) (k : Fin 8 → BitVec 512 → State) : State :=
  s.command p 0x51 [] linSetFields true (fun e =>
    if eBits e 8 9 8 = action then k (Fin.ofNat 8 (eBits e 8 2 0)) e else s)

/-- LIN_SET_CONFIGURE: images of LIN_CTRL and LIN_BAUD (R546). -/
def execLinSetConfigure (p : Fin 64) (s : State) : Out :=
  .next (s.linSet p 0 (fun c e =>
    let s := s.setReg .lin c Reg.LIN_BAUD (eWord e 0x10 &&& 0x7FFF)
    match s.linCtrl c (eWord e 0xC) with
    | (s, true) => s.ok p
    | (s, false) => s.refuse p 1))

/-- The entries of a schedule table in memory, whose layout is not stated: a free function of its bytes, held to 64 entries with
delays of 1 to 255 units. Log entry 24. -/
def parseSched (bs : List Byte) : List (Fin 64 × Nat) :=
  ((Config.linSchedule bs).take 64).map (fun e => (e.1, e.2 % 255 + 1))

/-- LIN_SET_LOAD_SCHEDULE (R520, R543). -/
def execLinSetLoadSchedule (p : Fin 64) (s : State) : Out :=
  .next (s.linSet p 1 (fun c e => match s.fwRead (p.val == 1) (eAddr e 0x10) 256 with
    | (s, none) => s.complete p stFAULT 0 0 0
    | (s, some bs) => (s.setLin c { s.lin c with sched := parseSched bs, entry := 0, started := none }).ok p))

/-- LIN_SET_START (R543): refused unless the controller is a running commander with a schedule. -/
def execLinSetStart (p : Fin 64) (s : State) : Out :=
  .next (s.linSet p 2 (fun c _ =>
    if !s.linCommander c ∨ s.linMode c ≠ 1 ∨ (s.lin c).sched = [] then s.refuse p 1
    else (s.setLin c { s.lin c with active := true, started := none }).ok p))

/-- LIN_SET_STOP (R543). -/
def execLinSetStop (p : Fin 64) (s : State) : Out :=
  .next (s.linSet p 3 (fun c _ => (s.setLin c { s.lin c with active := false }).ok p))

end Sys2Proof.Machine
end

