-- ==== Sys2Proof/Machine/DmaCtl.lean ====
section
/-! DEFINITION. Start and stop of DMA channels: chains, GO and STOP of TC_DMACTRLc (R110, R118, R144, R145, R452). -/

namespace Sys2Proof.Machine

/-- The frame that is current on each wheel: the frame of a descriptor that becomes the head now (R111). -/
def State.headFrames (s : State) : AMap (Fin 4) Word := (List.finRange 4).map (fun i => (i, (s.wheel i).frame))

/-- A chain starts at a line of the local store: its first descriptor is the head. -/
def State.startChain (s : State) (c : CoreId) (ch : Fin 8) (line : BitVec 20) : State :=
  (s.modChan c ch (fun h => { h with st := .idle, head := some line, rem := 0, headFrame := s.headFrames, stopping := none,
                                     desc := 0, beat := 0, out := [] })).chanAcquire c ch

/-- A core whose channels work: enabled, powered, and not the checker of a pair in lockstep (R43, R115). -/
def State.dmaReady (s : State) (c : CoreId) : Bool := s.coreEnabled c && s.up (domCluster c.cl) && !s.isChecker c

/-- DMA_CHAIN_START (R144): an idle channel takes the next chain of its queue. -/
def execDmaChainStart (c : CoreId) (ch : Fin 8) (s : State) : Out :=
  let h := s.chan c ch
  .next (match h.queue with
    | l :: t => if s.dmaReady c && h.st == .idle && h.head.isNone then
        (s.modChan c ch (fun h => { h with queue := t })).startChain c ch l else s
    | [] => s)

/-- GO (R110): it starts a channel in state 0, 3 or 4 at TC_DMAHEADc; a channel that works or waits for its phase ignores it. -/
def State.dmaGo (s : State) (c : CoreId) (ch : Fin 8) : State :=
  let h := s.chan c ch
  if h.st = .active ∨ h.st = .waitPhase ∨ h.head.isSome ∧ h.st = .idle then s
  else s.startChain c ch ((s.reg .tc c.inst (Reg.TC_DMAHEADc ch)).setWidth 20)

/-- STOP (R110): the channel stops after its current beat. -/
def State.dmaStop (s : State) (c : CoreId) (ch : Fin 8) : State :=
  let s := s.modChan c ch (fun h => h.stop true)
  if (s.chan c ch).st = .active then s else s.chanRelease c ch

/-- DMA_CHANNEL_GO (R14, R110, R118). -/
def execDmaChannelGo (src : Src) (c : CoreId) (ch : Fin 8) (s : State) : Out :=
  .next (s.regCommand src .tc c.inst (Reg.TC_DMACTRLc ch) (tcBase c) (fun s => s.guarded src .tc c.inst true (fun s => s.dmaGo c ch)))

/-- DMA_CHANNEL_STOP (R14, R110, R118). -/
def execDmaChannelStop (src : Src) (c : CoreId) (ch : Fin 8) (s : State) : Out :=
  .next (s.regCommand src .tc c.inst (Reg.TC_DMACTRLc ch) (tcBase c) (fun s => s.guarded src .tc c.inst true (fun s => s.dmaStop c ch)))

end Sys2Proof.Machine
end

