-- ==== Sys2Proof/Machine/Pcie.lean ====
section
/-! DEFINITION. The PCIe root port (R512, R513, R533, R539 to R544, R549). -/

namespace Sys2Proof.Machine

def State.pciUp (s : State) : Bool := s.up 103 && s.fld .pci 0 Reg.PCI_STAT 31 28 == 2

/-- The address lies in the memory window or in ECAM. -/
def State.isPci (s : State) (a : Nat) : Bool :=
  match s.target a with
  | .pciCfg _ | .pciMem _ => true
  | _ => false

def State.pciTx (s : State) (isRead : Bool) : List Tx := s.fab.tx.filter (fun t => t.isRead == isRead && s.isPci t.addr)

/-- An access from a die takes its credits and a tracker, or waits at its source (R221). -/
def State.sendPci (s : State) (isRead : Bool) (src : Src) (a len : Nat) (data : List Byte) : State :=
  if !s.trackerFree isRead src a || !s.mayCross src a len (!isRead) then s
  else match s.takeCredits src a (flits (!isRead) len) with
    | none => s
    | some s => (s.cross src a len (!isRead)).addTx isRead src a len data none 8

/-- An access to the PCIe areas (R540): 256 reads and 64 posted writes outstanding; a yielding port takes none (R542). `reply` is what
the endpoint will answer to a read; none for no completion. -/
def State.pciOutbound (s : State) (src : Src) (a : Nat) (isRead : Bool) (len : Nat) (data : List Byte) (reply : Option (List Byte)) : State :=
  if !s.isPci a then s
  else match s.refusal src a len (!isRead) with
    | some r =>
      let s := (s.cross src a len (!isRead)).recordRefusal src a r
      if isRead then s.deliver src a [] (some r.code) else s.pwFail src a r.code (addrDie a)
    | none =>
      if s.gw.pciYield then s
      else if isRead then
        if 256 ≤ (s.pciTx true).length then s else s.sendPci true src a len ((reply.getD []).take len)
      else if !s.pciUp then s.pwFail src a 6 (addrDie a)
      else if 64 ≤ (s.pciTx false).length then s
      else s.sendPci false src a len data

/-- PCIE_OUTBOUND_REQUEST (R540): a read of `len` bytes, or a posted write of `data`. -/
def execPcieOutboundRequest (src : Src) (a : Addr) (isRead : Bool) (len : Nat) (data : List Byte) (reply : Option (List Byte)) (s : State) : Out :=
  .next (s.pciOutbound src a.toNat isRead (if isRead then len else data.length) data reply)

/-- PCIE_COMPLETION_TIMEOUT (R540): 50 µs without a completion. -/
def execPcieCompletionTimeout (id : Nat) (s : State) : Out :=
  .next (match s.txOf id with
    | some t =>
      if t.isRead && s.isPci t.addr && decide (t.since + 50000 ≤ s.now) then
        ((s.dropTx id).raise .pci 0 2 t.addr 0).readFailed t 6
      else s
    | none => s)

/-- The link is down: unacknowledged posted writes fail at once (R540). -/
def State.pciDown (s : State) : State :=
  let s := (s.setReg .pci 0 Reg.PCI_STAT 0).raise .pci 0 3 0 0
  (s.pciTx false).foldl (fun (s : State) t => (s.dropTx t.id).pwFail t.src t.addr 6 t.target) s

/-- PCIE_LINK_DOWN (R540). -/
def execPcieLinkDown (s : State) : Out :=
  .next (if s.up 103 && s.fld .pci 0 Reg.PCI_STAT 31 28 != 0 then s.pciDown else s)

/-! ### Inbound windows (R513, R541) -/

def State.winBase (s : State) (w : Fin 8) : Nat :=
  (s.reg .pci 0 (Reg.PCI_WINBASELw w)).toNat + (s.reg .pci 0 (Reg.PCI_WINBASEHw w)).toNat * 2 ^ 32
def State.winSize (s : State) (w : Fin 8) : Nat := (s.reg .pci 0 (Reg.PCI_WINSIZEw w)).toNat * 4096
def State.winAttr (s : State) (w : Fin 8) : Word := s.reg .pci 0 (Reg.PCI_WINATTRw w)

/-- The valid window that holds a whole range. -/
def State.pciWindow (s : State) (a n : Nat) : Option (Fin 8) :=
  (List.finRange 8).find? (fun w => bitOf (s.winAttr w) 31 && decide (s.winBase w ≤ a) && decide (a + n ≤ s.winBase w + s.winSize w))

def State.winSrc (s : State) (w : Fin 8) : Src :=
  let v := s.winAttr w
  let ctx : BitVec 12 := v.setWidth 12
  ⟨6, BitVec.ofNat 10 (72 + w.val), bitOf v 29, ctx, s.gen ctx, Fin.ofNat 8 (bitsOf v 28 26), false⟩

/-- An MSI reaches an IMSIC page in the domain of VD_PCIE's owner world (R541). -/
def State.msi (s : State) (a : Nat) (data : List Byte) : State :=
  let k := (s.trustedOwns 103, a / 4096)
  { s with cpu := { s.cpu with imsic := s.cpu.imsic.set k (s.cpu.imsic.get k 0 ||| BitVec.ofNat 256 (1 <<< (leNat data % 256))) } }

/-- A credit of the root port: from the link, or into the fabric (R542). -/
def State.pciProgress (s : State) : State := { s with gw := { s.gw with pciCredAt := s.now } }

/-- The root port's oldest inbound posted request goes to the fabric. -/
def State.pciPop (s : State) : State :=
  match s.gw.pciInQ with
  | [] => s
  | x :: t => ({ s with gw := { s.gw with pciInQ := t } }).unitWrite x.1 x.2.1 x.2.2

/-- Each cycle the root port passes its oldest inbound posted request on, when the fabric takes it (R542). -/
def State.pciDrain (s : State) : State :=
  match s.gw.pciInQ with
  | [] => s
  | x :: _ => if s.up 103 && s.mayCross x.1 x.2.1 x.2.2.length true then s.pciPop.pciProgress else s

/-- PCIE_INBOUND_REQUEST (R539, R541, R542): an endpoint's read of `len` bytes, or its write of `data`; whether the link reported a
correctable error. A read stays behind posted requests. A write that finds 64 held waits at the endpoint. -/
def execPcieInboundRequest (a : Addr) (isRead : Bool) (len : Nat) (data : List Byte) (aer : Bool) (s : State) : Out :=
  let n := if isRead then len else data.length
  let answer (s : State) (r : Option (List Byte)) : State := { s with gw := { s.gw with pciIn := some (a.toNat, r) } }
  .next (if !s.pciUp || (isRead && !s.gw.pciInQ.isEmpty) || (!isRead && decide (64 ≤ s.gw.pciInQ.length)) then s
    else
      let s := if aer then s.raise .pci 0 0 a.toNat 0 else s
      match s.pciWindow a.toNat n with
      | none =>
        let s := s.raise .pci 0 1 a.toNat 0
        if isRead then answer s none else s
      | some w =>
        if isRead then
          let (s, r) := s.unitRead (s.winSrc w) a.toNat n
          answer s r
        else if bitOf (s.winAttr w) 30 then s.msi a.toNat data
        else if s.gw.pciInQ.isEmpty && s.mayCross (s.winSrc w) a.toNat n true then (s.unitWrite (s.winSrc w) a.toNat data).pciProgress
        else { s with gw := { s.gw with pciInQ := s.gw.pciInQ ++ [(s.winSrc w, a.toNat, data)] } })

/-- PCIE_YIELD (R542): both directions full and no credit for 400 ns; `n` inbound requests pass through the escape buffer. -/
def execPcieYield (n : Fin 17) (s : State) : Out :=
  .next (if s.pciUp && !s.gw.pciYield && decide (64 ≤ (s.pciTx false).length) && decide (64 ≤ s.gw.pciInQ.length) &&
      decide (s.gw.pciCredAt + 400 ≤ s.now) then
    let s := s.count .pci 0 Reg.PCI_YIELDCNT 1
    upTo n.val (fun _ (s : State) => s.pciPop) { s with gw := { s.gw with pciYield := true } } else s)

/-! ### Commands (R543) -/

/-- PCI_WINDOW (R543, R641). -/
def execPciWindow (p : Fin 64) (s : State) : Out :=
  .next (s.command p 0x5A [] [(8, 2, 0), (8, 13, 8), (8, 27, 16), (0x10, 47, 0), (0x18, 63, 0)] true (fun e =>
    let w : Fin 8 := Fin.ofNat 8 (eBits e 8 2 0)
    let valid := eBits e 8 8 8 == 1
    let world := eBits e 8 10 10 == 1
    let ctx : BitVec 12 := BitVec.ofNat 12 (eBits e 8 27 16)
    let base := eAddr e 0x10
    let size := eAddr e 0x18
    let overlaps := (List.finRange 8).any (fun (x : Fin 8) => x != w && bitOf (s.winAttr x) 31 &&
      decide (base < s.winBase x + s.winSize x) && decide (s.winBase x < base + size))
    if valid ∧ (base % 4096 ≠ 0 ∨ size % 4096 ≠ 0 ∨ size = 0 ∨ 2 ^ 48 < base + size) then s.complete p stBADARG 0 0 0
    else if valid ∧ ctx ≠ 0 ∧ !s.ctxLive ctx then s.complete p stNOTFOUND 0 0 0
    else if valid ∧ overlaps then s.refuse p 4
    else if valid ∧ ctx ≠ 0 ∧ world ≠ s.ctxWorld ctx then s.refuse p 5
    else
      let s := s.setReg2 .pci 0 (Reg.PCI_WINBASELw w) (Reg.PCI_WINBASEHw w) base
      let s := s.setReg .pci 0 (Reg.PCI_WINSIZEw w) (BitVec.ofNat 32 (size / 4096))
      (s.setReg .pci 0 (Reg.PCI_WINATTRw w) (BitVec.ofNat 32
        (b2n valid * 2 ^ 31 + eBits e 8 9 9 * 2 ^ 30 + b2n world * 2 ^ 29 + eBits e 8 13 11 * 2 ^ 26 + ctx.toNat))).ok p))

/-- One action of PCI_LINK; action 3 is outside its range. -/
def State.pciLink (s : State) (p : Fin 64) (action : Nat) (k : State → State) : State :=
  s.command p 0x5B [] [(8, 1, 0)] true (fun e =>
    if eBits e 8 1 0 = 3 then s.complete p stBADARG 0 0 0
    else if eBits e 8 1 0 = action then (k s).ok p
    else s)

/-- PERST_N is held low. -/
def State.perst (s : State) : Bool := s.fld .pci 0 Reg.PCI_CTRL 1 1 == 1

/-- PCI_LINK_TRAIN (R543): `result` is the rate and width in L0, none when training fails. -/
def execPciLinkTrain (p : Fin 64) (result : Option (Fin 6 × Fin 5)) (s : State) : Out :=
  .next (s.pciLink p 0 (fun s => match result with
    | some (rate, width) =>
      if s.perst || !s.up 103 then s.setReg .pci 0 Reg.PCI_STAT 0
      else s.setReg .pci 0 Reg.PCI_STAT (BitVec.ofNat 32 (2 * 2 ^ 28 + rate.val * 2 ^ 24 + width.val * 2 ^ 20))
    | none => s.setReg .pci 0 Reg.PCI_STAT 0))

/-- PCI_LINK_PERST_ASSERT (R543): the link goes down. -/
def execPciLinkPerstAssert (p : Fin 64) (s : State) : Out :=
  .next (s.pciLink p 1 (fun s =>
    let s := s.setFld .pci 0 Reg.PCI_CTRL 1 1 1
    if s.fld .pci 0 Reg.PCI_STAT 31 28 = 0 then s else s.pciDown))

/-- PCI_LINK_PERST_RELEASE (R543). -/
def execPciLinkPerstRelease (p : Fin 64) (s : State) : Out := .next (s.pciLink p 2 (fun s => s.setFld .pci 0 Reg.PCI_CTRL 1 1 0))

end Sys2Proof.Machine
end

