-- ==== Sys2Proof/Machine/Aplic.lean ====
section
/-! DEFINITION. The two APLIC domains of the application CPU complex and their wired sources (R370, R510, R541, R544, R584, R610). Log entry
118. -/

namespace Sys2Proof.Machine

/-- A pair of a world has a pending completion (R370, R510). -/
def State.cqLevel (s : State) (world : Bool) : Bool :=
  (List.finRange 64).any (fun p => (s.ring p).world == world && bitOf (s.reg .fw 0 (Reg.FW_CQPENDw (p.val / 32))) (p.val % 32))

/-- The level of a wired source (R510, R544, R584, R610); a source that no chapter assigns is never asserted. -/
def State.aplicLevel (s : State) (n : Nat) : Bool :=
  let pend (b : Blk) (off : Nat) : Bool := bitOf (s.reg b 0 off) 0
  if 1 ≤ n ∧ n ≤ 32 then (s.trig (Fin.ofNat 32 (n - 1))).irq
  else if n = 33 then s.cqLevel false
  else if n = 34 then s.cqLevel true
  else if n = 35 then s.intPending .fab 6
  else if n = 36 then s.intPending .cpu 0
  else if 37 ≤ n ∧ n ≤ 44 then bitOf (s.reg .lks (n - 37) Reg.LKS_STAT) 2
  else if 45 ≤ n ∧ n ≤ 68 then s.intPending .can (n - 45)
  else if 69 ≤ n ∧ n ≤ 76 then s.intPending .lin (n - 69)
  else if n = 77 then s.intPending .sw 0
  else if n = 78 then s.intPending .gw 0
  else if n = 79 then s.intPending .pci 0
  else if 80 ≤ n ∧ n ≤ 111 then pend .gw (Reg.GW_QPENDi (n - 80))
  else if 112 ≤ n ∧ n ≤ 127 then s.intPending .cam (n - 112)
  else if n = 128 then s.intPending .isp 0
  else if n = 129 then s.intPending .gfx 0
  else if 130 ≤ n ∧ n ≤ 145 then pend .gfx (Reg.GFX_QPENDq (n - 130))
  else if 146 ≤ n ∧ n ≤ 151 then s.intPending .dsp (n - 146)
  else if n = 152 then s.intPending .cdc 0
  else if n = 153 then s.intPending .wde 0
  else if 154 ≤ n ∧ n ≤ 217 then pend .wde (Reg.WDE_RQPENDq (n - 154))
  else if 218 ≤ n ∧ n ≤ 233 then pend .wde (Reg.WDE_SQPENDq (n - 218))
  else false

/-- The domain that a source goes to: the world that owns its block, or its queue's world (R390, R510, R544, R584, R610). -/
def State.aplicWorld (s : State) (n : Nat) : Bool :=
  if n ≤ 32 then s.trustedOwns 86
  else if n ≤ 34 then n == 34
  else if n = 35 then s.trustedOwns 84
  else if n = 36 then s.trustedOwns 91
  else if n ≤ 44 then s.trustedOwns (92 + (n - 37))
  else if n ≤ 78 then s.trustedOwns 101
  else if n = 79 then s.trustedOwns 103
  else if n ≤ 111 then decide (96 ≤ n)
  else if n ≤ 119 then s.trustedOwns 106
  else if n ≤ 127 then s.trustedOwns 107
  else if n = 128 then s.trustedOwns 108
  else if n = 129 then s.trustedOwns 109
  else if n ≤ 145 then s.ctxWorld (s.gfx (Fin.ofNat 16 (n - 130))).ctx
  else if n ≤ 151 then s.trustedOwns 114
  else if n = 152 then s.trustedOwns 115
  else if 154 ≤ n ∧ n ≤ 217 then s.ctxWorld (((s.wde.rqs.get? (Fin.ofNat 64 (n - 154))).map (·.ctx)).getD 0)
  else s.trustedOwns 102

/-- An identity becomes pending in an IMSIC page of a world (R495, R510, R541). -/
def State.msiSet (s : State) (world : Bool) (page : Nat) (eiid : Nat) : State :=
  { s with cpu := { s.cpu with imsic := s.cpu.imsic.set (world, page) (s.cpu.imsic.get (world, page) 0 ||| BitVec.ofNat 256 (1 <<< eiid)) } }

/-- The event of a trigger's interrupt has been taken; other wires stay as their blocks hold them. -/
def State.aplicTook (s : State) (n : Nat) : State :=
  if 1 ≤ n ∧ n ≤ 32 then s.setTrig (Fin.ofNat 32 (n - 1)) { s.trig (Fin.ofNat 32 (n - 1)) with irq := false } else s

/-- One source of a domain looks at its wire: a rising level makes it pending, a low one takes that back, and an enabled source that is
pending sends its MSI (R510). -/
def State.aplicLook (s : State) (k : Bool × Fin 1024) (x : AplicSrc) : State :=
  let level := s.aplicWorld k.2 == k.1 && s.aplicLevel k.2
  let pend := level && (x.pend || !x.seen)
  let put (s : State) (y : AplicSrc) : State := { s with cpu := { s.cpu with aplic := s.cpu.aplic.set k y } }
  if pend && x.enable then put ((s.msiSet k.1 x.page x.eiid).aplicTook k.2) { x with seen := level, pend := false }
  else put s { x with seen := level, pend := pend }

/-- The APLIC domains in one cycle. -/
def State.aplicTick (s : State) : State :=
  if s.on.getLsbD 91 then s.cpu.aplic.foldl (fun (s : State) (e : (Bool × Fin 1024) × AplicSrc) => s.aplicLook e.1 e.2) s else s

end Sys2Proof.Machine
end

