-- ==== Sys2Proof/Machine/Power.lean ====
section
/-! DEFINITION. Power commands: resets, coolant, temperature, current, switching, the cap, shutdown (R370 to R398, R622 to R632). -/

namespace Sys2Proof.Machine

/-! ### Resets (R395, R622, R625, R626) -/

/-- Nothing survives a reset but fuses, and what the model keeps for itself. -/
def State.powerLost (s : State) : State :=
  { State.reset with pending := s.pending, fixed := s.fixed, freeCtr := s.freeCtr,
                     pwr := { PwrState.reset with densityBlown := s.pwr.densityBlown } }

/-- RESET_ASSERT (R626): RESET_N low for `ns`; between 200 ns and 1 µs the package may or may not reset, which `may` says. -/
def execResetAssert (ns : Nat) (may : Bool) (s : State) : Out :=
  .next (if 1000 ≤ ns ∨ (200 ≤ ns ∧ may) then s.powerLost else s)

/-- SUPPLY_FAULT (R622): a rail more than 6 % from nominal for `ns`. -/
def execSupplyFault (ns : Nat) (s : State) : Out := .next (if 2000 ≤ ns then s.powerLost else s)

/-- REFCLK_LOSS (R622, R625). -/
def execRefclkLoss (s : State) : Out := .next s.powerLost

/-- POWER_REMOVAL (R395). -/
def execPowerRemoval (s : State) : Out := .next s.powerLost

/-! ### Coolant (R384) -/

/-- Switches and requests of domains that go off for another reason end. -/
def State.cancelSwitches (s : State) (f : Nat → Bool) (code : Nat) : State :=
  let gone := (s.pwr.switching.filter (fun e => f e.1.dom)).map (·.1) ++ s.pwr.queue.filter (fun r => f r.dom)
  let mask := gone.foldl (fun (m : BitVec 116) (r : PwrReq) => m &&& ~~~(BitVec.ofNat 116 (2 ^ r.dom))) s.busy
  let s := { s with busy := mask, pwr := { s.pwr with switching := s.pwr.switching.filter (fun e => !f e.1.dom),
                                                       queue := s.pwr.queue.filter (fun r => !f r.dom) } }
  gone.foldl (fun (s : State) (r : PwrReq) => s.reqResult r.by_ (if r.on then code else 0)) s

/-- Domains of a list go off, a domain before the one that it requires. -/
def State.allOff (s : State) (doms : List Nat) : State :=
  let order := (doms.filter (fun d => isTolid d && decide (1 ≤ d % 14))) ++ (doms.filter (fun d => isTolid d && d % 14 == 0)) ++
    (doms.filter (fun d => !isTolid d)).reverse
  order.foldl (fun (s : State) d => s.powerOff d) s

/-- Steps 2 and 3 of R384 for some Tolid dies. -/
def State.tolidOff (s : State) (dies : List Nat) : State :=
  let parts := (s.sched.parts.filter (fun e => e.2.recs.any (fun r => dies.contains r.cl.die.val))).map (·.1)
  let s := parts.foldl (fun (s : State) p => s.forceUnload p .faulted) s
  let s := s.cancelSwitches (fun d => isTolid d && dies.contains (d / 14)) 3
  s.allOff ((List.range 84).filter (fun d => dies.contains (d / 14)))

/-- Tolid dies go off without a change of the package state: in FAILED, which only RESET_N leaves (R380), and in BOOTING, where the
start goes on without coolant and ends in PARTIAL. DESIGN CHOICE, log entry 109. -/
def State.tolidDrop (s : State) (dies : List Nat) : State :=
  let s := (s.tolidOff dies).syncBudget
  { s with pwr := { s.pwr with bootCool := false } }

/-- R384: the package leaves READY for PARTIAL with some Tolid dies off. -/
def State.toPartial (s : State) (dies : List Nat) : State :=
  if s.pkg ≠ pkREADY ∧ s.pkg ≠ pkPARTIAL then s.tolidDrop dies
  else
    let s := s.withdraw
    let s := s.setPkg pkPARTIAL
    (((s.tolidOff dies).setFld .pwr 0 Reg.PWR_STAT 1 1 0).syncBudget).publish false

/-- COOL_OK_DEASSERT (R53, R381, R384): every Tolid domain goes off, whatever the state of the package. -/
def execCoolOkDeassert (s : State) : Out :=
  .next (if !s.cool then s
    else
      let s := s.setFld .pwr 0 Reg.PWR_STAT 2 2 0
      let s := { s with pwr := { s.pwr with lateCool := none } }
      if s.pkg = pkREADY then (s.raise .pwr 0 3 0 0).toPartial (List.range 6) else s.tolidDrop (List.range 6))

/-! ### Temperature (R385, R393, R632) -/

/-- One domain is shed with the domains that require it (R385): fault trace, and it may not come back without coolant. -/
def State.shedDomain (s : State) (d : Nat) : State :=
  let s := if d = 86 then (List.finRange 4).foldl (fun (s : State) w => if whlCamera (s.whlCfg w) then s else s.loseSource w) s
    else (List.finRange 4).foldl (fun (s : State) w =>
      if whlCamera (s.whlCfg w) && camDomain (whlRecv (s.whlCfg w)) == d then s.loseSource w else s) s
  let s := s.cancelSwitches (fun e => e == d) 3
  let s := ({ s.powerOff d with pwr := { (s.powerOff d).pwr with shed := (s.powerOff d).pwr.shed ||| BitVec.ofNat 116 (2 ^ d) } })
  s.trace 8 0x0701 [blockArg .pwr 0, 1, 5, d]

/-- The domains that require a domain, farthest first, then it. -/
def dependents (d : Nat) : List Nat :=
  let l1 := allDomains.filter (fun e => domRequires e == some d)
  let l2 := l1.flatMap (fun e => allDomains.filter (fun f => domRequires f == some e))
  let l3 := l2.flatMap (fun e => allDomains.filter (fun f => domRequires f == some e))
  l3 ++ l2 ++ l1 ++ [d]

/-- Shedding goes on until the budget sum is at most 40 W. -/
def State.shedList : List Nat → State → State
  | [], s => s
  | d :: t, s =>
    if s.budgetSum ≤ 160 then s
    else State.shedList t (((dependents d).filter (fun e => s.domOn e || s.busy.getLsbD e)).foldl (fun (s : State) e => s.shedDomain e) s)

/-- Order of shedding (R385). -/
def State.shedOrder (s : State) : List Nat :=
  let vm := (allDomains.filter (fun d => !isTolid d && !mandatory.contains d && !s.fixed.optional.contains d)).reverse
  vm ++ (s.fixed.optional.filter (fun d => !mandatory.contains d)).reverse

def State.shed (s : State) : State :=
  let s := if s.pwr.shed = 0 then s.raise .pwr 0 5 0 0 else s
  (State.shedList s.shedOrder s).syncBudget

/-- Steps 4 and 5 of R394: domains go off in reverse order of bring-up, and the package ends in a state. -/
def State.powerDown (s : State) (final : Nat) : State :=
  let s := s.cancelSwitches (fun _ => true) 1
  let order := [5, 4, 3, 2].flatMap (fun k =>
    let l := allDomains.filter (fun d => startStep d == k)
    (l.filter (fun d => decide (110 ≤ d) || (decide (92 ≤ d) && decide (d ≤ 99)))) ++ (l.filter (fun d => isTolid d)) ++
      (l.filter (fun d => !isTolid d && !(decide (110 ≤ d) || (decide (92 ≤ d) && decide (d ≤ 99))))).reverse)
  let s := order.foldl (fun (s : State) d => s.powerOff d) s
  let s := { s with fw := { s.fw with rings := [], sessions := [], ringKey := [] } }
  ((s.setPkg final).setFld .pwr 0 Reg.PWR_STAT 1 1 0).syncBudget

/-- Steps 1 and 2 of R394: all work ends and its completions are posted. -/
def State.endAllWork (s : State) : State :=
  let s := (s.setPkg pkSHUTTING).withdraw
  let s := (s.sched.parts.map (·.1)).foldl (fun (s : State) p => (s.disarmAll p).endJobs p .aborted .aborted) s
  State.postMailbox s.sched.mailbox.length s

/-- SHUTDOWN after step 2 of R394: the package is SHUTTING until the next cycle in which no command waits, when the other steps end:
DESIGN CHOICE, log entry 110. -/
def State.shutDown (s : State) (final : Nat) : State :=
  let s := (List.finRange 8).foldl (fun (s : State) (p : Fin 8) => s.haltPair p) s
  { s with pwr := { s.pwr with shutTo := some final } }

/-- What a cycle without a command does: a shutdown ends, the 500 MHz clock advances, the APLIC looks at its sources, and
the root port passes an inbound request on (R233, R394, R510, R542). -/
def State.idle (s : State) : State :=
  match s.pwr.shutTo with
  | some k =>
    let s := { s with pwr := { s.pwr with shutTo := none } }
    let s := s.powerDown k
    (if k = pkFAILED then s.setFld .flt 0 Reg.FLT_PINHOLD 1 1 1 else s).clockTick.aplicTick.pciDrain
  | none => s.clockTick.aplicTick.pciDrain

/-- Package cut off in hardware above 125 degrees C: the state stays FAILED (R371, R393). -/
def State.hardCut (s : State) : State :=
  let s := s.packageFail
  let s := allDomains.reverse.foldl (fun (s : State) d => s.powerOff d) s
  let s := { s with fw := FwState.reset, pwr := { s.pwr with cut := true, switching := [], queue := [], shutTo := none }, busy := 0 }
  s.setFld .pwr 0 Reg.PWR_STAT 31 28 pkFAILED

/-- What the readings of one die do (R393, R632). -/
def State.thermDie (s : State) (d : Fin 8) (t : Int) : State :=
  let warned := s.pwr.warned.getLsbD d
  let s := if 110 < t ∧ !warned then
      ({ s with pwr := { s.pwr with warned := s.pwr.warned ||| BitVec.ofNat 8 (2 ^ d.val) } }).raise .pwr 0 5 0 0
    else if t < 105 then { s with pwr := { s.pwr with warned := s.pwr.warned &&& ~~~(BitVec.ofNat 8 (2 ^ d.val)) } }
    else s
  let s := { s with pwr := { s.pwr with temp := s.pwr.temp.set d t,
                                        hot := if 118 < t then s.pwr.hot.set d (s.pwr.hot.get d s.now) else s.pwr.hot.erase d } }
  match s.pwr.hot.get? d with
  | some since =>
    if since + 100000 ≤ s.now ∧ s.domOn (domFab d) then
      let s := { s with pwr := { s.pwr with hot := s.pwr.hot.erase d } }
      let s := s.raise .pwr 0 6 0 0
      if d.val < 6 then s.toPartial [d.val]
      else s.endAllWork.shutDown pkFAILED
    else s
  | none => s

/-- The hottest die of a list of readings. -/
def hottest : List (Fin 8 × Int) → Option (Fin 8 × Int)
  | [] => none
  | x :: t => match hottest t with
    | none => some x
    | some y => if x.2 < y.2 then some y else some x

/-- THERMAL_SAMPLE (R385, R393, R632): readings of the sensors of each die that has power; a die acts on its hottest. -/
def execThermalSample (readings : List (Fin 8 × Int)) (s : State) : Out :=
  .next (if s.pkg = pkRESET ∨ s.pwr.cut then s
    else match hottest readings with
      | none => s
      | some (d, t) =>
        if 125 < t then s.hardCut
        else
          let s := s.setReg .pwr 0 Reg.PWR_THERM (BitVec.ofNat 32 (d.val * 2 ^ 12 + wrapN 9 t))
          let s := (List.finRange 8).foldl (fun (s : State) d => match hottest (readings.filter (fun r => r.1 == d)) with
            | some r => s.thermDie d r.2
            | none => s) s
          if !s.cool && (s.pkg == pkPARTIAL) && decide (160 < s.budgetSum) && readings.any (fun r => decide (6 ≤ r.1.val) && decide (100 ≤ r.2)) then s.shed else s)

/-! ### Current (R392) -/

/-- Averages over each ten consecutive samples. -/
def averages : List Nat → List Nat
  | [] => []
  | x :: t => (if 9 ≤ t.length then [((x :: t).take 10).foldl (· + ·) 0 / 10] else []) ++ averages t

/-- POWER_SAMPLE (R392): the supply current in units of 0.25 W. -/
def execPowerSample (quarters : Nat) (s : State) : Out :=
  .next (if s.pkg = pkRESET ∨ s.pwr.cut then s
    else
      let l := (quarters :: s.pwr.samples).take 100
      let s := { s with pwr := { s.pwr with samples := l } }
      let as := averages l
      match as with
      | [] => s
      | a :: _ =>
        let s := s.setReg .pwr 0 Reg.PWR_MEAS (BitVec.ofNat 32 (as.foldl Nat.max 0 % 4096 * 2 ^ 16 + a % 4096))
        if s.effCap < a then s.raise .pwr 0 4 0 0 else s)

/-! ### Switching -/

/-- DOMAIN_SWITCH_DONE (R54, R387 to R389): an off switch has drained, or its drain has ended. -/
def execDomainSwitchDone (d : Fin 116) (silent : Option (Fin 11 × Nat)) (s : State) : Out :=
  .next (match s.switchOf d with
    | none => s
    | some e =>
      if !e.1.on && s.fab.tx.any (fun t => !t.isRead && !t.src.fw && agentDomain t.src.die t.src.agent == d.val) then s
      else s.switchDone e (silent.map (fun x => (x.1.val, x.2))))

/-- DOMAIN_DRAIN_END (R54, R223): 50 µs after an off switch began. -/
def execDomainDrainEnd (d : Fin 116) (s : State) : Out :=
  .next (match s.switchOf d with
    | none => s
    | some e => if !e.1.on && decide (e.2 + 50000 ≤ s.now) then s.drainDomain d else s)

/-- A pair's request is in the queue or under way. -/
def State.reqPending (s : State) (b : PwrBy) : Bool := s.pwr.queue.any (fun r => r.by_ == b) || s.pwr.switching.any (fun e => e.1.by_ == b)

/-- PWR_DOMAIN (R387 to R390, R396, R488): the command completes when the switch is done. -/
def execPwrDomain (p : Fin 64) (s : State) : Out :=
  .next (s.command p 0x28 [] [(8, 6, 0), (8, 8, 8)] true (fun e =>
    let d := eBits e 8 6 0
    if s.reqPending (.ring p) then s
    else if 115 < d then s.complete p stBADARG 0 0 0
    else if s.trustedOwns d ≠ decide (p = 1) then (s.wrongWorld).complete p stDENIED 0 0 0
    else s.request ⟨d, eBits e 8 8 8 = 1, .ring p⟩))

/-- PWR_REQ (R398, R488): GO under expert control, from the world that owns the domain. -/
def execPwrReq (src : Src) (v : Word) (s : State) : Out :=
  .next (s.regCommand src .pwr 0 Reg.PWR_REQ (vehRegs 0x1500000) (fun s =>
    let d := bitsOf v 6 0
    if !bitOf v 31 then s
    else if !s.mayWrite src .pwr 0 ∨ s.reqPending .expert ∨ 115 < d then s.ignoredWrite .pwr 0
    else if s.trustedOwns d ≠ src.world then s.wrongWorld
    else (s.setReg .pwr 0 Reg.PWR_REQRES 0).request ⟨d, bitOf v 30, .expert⟩))

/-! ### The cap, readings, shutdown -/

/-- PWR_CAP (R391, R396). -/
def execPwrCap (p : Fin 64) (s : State) : Out :=
  .next (s.command p 0x29 [] [(8, 9, 0)] true (fun e =>
    let w := eBits e 8 9 0
    if w < 120 ∨ 560 < w then s.complete p stBADARG 0 0 0
    else if w * 4 < s.budgetSum then s.refuse p 6
    else (s.setReg .pwr 0 Reg.PWR_CAP (BitVec.ofNat 32 w)).ok p))

/-- PWR_CAP_WRITE (R391, R398). -/
def execPwrCapWrite (src : Src) (v : Word) (s : State) : Out :=
  .next (s.regCommand src .pwr 0 Reg.PWR_CAP (vehRegs 0x1500000) (fun s =>
    let w := bitsOf v 9 0
    s.guarded src .pwr 0 (w != s.fld .pwr 0 Reg.PWR_CAP 9 0) (fun s =>
      if w < 120 ∨ 560 < w ∨ w * 4 < s.budgetSum then s.ignoredWrite .pwr 0
      else s.setReg .pwr 0 Reg.PWR_CAP (BitVec.ofNat 32 w))))

def State.onWord (s : State) (i : Nat) : Nat := s.on.toNat / 2 ^ (32 * i) % 2 ^ 32

/-- PWR_READ (R396, R642). -/
def execPwrRead (p : Fin 64) (s : State) : Out :=
  .next (s.command p 0x2A [] [(0x10, 47, 0)] true (fun e =>
    let ws := [Reg.PWR_STAT, Reg.PWR_CAP, Reg.PWR_BUDGET, Reg.PWR_MEAS, Reg.PWR_THERM].map (fun o => (s.reg .pwr 0 o).toNat)
    s.copyBuf p (eAddr e 0x10) ((ws ++ (List.range 4).map s.onWord).flatMap (leBytes 4)) 0 0))

/-- SHUTDOWN (R394): the completion is posted before the CPU pairs halt. -/
def execShutdown (p : Fin 64) (s : State) : Out :=
  .next (s.command p 0x2B [] [] true (fun _ => ((s.endAllWork).ok p).shutDown pkOFF))

/-- BOOT_REPORT (R396, R642). -/
def execBootReport (p : Fin 64) (s : State) : Out :=
  .next (s.command p 0x2C [] [(0x10, 47, 0)] true (fun e =>
    let ts := (List.range 8).map (fun k => (s.pwr.bootTimes.get (Fin.ofNat 9 (k + 1)) 0).toNat)
    let ws := ts ++ [(s.reg .pwr 0 Reg.PWR_BOOTERR).toNat, (s.reg .pwr 0 Reg.PWR_BOOTTIME).toNat]
    s.copyBuf p (eAddr e 0x10) (ws.flatMap (leBytes 4)) 0 0))

end Sys2Proof.Machine
end

