-- ==== Sys2Proof/Machine/Switch.lean ====
section
/-! DEFINITION. The switch, its flow table and MDIO, the host-queue engines and the signal gateway (R522 to R538, R543, R547,
R548). -/

namespace Sys2Proof.Machine

/-! ### Frames -/

/-- External ports need their link (R378, R547). -/
def State.portLink (s : State) (p : Fin 14) : Bool := decide (10 ≤ p.val) || s.fld .sw 0 (Reg.SW_PSTATp p) 1 1 == 1

/-- SWITCH_FRAME_RECEIVE (R524): a frame; received pause frames are dropped (R523). -/
def execSwitchFrameReceive (p : Fin 14) (bytes : List Byte) (pass : Bool) (ecc : Option EccErr) (s : State) : Out :=
  .next (if !s.gwUp || !s.portEnabled p || !s.portLink p then s
    else
      let s := s.count .sw 0 (Reg.SW_RXFRMp p) 1
      if bytes.length < 60 ∨ 9212 < bytes.length ∨ ethType bytes = 0x8808 then s.swDrop p
      else (s.swForward ⟨bytes, p, s.now32, none⟩ pass ecc).1)

/-- A frame leaves by its port: to the wire, to a host receive queue, to firmware, or to the signal gateway. -/
def State.swDeliver (s : State) (p : Fin 14) (q : Fin 8) (f : EthFrame) : State :=
  if p.val = 10 ∨ p.val = 11 then s.qDeliver (rxQueueOf p q) 0 f.bytes f.ingress f.stamp
  else if p.val = 12 then
    if ethType f.bytes = 0x88F7 then { s with time := { s.time with gptpRx := s.time.gptpRx ++ [(f.ingress, f.stamp)] } } else s
  else if p.val = 13 then s.framePdus f.bytes
  else s

/-- SWITCH_FRAME_EGRESS (R524, R531, R547): the oldest frame of a queue is sent, or is dropped at egress, as one with an uncorrectable
buffer error is. -/
def execSwitchFrameEgress (p : Fin 14) (q : Fin 8) (sent : Bool) (ecc : Option EccErr) (s : State) : Out :=
  .next (if !s.gwUp then s
    else match s.egressQ p q with
      | [] => s
      | f :: t =>
        let s := { s with gw := { s.gw with egress := s.gw.egress.set (p, q) t } }
        let s := match ecc with
          | some .single => s.raise .sw 0 0 0 0
          | some .double => (s.raise .sw 0 1 0 0).swDrop f.ingress
          | none => s
        let sent := sent && ecc != some .double
        let s := if sent then (s.count .sw 0 (Reg.SW_TXFRMp p) 1).swDeliver p q f else s
        match f.queue with
        | some i => s.txCopyEnds i (!sent) s.now32
        | none => s)

/-- PCS_LINK_CHANGE (R378, R523, R547): whether the partner has verified preemption, which the port asks for when PREEMPT is set. -/
def execPcsLinkChange (p : Fin 10) (linked verified : Bool) (s : State) : Out :=
  .next (if s.gwUp then (s.setFld .sw 0 (Reg.SW_PSTATp p) 1 1 (b2n linked)).setFld .sw 0 (Reg.SW_PSTATp p) 0 0
      (b2n (linked && verified && s.fld .sw 0 (Reg.SW_PCFGp p) 25 25 == 1))
    else s)

/-! ### MDIO (R522, R547) -/

/-- MDIO_COMMAND: GO starts a transaction when none is under way. -/
def execMdioCommand (src : Src) (v : Word) (s : State) : Out :=
  .next (s.regCommand src .sw 0 Reg.SW_MDIOCMD (vehRegs 0x1B00000) (fun s =>
    s.guarded src .sw 0 (bitOf v 31) (fun s =>
      if bitOf v 31 && s.gw.mdio.isNone then
        let m : Mdio := ⟨Fin.ofNat 2 (bitsOf v 30 30), bitsOf v 29 28, bitsOf v 27 23, bitsOf v 22 18, bitsOf v 15 0⟩
        { (s.setReg .sw 0 Reg.SW_MDIORES 0) with gw := { s.gw with mdio := some m } }
      else s)))

/-- MDIO_DONE: `data` is what the PHY answers to a read. -/
def execMdioDone (data : BitVec 16) (s : State) : Out :=
  .next (match s.gw.mdio with
    | none => s
    | some m => { (s.setReg .sw 0 Reg.SW_MDIORES (BitVec.ofNat 32 (2 ^ 31 + (if m.op = 2 then data.toNat else 0)))) with
        gw := { s.gw with mdio := none } })

/-! ### Queue engines (R531, R532) -/

/-- A queued record goes to a CAN controller: a free host buffer, or a bad record (R517, R519). -/
def State.qSendCan (s : State) (i : Fin 32) (bs : List Byte) (ctrl : Word) : State :=
  let x := s.gwq i
  let c : Fin 24 := Fin.ofNat 24 x.ctrl
  match parseCan bs with
  | none => s.setGwq i { x with done := some (3, 0, ctrl) }
  | some f =>
    match (List.finRange 32).find? (fun b => decide (24 ≤ b.val) && ((s.can c).bufs.get? b).isNone) with
    | none => s
    | some b =>
      let s := s.setCan c { s.can c with bufs := (s.can c).bufs.set b ⟨f, some i⟩ }
      s.setGwq i { s.gwq i with fly := some ⟨ctrl, 1, false, 0⟩ }

/-- A queued record is a LIN response (R521). -/
def State.qSendLin (s : State) (i : Fin 32) (bs : List Byte) (ctrl : Word) : State :=
  let x := s.gwq i
  let w : Word := BitVec.ofNat 32 (leNat (bs.take 4))
  let n := bitsOf w 19 16
  if bs.length < 16 ∨ n = 0 ∨ 8 < n then s.setGwq i { x with done := some (3, 0, ctrl) }
  else
    let s := s.linPublish (Fin.ofNat 8 x.ctrl) (Fin.ofNat 64 (bitsOf w 5 0)) (some (bitOf w 8)) ((bs.drop 8).take n)
    s.setGwq i { s.gwq i with done := some (0, s.now32, ctrl) }

/-- A queued frame enters the switch from its host port (R523, R524); a frame that no port takes is dropped. -/
def State.qSendEth (s : State) (i : Fin 32) (bs : List Byte) (ctrl : Word) : State :=
  let x := s.gwq i
  if 9212 < bs.length then s.setGwq i { x with done := some (2, 0, ctrl) }
  else if bs.length < 14 then s.setGwq i { x with done := some (3, 0, ctrl) }
  else
    let p : Fin 14 := Fin.ofNat 14 (10 + i.val / 16)
    let f : EthFrame := ⟨bs ++ List.replicate (60 - bs.length) 0, p, s.now32, some i⟩
    if !s.portEnabled p then s.setGwq i { x with done := some (4, 0, ctrl) }
    else
      let (s, n) := (s.count .sw 0 (Reg.SW_RXFRMp p) 1).swForward f true none
      if n = 0 then s.setGwq i { s.gwq i with done := some (4, 0, ctrl) }
      else s.setGwq i { s.gwq i with fly := some ⟨ctrl, n, false, 0⟩ }

/-- The engine checks the next transmit descriptor and acts on it when OWN is 1. -/
def State.qCheck (s : State) (i : Fin 32) : State :=
  let x := s.gwq i
  if !s.gwUp || x.st != 1 || !isTxQueue i || x.fly.isSome || x.done.isSome then s
  else match s.unitRead (s.queueSrc i) (x.descAt x.next) 16 with
    | (s, none) => s
    | (s, some d) =>
      if !bitOf (dCtrl d) 31 then s
      else match s.unitRead (s.queueSrc i) (dBuf d) (dLen d) with
        | (s, none) => s.setGwq i { s.gwq i with done := some (4, 0, dCtrl d) }
        | (s, some bs) =>
          if x.kind = 0 then s.qSendEth i bs (dCtrl d)
          else if x.kind = 1 then s.qSendCan i bs (dCtrl d)
          else s.qSendLin i bs (dCtrl d)

/-- GW_QUEUE_DOORBELL (R531, R543). -/
def execGwQueueDoorbell (src : Src) (i : Fin 32) (s : State) : Out :=
  .next (s.regCommand src .gw 0 (Reg.GW_QDBi i) (vehRegs 0x1C00000) (fun s => s.qCheck i))

/-- GW_QUEUE_POLL (R531). -/
def execGwQueuePoll (i : Fin 32) (s : State) : Out := .next (s.qCheck i)

/-- QUEUE_TX_WRITEBACK (R531). -/
def execQueueTxWriteback (i : Fin 32) (s : State) : Out :=
  let x := s.gwq i
  .next (match x.done with
    | some (err, stamp, ctrl) =>
      if x.st = 1 then
        (s.setGwq i { x with done := none }).qWriteBack i none ctrl.toNat err 0
          (if bitOf ctrl 30 && err == 0 then some stamp else none) (bitOf ctrl 29)
      else s
    | none => s)

/-- QUEUE_RX_WRITEBACK (R532). -/
def execQueueRxWriteback (i : Fin 32) (s : State) : Out :=
  let x := s.gwq i
  .next (match x.rx with
    | r :: t =>
      if x.st = 1 then
        (s.setGwq i { x with rx := t }).qWriteBack i (some r.len) r.ctrl.toNat r.err r.port (some r.stamp) (bitOf r.ctrl 29)
      else s
    | [] => s)

/-! ### Signal gateway (R534, R538) -/

/-- PDU_SOURCE_TIMEOUT (R538). -/
def execPduSourceTimeout (n : Fin 8192) (s : State) : Out :=
  .next (match s.pdu n with
    | some p =>
      if s.gwUp && !p.target && p.period != 0 && !p.timedOut && decide (p.lastRx + p.period * 100000 ≤ s.now) then
        let s := s.setPdu n { p with timedOut := true }
        ((s.runGroup ((s.routesOf n).filter rTosub) (fun _ r => 2 ^ (bitsOf r 41 37 + 1) - 1)).raise .gw 0 2 0 (2 ^ 30 + n.val))
      else s
    | none => s)

/-- PDU_PERIODIC_SEND (R534): at its phase, in units of 100 µs of LT. -/
def execPduPeriodicSend (n : Fin 8192) (s : State) : Out :=
  .next (match s.pdu n with
    | some p =>
      let u := s.now / 100000
      if s.gwUp && p.target && p.txmode == 1 && p.period != 0 && u % p.period == p.phase % p.period && p.lastSent != some u then
        (s.setPdu n { p with lastSent := some u }).pduSend n
      else s
    | none => s)

/-! ### Flow table (R525 to R528) -/

def freeWay (m : AMap Nat (BitVec 128)) (b : Nat) : Option Nat :=
  ((List.range 8).find? (fun w => (m.get? (b * 8 + w)).isNone)).map (fun w => b * 8 + w)

def freeStash (m : AMap Nat (BitVec 128)) : Option Nat :=
  ((List.range 8192).find? (fun w => (m.get? (stashBase + w)).isNone)).map (stashBase + ·)

/-- A slot of a bucket freed by at most `fuel` relocations. Which resident moves is not stated: `pick` is free (log entry 11). -/
def relocate (pick : Nat → Nat) : Nat → AMap Nat (BitVec 128) → Nat → Option (AMap Nat (BitVec 128) × Nat)
  | 0, _, _ => none
  | fuel + 1, m, b =>
    let slot := b * 8 + pick fuel % 8
    match m.get? slot with
    | none => some (m, slot)
    | some v =>
      let k := flowKey v
      let b2 := if flowHash0 k = b then flowHash1 k else flowHash0 k
      match freeWay m b2 with
      | some t => some ((m.set t v).erase slot, slot)
      | none => match relocate pick fuel m b2 with
        | some (m', t) => if m'.get? slot = some v then some ((m'.set t v).erase slot, slot) else none
        | none => none

/-- One entry is placed (R527); none when the table is full. -/
def State.flowPlace (s : State) (e : BitVec 128) : Option State :=
  let e := e ||| BitVec.ofNat 128 (2 ^ 127)
  let k := flowKey e
  let m := s.gw.flows
  let put (s : State) (m : AMap Nat (BitVec 128)) (t : Nat) : State := { s with gw := { s.gw with flows := m.set t e } }
  match s.flowFind k with
  | some (t, _) => some (put s m t)
  | none => match freeWay m (flowHash0 k) with
    | some t => some (put s m t)
    | none => match freeWay m (flowHash1 k) with
      | some t => some (put s m t)
      | none =>
        let n := s.freeCtr
        let s := { s with freeCtr := n + 128 }
        match relocate (fun i => (Config.freeWord (n + i)).toNat) 128 m (flowHash0 k) with
        | some (m', t) => some (put s m' t)
        | none => match freeStash m with
          | some t => some (put s m t)
          | none => none

/-- Entries are placed in order up to the first that finds no slot; how many were placed. -/
def State.flowPlaceAll : List (BitVec 128) → State → Nat → State × Nat × Bool
  | [], s, n => (s, n, true)
  | e :: t, s, n => match s.flowPlace e with
    | some s' => State.flowPlaceAll t s' (n + 1)
    | none => (s, n, false)

/-- METER, GATE and FRER in range or none (R525). -/
def flowOk (e : BitVec 128) : Bool :=
  (decide (bitsOf e 45 30 < 16384) || bitsOf e 45 30 == 0xFFFF) && (decide (bitsOf e 29 19 < 1024) || bitsOf e 29 19 == 0x7FF) &&
    (decide (bitsOf e 18 8 < 1024) || bitsOf e 18 8 == 0x7FF)

/-- `n` units of `w` bytes as numbers. -/
def unpack (w : Nat) : Nat → List Byte → List Nat
  | 0, _ => []
  | n + 1, bs => leNat (bs.take w) :: unpack w n (bs.drop w)

def flowFields : List (Nat × Nat × Nat) := [(8, 8, 0), (0x10, 47, 0)]

/-- The entry array of FLOW_ADD and FLOW_DEL: 1 to 256 entries. -/
def State.withFlows (s : State) (p : Fin 64) (op : Nat) (k : State → List (BitVec 128) → State) : State :=
  s.command p op [] flowFields true (fun e =>
    let n := eBits e 8 8 0
    if n = 0 ∨ 256 < n then s.complete p stBADARG 0 0 0
    else match s.fwRead (p.val == 1) (eAddr e 0x10) (16 * n) with
      | (s, none) => s.complete p stFAULT 0 0 0
      | (s, some bs) => k s ((unpack 16 n bs).map (BitVec.ofNat 128)))

/-- FLOW_ADD (R525, R527, R528). -/
def execFlowAdd (p : Fin 64) (s : State) : Out :=
  .next (s.withFlows p 0x54 (fun s es =>
    if !es.all flowOk then s.complete p stBADARG 0 0 0
    else match State.flowPlaceAll es s 0 with
      | (s, n, true) => s.complete p stOK 0 n 0
      | (s, n, false) => s.complete p stREFUSED 3 n 0))

/-- FLOW_DEL (R543). -/
def execFlowDel (p : Fin 64) (s : State) : Out :=
  .next (s.withFlows p 0x55 (fun s es =>
    let r := es.foldl (fun (r : State × Nat) e => match r.1.flowFind (flowKey e) with
      | some (t, _) => ({ r.1 with gw := { r.1.gw with flows := r.1.gw.flows.erase t } }, r.2 + 1)
      | none => r) (s, 0)
    r.1.complete p stOK 0 r.2 0))

/-- FLOW_READ (R543, R642). -/
def execFlowRead (p : Fin 64) (s : State) : Out :=
  .next (s.command p 0x56 [] [(0x10, 47, 0), (0x18, 47, 0)] true (fun e =>
    if eAddr e 0x18 % 64 ≠ 0 then s.complete p stBADARG 0 0 0
    else match s.fwRead (p.val == 1) (eAddr e 0x10) 16 with
      | (s, none) => s.complete p stFAULT 0 0 0
      | (s, some bs) => match s.flowFind (flowKey (BitVec.ofNat 128 (leNat bs))) with
        | none => s.complete p stNOTFOUND 0 0 0
        | some (_, x) => s.copyOut p (eAddr e 0x18) (leBytes 16 x.toNat) 0 0))

/-! ### Configuration commands (R543) -/

/-- SW_PORT (R543, R547): SPEED of an external port within its kind; the shaper and gate list stays where the command says. -/
def execSwPort (p : Fin 64) (s : State) : Out :=
  .next (s.command p 0x52 [] [(8, 3, 0), (0xC, 31, 25), (0xC, 11, 0), (0x10, 23, 0), (0x14, 7, 0), (0x18, 47, 0)] true (fun e =>
    let n := eBits e 8 3 0
    let v := eWord e 0xC
    let speed := bitsOf v 30 28
    if 13 < n then s.complete p stBADARG 0 0 0
    else if (n < 8 ∧ 4 < speed) ∨ (8 ≤ n ∧ n < 10 ∧ 1 < speed) then s.refuse p 1
    else
      let v := if n < 10 then v else v &&& 0x8DFFFFFF
      let s := s.setReg .sw 0 (Reg.SW_PCFGp n) v
      let s := s.setReg .sw 0 (Reg.SW_PCPMAPp n) (eWord e 0x10)
      let s := s.setReg .sw 0 (Reg.SW_EXPMASKp n) (eWord e 0x14)
      ({ s with gw := { s.gw with shapers := s.gw.shapers.set (Fin.ofNat 14 n) (eAddr e 0x18) } }).ok p))

/-- SW_VLAN (R543). -/
def execSwVlan (p : Fin 64) (s : State) : Out :=
  .next (s.command p 0x53 [] [(8, 11, 0), (8, 30, 16)] true (fun e =>
    let vid : BitVec 12 := BitVec.ofNat 12 (eBits e 8 11 0)
    if vid = 0 ∨ vid = 4095 then s.complete p stBADARG 0 0 0
    else
      let m := if eBits e 8 30 30 = 1 then s.gw.vlans.set vid (BitVec.ofNat 14 (eBits e 8 29 16)) else s.gw.vlans.erase vid
      ({ s with gw := { s.gw with vlans := m } }).ok p))

/-- A PDU of a descriptor (R534); none when it is malformed. -/
def parsePdu (bs : List Byte) (slot now : Nat) : Option Pdu :=
  let w0 : Word := BitVec.ofNat 32 (leNat (bs.take 4))
  let w1 : Word := BitVec.ofNat 32 (leNat ((bs.drop 4).take 4))
  let w2 : Word := BitVec.ofNat 32 (leNat ((bs.drop 8).take 4))
  let w3 : Word := BitVec.ofNat 32 (leNat ((bs.drop 12).take 4))
  let bus := bitsOf w0 31 30
  let ctrl := bitsOf w0 29 25
  let len := bitsOf w0 6 0
  let ok : Bool :=
    if bus = 0 then decide (ctrl < 24) && canLenOk false (bitOf w1 31) len
    else if bus = 1 then decide (ctrl < 8) && decide (len ≤ 8) && decide (bitsOf w1 28 0 < 64)
    else bus == 2 && ctrl == 0
  let period := bitsOf w2 15 0
  let phase := bitsOf w3 31 16
  if !ok || len = 0 || 64 < len || bitsOf w2 31 30 = 3 || (bitOf w0 24 && bitsOf w2 31 30 == 1 && period != 0 && decide (period ≤ phase)) then none
  else some { bus := Fin.ofNat 4 bus, ctrl := ctrl, target := bitOf w0 24, len := len, fdf := bus == 0 && bitOf w1 31, brs := bus == 0 && bitOf w1 30,
              ide := bus == 0 && bitOf w1 29, id := w1.setWidth 29, txmode := bitsOf w2 31 30, period := period, phase := phase,
              tmpl := Fin.ofNat 256 (bitsOf w3 7 0), slot := slot, buf := List.replicate 64 0, lastRx := now, timedOut := false, lastSent := none }

/-- A free target buffer of a CAN controller: at most 24 target PDUs each (R517, R534). -/
def State.freeCanSlot (s : State) (c : Nat) (n : Fin 8192) : Option Nat :=
  (List.range 24).find? (fun k => s.gw.pdus.all (fun e => e.1 == n || !(e.2.target && e.2.bus == 0 && e.2.ctrl == c && e.2.slot == k)))

/-- Routes that name a PDU. -/
def State.pduInUse (s : State) (n : Fin 8192) : Bool := s.gw.routes.any (fun e => rValid e.2 && (rSpdu e.2 == n || rDpdu e.2 == n))

/-- GW_PDU (R534, R543): the length of a template follows from its headers (log entry 21). -/
def execGwPdu (p : Fin 64) (s : State) : Out :=
  .next (s.command p 0x57 [] [(8, 12, 0), (8, 25, 16), (0x10, 47, 0)] true (fun e =>
    let n : Fin 8192 := Fin.ofNat 8192 (eBits e 8 12 0)
    if eBits e 8 17 17 = 1 then
      let t : Fin 256 := Fin.ofNat 256 (eBits e 8 25 18)
      if eBits e 8 16 16 = 1 then ({ s with gw := { s.gw with templates := s.gw.templates.erase t } }).ok p
      else match s.fwRead (p.val == 1) (eAddr e 0x10) 62 with
        | (s, none) => s.complete p stFAULT 0 0 0
        | (s, some bs) =>
          if 62 < headerLen bs then s.refuse p 1
          else ({ s with gw := { s.gw with templates := s.gw.templates.set t (bs.take (headerLen bs)) } }).ok p
    else if eBits e 8 16 16 = 1 then
      if s.pduInUse n then s.refuse p 6
      else ({ s with gw := { s.gw with pdus := s.gw.pdus.erase n } }).ok p
    else match s.fwRead (p.val == 1) (eAddr e 0x10) 16 with
      | (s, none) => s.complete p stFAULT 0 0 0
      | (s, some bs) => match parsePdu bs 0 s.now with
        | none => s.refuse p 1
        | some x =>
          if s.pduInUse n then s.refuse p 6
          else if x.target ∧ x.bus = 0 then
            match s.freeCanSlot x.ctrl n with
            | none => s.refuse p 1
            | some k => (s.setPdu n { x with slot := k }).ok p
          else (s.setPdu n x).ok p))

/-- A route is good (R535, R537): one that is not VALID removes the route of its index. -/
def State.routeOk (s : State) (r : BitVec 128) : Bool :=
  !rValid r || (match s.pdu (rSpdu r), s.pdu (rDpdu r) with
    | some a, some b => !a.target && b.target && (rSbits r).all (fun i => decide (i < 8 * a.len)) && (rDbits r).all (fun i => decide (i < 8 * b.len))
    | _, _ => false)

/-- Index of the first bad route of a list. -/
def firstBad (s : State) : List (BitVec 128) → Nat → Option Nat
  | [], _ => none
  | r :: t, i => if s.routeOk r then firstBad s t (i + 1) else some i

def installRoutes (s : State) : List (BitVec 128) → Nat → State
  | [], _ => s
  | r :: t, i =>
    let m := if rValid r then s.gw.routes.set (Fin.ofNat 65536 i) r else s.gw.routes.erase (Fin.ofNat 65536 i)
    installRoutes { s with gw := { s.gw with routes := m } } t (i + 1)

/-- The first new route whose source then has more than 1,024 routes (R537). -/
def overFull (s : State) : List (BitVec 128) → Nat → Option Nat
  | [], _ => none
  | r :: t, i => if rValid r ∧ 1024 < (s.routesOf (rSpdu r)).length then some i else overFull s t (i + 1)

/-- GW_ROUTE (R535, R537, R543). -/
def execGwRoute (p : Fin 64) (s : State) : Out :=
  .next (s.command p 0x58 [] [(8, 26, 0), (0x10, 47, 0)] true (fun e =>
    let first := eBits e 8 15 0
    let n := eBits e 8 26 16
    if n = 0 ∨ 1024 < n ∨ 65536 < first + n then s.complete p stBADARG 0 0 0
    else match s.fwRead (p.val == 1) (eAddr e 0x10) (16 * n) with
      | (s, none) => s.complete p stFAULT 0 0 0
      | (s, some bs) =>
        let rs := (unpack 16 n bs).map (BitVec.ofNat 128)
        let t := installRoutes s rs first
        match firstBad s rs first, overFull t rs first with
        | some i, _ => s.complete p stREFUSED 2 i 0
        | none, some i => s.complete p stREFUSED 2 i 0
        | none, none => t.ok p))

/-- GW_QUEUE (R529, R543, R641): a queue starts afresh, or goes off. -/
def execGwQueue (p : Fin 64) (s : State) : Out :=
  .next (s.command p 0x59 [] [(8, 4, 0), (8, 18, 8), (0xC, 11, 0), (0xC, 19, 16), (0x10, 47, 0)] true (fun e =>
    let i : Fin 32 := Fin.ofNat 32 (eBits e 8 4 0)
    let kind := eBits e 8 10 9
    let ctrl := eBits e 8 15 11
    let cls := eBits e 8 18 16
    let n := eBits e 0xC 19 16
    let ctx : BitVec 12 := BitVec.ofNat 12 (eBits e 0xC 11 0)
    if eBits e 8 8 8 = 0 then (s.setGwq i GwQueue.off).ok p
    else if kind = 3 ∨ (kind = 1 ∧ 23 < ctrl) ∨ (kind = 2 ∧ 7 < ctrl) ∨ cls = 0 ∨ cls = 7 ∨ n < 4 ∨ 12 < n ∨ eAddr e 0x10 % 16 ≠ 0 then
      s.complete p stBADARG 0 0 0
    else if ctx ≠ 0 ∧ !s.ctxLive ctx then s.complete p stNOTFOUND 0 0 0
    else if ctx ≠ 0 ∧ s.ctxWorld ctx ≠ decide (i.val / 16 = 1) then s.refuse p 5
    else (s.setGwq i { GwQueue.off with st := 1, ctx := ctx, cls := Fin.ofNat 8 cls, kind := Fin.ofNat 4 kind, ctrl := ctrl, n := n,
                                        base := eAddr e 0x10 }).ok p))

end Sys2Proof.Machine
end

