-- ==== Sys2Proof/Machine/Compare.lean ====
section
/-! DEFINITION. The diverse comparator: lists, programs and the comparison itself (R407 to R411). -/

namespace Sys2Proof.Machine

/-! ### FP32 comparisons (R410) -/

/-- An FP16 field widened to FP32, exactly. -/
def widen16 (h : Nat) : Word := (fpack 0 (fmtFP16.decode h)).1

def finite32 (w : Word) : Bool := bitsOf w 30 23 != 255
def fle (a b : Word) : Bool := !isNan32 a && !isNan32 b && decide (fcmpKey a ≤ fcmpKey b)
def flt32 (a b : Word) : Bool := !isNan32 a && !isNan32 b && decide (fcmpKey a < fcmpKey b)
/-- Sum, difference and product under RNE. -/
def cadd (a b : Word) : Word := (fadd 0 a b).1
def csub (a b : Word) : Word := (fsub 0 a b).1
def cmul (a b : Word) : Word := (fmul 0 a b).1
def absDiff (a b : Word) : Word := fabs (csub a b)

/-! ### Lists (R407) -/

structure ListHdr where
  magic : Nat
  kind : Nat
  frame : Word
  count : Nat
  rsv : Bool
  deriving DecidableEq, Repr

def wordAt (bs : List Byte) (o : Nat) : Word := BitVec.ofNat 32 (leNat ((bs.drop o).take 4))

def parseHdr (bs : List Byte) : ListHdr :=
  { magic := (wordAt bs 0).toNat, kind := bitsOf (wordAt bs 4) 15 0, frame := wordAt bs 8, count := bitsOf (wordAt bs 0xC) 12 0,
    rsv := leNat ((bs.drop 0x10).take 16) == 0 }

/-- Bytes of an entry, and the limit on COUNT, by list kind. -/
def entryBytes (kind : Nat) : Nat := if kind = 0 then 32 else 4
def countMax (kind : Nat) : Nat := if kind = 0 then 1024 else 4096

/-- A header that a program of some kind accepts. -/
def ListHdr.ok (h : ListHdr) (kind : Nat) : Bool := h.magic == 0x4F424C31 && h.kind == kind && decide (h.count ≤ countMax kind) && h.rsv

/-- An object entry with its compared fields in FP32. -/
structure Obj where
  cls : Nat
  conf : Word
  x : Word
  y : Word
  w : Word
  l : Word
  yaw : Word
  deriving DecidableEq, Repr

def parseObj (bs : List Byte) : Obj :=
  let a := wordAt bs 0
  let d := wordAt bs 0x10
  { cls := bitsOf a 23 16, conf := widen16 (bitsOf a 15 0), x := wordAt bs 4, y := wordAt bs 8, w := widen16 (bitsOf d 31 16),
    l := widen16 (bitsOf d 15 0), yaw := widen16 (bitsOf (wordAt bs 0x14) 31 16) }

def parseObjs (bs : List Byte) (n : Nat) : List Obj := (List.range n).map (fun i => parseObj (bs.drop (32 * i)))
def parseVals (bs : List Byte) (n : Nat) : List Word := (List.range n).map (fun i => wordAt bs (4 * i))

def Obj.finite (o : Obj) : Bool := [o.conf, o.x, o.y, o.w, o.l, o.yaw].all finite32

/-! ### Programs (R408, R409) -/

structure Prog where
  kind : Nat
  confMon : Word
  confPri : Word
  xmin : Word
  xmax : Word
  ymin : Word
  ymax : Word
  gate : Word
  iouMin : Word
  allowP : Nat
  allowM : Nat
  allowC : Nat
  allowB : Nat
  bandAbs : Word
  bandRel : Word
  yawTol : Word
  groups : List Nat
  deriving DecidableEq, Repr

/-- A threshold that is finite and not negative. -/
def thresholdOk (w : Word) : Bool := finite32 w && decide (0 ≤ fcmpKey w)

/-- A valid program (R409): for value lists only the bands, ALLOW and the form count. -/
def parseProg (bs : List Byte) : Option Prog :=
  let a := wordAt bs 0x28
  let p : Prog :=
    { kind := bitsOf (wordAt bs 8) 0 0, confMon := widen16 (bitsOf (wordAt bs 0xC) 31 16), confPri := widen16 (bitsOf (wordAt bs 0xC) 15 0),
      xmin := wordAt bs 0x10, xmax := wordAt bs 0x14, ymin := wordAt bs 0x18, ymax := wordAt bs 0x1C, gate := wordAt bs 0x20,
      iouMin := wordAt bs 0x24, allowP := bitsOf a 31 24, allowM := bitsOf a 23 16, allowC := bitsOf a 15 8, allowB := bitsOf a 7 0,
      bandAbs := wordAt bs 0x2C, bandRel := wordAt bs 0x30, yawTol := wordAt bs 0x34, groups := ((bs.drop 0x40).take 256).map (fun (b : Byte) => b.toNat) }
  let form := wordAt bs 0 == 0x43505231 && wordAt bs 4 == 0x01400001 && bitsOf (wordAt bs 8) 31 1 == 0 && wordAt bs 0x38 == 0 && wordAt bs 0x3C == 0
  let bands := thresholdOk p.bandAbs && thresholdOk p.bandRel
  let objs := [p.confMon, p.confPri, p.gate, p.iouMin, p.yawTol].all thresholdOk && [p.xmin, p.xmax, p.ymin, p.ymax].all finite32 &&
    fle p.xmin p.xmax && fle p.ymin p.ymax
  if form && bands && (p.kind == 1 || objs) then some p else none

def Prog.group (p : Prog) (c : Nat) : Nat := p.groups.getD c 0xFF

/-! ### Object lists (R410) -/

def Prog.keep (p : Prog) (cmin : Word) (o : Obj) : Bool :=
  p.group o.cls != 0xFF && fle cmin o.conf && fle p.xmin o.x && fle o.x p.xmax && fle p.ymin o.y && fle o.y p.ymax

/-- Insertion by confidence descending, after entries of equal confidence. -/
def insertConf (o : Obj) : List Obj → List Obj
  | [] => [o]
  | a :: t => if flt32 a.conf o.conf then o :: a :: t else a :: insertConf o t

def sortConf (l : List Obj) : List Obj := l.foldl (fun r o => insertConf o r) []

/-- Half extents of the footprint. -/
def Obj.ex (o : Obj) : Word :=
  cmul 0x3F000000 (cadd (cmul o.l (fabs (Config.fcos o.yaw))) (cmul o.w (fabs (Config.fsin o.yaw))))
def Obj.ey (o : Obj) : Word :=
  cmul 0x3F000000 (cadd (cmul o.l (fabs (Config.fsin o.yaw))) (cmul o.w (fabs (Config.fcos o.yaw))))

/-- Overlap of two intervals, 0 when they do not meet. -/
def overlap1 (alo ahi blo bhi : Word) : Word :=
  let d := csub (fmin ahi bhi) (fmax alo blo)
  if flt32 0 d then d else 0

/-- Intersection over union of the two footprints; 0 when the union is 0. Log entry 32. -/
def iou (p q : Obj) : Word :=
  let px := (csub p.x p.ex, cadd p.x p.ex)
  let py := (csub p.y p.ey, cadd p.y p.ey)
  let qx := (csub q.x q.ex, cadd q.x q.ex)
  let qy := (csub q.y q.ey, cadd q.y q.ey)
  let inter := cmul (overlap1 px.1 px.2 qx.1 qx.2) (overlap1 py.1 py.2 qy.1 qy.2)
  let ap := cmul (csub px.2 px.1) (csub py.2 py.1)
  let aq := cmul (csub qx.2 qx.1) (csub qy.2 qy.1)
  let un := csub (cadd ap aq) inter
  if un &&& 0x7FFFFFFF = 0 then 0 else (fdiv 0 inter un).1

/-- The larger of the two coordinate differences. -/
def distMax (p q : Obj) : Word := fmax (absDiff p.x q.x) (absDiff p.y q.y)

/-- The best match of `q` among the primary entries that are still free. -/
def bestMatch (g : Prog) (q : Obj) (free : List (Nat × Obj)) : Option (Nat × Obj) :=
  (free.foldl (fun (b : Option ((Nat × Obj) × Word)) e =>
    let i := iou e.2 q
    let better := match b with
      | none => true
      | some x => flt32 x.2 i
    if fle (distMax e.2 q) g.gate && fle g.iouMin i && better then some (e, i) else b) none).map (·.1)

/-- The matches, in the order of Q. -/
def matchAll (g : Prog) : List Obj → List (Nat × Obj) → List (Obj × Obj)
  | [], _ => []
  | q :: t, free => match bestMatch g q free with
    | none => matchAll g t free
    | some e => (e.2, q) :: matchAll g t (free.filter (fun x => x.1 != e.1))

/-- |wrap(d)|: a difference already in [-pi, pi] stays. Log entry 32. -/
def yawDiff (a b : Word) : Word :=
  let d := csub a b
  fabs (if fle (fabs d) 0x40490FDB then d else Config.wrapPi d)

/-- A match outside the bands. -/
def Prog.outside (g : Prog) (m : Obj × Obj) : Bool :=
  let band := cadd g.bandAbs (cmul g.bandRel (fmax (fabs m.2.x) (fabs m.2.y)))
  flt32 band (distMax m.1 m.2) || flt32 g.yawTol (yawDiff m.1.yaw m.2.yaw)

/-- Counts of a comparison. -/
structure Counts where
  up : Nat
  um : Nat
  cm : Nat
  bv : Nat
  matched : Nat
  deriving DecidableEq, Repr

/-- The counts of two object lists; none when a compared field of a kept entry is NaN or infinite. -/
def compareObjs (g : Prog) (pri mon : List Obj) : Option Counts :=
  let p := pri.filter (g.keep g.confPri)
  let q := mon.filter (g.keep g.confMon)
  if !(p.all Obj.finite && q.all Obj.finite) then none
  else
    let ms := matchAll g (sortConf q) ((List.range p.length).zip p)
    some ⟨p.length - ms.length, q.length - ms.length, (ms.filter (fun m => g.group m.1.cls != g.group m.2.cls)).length,
      (ms.filter g.outside).length, ms.length⟩

/-- The counts of two value lists of equal length. -/
def compareVals (g : Prog) (p q : List Word) : Option Counts :=
  if !(p.all finite32 && q.all finite32) then none
  else
    let bad (e : Word × Word) : Bool := flt32 (cadd g.bandAbs (cmul g.bandRel (fabs e.2))) (absDiff e.1 e.2)
    some ⟨0, 0, 0, ((p.zip q).filter bad).length, 0⟩

/-- DISAGREE (2) when a count exceeds its ALLOW byte, else AGREE (1) (R411). -/
def Prog.judge (g : Prog) (c : Counts) : Nat :=
  if g.allowP < c.up ∨ g.allowM < c.um ∨ g.allowC < c.cm ∨ g.allowB < c.bv then 2 else 1

end Sys2Proof.Machine
end

