-- ==== Sys2Proof/Machine/Checker.lean ====
section
/-! DEFINITION. Safety commands: monitors on the checker engine, pairings, comparisons, verdicts, accord signatures, self-tests
(R399 to R430). -/

namespace Sys2Proof.Machine

/-! ### The checker engine -/

/-- The checker engine and the comparator as a requester: normal world, context 0 (R464). Its agent ID is PRESUMED, log entry 33. -/
def chkSrc (cls : Fin 8) : Src := ⟨6, 9, false, 0, 0, cls, false⟩

def State.mon (s : State) (m : Fin 16) : Option Monitor := s.chk.mons.get? m
def State.setMon (s : State) (m : Fin 16) (x : Monitor) : State := { s with chk := { s.chk with mons := s.chk.mons.set m x } }
def State.pairing (s : State) (i : Fin 16) : Option Pairing := s.chk.pairs.get? i
def State.setPairing (s : State) (i : Fin 16) (x : Pairing) : State := { s with chk := { s.chk with pairs := s.chk.pairs.set i x } }

/-- The wheel that a slice is bound to (R400). -/
def State.sliceWheel (s : State) (sl : Fin 4) : Option (Fin 4) := (s.chk.mons.find? (fun e => e.2.slice == sl)).map (fun e => e.2.wheel)

/-- Pairings that name a monitor. -/
def State.namedBy (s : State) (m : Fin 16) : List (Fin 16 × Pairing) := s.chk.pairs.filter (fun e => e.2.active && e.2.mon == m)

/-- An error of the checker engine or the comparator with its slice and pairing (R428, R437). -/
def State.chkRaise (s : State) (bit : Nat) (sl : Fin 4) (i : Fin 16) : State :=
  let s := if bitOf (s.reg .chk 0 Reg.CHK_ERRSTAT) bit then s else { s with flt := { s.flt with subs := s.flt.subs.set (.chk, 0, bit) i.val } }
  s.raise .chk 0 bit 0 (sl.val * 16 + i.val)

/-! ### Loading monitors (R400 to R402, R427) -/

/-- A monitor's certificate as R401 has it: one periodic record without an accord slot, resources of TYPE 1 in class 6. -/
def monCert (c : Cert) : Option Kind :=
  match c.kinds with
  | [k] => if k.typ == .periodic && k.accPhase == 0xFFFF && c.res.all (fun r => r.typ == 1 && r.cls == 6) then some k else none
  | _ => none

/-- The spans of two monitors overlap. -/
def spansMeet (l d : Nat) (m : Monitor) : Bool := decide (l < m.deadline) && decide (m.launch < d)

/-- MINSHARE of a slice's limit with the monitors' own shares (R402, R482): monitors belong to slice 0. -/
def State.monQuota (s : State) (res : List ResRec) : Bool :=
  let held := (s.sliceParts 0).flatMap (·.res) ++ s.chk.mons.flatMap (fun e => e.2.shares)
  res.all (fun r => decide (shareAt r res + shareAt r held ≤ s.sliceLimit 0 256 (·.mcShare)))

/-- The first code of R275, as R402 adapts it; 0 for none. -/
def State.monCode (s : State) (m : Fin 16) (sl w : Fin 4) (c : Cert) (k : Kind) (sigOk digestOk : Bool) : Nat :=
  if !sigOk then 1
  else if !digestOk then 2
  else if (s.mon m).isSome || s.chk.mons.any (fun e => e.2.slice == sl && spansMeet k.launch.toNat k.deadline.toNat e.2) then 4
  else if ((s.sliceWheel sl).map (fun x => x != w)).getD false || !s.wheelFits w c 80 then 6
  else if !(decide (0 < c.tickcyc) && planKind k c.drymax c.tickcyc && decide (k.deadline.toNat ≤ 0xFEFF)) then 7
  else if !s.sharesOk c.res then 8
  else if !s.monQuota c.res then 11
  else 0

/-- The wheel of the placement record of a slice that has a digest (R401). -/
def monWheel (sl : Fin 4) (placement : List Byte) : Option (Fin 4) :=
  (List.finRange 4).find? (fun w => sha256 (leBytes 16 (w.val * 256 + sl.val)) == placement)

/-- SAFE_MON_LOAD (R400 to R402, R427, R477, R635): `sigOk` as for PART_LOAD. -/
def execSafeMonLoad (p : Fin 64) (sigOk : Bool) (s : State) : Out :=
  .next (s.command p 0x30 [] [(8, 3, 0), (8, 9, 8), (0x10, 47, 0), (0x18, 47, 0)] true (fun e =>
    let m : Fin 16 := Fin.ofNat 16 (eBits e 8 3 0)
    let sl : Fin 4 := Fin.ofNat 4 (eBits e 8 9 8)
    let w := p.val == 1
    match s.fwRead w (eAddr e 0x18) 0x60 with
    | (s, none) => s.complete p stFAULT 0 0 0
    | (s, some ch) => match s.fwRead w (eAddr e 0x18) (certLen ch) with
      | (s, none) => s.complete p stFAULT 0 0 0
      | (s, some cbs) => match s.fwRead w (eAddr e 0x10) 0x40 with
        | (s, none) => s.complete p stFAULT 0 0 0
        | (s, some fh) => match s.readImage w (eAddr e 0x10) fh with
          | (s, none) => s.complete p stFAULT 0 0 0
          | (s, some img) => match parseCert cbs 1 with
            | none => s.complete p stBADARG 0 0 0
            | some c => match monCert c with
              | none => s.complete p stBADARG 0 0 0
              | some k =>
                let wheel := monWheel sl c.placement
                let good := c.formula == sha256 img && wheel.isSome && formulaOk fh 0x4E5A4D31 c.toolver
                let wh := wheel.getD 0
                let code := s.monCode m sl wh c k sigOk good
                if !s.up 100 then s.complete p stFAULT 0 0 0
                else if code ≠ 0 then s.refuse p code
                else
                  let (s, res) := s.installAll c.res
                  (s.setMon m ⟨sl, wh, k.launch.toNat, k.deadline.toNat, res, c.formula, sha256 cbs, none, none⟩).ok p))

/-- SAFE_MON_UNLOAD (R400, R427). -/
def execSafeMonUnload (p : Fin 64) (s : State) : Out :=
  .next (s.command p 0x31 [] [(8, 3, 0)] true (fun e =>
    let m : Fin 16 := Fin.ofNat 16 (eBits e 8 3 0)
    match s.mon m with
    | none => s.complete p stNOTFOUND 0 0 0
    | some x =>
      if s.namedBy m ≠ [] then s.refuse p 4
      else
        let s := x.shares.foldl (fun (s : State) r => s.removeRes r) s
        ({ s with chk := { s.chk with mons := s.chk.mons.erase m } }).ok p))

/-! ### Monitor jobs (R403, R404) -/

/-- MONITOR_LAUNCH (R403, R271): the argument block is read in class 7 from the address that the lowest pairing names; an error
response leaves the job of this frame not DONE. -/
def execMonitorLaunch (m : Fin 16) (s : State) : Out :=
  .next (match s.mon m, (s.namedBy m).head? with
    | some x, some (_, i) =>
      let w := s.wheel x.wheel
      if !s.up 100 || !w.going || !w.begun || x.running.isSome || ((x.final.map (fun f => f.1 == w.frame)).getD false) ||
          decide (w.phase.toNat < x.launch) || decide (x.deadline ≤ w.phase.toNat) ||
          s.chk.mons.any (fun e => e.2.slice == x.slice && e.2.running.isSome) then s
      else match s.unitRead (chkSrc 7) i.marg 256 with
        | (s, none) => s.setMon m { x with final := some (w.frame, false, false) }
        | (s, some _) => s.setMon m { x with running := some w.frame }
    | _, _ => s)

/-- MONITOR_COMPLETE (R403, R404, R411): the job's lists reach memory and its record becomes DONE; `ecc` is 1 for a corrected and
2 for an uncorrectable error of the engine's buffers. -/
def execMonitorComplete (m : Fin 16) (writes : List (Addr × List Byte)) (ecc : Fin 3) (s : State) : Out :=
  .next (match s.mon m with
    | none => s
    | some x => match x.running with
      | none => s
      | some f =>
        let i := (((s.namedBy m).head?).map (·.1)).getD 0
        if ecc.val = 2 then (s.chkRaise 2 x.slice i).setMon m { x with running := none, final := some (f, false, true) }
        else
          let s := if ecc.val = 1 then s.chkRaise 1 x.slice i else s
          let s := writes.foldl (fun (s : State) e => s.unitWrite (chkSrc 6) e.1.toNat e.2) s
          s.setMon m { x with running := none, final := some (f, true, false) })

/-- MONITOR_DEADLINE (R403): CHKMISS for every pairing that names the monitor. -/
def execMonitorDeadline (m : Fin 16) (s : State) : Out :=
  .next (match s.mon m with
    | none => s
    | some x => match x.running with
      | none => s
      | some f =>
        if !(s.wheel x.wheel).passed f x.deadline then s
        else
          let s := s.setMon m { x with running := none, final := some (f, false, false) }
          (s.namedBy m).foldl (fun (s : State) e => s.chkRaise 5 x.slice e.1) s)

/-! ### Pairings (R405, R406, R413) -/

/-- Base and slots of a list, in two words of a descriptor. -/
def listRef (bs : List Byte) (o : Nat) : Nat × Nat := (bWord bs o + bBits bs (o + 4) 15 0 * 2 ^ 32, bBits bs (o + 4) 31 20)

/-- The pairing ID of a descriptor and what it names. -/
def parsePairing (bs : List Byte) : Option (Fin 16 × Pairing) :=
  let p := listRef bs 0x10
  let q := listRef bs 0x18
  let w64 (o : Nat) : Nat := bWord bs o + bWord bs (o + 4) * 2 ^ 32
  if bWord bs 0 = 0x53504131 ∧ bWord bs 4 = 0x00400001 ∧
      bZero bs [(8, 31, 24), (8, 15, 13), (8, 7, 5), (0xC, 31, 17), (0x14, 19, 16), (0x1C, 19, 16), (0x24, 31, 0)] ∧
      1 ≤ p.2 ∧ p.2 ≤ 8 ∧ 1 ≤ q.2 ∧ q.2 ≤ 8 ∧ p.1 % 64 = 0 ∧ q.1 % 64 = 0 ∧ addrOk (w64 0x28) 64 ∧ addrOk (w64 0x30) 2048 ∧ addrOk (w64 0x38) 256 then
    some (Fin.ofNat 16 (bBits bs 8 23 20),
      { active := true, lasting := false, part := Fin.ofNat 32 (bBits bs 8 4 0), kind := Fin.ofNat 32 (bBits bs 8 12 8),
        mon := Fin.ofNat 16 (bBits bs 8 19 16), cphase := BitVec.ofNat 17 (bBits bs 0xC 16 0), plist := (p.1, p.2, bBits bs 0x20 15 0),
        mlist := (q.1, q.2, bBits bs 0x20 31 16), prog := w64 0x28, vtab := w64 0x30, marg := w64 0x38, firstFrame := 0, compared := none,
        pend := [], by_ := none })
  else none

/-- CPHASE of R406: not before either deadline, not in the guard band, at most 0x1_4000. -/
def cphaseOk (c : Nat) (k : Kind) (m : Monitor) : Bool :=
  decide (k.deadline.toNat ≤ c) && decide (m.deadline ≤ c) && !(decide (0xFF00 ≤ c) && decide (c < 0x10000)) && decide (c ≤ 0x14000)

/-- What a pairing needs (R406), but for its program. -/
def State.pairingOk (s : State) (i : Fin 16) (x : Pairing) : Option (Part × Kind × Monitor) :=
  match s.livePart x.part, s.mon x.mon with
  | some pt, some m => match pt.kind x.kind with
    | some k =>
      if (s.pairing i).isNone && k.typ == .periodic && m.wheel == pt.wheel && cphaseOk x.cphase.toNat k m then some (pt, k, m) else none
    | none => none
  | _, _ => none

/-- SAFE_PAIR (R405, R406, R409). -/
def execSafePair (p : Fin 64) (s : State) : Out :=
  .next (s.command p 0x32 [] [(8, 47, 0)] true (fun e =>
    match s.fwRead (p.val == 1) (eAddr e 8) 64 with
    | (s, none) => s.complete p stFAULT 0 0 0
    | (s, some bs) => match parsePairing bs with
      | none => s.complete p stBADARG 0 0 0
      | some (i, x) => match s.fwRead (p.val == 1) x.prog 320 with
        | (s, none) => s.complete p stFAULT 0 0 0
        | (s, some pb) =>
          if ((s.part x.part).map (fun pt => !s.mayUse p pt.ctx)).getD false then s.complete p stDENIED 0 0 0
          else match s.pairingOk i x, parseProg pb with
            | some (pt, _, _), some _ =>
              let w := s.wheel pt.wheel
              let f : Word := if w.begun then w.frame + 1 else 0
              (s.setPairing i { x with firstFrame := f, lasting := pt.failed }).ok p
            | _, _ => s.refuseFree p))

/-- SAFE_UNPAIR (R413, R427): while a comparison's entry is still to be written, the command waits for it. -/
def execSafeUnpair (p : Fin 64) (s : State) : Out :=
  .next (s.command p 0x33 [] [(8, 3, 0)] true (fun e =>
    let i : Fin 16 := Fin.ofNat 16 (eBits e 8 3 0)
    match s.pairing i with
    | none => s.complete p stNOTFOUND 0 0 0
    | some x =>
      if x.by_ = some p then s
      else if !x.active then s.complete p stNOTFOUND 0 0 0
      else if x.pend.isEmpty then ({ s with chk := { s.chk with pairs := s.chk.pairs.erase i } }).ok p
      else s.setPairing i { x with active := false, by_ := some p }))

/-! ### Comparisons (R410 to R412) -/

/-- The frame that a pairing compares next. -/
def Pairing.next (x : Pairing) : Word :=
  match x.compared with
  | none => x.firstFrame
  | some n => n + 1

/-- Address of the list of a frame. -/
def listAddr (r : Nat × Nat × Nat) (f : Word) : Nat := r.1 + f.toNat % r.2.1 * r.2.2 * 64

/-- ACCORDOK of a partition (R414). -/
def State.accordOk (s : State) (p : Part) : Bool :=
  let period := (s.wheel p.wheel).period.toNat
  (p.recs.flatMap (PRec.leads p.paired)).all (fun c => match s.chk.accord.get? c with
    | some (ok, t) => ok && decide (s.now ≤ t + period) && !s.chk.slips.contains c
    | none => false)

/-- A core of the partition runs without lockstep (R421, R422). -/
def State.partDebug (s : State) (p : Part) : Bool :=
  p.paired && p.recs.any (fun r => (List.finRange 4).any (fun i => r.pairs.getLsbD i && !s.locked ⟨r.cl, i⟩))

/-- The result of reading one list: its header and entries, none on an error response. -/
def State.readList (s : State) (a kind : Nat) : State × Option (ListHdr × List Byte) :=
  match s.unitRead (chkSrc 7) a 32 with
  | (s, none) => (s, none)
  | (s, some hb) =>
    let h := parseHdr hb
    if !h.ok kind || h.count == 0 then (s, some (h, []))
    else match s.unitRead (chkSrc 7) (a + 32) (h.count * entryBytes kind) with
      | (s, none) => (s, none)
      | (s, some bs) => (s, some (h, bs))

/-- Reasons of R411. -/
abbrev rFAILED : Nat := 6
abbrev rPRIMARY : Nat := 1
abbrev rMONITOR : Nat := 2
abbrev rCHKFAULT : Nat := 7
abbrev rBADLIST : Nat := 3
abbrev rSTALE : Nat := 4
abbrev rNAN : Nat := 5

/-- Verdict, reason and counts from a program and two lists, in the order of R411. -/
def judgeLists (g : Prog) (f : Word) (p q : ListHdr × List Byte) : Nat × Nat × Counts :=
  let zero : Counts := ⟨0, 0, 0, 0, 0⟩
  if !p.1.ok g.kind || !q.1.ok g.kind || (g.kind == 1 && p.1.count != q.1.count) then (3, rBADLIST, zero)
  else if p.1.frame ≠ f ∨ q.1.frame ≠ f then (3, rSTALE, zero)
  else
    let c := if g.kind = 0 then compareObjs g (parseObjs p.2 p.1.count) (parseObjs q.2 q.1.count)
      else compareVals g (parseVals p.2 p.1.count) (parseVals q.2 q.1.count)
    match c with
    | none => (3, rNAN, zero)
    | some c => (g.judge c, 0, c)

/-- The program is read afresh, then both lists (R409, R411). -/
def State.compareLists (s : State) (i : Fin 16) (x : Pairing) (f : Word) : State × Nat × Nat × Counts :=
  let zero : Counts := ⟨0, 0, 0, 0, 0⟩
  let sl := ((s.mon x.mon).map (·.slice)).getD 0
  match s.unitRead (chkSrc 7) x.prog 320 with
  | (s, none) => (s, 3, rBADLIST, zero)
  | (s, some pb) => match parseProg pb with
    | none => (s.chkRaise 0 sl i, 3, rBADLIST, zero)
    | some g => match s.readList (listAddr x.plist f) g.kind with
      | (s, none) => (s, 3, rBADLIST, zero)
      | (s, some p) => match s.readList (listAddr x.mlist f) g.kind with
        | (s, none) => (s, 3, rBADLIST, zero)
        | (s, some q) => (s, judgeLists g f p q)

/-- The primary's record of a frame (R282). -/
def State.primaryOut (s : State) (x : Pairing) (f : Word) : JOut :=
  ((s.sched.jobs.find? (fun j => j.part == x.part && j.kind == x.kind && j.num == f && !j.queued)).map (·.out)).getD .empty

/-- The comparison of a frame, with what R411 asks before the lists are read. -/
def State.compareFrame (s : State) (i : Fin 16) (x : Pairing) (f : Word) : State × Nat × Nat × Counts :=
  let zero : Counts := ⟨0, 0, 0, 0, 0⟩
  let fin := ((s.mon x.mon).map (·.final)).getD none
  let mine := (fin.map (fun r => r.1 == f)).getD false
  if x.lasting then (s, 3, rFAILED, zero)
  else if s.primaryOut x f ≠ .done then (s, 3, rPRIMARY, zero)
  else if mine && ((fin.map (fun r => r.2.2)).getD false) then (s, 3, rCHKFAULT, zero)
  else if !(mine && ((fin.map (fun r => r.2.1)).getD false)) then (s, 3, rMONITOR, zero)
  else s.compareLists i x f

/-- The comparison of a frame may start: both records are DONE, or CPHASE has come (R411). -/
def State.compareDue (s : State) (x : Pairing) (pt : Part) (f : Word) : Bool :=
  let w := s.wheel pt.wheel
  let c := x.cphase.toNat
  let monDone := ((((s.mon x.mon).map (·.final)).getD none).map (fun r => r.1 == f && r.2.1)).getD false
  w.going && w.begun && decide (0 ≤ frameDiff w.frame f) &&
    (w.passed (if c < 0x10000 then f else f + 1) (c % 0x10000) || (s.primaryOut x f == .done && monDone && !x.lasting))

/-- COMPARISON_START (R404, R410, R411, R413): the comparison of the pairing's next frame, whole. -/
def execComparisonStart (i : Fin 16) (s : State) : Out :=
  .next (match s.pairing i with
    | none => s
    | some x => match s.part x.part with
      | none => s
      | some pt =>
        let f := x.next
        if !x.active || !s.up 100 || !s.compareDue x pt f then s
        else
          let out := s.primaryOut x f
          let (s, v, r, c) := s.compareFrame i x f
          let sl := ((s.mon x.mon).map (·.slice)).getD 0
          let s := if v = 1 then s.count .chk 0 (Reg.CHK_AGREEi i) 1
            else if v = 2 then (s.count .chk 0 (Reg.CHK_DISAGi i) 1).chkRaise 3 sl i
            else (s.count .chk 0 (Reg.CHK_INDETi i) 1).chkRaise 4 sl i
          let e : Verdict := { frame := f, verdict := v, reason := r, up := c.up, um := c.um, cm := c.cm, bv := c.bv, matched := c.matched,
                               lt := s.now32, primary := out.code, accord := s.accordOk pt, debug := s.partDebug pt }
          s.setPairing i { x with compared := some f, pend := x.pend ++ [e] })

/-- The entry of a verdict (R412, R413). -/
def Verdict.bytes (v : Verdict) (lasting : Bool) : List Byte :=
  let confirmed := v.verdict == 1 && v.accord && !v.debug && !lasting
  leBytes 4 v.frame.toNat ++
    leBytes 4 (b2n lasting * 2 ^ 12 + b2n v.debug * 2 ^ 11 + b2n v.accord * 2 ^ 10 + b2n confirmed * 2 ^ 9 + v.reason * 16 + v.verdict) ++
    leBytes 4 (v.up * 65536 + v.um) ++ leBytes 4 (v.cm * 65536 + v.bv) ++ leBytes 4 v.matched ++ leBytes 4 v.lt.toNat ++
    leBytes 4 v.primary ++ leBytes 4 0

/-- VERDICT_WRITE (R412, R413): FP3 writes the oldest entry that is still to be written. An inactive pairing goes with its last
entry, and the SAFE_UNPAIR that waits for it completes. -/
def execVerdictWrite (i : Fin 16) (s : State) : Out :=
  .next (match s.pairing i with
    | none => s
    | some x => match x.pend with
      | [] => s
      | v :: t =>
        if !s.fpRuns 3 then s
        else
          let lasting := x.lasting || ((s.part x.part).map (·.failed)).getD false
          let s := (s.fwWrite false (x.vtab + v.frame.toNat % 64 * 32) (v.bytes lasting)).1
          let s := s.trace 3 0x0402 [x.part, v.frame.toNat, v.verdict]
          if x.active || !t.isEmpty then s.setPairing i { x with pend := t }
          else
            let s := { s with chk := { s.chk with pairs := s.chk.pairs.erase i } }
            match x.by_ with
            | some p => s.ok p
            | none => s)

/-! ### Accord signatures (R414, R415) -/

/-- The expected signature of a reference input. -/
def accordExpect (r : Nat) : Word := crc32c ((List.range 0x1000).map (Config.accordOutput r))

/-- ACCMIS (R415, R438): the record is FP7's to write; FP3 pulses SAFE_WARN_N. -/
def State.accmis (s : State) (c : CoreId) : State :=
  let ctx := ((s.partOf c).map (fun e => e.2.ctx)).getD 0
  let i := c.cl.inst
  let s := { s with flt := { s.flt with conds := s.flt.conds ++ [({ cond := 26, blk := .tc, inst := c.inst, addr := 0, ctx := ctx } : FwCond)] } }
  (s.trace 3 0x0401 [c.inst, (s.reg .cad i (Reg.CAD_ACCFRMk c.k)).toNat, (s.reg .cad i (Reg.CAD_ACCSIGk c.k)).toNat]).fwPulse 3 false

/-- ACCORD_SIGNATURE_CHECK (R414, R415): FP3 compares the signature of a core's last ACCORD once. -/
def execAccordSignatureCheck (c : CoreId) (s : State) : Out :=
  .next (match s.chk.due.get? c with
    | none => s
    | some r =>
      if !s.fpRuns 3 then s
      else
        let good := s.reg .cad c.cl.inst (Reg.CAD_ACCSIGk c.k) == accordExpect r
        let s := { s with chk := { s.chk with due := s.chk.due.erase c, accord := s.chk.accord.set c (good, s.chk.begun.get c 0) } }
        if good then s else s.accmis c)

/-! ### Self-test, blotter retest, status (R424 to R427) -/

/-- COMPARATOR_SELF_TEST (R424): once a second; `pass` says that the must-differ check and the built-in DISAGREE pair gave what they
must. -/
def execComparatorSelfTest (pass : Bool) (s : State) : Out :=
  .next (if !s.fpRuns 3 || !s.up 100 || decide (s.now < s.chk.selfTest + 1000000000) then s
    else
      let s := { s with chk := { s.chk with selfTest := s.now } }
      if pass then s else s.chkRaise 6 0 0)

/-- INUSE of R426. -/
def State.retestInUse (s : State) (d : Nat) : Bool :=
  (decide (d < 84) && decide (2 ≤ d % 14) && s.partInCluster d) ||
    (decide (92 ≤ d) && decide (d ≤ 99) && (match (s.cpuPair (Fin.ofNat 8 (d - 92))).st with
      | .running | .stopping | .halted => true
      | _ => false)) ||
    (d == 100 && !s.chk.mons.isEmpty)

/-- SAFE_RETEST (R423, R426): `silent` is a checker that does not fire, which switches the domain off. A package that is not
READY and a domain that is off give a refusal whose DETAIL is not stated. -/
def execSafeRetest (p : Fin 64) (silent : Option (Fin 11 × Nat)) (s : State) : Out :=
  .next (s.command p 0x34 [] [(8, 6, 0)] true (fun e =>
    let d := eBits e 8 6 0
    if 116 ≤ d then s.complete p stBADARG 0 0 0
    else if [84, 85, 89, 90].contains d then s.refuse p 2
    else if s.pkg ≠ pkREADY ∨ !s.up d then s.refuseFree p
    else if s.retestInUse d then s.refuse p 5
    else
      let s := s.blotter d (silent.map (fun x => (x.1.val, x.2)))
      match silent with
      | none => s.ok p
      | some _ => ((s.raise .pwr 0 1 0 0).powerOff d).ok p))

/-- CHK_STAT and CHK_PAIRi as they read (R428). -/
def State.chkStat (s : State) : Nat :=
  ((List.finRange 4).map (fun (sl : Fin 4) => b2n (s.chk.mons.any (fun e => e.2.slice == sl && e.2.running.isSome)) * 2 ^ sl.val)).foldl (· + ·) 0
def State.chkPair (s : State) (i : Fin 16) : Nat :=
  match s.pairing i with
  | some x => b2n x.active * 2 ^ 31 + b2n x.lasting * 2 ^ 30 + x.mon.val * 2 ^ 16 + x.kind.val * 2 ^ 8 + x.part.val
  | none => 0

/-- LKS_STAT (R421, R429). -/
def State.lksStat (s : State) (p : Fin 8) : Nat :=
  let x := s.cpuPair p
  let lock := s.lockPair p
  b2n (lock && x.debug) * 16 + b2n (lock && (x.st == .halted) && s.fld .lks p Reg.LKS_STAT 2 2 == 1) * 8 + s.fld .lks p Reg.LKS_STAT 2 2 * 4 +
    b2n (lock && (x.st == .running || x.st == .stopping)) * 2 + b2n lock

/-- SAFE_STATUS (R427, R642): the words in the order of R427, as far as the buffer of 256 bytes holds them. Log entry 35. -/
def execSafeStatus (p : Fin 64) (s : State) : Out :=
  .next (s.command p 0x35 [] [(0x10, 47, 0)] true (fun e =>
    let pairs := (List.finRange 16).flatMap (fun i => [s.chkPair i, (s.reg .chk 0 (Reg.CHK_AGREEi i)).toNat, (s.reg .chk 0 (Reg.CHK_DISAGi i)).toNat,
      (s.reg .chk 0 (Reg.CHK_INDETi i)).toNat])
    let ws := [s.chkStat, (s.reg .chk 0 Reg.CHK_ERRSTAT).toNat] ++ pairs ++ (List.finRange 8).map s.lksStat ++ [(s.reg .blt 0 Reg.BLT_STAT).toNat]
    s.copyBuf p (eAddr e 0x10) ((ws.flatMap (leBytes 4)).take 256) 0 0))

end Sys2Proof.Machine
end

