-- ==== Sys2Proof/Machine/Faults.lean ====
section
/-! DEFINITION. Fault collection: service, records, windowed counters, scope actions, pins, leases and the fault commands (R431 to
R463, R644). -/

namespace Sys2Proof.Machine

/-! ### Scopes (R449, R450) -/

/-- The partitions of an initiator: of a core's DMA engine its partition, of a cluster DMA or a cadence unit every partition with
cores in the cluster. -/
def State.initiatorScope (s : State) (die : Fin 8) (agent : Nat) : Scope :=
  match agentCore die (BitVec.ofNat 10 agent) with
  | some c => match s.partOf c with
    | some (pid, _) => .parts [pid]
    | none => .report
  | none =>
    if die.val < 6 ∧ agent < 192 ∧ (agent % 16 = 8 ∨ agent % 16 = 9) then
      match (s.sched.parts.filter (fun e => e.2.recs.any (fun r => r.cl.die.val == die.val && r.cl.n.val == agent / 16))).map (·.1) with
      | [] => .report
      | l => .parts l
    else .report

/-- A die's scope: a Tolid die, else the package. -/
def dieScope (d : Fin 8) : Scope := if d.val < 6 then .dies [d] else .package

/-- The Tolid dies that a link serves, else the package. -/
def linkScope (i : Nat) : Scope :=
  let d : Fin 8 := Fin.ofNat 8 (i / 8)
  let far := (peer d (Fin.ofNat 7 (i % 8))).map (·.1)
  match (d :: far.toList).filter (fun x => decide (x.val < 6)) with
  | [] => .package
  | l => .dies l

/-- The partition of a pairing. -/
def State.pairScope (s : State) (l : List (Fin 16)) : Scope := .parts ((l.filterMap (fun i => (s.pairing i).map (·.part))).eraseDups)

/-- The partition that holds a core. -/
def State.corePart (s : State) (c : CoreId) : Scope :=
  match s.partOf c with
  | some (pid, _) => .parts [pid]
  | none => .report

/-- Scope of an event (R450, R451): `sub` is what the event names, when that is known. -/
def State.scopeOf (s : State) (b : Blk) (i cond : Nat) (sub : Option Nat) : Scope :=
  match b with
  | .tc => if cond ≤ 1 ∨ cond = 26 then .core (coreOfInst i) else if cond = 25 then .report else s.corePart (coreOfInst i)
  | .cad => if cond ≤ 4 then (match sub with
      | some n => if (s.part (Fin.ofNat 32 n)).isSome then .parts [Fin.ofNat 32 n] else .report
      | none => .report) else .report
  | .mc => if 1 ≤ cond ∧ cond ≤ 4 then dieScope (Fin.ofNat 8 (i / 8)) else .report
  | .dp => if cond = 0 ∨ cond = 25 then .report else linkScope i
  | .fab => if cond ≤ 3 then (match sub with
      | some n => s.initiatorScope (Fin.ofNat 8 (n / 1024)) (n % 1024)
      | none => .report) else .report
  | .tu => if cond = 2 then .package else .report
  | .whl => if cond ≤ 2 then .wheel (Fin.ofNat 4 (sub.getD 0)) else .report
  | .fw => if cond = 1 ∨ cond = 3 ∨ cond = 4 then .package else .report
  | .pwr => if cond = 0 then .package else if cond = 1 then .domain (s.fld .blt 0 Reg.BLT_FAIL 16 10) else .report
  | .chk =>
    let p : Fin 16 := Fin.ofNat 16 (sub.getD 0)
    if cond = 0 ∨ cond = 3 ∨ cond = 4 ∨ cond = 5 then s.pairScope [p]
    else if cond = 2 then
      let sl := ((s.pairing p).bind (fun x => s.mon x.mon)).map (fun (m : Monitor) => m.slice)
      s.pairScope ((s.chk.pairs.filter (fun e => (s.mon e.2.mon).map (fun (m : Monitor) => m.slice) == sl)).map (·.1))
    else if cond = 6 then s.pairScope (s.chk.pairs.map (·.1))
    else .report
  | .lks => if cond = 2 then .cpuPair (Fin.ofNat 8 i) else .report
  | .sec => if cond = 2 ∨ cond = 3 then .package else .report
  | .cpu =>
    if cond = 1 then .package
    else if 3 ≤ cond ∧ cond ≤ 5 then
      (if s.fld .cpu 0 Reg.CPU_FIRSTERR 31 31 = 1 ∧ s.fld .cpu 0 Reg.CPU_FIRSTERR 2 0 = cond then
        .cpuPair (Fin.ofNat 8 (s.fld .cpu 0 Reg.CPU_ERRADDRH 18 16)) else .report)
    else .report
  | _ => .report

/-- SUB of a source ID (R437). -/
def subOf (b : Blk) (cond : Nat) (sub : Option Nat) : Nat :=
  match b with
  | .fab => if cond ≤ 3 then (sub.getD 0) % 256 else 0
  | .cad => if cond ≤ 4 then (sub.getD 0) % 256 else 0
  | .tc | .mc | .dp => 0
  | _ => if cond = 25 then 0 else (sub.getD 0) % 256

/-! ### Windowed counters (R444 to R447) -/

/-- The rule in force for a source: its index, THRESH and the window in ns. -/
def State.winRule (s : State) (src : Word) : Option (Fin 64) × Nat × Nat :=
  match (List.finRange 64).find? (fun n => match s.flt.rules.get? n with
    | some r => (src ^^^ r.id) &&& r.mask == 0
    | none => false) with
  | some n => match s.flt.rules.get? n with
    | some r => (some n, r.thresh, r.window * 1000000)
    | none => (none, 3, 1000000000)
  | none => (none, 3, 1000000000)

/-- Stamps of a source after one more event: newest first, the last THRESH kept. -/
def pushStamp (h : List Nat) (t thresh : Nat) : List Nat := (t :: h).take thresh

/-- The event at the head of a history makes the source lasting. -/
def nowLasting (h : List Nat) (thresh window : Nat) : Bool :=
  decide (h.length = thresh) && decide (h.headD 0 - h.getLastD 0 ≤ window)

def State.isLasting (s : State) (src : Word) : Bool := s.flt.lasting.any (fun e => e.1 == src)

/-- The stamps of a source with its events that FP3 has not yet counted, and whether one of them makes it lasting. -/
def State.pendingView (s : State) (src : Word) : List Nat × Bool :=
  let r := s.winRule src
  (s.flt.events.filter (fun e => e.source == src && e.cls != 2)).foldl (fun (x : List Nat × Bool) e =>
    let h := pushStamp x.1 e.stamp r.2.1
    (h, x.2 || nowLasting h r.2.1 r.2.2)) (s.flt.hist.get src [], s.isLasting src)

/-! ### Records (R437, R439) -/

def fclassNat : FClass → Nat
  | .c => 0
  | .u => 1
  | .f => 2

/-- Class of a condition: an ERRSTAT bit's, or U for what firmware detects (R438). -/
def condClass (b : Blk) (cond : Nat) : Nat := if 24 ≤ cond then 1 else fclassNat (errClass b cond)

/-- What a fault record holds besides its stamp and its place in the window. -/
structure RecArgs where
  blk : Blk
  inst : Nat
  cond : Nat
  sub : Nat
  scope : Scope
  code : Nat
  tdie : Nat
  ctx : BitVec 12
  addr : Nat
  idie : Nat
  merged : Nat

def Scope.partList : Scope → List (Fin 32)
  | .parts l => l
  | _ => []

/-- FP7 writes one fault record, makes its trace point and hands the event to FP3 (R439, R444). -/
def State.faultRecord (s : State) (r : RecArgs) : State :=
  let src := sourceId r.blk r.inst r.cond r.sub
  let cls := condClass r.blk r.cond
  let w := s.winRule src
  let (h, was) := s.pendingView src
  let h' := pushStamp h s.now w.2.1
  let makes := cls != 2 && !was && nowLasting h' w.2.1 w.2.2
  let events := if cls = 2 then 1 else (h'.filter (fun t => decide (s.now - t ≤ w.2.2))).length
  let n := s.reg .flt 0 Reg.FLT_LOGNEXT
  let bytes := leBytes 8 s.now ++ leBytes 4 src.toNat ++
    leBytes 4 (cls * 2 ^ 30 + b2n makes * 2 ^ 29 + b2n (cls != 2 && was) * 2 ^ 28 + Nat.min events 15 * 2 ^ 24 + r.code % 16 * 2 ^ 20 +
      r.tdie % 8 * 2 ^ 17 + r.ctx.toNat) ++
    leBytes 4 (r.addr % 2 ^ 32) ++ leBytes 4 (r.idie % 8 * 2 ^ 16 + r.addr / 2 ^ 32 % 2 ^ 16) ++ leBytes 4 n.toNat ++ leBytes 4 r.merged
  let s := s.store (s.fixed.fltBase + n.toNat % 65536 * 32) bytes
  let s := s.setReg .flt 0 Reg.FLT_LOGNEXT (n + 1)
  let s := { s with flt := { s.flt with events := s.flt.events ++ [({ source := src, cls := cls, stamp := s.now, scope := r.scope } : Ev)] } }
  s.trace 7 0x0701 [blockArg r.blk r.inst, cls, r.cond, r.addr % 2 ^ 32]

/-- Context of the job that runs on a source. -/
def State.sourceCtx (s : State) (b : Blk) (i : Nat) (sc : Scope) : BitVec 12 :=
  match b with
  | .tc => ((s.jobOf (coreOfInst i)).map (·.ctx)).getD 0
  | _ => match sc.partList with
    | [p] => ((s.part p).map (·.ctx)).getD 0
    | _ => 0

/-! ### Service (R433 to R436) -/

/-- A block's interrupt enables; a block without an INTEN register has none. -/
def State.inten (s : State) (b : Blk) (i : Nat) : Word :=
  match b with
  | .lks => 0
  | .tc => s.reg b i Reg.TC_INTEN
  | _ => s.reg b i 0x1C

/-- The status bits of a block. -/
def State.errBits (s : State) (b : Blk) (i : Nat) : Word :=
  let v := s.reg b i (errRegs b).stat
  if b = .lks then v &&& 4 else if b = .can ∨ b = .lin then v &&& 0x1F else v

/-- Expert control of a block (R14); a block without an EXPERT_EN bit is never under it. -/
def State.expert (s : State) (b : Blk) (i : Nat) : Bool := s.mayWrite ⟨6, 8, true, 0, 0, 7, false⟩ b i

/-- Recorded address of the event that is the block's first error, and of the first SECVIOL (R119, R493). -/
def State.eventAddr (s : State) (b : Blk) (i bit : Nat) : Nat :=
  let r := errRegs b
  let lo := if b = .sec ∧ bit = 0 then Reg.SEC_ERRADDRL else r.addr
  if lo = 0 then 0
  else if b = .sec ∨ (bitOf (s.reg b i r.first) 31 && bitsOf (s.reg b i r.first) 4 0 == bit) then
    (s.reg b i lo).toNat + (s.reg b i (lo + 4)).toNat % 65536 * 2 ^ 32
  else 0

/-- The posted-write log of a die is drained (R435); under expert control nothing happens. -/
def State.drainLog (s : State) (d : Fin 8) : State :=
  if s.expert .fab d then s
  else
    let s := (s.fab.pwlog.get d []).foldl (fun (s : State) (e : PwEntry) =>
      let sc := s.initiatorScope d e.agent.toNat
      (s.faultRecord ⟨.fab, d, 1, e.agent.toNat % 256, sc, e.code, e.target, s.sourceCtx .fab d sc, e.addr, d, 0⟩).pwlogPop d) s
    if s.fld .fab d Reg.FAB_PWLOGCNT 31 31 = 1 then
      (s.faultRecord ⟨.fab, d, 1, 0, .report, 0, 0, 0, 0, 0, 0⟩).setFld .fab d Reg.FAB_PWLOGCNT 31 31 0
    else s

/-- The record of one set bit. -/
def State.bitRecord (s : State) (b : Blk) (i bit : Nat) : State :=
  let key := (b, i, bit)
  if s.flt.recorded.contains key then s
  else
    let sub := s.flt.subs.get? key
    let sc := s.scopeOf b i bit sub
    let s := s.faultRecord ⟨b, i, bit, subOf b bit sub, sc, 0, 0, s.sourceCtx b i sc, s.eventAddr b i bit,
      if b = .fab then (sub.getD 0) / 1024 else 0, s.flt.merged.get key 0⟩
    { s with flt := { s.flt with recorded := s.flt.recorded ++ [key] } }

/-- FP7 clears one bit (R436). -/
def State.bitClear (s : State) (b : Blk) (i bit : Nat) : State :=
  let key := (b, i, bit)
  let r := errRegs b
  let s := s.setReg b i r.stat (s.reg b i r.stat &&& ~~~(BitVec.ofNat 32 (1 <<< bit)))
  { s with flt := { s.flt with recorded := s.flt.recorded.filter (· != key), subs := s.flt.subs.erase key, merged := s.flt.merged.erase key } }

/-- FP7 services some set bits of a block: a record for each, then the bits and VALID are cleared, unless the block is under expert
control (R433). PWFAIL drains the posted-write log (R435). -/
def State.serviceBits (s : State) (b : Blk) (i : Nat) (mask : Word) : State :=
  let bits := (List.range 24).filter (fun n => bitOf (s.errBits b i &&& mask) n)
  if bits = [] then s
  else
    let s := bits.foldl (fun (s : State) n => if b = .fab ∧ n = 1 then s.drainLog (Fin.ofNat 8 i) else s.bitRecord b i n) s
    if s.expert b i then s
    else
      let s := bits.foldl (fun (s : State) n => s.bitClear b i n) s
      let f := (errRegs b).first
      if f = 0 then s else s.setReg b i f (s.reg b i f &&& 0x7FFFFFFF)

/-- FAULT_SERVICE (R433, R435, R436, R438, R439, R441). -/
def execFaultService (r : SvcRef) (s : State) : Out :=
  .next (if !s.fpRuns 7 then s
    else match r with
      | .block b i => if s.inten b i &&& s.errBits b i = 0 then s else s.serviceBits b i 0xFFFFFFFF
      | .ignored => match s.flt.ignWr with
        | [] => s
        | (b, i) :: t =>
          let s := { s with flt := { s.flt with ignWr := t } }
          (s.fwPulse 7 false).faultRecord ⟨b, i, 25, 0, .report, 0, 0, s.sourceCtx b i .report, 0, 0, 0⟩
      | .cond => match s.flt.conds with
        | [] => s
        | c :: t =>
          let s := { s with flt := { s.flt with conds := t } }
          s.faultRecord ⟨c.blk, c.inst, c.cond, 0, s.scopeOf c.blk c.inst c.cond none, 0, 0, c.ctx, c.addr, 0, 0⟩)

/-- Register blocks that hold a status register with a set bit. -/
def State.faulty (s : State) : List (Blk × Nat) :=
  (s.regs.filter (fun e => e.1.off == (errRegs e.1.blk).stat && s.errBits e.1.blk e.1.inst != 0 &&
    !([Blk.die, .pcmp, .blt, .flt, .wdp].contains e.1.blk))).map (fun e => (e.1.blk, e.1.inst))

/-- FAULT_SWEEP (R434, R435): every set bit without an interrupt enable is serviced; every log with entries is drained. -/
def execFaultSweep (s : State) : Out :=
  .next (if !s.fpRuns 7 then s
    else
      let s := s.faulty.foldl (fun (s : State) (x : Blk × Nat) => s.serviceBits x.1 x.2 (~~~(s.inten x.1 x.2))) s
      (List.finRange 8).foldl (fun (s : State) (d : Fin 8) =>
        if (s.fab.pwlog.get d []).isEmpty && s.fld .fab d Reg.FAB_PWLOGCNT 31 31 == 0 then s else s.drainLog d) s)

/-! ### Lasting faults (R444 to R449) -/

/-- A scope action (R449). -/
def State.act (s : State) (sc : Scope) : State :=
  match sc with
  | .parts l => l.foldl (fun (s : State) p => s.failPart p) s
  | .core c =>
    let s := { s with flt := { s.flt with quarantined := if s.flt.quarantined.contains c then s.flt.quarantined else s.flt.quarantined ++ [c] } }
    (match s.partOf c with
      | some (p, _) => s.failPart p
      | none => s)
  | .wheel w => (s.boundParts w).foldl (fun (s : State) e => s.failPart e.1) s
  | .dies l =>
    let s := { s with flt := { s.flt with badDies := (s.flt.badDies ++ l).eraseDups } }
    (s.sched.parts.filter (fun e => e.2.recs.any (fun r => l.contains r.cl.die8) || e.2.res.any (fun r => l.contains r.die))).foldl
      (fun (s : State) e => s.failPart e.1) s
  | .domain d =>
    let s := { s with flt := { s.flt with badDomains := if s.flt.badDomains.contains d then s.flt.badDomains else s.flt.badDomains ++ [d] } }
    s.powerOff d
  | .cpuPair p => s.haltPair p
  | .package => if s.pkg = pkBOOTING ∨ s.pkg = pkPARTIAL ∨ s.pkg = pkREADY then s.packageFail else s
  | .report => s

/-- Partitions whose unload ends a lasting state (R448): scope Core keeps it until RESET_N. -/
def Scope.ends : Scope → List (Fin 32)
  | .parts l => l
  | _ => []

/-- FP3 counts one event (R444, R445, R447). -/
def State.countEvent (s : State) (e : Ev) : State :=
  if e.cls = 2 then s.act e.scope
  else
    let r := s.winRule e.source
    let h := pushStamp (s.flt.hist.get e.source []) e.stamp r.2.1
    let was := s.isLasting e.source
    let mark (s : State) : State :=
      { s with flt := { s.flt with degraded := if s.flt.degraded.contains e.source then s.flt.degraded else s.flt.degraded ++ [e.source] } }
    let s := { s with flt := { s.flt with hist := s.flt.hist.set e.source h } }
    if was then mark s
    else if !nowLasting h r.2.1 r.2.2 then s
    else
      let s := { s with flt := { s.flt with lasting := s.flt.lasting ++ [(e.source, e.scope.ends)] } }
      if e.cls = 0 then (mark s).fwPulse 7 false else (s.act e.scope).fwPulse 7 true

/-- WINDOW_EVENT (R416, R440, R444 to R449): the oldest event that FP3 has not counted. -/
def execWindowEvent (s : State) : Out :=
  .next (match s.flt.events with
    | [] => s
    | e :: t => if s.fpRuns 3 then ({ s with flt := { s.flt with events := t } }).countEvent e else s)

/-! ### Pins (R440 to R443, R463) -/

/-- PIN_PULSE_END (R441): a pulse has lasted 10 µs. -/
def execPinPulseEnd (isErr : Bool) (s : State) : Out :=
  let p := if isErr then s.flt.errPulse else s.flt.warnPulse
  .next (match p with
    | some t =>
      if s.now < t.toNat + 10000 then s
      else if isErr then { s with flt := { s.flt with errPulse := none } }
      else { s with flt := { s.flt with warnPulse := none } }
    | none => s)

/-- FLT_PULSE (R441, R463): device firmware only. -/
def execFltPulse (src : Src) (v : Word) (s : State) : Out :=
  .next (s.regCommand src .flt 0 Reg.FLT_PULSE (vehRegs 0x1700000) (fun s =>
    if !src.fw then (if v &&& 3 = 0 then s else s.ignoredWrite .flt 0)
    else
      let s := if bitOf v 1 then s.pulse true else s
      if bitOf v 0 then s.pulse false else s))

/-- FLT_PINSTAT (R462): the pulses, and each pin driven low. -/
def State.pinStat (s : State) : Nat :=
  let e := s.flt.errPulse.isSome
  let w := s.flt.warnPulse.isSome
  b2n e * 8 + b2n w * 4 + b2n (e || s.fld .flt 0 Reg.FLT_PINHOLD 1 1 == 1) * 2 + b2n (w || s.fld .flt 0 Reg.FLT_PINHOLD 0 0 == 1)

/-! ### Leases (R452 to R457) -/

/-- LEASEEXP (R438, R454): FP7 records it; the management core pulses SAFE_WARN_N. -/
def State.leaseExp (s : State) (b : Blk) (i : Nat) : State :=
  let ctx := s.sourceCtx b i .report
  ({ s with flt := { s.flt with conds := s.flt.conds ++ [({ cond := 24, blk := b, inst := i, addr := 0, ctx := ctx } : FwCond)] } }).fwPulse 8 false

/-- The holder of an expired lease: its job is stopped with FAULTED; a core without a job is revoked at once. -/
def State.holderFaulted (s : State) (c : CoreId) : State :=
  let s := s.leaseExp .tc c.inst
  if (s.jobOf c).isSome then s.coreFailed c else (s.revokeLocks c).revokeChans c

/-- A request credit has not returned within its lease (R457). -/
def State.creditExpired (s : State) (d : Fin 8) (p : Fin 7) (x : Credit) : State :=
  let i := portInst d p
  let s := { s with fab := { s.fab with credits := removeFirst (fun y => y == x) s.fab.credits } }
  let s := ((s.raise .dp i 1 0 0).leaseExp .dp i).revoked 3 (d.val * 1024) d
  match s.fab.tx.find? (fun t => t.src.cls == x.cls && decide (t.since ≤ x.since) && (route t.src.die t.target).contains (d, p)) with
  | some t => s.endTx t 6
  | none => s

/-- LEASE_EXPIRE (R452, R454, R457): 100 µs since the last renewal. -/
def execLeaseExpire (r : LeaseRef) (s : State) : Out :=
  .next (match r with
    | .lock a => match s.flt.locks.find? (fun l => l.1 == a) with
      | some (_, c, t) =>
        let stopping := s.sched.jobs.any (fun j => j.stopping && j.running.contains c)
        if !s.fw.mcRunning || decide (s.now < t + 100000) || stopping then s else s.holderFaulted c
      | none => s
    | .chan c ch => match s.flt.chanLease.get? (c, ch) with
      | some (_, t) =>
        let st := (Chan.get (s.core c) ch).st
        let stopping := s.sched.jobs.any (fun j => j.stopping && j.running.contains c)
        let reads := s.fab.tx.any (fun x => x.isRead && x.src.core == some c && x.chan.val == ch.val)
        if !s.fw.mcRunning || decide (s.now < t + 100000) || st != .active || reads || stopping then s else s.holderFaulted c
      | none => s
    | .credit d p cls => match s.fab.credits.find? (fun x => x.die == d && x.port == p && x.cls == cls && decide (x.since + 100000 ≤ s.now)) with
      | some x => if s.fw.mcRunning then s.creditExpired d p x else s
      | none => s)

/-! ### Fault commands (R461, R644) -/

/-- FLT_READ (R461). -/
def execFltRead (p : Fin 64) (s : State) : Out :=
  .next (s.command p 0x38 [7] [(8, 31, 0), (0xC, 6, 0), (0x10, 47, 0)] true (fun e =>
    let n := eBits e 0xC 6 0
    let next := s.reg .flt 0 Reg.FLT_LOGNEXT
    let first := eWord e 8
    let start := if 65536 < (next - first).toNat then next - 65536 else first
    let m := Nat.min n (next - start).toNat
    if n = 0 ∨ 64 < n then s.complete p stBADARG 0 0 0
    else s.copyBuf p (eAddr e 0x10) ((List.range m).flatMap (fun i => s.load (s.fixed.fltBase + (start.toNat + i) % 65536 * 32) 32)) m next.toNat))

/-- FLT_WINDOW (R445, R461): VALID = 0 removes the rule. -/
def execFltWindow (p : Fin 64) (s : State) : Out :=
  .next (s.command p 0x39 [3] [(8, 5, 0), (8, 8, 8), (0xC, 31, 0), (0x10, 31, 0), (0x14, 3, 0), (0x18, 31, 0)] true (fun e =>
    let i : Fin 64 := Fin.ofNat 64 (eBits e 8 5 0)
    let t := eBits e 0x14 3 0
    let w := eBits e 0x18 31 0
    if eBits e 8 8 8 = 0 then ({ s with flt := { s.flt with rules := s.flt.rules.erase i } }).ok p
    else if t = 0 ∨ w = 0 ∨ 60000 < w then s.complete p stBADARG 0 0 0
    else ({ s with flt := { s.flt with rules := s.flt.rules.set i ⟨eWord e 0xC, eWord e 0x10, t, w⟩ } }).ok p))

/-- FLT_PIN (R442, R443, R461). -/
def execFltPin (p : Fin 64) (s : State) : Out :=
  .next (s.command p 0x3A [] [(8, 1, 0), (8, 10, 8)] true (fun e =>
    if eBits e 8 1 1 = 1 ∧ s.pkg = pkFAILED then s.refuse p 1
    else
      let set (s : State) (b : Nat) : State :=
        if eBits e 8 b b = 0 then s
        else
          let s := s.setFld .flt 0 Reg.FLT_PINHOLD b b (eBits e 8 8 8)
          if eBits e 8 9 9 = 1 then s.setFld .flt 0 Reg.FLT_PINAUTO b b (eBits e 8 10 10) else s
      (set (set s 0) 1).ok p))

/-- Steps 1 to 3 of R458. -/
def State.beginReset (s : State) (pid : Fin 32) (pt : Part) (by_ : Fin 64) : State :=
  let s := s.setPart pid { pt with fenced := true }
  let s := s.endJobs pid .faulted .aborted
  let busy (s : State) (c : CoreId) : Bool := s.sched.jobs.any (fun j => j.running.contains c)
  let s := pt.cores.foldl (fun (s : State) c => if busy s c then s else ((s.revokeLocks c).revokeChans c).barClear c) s
  { s with flt := { s.flt with drains := s.flt.drains.set pid (by_, s.now) } }

/-- FLT_PARTRESET (R458, R460): the command completes at PARTRESET_DRAIN_END. -/
def execFltPartreset (p : Fin 64) (s : State) : Out :=
  .next (s.command p 0x3B [] [(8, 4, 0)] true (fun e =>
    let pid : Fin 32 := Fin.ofNat 32 (eBits e 8 4 0)
    match s.livePart pid with
    | none => s.complete p stNOTFOUND 0 0 0
    | some pt =>
      if !s.mayUse p pt.ctx then s.complete p stDENIED 0 0 0
      else if (s.flt.drains.get? pid).isSome then s
      else if pt.failed then s.refuse p 0x20
      else s.beginReset pid pt p))

/-- Outstanding posted writes of a partition's cores. -/
def State.partPosted (s : State) (pt : Part) : List Tx :=
  s.fab.tx.filter (fun t => !t.isRead && (match t.src.core with
    | some c => pt.has c
    | none => false))

/-- Steps 4 to 6 of R458: what is still outstanding fails with DRAIN, every core is loaded again, the ranges are zeroed, the fence
goes; armed kinds launch again from the frame of R460. -/
def State.endReset (s : State) (pid : Fin 32) (pt : Part) : State :=
  let s := (s.partPosted pt).foldl (fun (s : State) t => s.endTx t 7) s
  let s := pt.cores.foldl (fun (s : State) c => (s.revokeLocks c).revokeChans c) s
  let s := pt.recs.foldl (fun (s : State) r => (s.loadCores r.cl r.coreList).zero (csBase r.cl + r.csStart * 65536) ((r.csEnd - r.csStart) * 65536)) s
  let s := s.installCode pt
  let s := pt.kinds.foldl (fun (s : State) k => s.unstage pt k) s
  let w := s.wheel pt.wheel
  let n : Word := if w.begun then w.frame + 2 else 1
  s.setPart pid { pt with fenced := false, kinds := pt.kinds.map (fun k => { k with staged := none, armFrame := if k.armed then n else k.armFrame }) }

/-- PARTRESET_DRAIN_END (R458): the jobs have stopped, and no posted write is outstanding or 100 µs have passed. -/
def execPartresetDrainEnd (pid : Fin 32) (s : State) : Out :=
  .next (match s.flt.drains.get? pid, s.part pid with
    | some (p, t), some pt =>
      if !s.partQuiet pid || (!(s.partPosted pt).isEmpty && decide (s.now < t + 100000)) then s
      else (({ s with flt := { s.flt with drains := s.flt.drains.erase pid } }).endReset pid pt).ok p
    | _, _ => s)

/-- The held leases of a die (R452, R461): kind, holder, resource, LT of acquisition. When a barrier slot was taken is not kept: a
free value. -/
def State.leaseList (s : State) (d : Fin 8) : List (List Byte) :=
  let e (k holder res lt : Nat) : List Byte := leBytes 4 k ++ leBytes 4 holder ++ leBytes 4 res ++ leBytes 4 lt
  let locks := (s.flt.locks.filter (fun l => l.2.1.die8 == d)).map (fun l => e 1 l.2.1.agent.toNat l.1 l.2.2)
  let chans := (s.flt.chanLease.filter (fun x => x.1.1.die8 == d && ((Chan.get (s.core x.1.1) x.1.2).head.isSome &&
    (Chan.get (s.core x.1.1) x.1.2).st != .error && (Chan.get (s.core x.1.1) x.1.2).st != .stopped))).map (fun x => e 2 x.1.1.agent.toNat x.1.2 x.2.1)
  let credits := (s.fab.credits.filter (fun x => x.die == d)).map (fun x => e 3 0 x.port x.since)
  let trackers := (s.fab.tx.filter (fun t => t.src.die == d)).map (fun t => e 4 t.src.agent.toNat (((route d t.target).head?.map (fun h => h.2.val)).getD 0) t.since)
  let bars := (s.bars.filter (fun x => x.2.isSome && x.1.1.die8 == d)).map (fun x => e 5 (x.1.1.n.val * 16) x.1.2 (Config.freeWord s.freeCtr).toNat)
  locks ++ chans ++ credits ++ trackers ++ bars

/-- FLT_LEASES (R461, R642): the first 64 leases, the rest of the buffer 0. -/
def execFltLeases (p : Fin 64) (s : State) : Out :=
  .next (s.command p 0x3C [] [(8, 2, 0), (0x10, 47, 0)] true (fun e =>
    let bs := ((s.leaseList (Fin.ofNat 8 (eBits e 8 2 0))).take 64).flatten
    ({ s with freeCtr := s.freeCtr + 1 }).copyBuf p (eAddr e 0x10) (bs ++ leBytes (1024 - bs.length) 0) 0 0))

/-- The buffer of FLT_SOURCE (R644). -/
def State.sourceBytes (s : State) (src : Word) : List Byte :=
  let r := s.winRule src
  let h := s.flt.hist.get src []
  leBytes 4 src.toNat ++ leBytes 4 ((r.1.map (fun n => n.val)).getD 0xFF) ++ leBytes 4 r.2.1 ++ leBytes 4 (r.2.2 / 1000000) ++
    leBytes 4 (h.length * 256 + b2n (s.isLasting src) * 2 + b2n (s.flt.degraded.contains src)) ++ leBytes 12 0 ++
    (List.range 15).flatMap (fun i => leBytes 8 (h.getD i 0)) ++ leBytes 104 0

/-- FLT_SOURCE (R461, R644). -/
def execFltSource (p : Fin 64) (s : State) : Out :=
  .next (s.command p 0x3D [3] [(8, 31, 0), (0x10, 47, 0)] true (fun e => s.copyBuf p (eAddr e 0x10) (s.sourceBytes (eWord e 8)) 0 0))

/-- FLT_PWSTICKY (R435, R461): a word that no die has is BADARG. -/
def execFltPwsticky (p : Fin 64) (s : State) : Out :=
  .next (s.command p 0x3E [] [(8, 2, 0), (8, 12, 8), (0xC, 31, 0)] true (fun e =>
    let d : Fin 8 := Fin.ofNat 8 (eBits e 8 2 0)
    let off := Reg.FAB_PWSTICKYw (eBits e 8 12 8)
    let old := s.reg .fab d off
    if !s.up (domFab d) then s.complete p stFAULT 0 0 0
    else if (regFields ⟨.fab, d, off⟩).isNone then s.complete p stBADARG 0 0 0
    else (s.setReg .fab d off (old &&& ~~~(eWord e 0xC))).complete p stOK 0 old.toNat 0))

end Sys2Proof.Machine
end

