-- ==== Sys2Proof/Machine/Transport.lean ====
section
/-! DEFINITION. Datagrams of the ring transport and of the management protocol as bytes, opened and sealed under a session key (R350 to
R353, R489). -/

namespace Sys2Proof.Machine

/-- Fields of the transport header (R351). -/
def tpMagic (bs : List Byte) : Nat := bBits bs 0 31 8
def tpOp (bs : List Byte) : Nat := bBits bs 0 7 0
def tpLen (bs : List Byte) : Nat := bBits bs 4 15 0
def tpSession (bs : List Byte) : Word := BitVec.ofNat 32 (bWord bs 8)
def tpPair (bs : List Byte) : Fin 64 := Fin.ofNat 64 (bBits bs 0xC 5 0)
def tpSeq (bs : List Byte) : BitVec 64 := BitVec.ofNat 64 (leNat (bBytes bs 0x10 8))
def tpAddr (bs : List Byte) : Nat := leNat (bBytes bs 0x18 6)

/-- Payload and tag as they came: the tag is what follows LEN bytes of payload. -/
def tpPayload (bs : List Byte) : List Byte := bBytes bs 32 (tpLen bs)
def tpTag (bs : List Byte) : List Byte := bs.drop (32 + tpLen bs)

/-- MAGIC, version 1 and size of a datagram are right (R350, R351): a tag of 16 bytes, or none. -/
def tpForm (magic : Nat) (bs : List Byte) (tag : Nat) : Bool :=
  tpMagic bs == magic * 256 + 1 && decide (tpLen bs ≤ 1024) && bs.length == 32 + tpLen bs + tag

/-- A header (R351); datagrams that the device sends name no address. -/
def tpHeader (magic op status len : Nat) (session : Word) (pair : Nat) (seq : BitVec 64) : List Byte :=
  leBytes 4 (magic * 2 ^ 16 + 2 ^ 8 + op) ++ leBytes 4 (status * 2 ^ 24 + len) ++ leBytes 4 session.toNat ++ leBytes 4 pair ++
    leBytes 8 seq.toNat ++ leBytes 8 0

/-- The nonce (R352): SESSION followed by the sequence, in the byte order of R351. DEDUCED, log entry 115. -/
def tpNonce (session : Word) (seq : BitVec 64) : List Byte := leBytes 4 session.toNat ++ leBytes 8 seq.toNat

/-- A sealed datagram: header, encrypted payload, tag over both (R350, R352). -/
def tpSealed (magic : Nat) (key : List Byte) (op status : Nat) (session : Word) (pair : Nat) (seq : BitVec 64) (payload : List Byte) : List Byte :=
  let h := tpHeader magic op status payload.length session pair seq
  let (ct, tag) := gcmSeal key (tpNonce session seq) h payload
  h ++ ct ++ tag

/-- The payload of a sealed datagram whose tag verifies (R352). -/
def tpOpened (key bs : List Byte) : Option (List Byte) :=
  gcmOpen key (tpNonce (tpSession bs) (tpSeq bs)) (bs.take 32) (tpPayload bs) (tpTag bs)

/-- The session key of a remote-access session (R352): HMAC-SHA-256 over K_ring. -/
def rapKey (ring nh nd : List Byte) (session : Word) : List Byte :=
  hmac256 ring ([0x48, 0x52, 0x53, 0x31] ++ nh ++ nd ++ leBytes 4 session.toNat)

/-- The session key of a management session (R489): HMAC-SHA-256 over S. -/
def mgmtKey (secret ns nd : List Byte) : List Byte := hmac256 secret ([0x48, 0x4D, 0x47, 0x31] ++ ns ++ nd)

end Sys2Proof.Machine
end

