-- ==== Sys2Proof/Machine/Rap.lean ====
section
/-! DEFINITION. The remote-access protocol (R349 to R357): datagrams as bytes, opened and sealed under the session key. -/

namespace Sys2Proof.Machine

/-- Operations that a host may ask for (R354). -/
def rapOps : List Nat := [1, 2, 3, 4, 5, 6]

/-! ### Sessions (R353, R356, R357) -/

/-- Sessions other than the one named. -/
def State.dropSession (s : State) (p : Fin 64) (id : Word) : State :=
  { s with fw := { s.fw with sessions := s.fw.sessions.filter (fun x => !(x.pair == p && x.id == id)) } }

def State.session (s : State) (p : Fin 64) (id : Word) : Option Session := s.fw.sessions.find? (fun x => x.pair == p && x.id == id)

def State.putSession (s : State) (x : Session) : State :=
  { s with fw := { s.fw with sessions := s.fw.sessions.map (fun (y : Session) => if y.pair = x.pair ∧ y.id = x.id then x else y) } }

/-- K_ring of a pair (R349), and the key of a session (R352). -/
def State.ringKeyOf (s : State) (p : Fin 64) : List Byte := (s.fw.ringKey.get p (0, [])).2
def State.sessionKey (s : State) (x : Session) : List Byte := rapKey (s.ringKeyOf x.pair) x.nonceHost x.nonceDev x.id

/-- A datagram leaves for the host of a pair. -/
def State.rapSend (s : State) (o : RapOut) : State := { s with fw := { s.fw with rapOut := s.fw.rapOut.set o.pair o } }

/-- A datagram is dropped and counted (R357). -/
def State.rapDrop (s : State) : State := s.count .fw 0 Reg.FW_RAPDROP 1

/-- A datagram whose tag fails is dropped, and traced (R357, R366). -/
def State.rapAuthFail (s : State) (p : Fin 64) (q : RapDgram) : State :=
  s.rapDrop.trace 6 0x0602 [p, (q.peer.addr.setWidth 32).toNat, (s.rapDrop.reg .fw 0 Reg.FW_RAPDROP).toNat]

/-- A datagram for the transport (R350): whole, to the port, VLAN and address of the board configuration. -/
def State.rapFor (s : State) (q : RapDgram) : Bool :=
  !q.frag && q.udp == s.fixed.board.rapPort && q.vlan == s.fixed.board.rapVlan &&
    (if q.peer.v6 then q.dst == s.fixed.board.rapV6 else q.dst == s.fixed.board.rapV4.setWidth 128)

/-- A remote pair that FP6 serves (R349, R357). -/
def State.rapPair (s : State) (p : Fin 64) : Bool := (s.ring p).isOpen && (s.ring p).remote && !(s.ring p).closing

/-- A datagram of one operation, or of an undefined one, reaches FP6; those of other operations are other commands (log entry 115). While
FP6 does not run, and when the form or the pair is wrong, it is dropped and counted (R357). -/
def State.rapTake (s : State) (q : RapDgram) (op tag : Nat) (k : Fin 64 → State) : State :=
  if !s.rapFor q || (rapOps.contains (tpOp q.bytes) && tpOp q.bytes != op) then s
  else if !s.fpRuns 6 || !tpForm 0x4852 q.bytes tag || !s.rapPair (tpPair q.bytes) then s.rapDrop
  else k (tpPair q.bytes)

/-- The answer to OPEN (R353): in clear, with a tag over header and ND under the new session key. -/
def State.openAnswer (s : State) (x : Session) : List Byte :=
  let seq := BitVec.ofNat 64 (2 ^ 63)
  let h := tpHeader 0x4852 0x81 0 x.nonceDev.length x.id x.pair.val seq
  h ++ x.nonceDev ++ (gcmSeal (s.sessionKey x) (tpNonce x.id seq) (h ++ x.nonceDev) []).2

/-- RAP_OPEN (R353): `id` is the new session number and `nd` the device nonce. At most 4 half-open sessions a pair; the oldest
is dropped. -/
def execRapOpen (q : RapDgram) (id : Word) (nd : List Byte) (s : State) : Out :=
  .next (if tpOp q.bytes ≠ 1 then s
    else s.rapTake q 1 0 (fun p =>
      if tpSession q.bytes ≠ 0 ∨ tpSeq q.bytes ≠ 0 ∨ tpLen q.bytes ≠ 16 then s.rapDrop
      else if id = 0 ∨ (s.session p id).isSome then s
      else
        let half := s.fw.sessions.filter (fun x => x.pair == p && !x.established)
        let s := match half with
          | o :: _ => if 4 ≤ half.length then s.dropSession p o.id else s
          | [] => s
        let x : Session := ⟨p, id, false, s.now, s.now, none, tpPayload q.bytes, nd, q.peer, []⟩
        ({ s with fw := { s.fw with sessions := s.fw.sessions ++ [x] } }).rapSend ⟨p, q.peer, s.openAnswer x⟩))

/-- A session becomes established by its first sealed request; earlier sessions of the pair end (R353). -/
def State.establish (s : State) (q : RapDgram) (x : Session) : State :=
  let s := { s with fw := { s.fw with sessions := s.fw.sessions.filter (fun (y : Session) => y.pair != x.pair || !y.established) } }
  (s.putSession { x with established := true }).trace 6 0x0601 [x.pair, x.id.toNat, (q.peer.addr.setWidth 32).toNat]

/-- A response is sealed, leaves, and is kept among the last 64 (R352, R354, R356). -/
def State.rapRespond (s : State) (p : Fin 64) (q : RapDgram) (status : Nat) (payload : List Byte) : State :=
  match s.session p (tpSession q.bytes) with
  | some x =>
    let out := tpSealed 0x4852 (s.sessionKey x) ((tpOp q.bytes + 0x80) % 256) status x.id p.val (tpSeq q.bytes ||| BitVec.ofNat 64 (2 ^ 63)) payload
    (s.putSession { x with done := ((tpSeq q.bytes, out) :: x.done).take 64 }).rapSend ⟨p, q.peer, out⟩
  | none => s

/-- A sealed request (R352 to R357): checks, establishment, repetition; an undefined operation is answered with BADOP, and `k` executes
the command's own on the payload, once. -/
def State.rapRequest (s : State) (q : RapDgram) (op : Nat) (k : Fin 64 → List Byte → State → State) : State :=
  s.rapTake q op 16 (fun p =>
    match s.session p (tpSession q.bytes) with
    | none => s.rapDrop
    | some x => match tpOpened (s.sessionKey x) q.bytes with
      | none => s.rapAuthFail p q
      | some pt =>
        let seq := tpSeq q.bytes
        if seq = 0 ∨ 2 ^ 62 < seq.toNat ∨ (!x.established ∧ seq ≠ 1) then s.rapDrop
        else
          let s := if x.established then s else s.establish q x
          let s := s.putSession { x with established := true, lastValid := s.now, peer := q.peer }
          match x.done.find? (fun e => e.1 == seq) with
          | some e => s.rapSend ⟨p, q.peer, e.2⟩
          | none =>
            if x.done.length = 64 ∧ x.done.all (fun e => decide (seq < e.1)) then s.rapDrop
            else if tpOp q.bytes = op then k p pt s
            else s.rapRespond p q 3 [])

/-! ### Operations (R354, R355) -/

/-- One range lies in another. -/
def inRange (a n base len : Nat) : Bool := decide (base ≤ a) && decide (a + n ≤ base + len)

/-- Areas that a pair grants (R355). -/
def Ring.grants (r : Ring) (p : Fin 64) (a n : Nat) (write : Bool) : Bool :=
  inRange a n r.sqBase (64 * 2 ^ r.sqN) ||
    (if write then inRange a n (ringCb p + 0x18) 4 || inRange a n (ringCb p + 0x24) 4 || inRange a n (ringCb p + 0x2C) 4
     else inRange a n r.cqBase (32 * 2 ^ r.cqN) || inRange a n (ringCb p) 0x40) ||
    r.windows.any (fun w => inRange a n w.1 w.2.1 && (if write then w.2.2.2 else w.2.2.1))

/-- STATUS of a READ or WRITE before it is performed: 0, 1 RANGE or 2 ALIGN. -/
def Ring.rapStatus (r : Ring) (p : Fin 64) (a n : Nat) (write : Bool) : Nat :=
  if a % 4 ≠ 0 ∨ n % 4 ≠ 0 then 2 else if n < 4 ∨ 1024 < n ∨ !r.grants p a n write then 1 else 0

/-- A WRITE: host words of a control block take it as R331 gives, memory as any posted write. -/
def State.rapStore (s : State) (a : Nat) (bs : List Byte) : State × Bool :=
  if inRange a bs.length dirBase 0x2000 then (s.dirWrite a bs, true) else s.unitWriteOk fp6Src a bs

/-- RAP_READ (R354, R355): the payload is the length, in 4 bytes. -/
def execRapRead (q : RapDgram) (s : State) : Out :=
  .next (s.rapRequest q 2 (fun p pt s =>
    let a := tpAddr q.bytes
    let n := leNat pt
    let st := if pt.length = 4 then (s.ring p).rapStatus p a n false else 1
    if st ≠ 0 then s.rapRespond p q st []
    else match s.unitRead fp6Src a n with
      | (s, some bs) => s.rapRespond p q 0 bs
      | (s, none) => s.rapRespond p q 4 []))

/-- RAP_WRITE (R354, R355). -/
def execRapWrite (q : RapDgram) (s : State) : Out :=
  .next (s.rapRequest q 3 (fun p pt s =>
    let st := (s.ring p).rapStatus p (tpAddr q.bytes) pt.length true
    if st ≠ 0 then s.rapRespond p q st []
    else match s.rapStore (tpAddr q.bytes) pt with
      | (s, true) => s.rapRespond p q 0 []
      | (s, false) => s.rapRespond p q 4 []))

/-- RAP_DOORBELL (R333, R355). -/
def execRapDoorbell (q : RapDgram) (s : State) : Out :=
  .next (s.rapRequest q 4 (fun p _ s => (s.doorbell fp6Src p).rapRespond p q 0 []))

/-- RAP_CLOSE (R357): the answer leaves and the session ends. -/
def execRapClose (q : RapDgram) (s : State) : Out :=
  .next (s.rapRequest q 5 (fun p _ s => (s.rapRespond p q 0 []).dropSession p (tpSession q.bytes)))

/-- RAP_KEEPALIVE (R354). -/
def execRapKeepalive (q : RapDgram) (s : State) : Out := .next (s.rapRequest q 6 (fun p _ s => s.rapRespond p q 0 []))

/-- RAP_NOTIFY (R355): at most once every 1 ms, to where the last valid request came from. Its sequence is not stated: a free value
(log entry 11). -/
def execRapNotify (p : Fin 64) (s : State) : Out :=
  .next (match s.fw.sessions.find? (fun x => x.pair == p && x.established) with
    | none => s
    | some x =>
      let due : Bool := match x.lastNotify with
        | some t => decide (t + 1000000 ≤ s.now)
        | none => true
      let r := s.ring p
      if s.fpRuns 6 && s.rapPair p && due && r.cqTail != s.load32 (ringCb p + 0x24) && bitOf (s.load32 (ringCb p + 0x2C)) 0 then
        let (v, s) := s.freeWord
        (s.putSession { x with lastNotify := some s.now }).rapSend
          ⟨p, x.peer, tpSealed 0x4852 (s.sessionKey x) 7 0 x.id p.val (BitVec.ofNat 64 (2 ^ 63) ||| v.setWidth 64) (leBytes 4 r.cqTail.toNat)⟩
      else s)

/-- RAP_SESSION_TIMEOUT (R357). -/
def execRapSessionTimeout (p : Fin 64) (s : State) : Out :=
  .next { s with fw := { s.fw with sessions := s.fw.sessions.filter (fun (x : Session) =>
    !(x.pair == p && x.established && decide (x.lastValid + 10000000000 ≤ s.now))) } }

/-- RAP_HALFOPEN_TIMEOUT (R353). -/
def execRapHalfopenTimeout (p : Fin 64) (s : State) : Out :=
  .next { s with fw := { s.fw with sessions := s.fw.sessions.filter (fun (x : Session) =>
    !(x.pair == p && !x.established && decide (x.openedLt + 1000000000 ≤ s.now))) } }

end Sys2Proof.Machine
end

