-- ==== Sys2Proof/Machine/Security.lean ====
section
/-! DEFINITION. Security commands: contexts, regions, packages, group keys, attestation, write logging, clock gating (R464 to R488,
R492). -/

namespace Sys2Proof.Machine

/-! ### Contexts and slices in numbers (R480 to R482) -/

def unit2M : Nat := 0x200000
/-- 2 MiB units of a die's DRAM that regions may take (R468). -/
def State.dramUnits (s : State) (d : Fin 8) : Nat :=
  s.dramBytes d / unit2M - (if d.val = 6 then 256 + (s.fixed.carve.map (·.2)).foldl (· + ·) 0 else 0)

def State.ctxsOf (s : State) (sl : Fin 64) : List (BitVec 12 × Ctx) := s.sec.ctxs.filter (fun e => e.2.slice == sl)
/-- Key slots that a slice's contexts hold, ring keys included. -/
def State.slotsOf (s : State) (sl : Fin 64) : Nat :=
  (s.sec.slots.filter (fun e => e.1.val != 0 && s.sliceOfCtx e.2.ctx == sl)).length
/-- 2 MiB units that a slice's contexts hold on a die. -/
def State.unitsOf (s : State) (sl : Fin 64) (d : Fin 8) : Nat :=
  ((s.sec.regions.filter (fun r => r.die == d && s.sliceOfCtx r.ctx == sl)).map (·.size)).foldl (· + ·) 0

/-- A context that a security command may name (R465, R641): it exists, is not closing and is not context 0. -/
def State.secCtx (s : State) (ctx : BitVec 12) : Bool := ctx != 0 && s.ctxLive ctx

def eCtx (e : BitVec 512) : BitVec 12 := BitVec.ofNat 12 (eBits e 8 11 0)

/-- The context of a security command: NOCTX when it does not exist, DENIED to the other world's control pair (R492, R641). -/
def State.withSecCtx (s : State) (p : Fin 64) (ctx : BitVec 12) (k : State → State) : State :=
  if !s.secCtx ctx then s.refuse p 5 else if !s.mayUse p ctx then s.complete p stDENIED 0 0 0 else k s

/-- CTX_CREATE (R465, R472, R482, R492). -/
def execCtxCreate (p : Fin 64) (s : State) : Out :=
  .next (s.command p 0x40 [4] [(8, 11, 0), (8, 21, 16), (8, 24, 24)] true (fun e =>
    let ctx := eCtx e
    let sl : Fin 64 := Fin.ofNat 64 (eBits e 8 21 16)
    let enc := eBits e 8 24 24 == 1
    let world := p.val == 1
    let x : Ctx := { world := world, slice := sl, slot := 0, closing := false, blocked := false, discards := 0 }
    if ctx = 0 ∨ (s.sec.ctxs.get? ctx).isSome then s.refuse p 1
    else if sl ≠ 0 ∧ (s.sec.slices.get? sl).isNone then s.complete p stNOTFOUND 0 0 0
    else if s.sliceLimit sl 4095 (·.ctxs) ≤ (s.ctxsOf sl).length ∨ (enc ∧ s.sliceLimit sl 255 (·.slots) ≤ s.slotsOf sl) then s.refuse p 2
    else
      let slot := if enc then s.freeSlot else some 0
      match slot with
      | none => s.refuse p 3
      | some n =>
        if sl ≠ 0 ∧ ((s.sec.slices.get? sl).map (fun y => y.world != world)).getD false then s.refuse p 6
        else
          let s := ({ s with sec := { s.sec with ctxs := s.sec.ctxs.set ctx { x with slot := n } } }).setAcct ctx (fun _ => Acct.zero)
          (if enc then (s.setSlot n (some ⟨1, ctx⟩)).drawKey n else s).ok p))

/-! ### Removal (R483, R484) -/

/-- Gateway queues of a context end. -/
def State.gwStop (s : State) (ctx : BitVec 12) : State :=
  { s with gw := { s.gw with queues := s.gw.queues.filter (fun e => e.2.ctx != ctx) } }

/-- Ring pairs of a context close as by RING_CLOSE; a pair with a command taken closes when that command completes. -/
def State.closeRings (s : State) (ctx : BitVec 12) : State :=
  (s.fw.rings.filter (fun e => e.2.isOpen && e.2.ctx == ctx)).foldl (fun (s : State) (e : Fin 64 × Ring) =>
    if (s.ring e.1).taken.isNone then s.closeRing e.1 else s.setRing e.1 { s.ring e.1 with closing := true }) s

/-- The fence of a removal: everything that issues for the context ends. -/
def State.fenceCtx (s : State) (ctx : BitVec 12) : State :=
  let s := match s.sec.ctxs.get? ctx with
    | some x => { s with sec := { s.sec with ctxs := s.sec.ctxs.set ctx { x with closing := true, blocked := true } } }
    | none => s
  let parts := (s.sched.parts.filter (fun e => e.2.ctx == ctx)).map (·.1)
  let s := parts.foldl (fun (s : State) pid => s.forceUnload pid .aborted) s
  (((s.closeRings ctx).mediaStop ctx).wdeStop ctx).gwStop ctx

/-- CTX_DESTROY (R465, R483): the fence; the command completes at CTX_DESTROY_RELEASE. -/
def execCtxDestroy (p : Fin 64) (s : State) : Out :=
  .next (s.command p 0x41 [1, 4] [(8, 11, 0)] true (fun e =>
    let ctx := eCtx e
    if s.sec.removals.any (fun r => r.ctx == ctx && r.pair == p && r.cmdid == eCmd e) then s
    else s.withSecCtx p ctx (fun s =>
      let s := s.fenceCtx ctx
      { s with sec := { s.sec with removals := s.sec.removals ++ [⟨ctx, p, eCmd e, s.now, false⟩] } })))

/-- Requests of a context that have no outcome yet. -/
def State.ctxTx (s : State) (ctx : BitVec 12) : List Tx := s.fab.tx.filter (fun t => t.src.ctx == ctx && !t.src.fw)

/-- A request still in flight at the end of the drain meets the new generation (R467, R483). -/
def State.discardTx (s : State) (t : Tx) : State :=
  let s := { s with fab := { s.fab with tx := s.fab.tx.map (fun (x : Tx) => if x.id = t.id then { x with fail := some 4, data := [] } else x) } }
  s.recordRefusal t.src t.addr ⟨4, 0⟩

/-- Scrub writes of a region come from its controllers under context 0, in class 0, through the default share entry (R484); no agent ID of
the die is theirs. Cached lines of the region are invalidated (R506). -/
def State.scrub (s : State) (r : Region) : State :=
  let a := dieBase r.die + r.base * unit2M
  let n := r.size * unit2M
  ((s.serve ⟨r.die, 0x3FF, false, 0, 0, 0, false⟩ a n true).invalidate a n).zero a n

/-- Steps 3 to 5 of R483: the generation advances with the memory key, the regions are written with zeros. -/
def State.advanceGen (s : State) (ctx : BitVec 12) : State :=
  let g := s.gen ctx
  let cs := match s.sec.ctxs.get? ctx with
    | some x => s.sec.ctxs.set ctx { x with discards := 0 }
    | none => s.sec.ctxs
  let s := { s with sec := { s.sec with gens := s.sec.gens.set ctx (if g = 255 then 1 else g + 1), ctxs := cs } }
  let slot : Fin 256 := ((s.sec.ctxs.get? ctx).map (·.slot)).getD 0
  let s := if slot = 0 then s else s.drawKey slot
  let s := (s.ctxTx ctx).foldl (fun (s : State) t => s.discardTx t) s
  let s := (s.sec.owner.filter (fun e => e.2 == ctx)).foldl (fun (s : State) (e : ClusterId × BitVec 12) =>
    { s.zero (csBase e.1) 0x1000000 with sec := { s.sec with owner := s.sec.owner.erase e.1 } }) s
  (s.sec.regions.filter (fun r => r.ctx == ctx)).foldl (fun (s : State) r => s.scrub r) s

def State.removalOf (s : State) (ctx : BitVec 12) : Option Removal := s.sec.removals.find? (fun r => r.ctx == ctx)

/-- CTX_DESTROY_DRAIN_END (R473, R483): nothing of the context is outstanding, or 50 µs have passed since the fence. An error of the key
sideband in the broadcast sets KEYERR; the broadcast still counts. DESIGN CHOICE, log entry 121. -/
def execCtxDestroyDrainEnd (ctx : BitVec 12) (keyErr : Bool) (s : State) : Out :=
  .next (match s.removalOf ctx with
    | none => s
    | some r =>
      if r.advanced || !s.fpRuns 4 || (!(s.ctxTx ctx).isEmpty && decide (s.now < r.since + 50000)) then s
      else
        let s := s.advanceGen ctx
        let s := if keyErr then s.raise .sec 0 3 0 0 else s
        { s with sec := { s.sec with removals := s.sec.removals.map (fun (x : Removal) => if x.ctx = ctx then { x with advanced := true } else x) } })

/-- CTX_DESTROY_RELEASE (R483, R484): every scrub write has landed. -/
def execCtxDestroyRelease (ctx : BitVec 12) (s : State) : Out :=
  .next (match s.removalOf ctx with
    | none => s
    | some r =>
      if !r.advanced || !s.fpRuns 4 then s
      else
        let x := s.sec.ctxs.get? ctx
        let n := (x.map (·.discards)).getD 0
        let s := match x with
          | some y => if y.slot.val = 0 then s
            else { s.setSlot y.slot none with sec := { (s.setSlot y.slot none).sec with memKey := s.sec.memKey.erase y.slot } }
          | none => s
        let s := { s with sec := { s.sec with ctxs := s.sec.ctxs.erase ctx, regions := s.sec.regions.filter (fun y => y.ctx != ctx),
                                              dirty := s.sec.dirty.erase ctx, wpkgs := s.sec.wpkgs.filter (fun w => w.ctx != ctx),
                                              removals := s.sec.removals.filter (fun y => y.ctx != ctx) },
                          sched := { s.sched with acct := s.sched.acct.erase ctx } }
        s.complete r.pair stOK 0 n 0)

/-! ### Regions (R468, R482) -/

/-- MEM_MAP (R468, R482, R492). -/
def execMemMap (p : Fin 64) (s : State) : Out :=
  .next (s.command p 0x42 [] [(8, 11, 0), (8, 18, 16), (0x10, 63, 0), (0x18, 63, 0)] true (fun e =>
    let ctx := eCtx e
    let d : Fin 8 := Fin.ofNat 8 (eBits e 8 18 16)
    let b := eAddr e 0x10
    let n := eAddr e 0x18
    if b % unit2M ≠ 0 ∨ n % unit2M ≠ 0 ∨ n = 0 ∨ s.dramBytes d < b + n then s.complete p stBADARG 0 0 0
    else s.withSecCtx p ctx (fun s =>
      let sl := s.sliceOfCtx ctx
      let u := b / unit2M
      let k := n / unit2M
      let limit := s.sliceLimit sl (s.dramUnits d) (fun x => x.dram.get d 0)
      if limit < s.unitsOf sl d + k then s.refuse p 2
      else if 256 ≤ (s.allRegions.filter (fun r => r.die == d)).length then s.refuse p 3
      else if (d.val = 6 ∧ u < 256) ∨ s.allRegions.any (fun r => r.die == d && decide (r.base < u + k) && decide (u < r.base + r.size)) then s.refuse p 4
      else ({ s with sec := { s.sec with regions := s.sec.regions ++ [({ die := d, base := u, size := k, ctx := ctx, world := s.ctxWorld ctx } : Region)] } }).ok p)))

/-! ### Weight packages and group keys (R474 to R476) -/

/-- Every 2 MiB unit of a range lies in a region of a context. -/
def State.inRegions (s : State) (ctx : BitVec 12) (a n : Nat) : Bool :=
  addrDie a == addrDie (a + n - 1) &&
    (List.range ((a + n - 1) / unit2M - a / unit2M + 1)).all (fun i =>
      match s.target ((a / unit2M + i) * unit2M), s.regionAt ((a / unit2M + i) * unit2M) with
      | .dram _, some r => r.ctx == ctx
      | _, _ => false)

/-- The plaintext goes into its destination, line by line; whether every write landed. -/
def State.placePlain (s : State) (dest : Nat) (bs : List Byte) (n : Nat) : State × Bool :=
  (List.range n).foldl (fun (r : State × Bool) i =>
    let (s, ok) := r.1.fwWrite true (dest + 64 * i) ((bs.drop (64 * i)).take 64)
    (s, r.2 && ok)) (s, true)

/-- PK of a package under its group key (R474): none when KTAG fails. -/
def unwrapPk (gk h : List Byte) : Option (List Byte) := gcmOpen gk (bBytes h 0x30 12) (h.take 0x30) (bBytes h 0x3C 32) (bBytes h 0x5C 16)

/-- WPKG_LOAD (R474, R476, R479, R492): KTAG, then the payload with its tag, then FORMULA; on any failure the destination is zeroed. -/
def execWpkgLoad (p : Fin 64) (s : State) : Out :=
  .next (s.command p 0x43 [4] [(8, 11, 0), (0x10, 47, 0), (0x18, 47, 0)] true (fun e =>
    let ctx := eCtx e
    let dest := eAddr e 0x18
    match s.fwRead true (eAddr e 0x10) 128 with
    | (s, none) => s.complete p stFAULT 0 0 0
    | (s, some h) =>
      let n := bWord h 0xC
      let group : Word := BitVec.ofNat 32 (bWord h 8)
      if bWord h 0 ≠ 0x57504B31 ∨ bWord h 4 ≠ 0x00800001 ∨ n = 0 ∨ !bZero h [(0x78, 31, 0), (0x7C, 31, 0)] then s.complete p stBADARG 0 0 0
      else s.withSecCtx p ctx (fun s => match s.sec.groups.get? group with
        | none => s.refuse p 7
        | some gk =>
          if !s.inRegions ctx dest (n * 64) then s.refuse p 10
          else match unwrapPk gk h with
            | none => (s.zero dest (n * 64)).refuse p 8
            | some pk => match s.fwRead true (eAddr e 0x10 + 128) (n * 64 + 16) with
              | (s, none) => (s.zero dest (n * 64)).complete p stFAULT 0 0 0
              | (s, some bs) => match gcmOpen pk (bBytes h 0x6C 12) h (bs.take (n * 64)) (bs.drop (n * 64)) with
                | none => (s.zero dest (n * 64)).refuse p 8
                | some plain =>
                  if bBytes h 0x10 32 ≠ sha256 plain then (s.zero dest (n * 64)).refuse p 9
                  else
                    let (s, ok) := s.placePlain dest plain n
                    if !ok then (s.zero dest (n * 64)).complete p stFAULT 0 0 0
                    else
                    let w : WPkg := { ctx := ctx, dest := dest, formula := bBytes h 0x10 32, digest := sha256 (h ++ bs), group := group }
                    ({ s with sec := { s.sec with wpkgs := s.sec.wpkgs.filter (fun (y : WPkg) => y.dest != dest) ++ [w] } }).ok p)))

/-- Operand fields of GROUP_KEY. -/
def groupFields : List (Nat × Nat × Nat) := [(8, 0, 0), (0xC, 31, 0), (0x10, 47, 0)]

/-- GROUP_KEY_INSTALL (R474, R475, R492): `gk` is the key that WRAPPED gives under DTK, none when it does not unwrap or the signature does not
verify against the anchor that AUTH names (log entry 92). A 17th group is refused with FULL. -/
def execGroupKeyInstall (p : Fin 64) (gk : Option (List Byte)) (s : State) : Out :=
  .next (s.command p 0x44 [4] groupFields true (fun e =>
    if eBits e 8 0 0 = 1 then s
    else match s.fwRead true (eAddr e 0x10) 0x320 with
      | (s, none) => s.complete p stFAULT 0 0 0
      | (s, some b) =>
        let g : Word := BitVec.ofNat 32 (bWord b 8)
        if bWord b 0 ≠ 0x474B4231 ∨ bWord b 4 ≠ 0x03200001 ∨ g = 0 ∨ !bZero b [(0xC, 31, 2)] ∨ leNat (bBytes b 0x10 16) ≠ leNat s.fixed.devid then s.refuse p 7
        else match gk with
          | none => s.refuse p 7
          | some k =>
            if (s.sec.groups.get? g).isNone ∧ 16 ≤ s.sec.groups.length then s.refuse p 3
            else ({ s with sec := { s.sec with groups := s.sec.groups.set g k } }).ok p))

/-- GROUP_KEY_REMOVE (R492). -/
def execGroupKeyRemove (p : Fin 64) (s : State) : Out :=
  .next (s.command p 0x44 [4] groupFields true (fun e =>
    if eBits e 8 0 0 = 0 then s
    else if (s.sec.groups.get? (eWord e 0xC)).isNone then s.complete p stNOTFOUND 0 0 0
    else ({ s with sec := { s.sec with groups := s.sec.groups.erase (eWord e 0xC) } }).ok p))

/-! ### Attestation (R478) -/

/-- The first `n` bytes of a list, filled up with zeros. -/
def padTo (n : Nat) (bs : List Byte) : List Byte := bs.take n ++ List.replicate (n - bs.length) 0

def partRecord (pid : Fin 32) (x : Part) : List Byte :=
  leBytes 4 (x.wheel.val * 2 ^ 29 + x.ctx.toNat * 2 ^ 17 + pid.val) ++ leBytes 4 x.cores.length ++ padTo 32 x.formula ++ padTo 32 x.cert ++
    padTo 32 x.wpkg ++ leBytes 4 x.group.toNat ++ leBytes 4 0

def monRecord (m : Fin 16) (x : Monitor) : List Byte :=
  leBytes 4 (2 ^ 31 + x.wheel.val * 2 ^ 29 + m.val) ++ leBytes 4 0 ++ padTo 32 x.formula ++ padTo 32 x.cert ++ leBytes 40 0

/-- The floor-plan descriptor as last published; zeros when none is valid. -/
def State.publishedPlan (s : State) : List Byte :=
  if s.load32 0xD00001FFF000 = 0x46504431 then s.load 0xD00001FFF000 0x214 else leBytes 0x214 0

/-- Digests of the nine images; FP4's is that of its last measurement. -/
def State.imageDigests (s : State) : List Byte :=
  let d := padTo 288 s.fixed.fwDig
  if s.reg .sec 0 Reg.SEC_FP4RST = 0 then d
  else d.take 160 ++ (List.range 8).flatMap (fun i => leBytes 4 (s.reg .sec 0 (Reg.SEC_FP4MEASi i)).toNat) ++ d.drop 192

/-- A report over a nonce: package scope, or one context's. `sig` is the signature by DIK. -/
def State.attest (s : State) (ctx : Option (BitVec 12)) (nonce sig : List Byte) : List Byte :=
  let recs := match ctx with
    | none => s.sched.parts.map (fun (e : Fin 32 × Part) => partRecord e.1 e.2) ++ s.chk.mons.map (fun (e : Fin 16 × Monitor) => monRecord e.1 e.2)
    | some c => (s.sched.parts.filter (fun (e : Fin 32 × Part) => e.2.ctx == c)).map (fun (e : Fin 32 × Part) => partRecord e.1 e.2)
  let n := recs.length
  leBytes 4 0x41545231 ++ leBytes 4 ((0x3B0 + n * 0x70 + 0x180) * 65536 + 1) ++ padTo 16 s.fixed.devid ++ leBytes 8 s.now ++ padTo 32 nonce ++
    leBytes 4 (s.pkg * 2 ^ 28 + b2n ctx.isSome * 2 ^ 27 + (ctx.getD 0).toNat * 2 ^ 12 + n) ++ leBytes 4 s.fixed.fwVer.toNat ++
    leBytes 4 (s.reg .sec 0 Reg.SEC_FP4RST).toNat ++ leBytes 4 0 ++ padTo 32 s.fixed.manifest ++ s.imageDigests ++ s.publishedPlan ++
    leBytes 12 0 ++ recs.flatten ++ padTo 384 sig

/-- ATTEST (R478, R492, R642). -/
def execAttest (p : Fin 64) (sig : List Byte) (s : State) : Out :=
  .next (s.command p 0x45 [4] [(8, 0, 0), (8, 23, 12), (0x10, 47, 0), (0x18, 47, 0)] true (fun e =>
    let ctx : BitVec 12 := BitVec.ofNat 12 (eBits e 8 23 12)
    let one := eBits e 8 0 0 == 1
    if eAddr e 0x18 % 64 ≠ 0 then s.complete p stBADARG 0 0 0
    else if one ∧ ctx ≠ 0 ∧ !s.ctxLive ctx then s.refuse p 5
    else if one ∧ !s.mayUse p ctx then s.refuse p 6
    else match s.fwRead (p.val == 1) (eAddr e 0x10) 32 with
      | (s, none) => s.complete p stFAULT 0 0 0
      | (s, some nonce) =>
        let r := s.attest (if one then some ctx else none) nonce sig
        s.copyOut p (eAddr e 0x18) r r.length 0))

/-! ### Write logging (R485, R486) -/

/-- DIRTY_START (R485, R492). -/
def execDirtyStart (p : Fin 64) (s : State) : Out :=
  .next (s.command p 0x46 [] [(8, 11, 0)] true (fun e => s.withSecCtx p (eCtx e) (fun s =>
    if (s.sec.dirty.get? (eCtx e)).isSome then s.ok p
    else if 4 ≤ s.sec.dirty.length then s.refuse p 3
    else ({ s with sec := { s.sec with dirty := s.sec.dirty.set (eCtx e) [] } }).ok p)))

/-- The bitmap of one die: a bit for each 64 KiB of its DRAM. -/
def State.bitmap (s : State) (d : Fin 8) (l : List (Fin 8 × Nat)) : List Byte :=
  (List.range (s.dramBytes d / 0x80000)).map (fun i =>
    BitVec.ofNat 8 (((List.range 8).map (fun j => b2n (l.contains (d, 8 * i + j)) * 2 ^ j)).foldl (· + ·) 0))

/-- DIRTY_READ (R486, R492, R642): a context that is not logged has no bitmap. -/
def execDirtyRead (p : Fin 64) (s : State) : Out :=
  .next (s.command p 0x47 [] [(8, 11, 0), (8, 18, 16), (0x10, 47, 0)] true (fun e =>
    let d : Fin 8 := Fin.ofNat 8 (eBits e 8 18 16)
    if eAddr e 0x10 % 64 ≠ 0 then s.complete p stBADARG 0 0 0
    else s.withSecCtx p (eCtx e) (fun s => match s.sec.dirty.get? (eCtx e) with
      | none => s.complete p stOK 0 0 0
      | some l =>
        let bs := s.bitmap d l
        let s := { s with sec := { s.sec with dirty := s.sec.dirty.set (eCtx e) (l.filter (fun g => g.1 != d)) } }
        s.copyOut p (eAddr e 0x10) bs bs.length 0)))

/-- DIRTY_STOP (R492). -/
def execDirtyStop (p : Fin 64) (s : State) : Out :=
  .next (s.command p 0x48 [] [(8, 11, 0)] true (fun e => s.withSecCtx p (eCtx e) (fun s =>
    ({ s with sec := { s.sec with dirty := s.sec.dirty.erase (eCtx e) } }).ok p)))

/-! ### Clock gating (R487, R488) -/

/-- The codes of R387 that R487 gives a gating request. -/
def State.gateCode (s : State) (d : Nat) (gate : Bool) : Nat :=
  if s.pkg ≠ pkPARTIAL ∧ s.pkg ≠ pkREADY then 1
  else if gate && [84, 85, 87, 88, 89, 90].contains d then 2
  else if gate && allDomains.any (fun e => (s.domOn e || s.busy.getLsbD e) && domRequires e == some d) then 4
  else if gate && s.domInUse d then 5
  else 0

/-- DOM_CLOCK (R487, R488, R492): it waits for the requests before it in the queue. A domain that is off gives a refusal whose DETAIL is
not stated. -/
def execDomClock (p : Fin 64) (s : State) : Out :=
  .next (s.command p 0x49 [] [(8, 6, 0), (8, 8, 8)] true (fun e =>
    let d := eBits e 8 6 0
    let gate := eBits e 8 8 8 == 1
    if 116 ≤ d then s.complete p stBADARG 0 0 0
    else if s.trustedOwns d ≠ (p.val == 1) then s.wrongWorld.complete p stDENIED 0 0 0
    else if !s.pwr.queue.isEmpty || s.busy.getLsbD d then s
    else if !s.domOn d then s.refuseFree p
    else if s.gated.getLsbD d = gate then s.ok p
    else
      let c := s.gateCode d gate
      if c ≠ 0 then s.refuse p c
      else
        let bit : BitVec 116 := BitVec.ofNat 116 (2 ^ d)
        ({ s with gated := if gate then s.gated ||| bit else s.gated &&& ~~~bit }).ok p))

end Sys2Proof.Machine
end

