-- ==== Sys2Proof/Machine/Views.lean ====
section
/-! DEFINITION. What every register reads as (R10, R39, R47, R118, R120, R228 to R230, R248, R261, R299, R367, R397, R428 to
R430, R462, R493, R511, R545 to R549, R585 to R587, R611, R612). -/

namespace Sys2Proof.Machine

/-- Bits of a state that hold, as a word. -/
def maskOf (n : Nat) (f : Nat → Bool) : Nat := ((List.range n).map (fun i => b2n (f i) * 2 ^ i)).foldl (· + ·) 0

/-- The index `i` when a register of a row `base + i * stride` with `n` registers lies at an offset. -/
def rowIdx (off base stride n : Nat) : Option Nat :=
  if base ≤ off ∧ (off - base) % stride = 0 ∧ (off - base) / stride < n then some ((off - base) / stride) else none

def ChanSt.code : ChanSt → Nat
  | .idle => 0
  | .waitPhase => 1
  | .active => 2
  | .error => 3
  | .stopped => 4

/-- TC_ registers that are views of the core (R118). A channel that holds its next descriptor is active. The cycles of TC_BANKSTALL and
TC_DMAWAIT are not counted: where some may have been lost since the last read, the count is a free value (R104; log entry 105). -/
def State.tcView (s : State) (c : CoreId) (off : Nat) : Option Nat :=
  let x := s.core c
  if off = Reg.TC_ID then some (c.cl.n * 16 + c.k)
  else if off = Reg.TC_STAT then some (s.tcStat c).toNat
  else if off = Reg.TC_PC then some x.pc.toNat
  else if off = Reg.TC_BANKSTALL then some (if x.ran then (Config.freeWord s.freeCtr).toNat else 0)
  else if off = Reg.TC_DMAWAIT then some (if x.moved then (Config.freeWord s.freeCtr).toNat else 0)
  else match rowIdx off (Reg.TC_DMASTATc 0) 0x10 8, rowIdx off (Reg.TC_DMAREMc 0) 0x10 8 with
    | some i, _ =>
      let h := Chan.get x (Fin.ofNat 8 i)
      some ((if h.st == .idle && h.head.isSome then 2 else h.st.code) * 2 ^ 28 + b2n h.late * 2 ^ 27)
    | _, some i => some (Chan.get x (Fin.ofNat 8 i)).rem
    | _, _ => none

/-- Class counters of a controller or a port (R218): the high half is the one latched by a read of the low half. -/
def State.classView (s : State) (b : Blk) (i off : Nat) : Option Nat :=
  match rowIdx off (Reg.MC_CLBYTESLc 0) 0x10 8, rowIdx off (Reg.MC_CLBYTESHc 0) 0x10 8 with
  | some c, _ => some (s.fab.clBytes.get (b == .dp, i, Fin.ofNat 8 c) 0 % 2 ^ 32)
  | _, some c => some (s.fab.clHigh.get (b == .dp, i, Fin.ofNat 8 c) 0).toNat
  | _, _ => none

/-- FREE of DP_CREDc and the class counters (R229). -/
def State.dpView (s : State) (i off : Nat) : Option Nat :=
  match rowIdx off (Reg.DP_CREDc 0) 4 8 with
  | some c => some (s.freeCred i (Fin.ofNat 8 c) * 2 ^ 16 + s.fld .dp i off 9 0)
  | none => s.classView .dp i off

/-- The posted-write log (R230). -/
def State.fabView (s : State) (d : Fin 8) (off : Nat) : Option Nat :=
  let l := s.fab.pwlog.get d []
  let at_ (base : Nat) (f : PwEntry → Nat) : Option Nat := (rowIdx off base 0x10 16).map (fun i => ((l[i]?).map f).getD 0)
  if off = Reg.FAB_PWLOGCNT then some (s.fld .fab d off 31 31 * 2 ^ 31 + l.length)
  else match at_ (Reg.FAB_PWLOGADDRLi 0) (fun e => e.addr % 2 ^ 32), at_ (Reg.FAB_PWLOGADDRHi 0) (fun e => e.addr / 2 ^ 32 % 2 ^ 16),
      at_ (Reg.FAB_PWLOGINFOi 0) (fun e => e.code * 2 ^ 28 + e.cls.val * 2 ^ 25 + e.target.val * 2 ^ 22 + e.agent.toNat) with
    | some v, _, _ => some v
    | _, some v, _ => some v
    | _, _, some v => some v
    | _, _, _ => none

/-- The time unit (R248). With no edge left, TRGNEXT has no stated value: a free one. -/
def State.tuView (s : State) (off : Nat) : Option Nat :=
  let dm (base : Nat) : Option (Fin 4) := (rowIdx off base 0x40 4).map (Fin.ofNat 4)
  let tr (base : Nat) : Option (Fin 32) := (rowIdx off base 0x20 32).map (Fin.ofNat 32)
  if off = Reg.TU_LTL then some (s.now % 2 ^ 32)
  else if off = Reg.TU_LTH then some (s.now / 2 ^ 32)
  else if let some d := dm (Reg.TU_DdSTAT 0) then some (b2n ((s.dom d).slew != 0) * 2 + b2n (s.bound d))
  else if let some d := dm (Reg.TU_DdTIMEL 0) then some ((s.dom d).time.toNat % 2 ^ 32)
  else if let some d := dm (Reg.TU_DdTIMEH 0) then some ((s.dom d).time.toNat / 2 ^ 32)
  else if let some d := dm (Reg.TU_DdSLEWREM 0) then some (wrapN 32 (Int.tdiv (s.dom d).slew 512))
  else if let some n := tr (Reg.TU_TRGSTATn 0) then
    some (b2n (s.trig n).active * 2 ^ 31 + b2n (s.trig n).late * 2 ^ 30 + (s.trig n).produced.toNat)
  else if let some n := tr (Reg.TU_TRGNEXTn 0) then
    some (if (s.trig n).active then s.edgeTime n (s.trig n).next % 2 ^ 32
      else if (s.trig n) = Trig.reset then 0 else (Config.freeWord s.freeCtr).toNat)
  else if let some n := tr (Reg.TU_CAPn 0) then some (match (s.cap n).fifo with
    | [] => 0
    | e :: _ => e.1.toNat)
  else if let some n := tr (Reg.TU_CAPINFOn 0) then
    some (b2n (s.cap n).ovf * 2 ^ 31 + (match (s.cap n).fifo with
      | [] => 0
      | e :: _ => b2n e.2 * 32) + (s.cap n).fifo.length)
  else none

def WheelSt.code : WheelSt → Nat
  | .stopped => 0
  | .armed => 1
  | .running => 2
  | .freeRun => 3

/-- WHL_STATw (R261). -/
def State.whlView (s : State) (off : Nat) : Option Nat :=
  (rowIdx off (Reg.WHL_STATw 0) 0x40 4).map (fun i =>
    let x := s.wheel (Fin.ofNat 4 i)
    x.st.code * 2 ^ 30 + (if x.st = .freeRun then x.freeFrames else 0) * 2 ^ 16 + x.phase.toNat)

/-- The cadence unit (R299). -/
def State.cadView (s : State) (cl : ClusterId) (off : Nat) : Option Nat :=
  if off = Reg.CAD_STAT then some (maskOf 4 (fun i => (s.wheel (Fin.ofNat 4 i)).going))
  else match rowIdx off (Reg.CAD_PHASEw 0) 8 4, rowIdx off (Reg.CAD_FRAMEw 0) 8 4, rowIdx off (Reg.CAD_COREk 0) 0x20 8 with
    | some i, _, _ =>
      let x := s.wheel (Fin.ofNat 4 i)
      some (x.frame.toNat % 2 ^ 16 * 2 ^ 16 + x.phase.toNat)
    | _, some i, _ => some (s.wheel (Fin.ofNat 4 i)).frame.toNat
    | _, _, some k =>
      let c := cl.core (Fin.ofNat 8 k)
      some ((match s.partOf c with
        | some (p, x) => 2 ^ 31 + p.val * 2 ^ 26 + x.wheel.val * 2 ^ 24
        | none => 0) + s.cadCore c)
    | _, _, _ => none

def FpSt.code : FpSt → Nat
  | .reset => 0
  | .starting => 1
  | .running => 2
  | .held => 3

/-- Processors, kicks and the mailbox (R367). -/
def State.fwView (s : State) (off : Nat) : Option Nat :=
  if off = Reg.FW_MCWDLAST then some (s.fw.mcKick % 2 ^ 32)
  else if off = Reg.FW_MBCNT then some s.mbCount
  else match rowIdx off (Reg.FW_FPSTATk 0) 0x10 8, rowIdx off (Reg.FW_WDLASTk 0) 0x10 8 with
    | some k, _ =>
      let x := s.fp (Fin.ofNat 8 k)
      some (x.st.code * 2 ^ 28 + x.restarts.toNat)
    | _, some k => some ((s.fp (Fin.ofNat 8 k)).lastKick % 2 ^ 32)
    | _, _ => none

/-- Owners, domains and budgets (R397). -/
def State.pwrView (s : State) (off : Nat) : Option Nat :=
  match rowIdx off (Reg.PWR_OWNi 0) 4 4, rowIdx off (Reg.PWR_ONi 0) 4 4, rowIdx off (Reg.PWR_BUDk 0) 4 116 with
  | some i, _, _ => some (maskOf 32 (fun j => decide (32 * i + j < 116) && s.trustedOwns (32 * i + j)))
  | _, some i, _ => some (maskOf 32 (fun j => s.domOn (32 * i + j)))
  | _, _, some k => some (domBudget k)
  | _, _, _ => none

/-- Slices and pairings (R428). -/
def State.chkView (s : State) (off : Nat) : Option Nat :=
  if off = Reg.CHK_STAT then some s.chkStat
  else match rowIdx off (Reg.CHK_SLICEs 0) 4 4, rowIdx off (Reg.CHK_PAIRi 0) 0x10 16 with
    | some i, _ => some (match s.chk.mons.find? (fun e => e.2.slice.val == i) with
      | some e => 2 ^ 31 + e.2.wheel.val
      | none => 0)
    | _, some i => some (s.chkPair (Fin.ofNat 16 i))
    | _, _ => none

def State.fltView (s : State) (off : Nat) : Option Nat :=
  if off = Reg.FLT_PINSTAT then some s.pinStat
  else if off = Reg.FLT_LASTCNT then some s.flt.lasting.length
  else none

/-- Key slots and sessions (R493). -/
def State.secView (s : State) (off : Nat) : Option Nat :=
  if off = Reg.SEC_STAT then some ((256 - s.sec.slots.length) * 2 ^ 16 + s.sec.groups.length)
  else if off = Reg.SEC_MGMTSESS then some (s.sec.mgmt.filter (fun x => x.established)).length
  else (rowIdx off (Reg.SEC_SLOTs 0) 4 256).map (fun n => match s.sec.slots.get? (Fin.ofNat 256 n) with
    | some x => x.typ * 2 ^ 30 + (s.gen x.ctx).toNat * 2 ^ 12 + x.ctx.toNat
    | none => 0)

def PairSt.code : PairSt → Nat
  | .off => 0
  | .stopped => 1
  | .running => 2
  | .stopping => 3
  | .halted => 4

/-- CPU pairs (R511). -/
def State.cpuView (s : State) (off : Nat) : Option Nat :=
  let at_ (base : Nat) : Option (Fin 8) := (rowIdx off base 0x20 8).map (Fin.ofNat 8)
  if off = Reg.CPU_CFG then some s.fixed.trustedWays
  else match at_ (Reg.CPU_PAIRSTATp 0), at_ (Reg.CPU_ENTRYLp 0), at_ (Reg.CPU_ENTRYHp 0) with
    | some p, _, _ => some ((s.cpuPair p).st.code * 2 ^ 28 + b2n (s.trustedPair p) * 2 ^ 8 + b2n (s.lockPair p))
    | _, some p, _ => some (s.cpuEntryOf p % 2 ^ 32)
    | _, _, some p => some (s.cpuEntryOf p / 2 ^ 32)
    | _, _, _ => none

/-- Flow entries and queues (R548). -/
def State.gwView (s : State) (off : Nat) : Option Nat :=
  if off = Reg.GW_STAT then some s.gw.flows.length
  else if off = Reg.GW_STASH then some (s.gw.flows.filter (fun e => decide (stashBase ≤ e.1))).length
  else (rowIdx off (Reg.GW_QSTATi 0) 0x10 32).map (fun i =>
    let x := s.gwq (Fin.ofNat 32 i)
    x.st * 2 ^ 28 + x.next % 2 ^ x.n)

/-- CAM_SSTATs (R585): while no slot is being written, its number has no stated value: a free one. -/
def State.camView (s : State) (r : Fin 16) (off : Nat) : Option Nat :=
  (rowIdx off (Reg.CAM_SSTATs 0) 0x10 4).map (fun i =>
    let free := (Config.freeWord s.freeCtr).toNat % 16
    match s.stream (Fin.ofNat 64 (4 * r.val + i)) with
    | none => free
    | some x => match x.cur with
      | some f => 2 * 2 ^ 28 + x.slot f.frame
      | none => 2 ^ 28 + free)

/-- Graphics queues (R586). -/
def State.gfxView (s : State) (off : Nat) : Option Nat :=
  let q (i : Nat) : GfxQueue := s.media.gfx.get (Fin.ofNat 16 i) GfxQueue.off
  if off = Reg.GFX_STAT then some s.shaderCores
  else match rowIdx off (Reg.GFX_QSTATq 0) 0x10 16, rowIdx off (Reg.GFX_QSEQq 0) 0x10 16 with
    | some i, _ => some ((q i).st * 2 ^ 28 + (q i).next % 2 ^ (q i).n)
    | _, some i => some (q i).seq.toNat
    | _, _ => none

/-- Woade queues and the pair (R611). -/
def State.wdeView (s : State) (off : Nat) : Option Nat :=
  let p := s.wde.pair
  if off = Reg.WDE_PAIRSTAT then
    some (b2n p.enabled * 2 ^ 31 + b2n p.alive * 2 ^ 30 + p.partner.toNat * 2 ^ 16 + p.pkg.toNat * 2 ^ 12 + Nat.min p.count 15)
  else match rowIdx off (Reg.WDE_SQSTATq 0) 0x10 16, rowIdx off (Reg.WDE_RQSTATq 0) 0x10 64 with
    | some i, _ => some (match s.wde.sqs.get? (Fin.ofNat 16 i) with
      | some x => x.st * 2 ^ 28 + x.next % 2 ^ x.n
      | none => 0)
    | _, some i => some (match s.wde.rqs.get? (Fin.ofNat 64 i) with
      | some x => x.st * 2 ^ 28 + x.next % 2 ^ x.n
      | none => 0)
    | _, _ => none

/-- Registers whose value is held elsewhere than in the register file. -/
def State.viewOf (s : State) (k : RegKey) : Option Nat :=
  match k.blk with
  | .die => (s.dieView k.inst k.off).map (fun (v : Word) => v.toNat)
  | .tc => s.tcView (coreOfInst k.inst) k.off
  | .pcmp => if k.off = Reg.PCMP_STAT then
      some ((s.reg .pcmp k.inst k.off).toNat % 8 + b2n (!s.pairUsable (pairOfInst k.inst)) * 8) else none
  | .mc => s.classView .mc k.inst k.off
  | .dp => s.dpView k.inst k.off
  | .fab => s.fabView (Fin.ofNat 8 k.inst) k.off
  | .tu => s.tuView k.off
  | .whl => s.whlView k.off
  | .cad => s.cadView (clusterOfInst k.inst) k.off
  | .fw => s.fwView k.off
  | .pwr => s.pwrView k.off
  | .chk => s.chkView k.off
  | .lks => if k.off = Reg.LKS_STAT then some (s.lksStat (Fin.ofNat 8 k.inst)) else none
  | .flt => s.fltView k.off
  | .sec => s.secView k.off
  | .cpu => s.cpuView k.off
  | .can => if k.off = Reg.CAN_STAT then
      (let c : Fin 24 := Fin.ofNat 24 k.inst
       some ((s.can c).txErr % 256 * 2 ^ 24 + (s.can c).rxErr % 256 * 2 ^ 16 + s.canStatus c)) else none
  | .gw => s.gwView k.off
  | .cam => s.camView (Fin.ofNat 16 k.inst) k.off
  | .gfx => s.gfxView k.off
  | .wde => s.wdeView k.off
  | .wdp => if k.off = Reg.WDP_STATp then
      (let p := s.wport (Fin.ofNat 8 k.inst)
       some ((if s.wdeUp then p.st else 0) * 2 ^ 28 + b2n p.suspended * 2 ^ 8)) else none
  | _ => none

/-- What a register reads as. -/
def State.view (s : State) (k : RegKey) : Word :=
  match s.viewOf k with
  | some v => BitVec.ofNat 32 v
  | none => s.reg k.blk k.inst k.off

/-- An RC register (R10). -/
def isRc (k : RegKey) : Bool := ((regFields k).getD []).any (fun f => f.acc == .rc)

/-- TC_BANKSTALL or TC_DMAWAIT has been read: it counts on from 0 while the core runs, or a channel works (R104). -/
def State.clearStalls (s : State) (c : CoreId) (off : Nat) : State :=
  let x := s.core c
  if off = Reg.TC_BANKSTALL then { s.setCore c { x with ran := x.run } with freeCtr := s.freeCtr + 1 }
  else if off = Reg.TC_DMAWAIT then
    { s.setCore c { x with moved := (List.finRange 8).any (fun ch => (Chan.get x ch).st == .active) } with freeCtr := s.freeCtr + 1 }
  else s

/-- The effect of a read (R10, R218): an RC register clears, and a read of a class counter's low half latches its high half. A job's
base of TC_ARRBUSY moves with the clear (R297). -/
def State.readEffect (s : State) (k : RegKey) : State :=
  if isRc k then
    let v := s.reg k.blk k.inst k.off
    let s := s.setReg k.blk k.inst k.off 0
    if k.blk = .tc ∧ k.off = Reg.TC_ARRBUSY then
      (let c := coreOfInst k.inst
       s.setCore c { s.core c with arrBase := (s.core c).arrBase - v })
    else if k.blk = .tc then s.clearStalls (coreOfInst k.inst) k.off
    else s
  else if k.blk = .mc ∨ k.blk = .dp then
    match rowIdx k.off (Reg.MC_CLBYTESLc 0) 0x10 8 with
    | some c =>
      let key := (k.blk == .dp, k.inst, Fin.ofNat 8 c)
      { s with fab := { s.fab with clHigh := s.fab.clHigh.set key (BitVec.ofNat 32 (s.fab.clBytes.get key 0 / 2 ^ 32)) } }
    | none => s
  else s

/-- A read of a register: the value, and what it changes. -/
def State.readReg (s : State) (k : RegKey) : State × Word := (s.readEffect k, s.view k)

end Sys2Proof.Machine
end

