-- ==== Sys2Proof/Machine/RegWrite.lean ====
section
/-! DEFINITION. What a write of every register does, field by field (R10, R14, R121, R232, R243, R250, R300, R368, R398, R428, R463,
R494, R511, R544, R589, R613, R640). -/

namespace Sys2Proof.Machine

/-! ### Fields -/

def Field.mask (f : Field) : Word := BitVec.ofNat 32 ((2 ^ (f.hi + 1 - f.lo) - 1) <<< f.lo)

/-- The value of a register after a write: W1C bits are always accepted, RW fields only under expert control or from device firmware
(R10, R14). -/
def applyFields (fs : List Field) (old v : Word) (may : Bool) : Word :=
  fs.foldl (fun w f => match f.acc with
    | .rw => if may then (w &&& ~~~f.mask) ||| (v &&& f.mask) else w
    | .w1c => w &&& ~~~(v &&& f.mask)
    | _ => w) old

/-- Some configuration field would change, or a WO field would act (R640). -/
def fieldsAct (fs : List Field) (old v : Word) : Bool :=
  fs.any (fun f => match f.acc with
    | .rw => (old ^^^ v) &&& f.mask != 0
    | .wo => v &&& f.mask != 0
    | _ => false)

def keyFields (k : RegKey) : List Field := (regFields k).getD []

/-- Bits of an ERRSTAT register that software has cleared: the occurrences merged into them go with them (R436). -/
def State.forgetBits (s : State) (k : RegKey) (old : Word) : State :=
  if k.off = (errRegs k.blk).stat then
    let gone (bit : Nat) : Bool := bitOf old bit && !bitOf (s.reg k.blk k.inst k.off) bit
    { s with flt := { s.flt with merged := s.flt.merged.filter (fun e => !(e.1.1 == k.blk && e.1.2.1 == k.inst && gone e.1.2.2)),
                                 recorded := s.flt.recorded.filter (fun e => !(e.1 == k.blk && e.2.1 == k.inst && gone e.2.2)) } }
  else s

/-- A write judged field by field; one ignored write is counted when a refused field would have changed or acted (R640). -/
def State.writeFields (s : State) (k : RegKey) (may : Bool) (v : Word) : State :=
  let fs := keyFields k
  let old := s.reg k.blk k.inst k.off
  let refused : Bool := !may && fieldsAct fs (s.view k) v
  let s := (s.setReg k.blk k.inst k.off (applyFields fs old v may)).forgetBits k old
  if refused then s.ignoredWrite k.blk k.inst else s

/-- The same with a guard of the block's chapter, which device firmware passes. -/
def State.writeGuarded (s : State) (src : Src) (k : RegKey) (guard : Bool) (v : Word) : State :=
  s.writeFields k (s.mayWrite src k.blk k.inst && (src.fw || !guard)) v

/-- The state of an outcome. -/
def runOut (o : Out) (s : State) : State := outState o s

/-! ### Control registers (R14, R121, R640) -/

/-- Offset of the register whose bit 0 is EXPERT_EN. -/
def enOff : Blk → Option Nat
  | .die | .tc => some 4
  | .lks | .blt | .wdp => none
  | _ => some 0

/-- Bits of a control register other than EXPERT_EN: those that change or act with a write. -/
def State.ctrlActs (s : State) (k : RegKey) (v : Word) : Bool :=
  fieldsAct ((keyFields k).filter (fun f => f.lo != 0)) (s.reg k.blk k.inst k.off) v

/-- PERST_N (R543, R549). -/
def State.writePerst (s : State) (assert : Bool) : State :=
  let s := s.setFld .pci 0 Reg.PCI_CTRL 1 1 (b2n assert)
  if assert && s.fld .pci 0 Reg.PCI_STAT 31 28 != 0 then s.pciDown else s

/-- The fields of a control register other than EXPERT_EN take effect: HALT, STEP and START of a core, paired mode, MODE of CAN and LIN
controllers, PERST. -/
def State.ctrlOther (s : State) (k : RegKey) (v : Word) : State :=
  match k.blk with
  | .tc =>
    let c := coreOfInst k.inst
    let halt := bitOf v 1
    let s := if halt = (s.fld .tc c.inst Reg.TC_CTRL 1 1 == 1) then s else if halt then s.haltRequest c else s.haltClear c
    let s := if bitOf v 2 then s.expertStep c else s
    if bitOf v 3 then s.expertStart c else s
  | .pcmp => s.pairEnable (pairOfInst k.inst) (bitOf v 1)
  | .can => (s.canCtrl (Fin.ofNat 24 k.inst) v).1
  | .lin => (s.linCtrl (Fin.ofNat 8 k.inst) v).1
  | .pci => s.writePerst (bitOf v 1)
  | _ => s

/-- A write of EXPERT_EN is accepted (R14, R121): from the world that owns the block's domain, and no 1 for a core that belongs to a
partition. -/
def State.enAccepted (s : State) (src : Src) (k : RegKey) (en : Bool) : Bool :=
  (src.fw || src.world == s.trustedOwns (blkDomain k)) && !(k.blk == .tc && en && (s.partOf (coreOfInst k.inst)).isSome)

/-- A write of a control register, judged by the EXPERT_EN that it finds (R640). -/
def State.writeCtrl (s : State) (src : Src) (k : RegKey) (v : Word) : State :=
  let may := s.mayWrite src k.blk k.inst
  let act := s.ctrlActs k v
  let old := bitOf (s.reg k.blk k.inst k.off) 0
  let en := bitOf v 0
  let ok := s.enAccepted src k en
  let s := if may && act then s.ctrlOther k v else s
  let s := if ok then s.setFld k.blk k.inst k.off 0 0 (b2n en) else s
  if (act && !may) || (!ok && en != old) then s.ignoredWrite k.blk k.inst else s

/-! ### Blocks with rules of their own -/

/-- TC_ registers (R118): TC_CTX is device firmware's alone. -/
def State.writeTc (s : State) (src : Src) (k : RegKey) (v : Word) : State :=
  let c := coreOfInst k.inst
  match rowIdx k.off (Reg.TC_DMACTRLc 0) 0x10 8, rowIdx k.off (Reg.TC_DMASTATc 0) 0x10 8, rowIdx k.off (Reg.TC_SIGs 0) 4 32 with
  | some i, _, _ =>
    let ch : Fin 8 := Fin.ofNat 8 i
    if bitsOf v 1 0 = 0 then s
    else s.guarded src .tc k.inst true (fun s =>
      let s := if bitOf v 1 then s.dmaStop c ch else s
      if bitOf v 0 then s.dmaGo c ch else s)
  | _, some i, _ => if bitOf v 27 then s.modChan c (Fin.ofNat 8 i) (fun h => { h with late := false }) else s
  | _, _, some i => s.guarded src .tc k.inst (s.sig c i != v.setWidth 16) (fun s => (s.setSig c i (v.setWidth 16)).sigCheck c)
  | _, _, _ => s.writeGuarded src k (k.off == Reg.TC_CTX) v

/-- Share entries and credit reservations of MC_ and DP_: an expert write waits for the next window start (R232). -/
def State.writeArb (s : State) (src : Src) (k : RegKey) (v : Word) : State :=
  let share : Bool := (rowIdx k.off (Reg.MC_SHSRCe 0) 0x10 31).isSome || (rowIdx k.off (Reg.MC_SHCFGe 0) 0x10 31).isSome
  let cred : Bool := k.blk == .dp && (rowIdx k.off (Reg.DP_CREDc 0) 4 8).isSome
  if !(share || cred) || src.fw then s.writeGuarded src k false v
  else
    let w := applyFields (keyFields k) (s.reg k.blk k.inst k.off) v true
    let would := fieldsAct (keyFields k) (s.view k) v
    if s.resHeld k.blk k.inst k.off then (if would then s.ignoredWrite k.blk k.inst else s)
    else s.guarded src k.blk k.inst would (fun s => { s with fab := { s.fab with shPend := s.fab.shPend ++ [(k.blk, k.inst, k.off, w)] } })

/-- TU_DdCTRL: ENABLE and the gPTP domain number (R235, R248); a refused disable leaves the domain unchanged. -/
def State.writeDomCtrl (s : State) (d : Fin 4) (v : Word) : State :=
  if !bitOf v 31 && s.domEnabled d && s.bound d then s.refuseDom d
  else (s.setFld .tu 0 (Reg.TU_DdCTRL d) 6 0 (bitsOf v 6 0)).domEnable d (bitOf v 31)

/-- A TU_ register that R250 may guard. -/
def State.tuGuarded (s : State) (src : Src) (guard would : Bool) (f : State → State) : State :=
  if guard && !src.fw then (if would then s.ignoredWrite .tu 0 else s) else s.guarded src .tu 0 would f

/-- TU_ registers (R235, R243, R248, R250). -/
def State.writeTu (s : State) (src : Src) (k : RegKey) (v : Word) : State :=
  let old := s.reg .tu 0 k.off
  let dm (base : Nat) : Option (Fin 4) := (rowIdx k.off base 0x40 4).map (Fin.ofNat 4)
  let tr (base : Nat) : Option (Fin 32) := (rowIdx k.off base 0x20 32).map (Fin.ofNat 32)
  let trAny : Option (Fin 32) := [Reg.TU_TRGSTARTLn 0, Reg.TU_TRGSTARTHn 0, Reg.TU_TRGPERn 0, Reg.TU_TRGWIDn 0, Reg.TU_TRGADVn 0].findSome? tr
  if let some d := dm (Reg.TU_DdCTRL 0) then
    s.tuGuarded src (s.fwDomain d) (fieldsAct (keyFields k) old v) (fun s => s.writeDomCtrl d v)
  else if let some d := dm (Reg.TU_DdRATE 0) then s.tuGuarded src (s.fwDomain d) (old != v) (fun s => s.setReg .tu 0 k.off v)
  else if let some d := dm (Reg.TU_DdSTEP 0) then s.tuGuarded src (s.fwDomain d) true (fun s => s.domStep d v.toInt)
  else if let some d := dm (Reg.TU_DdLOAD 0) then
    (if bitOf v 0 then s.tuGuarded src (s.fwDomain d) true (fun s => s.domLoad d (s.domSet d)) else s)
  else if let some d := dm (Reg.TU_DdSLEW 0) then s.tuGuarded src (s.fwDomain d) true (fun s => s.domSlew d v.toInt)
  else if let some n := tr (Reg.TU_TRGCFGn 0) then s.tuGuarded src (s.fwTrig n) (fieldsAct (keyFields k) old v) (fun s => s.writeTrig n v)
  else if let some n := trAny then
    (if trgEn (s.trgCfg n) && (src.fw || !s.fwTrig n) then s else s.writeGuarded src k (s.fwTrig n) v)
  else if let some n := tr (Reg.TU_TRGSTATn 0) then (if bitOf v 30 then s.setTrig n { s.trig n with late := false } else s)
  else if let some n := tr (Reg.TU_CAPCFGn 0) then s.tuGuarded src false (fieldsAct (keyFields k) old v) (fun s => s.writeCap n v)
  else if let some n := tr (Reg.TU_CAPINFOn 0) then (if bitOf v 31 then s.setCap n { s.cap n with ovf := false } else s)
  else if let some n := tr (Reg.TU_CAPPOPn 0) then (if bitOf v 0 then s.capPop n else s)
  else s.writeGuarded src k false v

/-- WHL_ registers (R260, R300). -/
def State.writeWhl (s : State) (src : Src) (k : RegKey) (v : Word) : State :=
  match rowIdx k.off (Reg.WHL_CFGw 0) 0x40 4, rowIdx k.off (Reg.WHL_PERw 0) 0x40 4 with
  | some i, _ => runOut (execWheelEnable src (Fin.ofNat 4 i) v s) s
  | _, some i => s.writeGuarded src k (s.admitted (Fin.ofNat 4 i)) v
  | _, _ => s.writeGuarded src k false v

/-- CAD_ registers (R299, R300). -/
def State.writeCad (s : State) (src : Src) (k : RegKey) (v : Word) : State :=
  let cl := clusterOfInst k.inst
  if k.off = Reg.CAD_ABORT then runOut (execCadAbort src cl v s) s
  else if k.off = Reg.CAD_IDLEACC then s.writeGuarded src k true v
  else if 0x400 ≤ k.off then s.writeGuarded src k (s.sched.ltab.get? (cl, Fin.ofNat 64 ((k.off - 0x400) / 0x10))).isSome v
  else s.writeGuarded src k false v

/-- FW_ registers (R368, R369). No write of a requester is a processor's own kick. -/
def State.writeFw (s : State) (src : Src) (k : RegKey) (v : Word) : State :=
  match rowIdx k.off (Reg.FW_WDKICKk 0) 0x10 8, rowIdx k.off (Reg.FW_FPCTRLk 0) 0x10 8, rowIdx k.off (Reg.FW_DBp 0) 4 64 with
  | some i, _, _ => runOut (execWatchdogKick src false (Fin.ofNat 8 i) s) s
  | _, some i, _ => runOut (execFpRestart src (Fin.ofNat 8 i) v s) s
  | _, _, some i => runOut (execDoorbell src (Fin.ofNat 64 i) s) s
  | _, _, _ => if k.off = Reg.FW_MCWDKICK then runOut (execMcWatchdogKick src false s) s else s.writeGuarded src k false v

def State.writePwr (s : State) (src : Src) (k : RegKey) (v : Word) : State :=
  if k.off = Reg.PWR_CAP then runOut (execPwrCapWrite src v s) s
  else if k.off = Reg.PWR_REQ then runOut (execPwrReq src v s) s
  else s.writeGuarded src k false v

/-- Bits of a register that are not RSV. -/
def usedBits (k : RegKey) : Word := (keyFields k).foldl (fun m f => m ||| f.mask) 0

/-- An expert write that would change what no expert reaches is counted: pairings and monitors of CHK_, every SEC_ field but control,
status and enables (R428, R494, R640). -/
def State.writeSealed (s : State) (src : Src) (k : RegKey) (sealed_ : Bool) (v : Word) : State :=
  if sealed_ then (if !src.fw && s.mayWrite src k.blk k.inst && (s.view k ^^^ v) &&& usedBits k != 0 then s.ignoredWrite k.blk k.inst else s)
  else s.writeGuarded src k false v

/-- FLT_ registers (R463). -/
def State.writeFlt (s : State) (src : Src) (k : RegKey) (v : Word) : State :=
  if k.off = Reg.FLT_PULSE then runOut (execFltPulse src v s) s
  else if k.off = Reg.FLT_PINHOLD then
    s.writeGuarded src k (s.pkg == pkFAILED && !bitOf v 1 && bitOf (s.reg .flt 0 Reg.FLT_PINHOLD) 1) v
  else s.writeGuarded src k false v

/-- CPU_ registers (R511). -/
def State.writeCpu (s : State) (src : Src) (k : RegKey) (v : Word) : State :=
  match rowIdx k.off (Reg.CPU_PAIRCMDp 0) 0x20 8 with
  | some i =>
    let p : Fin 8 := Fin.ofNat 8 i
    if bitsOf v 1 0 = 0 then s
    else if bitOf v 1 then runOut (execCpuPairStop src p v s) s
    else runOut (execCpuPairStart src p v s) s
  | none =>
    let entry : Bool := (rowIdx k.off (Reg.CPU_ENTRYLp 0) 0x20 8).isSome || (rowIdx k.off (Reg.CPU_ENTRYHp 0) 0x20 8).isSome
    if entry then
      s.guarded src .cpu 0 (fieldsAct (keyFields k) (s.view k) v) (fun s => s.setReg .cpu 0 k.off (applyFields (keyFields k) 0 v true))
    else s.writeGuarded src k false v

/-- CAN_ registers (R515): bit timing and stamp base change only while MODE is 0. -/
def State.writeCan (s : State) (src : Src) (k : RegKey) (v : Word) : State :=
  if Reg.CAN_NBT ≤ k.off ∧ k.off ≤ Reg.CAN_TSCFG then
    let w := applyFields (keyFields k) (s.reg k.blk k.inst k.off) v true
    s.guarded src .can k.inst (fieldsAct (keyFields k) (s.reg k.blk k.inst k.off) v) (fun s => s.canTiming (Fin.ofNat 24 k.inst) k.off w)
  else s.writeGuarded src k false v

/-- SW_ registers (R547): ports 10 to 13 have no SPEED or PREEMPT to write. -/
def State.writeSw (s : State) (src : Src) (k : RegKey) (v : Word) : State :=
  if k.off = Reg.SW_MDIOCMD then runOut (execMdioCommand src v s) s
  else match rowIdx k.off (Reg.SW_PCFGp 0) 0x1000 14 with
    | some p => s.writeGuarded src k false (if p < 10 then v else v &&& 0x8DFFFFFF)
    | none => s.writeGuarded src k false v

def State.writeGw (s : State) (src : Src) (k : RegKey) (v : Word) : State :=
  match rowIdx k.off (Reg.GW_QDBi 0) 0x10 32 with
  | some i => runOut (execGwQueueDoorbell src (Fin.ofNat 32 i) s) s
  | none => s.writeGuarded src k false v

/-- A window that a command installed for a context other than 0 (R544). -/
def State.writePci (s : State) (src : Src) (k : RegKey) (v : Word) : State :=
  s.writeGuarded src k (decide (0x100 ≤ k.off) && bitsOf (s.winAttr (Fin.ofNat 8 ((k.off - 0x100) / 0x10))) 11 0 != 0) v

/-- CAM_CFG holds the configuration of the receiver's streams (R589). -/
def State.writeCam (s : State) (src : Src) (k : RegKey) (v : Word) : State :=
  s.writeGuarded src k (k.off == Reg.CAM_CFG && s.media.streams.any (fun e => (sidRecv e.1).val == k.inst && e.2.ctx != 0)) v

def State.writeGfx (s : State) (src : Src) (k : RegKey) (v : Word) : State :=
  match rowIdx k.off (Reg.GFX_QDBq 0) 0x10 16 with
  | some i => runOut (execGfxDoorbell src (Fin.ofNat 16 i) s) s
  | none => s.writeGuarded src k false v

/-- An output carries a reprojecting plane of a context other than 0 (R589). -/
def State.reprojHeld (s : State) (o : Fin 6) : Bool := s.media.planes.any (fun e => e.1.1 == o && e.2.reproj && e.2.ctx != 0)

/-- DSP_ registers (R577, R587, R589): an enable with options that are not supported is refused with BADCFG. -/
def State.writeDsp (s : State) (src : Src) (k : RegKey) (v : Word) : State :=
  let o : Fin 6 := Fin.ofNat 6 k.inst
  if k.off = Reg.DSP_LATCH then s.writeGuarded src k (s.reprojHeld o) v
  else if k.off = Reg.DSP_CFG then
    let old := s.reg .dsp k.inst k.off
    let held := s.reprojHeld o && !src.fw
    let may := s.mayWrite src .dsp k.inst
    let w := if held then putBits old 31 31 (bitsOf v 31 31) else v
    let s := if (!may && old != v) || (may && held && bitsOf old 30 0 != bitsOf v 30 0) then s.ignoredWrite .dsp k.inst else s
    if !may then s
    else if bitOf w 31 then
      (if dspCfgOk k.inst w (s.reg .dsp k.inst Reg.DSP_HTIM) (s.reg .dsp k.inst Reg.DSP_VTIM) then
        { (s.setReg .dsp k.inst k.off w) with media := { s.media with trained := s.media.trained ||| (1#6 <<< o.val) } }
       else (s.setReg .dsp k.inst k.off (putBits w 31 31 0)).raise .dsp k.inst 2 0 0)
    else { (s.setReg .dsp k.inst k.off w) with media := { s.media with trained := s.media.trained &&& ~~~(1#6 <<< o.val), line := s.media.line.erase o } }
  else s.writeGuarded src k false v

/-- WDE_ registers (R613). -/
def State.writeWde (s : State) (src : Src) (k : RegKey) (v : Word) : State :=
  match rowIdx k.off (Reg.WDE_SQDBq 0) 0x10 16 with
  | some i => runOut (execWoadeSqDoorbell src (Fin.ofNat 16 i) s) s
  | none => s.writeGuarded src k (k.off == Reg.WDE_HBWORD && s.wde.pair.enabled) v

/-- A write that has passed the target checks reaches a register. -/
def State.writeReg (s : State) (src : Src) (k : RegKey) (v : Word) : State :=
  if enOff k.blk = some k.off then s.writeCtrl src k v
  else match k.blk with
    | .tc => s.writeTc src k v
    | .mc | .dp => s.writeArb src k v
    | .fab => if k.off = Reg.FAB_PWLOGPOP then (if bitOf v 0 then s.pwlogPop (Fin.ofNat 8 k.inst) else s) else s.writeGuarded src k false v
    | .tu => s.writeTu src k v
    | .whl => s.writeWhl src k v
    | .cad => s.writeCad src k v
    | .fw => s.writeFw src k v
    | .pwr => s.writePwr src k v
    | .chk => s.writeSealed src k (decide (0x20 ≤ k.off)) v
    | .sec => s.writeSealed src k (k.off != 0x8 && k.off != 0xC && k.off != 0x1C) v
    | .flt => s.writeFlt src k v
    | .cpu => s.writeCpu src k v
    | .can => s.writeCan src k v
    | .sw => s.writeSw src k v
    | .gw => s.writeGw src k v
    | .pci => s.writePci src k v
    | .cam => s.writeCam src k v
    | .gfx => s.writeGfx src k v
    | .dsp => s.writeDsp src k v
    | .wde => s.writeWde src k v
    | _ => s.writeGuarded src k false v

end Sys2Proof.Machine
end

