-- ==== Sys2Proof/Machine/Bus.lean ====
section
/-! DEFINITION. Requests: reads and posted writes from their source to their target, register accesses, the CPU-to-fabric bridge
(R10, R13, R14, R24 to R32, R219 to R225, R466, R467, R508, R509, R540, R640). -/

namespace Sys2Proof.Machine

/-! ### At the target -/

/-- A read that has arrived: it is refused and recorded, or served; the data, or a failure code (R13, R32, R207, R467). -/
def State.readAt (s : State) (src : Src) (a n : Nat) : State × List Byte × Option Nat :=
  match s.refusal src a n false with
  | some r => (s.recordRefusal src a r, [], some r.code)
  | none => match s.target a with
    | .reg k =>
      let (s, v) := s.readReg k
      (s, leBytes 4 v.toNat, none)
    | _ => match s.landRead src a n with
      | (s, some bs) => (s, bs, none)
      | (s, none) => (s, [], some 5)

/-- A write that has arrived: it lands, or fails with a code (R13, R223, R467). -/
def State.writeAt (s : State) (src : Src) (a : Nat) (bs : List Byte) : State × Option Nat :=
  match s.refusal src a bs.length true with
  | some r => (s.recordRefusal src a r, some r.code)
  | none => match s.target a with
    | .reg k => (s.writeReg src k (BitVec.ofNat 32 (leNat bs)), none)
    | _ => s.landWrite src a bs

/-! ### From the source -/

/-- A read leaves its source: inside a die it is answered at once; across dies it takes credits and trackers, crosses the ports, its
outcome is decided at the target and the response follows; none when it waits at its source (R25, R214, R219, R221). `reply` is what a
PCIe endpoint answers. -/
def State.issueRead (s : State) (src : Src) (a n : Nat) (reply : Option (List Byte)) : Option State :=
  if s.isPci a ∧ (s.refusal src a n false).isNone then
    let t := s.pciOutbound src a true n [] reply
    if t.fab.nextId = s.fab.nextId then none else some t
  else if !s.mayServe src a n false then none
  else if addrDie a = src.die then
    let (s, bs, fail) := s.readAt src a n
    some (s.deliver src a bs fail)
  else if !s.trackerFree true src a then none
  else match s.takeCredits src a (flits false n) with
    | none => none
    | some s =>
      let (s, bs, fail) := (s.cross src a n false).readAt src a n
      some (s.addTx true src a n bs fail 8)

/-- An access fault of a hart. -/
def State.accessFault (s : State) (h : Fin 16) (a : Nat) : State := s.setHart h { s.hart h with fault := some a }

/-- A posted write leaves its source: inside a die it lands or its failure is recorded at once; across dies its acknowledgement or its
failure notice follows; none when it waits (R25, R214, R219, R223 to R225). A hart whose cached line is lost takes an access fault (R507). -/
def State.issueWrite (s : State) (src : Src) (a : Nat) (bs : List Byte) (chan : Fin 9) : Option State :=
  if s.isPci a ∧ (s.refusal src a bs.length true).isNone then
    if s.pciUp then
      (let t := s.pciOutbound src a false bs.length bs none
       if t.fab.nextId = s.fab.nextId then none else some t)
    else if s.gw.pciYield then none
    else some (s.pwFail src a 6 (addrDie a))
  else if !s.mayServe src a bs.length true then none
  else if addrDie a = src.die then
    match s.writeAt src a bs with
    | (s, none) => some s
    | (s, some code) => (match src.hart with
      | some h => if s.cacheable a then some (s.accessFault h a) else some (s.pwFail src a code (addrDie a))
      | none => some (s.pwFail src a code (addrDie a)))
  else if !s.trackerFree false src a then none
  else match s.takeCredits src a (flits true bs.length) with
    | none => none
    | some s =>
      let (s, fail) := (s.cross src a bs.length true).writeAt src a bs
      some (s.addTx false src a bs.length bs fail chan)

/-! ### The CPU-to-fabric bridge (R508, R509) -/

/-- The bridge issues a request of a hart only for a context whose bit is set; context 0 always passes. -/
def State.ctxBit (s : State) (ctx : BitVec 12) : Bool :=
  ctx == 0 || (match s.sec.ctxs.get? ctx with
    | some x => !x.blocked
    | none => false)

/-- CTXBLK: the request is not issued and the hart takes an access fault. -/
def State.ctxBlocked (s : State) (h : Fin 16) (a : Nat) : State :=
  (s.raise .cpu 0 6 ((hartPair h).val * 2 ^ 48 + a) 0).accessFault h a

/-- A request passes the bridge, or its source is no hart. -/
def State.bridge (s : State) (src : Src) (a : Nat) (f : State → State) : State :=
  match src.hart with
  | some h => if !s.hartRuns h then s else if s.ctxBit src.ctx then f s else s.ctxBlocked h a
  | none => f s

/-- The attributes of a hart's request with V and VMID (R508). -/
def State.hartSrc (s : State) (h : Fin 16) (v : Bool) (vmid : BitVec 12) : Src :=
  let ctx := if v then vmid else 0
  ⟨6, hartAgent h, s.trustedPair (hartPair h), ctx, s.gen ctx,
   Fin.ofNat 8 (if v then bitsOf (s.hart h).attr 3 0 else bitsOf (s.hart h).attr 7 4), false⟩

/-- An access that a hart may make to another die: 1, 2, 4 or 8 bytes, naturally aligned (R24, R509). -/
def ioOk (a n : Nat) : Bool := (n == 1 || n == 2 || n == 4 || n == 8) && a % n == 0

/-- CPU_IO_LOAD (R24, R508, R509): a split read for which the hart waits; a hart holds at most 16. -/
def execCpuIoLoad (h : Fin 16) (a : Addr) (size : Nat) (v : Bool) (vmid : BitVec 12) (s : State) : Out :=
  let src := s.hartSrc h v vmid
  .next (if !s.hartRuns h ∨ addrDie a.toNat = 6 then s
    else if !ioOk a.toNat size then s.accessFault h a.toNat
    else if !s.ctxBit src.ctx then s.ctxBlocked h a.toNat
    else if 16 ≤ s.hartTx h true then s
    else (s.issueRead src a.toNat size none).getD s)

/-- CPU_IO_STORE (R24, R26, R508, R509): a posted write; a hart holds at most 64. -/
def execCpuIoStore (h : Fin 16) (a : Addr) (data : List Byte) (v : Bool) (vmid : BitVec 12) (s : State) : Out :=
  let src := s.hartSrc h v vmid
  .next (if !s.hartRuns h ∨ addrDie a.toNat = 6 then s
    else if !ioOk a.toNat data.length then s.accessFault h a.toNat
    else if !s.ctxBit src.ctx then s.ctxBlocked h a.toNat
    else if 64 ≤ s.hartTx h false then s
    else (s.issueWrite src a.toNat data 8).getD s)

/-! ### Requests of any source -/

/-- A read of any source that reaches its target, or waits. -/
def State.readReq (s : State) (src : Src) (a n : Nat) (reply : Option (List Byte)) : State :=
  s.bridge src a (fun s => (s.issueRead src a n reply).getD s)

/-- A store of a hart into the memory of its own die whose line fill is refused takes a precise access fault (R509). -/
def State.ownStore (s : State) (src : Src) (a n : Nat) : Bool :=
  src.hart.isSome && addrDie a == 6 && (match s.target a with
    | .dram _ | .vsram _ => true
    | _ => false) && (s.refusal src a n true).isSome

/-- A posted write of any source that reaches its target, or waits. -/
def State.postWrite (s : State) (src : Src) (a : Nat) (bs : List Byte) : State :=
  s.bridge src a (fun s =>
    match src.hart, s.ownStore src a bs.length with
    | some h, true => (match s.refusal src a bs.length true with
      | some r => (s.recordRefusal src a r).accessFault h a
      | none => s)
    | _, _ => (s.issueWrite src a bs 8).getD s)

/-- READ_REQUEST (R13, R25, R466). -/
def execReadRequest (src : Src) (a : Addr) (len : Nat) (reply : Option (List Byte)) (s : State) : Out :=
  .next (s.readReq src a.toNat len reply)

/-- POSTED_WRITE (R13, R25, R223, R466). -/
def execPostedWrite (src : Src) (a : Addr) (data : List Byte) (s : State) : Out := .next (s.postWrite src a.toNat data)

/-- An address of a die's register region, where registers lie (R9, R39). -/
def inRegs (a : Nat) : Bool := decide (0x180000000000 ≤ a % 2 ^ 45)

/-- REGISTER_WRITE (R10, R13, R14): `size` bytes of a word are written at a register address. -/
def execRegisterWrite (src : Src) (a : Addr) (size : Fin 9) (v : BitVec 64) (s : State) : Out :=
  .next (if inRegs a.toNat then s.postWrite src a.toNat (leBytes size.val v.toNat) else s)

/-- The register at an address holds EXPERT_EN. -/
def State.isCtrl (s : State) (a : Nat) : Bool :=
  match s.target a with
  | .reg k => enOff k.blk == some k.off
  | _ => false

/-- EXPERT_EN_WRITE (R14, R121, R640): a write of the control register of a block. -/
def execExpertEnWrite (src : Src) (a : Addr) (v : Word) (s : State) : Out :=
  .next (if s.isCtrl a.toNat then s.postWrite src a.toNat (leBytes 4 v.toNat) else s)

/-- The register at an address is of type RC. -/
def State.isRcAt (s : State) (a : Nat) : Bool :=
  match s.target a with
  | .reg k => isRc k
  | _ => false

/-- READ_CLEAR (R10, R12): the value goes to the requester, and the register is 0. -/
def execReadClear (src : Src) (a : Addr) (s : State) : Out :=
  .next (if s.isRcAt a.toNat then s.readReq src a.toNat 4 none else s)

/-! ### STATUS_READ (R339, R341, R642) -/

/-- A context pair reads TC_, CAD_ and PCMP_ registers of clusters in which partitions of its context hold cores. -/
def State.statusOpen (s : State) (ctx : BitVec 12) (k : RegKey) : Bool :=
  let cl : Option ClusterId := match k.blk with
    | .tc => some (coreOfInst k.inst).cl
    | .cad => some (clusterOfInst k.inst)
    | .pcmp => some (pairOfInst k.inst).cl
    | _ => none
  match cl with
  | some cl => s.sched.parts.any (fun e => e.2.ctx == ctx && e.2.recs.any (fun r => r.cl == cl && r.cores != 0))
  | none => false

/-- Firmware reads `n` registers from an address: their bytes, or none on an error response. -/
def State.statusWords (world : Bool) (plain : Bool) : Nat → State → Nat → State × Option (List Byte)
  | 0, s, _ => (s, some [])
  | n + 1, s, a =>
    let (s, r) : State × Option (List Byte) := match s.refusal (fwSrc world) a 4 false, s.target a with
      | some r, _ => (s.recordRefusal (fwSrc world) a r, none)
      | none, .reg k => if plain then (s.readEffect k, some (leBytes 4 (s.view k).toNat))
        else (s, some (leBytes 4 (if isRc k then 0 else (s.view k).toNat)))
      | none, _ => (s, none)
    match r with
    | none => (s, none)
    | some b => match State.statusWords world plain n s (a + 4) with
      | (s, some t) => (s, some (b ++ t))
      | (s, none) => (s, none)

/-- STATUS_READ (R339): through a context pair RC registers read 0 and stay (R341). -/
def execStatusRead (p : Fin 64) (s : State) : Out :=
  .next (s.command p 0x20 [] [(8, 2, 0), (0x10, 47, 0), (0x18, 9, 0), (0x20, 47, 0)] false (fun e =>
    let off := eAddr e 0x10
    let n := eBits e 0x18 9 0
    let buf := eAddr e 0x20
    let a := dieBase (eBits e 8 2 0) + off
    let world : Bool := p.val == 1
    let open_ : Bool := (List.range n).all (fun i => match s.target (a + 4 * i) with
      | .reg k => s.statusOpen (s.ring p).ctx k
      | _ => false)
    if n = 0 ∨ off % 4 ≠ 0 ∨ off < 0x180000000000 ∨ 2 ^ 45 < off + 4 * n ∨ buf % 64 ≠ 0 then s.complete p stBADARG 0 0 0
    else if !isControl p && !open_ then s.complete p stDENIED 0 0 0
    else match State.statusWords world (isControl p) n s a with
      | (s, none) => s.complete p stFAULT 0 0 0
      | (s, some bs) => s.copyBuf p buf bs 0 0))

end Sys2Proof.Machine
end

