-- ==== Sys2Proof/Machine/Dma.lean ====
section
/-! DEFINITION. DMA channels at work: descriptors, beats, completion, and the outcomes of transactions (R108 to R113, R144, R219,
R222 to R225, R452, R602). -/

namespace Sys2Proof.Machine

/-! ### Descriptors (R109, R110, R602) -/

def dWord (d : BitVec 512) (off : Nat) : Word := d.extractLsb' (off * 8) 32
def dBits (d : BitVec 512) (off hi lo : Nat) : Nat := bitsOf (dWord d off) hi lo
def dType (d : BitVec 512) : Nat := dBits d 0 31 28
def dCls (d : BitVec 512) : Fin 8 := Fin.ofNat 8 (dBits d 0 27 25)
def dChain (d : BitVec 512) : Bool := bitOf (dWord d 0) 24
def dSignal (d : BitVec 512) : Bool := bitOf (dWord d 0) 23
def dPhased (d : BitVec 512) : Bool := bitOf (dWord d 0) 22
def dBarrier (d : BitVec 512) : Bool := bitOf (dWord d 0) 21
def dSrc (d : BitVec 512) : Nat := (d.extractLsb' 32 48).toNat
def dDst (d : BitVec 512) : Nat := (d.extractLsb' 96 48).toNat
def dX (d : BitVec 512) : Nat := dBits d 0x14 23 0
def dY (d : BitVec 512) : Nat := dBits d 0x18 15 0
def dZ (d : BitVec 512) : Nat := dBits d 0x18 31 16
def dWheel (d : BitVec 512) : Fin 4 := Fin.ofNat 4 (dBits d 0x34 17 16)
def dPhase (d : BitVec 512) : Nat := dBits d 0x34 15 0
def dNext (d : BitVec 512) : BitVec 20 := BitVec.ofNat 20 (dBits d 0x30 19 6 * 64)

/-- RSV fields are 0; for a message the destination's RSV fields too (R602). -/
def dClean (d : BitVec 512) : Bool :=
  dBits d 0 15 0 == 0 && dBits d 8 31 16 == 0 && dBits d 0x10 31 16 == 0 && dBits d 0x14 31 24 == 0 && dBits d 0x30 31 20 == 0 &&
    dBits d 0x30 5 0 == 0 && dBits d 0x34 31 18 == 0 && dWord d 0x38 == 0 && dWord d 0x3C == 0 &&
    (dType d != 2 || (dBits d 0xC 15 14 == 0 && dBits d 0xC 31 30 == 0 && dWord d 0x10 == 0))

/-- An address and the strides of a side that the descriptor uses are multiples of 4. -/
def sideOk (d : BitVec 512) (addr sy sz : Nat) : Bool :=
  addr % 4 == 0 && (decide (dY d ≤ 1) || dBits d sy 1 0 == 0) && (decide (dZ d ≤ 1) || dBits d sz 1 0 == 0)

/-- A descriptor without an error (R110, R602). XLEN = 0 is one: it lies outside the range of R109 (DEDUCED, log entry 104). -/
def descOk (d : BitVec 512) : Bool :=
  decide (dType d < 3) && dX d % 4 == 0 && dX d != 0 && dY d != 0 && dZ d != 0 && dClean d &&
    (dType d == 1 || sideOk d (dSrc d) 0x1C 0x20) && (dType d == 2 || sideOk d (dDst d) 0x24 0x28) &&
    (dType d != 2 || (decide (dX d ≤ 4096) && dBits d 0xC 29 22 != 255))

/-- Requests of a row: one for each 64 bytes, a message in one (DEDUCED, log entry 37). -/
def rowBeats (d : BitVec 512) : Nat := if dType d = 2 then 1 else (dX d + 63) / 64
def beats (d : BitVec 512) : Nat := dZ d * dY d * rowBeats d
def totalBytes (d : BitVec 512) : Nat := dZ d * dY d * dX d

/-- Bytes of a request of a row. -/
def beatLen (d : BitVec 512) (k : Nat) : Nat := if dType d = 2 then dX d else Nat.min 64 (dX d - k % rowBeats d * 64)

/-- Address of a request on one side: base + z × plane stride + y × row stride + 64 bytes for each request before it in the row. -/
def beatAddr (d : BitVec 512) (base sy sz k : Nat) : Nat :=
  let row := k / rowBeats d
  wrapN 48 ((base : Int) + (row / dY d : Nat) * (dWord d sz).toInt + (row % dY d : Nat) * (dWord d sy).toInt + (k % rowBeats d * 64 : Nat))

def beatSrc (d : BitVec 512) (k : Nat) : Nat := beatAddr d (dSrc d) 0x1C 0x20 k
def beatDst (d : BitVec 512) (k : Nat) : Nat := beatAddr d (dDst d) 0x24 0x28 k

/-- The fill word, repeated. -/
def fillBytes (d : BitVec 512) (n : Nat) : List Byte := (List.range n).map (fun i => BitVec.ofNat 8 ((dWord d 0x2C).toNat / 2 ^ (i % 4 * 8)))

/-! ### Beats -/

/-- Reads and posted writes of a channel without an outcome. -/
def State.chanTx (s : State) (c : CoreId) (ch : Fin 8) (isRead : Bool) : List Tx :=
  s.fab.tx.filter (fun t => t.isRead == isRead && t.src.core == some c && t.chan.val == ch.val)

def chan9 (ch : Fin 8) : Fin 9 := ⟨ch.val, by omega⟩

/-- A message goes to the message engine on the Vehicle die as a posted write; the address that a failure records is not stated: a
free value (R602). None while it waits. -/
def State.sendMessage (s : State) (c : CoreId) (ch : Fin 8) (d : BitVec 512) (data : List Byte) : Option State :=
  let src := s.dmaSrc c (dCls d)
  let (w, s) := s.freeWord
  let a := dieBase 6 + w.toNat
  if !s.trackerFree false src a || !s.mayCross src a data.length true then none
  else match s.takeCredits src a (flits true data.length) with
    | none => none
    | some s =>
      match (s.cross src a data.length true).wdeAccept src (BitVec.ofNat 14 (dBits d 0xC 13 0)) (Fin.ofNat 64 (dBits d 0xC 21 16)) (Fin.ofNat 256 (dBits d 0xC 29 22)) data with
      | none => none
      | some (s, fail) => some (s.addTx false src a data.length data fail (chan9 ch))

/-- The bytes of a range that lie in one 64-byte line each. -/
def linesOf (a n : Nat) : List (Nat × Nat) :=
  (List.range ((a + n + 63) / 64 - a / 64)).map (fun i =>
    let lo := Nat.max a ((a / 64 + i) * 64)
    (lo, Nat.min (a + n) ((a / 64 + i + 1) * 64) - lo))

/-- The write of a beat: to its destination, or as a message. Bytes that come into a local or cluster store are defined for the
instructions there only after the channel's completion (R20, R105). -/
def State.beatWrite (s : State) (c : CoreId) (ch : Fin 8) (d : BitVec 512) (a : Nat) (data : List Byte) : Option State :=
  if dType d = 2 then s.sendMessage c ch d data
  else
    let olds : List Landing := match s.target a with
      | .ls _ _ | .cs _ _ => (linesOf a data.length).map (fun x => ⟨c, ch, x.1, s.load x.1 x.2⟩)
      | _ => []
    let landing := s.fab.landing
    (({ s with fab := { s.fab with landing := [] } }).issueWrite (s.dmaSrc c (dCls d)) a data (chan9 ch)).map (fun (t : State) =>
      { t with fab := { t.fab with landing := landing ++ olds } })

/-- A beat has been moved: bytes that remain, and the lease. -/
def State.beatDone (s : State) (c : CoreId) (ch : Fin 8) (n : Nat) : State :=
  (s.modChan c ch (fun h => { h with rem := h.rem - n })).chanRenew c ch

/-- The data of a read are written, or wait at their source. -/
def State.beatData (s : State) (c : CoreId) (ch : Fin 8) (d : BitVec 512) (a : Nat) (data : List Byte) : State :=
  match s.beatWrite c ch d a data with
  | some s => s.beatDone c ch data.length
  | none => s.modChan c ch (fun h => { h with out := h.out ++ [(a, data)] })

/-- The read of beat `k`: inside the die its data are written at once; across dies they follow with the response. None while it waits,
and for a PCIe source without the endpoint's answer. -/
def State.beatRead (s : State) (c : CoreId) (ch : Fin 8) (d : BitVec 512) (k : Nat) (ep : Option (List (Option (List Byte)))) : Option State :=
  let src := s.dmaSrc c (dCls d)
  let a := beatSrc d k
  let n := beatLen d k
  let mark (s : State) : State := { s with fab := { s.fab with tx := s.fab.tx.map (fun (t : Tx) =>
    if t.id + 1 = s.fab.nextId then { t with chan := chan9 ch, dst := beatDst d k } else t) } }
  if s.isPci a ∧ (s.refusal src a n false).isNone then
    match ep with
    | none => none
    | some l => (s.issueRead src a n ((l[k]?).getD none)).map mark
  else if addrDie a = src.die then
    match s.readAt src a n with
    | (s, bs, none) => some (s.beatData c ch d (beatDst d k) bs)
    | (s, _, some _) => some ((s.chanError c ch).unitExc c 7 a)
  else (s.issueRead src a n none).map mark

/-- One beat of an active channel: a write that waits, else the next read or fill. None when nothing can move. -/
def State.beat (s : State) (c : CoreId) (ch : Fin 8) (ep : Option (List (Option (List Byte)))) : Option State :=
  let h := s.chan c ch
  if h.st ≠ .active ∨ h.stopping.isSome then none
  else match h.out with
    | (a, data) :: t =>
      ((s.modChan c ch (fun h => { h with out := t })).beatWrite c ch h.desc a data).map (fun (s : State) => s.beatDone c ch data.length)
    | [] =>
      if beats h.desc ≤ h.beat then none
      else
        let s := s.modChan c ch (fun h => { h with beat := h.beat + 1 })
        if dType h.desc = 1 then
          (s.beatWrite c ch h.desc (beatDst h.desc h.beat) (fillBytes h.desc (beatLen h.desc h.beat))).map
            (fun (s : State) => s.beatDone c ch (beatLen h.desc h.beat))
        else s.beatRead c ch h.desc h.beat ep

/-- Beats of a channel until it has none left or waits at its source. -/
def State.pump (c : CoreId) (ch : Fin 8) (ep : Option (List (Option (List Byte)))) : Nat → State → State
  | 0, s => s
  | n + 1, s => match s.beat c ch ep with
    | some t => State.pump c ch ep n t
    | none => s

/-- Beats that a channel may still make. -/
def State.chanLeft (s : State) (c : CoreId) (ch : Fin 8) : Nat :=
  let h := s.chan c ch
  2 * (beats h.desc - h.beat) + h.out.length

def State.pumpChan (s : State) (c : CoreId) (ch : Fin 8) (ep : Option (List (Option (List Byte)))) : State :=
  State.pump c ch ep (s.chanLeft c ch) s

/-- Every channel goes on after a credit or a tracker has come back. -/
def State.pumpAll (s : State) : State :=
  s.cores.foldl (fun (s : State) e => (List.finRange 8).foldl (fun (s : State) (ch : Fin 8) =>
    if s.isChecker e.1 then s else s.pumpChan e.1 ch none) s) s

/-! ### Launch (R110, R111) -/

/-- A channel that may launch: its core is not halted (R122). -/
def State.dmaMay (s : State) (c : CoreId) : Bool := s.dmaReady c && !(s.core c).halted && !(s.core c).haltPending

/-- A descriptor error: state 3, and the exception DMADESC with the descriptor's address (R110, R130, R131). When the descriptor could not
be read for a double-bit error the core does not stop (R110). -/
def State.descError (s : State) (c : CoreId) (ch : Fin 8) (line : BitVec 20) (unread : Bool) : State :=
  if unread then (s.chanError c ch).raise .tc c.inst 6 (lsBase c + line.toNat) 0
  else (s.chanError c ch).unitExc c 6 (lsBase c + line.toNat)

/-- The descriptor launches: its beats begin. -/
def State.launchDesc (s : State) (c : CoreId) (ch : Fin 8) (d : BitVec 512) (ep : List (Option (List Byte))) : State :=
  let s := s.putCore c { s.core c with moved := true }
  ((s.modChan c ch (fun h => { h with st := .active, desc := d, beat := 0, rem := totalBytes d, out := [] })).chanRenew c ch).pumpChan c ch (some ep)

/-- DMA_DESCRIPTOR_LAUNCH (R109 to R111, R602): the head descriptor is read and checked; it waits for the outcomes that BARRIER names, for
its phase, or launches, late when its phase has passed. `ep` is what a PCIe endpoint answers to the read of each beat. -/
def execDmaDescriptorLaunch (c : CoreId) (ch : Fin 8) (ep : List (Option (List Byte))) (s : State) : Out :=
  let h := s.chan c ch
  .next (match h.head with
    | none => s
    | some line =>
      if !s.dmaMay c || h.st != .idle then s
      else
        let (s, bs, bad) := s.read (lsBase c + line.toNat) 64
        let d := BitVec.ofNat 512 (leNat bs)
        if bad.isSome || !descOk d then s.descError c ch line bad.isSome
        else if dBarrier d && s.chanTx c ch false != [] then s.chanRenew c ch
        else if !dPhased d then s.launchDesc c ch d ep
        else if (s.wheel (dWheel d)).passed (h.headFrame.get (dWheel d) 0) (dPhase d) then
          ((s.modChan c ch (fun h => { h with late := true })).lateEvent c).launchDesc c ch d ep
        else (s.modChan c ch (fun h => { h with st := .waitPhase, desc := d, rem := totalBytes d })).chanRenew c ch)

/-- DMA_PHASED_LAUNCH (R22, R111): the tick that reaches LPHASE. A descriptor that HALT holds back past that tick launches, not late, when
the core runs again (DESIGN CHOICE, log entry 103). -/
def execDmaPhasedLaunch (c : CoreId) (ch : Fin 8) (ep : List (Option (List Byte))) (s : State) : Out :=
  let h := s.chan c ch
  .next (if s.dmaMay c && h.st == .waitPhase &&
      (s.wheel (dWheel h.desc)).passed (h.headFrame.get (dWheel h.desc) 0) (dPhase h.desc) then
    s.launchDesc c ch h.desc ep else s)

/-! ### Completion and stop -/

/-- The completion of a channel's descriptor is known to the core: its posted writes count for PWB and its bytes are defined (R20, R112,
R152). -/
def State.chanSignalled (s : State) (c : CoreId) (ch : Fin 8) : State :=
  { s with fab := { s.fab with
      tx := s.fab.tx.map (fun (t : Tx) => if t.channel = some (c, ch) then { t with signalled := true } else t),
      landing := s.fab.landing.filter (fun l => !(l.core == c && l.chan == ch)) } }

/-- The descriptor is done: it signals, and the next one of the chain becomes the head (R109, R112, R144). -/
def State.endDesc (s : State) (c : CoreId) (ch : Fin 8) : State :=
  let d := (s.chan c ch).desc
  let s := s.chanSignalled c ch
  let s := if dChain d then
      s.modChan c ch (fun h => { h with st := .idle, head := some (dNext d), rem := 0, headFrame := s.headFrames })
    else (s.modChan c ch (fun h => { h with st := .idle, head := none, rem := 0 })).chanRelease c ch
  if dSignal d then s.sigAdd c (dBits d 0 20 16) 1 else s

/-- DMA_COMPLETION (R20, R112, R225): once every read has returned and every write has landed or left. Beats that were waiting go first. -/
def execDmaCompletion (c : CoreId) (ch : Fin 8) (ep : List (Option (List Byte))) (s : State) : Out :=
  .next (if !s.dmaReady c then s
    else
      let s := s.pumpChan c ch (some ep)
      let h := s.chan c ch
      if h.st == .active && h.stopping.isNone && h.out.isEmpty && decide (beats h.desc ≤ h.beat) && (s.chanTx c ch true).isEmpty then
        s.endDesc c ch
      else s)

/-- DMA_STOP_SETTLE (R110): state 4, or idle for a job stop, once every read has returned or ended. -/
def execDmaStopSettle (c : CoreId) (ch : Fin 8) (s : State) : Out :=
  let h := s.chan c ch
  .next (match h.stopping with
    | some toStopped => if (s.chanTx c ch true).isEmpty && !s.isChecker c then
        (s.modChan c ch (fun h => { h with st := if toStopped then .stopped else .idle, head := none, stopping := none, out := [] })).chanRelease c ch
      else s
    | none => s)

/-! ### Outcomes of transactions -/

/-- The data of a channel's read: a write beat, unless the channel has stopped (R110). -/
def State.chanData (s : State) (t : Tx) : State :=
  match t.channel with
  | some (c, ch) =>
    let x := s.chan c ch
    if x.st ≠ .active ∨ x.stopping.isSome then s else s.beatData c ch x.desc t.dst t.data
  | none => s

/-- READ_RESPONSE (R25, R110, R113, R222): the response of a split read reaches its requester. A response after the timeout finds no
tracker and is discarded. A PCIe read whose endpoint gives no completion has no response (R540). -/
def execReadResponse (id : Nat) (s : State) : Out :=
  match s.txOf id with
  | some t => .next (if t.isRead && (t.fail.isSome || t.data.length == t.len) then
      let s := s.dropTx id
      let s := match t.fail with
        | some code => s.readFailed t code
        | none => (s.deliver t.src t.addr t.data none).chanData t
      (s.pciCredit t.addr).pumpAll
    else s)
  | none => .next s

/-- WRITE_ACK (R25): a posted write that landed. -/
def execWriteAck (id : Nat) (s : State) : Out :=
  match s.txOf id with
  | some t => .next (if !t.isRead && t.fail.isNone then ((s.dropTx id).pciCredit t.addr).pumpAll else s)
  | none => .next s

/-- FAILURE_NOTICE (R223, R224). -/
def execFailureNotice (id : Nat) (s : State) : Out :=
  match s.txOf id with
  | some t => .next (match t.isRead, t.fail with
    | false, some code => ((s.dropTx id).pwFail t.src t.addr code t.target).pumpAll
    | _, _ => s)
  | none => .next s

/-- SPLIT_READ_TIMEOUT (R222). -/
def execSplitReadTimeout (id : Nat) (s : State) : Out :=
  match s.txOf id with
  | some t => .next (if t.isRead && s.txExpired t then (s.readTimeout t).pumpAll else s)
  | none => .next s

/-- POSTED_WRITE_TIMEOUT (R223). -/
def execPostedWriteTimeout (id : Nat) (s : State) : Out :=
  match s.txOf id with
  | some t => .next (if !t.isRead && s.txExpired t then ((s.dropTx id).pwFail t.src t.addr 6 t.target).pumpAll else s)
  | none => .next s

/-- CREDIT_RETURN (R219): the flit leaves the receive buffer. A yielding port resumes sending (R227). -/
def execCreditReturn (d : Fin 8) (p : Fin 7) (c : Fin 8) (s : State) : Out :=
  if s.fab.credits.any (fun x => x.die == d && x.port == p && x.cls == c) then
    let s := { s with fab := { s.fab with credits := removeFirst (fun x => x.die == d && x.port == p && x.cls == c) s.fab.credits,
                                          credAt := s.fab.credAt.set (d, p) s.now } }
    .next (if s.yielding (d, p) then
      { (s.setFld .dp (portInst d p) Reg.DP_STAT 8 8 0) with fab := { s.fab with escape := s.fab.escape.set p 0 } } else s).pumpAll
  else .next s

end Sys2Proof.Machine
end

