-- ==== Sys2Proof/Machine/Management.lean ====
section
/-! DEFINITION. The management network: sessions, slices, credentials, package reports, logs (R480 to R482, R489 to R491). Signatures and
nonces of the device are operands. -/

namespace Sys2Proof.Machine

/-- The management core serves the port. -/
def State.mgmtUp (s : State) : Bool := s.fw.mcRunning && s.up 85

/-- A datagram for the protocol (R489): whole, to the port and addresses of the boot manifest. -/
def State.mgmtFor (s : State) (q : MgmtDgram) : Bool :=
  !q.frag && q.udp == s.fixed.board.mgmtPort &&
    (if q.v6 then q.dst == s.fixed.board.mgmtV6 else q.dst == s.fixed.board.mgmtV4.setWidth 128)

/-- A response leaves for where a datagram came from. -/
def State.mgmtSend (s : State) (q : MgmtDgram) (bytes : List Byte) : State :=
  { s with sec := { s.sec with mgmtOut := some ⟨q.v6, q.addr, q.src, bytes⟩ } }

def State.mgmtOf (s : State) (id : Word) : Option Mgmt := s.sec.mgmt.find? (fun x => x.id == id)
def State.putMgmt (s : State) (x : Mgmt) : State :=
  { s with sec := { s.sec with mgmt := s.sec.mgmt.map (fun (y : Mgmt) => if y.id = x.id then x else y) } }
def State.dropMgmt (s : State) (id : Word) : State := { s with sec := { s.sec with mgmt := s.sec.mgmt.filter (fun x => x.id != id) } }

/-- The key of a session (R489). -/
def Mgmt.key (x : Mgmt) : List Byte := mgmtKey x.secret x.ns x.nd

/-- A sealed response of a session (R351, R352, R489). -/
def Mgmt.answer (x : Mgmt) (op status : Nat) (seq : BitVec 64) (payload : List Byte) : List Byte :=
  tpSealed 0x484D x.key ((op + 0x80) % 256) status x.id 0 (seq ||| BitVec.ofNat 64 (2 ^ 63)) payload

/-- Word `i` of a payload: numbers in payloads are little-endian words of 4 bytes. DESIGN CHOICE, log entry 116. -/
def mgWord (pt : List Byte) (i : Nat) : Nat := bWord pt (4 * i)

/-- MGMT_HELLO (R490, R491): no answer during the lock-out. The payload is NS and the credential index; `id`, `nd` and `sig` are the device's
session number, nonce and signature. The CHALLENGE leaves in clear. -/
def execMgmtHello (q : MgmtDgram) (id : Word) (nd sig : List Byte) (s : State) : Out :=
  let pt := tpPayload q.bytes
  .next (if !s.mgmtUp || !s.mgmtFor q || tpOp q.bytes != 1 || !tpForm 0x484D q.bytes 0 || tpSession q.bytes != 0 || pt.length != 36 ||
      decide (8 ≤ mgWord pt 8) || s.sec.lockUntil.isSome || id == 0 || (s.mgmtOf id).isSome then s
    else
      let cred : Fin 8 := Fin.ofNat 8 (mgWord pt 8)
      let l := s.sec.mgmt.filter (fun x => x.established || x.cred != cred)
      ({ s with sec := { s.sec with mgmt := l ++ [({ id := id, cred := cred, ns := pt.take 32, nd := nd, secret := [], established := false, lastValid := s.now, done := [] } : Mgmt)] } }).mgmtSend q
        (tpHeader 0x484D 0x81 0 (nd ++ sig).length id 0 (BitVec.ofNat 64 (2 ^ 63)) ++ nd ++ sig))

/-- An AUTH fails (R491). -/
def State.authFail (s : State) : State :=
  let s := (s.count .sec 0 Reg.SEC_MGMTFAIL 1).raise .sec 0 1 0 0
  let l := s.now :: s.sec.authFails.filter (fun t => decide (s.now < t + 60000000000))
  if 5 ≤ l.length then { s with sec := { s.sec with authFails := [], lockUntil := some (s.now + 60000000000) } }
  else { s with sec := { s.sec with authFails := l } }

/-- MGMT_AUTH (R490, R491): `secret` is S as DTK decrypts it, none when the station's key has not the manifest's digest, its signature does
not verify, or S does not decrypt (log entry 92). At most 2 sessions are open. -/
def execMgmtAuth (q : MgmtDgram) (secret : Option (List Byte)) (s : State) : Out :=
  let id := tpSession q.bytes
  .next (if !s.mgmtUp || !s.mgmtFor q || tpOp q.bytes != 3 || tpMagic q.bytes != 0x484D01 then s
    else match s.mgmtOf id with
      | none => s
      | some x =>
        if x.established then s
        else match secret with
          | none => (s.dropMgmt id).authFail
          | some sk =>
            if s.sec.revoked.getLsbD x.cred.val then (s.dropMgmt id).authFail
            else
              let others := s.sec.mgmt.filter (fun y => y.established && y.cred != x.cred)
              if 2 ≤ others.length then s
              else
                let l := s.sec.mgmt.filter (fun y => y.id == id || !(y.established && y.cred == x.cred))
                let x := { x with established := true, secret := sk, lastValid := s.now }
                (({ s with sec := { s.sec with mgmt := l } }).putMgmt x).mgmtSend q (x.answer 3 0 (tpSeq q.bytes) []))

/-- Operations of a session (R490). -/
def mgOps : List Nat := [0x10, 0x11, 0x12, 0x13, 0x14, 0x15, 0x16]

/-- A sealed request of an established session, executed once (R356, R489); `k` gives STATUS and payload. An undefined operation is answered
with BADOP (R354); a datagram of another operation is another command (log entry 115). -/
def State.mgmtRequest (s : State) (q : MgmtDgram) (op : Nat) (k : Mgmt → List Byte → State → State × Nat × List Byte) : State :=
  if !s.mgmtUp || !s.mgmtFor q || !tpForm 0x484D q.bytes 16 || ((1 :: 3 :: mgOps).contains (tpOp q.bytes) && tpOp q.bytes != op) then s
  else match s.mgmtOf (tpSession q.bytes) with
    | none => s
    | some x => match tpOpened x.key q.bytes with
      | none => s
      | some pt =>
        let seq := tpSeq q.bytes
        if !x.established || seq == 0 || decide (2 ^ 62 < seq.toNat) then s
        else
          let x := { x with lastValid := s.now }
          let s := s.putMgmt x
          match x.done.find? (fun e => e.1 == seq) with
          | some e => s.mgmtSend q e.2
          | none =>
            if x.done.length = 64 ∧ x.done.all (fun e => decide (seq < e.1)) then s
            else
              let (s, st, bs) := if tpOp q.bytes = op then k x pt s else (s, 3, [])
              let out := x.answer (tpOp q.bytes) st seq bs
              (s.putMgmt { x with done := ((seq, out) :: x.done).take 64 }).mgmtSend q out

/-- STATUS of the management operations: 0 OK, 5 REFUSED. -/
abbrev mgREFUSED : Nat := 5

def State.sliceRole (s : State) (x : Mgmt) : Bool := (s.fixed.roles.get x.cred (false, false)).1
def State.revokeRole (s : State) (x : Mgmt) : Bool := (s.fixed.roles.get x.cred (false, false)).2

/-! ### Slices (R480, R481) -/

/-- A slice descriptor whose form is right. -/
def parseSlice (bs : List Byte) : Option (Fin 64 × Slice) :=
  let n := bBits bs 4 5 0
  let cl (d : Nat) : Nat := bBits bs (0x10 + 4 * d) 11 0
  if bWord bs 0 = 0x534C4331 ∧ 1 ≤ n ∧ bBits bs 8 23 18 ≤ 32 ∧ 1 ≤ bBits bs 8 11 0 ∧
      bZero bs ([(4, 31, 9), (4, 7, 6), (8, 17, 12), (0xC, 31, 16), (0x48, 31, 0), (0x4C, 31, 0)] ++ (List.range 6).map (fun d => (0x10 + 4 * d, 31, 12))) then
    some (Fin.ofNat 64 n,
      { world := bBits bs 4 8 8 == 1, slots := bBits bs 8 31 24, parts := bBits bs 8 23 18, ctxs := bBits bs 8 11 0,
        mcShare := bBits bs 0xC 15 8, dpShare := bBits bs 0xC 7 0,
        clusters := (List.finRange 6).map (fun d => (d, BitVec.ofNat 12 (cl d.val))), dram := (List.finRange 8).map (fun d => (d, bWord bs (0x28 + 4 * d.val))) })
  else none

/-- The layout of a descriptor, up to its last two words. -/
def Slice.bytes (x : Slice) (n : Fin 64) : List Byte :=
  leBytes 4 0x534C4331 ++ leBytes 4 (b2n x.world * 256 + n.val) ++ leBytes 4 (x.slots * 2 ^ 24 + x.parts * 2 ^ 18 + x.ctxs) ++
    leBytes 4 (x.mcShare * 256 + x.dpShare) ++ (List.finRange 6).flatMap (fun d => leBytes 4 (x.clusters.get d 0).toNat) ++
    (List.finRange 8).flatMap (fun d => leBytes 4 (x.dram.get d 0))

/-- A quantity fits the pool after the other slices and slice 0's use. -/
def State.poolHas (s : State) (total used : Nat) (f : Slice → Nat) (n : Nat) : Bool := decide (s.slicesHold f + used + n ≤ total)

/-- The conditions of R481. -/
def State.sliceFits (s : State) (n : Fin 64) (x : Slice) : Bool :=
  let res := (s.sliceParts 0).flatMap (·.res) ++ s.chk.mons.flatMap (fun e => e.2.shares)
  let free (cl : ClusterId) : Bool := s.ownerOf cl == 0 && s.sliceOfCluster cl == 0
  (s.sec.slices.get? n).isNone &&
    (List.finRange 6).all (fun d => (List.finRange 12).all (fun c => !(x.clusters.get d 0).getLsbD c.val || free ⟨d, c⟩)) &&
    s.poolHas 4095 (s.ctxsOf 0).length (·.ctxs) x.ctxs && s.poolHas 255 (s.slotsOf 0) (·.slots) x.slots &&
    s.poolHas 32 (s.sliceParts 0).length (·.parts) x.parts &&
    (List.finRange 8).all (fun d => s.poolHas (s.dramUnits d) (s.unitsOf 0 d) (fun y => y.dram.get d 0) (x.dram.get d 0)) &&
    s.poolHas 256 0 (·.mcShare) x.mcShare && s.poolHas 256 0 (·.dpShare) x.dpShare &&
    (res.filter ResRec.isShare).all (fun r => if r.typ = 1 then s.poolHas 256 (shareAt r res) (·.mcShare) x.mcShare
      else s.poolHas 256 (shareAt r res) (·.dpShare) x.dpShare)

/-- SLICE_CREATE (R480, R481, R490). -/
def execSliceCreate (q : MgmtDgram) (s : State) : Out :=
  .next (s.mgmtRequest q 0x10 (fun m desc s =>
    match parseSlice desc with
    | some (n, x) =>
      if s.sliceRole m && s.sliceFits n x then ({ s with sec := { s.sec with slices := s.sec.slices.set n x } }, 0, []) else (s, mgREFUSED, [])
    | none => (s, mgREFUSED, [])))

/-- SLICE_DESTROY (R481, R490). -/
def execSliceDestroy (q : MgmtDgram) (s : State) : Out :=
  .next (s.mgmtRequest q 0x11 (fun m pt s =>
    let n : Fin 64 := Fin.ofNat 64 (mgWord pt 0)
    if s.sliceRole m && decide (mgWord pt 0 < 64) && (s.sec.slices.get? n).isSome && (s.ctxsOf n).isEmpty then
      ({ s with sec := { s.sec with slices := s.sec.slices.erase n } }, 0, [])
    else (s, mgREFUSED, [])))

/-- SLICE_READ (R490): how the counts in use are laid out is not stated (log entry 36). -/
def execSliceRead (q : MgmtDgram) (s : State) : Out :=
  .next (s.mgmtRequest q 0x12 (fun m pt s =>
    let n : Fin 64 := Fin.ofNat 64 (mgWord pt 0)
    match s.sec.slices.get? n with
    | some x =>
      if s.sliceRole m && decide (mgWord pt 0 < 64) then
        (s, 0, x.bytes n ++ leBytes 8 (Config.sliceUse (s.slotsOf n) (s.sliceParts n).length (s.ctxsOf n).length).toNat)
      else (s, mgREFUSED, [])
    | none => (s, mgREFUSED, [])))

/-! ### Credentials, reports, logs -/

/-- CRED_REVOKE (R490). -/
def execCredRevoke (q : MgmtDgram) (s : State) : Out :=
  .next (s.mgmtRequest q 0x13 (fun m pt s =>
    if s.revokeRole m && decide (mgWord pt 0 < 8) then
      ({ s with sec := { s.sec with revoked := s.sec.revoked ||| BitVec.ofNat 8 (1 <<< mgWord pt 0) } }, 0, []) else (s, mgREFUSED, [])))

/-- PKG_ATTEST (R490): one report for each nonce, kept until a new nonce arrives. `sig` signs a report that is built now. -/
def execPkgAttest (q : MgmtDgram) (sig : List Byte) (s : State) : Out :=
  .next (if !s.fpRuns 4 then s else s.mgmtRequest q 0x14 (fun _ pt s =>
    let nonce := pt.take 32
    let off := mgWord pt 8
    let kept := match s.sec.report with
      | some (n, r) => if n = nonce then some r else none
      | none => none
    let r := kept.getD (s.attest none nonce sig)
    ({ s with sec := { s.sec with report := some (nonce, r) } }, 0, leBytes 4 r.length ++ (r.drop off).take 1020)))

/-- Entries of a log ring from a sequence number, as FLT_READ finds them (R461). -/
def State.logEntries (s : State) (base size : Nat) (next first : Word) (n : Nat) : List Byte :=
  let start := if size < (next - first).toNat then next - BitVec.ofNat 32 size else first
  (List.range (Nat.min n (next - start).toNat)).flatMap (fun i => s.load (base + (start.toNat + i) % size * 32) 32)

/-- LOG_READ (R490). -/
def execLogRead (q : MgmtDgram) (s : State) : Out :=
  .next (s.mgmtRequest q 0x15 (fun _ pt s =>
    let first : Word := BitVec.ofNat 32 (mgWord pt 1)
    (s, 0, if mgWord pt 0 = 1 then s.logEntries s.fixed.logBase s.fixed.logSize s.fw.logNext first 32
      else s.logEntries s.fixed.fltBase 65536 (s.reg .flt 0 Reg.FLT_LOGNEXT) first 32)))

/-- MGMT_CLOSE (R489): the answer leaves and the session ends. -/
def execMgmtClose (q : MgmtDgram) (s : State) : Out := .next (s.mgmtRequest q 0x16 (fun x _ s => (s.dropMgmt x.id, 0, [])))

/-- MGMT_SESSION_TIMEOUT (R489): 60 s without a valid request. -/
def execMgmtSessionTimeout (s : State) : Out :=
  .next { s with sec := { s.sec with mgmt := s.sec.mgmt.filter (fun x => !decide (x.lastValid + 60000000000 ≤ s.now)) } }

/-- MGMT_LOCKOUT_END (R491). -/
def execMgmtLockoutEnd (s : State) : Out :=
  .next (match s.sec.lockUntil with
    | some t => if t ≤ s.now then { s with sec := { s.sec with lockUntil := none } } else s
    | none => s)

end Sys2Proof.Machine
end

