-- ==== Sys2Proof/Machine/Dispatch.lean ====
section
/-! DEFINITION. What each command does to everything but the queue: one arm for each constructor. -/

namespace Sys2Proof.Machine

def exec (i : Instr) (s : State) : Host.Outcome State Fault Refusal :=
  match i with
  | .registerWrite src a size v => Sys2Proof.Machine.execRegisterWrite src a size v s
  | .expertEnWrite src a v => Sys2Proof.Machine.execExpertEnWrite src a v s
  | .readClear src a => Sys2Proof.Machine.execReadClear src a s
  | .readRequest src a len reply => Sys2Proof.Machine.execReadRequest src a len reply s
  | .postedWrite src a data => Sys2Proof.Machine.execPostedWrite src a data s
  | .readResponse id => Sys2Proof.Machine.execReadResponse id s
  | .writeAck id => Sys2Proof.Machine.execWriteAck id s
  | .failureNotice id => Sys2Proof.Machine.execFailureNotice id s
  | .splitReadTimeout id => Sys2Proof.Machine.execSplitReadTimeout id s
  | .postedWriteTimeout id => Sys2Proof.Machine.execPostedWriteTimeout id s
  | .creditReturn d p c => Sys2Proof.Machine.execCreditReturn d p c s
  | .portYield p n => Sys2Proof.Machine.execPortYield p n s
  | .flitCrcError d p => Sys2Proof.Machine.execFlitCrcError d p s
  | .diePortLinkFail d p => Sys2Proof.Machine.execDiePortLinkFail d p s
  | .shareWindowStart isPort k0 ended => Sys2Proof.Machine.execShareWindowStart isPort k0 ended s
  | .dramRefresh k0 => Sys2Proof.Machine.execDramRefresh k0 s
  | .driftCompensation k0 => Sys2Proof.Machine.execDriftCompensation k0 s
  | .dramTempRead k0 temp => Sys2Proof.Machine.execDramTempRead k0 temp s
  | .dramCeWriteback g => Sys2Proof.Machine.execDramCeWriteback g s
  | .lsEccWriteback g => Sys2Proof.Machine.execLsEccWriteback g s
  | .csEccWriteback g => Sys2Proof.Machine.execCsEccWriteback g s
  | .pwlogPop src d => Sys2Proof.Machine.execPwlogPop src d s
  | .domainSwitchDone d silent => Sys2Proof.Machine.execDomainSwitchDone d silent s
  | .domainDrainEnd d => Sys2Proof.Machine.execDomainDrainEnd d s
  | .contextLoad cl mask => Sys2Proof.Machine.execContextLoad cl mask s
  | .coreStart src c => Sys2Proof.Machine.execCoreStart src c s
  | .coreStep src c => Sys2Proof.Machine.execCoreStep src c s
  | .haltRequest src c => Sys2Proof.Machine.execHaltRequest src c s
  | .haltComplete c => Sys2Proof.Machine.execHaltComplete c s
  | .dmaChannelGo src c ch => Sys2Proof.Machine.execDmaChannelGo src c ch s
  | .dmaChannelStop src c ch => Sys2Proof.Machine.execDmaChannelStop src c ch s
  | .dmaChainStart c ch => Sys2Proof.Machine.execDmaChainStart c ch s
  | .dmaDescriptorLaunch c ch ep => Sys2Proof.Machine.execDmaDescriptorLaunch c ch ep s
  | .dmaPhasedLaunch c ch ep => Sys2Proof.Machine.execDmaPhasedLaunch c ch ep s
  | .dmaCompletion c ch ep => Sys2Proof.Machine.execDmaCompletion c ch ep s
  | .dmaStopSettle c ch => Sys2Proof.Machine.execDmaStopSettle c ch s
  | .errstop c => Sys2Proof.Machine.execErrstop c s
  | .pairMismatch p kind => Sys2Proof.Machine.execPairMismatch p kind s
  | .pairEnable src p en => Sys2Proof.Machine.execPairEnable src p en s
  | .streamStart c => Sys2Proof.Machine.execStreamStart c s
  | .accordDone c wrong => Sys2Proof.Machine.execAccordDone c wrong s
  | .nop c w => Sys2Proof.Machine.execNop c w s
  | .waitc c w => Sys2Proof.Machine.execWaitc c w s
  | .sop c w => Sys2Proof.Machine.execSop c w s
  | .sopi c w => Sys2Proof.Machine.execSopi c w s
  | .srd c w => Sys2Proof.Machine.execSrd c w s
  | .aadd c w => Sys2Proof.Machine.execAadd c w s
  | .aaddi c w => Sys2Proof.Machine.execAaddi c w s
  | .ali c w => Sys2Proof.Machine.execAli c w s
  | .amovs c w => Sys2Proof.Machine.execAmovs c w s
  | .asets c w => Sys2Proof.Machine.execAsets c w s
  | .br c w => Sys2Proof.Machine.execBr c w s
  | .jmp c w => Sys2Proof.Machine.execJmp c w s
  | .jal c w => Sys2Proof.Machine.execJal c w s
  | .jr c w => Sys2Proof.Machine.execJr c w s
  | .loop c w => Sys2Proof.Machine.execLoop c w s
  | .loopi c w => Sys2Proof.Machine.execLoopi c w s
  | .pop c w => Sys2Proof.Machine.execPop c w s
  | .plane c w => Sys2Proof.Machine.execPlane c w s
  | .pmovs c w => Sys2Proof.Machine.execPmovs c w s
  | .pfroms c w => Sys2Proof.Machine.execPfroms c w s
  | .ldb c w => Sys2Proof.Machine.execLdb c w s
  | .ldbu c w => Sys2Proof.Machine.execLdbu c w s
  | .ldh c w => Sys2Proof.Machine.execLdh c w s
  | .ldhu c w => Sys2Proof.Machine.execLdhu c w s
  | .ldw c w => Sys2Proof.Machine.execLdw c w s
  | .lda c w => Sys2Proof.Machine.execLda c w s
  | .stb c w => Sys2Proof.Machine.execStb c w s
  | .sth c w => Sys2Proof.Machine.execSth c w s
  | .stw c w => Sys2Proof.Machine.execStw c w s
  | .sta c w => Sys2Proof.Machine.execSta c w s
  | .vld c w => Sys2Proof.Machine.execVld c w s
  | .vst c w => Sys2Proof.Machine.execVst c w s
  | .amoadd c w => Sys2Proof.Machine.execAmoadd c w s
  | .amoswap c w => Sys2Proof.Machine.execAmoswap c w s
  | .amocas c w => Sys2Proof.Machine.execAmocas c w s
  | .dmago c w => Sys2Proof.Machine.execDmago c w s
  | .dmastop c w => Sys2Proof.Machine.execDmastop c w s
  | .sigwait c w => Sys2Proof.Machine.execSigwait c w s
  | .sigpost c w => Sys2Proof.Machine.execSigpost c w s
  | .bar c w => Sys2Proof.Machine.execBar c w s
  | .fence c w => Sys2Proof.Machine.execFence c w s
  | .pwb c w => Sys2Proof.Machine.execPwb c w s
  | .pwait c w => Sys2Proof.Machine.execPwait c w s
  | .accord c w => Sys2Proof.Machine.execAccord c w s
  | .endProgram c w => Sys2Proof.Machine.execEnd c w s
  | .mma c w => Sys2Proof.Machine.execMma c w s
  | .wld c w => Sys2Proof.Machine.execWld c w s
  | .amv c w => Sys2Proof.Machine.execAmv c w s
  | .amvw c w => Sys2Proof.Machine.execAmvw c w s
  | .viop c w => Sys2Proof.Machine.execViop c w s
  | .vsop c w => Sys2Proof.Machine.execVsop c w s
  | .vfop c w => Sys2Proof.Machine.execVfop c w s
  | .vfma c w => Sys2Proof.Machine.execVfma c w s
  | .vfds c w => Sys2Proof.Machine.execVfds c w s
  | .vfapx c w => Sys2Proof.Machine.execVfapx c w s
  | .vcmp c w => Sys2Proof.Machine.execVcmp c w s
  | .vmov c w => Sys2Proof.Machine.execVmov c w s
  | .vcvt c w => Sys2Proof.Machine.execVcvt c w s
  | .vreq c w => Sys2Proof.Machine.execVreq c w s
  | .vmxqQuantise c w => Sys2Proof.Machine.execVmxqQuantise c w s
  | .vmxqDequantise c w => Sys2Proof.Machine.execVmxqDequantise c w s
  | .vred c w => Sys2Proof.Machine.execVred c w s
  | .aopen c w => Sys2Proof.Machine.execAopen c w s
  | .astep c w => Sys2Proof.Machine.execAstep c w s
  | .astate c w => Sys2Proof.Machine.execAstate c w s
  | .avac c w => Sys2Proof.Machine.execAvac c w s
  | .aexp2 c w => Sys2Proof.Machine.execAexp2 c w s
  | .vapp c w => Sys2Proof.Machine.execVapp c w s
  | .vfil c w => Sys2Proof.Machine.execVfil c w s
  | .vfls c w => Sys2Proof.Machine.execVfls c w s
  | .phaseTick w => Sys2Proof.Machine.execPhaseTick w s
  | .wheelStartEvent w => Sys2Proof.Machine.execWheelStartEvent w s
  | .sourceHoldTimeout w => Sys2Proof.Machine.execSourceHoldTimeout w s
  | .freeRunExpire w => Sys2Proof.Machine.execFreeRunExpire w s
  | .wheelEnable src w v => Sys2Proof.Machine.execWheelEnable src w v s
  | .argumentRead p k => Sys2Proof.Machine.execArgumentRead p k s
  | .periodicLaunch r => Sys2Proof.Machine.execPeriodicLaunch r s
  | .queuedLaunch pid => Sys2Proof.Machine.execQueuedLaunch pid s
  | .yieldRequest pid => Sys2Proof.Machine.execYieldRequest pid s
  | .endNotice c => Sys2Proof.Machine.execEndNotice c s
  | .yieldRelaunch pid => Sys2Proof.Machine.execYieldRelaunch pid s
  | .deadlineCheck r => Sys2Proof.Machine.execDeadlineCheck r s
  | .accordSlotCheck c => Sys2Proof.Machine.execAccordSlotCheck c s
  | .idleAccordStart cl => Sys2Proof.Machine.execIdleAccordStart cl s
  | .jobStopComplete p k num => Sys2Proof.Machine.execJobStopComplete p k num s
  | .cadAbort src cl v => Sys2Proof.Machine.execCadAbort src cl v s
  | .abortForward p => Sys2Proof.Machine.execAbortForward p s
  | .abortResult cl => Sys2Proof.Machine.execAbortResult cl s
  | .jobRecordPost => Sys2Proof.Machine.execJobRecordPost s
  | .domainStep src d v => Sys2Proof.Machine.execDomainStep src d v s
  | .domainLoad src d => Sys2Proof.Machine.execDomainLoad src d s
  | .domainSlew src d v => Sys2Proof.Machine.execDomainSlew src d v s
  | .domainEnable src d en => Sys2Proof.Machine.execDomainEnable src d en s
  | .triggerConfig src n v => Sys2Proof.Machine.execTriggerConfig src n v s
  | .triggerEdge n => Sys2Proof.Machine.execTriggerEdge n s
  | .triggerPulseStart n => Sys2Proof.Machine.execTriggerPulseStart n s
  | .triggerPulseEnd n => Sys2Proof.Machine.execTriggerPulseEnd n s
  | .captureEdge n rising => Sys2Proof.Machine.execCaptureEdge n rising s
  | .capturePop src n => Sys2Proof.Machine.execCapturePop src n s
  | .timeClockLoss => Sys2Proof.Machine.execTimeClockLoss s
  | .gptpFrameReceive port d sync st gm => Sys2Proof.Machine.execGptpFrameReceive port d sync st gm s
  | .gptpReceiptTimeout d => Sys2Proof.Machine.execGptpReceiptTimeout d s
  | .doorbell src p => Sys2Proof.Machine.execDoorbell src p s
  | .ringPoll p => Sys2Proof.Machine.execRingPoll p s
  | .cmdNop p => Sys2Proof.Machine.execCmdNop p s
  | .ringOpen p => Sys2Proof.Machine.execRingOpen p s
  | .ringClose p => Sys2Proof.Machine.execRingClose p s
  | .partLoad p sigOk code locks => Sys2Proof.Machine.execPartLoad p sigOk code locks s
  | .partUnload p => Sys2Proof.Machine.execPartUnload p s
  | .unloadFinish pid => Sys2Proof.Machine.execUnloadFinish pid s
  | .jobArm p => Sys2Proof.Machine.execJobArm p s
  | .jobDisarm p => Sys2Proof.Machine.execJobDisarm p s
  | .jobSubmit p => Sys2Proof.Machine.execJobSubmit p s
  | .jobAbort p => Sys2Proof.Machine.execJobAbort p s
  | .wheelSet p => Sys2Proof.Machine.execWheelSet p s
  | .timeSetEnable p => Sys2Proof.Machine.execTimeSetEnable p s
  | .timeSetDisable p => Sys2Proof.Machine.execTimeSetDisable p s
  | .timeSetRate p => Sys2Proof.Machine.execTimeSetRate p s
  | .timeSetSlew p => Sys2Proof.Machine.execTimeSetSlew p s
  | .timeSetStep p => Sys2Proof.Machine.execTimeSetStep p s
  | .timeSetLoad p => Sys2Proof.Machine.execTimeSetLoad p s
  | .timeSetDomainNumber p => Sys2Proof.Machine.execTimeSetDomainNumber p s
  | .trigSet p => Sys2Proof.Machine.execTrigSet p s
  | .capSet p => Sys2Proof.Machine.execCapSet p s
  | .timeRead p => Sys2Proof.Machine.execTimeRead p s
  | .capRead p => Sys2Proof.Machine.execCapRead p s
  | .statusRead p => Sys2Proof.Machine.execStatusRead p s
  | .acctRead p => Sys2Proof.Machine.execAcctRead p s
  | .logCfg p => Sys2Proof.Machine.execLogCfg p s
  | .rapOpen q id nd => Sys2Proof.Machine.execRapOpen q id nd s
  | .rapRead q => Sys2Proof.Machine.execRapRead q s
  | .rapWrite q => Sys2Proof.Machine.execRapWrite q s
  | .rapDoorbell q => Sys2Proof.Machine.execRapDoorbell q s
  | .rapClose q => Sys2Proof.Machine.execRapClose q s
  | .rapKeepalive q => Sys2Proof.Machine.execRapKeepalive q s
  | .rapNotify p => Sys2Proof.Machine.execRapNotify p s
  | .rapSessionTimeout p => Sys2Proof.Machine.execRapSessionTimeout p s
  | .rapHalfopenTimeout p => Sys2Proof.Machine.execRapHalfopenTimeout p s
  | .watchdogKick src self k => Sys2Proof.Machine.execWatchdogKick src self k s
  | .watchdogExpire k => Sys2Proof.Machine.execWatchdogExpire k s
  | .fpException k => Sys2Proof.Machine.execFpException k s
  | .fpRunning k digest => Sys2Proof.Machine.execFpRunning k digest s
  | .fpStartTimeout k => Sys2Proof.Machine.execFpStartTimeout k s
  | .mcWatchdogKick src self => Sys2Proof.Machine.execMcWatchdogKick src self s
  | .mcWatchdogExpire => Sys2Proof.Machine.execMcWatchdogExpire s
  | .fpRestart src k v => Sys2Proof.Machine.execFpRestart src k v s
  | .resetAssert ns may => Sys2Proof.Machine.execResetAssert ns may s
  | .resetRelease cool steps => Sys2Proof.Machine.execResetRelease cool steps s
  | .bringupTimeout die => Sys2Proof.Machine.execBringupTimeout die s
  | .coolOkAssert fail => Sys2Proof.Machine.execCoolOkAssert fail s
  | .coolOkDeassert => Sys2Proof.Machine.execCoolOkDeassert s
  | .thermalSample readings => Sys2Proof.Machine.execThermalSample readings s
  | .powerSample quarters => Sys2Proof.Machine.execPowerSample quarters s
  | .supplyFault ns => Sys2Proof.Machine.execSupplyFault ns s
  | .refclkLoss => Sys2Proof.Machine.execRefclkLoss s
  | .powerRemoval => Sys2Proof.Machine.execPowerRemoval s
  | .pwrDomain p => Sys2Proof.Machine.execPwrDomain p s
  | .pwrCap p => Sys2Proof.Machine.execPwrCap p s
  | .pwrRead p => Sys2Proof.Machine.execPwrRead p s
  | .shutdown p => Sys2Proof.Machine.execShutdown p s
  | .bootReport p => Sys2Proof.Machine.execBootReport p s
  | .pwrReq src v => Sys2Proof.Machine.execPwrReq src v s
  | .pwrCapWrite src v => Sys2Proof.Machine.execPwrCapWrite src v s
  | .safeMonLoad p sigOk => Sys2Proof.Machine.execSafeMonLoad p sigOk s
  | .safeMonUnload p => Sys2Proof.Machine.execSafeMonUnload p s
  | .safePair p => Sys2Proof.Machine.execSafePair p s
  | .safeUnpair p => Sys2Proof.Machine.execSafeUnpair p s
  | .safeRetest p silent => Sys2Proof.Machine.execSafeRetest p silent s
  | .safeStatus p => Sys2Proof.Machine.execSafeStatus p s
  | .monitorLaunch m => Sys2Proof.Machine.execMonitorLaunch m s
  | .monitorDeadline m => Sys2Proof.Machine.execMonitorDeadline m s
  | .comparisonStart k0 => Sys2Proof.Machine.execComparisonStart k0 s
  | .verdictWrite k0 => Sys2Proof.Machine.execVerdictWrite k0 s
  | .accordSignatureCheck c => Sys2Proof.Machine.execAccordSignatureCheck c s
  | .comparatorSelfTest pass => Sys2Proof.Machine.execComparatorSelfTest pass s
  | .cpuLockstepMismatch p kind a => Sys2Proof.Machine.execCpuLockstepMismatch p kind a s
  | .faultService r => Sys2Proof.Machine.execFaultService r s
  | .faultSweep => Sys2Proof.Machine.execFaultSweep s
  | .windowEvent => Sys2Proof.Machine.execWindowEvent s
  | .pinPulseEnd isErr => Sys2Proof.Machine.execPinPulseEnd isErr s
  | .fltPulse src v => Sys2Proof.Machine.execFltPulse src v s
  | .leaseExpire r => Sys2Proof.Machine.execLeaseExpire r s
  | .fltRead p => Sys2Proof.Machine.execFltRead p s
  | .fltWindow p => Sys2Proof.Machine.execFltWindow p s
  | .fltPin p => Sys2Proof.Machine.execFltPin p s
  | .fltPartreset p => Sys2Proof.Machine.execFltPartreset p s
  | .partresetDrainEnd pid => Sys2Proof.Machine.execPartresetDrainEnd pid s
  | .fltLeases p => Sys2Proof.Machine.execFltLeases p s
  | .fltSource p => Sys2Proof.Machine.execFltSource p s
  | .fltPwsticky p => Sys2Proof.Machine.execFltPwsticky p s
  | .ctxCreate p => Sys2Proof.Machine.execCtxCreate p s
  | .ctxDestroy p => Sys2Proof.Machine.execCtxDestroy p s
  | .ctxDestroyDrainEnd ctx keyErr => Sys2Proof.Machine.execCtxDestroyDrainEnd ctx keyErr s
  | .ctxDestroyRelease ctx => Sys2Proof.Machine.execCtxDestroyRelease ctx s
  | .memMap p => Sys2Proof.Machine.execMemMap p s
  | .wpkgLoad p => Sys2Proof.Machine.execWpkgLoad p s
  | .groupKeyInstall p gk => Sys2Proof.Machine.execGroupKeyInstall p gk s
  | .groupKeyRemove p => Sys2Proof.Machine.execGroupKeyRemove p s
  | .attest p sig => Sys2Proof.Machine.execAttest p sig s
  | .dirtyStart p => Sys2Proof.Machine.execDirtyStart p s
  | .dirtyRead p => Sys2Proof.Machine.execDirtyRead p s
  | .dirtyStop p => Sys2Proof.Machine.execDirtyStop p s
  | .domClock p => Sys2Proof.Machine.execDomClock p s
  | .mgmtHello q id nd sig => Sys2Proof.Machine.execMgmtHello q id nd sig s
  | .mgmtAuth q secret => Sys2Proof.Machine.execMgmtAuth q secret s
  | .sliceCreate q => Sys2Proof.Machine.execSliceCreate q s
  | .sliceDestroy q => Sys2Proof.Machine.execSliceDestroy q s
  | .sliceRead q => Sys2Proof.Machine.execSliceRead q s
  | .credRevoke q => Sys2Proof.Machine.execCredRevoke q s
  | .pkgAttest q sig => Sys2Proof.Machine.execPkgAttest q sig s
  | .logRead q => Sys2Proof.Machine.execLogRead q s
  | .mgmtClose q => Sys2Proof.Machine.execMgmtClose q s
  | .mgmtSessionTimeout => Sys2Proof.Machine.execMgmtSessionTimeout s
  | .mgmtLockoutEnd => Sys2Proof.Machine.execMgmtLockoutEnd s
  | .hxattrWrite h v => Sys2Proof.Machine.execHxattrWrite h v s
  | .hxwayWrite h v => Sys2Proof.Machine.execHxwayWrite h v s
  | .mxpark h => Sys2Proof.Machine.execMxpark h s
  | .mxwdkick h => Sys2Proof.Machine.execMxwdkick h s
  | .cpuPwb h => Sys2Proof.Machine.execCpuPwb h s
  | .cpuWatchdogExpire p => Sys2Proof.Machine.execCpuWatchdogExpire p s
  | .cpuPairStop src p v => Sys2Proof.Machine.execCpuPairStop src p v s
  | .cpuPairStart src p v => Sys2Proof.Machine.execCpuPairStart src p v s
  | .cpuPairStopped p => Sys2Proof.Machine.execCpuPairStopped p s
  | .cpuIoLoad h a size v vmid => Sys2Proof.Machine.execCpuIoLoad h a size v vmid s
  | .cpuIoStore h a data v vmid => Sys2Proof.Machine.execCpuIoStore h a data v vmid s
  | .canModeWrite src c v => Sys2Proof.Machine.execCanModeWrite src c v s
  | .canFrameReceive c f ago room errs => Sys2Proof.Machine.execCanFrameReceive c f ago room errs s
  | .canFrameSent c r corrected => Sys2Proof.Machine.execCanFrameSent c r corrected s
  | .canBusoffRecovery c => Sys2Proof.Machine.execCanBusoffRecovery c s
  | .linScheduleEntry c => Sys2Proof.Machine.execLinScheduleEntry c s
  | .linFrameEnd c resp => Sys2Proof.Machine.execLinFrameEnd c resp s
  | .linWakeup c => Sys2Proof.Machine.execLinWakeup c s
  | .switchFrameReceive p bytes pass ecc => Sys2Proof.Machine.execSwitchFrameReceive p bytes pass ecc s
  | .gwQueueDoorbell src k0 => Sys2Proof.Machine.execGwQueueDoorbell src k0 s
  | .gwQueuePoll k0 => Sys2Proof.Machine.execGwQueuePoll k0 s
  | .queueTxWriteback k0 => Sys2Proof.Machine.execQueueTxWriteback k0 s
  | .queueRxWriteback k0 => Sys2Proof.Machine.execQueueRxWriteback k0 s
  | .pduSourceTimeout n => Sys2Proof.Machine.execPduSourceTimeout n s
  | .pduPeriodicSend n => Sys2Proof.Machine.execPduPeriodicSend n s
  | .mdioCommand src v => Sys2Proof.Machine.execMdioCommand src v s
  | .mdioDone data => Sys2Proof.Machine.execMdioDone data s
  | .pcieOutboundRequest src a isRead len data reply => Sys2Proof.Machine.execPcieOutboundRequest src a isRead len data reply s
  | .pcieCompletionTimeout id => Sys2Proof.Machine.execPcieCompletionTimeout id s
  | .pcieLinkDown => Sys2Proof.Machine.execPcieLinkDown s
  | .pcieInboundRequest a isRead len data aer => Sys2Proof.Machine.execPcieInboundRequest a isRead len data aer s
  | .pcieYield n => Sys2Proof.Machine.execPcieYield n s
  | .canSetConfigure p => Sys2Proof.Machine.execCanSetConfigure p s
  | .canSetFilter p => Sys2Proof.Machine.execCanSetFilter p s
  | .canSetAbortBuffer p => Sys2Proof.Machine.execCanSetAbortBuffer p s
  | .linSetConfigure p => Sys2Proof.Machine.execLinSetConfigure p s
  | .linSetLoadSchedule p => Sys2Proof.Machine.execLinSetLoadSchedule p s
  | .linSetStart p => Sys2Proof.Machine.execLinSetStart p s
  | .linSetStop p => Sys2Proof.Machine.execLinSetStop p s
  | .swPort p => Sys2Proof.Machine.execSwPort p s
  | .swVlan p => Sys2Proof.Machine.execSwVlan p s
  | .flowAdd p => Sys2Proof.Machine.execFlowAdd p s
  | .flowDel p => Sys2Proof.Machine.execFlowDel p s
  | .flowRead p => Sys2Proof.Machine.execFlowRead p s
  | .gwPdu p => Sys2Proof.Machine.execGwPdu p s
  | .gwRoute p => Sys2Proof.Machine.execGwRoute p s
  | .gwQueue p => Sys2Proof.Machine.execGwQueue p s
  | .pciWindow p => Sys2Proof.Machine.execPciWindow p s
  | .pciLinkTrain p result => Sys2Proof.Machine.execPciLinkTrain p result s
  | .pciLinkPerstAssert p => Sys2Proof.Machine.execPciLinkPerstAssert p s
  | .pciLinkPerstRelease p => Sys2Proof.Machine.execPciLinkPerstRelease p s
  | .csiPacketReceive r hdr vc k => Sys2Proof.Machine.execCsiPacketReceive r hdr vc k s
  | .frameRecordFinal sid => Sys2Proof.Machine.execFrameRecordFinal sid s
  | .streamDueCheck sid => Sys2Proof.Machine.execStreamDueCheck sid s
  | .gfxDoorbell src q => Sys2Proof.Machine.execGfxDoorbell src q s
  | .gfxQueuePoll q => Sys2Proof.Machine.execGfxQueuePoll q s
  | .renderPassStart q d need stalls acts => Sys2Proof.Machine.execRenderPassStart q d need stalls acts s
  | .passWriteback q acts => Sys2Proof.Machine.execPassWriteback q acts s
  | .compositorPreempt acts => Sys2Proof.Machine.execCompositorPreempt acts s
  | .displayLatch o => Sys2Proof.Machine.execDisplayLatch o s
  | .imageRelease o => Sys2Proof.Machine.execImageRelease o s
  | .codecPicture k out len err ref => Sys2Proof.Machine.execCodecPicture k out len err ref s
  | .camStream p => Sys2Proof.Machine.execCamStream p s
  | .ispTune p good => Sys2Proof.Machine.execIspTune p good s
  | .gfxQueue p => Sys2Proof.Machine.execGfxQueue p s
  | .gfxPool p => Sys2Proof.Machine.execGfxPool p s
  | .dspOut p trained => Sys2Proof.Machine.execDspOut p trained s
  | .dspPlane p r => Sys2Proof.Machine.execDspPlane p r s
  | .codecSession p => Sys2Proof.Machine.execCodecSession p s
  | .woadeRoundStart => Sys2Proof.Machine.execWoadeRoundStart s
  | .woadeSlotStart back => Sys2Proof.Machine.execWoadeSlotStart back s
  | .maintenanceFlit p m => Sys2Proof.Machine.execMaintenanceFlit p m s
  | .woadeFlitReceive p f => Sys2Proof.Machine.execWoadeFlitReceive p f s
  | .woadeMessageReceive => Sys2Proof.Machine.execWoadeMessageReceive s
  | .woadeSqDoorbell src q => Sys2Proof.Machine.execWoadeSqDoorbell src q s
  | .woadeSendWriteback q => Sys2Proof.Machine.execWoadeSendWriteback q s
  | .woadePortDown p => Sys2Proof.Machine.execWoadePortDown p s
  | .woadePortUp p => Sys2Proof.Machine.execWoadePortUp p s
  | .woadeTrainTimeout p => Sys2Proof.Machine.execWoadeTrainTimeout p s
  | .woadeTrainRetry p => Sys2Proof.Machine.execWoadeTrainRetry p s
  | .woadeMessageDiscard f => Sys2Proof.Machine.execWoadeMessageDiscard f s
  | .partnerLoss => Sys2Proof.Machine.execPartnerLoss s
  | .wdeTopo p => Sys2Proof.Machine.execWdeTopo p s
  | .wdePort p => Sys2Proof.Machine.execWdePort p s
  | .wdeFlow p => Sys2Proof.Machine.execWdeFlow p s
  | .wdeSched p => Sys2Proof.Machine.execWdeSched p s
  | .wdeSqueue p => Sys2Proof.Machine.execWdeSqueue p s
  | .wdeRqueue p => Sys2Proof.Machine.execWdeRqueue p s
  | .wdePair p => Sys2Proof.Machine.execWdePair p s
  | .monitorComplete m writes ecc => Sys2Proof.Machine.execMonitorComplete m writes ecc s
  | .mcShadowMismatch => Sys2Proof.Machine.execMcShadowMismatch s
  | .jtagAccess scan p enter => Sys2Proof.Machine.execJtagAccess scan p enter s
  | .pcsLinkChange p linked verified => Sys2Proof.Machine.execPcsLinkChange p linked verified s
  | .displayLinkLoss o => Sys2Proof.Machine.execDisplayLinkLoss o s
  | .scanOutLine o arrived => Sys2Proof.Machine.execScanOutLine o arrived s
  | .csiPhySync r sync => Sys2Proof.Machine.execCsiPhySync r sync s
  | .woadeSqPoll q => Sys2Proof.Machine.execWoadeSqPoll q s
  | .trustedPairRelease p image => Sys2Proof.Machine.execTrustedPairRelease p image s
  | .slewComplete d => Sys2Proof.Machine.execSlewComplete d s
  | .gptpSyncSend port d relayed => Sys2Proof.Machine.execGptpSyncSend port d relayed s
  | .switchFrameEgress p q sent ecc => Sys2Proof.Machine.execSwitchFrameEgress p q sent ecc s
  | .linHeaderReceive c id => Sys2Proof.Machine.execLinHeaderReceive c id s

end Sys2Proof.Machine
end

