-- ==== Sys2Proof/Machine/Step.lean ====
section
/-! DEFINITION. One step: the command at the front of the queue, or a cycle of the clock. -/

namespace Sys2Proof.Machine

/-- The command at the front acts on the state with the rest of the queue. On an empty queue the 500 MHz clock makes one cycle
(R233), and a shutdown in progress ends: DESIGN CHOICE, log entries 2 and 110. -/
def step (s : State) : Host.Outcome State Fault Refusal :=
  match s.pending with
  | [] => .next s.idle
  | c :: t => exec c { s with pending := t }

/-- The command that a table word spells, at the front of the queue. -/
def State.withFetchWord (s : State) (nbits w : Nat) : State :=
  match decodeTableWord nbits w with
  | some c => { s with pending := c :: s.pending }
  | none => s

end Sys2Proof.Machine
end

