-- ==== Sys2Proof/Safety.lean ====
section
/-! DEFINITION. The words that claims use: what a safe state and a run are, when a core is ready to issue, what it leaves when an
instruction completes, and what a command of a unit needs. -/

namespace Sys2Proof.Machine

/-- A safe state: its memory is in canonical form, so that equal memories are equal data. -/
def State.safe (s : State) : Prop := Memory.wf s.mem = true

/-- The state after `n` steps that all answer a next state; none where a step answers otherwise. -/
def State.runs : Nat → State → Option State
  | 0, s => some s
  | n + 1, s => match step s with
    | .next t => t.runs n
    | _ => none

/-- A run is safe when every state it reaches within `n` steps is safe. -/
def State.safeRun (n : Nat) (s : State) : Prop := ∀ k t, k ≤ n → s.runs k = some t → t.safe

/-- A core that can issue the instruction with opcode `op` and fields `w`: its program counter lies outside the accord area, and no
instruction in a unit queue still has to give or to take an operand (R100, R123, R156). -/
def State.ready (s : State) (c : CoreId) (op : Nat) (w : BitVec 56) : Bool :=
  s.canIssue c && !inAccord (s.core c).pc.toNat && !(s.core c).interlocked op w

/-- An instruction of a unit starts when it issues: nothing waits in the unit's queue, and no stream instruction holds it up (R101, R160). -/
def State.starts (s : State) (c : CoreId) (op : Nat) (w : BitVec 56) : Bool :=
  s.ready c op w && (s.core c).unitQ.all (fun q => unitOf op != some q.unit) && !unitBlocked op w (s.core c).streamQ

/-- `t` is what an instruction of `s` leaves; here it has completed, and the program counter and the loops have moved (R137). -/
def State.completed (s : State) (c : CoreId) (t : State) : State := t.putCore c ((t.core c).complete (s.core c).pc)

/-- A core's contents as an instruction that writes only the core leaves them, completed. -/
def State.retire (s : State) (c : CoreId) (x : CoreState) : State := s.completed c (s.putCore c x)

/-- A taken transfer to `t` (R139). -/
def State.transferred (c : CoreId) (s : State) (t : BitVec 20) : State := s.putCore c ((s.core c).transfer t)

/-- A request to a register that is a command of its own reaches it: the target accepts it, or it comes from device firmware on its
private path and is not turned away for a power domain or an address that is not there (R13, R39, R466). -/
def State.reaches (s : State) (src : Src) (a : Nat) : Bool :=
  match s.refusal src a 4 true with
  | none => true
  | some r => src.fw && r.code == 3

/-- A range of a core's own local store or own cluster store, for an access of a core (R17, R142). -/
def ownRange (c : CoreId) (a n : Nat) : Bool := inOwnLs c a n || inOwnCs c a n

/-- No word or burst of a range holds a latent error, in the checker's store neither, and no DMA write to it is still coming in (R20, R106,
R114, R197, R206). -/
structure State.clean (s : State) (a n : Nat) : Prop where
  own : ∀ g ∈ s.granules a n, s.fab.ecc.get? g = none
  checker : s.doubled a = true → ∀ g ∈ s.granules (a + 0x100000) n, s.fab.ecc.get? g = none
  landed : ∀ l ∈ s.fab.landing, ¬(l.addr < a + n ∧ a < l.addr + l.old.length)

/-- Queued instructions of a core that still touch a range, so that a store to it waits (R132, R171). -/
def State.inUse (s : State) (c : CoreId) (a n : Nat) : Bool :=
  (s.core c).streamReads a n || (s.core c).unitReads a n || (s.core c).unitWrites a n

/-- A store of a core may take place: aligned, in the own stores, outside the accord area, and no queued instruction still touches the
bytes (R132, R142, R156). -/
def State.mayStore (s : State) (c : CoreId) (a align n : Nat) : Prop :=
  a % align = 0 ∧ ownRange c a n = true ∧ ¬ (inOwnLs c a n = true ∧ inAccord (a - lsBase c + n - 1) = true) ∧ s.inUse c a n = false

/-- A taken command of a ring pair that firmware performs: its opcode and its processors, no SHUTTING unless it is PWR_READ, every field in its place, and the pair allowed
to use it (R335, R340, R341, R394). -/
def State.accepts (s : State) (p : Fin 64) (op : Nat) (needs : List (Fin 8)) (fields : List (Nat × Nat × Nat)) (controlOnly : Bool)
    (e : BitVec 512) : Prop :=
  s.takenCmd p op needs = some e ∧ (s.pkg = pkSHUTTING → op = 0x2A) ∧ eClean e fields = true ∧ (controlOnly = true → isControl p = true)

/-- A sealed request of an established management session that the management core performs now: for the port, well formed, opened to the
payload `pt` under the session key, in its window, not answered before (R350 to R352, R356, R489). -/
def State.admits (s : State) (q : MgmtDgram) (op : Nat) (x : Mgmt) (pt : List Byte) : Prop :=
  s.mgmtUp = true ∧ s.mgmtFor q = true ∧ tpForm 0x484D q.bytes 16 = true ∧ tpOp q.bytes = op ∧ s.mgmtOf (tpSession q.bytes) = some x ∧
    tpOpened x.key q.bytes = some pt ∧ x.established = true ∧ tpSeq q.bytes ≠ 0 ∧ (tpSeq q.bytes).toNat ≤ 2 ^ 62 ∧
    x.done.find? (fun e => e.1 == tpSeq q.bytes) = none ∧ ¬(x.done.length = 64 ∧ ∀ e ∈ x.done, tpSeq q.bytes < e.1)

/-- A session with its time of the last valid request. -/
def State.heard (s : State) (x : Mgmt) : State := s.putMgmt { x with lastValid := s.now }

/-- The state in which a performed request has been answered with a status and a payload, sealed; the answer is kept for a repeat (R352, R356). -/
def State.answered (s : State) (q : MgmtDgram) (x : Mgmt) (status : Nat) (bs : List Byte) : State :=
  (s.putMgmt { x with lastValid := s.now, done := ((tpSeq q.bytes, x.answer (tpOp q.bytes) status (tpSeq q.bytes) bs) :: x.done).take 64 }).mgmtSend q
    (x.answer (tpOp q.bytes) status (tpSeq q.bytes) bs)

/-- A request of a source inside the die of its target, which accepts it: no hart, no PCIe window (R13, R25, R466). -/
def State.local_ (s : State) (src : Src) (a n : Nat) (write : Bool) : Prop :=
  src.hart = none ∧ addrDie a = src.die ∧ s.isPci a = false ∧ s.refusal src a n write = none

end Sys2Proof.Machine
end

