-- ==== Sys2Proof/Certificates/Slice0/Obligations.lean ====
section
/-! DEFINITION. The statements for the provers. -/

open Sys2Proof Sys2Proof.Machine Sys2Proof.Machine.State


/-! ### Benvor: scalar, branch, loop and predicate instructions -/

/-- Completion of NOP, WAITC, SOP, SOPI, SRD, AADD, AADDI, ALI, AMOVS and ASETS (R125, R126, R134, R135): what each writes, with the
program counter moved and every other field of the state as before. S0 discards a write by `setS` itself.
Completion of BR, JMP, JAL, JR, LOOP and LOOPI (R136 to R139): a taken transfer, or the next instruction; a loop that starts, or is
skipped when its count is 0. On a pair in lockstep SRD of PAIRED gives the checker 3 (R127). A fetch from the accord area raises ACCESS
(R156), and an instruction stalls in issue while one in a unit queue still has to write or read its operands (R100, R101). -/
def Obligations.ScalarAndBranchInstructionsComplete : Prop :=
  (∀ (c : CoreId) (w : BitVec 56) (s : State),
    (rsvI w = true → (s.ready c 0x01 w = true → exec (.nop c w) s = .next (s.completed c s)) ∧ (s.ready c 0x02 w = true → exec (.waitc c w) s = .next (s.completed c s))) ∧
    (∀ v, rsvR w = true → scalarFn (fnR w) ((s.core c).getS (iRS1 w)) ((s.core c).getS (iRS2 w)) = some v →
      (s.ready c 0x04 w = true → exec (.sop c w) s = .next (s.retire c ((s.core c).setS (iRD w) v)))) ∧
    (∀ v, rsvI w = true → fnI w ≠ 1 → scalarFn (fnI w) ((s.core c).getS (iRS1 w)) (iIMM w) = some v →
      (s.ready c 0x05 w = true → exec (.sopi c w) s = .next (s.retire c ((s.core c).setS (iRD w) v)))) ∧
    (∀ v, rsvI w = true → iIMM w ≠ 0 → iIMM w ≠ 0x15 → s.special c (iIMM w).toNat = some v →
      (s.ready c 0x06 w = true → exec (.srd c w) s = .next (s.putCore c (((s.core c).setS (iRD w) v).complete (s.core c).pc)))) ∧
    (rsvI w = true → iIMM w = 0 →
      (s.ready c 0x06 w = true → exec (.srd c w) s = .next (s.putCore c
        ({ (s.core c).setS (iRD w) (BitVec.ofNat 32 (s.cycles c)) with
            cychi := BitVec.ofNat 32 (s.cycles c / 2 ^ 32) }.complete (s.core c).pc)))) ∧
    (∀ v, rsvI w = true → iIMM w = 0x15 → s.special c 0x15 = some v → s.locked c.pair = false ∨ iRD w % 32 = 0 →
      (s.ready c 0x06 w = true → exec (.srd c w) s = .next (s.putCore c (((s.core c).setS (iRD w) v).complete (s.core c).pc)))) ∧
    (rsvI w = true → iIMM w = 0x15 → c.isPrimary = true → s.locked c.pair = true → iRD w % 32 ≠ 0 →
      (s.ready c 0x06 w = true → exec (.srd c w) s = .next (s.putCore c
        ({ (s.core c).setS (iRD w) 1 with
            pairedS := ((s.core c).setS (iRD w) 1).pairedS ++ [Fin.ofNat 32 (iRD w)] }.complete (s.core c).pc)))) ∧
    (rsvR w = true → iRD w < 16 → iRS1 w < 16 →
      (s.ready c 0x08 w = true → exec (.aadd c w) s = .next (s.retire c ((s.core c).setA (iRD w)
        ((s.core c).getA (iRS1 w) + ((s.core c).getS (iRS2 w)).signExtend 48))))) ∧
    (rsvI w = true → iRD w < 16 → iRS1 w < 16 →
      (s.ready c 0x09 w = true → exec (.aaddi c w) s = .next (s.retire c ((s.core c).setA (iRD w) ((s.core c).getA (iRS1 w) + (iIMM w).signExtend 48))))) ∧
    (rsvX w = true → iRD w < 16 →
      (s.ready c 0x0A w = true → exec (.ali c w) s = .next (s.retire c ((s.core c).setA (iRD w) (w.extractLsb' 0 48))))) ∧
    (rsvR w = true → iRS1 w < 16 → fnR w = 0 →
      (s.ready c 0x0B w = true → exec (.amovs c w) s = .next (s.retire c ((s.core c).setS (iRD w) (((s.core c).getA (iRS1 w)).extractLsb' 0 32))))) ∧
    (rsvR w = true → iRS1 w < 16 → fnR w = 1 →
      (s.ready c 0x0B w = true → exec (.amovs c w) s = .next (s.retire c ((s.core c).setS (iRD w) ((((s.core c).getA (iRS1 w)).extractLsb' 32 16).setWidth 32))))) ∧
    (rsvR w = true → iRD w < 16 →
      (s.ready c 0x0C w = true → exec (.asets c w) s = .next (s.retire c ((s.core c).setA (iRD w)
        (((s.core c).getS (iRS2 w)).extractLsb' 0 16 ++ (s.core c).getS (iRS1 w))))))) ∧
  (∀ (c : CoreId) (w : BitVec 56) (s : State), rsvB w = true → tgtOk w = true →
    (condHolds (bitsOf w 45 43) ((s.core c).getS (iRD w)) ((s.core c).getS (iRS1 w)) = some true →
      (s.ready c 0x10 w = true → exec (.br c w) s = .next (s.transferred c (iTGT w)))) ∧
    (condHolds (bitsOf w 45 43) ((s.core c).getS (iRD w)) ((s.core c).getS (iRS1 w)) = some false →
      (s.ready c 0x10 w = true → exec (.br c w) s = .next (s.completed c s))) ∧
    (s.ready c 0x11 w = true → exec (.jmp c w) s = .next (s.transferred c (iTGT w))) ∧
    (s.ready c 0x12 w = true → exec (.jal c w) s = .next ((s.putCore c ((s.core c).setS (iRD w) (((s.core c).pc + 8).setWidth 32))).transferred c (iTGT w))) ∧
    (bitsOf ((s.core c).getS (iRD w)) 2 0 = 0 → bitsOf ((s.core c).getS (iRD w)) 31 20 = 0 →
      (s.ready c 0x13 w = true → exec (.jr c w) s = .next (s.transferred c (((s.core c).getS (iRD w)).setWidth 20)))) ∧
    ((s.core c).pc.toNat + 8 ≤ (iTGT w).toNat →
      (∀ l ∈ (s.core c).loops, l.lv.val ≠ bitsOf w 42 41 ∧ l.start.toNat ≤ (s.core c).pc.toNat + 8 ∧ iTGT w ≤ l.stop) →
      ((s.core c).getS (iRD w) ≠ 0 → (s.ready c 0x14 w = true → exec (.loop c w) s = .next (s.putCore c { (s.core c).leave with
          loops := ⟨Fin.ofNat 4 (bitsOf w 42 41), (s.core c).pc + 8, iTGT w, (s.core c).getS (iRD w)⟩ :: (s.core c).loops,
          pc := (s.core c).pc + 8 }))) ∧
      ((s.core c).getS (iRD w) = 0 → (s.ready c 0x14 w = true → exec (.loop c w) s = .next (s.putCore c ((s.core c).complete (iTGT w))))) ∧
      (bitsOf w 39 20 ≠ 0 → (s.ready c 0x15 w = true → exec (.loopi c w) s = .next (s.putCore c { (s.core c).leave with
          loops := ⟨Fin.ofNat 4 (bitsOf w 42 41), (s.core c).pc + 8, iTGT w, BitVec.ofNat 32 (bitsOf w 39 20)⟩ :: (s.core c).loops,
          pc := (s.core c).pc + 8 }))) ∧
      (bitsOf w 39 20 = 0 → (s.ready c 0x15 w = true → exec (.loopi c w) s = .next (s.putCore c ((s.core c).complete (iTGT w))))))) ∧
  (∀ (c : CoreId) (w : BitVec 56) (s : State), s.canIssue c = true →
    (inAccord (s.core c).pc.toNat = true →
      exec (.nop c w) s = .next (s.except c 2 (s.pcAddr c)) ∧ exec (.sop c w) s = .next (s.except c 2 (s.pcAddr c)) ∧
      exec (.br c w) s = .next (s.except c 2 (s.pcAddr c)) ∧ exec (.aadd c w) s = .next (s.except c 2 (s.pcAddr c))) ∧
    (inAccord (s.core c).pc.toNat = false →
      ((s.core c).interlocked 0x04 w = true → exec (.sop c w) s = .next (s.putCore c { s.core c with stalled := true })) ∧
      ((s.core c).interlocked 0x0B w = true → exec (.amovs c w) s = .next (s.putCore c { s.core c with stalled := true })) ∧
      ((s.core c).interlocked 0x10 w = true → exec (.br c w) s = .next (s.putCore c { s.core c with stalled := true })))) ∧
  (∀ (c : CoreId) (w : BitVec 56) (s t : State), rsvI w = true → iIMM w = 0x15 → c.isPrimary = true → s.locked c.pair = true →
    iRD w % 32 ≠ 0 → s.ready c 0x06 w = true → exec (.srd c w) s = .next t →
    (t.core c).getS (iRD w) = 1 ∧ (t.core c.pair.checker).getS (iRD w) = 3)

/-- Completion of POP, PLANE, PMOVS and PFROMS (R125, R140).
Clauses that the rules leave open follow the model's choice: log entry 40.
A predicate of `firstLanes n` has exactly its first n lanes set (R140). -/
def Obligations.PredicateInstructionsComplete : Prop :=
  (∀ (c : CoreId) (w : BitVec 56) (s : State),
    (rsvR w = true → iRD w < 8 → iRS1 w < 8 → iRS2 w < 8 →
      (fnR w = 0 → (s.ready c 0x18 w = true → exec (.pop c w) s = .next (s.retire c ((s.core c).setP (iRD w) ((s.core c).getP (iRS1 w) &&& (s.core c).getP (iRS2 w)))))) ∧
      (fnR w = 1 → (s.ready c 0x18 w = true → exec (.pop c w) s = .next (s.retire c ((s.core c).setP (iRD w) ((s.core c).getP (iRS1 w) ||| (s.core c).getP (iRS2 w)))))) ∧
      (fnR w = 2 → (s.ready c 0x18 w = true → exec (.pop c w) s = .next (s.retire c ((s.core c).setP (iRD w) ((s.core c).getP (iRS1 w) ^^^ (s.core c).getP (iRS2 w)))))) ∧
      (fnR w = 3 → (s.ready c 0x18 w = true → exec (.pop c w) s = .next (s.retire c ((s.core c).setP (iRD w) ((s.core c).getP (iRS1 w) &&& ~~~(s.core c).getP (iRS2 w)))))) ∧
      (fnR w = 4 → (s.ready c 0x18 w = true → exec (.pop c w) s = .next (s.retire c ((s.core c).setP (iRD w) (~~~(s.core c).getP (iRS1 w))))))) ∧
    (rsvI w = true → iRD w < 8 → (iIMM w).toNat ≤ 64 →
      (fnI w = 0 → (s.ready c 0x19 w = true → exec (.plane c w) s = .next (s.retire c ((s.core c).setP (iRD w) (firstLanes (iIMM w).toNat))))) ∧
      (fnI w = 1 → (s.ready c 0x19 w = true → exec (.plane c w) s = .next (s.retire c ((s.core c).setP (iRD w)
        (firstLanes (Nat.min ((s.core c).getS (iRS1 w)).toNat 64))))))) ∧
    (rsvR w = true → iRS1 w < 8 →
      (fnR w = 0 → (s.ready c 0x1A w = true → exec (.pmovs c w) s = .next (s.retire c ((s.core c).setS (iRD w) (((s.core c).getP (iRS1 w)).extractLsb' 0 32))))) ∧
      (fnR w = 1 → (s.ready c 0x1A w = true → exec (.pmovs c w) s = .next (s.retire c ((s.core c).setS (iRD w) (((s.core c).getP (iRS1 w)).extractLsb' 32 32))))) ∧
      (fnR w = 2 → (s.ready c 0x1A w = true → exec (.pmovs c w) s = .next (s.retire c ((s.core c).setS (iRD w) (BitVec.ofNat 32 (popcount ((s.core c).getP (iRS1 w))))))))) ∧
    (rsvR w = true → iRD w < 8 →
      (s.ready c 0x1B w = true → exec (.pfroms c w) s = .next (s.retire c ((s.core c).setP (iRD w) ((s.core c).getS (iRS2 w) ++ (s.core c).getS (iRS1 w))))))) ∧
  (∀ n i : Nat, n ≤ 64 → i < 64 → (firstLanes n).getLsbD i = decide (i < n))

/-- R125: S0 reads as 0, P0 as all ones, and both discard writes; any other register reads back what is written, and no other register
changes. -/
def Obligations.HardWiredRegisters : Prop :=
  ∀ (x : CoreState) (i j : Nat), i < 32 → j < 32 →
    (∀ v, (x.setS 0 v) = x) ∧ x.getS 0 = 0 ∧ (∀ v, (x.setP 0 v) = x) ∧ x.getP 0 = BitVec.allOnes 64 ∧
    (i ≠ 0 → ∀ v, (x.setS i v).getS i = v) ∧ (i ≠ j → ∀ v, (x.setS i v).getS j = x.getS j) ∧
    (i < 8 → i ≠ 0 → ∀ v, (x.setP i v).getP i = v) ∧ (i < 8 → j < 8 → i ≠ j → ∀ v, (x.setP i v).getP j = x.getP j)

/-- R129, R130, R163: an ill-formed scalar, branch or predicate word has no effect but ILLEGAL pending at the address of the
instruction; a reserved function code is ill-formed too.
Clauses that the rules leave open follow the model's choice: log entry 40. -/
def Obligations.IllFormedWordsRaiseIllegal : Prop :=
  ∀ (c : CoreId) (w : BitVec 56) (s : State),
    (rsvI w = false → (s.ready c 0x01 w = true → exec (.nop c w) s = .next (s.except c 3 (s.pcAddr c))) ∧ (s.ready c 0x02 w = true → exec (.waitc c w) s = .next (s.except c 3 (s.pcAddr c))) ∧
      (s.ready c 0x06 w = true → exec (.srd c w) s = .next (s.except c 3 (s.pcAddr c))) ∧ (s.ready c 0x05 w = true → exec (.sopi c w) s = .next (s.except c 3 (s.pcAddr c))) ∧
      (s.ready c 0x09 w = true → exec (.aaddi c w) s = .next (s.except c 3 (s.pcAddr c))) ∧ (s.ready c 0x19 w = true → exec (.plane c w) s = .next (s.except c 3 (s.pcAddr c)))) ∧
    (rsvR w = false → (s.ready c 0x04 w = true → exec (.sop c w) s = .next (s.except c 3 (s.pcAddr c))) ∧ (s.ready c 0x08 w = true → exec (.aadd c w) s = .next (s.except c 3 (s.pcAddr c))) ∧
      (s.ready c 0x18 w = true → exec (.pop c w) s = .next (s.except c 3 (s.pcAddr c))) ∧ (s.ready c 0x0C w = true → exec (.asets c w) s = .next (s.except c 3 (s.pcAddr c)))) ∧
    (rsvB w = false ∨ tgtOk w = false → (s.ready c 0x10 w = true → exec (.br c w) s = .next (s.except c 3 (s.pcAddr c))) ∧
      (s.ready c 0x11 w = true → exec (.jmp c w) s = .next (s.except c 3 (s.pcAddr c))) ∧ (s.ready c 0x14 w = true → exec (.loop c w) s = .next (s.except c 3 (s.pcAddr c)))) ∧
    (fnR w = 15 → (s.ready c 0x04 w = true → exec (.sop c w) s = .next (s.except c 3 (s.pcAddr c)))) ∧
    (s.special c (iIMM w).toNat = none → (s.ready c 0x06 w = true → exec (.srd c w) s = .next (s.except c 3 (s.pcAddr c))))

/-! ### Benvor: loads, stores and atomics -/

/-- Completion of LDB, LDBU, LDH, LDHU, LDW, LDA and VLD (R141, R142): from an aligned range of the own stores the bytes of a checked read
go to the destination, and a clean range reads as it is stored; an uncorrectable word raises LSECC_U at its address (R197), and a load
waits for a queued instruction that still has to write the bytes (R132).
Completion of STB, STH, STW, STA and VST (R141, R142): the low bytes of the register, or the lanes whose predicate bit is 1, at the
effective address; a store waits for queued instructions that still touch the bytes (R132).
Clauses that the rules leave open follow the model's choice: log entry 7. -/
def Obligations.LoadsAndStoresComplete : Prop :=
  (∀ (c : CoreId) (w : BitVec 56) (s t : State) (n : Nat) (bs : List Byte), rsvM w = true → iRS1 w < 16 →
    ownRange c (s.ea c w) n = true → (s.core c).unitWrites (s.ea c w) n = false → s.coreRead (s.ea c w) n = (t, bs, none) →
    (n = 1 →
      (s.ready c 0x20 w = true →
        exec (.ldb c w) s = .next (s.completed c (t.putCore c ((t.core c).setS (iRD w) (BitVec.ofInt 32 (sval 8 (leNat bs))))))) ∧
      (s.ready c 0x21 w = true →
        exec (.ldbu c w) s = .next (s.completed c (t.putCore c ((t.core c).setS (iRD w) (BitVec.ofNat 32 (leNat bs))))))) ∧
    (n = 2 → s.ea c w % 2 = 0 →
      (s.ready c 0x22 w = true →
        exec (.ldh c w) s = .next (s.completed c (t.putCore c ((t.core c).setS (iRD w) (BitVec.ofInt 32 (sval 16 (leNat bs))))))) ∧
      (s.ready c 0x23 w = true →
        exec (.ldhu c w) s = .next (s.completed c (t.putCore c ((t.core c).setS (iRD w) (BitVec.ofNat 32 (leNat bs))))))) ∧
    (n = 4 → s.ea c w % 4 = 0 → s.ready c 0x24 w = true →
      exec (.ldw c w) s = .next (s.completed c (t.putCore c ((t.core c).setS (iRD w) (BitVec.ofNat 32 (leNat bs)))))) ∧
    (n = 8 → s.ea c w % 8 = 0 → iRD w < 16 → s.ready c 0x25 w = true →
      exec (.lda c w) s = .next (s.completed c (t.putCore c ((t.core c).setA (iRD w) (BitVec.ofNat 48 (leNat bs)))))) ∧
    (n = 256 → s.ea c w % 64 = 0 → s.ready c 0x2C w = true →
      exec (.vld c w) s = .next (s.completed c (t.putCore c ((t.core c).setV (iRD w) (BitVec.ofNat 2048 (leNat bs))))))) ∧
  (∀ (c : CoreId) (w : BitVec 56) (s t : State) (bs : List Byte) (g : Nat), rsvM w = true → iRS1 w < 16 → s.ea c w % 4 = 0 →
    ownRange c (s.ea c w) 4 = true → s.ready c 0x24 w = true →
    ((s.core c).unitWrites (s.ea c w) 4 = true → exec (.ldw c w) s = .next (s.putCore c { s.core c with stalled := true })) ∧
    ((s.core c).unitWrites (s.ea c w) 4 = false → s.coreRead (s.ea c w) 4 = (t, bs, some g) →
      exec (.ldw c w) s = .next (t.except c 1 g))) ∧
  (∀ (s : State) (a n : Nat), s.clean a n → s.coreRead a n = (s, memRead s.mem a n, none)) ∧
  (∀ (c : CoreId) (w : BitVec 56) (s : State), rsvM w = true → iRS1 w < 16 →
    (s.mayStore c (s.ea c w) 1 1 →
      (s.ready c 0x28 w = true → exec (.stb c w) s = .next (s.completed c (s.store (s.ea c w) (leBytes 1 ((s.core c).getS (iRD w)).toNat))))) ∧
    (s.mayStore c (s.ea c w) 2 2 →
      (s.ready c 0x29 w = true → exec (.sth c w) s = .next (s.completed c (s.store (s.ea c w) (leBytes 2 ((s.core c).getS (iRD w)).toNat))))) ∧
    (s.mayStore c (s.ea c w) 4 4 →
      (s.ready c 0x2A w = true → exec (.stw c w) s = .next (s.completed c (s.store (s.ea c w) (leBytes 4 ((s.core c).getS (iRD w)).toNat))))) ∧
    (iRD w < 16 → s.mayStore c (s.ea c w) 8 8 →
      (s.ready c 0x2B w = true → exec (.sta c w) s = .next (s.completed c (s.store (s.ea c w) (leBytes 8 ((s.core c).getA (iRD w)).toNat))))) ∧
    (iRS2 w < 8 → s.mayStore c (s.ea c w) 64 256 →
      (s.ready c 0x2D w = true → exec (.vst c w) s = .next (s.completed c
        (s.storeLanes (s.ea c w) ((s.core c).getP (iRS2 w)) ((s.core c).getV (iRD w))))))) ∧
  (∀ (c : CoreId) (w : BitVec 56) (s : State), rsvM w = true → iRS1 w < 16 → s.ea c w % 4 = 0 → ownRange c (s.ea c w) 4 = true →
    ¬(inOwnLs c (s.ea c w) 4 = true ∧ inAccord (s.ea c w - lsBase c + 3) = true) → s.inUse c (s.ea c w) 4 = true →
    s.ready c 0x2A w = true → exec (.stw c w) s = .next (s.putCore c { s.core c with stalled := true }))

/-- Completion of AMOADD, AMOSWAP and AMOCAS on a word of the own cluster store that is no declared lock word (R141 to R143): the old
word goes to S[RD]; AMOCAS stores only when the old word equals S[RD] before the instruction. -/
def Obligations.AtomicsComplete : Prop :=
  ∀ (c : CoreId) (w : BitVec 56) (s : State), rsvM w = true → iRS1 w < 16 →
    s.ea c w % 4 = 0 → inOwnCs c (s.ea c w) 4 = true → s.clean (s.ea c w) 4 →
    (∀ l ∈ s.flt.lockWords, l.1 ≠ s.ea c w) →
    (s.ready c 0x30 w = true → exec (.amoadd c w) s = .next (s.completed c ((s.store32 (s.ea c w) (s.load32 (s.ea c w) + (s.core c).getS (iRS2 w))).putCore c
      ((s.core c).setS (iRD w) (s.load32 (s.ea c w)))))) ∧
    (s.ready c 0x31 w = true → exec (.amoswap c w) s = .next (s.completed c ((s.store32 (s.ea c w) ((s.core c).getS (iRS2 w))).putCore c
      ((s.core c).setS (iRD w) (s.load32 (s.ea c w)))))) ∧
    (s.load32 (s.ea c w) = (s.core c).getS (iRD w) →
      (s.ready c 0x32 w = true → exec (.amocas c w) s = .next (s.completed c ((s.store32 (s.ea c w) ((s.core c).getS (iRS2 w))).putCore c
        ((s.core c).setS (iRD w) (s.load32 (s.ea c w))))))) ∧
    (s.load32 (s.ea c w) ≠ (s.core c).getS (iRD w) →
      (s.ready c 0x32 w = true → exec (.amocas c w) s = .next (s.retire c ((s.core c).setS (iRD w) (s.load32 (s.ea c w))))))

/-- R142: a load, store or atomic that is misaligned, or outside the own stores (an atomic: outside the own cluster store), or a store into the accord area
(R156), has no
effect but ACCESS pending at the effective address. -/
def Obligations.BadAddressesRaiseAccess : Prop :=
  ∀ (c : CoreId) (w : BitVec 56) (s : State), rsvM w = true → iRS1 w < 16 →
    (ownRange c (s.ea c w) 1 = false →
      (s.ready c 0x20 w = true → exec (.ldb c w) s = .next (s.except c 2 (s.ea c w))) ∧
      (s.ready c 0x21 w = true → exec (.ldbu c w) s = .next (s.except c 2 (s.ea c w))) ∧
      (s.ready c 0x28 w = true → exec (.stb c w) s = .next (s.except c 2 (s.ea c w)))) ∧
    (s.ea c w % 2 ≠ 0 ∨ ownRange c (s.ea c w) 2 = false →
      (s.ready c 0x22 w = true → exec (.ldh c w) s = .next (s.except c 2 (s.ea c w))) ∧
      (s.ready c 0x23 w = true → exec (.ldhu c w) s = .next (s.except c 2 (s.ea c w))) ∧
      (s.ready c 0x29 w = true → exec (.sth c w) s = .next (s.except c 2 (s.ea c w)))) ∧
    (s.ea c w % 4 ≠ 0 ∨ ownRange c (s.ea c w) 4 = false →
      (s.ready c 0x24 w = true → exec (.ldw c w) s = .next (s.except c 2 (s.ea c w))) ∧
      (s.ready c 0x2A w = true → exec (.stw c w) s = .next (s.except c 2 (s.ea c w)))) ∧
    (s.ea c w % 8 ≠ 0 ∨ ownRange c (s.ea c w) 8 = false → iRD w < 16 →
      (s.ready c 0x25 w = true → exec (.lda c w) s = .next (s.except c 2 (s.ea c w))) ∧
      (s.ready c 0x2B w = true → exec (.sta c w) s = .next (s.except c 2 (s.ea c w)))) ∧
    (s.ea c w % 64 ≠ 0 ∨ ownRange c (s.ea c w) 256 = false →
      (s.ready c 0x2C w = true → exec (.vld c w) s = .next (s.except c 2 (s.ea c w))) ∧
      (iRS2 w < 8 → s.ready c 0x2D w = true → exec (.vst c w) s = .next (s.except c 2 (s.ea c w)))) ∧
    (inOwnLs c (s.ea c w) 4 = true → inAccord (s.ea c w - lsBase c + 3) = true → s.ready c 0x2A w = true →
      exec (.stw c w) s = .next (s.except c 2 (s.ea c w))) ∧
    (s.ea c w % 4 ≠ 0 ∨ inOwnCs c (s.ea c w) 4 = false →
      (s.ready c 0x30 w = true → exec (.amoadd c w) s = .next (s.except c 2 (s.ea c w))) ∧
      (s.ready c 0x31 w = true → exec (.amoswap c w) s = .next (s.except c 2 (s.ea c w))) ∧
      (s.ready c 0x32 w = true → exec (.amocas c w) s = .next (s.except c 2 (s.ea c w))))

/-- Frame of the storing forms STB, STH, STW, STA, VST, AMOADD, AMOSWAP and AMOCAS: every byte outside the stored bytes reads as before. In lockstep the checker's
local store takes the bytes too (R114).
Clauses that the rules leave open follow the model's choice: log entry 7. -/
def Obligations.StoresTouchOnlyTheirBytes : Prop :=
  ∀ (c : CoreId) (w : BitVec 56) (s t : State) (i : Instr) (n : Nat),
    (i = .stb c w ∧ n = 1 ∨ i = .sth c w ∧ n = 2 ∨ i = .stw c w ∧ n = 4 ∨ i = .sta c w ∧ n = 8 ∨ i = .vst c w ∧ n = 256 ∨
      i ∈ [.amoadd c w, .amoswap c w, .amocas c w] ∧ n = 4) → exec i s = .next t →
    ∀ a, (a < s.ea c w ∨ s.ea c w + n ≤ a) →
      (c.isPrimary = true → s.locked c.pair = true → a < s.ea c w + 0x100000 ∨ s.ea c w + 0x100000 + n ≤ a) →
      memGet t.mem a = memGet s.mem a

/-- Frame of the Benvor instructions that store nothing: all of memory, every register block but TC_, and every other core but the checker of a
pair in lockstep, are as before. PWAIT and SIGPOST, BAR and ACCORD, which act beyond the core, are not among them.
Clauses that the rules leave open follow the model's choice: log entry 7. -/
def Obligations.RegisterInstructionsTouchOnlyTheirCore : Prop :=
  ∀ (c d : CoreId) (w : BitVec 56) (s t : State) (i : Instr),
    i ∈ [.nop c w, .waitc c w, .sop c w, .sopi c w, .srd c w, .aadd c w, .aaddi c w, .ali c w, .amovs c w, .asets c w, .br c w, .jmp c w,
      .jal c w, .jr c w, .loop c w, .loopi c w, .pop c w, .plane c w, .pmovs c w, .pfroms c w, .viop c w, .vsop c w, .vfop c w, .vfma c w,
      .vfds c w, .vfapx c w, .vcmp c w, .vmov c w, .vcvt c w, .vreq c w, .vred c w, .vmxqQuantise c w, .vmxqDequantise c w, .aexp2 c w, .aopen c w, .astep c w, .astate c w,
      .vapp c w, .amv c w, .amvw c w, .mma c w, .avac c w, .dmago c w, .dmastop c w, .pwb c w, .fence c w] →
    exec i s = .next t → d ≠ c → d ≠ c.pair.checker →
    t.mem = s.mem ∧ t.core d = s.core d ∧ t.sched = s.sched ∧ t.time = s.time ∧ t.fab = s.fab ∧ t.flt = s.flt ∧ t.on = s.on ∧
      (∀ k : RegKey, k.blk ≠ .tc → t.regs.get? k = s.regs.get? k)

/-! ### Benvor: DMA, signals, barriers, fences, phases, ACCORD and END -/

/-- Completion of DMAGO, DMASTOP, SIGWAIT, SIGPOST and BAR (R144 to R150): a chain joins its channel's queue of depth 4, and with the queue full
DMAGO stalls in issue; a channel is asked to stop; a wait that is satisfied completes, and otherwise waits; a post adds to a counter of an
enabled core; an arrival that is not the last waits at its slot, the last one releases every participant with 0.
Completion of FENCE, PWB, PWAIT, ACCORD and END (R151 to R158): FENCE 1 at once, 2 and 3 with the unit queues empty; PWB takes the
failure count once every posted write whose descriptor had completed when it issued has its outcome; PWAIT of a phase already passed gives
1 and a late event, otherwise it waits; ACCORD begins with the unit queues empty; END stops the core, carries its failures, and records the
end phase. Until then each stalls in issue (R101).
Clauses that the rules leave open follow the model's choice: log entries 8 and 45. -/
def Obligations.SynchronisationInstructionsComplete : Prop :=
  (∀ (c : CoreId) (w : BitVec 56) (s : State), rsvS w = true →
    (∀ v, v = (if iF w then bitsOf ((s.core c).getS (iRS1 w)) 19 0 else iVAL w) → v % 64 = 0 →
      (Chan.get (s.core c) (iCH w)).queue.length < 4 →
      (s.ready c 0x38 w = true → exec (.dmago c w) s = .next (s.retire c ((s.core c).modChan (iCH w) (fun h =>
        { h with queue := h.queue ++ [BitVec.ofNat 20 v], st := if h.st = .stopped then .idle else h.st }))))) ∧
    (s.ready c 0x39 w = true → exec (.dmastop c w) s = .next (s.retire c ((s.core c).modChan (iCH w) (fun h => h.stop true)))) ∧
    (∀ n : BitVec 16, n = (if iF w then ((s.core c).getS (iRS1 w)).setWidth 16 else BitVec.ofNat 16 (iVAL w)) → bitsOf w 19 16 = 0 →
      (n ≤ s.sig c (iSID w) → iC w = false → (s.ready c 0x3A w = true → exec (.sigwait c w) s = .next (s.completed c s))) ∧
      (n ≤ s.sig c (iSID w) → iC w = true →
        (s.ready c 0x3A w = true → exec (.sigwait c w) s = .next (s.completed c (s.setSig c (iSID w) (s.sig c (iSID w) - n))))) ∧
      (s.sig c (iSID w) < n → (s.ready c 0x3A w = true → exec (.sigwait c w) s = .next (s.putCore c ((s.core c).waits (.sig (iSID w) n (iC w))))))) ∧
    (∀ n : BitVec 16, n = (if iF w then ((s.core c).getS (iRS1 w)).setWidth 16 else BitVec.ofNat 16 (iVAL w)) →
      s.coreEnabled ⟨c.cl, iCH w⟩ = true → (s.ready c 0x3B w = true → exec (.sigpost c w) s = .next (s.completed c (s.sigAdd ⟨c.cl, iCH w⟩ (iSID w) n)))) ∧
    (bitsOf w 19 4 = 0 → (iMASK w).getLsbD c.k = true → s.maskEnabled c.cl (iMASK w) = true →
      s.bars.get (c.cl, Fin.ofNat 16 (iVAL w)) none = none →
      (iMASK w ≠ 1#8 <<< c.k.val → (s.ready c 0x3C w = true → exec (.bar c w) s = .next
        (({ s with bars := s.bars.set (c.cl, Fin.ofNat 16 (iVAL w)) (some ⟨iMASK w, 1#8 <<< c.k.val⟩) }).putCore c
          ((s.core c).waits (.bar (Fin.ofNat 16 (iVAL w)) (Fin.ofNat 32 (iRD w))))))) ∧
      (iMASK w = 1#8 <<< c.k.val → (s.ready c 0x3C w = true → exec (.bar c w) s = .next
        ((({ s with bars := s.bars.set (c.cl, Fin.ofNat 16 (iVAL w)) (some ⟨iMASK w, 1#8 <<< c.k.val⟩) }).putCore c
          ((s.core c).waits (.bar (Fin.ofNat 16 (iVAL w)) (Fin.ofNat 32 (iRD w))))).barRelease c.cl (Fin.ofNat 16 (iVAL w)) 0)))) ∧
    (∀ b : BarSlot, bitsOf w 19 4 = 0 → (iMASK w).getLsbD c.k = true → s.maskEnabled c.cl (iMASK w) = true →
      s.bars.get (c.cl, Fin.ofNat 16 (iVAL w)) none = some b → b.mask = iMASK w → b.arrived ||| (1#8 <<< c.k.val) = b.mask →
      (s.ready c 0x3C w = true → exec (.bar c w) s = .next
        ((({ s with bars := s.bars.set (c.cl, Fin.ofNat 16 (iVAL w)) (some { b with arrived := b.mask }) }).putCore c
          ((s.core c).waits (.bar (Fin.ofNat 16 (iVAL w)) (Fin.ofNat 32 (iRD w))))).barRelease c.cl (Fin.ofNat 16 (iVAL w)) 0)))) ∧
  (∀ (c : CoreId) (w : BitVec 56) (s : State), rsvS w = true →
    (bitsOf w 19 2 = 0 → bitsOf w 1 0 = 1 ∨ (2 ≤ bitsOf w 1 0 ∧ (s.core c).unitsIdle = true) →
      (s.ready c 0x3D w = true → exec (.fence c w) s = .next (s.completed c s))) ∧
    (bitsOf w 19 2 = 0 → 2 ≤ bitsOf w 1 0 → (s.core c).unitsIdle = false → s.ready c 0x3D w = true →
      exec (.fence c w) s = .next (s.putCore c { s.core c with stalled := true })) ∧
    ((∀ t ∈ s.postedOf c, t.id ∉ s.covered c) → s.ready c 0x3E w = true →
      exec (.pwb c w) s = .next (s.retire c ({ s.core c with failCount := 0 }.setS (iRD w) (s.core c).failCount))) ∧
    ((∃ t ∈ s.postedOf c, t.id ∈ s.covered c) → s.ready c 0x3E w = true →
      exec (.pwb c w) s = .next ((s.putCore c { s.core c with pwb := some (s.covered c) }).putCore c
        { (s.putCore c { s.core c with pwb := some (s.covered c) }).core c with stalled := true })) ∧
    (∀ t fr, t = (if iF w then bitsOf ((s.core c).getS (iRS1 w)) 16 0 else bitsOf w 16 0) → t ≤ 0x13FFF →
      (if iF w then bitsOf ((s.core c).getS (iRS1 w)) 31 17 = 0 else bitsOf w 19 17 = 0) →
      fr = (if t < 0x10000 then (s.core c).jobFrame.get (iWH w) 0 else (s.core c).jobFrame.get (iWH w) 0 + 1) →
      (s.wheel (iWH w)).going = true →
      ((s.wheel (iWH w)).passed fr (t % 0x10000) = true →
        (s.ready c 0x3F w = true → exec (.pwait c w) s = .next (s.completed c ((s.lateEvent c).putCore c ((s.core c).setS (iRD w) 1))))) ∧
      ((s.wheel (iWH w)).passed fr (t % 0x10000) = false →
        (s.ready c 0x3F w = true → exec (.pwait c w) s = .next (s.putCore c
          ((s.core c).waits (.phase (iWH w) fr (BitVec.ofNat 16 t) (Fin.ofNat 32 (iRD w)))))))) ∧
    ((s.core c).unitsIdle = true →
      (s.ready c 0x40 w = true → exec (.accord c w) s = .next ((s.putCore c ((s.core c).waits (.accord (Fin.ofNat 32 (iRD w))))).accordBegin c))) ∧
    ((s.core c).unitsIdle = true → (s.core c).chansSettled = true → s.postedOf c = [] →
      (s.ready c 0x41 w = true → exec (.endProgram c w) s = .next ((s.putCore c { (s.core c).leave with
        run := false, ended := true, endLt := s.now, endFails := (s.core c).failCount, failCount := 0,
        pc := (s.reg .tc c.inst Reg.TC_ENTRY).setWidth 20 }).setReg .cad c.cl.inst (Reg.CAD_ENDPHk c.k)
          (((s.wheel (s.core c).jobWheel).encode ((s.core c).jobFrame.get (s.core c).jobWheel 0)).setWidth 32)))) ∧
    ((s.core c).unitsIdle = false → (s.ready c 0x40 w = true → exec (.accord c w) s = .next (s.putCore c { s.core c with stalled := true })) ∧
      (s.ready c 0x41 w = true → exec (.endProgram c w) s = .next (s.putCore c { s.core c with stalled := true }))) ∧
    ((s.core c).chansSettled = false ∨ s.postedOf c ≠ [] → s.ready c 0x41 w = true →
      exec (.endProgram c w) s = .next (s.putCore c { s.core c with stalled := true }))) ∧
  (∀ (c : CoreId) (w : BitVec 56) (s : State), s.ready c 0x38 w = true → rsvS w = true → iF w = false → iVAL w % 64 = 0 →
    4 ≤ (Chan.get (s.core c) (iCH w)).queue.length → exec (.dmago c w) s = .next (s.putCore c { s.core c with stalled := true }))

/-- R146: a SIGWAIT that waits goes on when its counter reaches the count: after a post of `n` the counter holds the sum modulo 2^16, and
a core that waits for no more than that sum without consuming completes.
R148: when every core that a mask names has arrived, the release leaves the slot idle and no core of the cluster waiting at it, but
the checker of a pair in lockstep, which follows its primary.
Clauses that the rules leave open follow the model's choice: log entry 7. -/
def Obligations.SignalsAndBarriersRelease : Prop :=
  (∀ (c : CoreId) (s : State) (sid : Fin 32) (n m : BitVec 16),
    ((s.core c).wait = .none → (s.sigAdd c sid n).sig c sid = s.sig c sid + n) ∧
    ((s.core c).wait = .sig sid m false → m ≤ s.sig c sid + n → ((s.sigAdd c sid n).core c).wait = .none) ∧
    ((s.core c).wait = .sig sid m false → s.sig c sid + n < m → ((s.sigAdd c sid n).core c).wait = .sig sid m false)) ∧
  (∀ (s : State) (cl : ClusterId) (slot : Fin 16) (v : Word) (k : Fin 8) (rd : Fin 32),
    (s.barRelease cl slot v).bars.get (cl, slot) none = none ∧
    (s.isChecker ⟨cl, k⟩ = false → (((s.barRelease cl slot v).core ⟨cl, k⟩).wait ≠ .bar slot rd)))

/-! ### Benvor: tiles, matrix-multiplies, vectors and attention -/

/-- Completion of WLD, MMA, AVAC, AMV and AMVW (R90, R96, R166, R169 to R173, R189): a tile of clean lines of the own local store, or of the
vial, becomes the weight buffer; a matrix-multiply whose rows lie in the own local store joins the stream queue; rows of a bank with a
mode tag move to vector registers, and a vector register moves to a row and sets the tag. An instruction of a unit that has to wait joins
the unit's queue of depth 4, and with the queue full it stalls in issue (R101, R160).
Completion of STREAM_START (R90, R94, R119, R130, R169): the head leaves the queue, an OW instruction sets the mode tag of its bank, and its rows
stream from its first row on; without a usable tile, ACCMODE or SPMETA is pending at the instruction, after one that is pending already; then
every queued instruction that nothing holds up starts.
Clauses that the rules leave open follow the model's choice: log entries 42, 99, 100 and 101. -/
def Obligations.TensorInstructionsComplete : Prop :=
  (∀ (c : CoreId) (w : BitVec 56) (s : State),
    (zf w 50 46 = true → zf w 35 29 = true → zf w 21 21 = true → zf w 19 17 = true → zf w 4 0 = true → (tTag w).valid = true →
      tXA w < 16 → tXB w < 16 → tXC w < 16 →
      (bitOf w 7 = true → zf w 28 26 = true → (tTag w).sp = false → zf w 55 51 = true → zf w 45 36 = true → (tTag w).wf.val = 0 →
        (s.starts c 0x88 w = true → exec (.wld c w) s = .next (s.retire c { s.core c with
          wb := (s.core c).wb.set (tWB w)
            ⟨some (tTag w), false, (s.core c).vialTile (tTag w) (bitsOf w 25 22) (bitOf w 6) (bitOf w 5), [], []⟩ }))) ∧
      (bitOf w 7 = false →
        badPart c (tileParts (tTag w) ((s.core c).getA (tXA w)) ((s.core c).getA (tXB w)) ((s.core c).getA (tXC w))) = none →
        (∀ p ∈ tileParts (tTag w) ((s.core c).getA (tXA w)) ((s.core c).getA (tXB w)) ((s.core c).getA (tXC w)),
          (s.core c).unitWrites p.1.toNat (64 * p.2) = false) →
        s.clean ((s.core c).getA (tXA w)).toNat (64 * (tTag w).dataLines) →
        s.clean ((s.core c).getA (tXB w)).toNat (64 * (tTag w).scaleLines) →
        s.clean ((s.core c).getA (tXC w)).toNat (64 * (tTag w).metaLines) →
        (s.starts c 0x88 w = true → exec (.wld c w) s = .next (s.retire c { s.core c with
          wb := (s.core c).wb.set (tWB w) ⟨some (tTag w),
            (tTag w).sp && badMeta (tTag w) (linesNat (natLines (s.loadNat ((s.core c).getA (tXC w)).toNat (64 * (tTag w).metaLines)) (tTag w).metaLines)),
            natLines (s.loadNat ((s.core c).getA (tXA w)).toNat (64 * (tTag w).dataLines)) (tTag w).dataLines,
            natLines (s.loadNat ((s.core c).getA (tXB w)).toNat (64 * (tTag w).scaleLines)) (tTag w).scaleLines,
            natLines (s.loadNat ((s.core c).getA (tXC w)).toNat (64 * (tTag w).metaLines)) (tTag w).metaLines⟩ })))) ∧
    (∀ (t : WTag) (o : StreamOp), zf w 40 36 = true → zf w 16 0 = true → tXA w < 16 → tXB w < 16 → tROW w + (tCNT w + 1) ≤ 128 →
      o = ⟨o.avac, (s.core c).pc, (s.core c).getA (tXA w), (s.core c).getS (tXS w), (s.core c).getA (tXB w), tCNT w + 1, tROW w, tBK w,
        tWB w, tOW w, tCV w⟩ →
      (s.core c).tagAt (tWB w) = some t → bitsOf o.stride 5 0 = 0 →
      (∀ i < tCNT w + 1, inOwnLs c (o.rowAddr i).toNat (64 * t.rowLines) = true) →
      (isMX t.af = true → inOwnLs c o.xb.toNat ((tCNT w + 1) * (t.kt / 32)) = true) → (s.core c).streamQ.length < 4 →
      (∀ i < tCNT w + 1, (s.core c).unitWrites (o.rowAddr i).toNat (64 * t.rowLines) = false) →
      (o.avac = false → zf w 18 17 = true →
        (s.ready c 0x80 w = true → exec (.mma c w) s = .next (s.retire c { s.core c with streamQ := (s.core c).streamQ ++ [o] }))) ∧
      (o.avac = true → tCNT w < 64 →
        (s.ready c 0xC3 w = true → exec (.avac c w) s = .next (s.retire c { s.core c with streamQ := (s.core c).streamQ ++ [o] })))) ∧
    (∀ bk : Fin 2, bk = Fin.ofNat 2 (bitsOf w 7 7) → zf w 11 8 = true →
      (vUnused w true false false false false false false false false false true true = true → vVD w + (vNM w + 1) ≤ 32 →
        bitsOf w 6 0 + (vNM w + 1) ≤ 128 →
        (s.core c).accMode.get bk .none ≠ .none →
        (s.starts c 0x90 w = true → exec (.amv c w) s = .next (s.retire c (upTo (vNM w + 1)
          (fun i x => x.setV (vVD w + i) (x.acc.get (bk, Fin.ofNat 128 (bitsOf w 6 0 + i)) 0)) (s.core c))))) ∧
      (∀ m : AccMode, vUnused w false true false false false false false true false false false true = true →
        (vFN w = 0 ∧ m = .int ∨ vFN w = 1 ∧ m = .fp) →
        ((s.core c).accMode.get bk .none = .none ∨ (s.core c).accMode.get bk .none = m) →
        (s.starts c 0x91 w = true → exec (.amvw c w) s = .next (s.retire c { s.core c with
          accMode := (s.core c).accMode.set bk m,
          acc := (s.core c).acc.set (bk, Fin.ofNat 128 (bitsOf w 6 0)) ((s.core c).getV (vVA w)) }))))) ∧
  (∀ (c : CoreId) (w : BitVec 56) (s : State) (q : UOp),
    q = ⟨q.unit, q.op, w, (s.core c).pc, (s.core c).s, (s.core c).a, (s.core c).streamQ.length⟩ →
    unitOf q.op = some q.unit → s.ready c q.op w = true →
    (s.core c).unitQ.any (fun e => e.unit == q.unit) = true ∨ unitBlocked q.op w (s.core c).streamQ = true →
    (q.op = 0x90 → zf w 11 8 = true → vUnused w true false false false false false false false false false true true = true →
      vVD w + (vNM w + 1) ≤ 32 → bitsOf w 6 0 + (vNM w + 1) ≤ 128 →
      (((s.core c).unitQ.filter (fun e => e.unit == q.unit)).length < 4 →
        exec (.amv c w) s = .next (s.retire c { s.core c with unitQ := (s.core c).unitQ ++ [q] })) ∧
      (4 ≤ ((s.core c).unitQ.filter (fun e => e.unit == q.unit)).length →
        exec (.amv c w) s = .next (s.putCore c { s.core c with stalled := true }))) ∧
    (q.op = 0xA0 → vUnused w true true true false true true false true false false false false = true → vFN w < 16 →
      (((s.core c).unitQ.filter (fun e => e.unit == q.unit)).length < 4 →
        exec (.viop c w) s = .next (s.retire c { s.core c with unitQ := (s.core c).unitQ ++ [q] })) ∧
      (4 ≤ ((s.core c).unitQ.filter (fun e => e.unit == q.unit)).length →
        exec (.viop c w) s = .next (s.putCore c { s.core c with stalled := true }))) ∧
    (q.op = 0xC0 → vUnused w false false false false false false false true false false false true = true → bitsOf w 6 0 + vFN w ≤ 127 →
      ((s.core c).unitQ.filter (fun e => e.unit == q.unit)).length < 4 →
        exec (.aopen c w) s = .next (s.retire c { s.core c with unitQ := (s.core c).unitQ ++ [q] }))) ∧
  (∀ (c : CoreId) (s : State), s.coreEnabled c = true → s.domOn (domCluster c.cl) = true → s.isChecker c = false →
    exec (.streamStart c) s = .next (State.drainUnits c ((s.streamHead c).core c).unitQ.length (s.streamHead c))) ∧
  (∀ (c : CoreId) (s : State) (n : Nat), (s.core c).unitQ.length ≤ n →
    nextUOp ((State.drainUnits c n s).core c).streamQ [] ((State.drainUnits c n s).core c).unitQ = none) ∧
  (∀ (c : CoreId) (s h s' : State) (o : StreamOp) (rest : List StreamOp) (t : WTag) (b : WBuf) (g : Nat),
    (s.core c).streamQ = o :: rest → b = (s.core c).wb.get o.wb WBuf.empty →
    h = s.putCore c { s.core c with streamQ := rest, unitQ := (s.core c).unitQ.map (fun q => { q with ahead := q.ahead - 1 }) } →
    (b.tag = some t → b.bad = false → (o.avac = true → t.mode = .fp) →
      (o.ow = true →
        ((h.putCore c { h.core c with accMode := (h.core c).accMode.set o.bk t.mode }).streamRows c t b o o.m 0 [] = (s', none) →
          s.streamHead c = s') ∧
        ((h.putCore c { h.core c with accMode := (h.core c).accMode.set o.bk t.mode }).streamRows c t b o o.m 0 [] = (s', some g) →
          s.streamHead c = s'.exceptQueued c 1 g)) ∧
      (o.ow = false → (s.core c).accMode.get o.bk .none = t.mode →
        (h.streamRows c t b o o.m 0 [] = (s', none) → s.streamHead c = s') ∧
        (h.streamRows c t b o o.m 0 [] = (s', some g) → s.streamHead c = s'.exceptQueued c 1 g))) ∧
    (b.tag = some t → b.bad = true → s.streamHead c = h.exceptQueued c 4 (lsBase c + o.pc.toNat)) ∧
    (b.tag = some t → b.bad = false → (o.avac = true ∧ t.mode ≠ .fp) ∨ (o.ow = false ∧ (s.core c).accMode.get o.bk .none ≠ t.mode) →
      s.streamHead c = h.exceptQueued c 5 (lsBase c + o.pc.toNat)) ∧
    (b.tag = none → s.streamHead c = h.exceptQueued c 5 (lsBase c + o.pc.toNat))) ∧
  (∀ (c : CoreId) (s : State) (bit a : Nat),
    ((s.core c).pend = none → ((s.exceptQueued c bit a).core c).pend = some ⟨bit, BitVec.ofNat 48 a⟩) ∧
    (∀ p, (s.core c).pend = some p → ((s.exceptQueued c bit a).core c).pend = some p ∧
      ((s.exceptQueued c bit a).core c).more = (s.core c).more ++ [⟨bit, BitVec.ofNat 48 a⟩]))

/-- Completion of VIOP, VSOP, VFOP, VFMA, VFDS, VFAPX, VCMP, VMOV, VRED and AEXP2 (R174 to R176, R181, R187): the lane function where
the predicate bit is 1, its flags ORed into TC_FLAGS.
Completion of VCVT, VREQ and VMXQ (R75 to R79, R177 to R180): packing of N registers from lane 0 of the first up, unpacking of 64
elements, requantisation, blocks of 32 with a scale byte. The scale bytes 4 to 7 that VMXQ FN 1 reads for IMM 2 and 3 are free
values (log entry 13).
Clauses that the rules leave open follow the model's choice: log entries 40, 43 and 102. -/
def Obligations.VectorInstructionsComplete : Prop :=
  (∀ (c : CoreId) (w : BitVec 56) (s : State),
    (∀ (f : Nat → Word × AFlags) (i : Instr) (t : State),
      t = (s.putCore c ((s.core c).setV (vVD w) (predLanes ((s.core c).getP (vPG w)) ((s.core c).getV (vVD w)) f).1)).orFlags c
        (predLanes ((s.core c).getP (vPG w)) ((s.core c).getV (vVD w)) f).2 →
      ((i = .viop c w ∧ s.starts c 0xA0 w = true ∧ vUnused w true true true false true true false true false false false false = true ∧ vFN w < 16 ∧
          (∀ k, viopFn (vFN w) (vRM w) (lane ((s.core c).getV (vVA w)) k) (lane ((s.core c).getV (vVB w)) k) = some (f k))) ∨
       (i = .vsop c w ∧ s.starts c 0xA1 w = true ∧ vUnused w true true false true true true false true false false false false = true ∧ vFN w < 16 ∧
          (∀ k, viopFn (vFN w) (vRM w) (lane ((s.core c).getV (vVA w)) k) ((s.core c).getS (vVC w)) = some (f k))) ∨
       (i = .vfop c w ∧ s.starts c 0xA2 w = true ∧ vUnused w true true true false true true false true false false false false = true ∧ vFN w ≤ 6 ∧
          (∀ k, f k = vfopFn (vFN w) (vRM w) (lane ((s.core c).getV (vVA w)) k) (lane ((s.core c).getV (vVB w)) k))) ∨
       (i = .vfma c w ∧ s.starts c 0xA3 w = true ∧ vUnused w true true true true true true false true false false false false = true ∧ vFN w ≤ 3 ∧
          (∀ k, f k = ffma (vRM w) (decide (2 ≤ vFN w)) (vFN w % 2 == 1) (lane ((s.core c).getV (vVA w)) k)
            (lane ((s.core c).getV (vVB w)) k) (lane ((s.core c).getV (vVC w)) k))) ∨
       (i = .vfds c w ∧ s.starts c 0xA4 w = true ∧ vUnused w true true true false true true false true false false false false = true ∧ vFN w ≤ 1 ∧
          (∀ k, f k = if vFN w = 0 then fdiv (vRM w) (lane ((s.core c).getV (vVA w)) k) (lane ((s.core c).getV (vVB w)) k)
            else fsqrt (vRM w) (lane ((s.core c).getV (vVA w)) k))) ∨
       (i = .vfapx c w ∧ s.starts c 0xA5 w = true ∧ vUnused w true true false false true false false true false false false false = true ∧ vFN w ≤ 1 ∧
          (∀ k, f k = (if vFN w = 0 then frcp else frsqrt) (lane ((s.core c).getV (vVA w)) k))) ∨
       (i = .vmov c w ∧ s.starts c 0xA7 w = true ∧ vUnused w true true true true true false false true false false false false = true ∧ vFN w ≤ 1 ∧
          (∀ k, f k = (if vFN w = 0 then lane ((s.core c).getV (vVA w)) k else (s.core c).getS (vVC w), 0))) ∨
       (i = .aexp2 c w ∧ s.starts c 0xC4 w = true ∧ vUnused w true true false false true false false false false false false false = true ∧
          (∀ k, f k = fexp2 (lane ((s.core c).getV (vVA w)) k)))) →
      exec i s = .next (s.completed c t)) ∧
    (vUnused w true true true true true false false true false false false false = true → s.starts c 0xA7 w = true →
      (vFN w = 2 → exec (.vmov c w) s = .next (s.completed c ((s.putCore c ((s.core c).setV (vVD w) (ofLanes (fun i =>
        if ((s.core c).getP (vPG w)).getLsbD i then lane ((s.core c).getV (vVA w)) i else lane ((s.core c).getV (vVB w)) i)))).orFlags c 0))) ∧
      (vFN w = 3 → exec (.vmov c w) s = .next (s.retire c
        ((s.core c).setS (vVD w) (lane ((s.core c).getV (vVA w)) (((s.core c).getS (vVC w)).toNat % 64))))) ∧
      (vFN w = 4 → exec (.vmov c w) s = .next (s.completed c ((s.putCore c ((s.core c).setV (vVD w)
        (ofLanes (fun i => BitVec.ofNat 32 i)))).orFlags c 0)))) ∧
    (vUnused w true true true false true false false true false false false false = true → zf w 55 54 = true →
      bitsOf w 29 28 ≤ 1 → bitsOf w 27 24 ≤ 5 →
      (s.starts c 0xA6 w = true → exec (.vcmp c w) s = .next (s.retire c ((s.core c).setP (vVD w) (predOf (fun i => ((s.core c).getP (vPG w)).getLsbD i &&
        vcmpFn (bitsOf w 29 28 == 1) (bitsOf w 27 24) (lane ((s.core c).getV (vVA w)) i) (lane ((s.core c).getV (vVB w)) i))))))) ∧
    (∀ f e r, vUnused w true true false false true true false true false false false false = true →
      redFn (vFN w) (vRM w) = some (f, e) →
      r = treeRed f 6 ((List.range 64).map (fun i =>
        if ((s.core c).getP (vPG w)).getLsbD i then lane ((s.core c).getV (vVA w)) i else e)) →
      (s.starts c 0xAB w = true → exec (.vred c w) s = .next (s.completed c
        ((s.putCore c ((s.core c).setV (vVD w) (ofLanes (fun _ => r.1)))).orFlags c r.2))))) ∧
  (∀ (c : CoreId) (w : BitVec 56) (s : State) (n b : Nat), n = vNM w + 1 →
    (vUnused w true true false false true true true false true true true true = true → vSF w = 10 → vDF w = 11 → n = 1 →
      (s.starts c 0xA8 w = true → exec (.vcvt c w) s = .next (s.completed c
        ((s.putCore c ((s.core c).setV (vVD w) (predLanes ((s.core c).getP (vPG w)) ((s.core c).getV (vVD w)) (fun i =>
          (BitVec.ofNat 32 (floatToInt 32 (vRM w) (fval (lane ((s.core c).getV (vVA w)) i))).1,
            (floatToInt 32 (vRM w) (fval (lane ((s.core c).getV (vVA w)) i))).2))).1)).orFlags c
          (predLanes ((s.core c).getP (vPG w)) ((s.core c).getV (vVD w)) (fun i =>
          (BitVec.ofNat 32 (floatToInt 32 (vRM w) (fval (lane ((s.core c).getV (vVA w)) i))).1,
            (floatToInt 32 (vRM w) (fval (lane ((s.core c).getV (vVA w)) i))).2))).2)))) ∧
    (vUnused w true true false false true true true false true true true true = true → vSF w = 11 → vDF w = 10 → n = 1 →
      s.starts c 0xA8 w = true →
      exec (.vcvt c w) s = .next (s.completed c
        ((s.putCore c ((s.core c).setV (vVD w) (predLanes ((s.core c).getP (vPG w)) ((s.core c).getV (vVD w)) (fun i =>
          fpack (vRM w) (.fin (decide ((lane ((s.core c).getV (vVA w)) i).toInt < 0)) (lane ((s.core c).getV (vVA w)) i).toInt.natAbs 0))).1)).orFlags c
          (predLanes ((s.core c).getP (vPG w)) ((s.core c).getV (vVD w)) (fun i =>
          fpack (vRM w) (.fin (decide ((lane ((s.core c).getV (vVA w)) i).toInt < 0)) (lane ((s.core c).getV (vVA w)) i).toInt.natAbs 0))).2))) ∧
    (∀ r, vUnused w true true false false true true true false true true true true = true →
      (vSF w = 10 ∧ vDF w ≠ 11 ∨ vSF w = 11 ∧ vDF w < 2) → vecBits (vDF w) = some b →
      8 * b * n ≤ 256 → vVA w + n ≤ 32 → vPG w = 0 →
      r = packRegs b n (fun k i => narrowElem (vSF w == 11) (vDF w) (vRM w) (vSAT w) (lane ((s.core c).getV (vVA w + k)) i)) →
      s.starts c 0xA8 w = true →
      exec (.vcvt c w) s = .next (s.completed c ((s.putCore c ((s.core c).setV (vVD w) r.1)).orFlags c r.2))) ∧
    (vUnused w true true false false true true true false true true true true = true → vecBits (vSF w) = some b →
      vDF w = (if (vecFmt (vSF w)).isSome then 10 else 11) → n = 1 → vPG w = 0 → vIMM w % 8 * (8 * b) + 8 * b ≤ 256 →
      s.starts c 0xA8 w = true →
      exec (.vcvt c w) s = .next (s.completed c ((s.putCore c ((s.core c).setV (vVD w) (ofLanes (fun i =>
        widenElem (vSF w) (elemAt (((s.core c).getV (vVA w)).toNat >>> (8 * (vIMM w % 8 * (8 * b)))) b i))))).orFlags c 0))) ∧
    (∀ r, vUnused w true true true true false true true false false true true false = true → vDF w ≤ 1 →
      b = (if vDF w = 1 then 4 else 8) → 8 * b * n ≤ 256 → vVA w + n ≤ 32 →
      r = packRegs b n (fun k i => requant b (vRM w) (vSAT w) (lane ((s.core c).getV (vVA w + k)) i) (lane ((s.core c).getV (vVB w)) i)
        (bitsOf (lane ((s.core c).getV (vVC w)) i) 21 16) (sval 16 (bitsOf (lane ((s.core c).getV (vVC w)) i) 15 0))) →
      (s.starts c 0xA9 w = true → exec (.vreq c w) s = .next (s.completed c ((s.putCore c ((s.core c).setV (vVD w) r.1)).orFlags c r.2)))) ∧
    (∀ blocks : List (Nat × List (Nat × AFlags)),
      vUnused w true true false true false true true true false true true false = true → vFN w = 0 → isMX (vDF w) = true → n ≤ 2 →
      vVA w + n ≤ 32 →
      blocks = (List.range (2 * n)).map (fun j =>
        mxBlock (vDF w) (vRM w) ((List.range 32).map (fun i => lane ((s.core c).getV (vVA w + j / 2)) (32 * (j % 2) + i)))) →
      (s.starts c 0xAA w = true → exec (.vmxqQuantise c w) s = .next (s.completed c ((s.putCore c
        (((s.core c).setV (vVD w) (BitVec.ofNat 2048 (packElems (fmtBits (vDF w)) ((blocks.flatMap (·.2)).map (·.1))))).setS (vVC w)
          (BitVec.ofNat 32 (packElems 8 (blocks.map (·.1)))))).orFlags c ((blocks.flatMap (·.2)).foldl (fun a e => a ||| e.2) 0))))) ∧
    (∀ (r : List (Word × AFlags)) (sc : Nat),
      vUnused w true true false true false false false true true false false true = true → vFN w = 1 → isMX (vSF w) = true →
      (vIMM w % 4 < 2 → sc % 2 ^ 32 = ((s.core c).getS (vVC w)).toNat) →
      (2 ≤ vIMM w % 4 → sc = ((s.core c).getS (vVC w)).toNat +
        2 ^ 32 * (Config.mxScales ((s.core c).getV (vVA w)) ((s.core c).getS (vVC w)) (vIMM w % 4)).toNat) →
      r = (List.range 64).map (fun i => fpack 0 (scaled (elemVal (vSF w)
        (elemAt (((s.core c).getV (vVA w)).toNat >>> (64 * (vIMM w % 4) * fmtBits (vSF w))) (fmtBits (vSF w)) i))
        (scaleExp (elemAt sc 8 (2 * (vIMM w % 4) + i / 32))))) →
      s.starts c 0xAA w = true →
      exec (.vmxqDequantise c w) s = .next (s.completed c ((s.putCore c ((s.core c).setV (vVD w)
        (ofLanes (fun i => ((r[i]?).map (·.1)).getD 0)))).orFlags c (r.foldl (fun a e => a ||| e.2 &&& ~~~fUF) 0)))))

/-- R174: a predicated lane operation gives each lane of the result the function's value where the predicate bit is 1 and the old
lane elsewhere. -/
def Obligations.PredicatedLanesMerge : Prop :=
  ∀ (p : BitVec 64) (old : VReg) (f : Nat → Word × AFlags) (i : Nat), i < 64 →
    lane (predLanes p old f).1 i = if p.getLsbD i then (f i).1 else lane old i

/-- Completion of AOPEN, ASTEP, ASTATE, VAPP, VFIL and VFLS (R182 to R186, R190, R191).
Clauses that the rules leave open follow the model's choice: log entries 10 and 43. -/
def Obligations.AttentionAndVialInstructionsComplete : Prop :=
  ∀ (c : CoreId) (w : BitVec 56) (s : State),
    (vUnused w false false false false false false false true false false false true = true → bitsOf w 6 0 + vFN w ≤ 127 →
      (s.starts c 0xC0 w = true → exec (.aopen c w) s = .next (s.retire c
        (upTo (vFN w + 1) (fun i x => x.setRow (bitsOf w 6 0 + i) 0xFF800000 0) (s.core c))))) ∧
    (∀ (one : CoreState → Nat → Sys2Proof.Machine.Step) (r : CoreState × AFlags),
      vUnused w true true false false true false false false false false true true = true → zf w 11 10 = true →
      vVD w + (vNM w + 1) ≤ 32 → vVA w + (vNM w + 1) ≤ 32 → bitsOf w 6 0 + (vNM w + 1) ≤ 128 →
      (∀ (x : CoreState) (k : Nat), one x k = softStep (x.getM (bitsOf w 6 0 + k)) (x.getL (bitsOf w 6 0 + k))
        ((List.range 64).map (fun i => if ((s.core c).getP (vPG w)).getLsbD i then lane (x.getV (vVA w + k)) i else 0xFF800000))) →
      r = upTo (vNM w + 1) (fun k (a : CoreState × AFlags) =>
        ({ (a.1.setV (vVD w + k) (one a.1 k).p).setRow (bitsOf w 6 0 + k) (one a.1 k).m (one a.1 k).l with
            cv := a.1.cv.set (Fin.ofNat 4 (bitsOf w 9 8)) (ofLanes (fun i => if i = (bitsOf w 6 0 + k) % 64 then (one a.1 k).c
              else lane (a.1.cv.get (Fin.ofNat 4 (bitsOf w 9 8)) 0) i)) }, a.2 ||| (one a.1 k).fl)) (s.core c, 0) →
      s.starts c 0xC1 w = true → exec (.astep c w) s = .next (s.completed c ((s.putCore c r.1).orFlags c r.2))) ∧
    (vUnused w true true false false false false false true false false false true = true → (vFN w < 4 → bitsOf w 6 0 ≤ 64) →
      (vFN w = 0 → (s.starts c 0xC2 w = true → exec (.astate c w) s = .next (s.retire c
        ((s.core c).setV (vVD w) (ofLanes (fun i => (s.core c).getL (bitsOf w 6 0 + i))))))) ∧
      (vFN w = 1 → (s.starts c 0xC2 w = true → exec (.astate c w) s = .next (s.retire c
        ((s.core c).setV (vVD w) (ofLanes (fun i => (s.core c).getM (bitsOf w 6 0 + i))))))) ∧
      (vFN w = 2 → (s.starts c 0xC2 w = true → exec (.astate c w) s = .next (s.retire c (upTo 64 (fun i x => x.setRow (bitsOf w 6 0 + i)
        (x.getM (bitsOf w 6 0 + i)) (lane ((s.core c).getV (vVA w)) i)) (s.core c))))) ∧
      (vFN w = 3 → (s.starts c 0xC2 w = true → exec (.astate c w) s = .next (s.retire c (upTo 64 (fun i x => x.setRow (bitsOf w 6 0 + i)
        (lane ((s.core c).getV (vVA w)) i) (x.getL (bitsOf w 6 0 + i))) (s.core c))))) ∧
      (vFN w = 4 → (s.starts c 0xC2 w = true → exec (.astate c w) s = .next (s.retire c
        ((s.core c).setV (vVD w) (ofLanes (fun _ => (s.core c).getL (bitsOf w 6 0)))))))) ∧
    (∀ p l, vUnused w false true false true false true true false false true false true = true →
      vDF w = 0 ∨ vDF w = 2 ∨ vDF w = 3 →
      p = packRegs 8 1 (fun _ i => narrowElem false (vDF w) (vRM w) (vSAT w) (lane ((s.core c).getV (vVA w)) i)) →
      l = 32 * (vIMM w % 16) + 2 * (((s.core c).getS (vVC w)).toNat % 16) + bitsOf w 4 4 →
      (s.starts c 0xC8 w = true → exec (.vapp c w) s = .next (s.completed c ((s.putCore c { s.core c with
        vial := (s.core c).vial.set (Fin.ofNat 512 l) (p.1.extractLsb' 0 512) }).orFlags c p.2)))) ∧
    (∀ p l, vUnused w false true false true false true true false false true false true = true →
      vDF w = 8 ∨ vDF w = 9 → bitsOf w 4 4 = 0 →
      p = packRegs 16 1 (fun _ i => narrowElem false (vDF w) (vRM w) (vSAT w) (lane ((s.core c).getV (vVA w)) i)) →
      l = 32 * (vIMM w % 16) + 2 * (((s.core c).getS (vVC w)).toNat % 16) → s.starts c 0xC8 w = true →
      exec (.vapp c w) s = .next (s.completed c ((s.putCore c { s.core c with
        vial := ((s.core c).vial.set (Fin.ofNat 512 l) (p.1.extractLsb' 0 512)).set (Fin.ofNat 512 (l + 1)) (p.1.extractLsb' 512 512) }).orFlags c
          p.2))) ∧
    (∀ a, a = ((s.core c).getA (tXA w)).toNat → vialRsv w = true → vialAddrOk c a = true →
      (s.clean a 2048 → (s.starts c 0xC9 w = true → exec (.vfil c w) s = .next (s.retire c { s.core c with
        vial := upTo 32 (fun i v => v.set (Fin.ofNat 512 (32 * bitsOf w 25 22 + i))
          ((natLines (s.loadNat a 2048) 32)[i]?.getD 0)) (s.core c).vial }))) ∧
      (inAccord (a - lsBase c + 2047) = false → (s.core c).streamReads a 2048 = false → (s.core c).unitReads a 2048 = false →
        (s.starts c 0xCA w = true → exec (.vfls c w) s = .next (s.completed c (s.store a (leBytes 2048 (linesNat ((List.range 32).map (fun i =>
          (s.core c).vial.get (Fin.ofNat 512 (32 * bitsOf w 25 22 + i)) 0)))))))))

/-! ### Cores, pairs and wheels -/

/-- Completion of CONTEXT_LOAD, CORE_START, HALT_REQUEST, HALT_COMPLETE, CORE_STEP, ERRSTOP, PAIR_ENABLE, PAIR_MISMATCH and
ACCORD_DONE (R107, R114 to R122, R130, R157, R159, R421). A register command reaches its register and is allowed by expert control
(R14).
Clauses that the rules leave open follow the model's choice: log entries 7, 9 and 85. -/
def Obligations.CoreCommandsComplete : Prop :=
  ∀ (src : Src) (c : CoreId) (p : PairId) (cl : ClusterId) (s : State),
    (∀ mask, s.up (domCluster cl) = true →
      exec (.contextLoad cl mask) s = .next (s.loadCores cl (cl.cores.filter (fun d => mask.getLsbD d.k && s.coreEnabled d)))) ∧
    (s.reaches src (tcBase c + Reg.TC_CTRL) = true → s.mayWrite src .tc c.inst = true →
      exec (.coreStart src c) s = .next (s.startCore c ((s.reg .tc c.inst Reg.TC_ENTRY).setWidth 20) (s.core c).jobWheel) ∧
      ((((s.endLockstep c).setFld .tc c.inst Reg.TC_CTRL 1 1 1).barClear c |>.core c).halted = false →
        exec (.haltRequest src c) s = .next (((((s.endLockstep c).setFld .tc c.inst Reg.TC_CTRL 1 1 1).barClear c)).modCore c
          (fun x => { x with haltPending := true })))) ∧
    (s.reaches src (tcBase c + Reg.TC_CTRL) = true → s.mayWrite src .tc c.inst = true → (s.core c).halted = true →
      exec (.coreStep src c) s = .next ((((s.endLockstep c).modCore c (fun x => { x with halted := false })).issueNext c).modCore c
        (fun x => { x with halted := true }))) ∧
    ((s.core c).haltPending = true → (s.core c).unitsIdle = true → (s.core c).wait = .none → (s.core c).stalled = false →
      exec (.haltComplete c) s = .next ((s.modCore c (fun x => { x with halted := true, haltPending := false })).barClear c)) ∧
    (∀ e u, (s.core c).pend = some e → (s.core c).unitsIdle = true → (s.core c).chansSettled = true → s.isChecker c = false →
      u = (e :: (s.core c).more).foldl (fun (s : State) p => s.recordPend c p) s →
      exec (.errstop c) s = .next (((u.putCore c { u.core c with errstop := true, run := false, pend := none, more := [] }).barClear c).coreFailed c)) ∧
    (s.reaches src (pcmpBase p + Reg.PCMP_CTRL) = true → s.mayWrite src .pcmp p.inst = true →
      exec (.pairEnable src p false) s =
        .next ((s.setFld .pcmp p.inst Reg.PCMP_CTRL 1 1 0).setFld .pcmp p.inst Reg.PCMP_STAT 0 0 0) ∧
      (s.pairUsable p = true → s.fld .pcmp p.inst Reg.PCMP_STAT 2 2 = 0 → s.locked p = false →
        ∃ t, exec (.pairEnable src p true) s = .next t ∧ t.core p.checker = s.core p.primary ∧
          t.mem = s.mem ∧
          t.fld .pcmp p.inst Reg.PCMP_CTRL 1 1 = 1 ∧ t.locked p = true)) ∧
    (∀ (kind : Fin 8), s.locked p = true → s.fld .pcmp p.inst Reg.PCMP_STAT 1 1 = 0 → s.jobOf p.primary = none →
      s.partOf p.primary = none → (∀ slot, s.bars.get (p.cl, slot) none = none) →
      exec (.pairMismatch p kind) s = .next ((((((s.setFld .pcmp p.inst Reg.PCMP_STAT 1 1 1).setReg .pcmp p.inst Reg.PCMP_MISCYC
        (BitVec.ofNat 32 (cyclesOf (s.now - (s.core p.primary).startLt)))).setReg .pcmp p.inst Reg.PCMP_MISKIND
          (BitVec.ofNat 32 kind.val)).modCore p.primary (fun x => { x with halted := true })).modCore p.checker
            (fun x => { x with halted := true })).raise .tc p.primary.inst 8 0 0)) ∧
    (∀ rd wrong, (s.core c).wait = .accord rd → s.isChecker c = false → (s.core c).run = true →
      ∃ t, exec (.accordDone c wrong) s = .next t ∧ (t.core c).wait = .none ∧
        (rd ≠ 0 → (t.core c).getS rd = wrong.getD (crc32c ((List.range 0x1000).map (Config.accordOutput (s.core c).accInput)))) ∧
        (∀ bk, (t.core c).accMode.get bk .none = .none) ∧
        (∀ b, ((t.core c).wb.get b WBuf.empty).tag = none))

/-- R159, R107: a context load leaves the core's state as after reset but the values it is given, its signal counters and flags at 0, and
every byte of its local store below the accord area at 0.
A core that starts runs from the entry with the frames current on every wheel as its job frames (R110, R118, R154, R279).
Clauses that the rules leave open follow the model's choice: log entries 5, 12 and 47. -/
def Obligations.LoadedAndStartedCores : Prop :=
  (∀ (c : CoreId) (s : State),
    ((s.loadCore c).core c).s = [] ∧ ((s.loadCore c).core c).a = [] ∧ ((s.loadCore c).core c).v = [] ∧
    ((s.loadCore c).core c).run = false ∧ ((s.loadCore c).core c).idle = true ∧ ((s.loadCore c).core c).errstop = false ∧
    ((s.loadCore c).core c).loops = [] ∧ ((s.loadCore c).core c).streamQ = [] ∧
    (∀ sid < 32, (s.loadCore c).sig c sid = 0) ∧ (s.loadCore c).reg .tc c.inst Reg.TC_FLAGS = 0 ∧
    (∀ off < 0xFC000, memGet (s.loadCore c).mem (lsBase c + off) = 0)) ∧
  (∀ (c : CoreId) (s : State) (e : BitVec 20) (w v : Fin 4),
    ((s.startCore c e w).core c).run = true ∧ ((s.startCore c e w).core c).halted = false ∧
    ((s.startCore c e w).core c).errstop = false ∧ ((s.startCore c e w).core c).pend = none ∧
    ((s.startCore c e w).core c).pc = e ∧ ((s.startCore c e w).core c).jobWheel = w ∧
    ((s.startCore c e w).core c).jobFrame.get v 0 = (s.wheel v).frame)

/-- Completion of PHASE_TICK, WHEEL_START_EVENT, SOURCE_HOLD_TIMEOUT, FREE_RUN_EXPIRE and WHEEL_ENABLE (R251 to R262, R300).
Clauses that the rules leave open follow the model's choice: log entries 8, 41 and 53. -/
def Obligations.WheelCommandsComplete : Prop :=
  ∀ (w : Fin 4) (s : State), s.time.frozen = false → s.domOn 86 = true →
    ((s.wheel w).going = true → (s.wheel w).startDue = false → s.tickDue w ((s.wheel w).phase.toNat + 1) = true →
      (s.wheel w).phase ≠ 0xFFFF →
      exec (.phaseTick w) s =
        .next ((s.setWheel w { s.wheel w with phase := (s.wheel w).phase + 1, tickLt := s.now }).tickEffects w)) ∧
    ((s.wheel w).going = true → (s.wheel w).startDue = true →
      ((s.wheel w).st = .freeRun ∨ (s.wheel w).hold = true ∨ s.tickDue w ((s.wheel w).phase.toNat + 1) = true) →
      exec (.phaseTick w) s = .next (s.startFrame w s.now (s.wheel w).st)) ∧
    (∀ t, (s.wheel w).event = some t → (s.wheel w).st = .armed →
      (((s.setWheel w { s.wheel w with event := none }).startFrame w t .running).trig (whlTrig
        (((s.setWheel w { s.wheel w with event := none }).startFrame w t .running).whlCfg w))).active = true →
      exec (.wheelStartEvent w) s = .next ((s.setWheel w { s.wheel w with event := none }).startFrame w t .running)) ∧
    ((s.wheel w).hold = true → whlCamera (s.whlCfg w) = true → s.tickDue w (65536 + 1024) = true → (s.wheel w).st = .running →
      ∀ v : State, v = s.setWheel w { s.wheel w with
        st := .freeRun, freeFrames := 0, anchorT := s.now, anchorPh := (s.wheel w).phase.toNat, startDue := true, hold := false } →
      exec (.sourceHoldTimeout w) s = .next ((({ v with sched := { v.sched with
        jobs := v.sched.jobs.map (fun j => if v.jobOn w j then { j with freerun := true } else j) } } : State).raiseSub
          .whl 0 1 w).count .whl 0 (Reg.WHL_LOSSCNTw w) 1)) ∧
    ((s.wheel w).st = .freeRun → (s.wheel w).freeFrames = 4 → (s.wheel w).phase = 0xFFFF → (s.wheel w).startDue = false →
      s.tickDue w 65536 = true → exec (.freeRunExpire w) s = .next (s.wheelStop w)) ∧
    (∀ src v, s.reaches src (vehRegs 0x1410000 + Reg.WHL_CFGw w) = true → s.mayWrite src .whl 0 = true →
      (s.admitted w = false ∨ src.fw = true) → v &&& 0xC3EF0000 = v → whlEnabled v = true → (s.wheel w).live = false →
      s.enableOk w v (s.reg .whl 0 (Reg.WHL_PERw w)).toNat = true →
      exec (.wheelEnable src w v) s = .next (s.armWheel w v))

/-- R252, R262: a frame that begins has phase 0, the number after the last one, or 0 for the first since the wheel was enabled, in WHL_FRAMEw and
in the wheel.
A wheel's clock loss stops every live wheel (R257): after TIME_CLOCK_LOSS no wheel is live and the time unit is frozen. -/
def Obligations.FramesAreNumberedUntilTheClockFails : Prop :=
  (∀ (w : Fin 4) (s : State) (at_ : Nat) (st : WheelSt),
    ((s.startFrame w at_ st).wheel w).phase = 0 ∧ ((s.startFrame w at_ st).wheel w).st = st ∧
    ((s.startFrame w at_ st).wheel w).frame = (if (s.wheel w).begun then (s.wheel w).frame + 1 else 0) ∧
    (s.startFrame w at_ st).reg .whl 0 (Reg.WHL_FRAMEw w) = (if (s.wheel w).begun then (s.wheel w).frame + 1 else 0)) ∧
  (∀ (s : State) (w : Fin 4), s.time.frozen = false → s.domOn 86 = true →
    ∃ t, exec .timeClockLoss s = .next t ∧ t.time.frozen = true ∧ (t.wheel w).live = false)

/-! ### Time -/

/-- R233, R234: on an empty queue the clock of a time unit that runs makes one cycle: LT advances by 2 ns, an enabled domain without slew by
2 ns and 2 x RATE x 2^-40 ns with its 40-bit fraction, and a slew in progress adds or takes 2^-9 ns. A step on an empty queue is the model's
choice (log entry 2).
R235: a step or a load written before the cycle acts in it; that a load takes the place of the increment is the model's choice (log entry 111).
R249: after the time clock has failed, or before VD_TIME is on, no time advances.
R246, R247: at the end of a cycle an edge is stamped into the FIFO of its input, or dropped and counted when the FIFO is full or the last stamped
edge is less than 40 ns old. -/
def Obligations.ClockCycleAdvancesTime : Prop :=
  (∀ s : State, s.pending = [] → step s = .next s.idle) ∧
  (∀ (s : State) (d : Fin 4), s.pending = [] → s.pwr.shutTo = none → s.gw.pciInQ = [] → s.time.frozen = false → s.domOn 86 = true →
    (∀ e ∈ s.time.cap, e.2.edges = []) →
    ∃ t, step s = .next t ∧ t.time.lt = s.time.lt + 2 ∧
      ((s.dom d).acts = [] →
        (s.domEnabled d = false → t.dom d = s.dom d) ∧
        (s.domEnabled d = true → (s.dom d).slew = 0 → s.reg .tu 0 (Reg.TU_DdRATE d) = 0 →
          (t.dom d).time = (s.dom d).time + 2 ∧ (t.dom d).frac = (s.dom d).frac ∧ (t.dom d).slew = 0) ∧
        (s.domEnabled d = true → (t.dom d).time ++ (t.dom d).frac = (s.dom d).time ++ (s.dom d).frac +
            BitVec.ofInt 104 (2 ^ 41 + 2 * (s.reg .tu 0 (Reg.TU_DdRATE d)).toInt +
              (if 0 < (s.dom d).slew then 2 ^ 31 else if (s.dom d).slew < 0 then -(2 ^ 31) else 0)))) ∧
      (s.domEnabled d = true → (s.dom d).slew.natAbs - 1 = (t.dom d).slew.natAbs) ∧
      (∀ v, (s.dom d).acts = [.load v] → (t.dom d).time = v ∧ (t.dom d).frac = 0 ∧ (t.dom d).acts = []) ∧
      (∀ v, (s.dom d).acts = [.step v] → s.domEnabled d = false →
        (t.dom d).time = (s.dom d).time + BitVec.ofInt 64 v ∧ (t.dom d).frac = (s.dom d).frac ∧ (t.dom d).acts = [])) ∧
  (∀ s : State, s.pending = [] → s.pwr.shutTo = none → s.gw.pciInQ = [] → (s.time.frozen = true ∨ s.domOn 86 = false) →
    ∃ t, step s = .next t ∧ t.time.lt = s.time.lt ∧ t.time.dom = s.time.dom ∧ t.mem = s.mem) ∧
  (∀ (s : State) (n : Fin 32) (e : Word × Nat × Bool),
    ((s.cap n).fifo.length < 16 → (∀ l, (s.cap n).last = some l → l + 40 ≤ e.2.1) →
      s.takeStamp n e = s.setCap n { s.cap n with fifo := (s.cap n).fifo ++ [(e.1, e.2.2)], last := some e.2.1 }) ∧
    (16 ≤ (s.cap n).fifo.length ∨ (∃ l, (s.cap n).last = some l ∧ e.2.1 < l + 40) → s.takeStamp n e =
      ((s.setCap n { s.cap n with ovf := true }).count .tu 0 (Reg.TU_CAPDROPn n) 1).raiseSub .tu 0 1 n))

/-- Completion of DOMAIN_STEP, DOMAIN_LOAD, DOMAIN_SLEW, DOMAIN_ENABLE and SLEW_COMPLETE (R234, R235): on a domain that is not bound a step
or a load is taken for the next cycle; a slew amount is held in 2^-9 ns; a bound domain counts a refusal and keeps its time and its enable.
Completion of TRIGGER_CONFIG, TRIGGER_EDGE, TRIGGER_PULSE_START and TRIGGER_PULSE_END (R241 to R244): an enable within the limits, one
outside them (BADCFG, class U, and the trigger stays disabled), the next edge at its time with its wheel event, and edges left behind
skipped and LATE, the pulse from ADV ns before the
edge for WID ns.
Completion of CAPTURE_EDGE, CAPTURE_POP, TIME_CLOCK_LOSS and the gPTP commands on a port that is open for them, with a residence of at most 2 ms (R236, R237, R245 to R249).
Clauses that the rules leave open follow the model's choice: log entries 49, 90 and 112. -/
def Obligations.TimeUnitCommandsComplete : Prop :=
  (∀ (src : Src) (d : Fin 4) (s : State), s.mayWrite src .tu 0 = true → (s.fwDomain d = false ∨ src.fw = true) →
    (∀ v, s.reaches src (vehRegs 0x1400000 + Reg.TU_DdSTEP d) = true →
      (s.bound d = false → exec (.domainStep src d v) s =
        .next (s.setDom d { s.dom d with acts := (s.dom d).acts ++ [.step v.toInt] })) ∧
      (s.bound d = true → exec (.domainStep src d v) s = .next (s.count .tu 0 (Reg.TU_DdREFUSE d) 1))) ∧
    (s.reaches src (vehRegs 0x1400000 + Reg.TU_DdLOAD d) = true →
      (s.bound d = false → exec (.domainLoad src d) s = .next (s.setDom d { s.dom d with
        acts := (s.dom d).acts ++ [.load (s.reg .tu 0 (Reg.TU_DdSETH d) ++ s.reg .tu 0 (Reg.TU_DdSETL d))] })) ∧
      (s.bound d = true → exec (.domainLoad src d) s = .next (s.count .tu 0 (Reg.TU_DdREFUSE d) 1))) ∧
    (∀ v, s.reaches src (vehRegs 0x1400000 + Reg.TU_DdSLEW d) = true →
      exec (.domainSlew src d v) s = .next (s.setDom d { s.dom d with slew := v.toInt * 512 })) ∧
    (∀ en, s.reaches src (vehRegs 0x1400000 + Reg.TU_DdCTRL d) = true →
      (en = true ∨ s.domEnabled d = false ∨ s.bound d = false →
        exec (.domainEnable src d en) s = .next (s.setFld .tu 0 (Reg.TU_DdCTRL d) 31 31 (if en then 1 else 0))) ∧
      (en = false → s.domEnabled d = true → s.bound d = true →
        exec (.domainEnable src d en) s = .next (s.count .tu 0 (Reg.TU_DdREFUSE d) 1))) ∧
    exec (.slewComplete d) s = .next s) ∧
  (∀ (src : Src) (n : Fin 32) (s : State),
    (∀ v, s.reaches src (vehRegs 0x1400000 + Reg.TU_TRGCFGn n) = true → s.mayWrite src .tu 0 = true →
      (s.fwTrig n = false ∨ src.fw = true) → v &&& 0xFFC0FFFF = v → trgEn v = true → trgEn (s.trgCfg n) = false →
      (s.trigOk n v = true → s.time.frozen = false → exec (.triggerConfig src n v) s = .next (s.trigEnable n v)) ∧
      (s.trigOk n v = false → exec (.triggerConfig src n v) s =
        .next ((s.setReg .tu 0 (Reg.TU_TRGCFGn n) (v &&& 0x7FFFFFFF)).raise .tu 0 0 0 0))) ∧
    (s.time.frozen = false → s.domOn 86 = true → trgEn (s.trgCfg n) = true → (s.trig n).active = true →
      s.edgeTime n (s.trig n).next ≤ s.baseTime (trgBase (s.trgCfg n)) →
      ∀ b, b = s.edgesBehind n →
      ∃ t, exec (.triggerEdge n) s = .next t ∧ (t.trig n).produced = (s.trig n).produced + 1 ∧ (t.trig n).next = (s.trig n).next + b + 1 ∧
        (t.trig n).late = ((s.trig n).late || decide (0 < b)) ∧
        ((t.trig n).active = !(s.trgPer n == 0 || (trgCount (s.trgCfg n) != 0 && decide (trgCount (s.trgCfg n) ≤ (s.trig n).next + b + 1)))) ∧
        (∀ w, trgWheel (s.trgCfg n) = true → w ∈ s.followers n → (t.wheel w).event = some (s.edgeTime n ((s.trig n).next + b))) ∧
        (∀ w, w ∉ s.followers n ∨ trgWheel (s.trgCfg n) = false → t.wheel w = s.wheel w)) ∧
    (s.time.frozen = false → s.domOn 86 = true → trgEn (s.trgCfg n) = true → trgPin (s.trgCfg n) = true → (s.trig n).active = true →
      (s.trig n).pulsed = (s.trig n).next → (s.trig n).pulse = none →
      s.edgeTime n (s.trig n).pulsed ≤ s.baseTime (trgBase (s.trgCfg n)) + s.trgAdv n →
      exec (.triggerPulseStart n) s =
        .next (s.setTrig n { s.trig n with pulse := some (s.trig n).pulsed, pulsed := (s.trig n).pulsed + 1 })) ∧
    (∀ k, (s.trig n).pulse = some k → s.edgeTime n k + s.trgWid n ≤ s.baseTime (trgBase (s.trgCfg n)) + s.trgAdv n →
      exec (.triggerPulseEnd n) s = .next (s.setTrig n { s.trig n with pulse := none }))) ∧
  (∀ (src : Src) (n : Fin 32) (d : Fin 4) (port : Fin 10) (s : State),
    (∀ rising, s.time.frozen = false → s.domOn 86 = true → bitOf (s.reg .tu 0 (Reg.TU_CAPCFGn n)) 31 = true →
      bitOf (s.reg .tu 0 (Reg.TU_CAPCFGn n)) 25 = false → bitOf (s.reg .tu 0 (Reg.TU_CAPCFGn n)) (if rising then 26 else 27) = true →
      exec (.captureEdge n rising) s = .next (s.setCap n { s.cap n with edges := (s.cap n).edges ++
        [(BitVec.ofNat 32 (s.baseTime (bitsOf (s.reg .tu 0 (Reg.TU_CAPCFGn n)) 30 28)), s.now, rising)] })) ∧
    (s.reaches src (vehRegs 0x1400000 + Reg.TU_CAPPOPn n) = true →
      exec (.capturePop src n) s = .next (s.setCap n { s.cap n with fifo := (s.cap n).fifo.drop 1 })) ∧
    (s.time.frozen = false → s.domOn 86 = true → (∀ w, (s.wheel w).live = false) →
      exec .timeClockLoss s = .next (({ s with time := { s.time with
        frozen := true, trig := s.time.trig.map (fun (e : Fin 32 × Trig) => (e.1, { e.2 with pulse := none })) } } : State).raise .tu 0 2 0 0)) ∧
    (s.gptpPort ⟨port.val, by omega⟩ = true → s.fpRuns 5 = true → s.fpRuns 6 = true →
      (∃ t, exec (.gptpFrameReceive port d true 2 7) s = .next t ∧ t.time.gptpRx = s.time.gptpRx ++ [(⟨port.val, by omega⟩, s.now32)] ∧
        (t.dom d).holdover = false ∧ t.time.lastSync.get d 0 = s.now ∧ t.fw.gptpState.get d 0 = 2) ∧
      (∀ relayed, s.fw.gptpState.get d 0 ≠ 0 → (relayed.map s.residence).getD 0 ≤ 2000000 →
        exec (.gptpSyncSend port d relayed) s = .next { s with
          time := { s.time with gptpTx := s.time.gptpTx ++ [(⟨port.val, by omega⟩, s.now32, (relayed.map s.residence).getD 0)] } })) ∧
    (s.fw.gptpState.get d 0 = 2 → s.fpRuns 5 = true →
      exec (.gptpReceiptTimeout d) s = .next ((s.setDom d { s.dom d with holdover := true }).setGptp d 3 0)))

/-! ### DMA channels, transactions and the fabric -/

/-- Completion of DMA_CHAIN_START, DMA_DESCRIPTOR_LAUNCH, DMA_PHASED_LAUNCH, DMA_COMPLETION, DMA_STOP_SETTLE, DMA_CHANNEL_GO and
DMA_CHANNEL_STOP (R109 to R112, R118, R144): the head descriptor is read; it launches, waits for its phase or for the outcomes that BARRIER
names, or is an error that leaves the channel in state 3. Completion makes the channel's bytes defined and its writes signalled (R20, R152).
Completion of READ_RESPONSE, WRITE_ACK, FAILURE_NOTICE, SPLIT_READ_TIMEOUT, POSTED_WRITE_TIMEOUT, CREDIT_RETURN, PORT_YIELD,
FLIT_CRC_ERROR, DIE_PORT_LINK_FAIL and PWLOG_POP (R25, R219 to R231, R457): a read that fails stops its channel in error; a port yields
when both sides have been full for 400 ns without a credit.
Clauses that the rules leave open follow the model's choice: log entries 17, 37, 39, 46, 48 and 103. -/
def Obligations.FabricCommandsComplete : Prop :=
  (∀ (src : Src) (c : CoreId) (ch : Fin 8) (ep : List (Option (List Byte))) (s : State), s.dmaReady c = true →
    (∀ l t, (s.chan c ch).queue = l :: t → (s.chan c ch).st = .idle → (s.chan c ch).head = none →
      exec (.dmaChainStart c ch) s = .next ((s.modChan c ch (fun h => { h with queue := t })).startChain c ch l)) ∧
    (∀ line t bs d, s.dmaMay c = true → (s.chan c ch).head = some line → (s.chan c ch).st = .idle →
      (s.read (lsBase c + line.toNat) 64 = (t, bs, none) → d = BitVec.ofNat 512 (leNat bs) →
        (descOk d = true → (dBarrier d = false ∨ t.chanTx c ch false = []) →
          (dPhased d = false → exec (.dmaDescriptorLaunch c ch ep) s = .next (t.launchDesc c ch d ep)) ∧
          (dPhased d = true → (t.wheel (dWheel d)).passed ((s.chan c ch).headFrame.get (dWheel d) 0) (dPhase d) = true →
            exec (.dmaDescriptorLaunch c ch ep) s =
              .next (((t.modChan c ch (fun h => { h with late := true })).lateEvent c).launchDesc c ch d ep)) ∧
          (dPhased d = true → (t.wheel (dWheel d)).passed ((s.chan c ch).headFrame.get (dWheel d) 0) (dPhase d) = false →
            exec (.dmaDescriptorLaunch c ch ep) s =
              .next ((t.modChan c ch (fun h => { h with st := .waitPhase, desc := d, rem := totalBytes d })).chanRenew c ch))) ∧
        (descOk d = true → dBarrier d = true → t.chanTx c ch false ≠ [] →
          exec (.dmaDescriptorLaunch c ch ep) s = .next (t.chanRenew c ch)) ∧
        (descOk d = false →
          exec (.dmaDescriptorLaunch c ch ep) s = .next ((t.chanError c ch).unitExc c 6 (lsBase c + line.toNat)))) ∧
      (∀ g, s.read (lsBase c + line.toNat) 64 = (t, bs, some g) → exec (.dmaDescriptorLaunch c ch ep) s =
        .next ((t.chanError c ch).raise .tc c.inst 6 (lsBase c + line.toNat) 0))) ∧
    (s.dmaMay c = true → (s.chan c ch).st = .waitPhase →
      (s.wheel (dWheel (s.chan c ch).desc)).passed ((s.chan c ch).headFrame.get (dWheel (s.chan c ch).desc) 0)
        (dPhase (s.chan c ch).desc) = true →
      exec (.dmaPhasedLaunch c ch ep) s = .next (s.launchDesc c ch (s.chan c ch).desc ep)) ∧
    (∀ u : State, u = s.pumpChan c ch (some ep) → (u.chan c ch).st = .active → (u.chan c ch).stopping = none → (u.chan c ch).out = [] →
      beats (u.chan c ch).desc ≤ (u.chan c ch).beat → u.chanTx c ch true = [] →
      ∃ v, exec (.dmaCompletion c ch ep) s = .next v ∧ v = u.endDesc c ch ∧
        (∀ l ∈ v.fab.landing, ¬(l.core = c ∧ l.chan = ch)) ∧
        (∀ x ∈ v.fab.tx, x.channel = some (c, ch) → x.signalled = true)) ∧
    (∀ b, (s.chan c ch).stopping = some b → s.chanTx c ch true = [] →
      exec (.dmaStopSettle c ch) s = .next ((s.modChan c ch (fun h => { h with
        st := if b then .stopped else .idle, head := none, stopping := none, out := [] })).chanRelease c ch)) ∧
    (s.mayWrite src .tc c.inst = true → s.reaches src (tcBase c + Reg.TC_DMACTRLc ch) = true →
      ((s.chan c ch).st = .error ∨ (s.chan c ch).st = .stopped ∨ (s.chan c ch).st = .idle ∧ (s.chan c ch).head = none →
        exec (.dmaChannelGo src c ch) s = .next (s.startChain c ch ((s.reg .tc c.inst (Reg.TC_DMAHEADc ch)).setWidth 20))) ∧
      ((s.chan c ch).st = .active →
        exec (.dmaChannelStop src c ch) s = .next (s.modChan c ch (fun h => { h with queue := [], stopping := some true }))) ∧
      ((s.chan c ch).st = .error → exec (.dmaChannelStop src c ch) s = .next
        ((s.modChan c ch (fun h => { h with queue := [], st := .stopped })).chanRelease c ch)) ∧
      ((s.chan c ch).st = .waitPhase → exec (.dmaChannelStop src c ch) s = .next
        ((s.modChan c ch (fun h => { h with queue := [], st := .stopped, head := none })).chanRelease c ch)))) ∧
  (∀ (id : Nat) (t : Tx) (s : State),
    (s.txOf id = some t →
      (t.isRead = true → t.fail = none → t.data.length = t.len → exec (.readResponse id) s =
        .next (((((s.dropTx id).deliver t.src t.addr t.data none).chanData t).pciCredit t.addr).pumpAll)) ∧
      (∀ code, t.isRead = true → t.fail = some code → exec (.readResponse id) s =
        .next (((((s.dropTx id).chanFails t).deliver t.src t.addr [] (some code)).pciCredit t.addr).pumpAll)) ∧
      (t.isRead = false → t.fail = none → exec (.writeAck id) s = .next ((s.dropTx id).pciCredit t.addr).pumpAll) ∧
      (∀ code, t.isRead = false → t.fail = some code →
        exec (.failureNotice id) s = .next ((s.dropTx id).pwFail t.src t.addr code t.target).pumpAll) ∧
      (t.since + 100000 ≤ s.now →
        (t.isRead = true → t.id = id → exec (.splitReadTimeout id) s = .next
          ((((s.dropTx id).raise .fab t.src.die 2 t.addr t.src.info).chanFails t).deliver t.src t.addr [] (some 6)).pumpAll) ∧
        (t.isRead = false → exec (.postedWriteTimeout id) s = .next ((s.dropTx id).pwFail t.src t.addr 6 t.target).pumpAll))) ∧
    (∀ (d : Fin 8) (p : Fin 7) (c : Fin 8), (∃ x ∈ s.fab.credits, x.die = d ∧ x.port = p ∧ x.cls = c) → ∀ u : State, u = { s with fab := { s.fab with
        credits := removeFirst (fun x => x.die == d && x.port == p && x.cls == c) s.fab.credits, credAt := s.fab.credAt.set (d, p) s.now } } →
      (s.yielding (d, p) = false → exec (.creditReturn d p c) s = .next u.pumpAll) ∧
      (s.yielding (d, p) = true → exec (.creditReturn d p c) s = .next
        ({ u.setFld .dp (portInst d p) Reg.DP_STAT 8 8 0 with fab := { u.fab with escape := u.fab.escape.set p 0 } } : State).pumpAll)) ∧
    (∀ (p : Fin 7) (n : Fin 33), s.up (domFab 6) = true → s.yielding (6, p) = false → s.stuck (6, p) = true →
      (∀ far, peer 6 p = some far → s.stuck far = true) →
      ∃ u, exec (.portYield p n) s = .next u ∧ u.yielding (6, p) = true ∧ u.fab.escape.get p 0 = 32 - n.val ∧
        u.reg .dp (portInst 6 p) Reg.DP_YIELDCNT = s.reg .dp (portInst 6 p) Reg.DP_YIELDCNT + 1 ∧ u.mem = s.mem) ∧
    (∀ (d : Fin 8) (p : Fin 7), s.up (domFab d) = true →
      exec (.flitCrcError d p) s = .next ((s.count .dp (portInst d p) Reg.DP_RETRYCNT 1).raise .dp (portInst d p) 0 0 0) ∧
      ((peer d p).isSome = true → exec (.diePortLinkFail d p) s = .next
        ((((s.setFld .dp (portInst d p) Reg.DP_STAT 3 0 3).setFld .die d Reg.DIE_PORTSTAT p p 0).raise .dp (portInst d p) 2 0 0).revokeLink d p))) ∧
    (∀ (src : Src) (d : Fin 8), s.reaches src (fabBase d + Reg.FAB_PWLOGPOP) = true →
      exec (.pwlogPop src d) s = .next { s with fab := { s.fab with pwlog := s.fab.pwlog.set d (s.fab.pwlog.get d []).tail } }))

/-- R224: a failure of a posted write sets the initiator's sticky bit, appends an entry with its address, class, target and code to the log, or
sets OVF when 16 entries are full, sets PWFAIL, and adds 1 to the failure count of a core that runs alone, or of a hart. -/
def Obligations.PostedWriteFailureIsRecorded : Prop :=
  ∀ (s : State) (src : Src) (a code : Nat) (target : Fin 8),
    bitOf ((s.pwFail src a code target).reg .fab src.die (Reg.FAB_PWSTICKYw (src.agent.toNat / 32))) (src.agent.toNat % 32) = true ∧
    ((s.fab.pwlog.get src.die []).length < 16 → (s.pwFail src a code target).fab.pwlog.get src.die [] =
      s.fab.pwlog.get src.die [] ++ [⟨a, code, src.cls, target, src.agent⟩]) ∧
    (16 ≤ (s.fab.pwlog.get src.die []).length → (s.pwFail src a code target).fab.pwlog = s.fab.pwlog ∧
      bitOf ((s.pwFail src a code target).reg .fab src.die Reg.FAB_PWLOGCNT) 31 = true) ∧
    bitOf ((s.pwFail src a code target).reg .fab src.die 8) 1 = true ∧
    (∀ c, src.core = some c → s.locked c.pair = false →
      ((s.pwFail src a code target).core c).failCount = satAdd (s.core c).failCount 1) ∧
    (∀ h, src.core = none → src.hart = some h → ((s.pwFail src a code target).hart h).fails = satAdd (s.hart h).fails 1) ∧
    (s.pwFail src a code target).mem = s.mem

/-- Completion of READ_REQUEST, POSTED_WRITE, REGISTER_WRITE, EXPERT_EN_WRITE and READ_CLEAR (R10, R13, R14, R25, R214, R219, R221): inside
one die the data of memory or of a register reach the requester, bytes land in a store, a word reaches its register, and a refused read gets
its code; across dies a request that can be served takes a tracker and a credit for each flit, and its outcome comes with the response.
Clauses that the rules leave open follow the model's choice: log entries 17 and 84. -/
def Obligations.RequestsComplete : Prop :=
  ∀ (src : Src) (a : Addr) (s : State),
    (∀ n cl off bs s', s.local_ src a.toNat n false → s.target a.toNat = .cs cl off → s.read a.toNat n = (s', bs, none) →
      exec (.readRequest src a n none) s = .next (s'.deliver src a.toNat bs none)) ∧
    (∀ n d u v bs, s.local_ src a.toNat n false → s.target a.toNat = .dram d → s.mayServe src a.toNat n false = true →
      (s.serve src a.toNat n false).cached src a.toNat n false = (u, false) → u.read a.toNat n = (v, bs, none) →
      exec (.readRequest src a n none) s = .next (v.deliver src a.toNat bs none)) ∧
    (∀ k, s.local_ src a.toNat 4 false → s.target a.toNat = .reg k →
      exec (.readRequest src a 4 none) s = .next ((s.readEffect k).deliver src a.toNat (leBytes 4 (s.view k).toNat) none) ∧
      (isRc k = true →
        exec (.readClear src a) s = .next ((s.readEffect k).deliver src a.toNat (leBytes 4 (s.view k).toNat) none))) ∧
    (∀ n r, src.hart = none → addrDie a.toNat = src.die → s.isPci a.toNat = false → s.mayServe src a.toNat n false = true →
      s.refusal src a.toNat n false = some r →
      exec (.readRequest src a n none) s = .next ((s.recordRefusal src a.toNat r).deliver src a.toNat [] (some r.code))) ∧
    (∀ n u v bs fail, src.hart = none → addrDie a.toNat ≠ src.die → s.isPci a.toNat = false → s.mayServe src a.toNat n false = true →
      s.trackerFree true src a.toNat = true → s.takeCredits src a.toNat 1 = some u →
      (u.cross src a.toNat n false).readAt src a.toNat n = (v, bs, fail) →
      exec (.readRequest src a n none) s = .next (v.addTx true src a.toNat n bs fail 8)) ∧
    (∀ data cl off, s.local_ src a.toNat data.length true → s.target a.toNat = .cs cl off →
      exec (.postedWrite src a data) s = .next (s.store a.toNat data)) ∧
    (∀ data u v fail, src.hart = none → addrDie a.toNat ≠ src.die → s.isPci a.toNat = false →
      s.mayServe src a.toNat data.length true = true → s.trackerFree false src a.toNat = true →
      s.takeCredits src a.toNat (flits true data.length) = some u →
      (u.cross src a.toNat data.length true).writeAt src a.toNat data = (v, fail) →
      exec (.postedWrite src a data) s = .next (v.addTx false src a.toNat data.length data fail 8)) ∧
    (∀ k, s.local_ src a.toNat 4 true → s.target a.toNat = .reg k →
      (∀ v : BitVec 64, inRegs a.toNat = true →
        exec (.registerWrite src a 4 v) s = .next (s.writeReg src k (v.setWidth 32))) ∧
      (∀ v : Word, enOff k.blk = some k.off → exec (.expertEnWrite src a v) s = .next (s.writeCtrl src k v)))

/-- R10, R12: a read of an RC register gives its value and leaves 0.
R14: without expert control a write of a configuration field from outside device firmware changes no register; when it would have changed
something it is signalled to FP7, and otherwise it has no effect at all.
Clauses that the rules leave open follow the model's choice: log entry 84. -/
def Obligations.RegisterAccessFollowsItsKind : Prop :=
  (∀ (s : State) (k : RegKey), isRc k = true → s.viewOf k = none →
    (s.readReg k).2 = s.reg k.blk k.inst k.off ∧ (s.readReg k).1.reg k.blk k.inst k.off = 0 ∧ (s.readReg k).1.mem = s.mem) ∧
  (∀ (s : State) (src : Src) (b : Blk) (i : Nat) (would : Bool) (f : State → State),
    (s.mayWrite src b i = true → s.guarded src b i would f = f s) ∧
    (s.mayWrite src b i = false → (s.guarded src b i would f).regs = s.regs ∧ (s.guarded src b i would f).mem = s.mem ∧
      (s.guarded src b i would f).flt.ignWr = s.flt.ignWr ++ (if would then [(b, i)] else [])) ∧
    (b ∈ [.fab, .mc, .dp, .cad, .tu, .whl, .fw, .pwr] → src.fw = false → bitOf (s.reg b i 0) 0 = false → s.mayWrite src b i = false))

/-- Completion of SHARE_WINDOW_START, DRAM_REFRESH, DRIFT_COMPENSATION, DRAM_TEMP_READ and the write-backs of corrected words (R106, R197,
R201 to R206, R214 to R216, R232). The refresh rate is a free value (log entry 11).
Clauses that the rules leave open follow the model's choice: log entry 86. -/
def Obligations.MemoryUpkeepCommandsComplete : Prop :=
  ∀ (s : State) (i : Nat),
    (∀ isPort, arbiterOk isPort i = true → ∃ t, exec (.shareWindowStart isPort i []) s = .next t ∧
      (∀ e, (t.shUse (arbBlk isPort) i e).used = 0 ∧ (t.shUse (arbBlk isPort) i e).credit = (s.shUse (arbBlk isPort) i e).credit) ∧
      (s.fab.shPend = [] → (256 < s.shSum (arbBlk isPort) i → bitOf (t.reg (arbBlk isPort) i 8) 3 = true) ∧
        (s.shSum (arbBlk isPort) i ≤ 256 → t.regs = s.regs)) ∧ t.mem = s.mem) ∧
    (mcReady s i = true →
      exec (.dramRefresh i) s = .next { s with fab := { s.fab with mcRefresh := s.fab.mcRefresh.set i (s.fab.mcRefresh.get i 0 + 1) } } ∧
      exec (.driftCompensation i) s = .next { s with fab := { s.fab with mcDrift := s.fab.mcDrift.set i (s.fab.mcDrift.get i 0 + 1) } } ∧
      (∀ temp, s.tempDue i = true → exec (.dramTempRead i temp) s = .next { s.freeWord.2 with fab := { s.fab with
        mcTemp := s.fab.mcTemp.set i temp, mcTempAt := s.fab.mcTempAt.set i s.now, mcRate := s.fab.mcRate.set i s.freeWord.1 } })) ∧
    (∀ g, g ∈ s.fab.eccWb → s.fab.ecc.get? g = some .single → ∀ t : State, t = { s with fab := { s.fab with
        eccWb := s.fab.eccWb.filter (· != g), ecc := s.fab.ecc.erase g } } →
      (∀ d, s.target g = .dram d → exec (.dramCeWriteback g) s = .next t) ∧
      (∀ c off, s.target g = .ls c off → exec (.lsEccWriteback g) s = .next t) ∧
      (∀ cl off, s.target g = .cs cl off → exec (.csEccWriteback g) s = .next t))

/-! ### Ring pairs -/

/-- Completion of DOORBELL, RING_POLL, NOP, RING_OPEN, RING_CLOSE, LOG_CFG, ACCT_READ and STATUS_READ (R332 to R341, R366, R368).
A REFUSED whose DETAIL no rule gives takes a free value (log entry 34).
Clauses that the rules leave open follow the model's choice: log entries 54 and 87. -/
def Obligations.RingCommandsComplete : Prop :=
  ∀ (src : Src) (p q : Fin 64) (e : BitVec 512) (s : State),
    ((s.ring p).isOpen = true → s.fpRuns (ringFp p) = true → s.served p = true →
      exec (.ringPoll p) s = .next ((((s.takeHead p).takeTail p).cqMove 65537 p).takeCommand p) ∧
      (s.reaches src (vehRegs 0x1300000 + Reg.FW_DBp p) = true → (src = fp6Src ∨ src.world = (s.ring p).world) →
        exec (.doorbell src p) s = .next ((((s.takeHead p).takeTail p).cqMove 65537 p).takeCommand p))) ∧
    (s.accepts p 0x01 [] [] false e → exec (.cmdNop p) s = .next (s.complete p 0 0 0 0)) ∧
    (∀ (ctx : BitVec 12) (h bs : List Byte) ws (n sn cn : Nat) (world : Bool) (u v w : State), s.accepts p 0x02 [] [(8, 5, 0), (8, 16, 16),
        (8, 17, 17), (8, 27, 24), (8, 31, 28), (0xC, 11, 0), (0x10, 47, 0), (0x18, 47, 0), (0x20, 47, 0)] true e →
      q = Fin.ofNat 64 (eBits e 8 5 0) → sn = eBits e 8 27 24 → cn = eBits e 8 31 28 → world = (eBits e 8 16 16 == 1) →
      ctx = BitVec.ofNat 12 (eBits e 0xC 11 0) → 4 ≤ sn → sn ≤ 12 → 4 ≤ cn → cn ≤ 12 → eAddr e 0x10 % 4096 = 0 → eAddr e 0x18 % 4096 = 0 →
      s.named ctx = true → (ctx ≠ 0 → world = s.ctxWorld ctx) →
      (eBits e 8 17 17 = 0 → eAddr e 0x20 = 0 → (s.ring q).isOpen = true → exec (.ringOpen p) s = .next (s.refuseFree p)) ∧
      (eBits e 8 17 17 = 0 → eAddr e 0x20 = 0 → (s.ring q).isOpen = false → exec (.ringOpen p) s =
        .next ((s.openRing q world false ctx sn cn (eAddr e 0x10) (eAddr e 0x18) []).complete p 0 0 0 0)) ∧
      (eBits e 8 17 17 = 1 → (s.ring q).isOpen = false → s.fpRuns 4 = true → s.fwRead (p.val == 1) (eAddr e 0x20) 0x21 = (u, some h) →
        n = (h.getD 0x20 0).toNat → n ≤ 8 → u.fwRead (p.val == 1) (eAddr e 0x20) (0x28 + n * 16) = (v, some bs) →
        allSome ((List.range n).map (parseWindow bs)) = some ws → v.ringSlot q ctx (bs.take 32) = some w → exec (.ringOpen p) s =
          .next ((w.openRing q world true ctx sn cn (eAddr e 0x10) (eAddr e 0x18) ws).complete p 0 0 0 0))) ∧
    (s.accepts p 0x03 [] [(8, 5, 0)] true e → q = Fin.ofNat 64 (eBits e 8 5 0) → 2 ≤ q.val → (s.ring q).isOpen = true →
      (s.ring q).closing = false →
      ((s.ring q).taken = none → exec (.ringClose p) s = .next ((s.closeRing q).complete p 0 0 0 0)) ∧
      ((s.ring q).taken ≠ none → exec (.ringClose p) s = .next (s.setRing q { s.ring q with closing := true, closeBy := some p }))) ∧
    (s.accepts p 0x22 [7] [(8, 15, 0)] true e → exec (.logCfg p) s = .next
      ((({ s with fw := { s.fw with traceMask := e.extractLsb' 64 16 } } : State).store32 (dirBase + 0x20) ((e.extractLsb' 64 16).setWidth 32)).complete p 0 0 0 0)) ∧
    (s.accepts p 0x21 [2] [(8, 11, 0), (0x10, 47, 0)] false e → eAddr e 0x10 % 64 = 0 → s.mayUse p (BitVec.ofNat 12 (eBits e 8 11 0)) = true →
      s.named (BitVec.ofNat 12 (eBits e 8 11 0)) = true →
      exec (.acctRead p) s = .next (s.copyOut p (eAddr e 0x10) (s.acct (BitVec.ofNat 12 (eBits e 8 11 0))).bytes 0 0)) ∧
    (∀ s' bs, s.accepts p 0x20 [] [(8, 2, 0), (0x10, 47, 0), (0x18, 9, 0), (0x20, 47, 0)] false e → isControl p = true →
      0 < eBits e 0x18 9 0 → eAddr e 0x10 % 4 = 0 → 0x180000000000 ≤ eAddr e 0x10 → eAddr e 0x10 + 4 * eBits e 0x18 9 0 ≤ 2 ^ 45 →
      eAddr e 0x20 % 64 = 0 →
      State.statusWords (p.val == 1) true (eBits e 0x18 9 0) s (dieBase (eBits e 8 2 0) + eAddr e 0x10) = (s', some bs) →
      exec (.statusRead p) s = .next (s'.copyBuf p (eAddr e 0x20) bs 0 0))

/-- R339: a command form with a bit outside its fields completes with BADCMD, and a command of a control pair sent through a context pair with
DENIED; an entry is never performed without the opcode of its command.
R334, R337, R342: the completion of a taken command frees its pair for the next one and, with room in the ring and nothing held, advances
CQ_TAIL by one; with the ring full the entry is held, and CQ_TAIL stays.
Clauses that the rules leave open follow the model's choice: log entry 51. -/
def Obligations.RingPairsTurnAwayAndPost : Prop :=
  (∀ (s : State) (p : Fin 64) (op : Nat) (needs : List (Fin 8)) (fields : List (Nat × Nat × Nat)) (ctl : Bool) (k : BitVec 512 → State)
    (e : BitVec 512),
    ((s.ring p).taken = none → s.command p op needs fields ctl k = s) ∧
    ((s.ring p).taken = some e → eOp e ≠ op → s.command p op needs fields ctl k = s) ∧
    (s.takenCmd p op needs = some e → s.pkg ≠ pkSHUTTING → eClean e fields = false → s.command p op needs fields ctl k = s.complete p 1 0 0 0) ∧
    (s.takenCmd p op needs = some e → s.pkg ≠ pkSHUTTING → eClean e fields = true → ctl = true → isControl p = false →
      s.command p op needs fields ctl k = s.complete p 6 0 0 0) ∧
    (s.takenCmd p op needs = some e → s.pkg = pkSHUTTING → op ≠ 0x2A → s.command p op needs fields ctl k = s.complete p 6 0 0 0)) ∧
  (∀ (s : State) (p : Fin 64) (e : BitVec 512) (status detail v0 v1 : Nat),
    (s.ring p).isOpen = true → (s.ring p).closing = false → (s.ring p).taken = some e →
    ((s.complete p status detail v0 v1).ring p).taken = none ∧
    ((s.ring p).held = [] → (s.ring p).room = true → ((s.complete p status detail v0 v1).ring p).cqTail = (s.ring p).cqTail + 1) ∧
    ((s.ring p).room = false → ((s.complete p status detail v0 v1).ring p).cqTail = (s.ring p).cqTail ∧
      ((s.complete p status detail v0 v1).ring p).held.length = (s.ring p).held.length + 1))

/-- Completion of JOB_ARM, JOB_DISARM, JOB_SUBMIT and JOB_ABORT (R270, R276, R278, R280, R286, R339, R344): an armed kind and the frame of
its first launch in VALUE0; the queue number of a submission; ABORTED for a job whose record was EMPTY.
Clauses that the rules leave open follow the model's choice: log entry 56. -/
def Obligations.JobRingCommandsComplete : Prop :=
  ∀ (p : Fin 64) (e : BitVec 512) (x : Part) (k : Kind) (j : Job) (s : State) (pid kn : Fin 32),
    pid = Fin.ofNat 32 (eBits e 8 4 0) → kn = Fin.ofNat 32 (eBits e 8 12 8) → s.livePart pid = some x → s.mayUse p x.ctx = true →
    (s.accepts p 0x12 [] jobFields false e → (entryDesc p e).notify.val ≠ 3 → (entryDesc p e).arg % 256 = 0 → (entryDesc p e).res % 64 = 0 →
      x.kind kn = some k → k.typ ≠ .queued → s.headerOk x.ctx (entryDesc p e).res = true → x.failed = false →
      (k.armed = false → exec (.jobArm p) s = .next ((s.setPart pid { x.setKind { k with
          armed := true, armFrame := if (s.wheel x.wheel).begun then (s.wheel x.wheel).frame + 2 else 1,
          desc := some (entryDesc p e), staged := none, lastFrame := none } with rearm := x.rearm.filter (· != kn) }).complete p 0 0
        (if (s.wheel x.wheel).begun then (s.wheel x.wheel).frame + 2 else (1 : Word)).toNat 0)) ∧
      (k.armed = true → exec (.jobArm p) s = .next (s.complete p 0 0 (nextLaunch (s.wheel x.wheel) k).toNat 0))) ∧
    (s.accepts p 0x13 [] [(8, 4, 0), (8, 12, 8)] false e → x.kind kn = some k → k.typ ≠ .queued →
      exec (.jobDisarm p) s = .next (((s.unstage x k).setPart pid (x.setKind { k with armed := false, staged := none })).complete p 0 0 0 0)) ∧
    (s.accepts p 0x14 [] jobFields false e → (entryDesc p e).notify.val ≠ 3 → (entryDesc p e).arg % 256 = 0 → (entryDesc p e).res % 64 = 0 →
      x.kind kn = some k → k.typ = .queued → s.headerOk x.ctx (entryDesc p e).res = true → x.failed = false →
      (s.sched.jobs.filter (fun j => j.part == pid && j.kind == kn && j.out == .empty && !j.launched)).length < k.qdepth →
      (s.ring p).held.length < 65536 →
      exec (.jobSubmit p) s = .next (((s.setPart pid (x.setKind { k with nextSeq := k.nextSeq + 1 })).addJob
        { newJob pid x k (entryDesc p e) true k.nextSeq with acceptLt := s.now }).complete p 0 0 k.nextSeq.toNat 0)) ∧
    (s.accepts p 0x15 [] [(8, 4, 0), (8, 12, 8), (0xC, 31, 0)] false e → s.part pid = some x → s.findJob pid kn (eWord e 0xC) = some j →
      j.out = .empty →
      (j.launched = false → exec (.jobAbort p) s = .next ((s.finalize j .aborted).complete p 8 0 0 0)) ∧
      (j.launched = true → exec (.jobAbort p) s = .next (((s.finalize j .aborted).stopJob j).complete p 8 0 0 0)))

/-- Completion of WHEEL_SET, the seven actions of TIME_SET, TRIG_SET, CAP_SET, TIME_READ and CAP_READ (R234 to R236, R242 to R248, R257,
R260, R339, R643).
Clauses that the rules leave open follow the model's choice: log entries 34, 49, 56 and 111. -/
def Obligations.TimeRingCommandsComplete : Prop :=
  ∀ (p : Fin 64) (e : BitVec 512) (s : State) (w d : Fin 4) (n : Fin 32) (v : BitVec 64),
    (∀ c : Word, s.accepts p 0x18 [5] [(8, 1, 0), (8, 2, 2), (8, 3, 3), (8, 8, 4), (8, 15, 12), (0xC, 31, 0)] true e →
      w = Fin.ofNat 4 (eBits e 8 1 0) →
      c = BitVec.ofNat 32 (eBits e 8 2 2 * 2 ^ 31 + eBits e 8 3 3 * 2 ^ 30 + eBits e 8 8 4 * 2 ^ 21 + eBits e 8 15 12 * 2 ^ 16) →
      (s.time.frozen = true → exec (.wheelSet p) s = .next (s.refuseFree p)) ∧
      (s.admitted w = true → eBits e 8 2 2 = 0 → exec (.wheelSet p) s = .next (s.refuseFree p)) ∧
      (s.time.frozen = false → s.admitted w = false →
        (eBits e 8 2 2 = 0 →
          exec (.wheelSet p) s = .next (((s.setReg .whl 0 (Reg.WHL_PERw w) (eWord e 0xC)).writeWhlCfg w c).complete p 0 0 0 0)) ∧
        (eBits e 8 2 2 = 1 → (s.wheel w).live = true → exec (.wheelSet p) s = .next (s.complete p 0 0 0 0)) ∧
        (eBits e 8 2 2 = 1 → (s.wheel w).live = false → s.enableOk w c (eWord e 0xC).toNat = true →
          exec (.wheelSet p) s = .next (((s.setReg .whl 0 (Reg.WHL_PERw w) (eWord e 0xC)).armWheel w c).complete p 0 0 0 0)) ∧
        (eBits e 8 2 2 = 1 → (s.wheel w).live = false → s.enableOk w c (eWord e 0xC).toNat = false →
          exec (.wheelSet p) s = .next (s.refuseFree p)))) ∧
    (s.accepts p 0x19 [5] [(8, 1, 0), (8, 7, 4), (0x10, 63, 0)] true e → d = Fin.ofNat 4 (eBits e 8 1 0) → v = e.extractLsb' 128 64 →
      (eBits e 8 7 4 = 0 → exec (.timeSetEnable p) s = .next ((s.setFld .tu 0 (Reg.TU_DdCTRL d) 31 31 1).complete p 0 0 0 0)) ∧
      (eBits e 8 7 4 = 1 → s.bound d = false →
        exec (.timeSetDisable p) s = .next ((s.setFld .tu 0 (Reg.TU_DdCTRL d) 31 31 0).complete p 0 0 0 0)) ∧
      (eBits e 8 7 4 = 1 → s.domEnabled d = true → s.bound d = true →
        exec (.timeSetDisable p) s = .next ((s.count .tu 0 (Reg.TU_DdREFUSE d) 1).refuseFree p)) ∧
      (eBits e 8 7 4 = 2 → fits32 v = true →
        exec (.timeSetRate p) s = .next ((s.setReg .tu 0 (Reg.TU_DdRATE d) (v.setWidth 32)).complete p 0 0 0 0)) ∧
      (eBits e 8 7 4 = 3 → fits32 v = true → exec (.timeSetSlew p) s = .next ((s.domSlew d v.toInt).complete p 0 0 0 0)) ∧
      (eBits e 8 7 4 = 4 → s.bound d = false → exec (.timeSetStep p) s = .next
        (((s.setDom d { s.dom d with acts := (s.dom d).acts ++ [.step v.toInt] }).trace 5 0x0502
          [d, v.toNat % 2 ^ 32, v.toNat / 2 ^ 32]).complete p 0 0 0 0)) ∧
      (eBits e 8 7 4 = 4 → s.bound d = true →
        exec (.timeSetStep p) s = .next ((s.count .tu 0 (Reg.TU_DdREFUSE d) 1).refuseFree p)) ∧
      (∀ u : State, eBits e 8 7 4 = 5 → u = s.setReg2 .tu 0 (Reg.TU_DdSETL d) (Reg.TU_DdSETH d) v.toNat →
        (u.bound d = false →
          exec (.timeSetLoad p) s = .next ((u.setDom d { u.dom d with acts := (u.dom d).acts ++ [.load v] }).complete p 0 0 0 0)) ∧
        (u.bound d = true → exec (.timeSetLoad p) s = .next ((u.count .tu 0 (Reg.TU_DdREFUSE d) 1).refuseFree p))) ∧
      (eBits e 8 7 4 = 6 → v.toNat < 128 →
        exec (.timeSetDomainNumber p) s = .next ((s.setFld .tu 0 (Reg.TU_DdCTRL d) 6 0 v.toNat).complete p 0 0 0 0))) ∧
    (s.accepts p 0x1A [5] [(8, 4, 0), (0xC, 31, 22), (0xC, 15, 0), (0x10, 31, 0), (0x14, 31, 0), (0x18, 31, 0), (0x1C, 31, 0), (0x20, 15, 0)] true e →
      n = Fin.ofNat 32 (eBits e 8 4 0) →
      (trgEn (s.trgCfg n) = true → trgEn (eWord e 0xC) = true → exec (.trigSet p) s = .next (s.complete p 0 0 1 0)) ∧
      (trgEn (s.trgCfg n) = true → trgEn (eWord e 0xC) = false → exec (.trigSet p) s = .next ((s.trigDisable n).complete p 0 0 1 0)) ∧
      (∀ u : State, trgEn (s.trgCfg n) = false → u = ((((s.setReg .tu 0 (Reg.TU_TRGSTARTLn n) (eWord e 0x10)).setReg .tu 0 (Reg.TU_TRGSTARTHn n) (eWord e 0x14)).setReg
          .tu 0 (Reg.TU_TRGPERn n) (eWord e 0x18)).setReg .tu 0 (Reg.TU_TRGWIDn n) (eWord e 0x1C)).setReg .tu 0 (Reg.TU_TRGADVn n) (eWord e 0x20) →
        (trgEn (eWord e 0xC) = true → u.trigOk n (eWord e 0xC &&& 0xFFC0FFFF) = true → u.time.frozen = false →
          exec (.trigSet p) s = .next ((u.trigEnable n (eWord e 0xC &&& 0xFFC0FFFF)).complete p 0 0 0 0)) ∧
        (trgEn (eWord e 0xC) = true → u.trigOk n (eWord e 0xC &&& 0xFFC0FFFF) = false → exec (.trigSet p) s = .next
          (((u.setReg .tu 0 (Reg.TU_TRGCFGn n) (eWord e 0xC &&& 0xFFC0FFFF &&& 0x7FFFFFFF)).raise .tu 0 0 0 0).refuseFree p)) ∧
        (trgEn (eWord e 0xC) = false →
          exec (.trigSet p) s = .next ((u.setReg .tu 0 (Reg.TU_TRGCFGn n) (eWord e 0xC &&& 0xFFC0FFFF)).complete p 0 0 0 0)))) ∧
    (s.accepts p 0x1B [5] [(8, 4, 0), (0xC, 31, 25), (0xC, 4, 0)] true e → n = Fin.ofNat 32 (eBits e 8 4 0) →
      (capOk (eWord e 0xC) = true → exec (.capSet p) s = .next ((s.writeCap n (eWord e 0xC)).complete p 0 0 0 0)) ∧
      (capOk (eWord e 0xC) = false → exec (.capSet p) s = .next ((s.writeCap n (eWord e 0xC)).refuseFree p))) ∧
    (s.accepts p 0x1C [5] [(8, 47, 0)] true e → eAddr e 8 % 64 = 0 →
      exec (.timeRead p) s = .next (s.copyOut p (eAddr e 8) (leBytes 8 s.now ++ (List.finRange 4).flatMap (fun d => leBytes 8 (s.dom d).time.toNat) ++
        (List.finRange 4).flatMap (fun d => leBytes 4 (s.timeState d)) ++ leBytes 8 0) 0 0)) ∧
    (∀ s', s.accepts p 0x1D [5] [(8, 4, 0), (0x10, 47, 0)] true e → n = Fin.ofNat 32 (eBits e 8 4 0) → eAddr e 0x10 % 64 = 0 →
      s.fwWrite (p.val == 1) (eAddr e 0x10) ((s.cap n).fifo.flatMap (fun f => leBytes 4 f.1.toNat)) = (s', true) →
      exec (.capRead p) s = .next ((s'.setCap n { s'.cap n with fifo := [] }).complete p 0 0 (s.cap n).fifo.length 0))

/-- Completion of the commands of the remote-access protocol (R349 to R357) on datagrams as they arrive: OPEN makes a half-open session and is
answered in clear with a tag; a sealed request of a session is opened under its key, executed once and answered, a repeated one gets its kept
answer, an undefined operation gets BADOP, one without a session or with a wrong tag is dropped and counted. Sessions and half-open sessions end
at their timeouts.
Clauses that the rules leave open follow the model's choice: log entries 11, 58 and 115. -/
def Obligations.RemoteAccessCommandsComplete : Prop :=
  ∀ (q : RapDgram) (p : Fin 64) (x : Session) (s : State), p = tpPair q.bytes →
    (∀ id nd y, s.rapFor q = true → s.fpRuns 6 = true → s.rapPair p = true → tpForm 0x4852 q.bytes 0 = true → tpOp q.bytes = 1 →
      tpSession q.bytes = 0 → tpSeq q.bytes = 0 → tpLen q.bytes = 16 → id ≠ 0 → s.session p id = none →
      (s.fw.sessions.filter (fun x => x.pair == p && !x.established)).length < 4 →
      y = (⟨p, id, false, s.now, s.now, none, tpPayload q.bytes, nd, q.peer, []⟩ : Session) →
      exec (.rapOpen q id nd) s = .next (({ s with fw := { s.fw with sessions := s.fw.sessions ++ [y] } } : State).rapSend
        ⟨p, q.peer, ({ s with fw := { s.fw with sessions := s.fw.sessions ++ [y] } } : State).openAnswer y⟩)) ∧
    (s.rapFor q = true → s.fpRuns 6 = true → s.rapPair p = true → tpForm 0x4852 q.bytes 16 = true →
      (tpOp q.bytes = 6 → s.session p (tpSession q.bytes) = none →
        exec (.rapKeepalive q) s = .next (s.count .fw 0 Reg.FW_RAPDROP 1)) ∧
      (s.session p (tpSession q.bytes) = some x →
        (tpOp q.bytes = 6 → tpOpened (s.sessionKey x) q.bytes = none → exec (.rapKeepalive q) s = .next (s.rapAuthFail p q)) ∧
        (∀ pt u, tpOpened (s.sessionKey x) q.bytes = some pt → tpSeq q.bytes ≠ 0 → (tpSeq q.bytes).toNat ≤ 2 ^ 62 →
          (x.established = true ∨ tpSeq q.bytes = 1) →
          u = (if x.established then s else s.establish q x).putSession { x with established := true, lastValid := s.now, peer := q.peer } →
          (∀ y, tpOp q.bytes = 6 → x.done.find? (fun y => y.1 == tpSeq q.bytes) = some y →
            exec (.rapKeepalive q) s = .next (u.rapSend ⟨p, q.peer, y.2⟩)) ∧
          ((∀ y ∈ x.done, y.1 ≠ tpSeq q.bytes) → x.done.length < 64 →
            (tpOp q.bytes = 6 → exec (.rapKeepalive q) s = .next (u.rapRespond p q 0 [])) ∧
            (tpOp q.bytes = 5 → exec (.rapClose q) s = .next ((u.rapRespond p q 0 []).dropSession p (tpSession q.bytes))) ∧
            (tpOp q.bytes = 4 → exec (.rapDoorbell q) s = .next ((u.doorbell fp6Src p).rapRespond p q 0 [])) ∧
            (∀ n u' bs, tpOp q.bytes = 2 → pt = leBytes 4 n → n < 2 ^ 32 → (u.ring p).rapStatus p (tpAddr q.bytes) n false = 0 →
              u.unitRead fp6Src (tpAddr q.bytes) n = (u', some bs) → exec (.rapRead q) s = .next (u'.rapRespond p q 0 bs)) ∧
            (∀ u', tpOp q.bytes = 3 → (u.ring p).rapStatus p (tpAddr q.bytes) pt.length true = 0 →
              u.rapStore (tpAddr q.bytes) pt = (u', true) → exec (.rapWrite q) s = .next (u'.rapRespond p q 0 [])) ∧
            (rapOps.contains (tpOp q.bytes) = false → exec (.rapKeepalive q) s = .next (u.rapRespond p q 3 [])))))) ∧
    (s.fpRuns 6 = true → s.rapPair p = true → s.fw.sessions.find? (fun x => x.pair == p && x.established) = some x → x.lastNotify = none →
      (s.ring p).cqTail ≠ s.load32 (ringCb p + 0x24) → bitOf (s.load32 (ringCb p + 0x2C)) 0 = true →
      exec (.rapNotify p) s = .next ((s.freeWord.2.putSession { x with lastNotify := some s.now }).rapSend
        ⟨p, x.peer, tpSealed 0x4852 (s.freeWord.2.sessionKey x) 7 0 x.id p.val (BitVec.ofNat 64 (2 ^ 63) ||| s.freeWord.1.setWidth 64)
          (leBytes 4 (s.ring p).cqTail.toNat)⟩)) ∧
    (∀ p, ∃ t, exec (.rapSessionTimeout p) s = .next t ∧
      (∀ y, y ∈ t.fw.sessions ↔ y ∈ s.fw.sessions ∧ ¬ (y.pair = p ∧ y.established = true ∧ y.lastValid + 10000000000 ≤ s.now)) ∧
      t.mem = s.mem ∧ t.regs = s.regs) ∧
    (∀ p, ∃ t, exec (.rapHalfopenTimeout p) s = .next t ∧
      (∀ y, y ∈ t.fw.sessions ↔ y ∈ s.fw.sessions ∧ ¬ (y.pair = p ∧ y.established = false ∧ y.openedLt + 1000000000 ≤ s.now)) ∧
      t.mem = s.mem ∧ t.regs = s.regs)

/-! ### Jobs, partitions and firmware processors -/

/-- Completion of the job commands (R263 to R301, R345, R360), each when its time or its message has come: an argument read keeps the block
for its frame; a launch starts the cores of its kind; a launch without its block ends FAULTED; the last END completes or yields a job; a
passed deadline makes it MISSED and stops it, also when the last END comes after it; a forwarded abort gets its answer; the oldest record of the mailbox is posted.
Clauses that the rules leave open follow the model's choice: log entries 8, 18, 53, 57 and 113. -/
def Obligations.JobInstancesComplete : Prop :=
  ∀ (pid kn : Fin 32) (p : Part) (k : Kind) (d : JobDesc) (j : Job) (c : CoreId) (cl : ClusterId) (i : Fin 64) (src : Src) (v n : Word)
    (bs : List Byte) (s u : State),
    (s.part pid = some p → p.kind kn = some k → k.desc = some d → (s.wheel p.wheel).going = true →
      n = (ticksTo (s.wheel p.wheel) k.launch.toNat).2 → p.launches k n = true →
      0 < (ticksTo (s.wheel p.wheel) k.launch.toNat).1 → (ticksTo (s.wheel p.wheel) k.launch.toNat).1 ≤ 64 →
      (∀ st, k.staged = some st → st.1 ≠ n) → ∀ b, s.argRead pid p k d.arg = (u, b) →
      exec (.argumentRead pid kn) s = .next ((if b.isSome then
          (p.kindCores k).foldl (fun (s : State) c => if s.coreFree c then s.setCadCore c 1 else s) u else u).modKind pid kn
        (fun k => { k with staged := some (n, b) }))) ∧
    (∀ b : Option (List Byte), s.part pid = some p → p.kind kn = some k → k.desc = some d → k.staged = some (n, b) →
      (s.wheel p.wheel).going = true → p.launches k n = true → (s.wheel p.wheel).passed n k.launch.toNat = true → k.lastFrame ≠ some n →
      (∀ y, s.sched.jobs.find? (fun j => j.queued && !j.stopping && j.out == .empty && j.running.any (p.kindCores k).contains) = some y →
        exec (.periodicLaunch (.job pid kn)) s =
          .next ((s.prefail pid kn p.lead y (p.kindCores k)).modKind pid kn (fun k => { k with hit := some n }))) ∧
      (s.sched.jobs.find? (fun j => j.queued && !j.stopping && j.out == .empty && j.running.any (p.kindCores k).contains) = none →
        (p.kindCores k).all s.coreFree = true → j = newJob pid p k d false (if b.isSome then (s.wheel p.wheel).frame else n) →
        u = (s.modKind pid kn (fun k => { k with staged := none, lastFrame := some n, hit := none })).addJob j →
        (b = none → exec (.periodicLaunch (.job pid kn)) s = .next (u.finalize j .faulted)) ∧
        (b = some bs → (s.wheel p.wheel).frame = n → (s.wheel p.wheel).phase = k.launch → k.hit ≠ some n →
          exec (.periodicLaunch (.job pid kn)) s = .next (u.launch p k j bs)) ∧
        (b = some bs → ¬((s.wheel p.wheel).frame = n ∧ (s.wheel p.wheel).phase = k.launch ∧ k.hit ≠ some n) →
          (p.kindCores k).head? = some c →
          exec (.periodicLaunch (.job pid kn)) s = .next ((u.launch p k j bs).lateEvent c)))) ∧
    (s.expertEntry cl i = true → s.up (domCluster cl) = true → s.entryCores cl i = [c] → (s.wheel (s.core c).jobWheel).going = true →
      (s.wheel (s.core c).jobWheel).phase.toNat = s.fld .cad cl.inst (Reg.CAD_LTABi i) 15 0 → s.coreFree c = true →
      (s.core c).startLt < (s.wheel (s.core c).jobWheel).tickLt →
      exec (.periodicLaunch (.entry cl i)) s =
        .next ((s.startCore c (BitVec.ofNat 20 (s.fld .cad cl.inst (Reg.CAD_LENTRYi i) 19 3 * 8)) (s.core c).jobWheel).modCore c
          (fun y => { y with entry := some i }))) ∧
    (s.queuedReady pid false = some (p, k, j) → s.argRead pid p k j.desc.arg = (u, some bs) →
      exec (.queuedLaunch pid) s = .next (((u.setAcct p.ctx (fun a => { a with
        qwaitmax := if a.qwaitmax.toNat < u.now - j.acceptLt then satAdd (0 : Word) (u.now - j.acceptLt) else a.qwaitmax,
        qwaitsum := satAdd a.qwaitsum (u.now - j.acceptLt) })).touch p.ctx).launch p k j bs)) ∧
    (s.part pid = some p → p.kind j.kind = some k → (p.kindCores k).head? = some c →
      s.sched.jobs.filter (fun j => j.part == pid && j.queued && j.out == .empty && j.launched && !j.yielded && !j.stopping) = [j] →
      (s.yieldDue p k = true → exec (.yieldRequest pid) s = .next (s.store32 (lsBase c + p.yline.toNat) 1)) ∧
      (s.yieldDue p k = false → exec (.yieldRequest pid) s = .next s)) ∧
    (s.queuedReady pid true = some (p, k, j) →
      exec (.yieldRelaunch pid) s = .next (j.resume.foldl (fun (s : State) (e : CoreId × BitVec 20) =>
        (s.setReg .cad e.1.cl.inst (Reg.CAD_RESUMEk e.1.k) 0).startCore e.1 e.2 p.wheel)
        ((s.setAcct p.ctx (fun a => { a with preemptns := satAdd a.preemptns (s.now - j.yieldLt) })).setJob
          { j with yielded := false, running := j.resume.map (·.1), resume := [] }))) ∧
    (∀ (y : Job) (z : State) (r : Word), (s.core c).ended = true → s.isChecker c = false →
      u = (s.putCore c { s.core c with ended := false, endFails := 0 }).setCadCore c 3 → u.jobOf c = some j → u.part j.part = some p →
      p.kind j.kind = some k → r = u.load32 (lsBase c + p.yline.toNat + 4) →
      y = { j with running := j.running.filter (· != c), pwfail := satAdd j.pwfail (s.core c).endFails.toNat,
                   resume := if r = 0 then j.resume else j.resume ++ [(c, r.setWidth 20)] } →
      z = (u.setAcct p.ctx (fun a => { a with
        corecyc := satAdd a.corecyc (cyclesOf ((s.core c).endLt - (s.core c).startLt)),
        arrbusy := satAdd a.arrbusy (if (s.core c).arrBase ≤ u.reg .tc c.inst Reg.TC_ARRBUSY
          then (u.reg .tc c.inst Reg.TC_ARRBUSY - (s.core c).arrBase).toNat else (u.reg .tc c.inst Reg.TC_ARRBUSY).toNat) })).setJob y →
      (z.deadlineDue p k y = true → exec (.endNotice c) s = .next (z.missJob y.part y.kind p y)) ∧
      (z.deadlineDue p k y = false →
        (y.running ≠ [] → exec (.endNotice c) s = .next z) ∧
        (y.running = [] → y.resume = [] → exec (.endNotice c) s = .next (z.finalize y .done)) ∧
        (y.running = [] → y.resume ≠ [] → exec (.endNotice c) s = .next (z.yieldJob p k y)))) ∧
    (s.part pid = some p → p.kind kn = some k →
      s.sched.jobs.filter (fun j => j.part == pid && j.kind == kn && j.launched && j.out == .empty) = [j] → s.deadlineDue p k j = true →
      exec (.deadlineCheck (.job pid kn)) s = .next (((((s.finalize j .missed).stopJob j).raise .cad p.lead.inst 1 0
        (cadInfo pid kn (coreField j.running))).count .cad p.lead.inst Reg.CAD_MISSCNT 1).trace 2 0x0303 [j.name, j.num.toNat, p.lead.inst])) ∧
    (∀ dl, s.expertEntry cl i = true → s.fld .cad cl.inst (Reg.CAD_LDLi i) 16 0 = dl → dl ≠ 0x1FFFF → s.entryCores cl i = [c] →
      (s.core c).run = true → (s.core c).entry = some i → n = (s.core c).jobFrame.get (s.core c).jobWheel 0 →
      (s.wheel (s.core c).jobWheel).passed (if dl < 0x10000 then n else n + 1) (dl % 0x10000) = true →
      exec (.deadlineCheck (.entry cl i)) s = .next ((s.stopCore c).raise .cad cl.inst 1 0
        (cadInfo 0 (s.fld .cad cl.inst (Reg.CAD_LTABi i) 28 24) c.k))) ∧
    (s.partOf c = some (pid, p) → p.slotKind c = some k → (s.wheel p.wheel).going = true →
      k.slotLive (s.wheel p.wheel).frame = true → (s.wheel p.wheel).phase.toNat = k.accPhase.toNat + k.accLen →
      s.accordIn c (s.wheel p.wheel).frame k.inSlot = false →
      exec (.accordSlotCheck c) s = .next (s.accslip c pid k.num)) ∧
    (s.reg .cad c.cl.inst Reg.CAD_IDLEACC = v → s.partOf c = none → bitOf v 31 = true → s.coreEnabled c = true →
      (s.wheel (Fin.ofNat 4 (bitsOf v 17 16))).going = true → bitsOf v 15 0 < (s.wheel (Fin.ofNat 4 (bitsOf v 17 16))).phase.toNat →
      s.accordIn c (s.wheel (Fin.ofNat 4 (bitsOf v 17 16))).frame (fun ph => ph.toNat == bitsOf v 15 0) = false →
      exec (.accordSlotCheck c) s = .next (s.accslip c 0 0)) ∧
    (s.reg .cad cl.inst Reg.CAD_IDLEACC = v → bitOf v 31 = true → s.up (domCluster cl) = true →
      (s.wheel (Fin.ofNat 4 (bitsOf v 17 16))).going = true → (s.wheel (Fin.ofNat 4 (bitsOf v 17 16))).phase.toNat = bitsOf v 15 0 →
      exec (.idleAccordStart cl) s = .next (cl.cores.foldl (fun (s : State) c =>
        if s.coreEnabled c && (s.partOf c).isNone && s.coreFree c && !s.isChecker c then
          (s.putCore c { s.core c with wait := .accord 0 }).accordBegin c
        else s) s)) ∧
    (s.findJob pid kn n = some j → j.stopping = true →
      (∀ c ∈ j.running, (s.core c).unitsIdle = true ∧ ∀ ch, (Chan.get (s.core c) ch).st ≠ .active) →
      exec (.jobStopComplete pid kn n) s = .next ((j.running.foldl (fun (s : State) c =>
        (((s.revokeLocks c).revokeChans c).putCore c { ((s.revokeLocks c).revokeChans c).core c with
          run := false, ended := false, pend := none }).setCadCore c 5) s).setJob { j with running := [], stopping := false })) ∧
    (src.fw = true → s.reaches src (cadBase cl + Reg.CAD_ABORT) = true → bitOf v 31 = true → pid = Fin.ofNat 32 (bitsOf v 28 24) → kn = Fin.ofNat 32 (bitsOf v 20 16) →
      u = s.setReg .cad cl.inst Reg.CAD_ABORTRES 0 →
      (u.part pid = none → exec (.cadAbort src cl v) s = .next (u.abortResult cl (false, 0))) ∧
      (u.part pid = some p → p.lead = cl →
        exec (.cadAbort src cl v) s = .next ((u.abortJob pid kn (v.setWidth 16)).1.abortResult cl (u.abortJob pid kn (v.setWidth 16)).2)) ∧
      (u.part pid = some p → p.lead ≠ cl → exec (.cadAbort src cl v) s =
        .next { u with sched := { u.sched with aborts := u.sched.aborts ++ [⟨cl, pid, kn, v.setWidth 16, none⟩] } })) ∧
    (src.fw = false → s.reaches src (cadBase cl + Reg.CAD_ABORT) = true → bitOf v 31 = true →
      exec (.cadAbort src cl v) s = .next (s.ignoredWrite .cad cl.inst)) ∧
    (∀ m r, s.sched.aborts.find? (fun (m : AbortMsg) => m.part == pid && m.answer.isNone) = some m →
      s.abortJob m.part m.kind m.num = (u, r) →
      exec (.abortForward pid) s = .next { u with
        sched := { u.sched with
          aborts := mapFirst (fun (m : AbortMsg) => m.part == pid && m.answer.isNone) (fun m => { m with answer := some r }) u.sched.aborts } }) ∧
    (∀ m r, s.sched.aborts.find? (fun (m : AbortMsg) => m.unit == cl && m.answer.isSome) = some m → m.answer = some r →
      exec (.abortResult cl) s = .next (State.abortResult { s with
        sched := { s.sched with aborts := removeFirst (fun (m : AbortMsg) => m.unit == cl && m.answer.isSome) s.sched.aborts } } cl r)) ∧
    (∀ t, s.sched.mailbox = j :: t → s.fpRuns 2 = true → exec .jobRecordPost s = .next (s.postRecord j t))

/-- Completion of PART_LOAD, PART_UNLOAD and UNLOAD_FINISH (R275, R276, R278, R633 to R635; the digests of
image and records are compared with the certificate's) and of the watchdog commands of the firmware
processors and the management core (R358 to R369, R420, R479).
Clauses that the rules leave open follow the model's choice: log entries 19, 55 and 59. -/
def Obligations.PartitionAndWatchdogCommandsComplete : Prop :=
  ∀ (p : Fin 64) (e : BitVec 512) (s : State) (pid : Fin 32) (x : Part) (k : Fin 8) (src : Src) (v : Word),
    (∀ sigOk code locks hdr n dbs ch cbs fh img d c s1 s2 s3 s4 s5 s6, s.accepts p 0x10 [1] [(8, 47, 0), (0x10, 47, 0), (0x18, 47, 0)] false e →
      s.fwRead (p.val == 1) (eAddr e 8) 0x20 = (s1, some hdr) → descRecs hdr = some n →
      s1.fwRead (p.val == 1) (eAddr e 8) (0x20 + 8 * n) = (s2, some dbs) →
      s2.fwRead (p.val == 1) (eAddr e 0x18) 0x60 = (s3, some ch) →
      s3.fwRead (p.val == 1) (eAddr e 0x18) (certLen ch) = (s4, some cbs) →
      s4.fwRead (p.val == 1) (eAddr e 0x10) 0x40 = (s5, some fh) →
      s5.fwRead (p.val == 1) (eAddr e 0x10) (bWord fh 8 * 64) = (s6, some img) →
      parseDesc dbs = some d → parseCert cbs n = some c → s6.mayUse p d.ctx = true → (d.ctx ≠ 0 → s6.ctxLive d.ctx = true) →
      ∀ r, r = s6.admitCode d c sigOk (c.formula == sha256 img && c.placement == sha256 (dbs.drop 0x20) && formulaOk fh 0x4E5A4631 c.toolver) →
      (r = 0 → exec (.partLoad p sigOk code locks) s =
        .next ((State.trace (s6.admitPart d c (eAddr e 0x10) (sha256 cbs) code (locks.take (bBits fh 0x14 8 0))) 1 0x0201
          [d.pid, d.ctx.toNat, (d.recs.map (fun r => r.coreList.length)).foldl (· + ·) 0]).complete p 0 0 0 0)) ∧
      (r ≠ 0 → exec (.partLoad p sigOk code locks) s =
        .next ((s6.trace 1 0x0202 [d.pid, d.ctx.toNat, r]).refuse p r))) ∧
    (s.accepts p 0x11 [1] [(8, 4, 0)] false e → pid = Fin.ofNat 32 (eBits e 8 4 0) → s.part pid = some x → x.unloading = false →
      x.unloadBy = none → s.mayUse p x.ctx = true →
      exec (.partUnload p) s = .next (s.beginUnload pid (some p))) ∧
    (s.part pid = some x → x.unloading = true → s.partQuiet pid = true → s.fpRuns 1 = true →
      (x.unloadBy = some p → exec (.unloadFinish pid) s = .next ((s.removePart pid).complete p 0 0 0 0)) ∧
      (x.unloadBy = none → exec (.unloadFinish pid) s = .next (s.removePart pid)) ∧
      ∃ t, exec (.unloadFinish pid) s = .next t ∧ t.part pid = none) ∧
    (s.fpRuns k = true →
      exec (.watchdogKick src true k) s = .next (s.setFp k { s.fp k with lastKick := s.now }) ∧
      (Nat.max (s.fp k).lastKick (s.fp k).runAt + 250000 ≤ s.now → exec (.watchdogExpire k) s = .next (s.restartFp k)) ∧
      exec (.fpException k) s = .next (s.restartFp k) ∧
      (s.reaches src (vehRegs 0x1300000 + Reg.FW_FPCTRLk k) = true → bitOf v 0 = true → (k = 4 → src.world = true) →
        s.mayWrite src .fw 0 = true → exec (.fpRestart src k v) s = .next (s.restartFp k)) ∧
      (s.restartFp k).fp k = { s.fp k with
        st := .starting, restarts := (s.fp k).restarts + 1, resetAt := s.now, affected := s.affectedNow }) ∧
    (s.reaches src (vehRegs 0x1300000 + Reg.FW_WDKICKk k) = true →
      exec (.watchdogKick src false k) s = .next (s.ignoredWrite .fw 0)) ∧
    (∀ digest, (s.fp k).st = .starting → s.now ≤ (s.fp k).resetAt + 2000000 →
      (k ≠ 4 → exec (.fpRunning k digest) s = .next (s.fpBack k)) ∧
      (k = 4 → digest.flatMap (fun (w : Word) => leBytes 4 w.toNat) = s.fp4Digest →
        exec (.fpRunning 4 digest) s = .next ((s.measureFp4 digest).fpBack 4)) ∧
      (k = 4 → digest.flatMap (fun (w : Word) => leBytes 4 w.toNat) ≠ s.fp4Digest → exec (.fpRunning 4 digest) s =
        .next (((State.raise (s.measureFp4 digest) .sec 0 2 0 0).setFp 4 { s.fp 4 with st := .reset }).packageFail))) ∧
    ((s.fp k).st = .starting → (s.fp k).resetAt + 2000000 ≤ s.now →
      exec (.fpStartTimeout k) s = .next ((State.raise (s.setFp k { s.fp k with st := .held }) .fw 0 3 0 0).packageFail)) ∧
    (s.fw.mcRunning = true →
      exec (.mcWatchdogKick src true) s = .next { s with fw := { s.fw with mcKick := s.now } } ∧
      (s.fw.mcKick + 1000000 ≤ s.now → exec .mcWatchdogExpire s = .next s.mcFail) ∧
      exec .mcShadowMismatch s = .next s.mcFail) ∧
    (s.reaches src (vehRegs 0x1300000 + Reg.FW_MCWDKICK) = true →
      exec (.mcWatchdogKick src false) s = .next (s.ignoredWrite .fw 0))

/-! ### Application processors and bring-up -/

/-- Completion of HXATTR_WRITE, HXWAY_WRITE, MXPARK, MXWDKICK, CPU_PWB, CPU_IO_LOAD, CPU_IO_STORE, CPU_WATCHDOG_EXPIRE,
TRUSTED_PAIR_RELEASE, CPU_PAIR_STOP, CPU_PAIR_START, CPU_PAIR_STOPPED, CPU_LOCKSTEP_MISMATCH and JTAG_ACCESS (R419, R421, R496 to R511,
R618). A class of 4 to 7 written to HXATTR reads 2 (R497); the cause of a lockstep mismatch is held with a free cycle count.
Clauses that the rules leave open follow the model's choice: log entries 11, 60, 117 and 118.
R499: a released pair runs from its entry address, both harts with the registers of a reset.
R506, R507: an invalidated range is in no cache; an uncorrectable error in a dirty line loses it.
R510: a source that rises is pending, and sends its MSI when it is enabled. -/
def Obligations.CpuCommandsComplete : Prop :=
  (∀ (h : Fin 16) (p : Fin 8) (src : Src) (v : BitVec 64) (cmd : Word) (a : Addr) (data : List Byte) (size : Nat) (virt : Bool)
    (vmid : BitVec 12) (s u : State),
    (s.hartRuns h = true →
      exec (.hxattrWrite h v) s = .next (s.setHart h { s.hart h with attr := BitVec.ofNat 8 (warlClass (bitsOf v 6 4) * 16 + warlClass (bitsOf v 2 0)) }) ∧
      exec (.hxwayWrite h v) s = .next (s.setHart h { s.hart h with way := v.setWidth 16 &&& s.normalWays }) ∧
      (s.lockPair (hartPair h) = true → exec (.mxpark h) s =
        .next (s.setCpuPair (hartPair h) { s.cpuPair (hartPair h) with st := .stopping, parked := 3 })) ∧
      (s.lockPair (hartPair h) = false → ∃ t, exec (.mxpark h) s = .next t ∧ (t.cpuPair (hartPair h)).st = .stopping ∧
        ∀ n < 2, (t.cpuPair (hartPair h)).parked.getLsbD n = ((s.cpuPair (hartPair h)).parked.getLsbD n || n == h.val % 2)) ∧
      (h.val % 2 = 0 → exec (.mxwdkick h) s = .next (s.setCpuPair (hartPair h) { s.cpuPair (hartPair h) with lastKick := s.now })) ∧
      (s.hartTx h false = 0 → exec (.cpuPwb h) s = .next (s.setHart h { s.hart h with pwb := (s.hart h).fails, fails := 0 })) ∧
      (addrDie a.toNat ≠ 6 →
        (ioOk a.toNat size = true → s.ctxBit (s.hartSrc h virt vmid).ctx = true → s.hartTx h true < 16 →
          s.issueRead (s.hartSrc h virt vmid) a.toNat size none = some u → exec (.cpuIoLoad h a size virt vmid) s = .next u) ∧
        (ioOk a.toNat data.length = true → s.ctxBit (s.hartSrc h virt vmid).ctx = true → s.hartTx h false < 64 →
          s.issueWrite (s.hartSrc h virt vmid) a.toNat data 8 = some u → exec (.cpuIoStore h a data virt vmid) s = .next u) ∧
        (ioOk a.toNat size = false → exec (.cpuIoLoad h a size virt vmid) s = .next (s.accessFault h a.toNat)) ∧
        (ioOk a.toNat data.length = false → exec (.cpuIoStore h a data virt vmid) s = .next (s.accessFault h a.toNat)))) ∧
    (s.trustedPair p = true → s.fixed.cpuWd.get p 0 ≠ 0 → (s.cpuPair p).st = .running →
      (s.cpuPair p).lastKick + s.fixed.cpuWd.get p 0 * 1000000 ≤ s.now →
      exec (.cpuWatchdogExpire p) s = .next ((s.raise .cpu 0 4 (p.val * 2 ^ 48) 0).setCpuPair p { s.cpuPair p with
        st := .halted, reloading := true, debug := false })) ∧
    (∀ image, (s.cpuPair p).st = .halted → (s.cpuPair p).reloading = true → u = s.store (s.fixed.cpuImage.get p (0, [])).1 image →
      (sha256 image = (s.fixed.cpuImage.get p (0, [])).2 → exec (.trustedPairRelease p image) s =
        .next ((u.releasePair p).setFld .cpu 0 (Reg.CPU_RESTARTp p) 15 0 (u.fld .cpu 0 (Reg.CPU_RESTARTp p) 15 0 + 1))) ∧
      (sha256 image ≠ (s.fixed.cpuImage.get p (0, [])).2 → exec (.trustedPairRelease p image) s =
        .next ((u.raise .cpu 0 5 (p.val * 2 ^ 48) 0).setCpuPair p { s.cpuPair p with reloading := false }))) ∧
    (s.reaches src (vehRegs 0x1900000 + Reg.CPU_PAIRCMDp p) = true → src.world = s.trustedOwns (cpuDomain p) →
      s.mayWrite src .cpu 0 = true →
      (bitOf cmd 1 = true → bitOf cmd 0 = false → (s.cpuPair p).st = .running → exec (.cpuPairStop src p cmd) s = .next (s.stopPair p)) ∧
      (bitOf cmd 0 = true → bitOf cmd 1 = false → (s.cpuPair p).st = .stopped →
        exec (.cpuPairStart src p cmd) s = .next (s.releasePair p))) ∧
    ((s.cpuPair p).st = .stopping → (s.cpuPair p).parked = 3 →
      (∀ g : Fin 16, hartPair g = p → s.hartTx g true = 0 ∧ s.hartTx g false = 0) →
      exec (.cpuPairStopped p) s = .next ((s.flushPair p).setCpuPair p { s.cpuPair p with st := .stopped })) ∧
    (∀ (kind : Fin 8) w, s.lockPair p = true → (s.cpuPair p).st = .running → s.freeWord = (w, u) →
      exec (.cpuLockstepMismatch p kind a) s = .next ((((((u.setReg .lks p Reg.LKS_MISCYC
        (BitVec.ofNat 32 ((s.now - (s.cpuPair p).releasedLt) * 12 / 5 + w.toNat % 5))).setReg .lks p Reg.LKS_MISKIND
        (BitVec.ofNat 32 kind.val)).setReg2 .lks p Reg.LKS_MISADDRL Reg.LKS_MISADDRH a.toNat).raise .lks p 2 0 0)).haltPair p)) ∧
    (∀ cells enter, s.pkg = pkRESET →
      exec (.jtagAccess (some cells) p enter) s = .next { s with cpu := { s.cpu with scan := cells } }) ∧
    (∀ enter, s.pkg ≠ pkRESET → s.trustedPair p = false → (s.cpuPair p).st = .running →
      exec (.jtagAccess none p enter) s = .next (s.setCpuPair p { s.cpuPair p with debug := enter }))) ∧
  (∀ (p : Fin 8) (h : Fin 16) (s : State), hartPair h = p →
    ((s.releasePair p).cpuPair p).st = .running ∧ (s.releasePair p).hart h = Hart.reset s.normalWays (s.cpuEntryOf p)) ∧
  (∀ (s : State) (a n : Nat) (pair : Nat) (x : CLine) (b : List Byte),
    (∀ y ∈ (s.invalidate a n).cpu.lines, ¬(a ≤ y.addr ∧ y.addr < a + n)) ∧
    (x.err = some .double → x.dirty = some b → (s.lineError pair x).2 = true ∧
      (∀ y ∈ (s.lineError pair x).1.cpu.lines, ¬(y.cache = x.cache ∧ y.world = x.world ∧ y.addr = x.addr)) ∧
      bitOf ((s.lineError pair x).1.reg .cpu 0 (errRegs .cpu).stat) (if x.cache = .shared then 1 else 3) = true)) ∧
  (∀ (s : State) (k : Bool × Fin 1024) (x : AplicSrc), s.aplicWorld k.2 = k.1 →
    (s.aplicLevel k.2 = true → x.seen = false →
      (x.enable = true → ((s.aplicLook k x).cpu.imsic.get (k.1, x.page) 0).getLsbD x.eiid = true) ∧
      (x.enable = false → ((s.aplicLook k x).cpu.aplic.get k x).pend = true)) ∧
    (s.aplicLevel k.2 = false → ((s.aplicLook k x).cpu.aplic.get k x).pend = false ∧ (s.aplicLook k x).cpu.imsic = s.cpu.imsic))

/-- Completion of RESET_RELEASE, BRINGUP_TIMEOUT and COOL_OK_ASSERT (R370, R375 to R383): the steps go on one after another, and the end of step
8 leaves the package in READY, or in PARTIAL without coolant; the level of COOL_OK at the end of step 2 decides which (R382), and a later rise
waits for the end of bring-up.
Clauses that the rules leave open follow the model's choice: log entries 15, 70 and 108. -/
def Obligations.BringUpCommandsComplete : Prop :=
  ∀ (cool : Bool) (r : BootStep) (die : Fin 8) (s : State) (k : Nat),
    (s.pkg = pkRESET → s.pwr.cut = false →
      exec (.resetRelease cool []) s = .next ((s.setPkg pkBOOTING).setFld .pwr 0 Reg.PWR_STAT 27 24 1)) ∧
    (s.pkg = pkBOOTING → s.fld .pwr 0 Reg.PWR_STAT 27 24 = k → k ≤ 8 →
      (∀ lvl, lvl = (cool || s.cool) → k < 2 → exec (.resetRelease cool [r]) s = .next (s.bootStep k (s.bootDomains lvl) lvl r)) ∧
      (∀ (lvl : Bool) (u : State), lvl = (cool || s.cool) → k = 2 →
        u = { s.setFld .pwr 0 Reg.PWR_STAT 2 2 (b2n lvl) with pwr := { s.pwr with bootCool := lvl } } →
        exec (.resetRelease cool [r]) s = .next (u.bootStep 2 (u.bootDomains lvl) lvl r)) ∧
      (2 < k → exec (.resetRelease cool [r]) s = .next (s.bootStep k (s.bootDomains s.pwr.bootCool) s.pwr.bootCool r)) ∧
      exec (.bringupTimeout die) s = .next (s.bootFail k 10 die)) ∧
    (∀ doms, r.fail = none → s.pwr.lateCool = none → (s.bootStep 8 doms cool r).pkg = if cool then pkREADY else pkPARTIAL) ∧
    (∀ (u : State) (fail : Option (Fin 8 × BootFail)), s.pkg ≠ pkRESET → s.cool = false → u = s.setFld .pwr 0 Reg.PWR_STAT 2 2 1 →
      (u.pkg = pkPARTIAL → exec (.coolOkAssert fail) s = .next (u.tolidStart (fail.map (fun x => (x.1.val, x.2))))) ∧
      (u.pkg = pkBOOTING → 2 < u.fld .pwr 0 Reg.PWR_STAT 27 24 →
        exec (.coolOkAssert fail) s = .next { u with pwr := { u.pwr with lateCool := some fail } }) ∧
      (u.pkg ≠ pkPARTIAL → ¬(u.pkg = pkBOOTING ∧ 2 < u.fld .pwr 0 Reg.PWR_STAT 27 24) → exec (.coolOkAssert fail) s = .next u))
/-! ### CAN and LIN -/

/-- Completion of the CAN commands (R14, R515 to R518, R537, R543, R546): a mode that the bit timing allows starts the controller with clear error
counters; a received frame counts and goes where the first filter that it matches sends it; a sent, lost or failed frame moves TEC, and errors
seen while receiving move REC; a frame without room in the receive buffer is lost.
Completion of the LIN commands (R520, R521, R537, R543, R546): a due entry of a running commander's schedule sends its header; a response
with a right checksum reaches the receive queues and the PDUs; without a response or with a wrong checksum an error is raised.
Clauses that the rules leave open follow the model's choice: log entries 22, 23, 24, 25, 61 and 62. -/
def Obligations.CanAndLinCommandsComplete : Prop :=
  (∀ (src : Src) (c : Fin 24) (v : Word) (f : CanFrame) (ago : Nat) (p : Fin 64) (e : BitVec 512) (s u : State) (b : Fin 32) (t : CanBuf),
    (s.reaches src (canBase c + Reg.CAN_CTRL) = true → s.mayWrite src .can c = true →
      exec (.canModeWrite src c v) s = .next (s.canCtrl c v).1) ∧
    (0 < bitsOf v 3 2 → (s.canMode c ≠ bitsOf v 3 2 ∨ (s.can c).busOff = true) →
      u = (s.setFld .can c Reg.CAN_CTRL 4 4 (bitsOf v 4 4)).setFld .can c Reg.CAN_CTRL 1 1 (bitsOf v 1 1) →
      (s.canBitsOk c = true → s.canCtrl c v = ((u.setFld .can c Reg.CAN_CTRL 3 2 (bitsOf v 3 2)).setCan c { u.can c with
        txErr := 0, rxErr := 0, busOff := false }, true)) ∧
      (s.canBitsOk c = false → s.canCtrl c v = ((u.setFld .can c Reg.CAN_CTRL 3 2 0).raise .can c 4 0 0, false))) ∧
    (∀ errs, ((s.can c).rxErr + errs ≤ 127 → ((s.canRec c errs).can c).rxErr = (s.can c).rxErr + errs - 1) ∧
      (127 < (s.can c).rxErr + errs → 119 ≤ ((s.canRec c errs).can c).rxErr ∧ ((s.canRec c errs).can c).rxErr ≤ 127)) ∧
    (∀ errs, s.gwUp = true → s.canMode c ≠ 0 → (s.can c).busOff = false → u = (s.canRec c errs).count .can c Reg.CAN_RXCNT 1 →
      exec (.canFrameReceive c f ago false errs) s = .next ((s.canRec c errs).raise .can c 3 0 0) ∧
      (u.canFilter c f = none → exec (.canFrameReceive c f ago true errs) s = .next (u.count .can c Reg.CAN_NOMATCH 1)) ∧
      (∀ i d x, u.canFilter c f = some i → u.reg .can c (Reg.CAN_FLTDSTf i) = d →
        x = (if bitOf d 17 then u.qDeliver (Fin.ofNat 32 (bitsOf d 4 0)) 1 (canRecord f i) 0
          (BitVec.ofNat 32 (u.timeBase (u.fld .can c Reg.CAN_TSCFG 2 0) - ago)) else u) →
        (bitOf d 16 = true → exec (.canFrameReceive c f ago true errs) s =
          .next (x.pdusReceive (fun p => p.bus == 0 && p.ctrl == c.val && p.id == f.id && p.ide == f.ide && p.fdf == f.fdf) f.data)) ∧
        (bitOf d 16 = false → exec (.canFrameReceive c f ago true errs) s = .next x))) ∧
    (∀ corrected x, s.gwUp = true → (s.canMode c = 1 ∨ s.canMode c = 3) → (s.can c).busOff = false → firstBuf (s.can c).bufs = some (b, t) →
      u = (if corrected then s.raise .can c 0 0 0 else s) → x = s.can c →
      exec (.canFrameSent c .sent corrected) s = .next (((u.setCan c { x with txErr := x.txErr - 1 }).count .can c Reg.CAN_TXCNT 1).canFree
        c b false) ∧
      ((u.fld .can c Reg.CAN_CTRL 4 4 = 0 ∨ t.queue = none) →
        exec (.canFrameSent c .lost corrected) s = .next u ∧
        (x.txErr + 8 ≤ 127 ∨ (127 < x.txErr ∧ x.txErr + 8 ≤ 255) → exec (.canFrameSent c .error corrected) s =
          .next (u.setCan c { x with txErr := x.txErr + 8, busOff := false })) ∧
        (x.txErr ≤ 127 → 127 < x.txErr + 8 → exec (.canFrameSent c .error corrected) s =
          .next ((u.setCan c { x with txErr := x.txErr + 8, busOff := false }).raise .can c 1 0 0)) ∧
        (127 < x.txErr → 255 < x.txErr + 8 → exec (.canFrameSent c .error corrected) s =
          .next ((u.setCan c { x with txErr := x.txErr + 8, busOff := true }).raise .can c 2 0 0))) ∧
      (u.fld .can c Reg.CAN_CTRL 4 4 = 1 → t.queue ≠ none →
        exec (.canFrameSent c .lost corrected) s = .next (u.canFree c b true) ∧
        (x.txErr + 8 ≤ 127 → exec (.canFrameSent c .error corrected) s =
          .next ((u.setCan c { x with txErr := x.txErr + 8, busOff := false }).canFree c b true)))) ∧
    (s.gwUp = true → (s.can c).busOff = true → s.canMode c ≠ 0 → s.fld .can c Reg.CAN_CTRL 1 1 = 1 →
      exec (.canBusoffRecovery c) s = .next (s.setCan c { s.can c with busOff := false, txErr := 0, rxErr := 0 })) ∧
    (s.accepts p 0x50 [] canSetFields true e → eBits e 8 4 0 = c.val →
      (eBits e 8 9 8 = 0 → eBits e 0x24 2 0 ≤ 4 →
        u = (((((((s.setFld .can c Reg.CAN_CTRL 3 2 0).setReg .can c Reg.CAN_INTEN (eWord e 0x10 &&& 0x1F)).canTiming c Reg.CAN_NBT
          (eWord e 0x14 &&& 0xFFFFFFFC)).canTiming c Reg.CAN_FDBT (eWord e 0x18 &&& 0xFFFFFFFE)).canTiming c Reg.CAN_XLBT
          (eWord e 0x1C &&& 0xFFFFFFFE)).canTiming c Reg.CAN_XLPWM (eWord e 0x20 &&& 0xFFFFFF)).canTiming c Reg.CAN_TSCFG (eWord e 0x24 &&& 7)) →
        (u.canCtrl c (eWord e 0xC)).2 = true →
        exec (.canSetConfigure p) s = .next ((u.canCtrl c (eWord e 0xC)).1.complete p 0 0 0 0)) ∧
      (eBits e 8 9 8 = 1 → (eWord e 0xC).toNat ≤ 63 →
        exec (.canSetFilter p) s = .next ((((s.setReg .can c (Reg.CAN_FLTIDf (eWord e 0xC).toNat) (eWord e 0x10 &&& 0xDFFFFFFF)).setReg .can c
          (Reg.CAN_FLTMSKf (eWord e 0xC).toNat) (eWord e 0x14 &&& 0x1FFFFFFF)).setReg .can c (Reg.CAN_FLTDSTf (eWord e 0xC).toNat)
          (eWord e 0x18 &&& 0x3001F)).complete p 0 0 0 0)) ∧
      (eBits e 8 9 8 = 2 → eWord e 0xC = BitVec.ofNat 32 b.val →
        exec (.canSetAbortBuffer p) s =
          .next ((if ((s.can c).bufs.get? b).isSome then s.canFree c b true else s).complete p 0 0 0 0)))) ∧
  (∀ (c : Fin 8) (p : Fin 64) (e : BitVec 512) (s u : State) (id : Fin 64) (data : List Byte) (enh : Bool) (h : Fin 64) (dl n t0 : Nat),
    (s.gwUp = true → s.linCommander c = true → s.linMode c = 1 → (s.lin c).active = true →
      ((s.lin c).started = none → (s.lin c).sched[0]? = some (h, dl) →
        exec (.linScheduleEntry c) s = .next ((s.setLin c { s.lin c with
          entry := 0, started := some s.now, header := some h }).setFld .lin c Reg.LIN_STAT 5 0 0)) ∧
      ((s.lin c).started = some t0 → t0 + ((s.lin c).sched.getD (s.lin c).entry (0, 1)).2 * 100000 ≤ s.now →
        n = (if (s.lin c).entry + 1 < (s.lin c).sched.length then (s.lin c).entry + 1 else 0) → (s.lin c).sched[n]? = some (h, dl) →
        exec (.linScheduleEntry c) s = .next ((s.setLin c { s.lin c with
          entry := n, started := some s.now, header := some h }).setFld .lin c Reg.LIN_STAT 5 0 n))) ∧
    ((s.lin c).header = some id → u = s.setLin c { s.lin c with header := none } →
      ((s.lin c).resp.get? id = none →
        exec (.linFrameEnd c none) s = .next (u.raise .lin c 1 0 0) ∧
        exec (.linFrameEnd c (some (data, enh, false))) s = .next (u.raise .lin c 0 0 0) ∧
        (isSleep id data = false → exec (.linFrameEnd c (some (data, enh, true))) s = .next
          ((((List.finRange 32).filter (fun i => !isTxQueue i && (u.gwq i).st == 1 && (u.gwq i).kind == 2 && (u.gwq i).ctrl == c.val)).foldl
            (fun (s : State) i => s.qDeliver i 2 (linRecord id enh data) 0 s.now32) u).pdusReceive
            (fun p => p.bus == 1 && p.ctrl == c.val && p.id.toNat == id.val) data)) ∧
        (isSleep id data = true → ∃ t, exec (.linFrameEnd c (some (data, enh, true))) s = .next t ∧ t.linMode c = 2)) ∧
      (∀ own, (s.lin c).resp.get? id = some own → isSleep id own.2 = false →
        exec (.linFrameEnd c none) s = .next u)) ∧
    (s.gwUp = true → s.linCommander c = false → s.linMode c = 1 →
      exec (.linHeaderReceive c id) s = .next (s.setLin c { s.lin c with header := some id })) ∧
    (s.gwUp = true → s.linMode c = 2 → exec (.linWakeup c) s = .next (s.setFld .lin c Reg.LIN_CTRL 2 1 1)) ∧
    (s.accepts p 0x51 [] linSetFields true e → eBits e 8 2 0 = c.val →
      (eBits e 8 9 8 = 0 → ((s.setReg .lin c Reg.LIN_BAUD (eWord e 0x10 &&& 0x7FFF)).linCtrl c (eWord e 0xC)).2 = true →
        exec (.linSetConfigure p) s =
          .next (((s.setReg .lin c Reg.LIN_BAUD (eWord e 0x10 &&& 0x7FFF)).linCtrl c (eWord e 0xC)).1.complete p 0 0 0 0)) ∧
      (eBits e 8 9 8 = 1 → s.fwRead (p.val == 1) (eAddr e 0x10) 256 = (u, some data) →
        exec (.linSetLoadSchedule p) s =
          .next ((u.setLin c { u.lin c with sched := parseSched data, entry := 0, started := none }).complete p 0 0 0 0)) ∧
      (eBits e 8 9 8 = 2 → s.linCommander c = true → s.linMode c = 1 → (s.lin c).sched ≠ [] →
        exec (.linSetStart p) s = .next ((s.setLin c { s.lin c with active := true, started := none }).complete p 0 0 0 0)) ∧
      (eBits e 8 9 8 = 3 → exec (.linSetStop p) s = .next ((s.setLin c { s.lin c with active := false }).complete p 0 0 0 0))))

/-! ### Switch and signal gateway -/

/-- Completion of the commands of the switch, its flow table, MDIO, the host queues and the signal gateway (R522 to R538, R543, R547, R548): a frame
that a port takes counts and is forwarded, one too short or too long is dropped, and one
with an uncorrectable buffer error at egress (R547); a queued frame leaves once; a queue's finished descriptor is
written back; a late or due PDU runs; the tables take what a ring command names.
Clauses that the rules leave open follow the model's choice: log entries 21, 63, 92 and 121.
R531: a transmit queue that is on, idle and owns its next descriptor acts on it; a descriptor that the host still owns is left alone. -/
def Obligations.SwitchCommandsComplete : Prop :=
  (∀ (p : Fin 14) (x : Fin 10) (q : Fin 8) (bytes : List Byte) (pass linked verified : Bool) (ecc : Option EccErr) (f : EthFrame) (t : List EthFrame) (src : Src)
    (i : Fin 32) (n : Fin 8192) (v : Word) (data : BitVec 16) (s u : State),
    (s.gwUp = true → s.portEnabled p = true → s.portLink p = true → u = s.count .sw 0 (Reg.SW_RXFRMp p) 1 →
      (60 ≤ bytes.length → bytes.length ≤ 9212 → ethType bytes ≠ 0x8808 →
        exec (.switchFrameReceive p bytes pass ecc) s = .next (u.swForward ⟨bytes, p, u.now32, none⟩ pass ecc).1) ∧
      (bytes.length < 60 ∨ 9212 < bytes.length ∨ ethType bytes = 0x8808 →
        exec (.switchFrameReceive p bytes pass ecc) s = .next (u.swDrop p))) ∧
    (s.gwUp = true → s.egressQ p q = f :: t → u = { s with gw := { s.gw with egress := s.gw.egress.set (p, q) t } } →
      (f.queue = none →
        exec (.switchFrameEgress p q true none) s = .next ((u.count .sw 0 (Reg.SW_TXFRMp p) 1).swDeliver p q f) ∧
        exec (.switchFrameEgress p q true (some .single)) s =
          .next (((u.raise .sw 0 0 0 0).count .sw 0 (Reg.SW_TXFRMp p) 1).swDeliver p q f) ∧
        exec (.switchFrameEgress p q true (some .double)) s = .next ((u.raise .sw 0 1 0 0).swDrop f.ingress) ∧
        exec (.switchFrameEgress p q false none) s = .next u) ∧
      (f.queue = some i →
        exec (.switchFrameEgress p q true none) s =
          .next (((u.count .sw 0 (Reg.SW_TXFRMp p) 1).swDeliver p q f).txCopyEnds i false
            ((u.count .sw 0 (Reg.SW_TXFRMp p) 1).swDeliver p q f).now32) ∧
        exec (.switchFrameEgress p q true (some .double)) s =
          .next (((u.raise .sw 0 1 0 0).swDrop f.ingress).txCopyEnds i true ((u.raise .sw 0 1 0 0).swDrop f.ingress).now32) ∧
        exec (.switchFrameEgress p q false none) s = .next (u.txCopyEnds i true u.now32))) ∧
    (s.gwUp = true → exec (.pcsLinkChange x linked verified) s = .next ((s.setFld .sw 0 (Reg.SW_PSTATp x) 1 1 (b2n linked)).setFld .sw 0
      (Reg.SW_PSTATp x) 0 0 (b2n (linked && verified && s.fld .sw 0 (Reg.SW_PCFGp x) 25 25 == 1)))) ∧
    (s.reaches src (vehRegs 0x1B00000 + Reg.SW_MDIOCMD) = true → s.mayWrite src .sw 0 = true → bitOf v 31 = true → s.gw.mdio = none →
      ∃ t, exec (.mdioCommand src v) s = .next t ∧ t.reg .sw 0 Reg.SW_MDIORES = 0 ∧
        t.gw.mdio = some ⟨Fin.ofNat 2 (bitsOf v 30 30), bitsOf v 29 28, bitsOf v 27 23, bitsOf v 22 18, bitsOf v 15 0⟩) ∧
    (∀ m, s.gw.mdio = some m →
      ∃ t, exec (.mdioDone data) s = .next t ∧ t.gw.mdio = none ∧
        t.reg .sw 0 Reg.SW_MDIORES = BitVec.ofNat 32 (2 ^ 31 + (if m.op = 2 then data.toNat else 0))) ∧
    (s.reaches src (vehRegs 0x1C00000 + Reg.GW_QDBi i) = true → exec (.gwQueueDoorbell src i) s = .next (s.qCheck i)) ∧
    exec (.gwQueuePoll i) s = .next (s.qCheck i) ∧
    (∀ err stamp ctrl, (s.gwq i).done = some (err, stamp, ctrl) → (s.gwq i).st = 1 →
      exec (.queueTxWriteback i) s = .next ((s.setGwq i { s.gwq i with done := none }).qWriteBack i none ctrl.toNat err 0
        (if bitOf ctrl 30 && err == 0 then some stamp else none) (bitOf ctrl 29))) ∧
    (∀ r t, (s.gwq i).rx = r :: t → (s.gwq i).st = 1 →
      exec (.queueRxWriteback i) s = .next ((s.setGwq i { s.gwq i with rx := t }).qWriteBack i (some r.len) r.ctrl.toNat r.err r.port
        (some r.stamp) (bitOf r.ctrl 29))) ∧
    (∀ y : Pdu, s.pdu n = some y → s.gwUp = true → y.period ≠ 0 →
      (y.target = false → y.timedOut = false → y.lastRx + y.period * 100000 ≤ s.now → u = s.setPdu n { y with timedOut := true } →
        exec (.pduSourceTimeout n) s = .next ((u.runGroup ((u.routesOf n).filter rTosub) (fun _ r => 2 ^ (bitsOf r 41 37 + 1) - 1)).raise
          .gw 0 2 0 (2 ^ 30 + n.val))) ∧
      (y.target = true → y.txmode = 1 → s.now / 100000 % y.period = y.phase % y.period → y.lastSent ≠ some (s.now / 100000) →
        exec (.pduPeriodicSend n) s = .next ((s.setPdu n { y with lastSent := some (s.now / 100000) }).pduSend n)))) ∧
  (∀ (i : Fin 32) (d bs : List Byte) (s u w : State),
    s.gwUp = true → (s.gwq i).st = 1 → isTxQueue i = true → (s.gwq i).fly = none → (s.gwq i).done = none →
    s.unitRead (s.queueSrc i) ((s.gwq i).descAt (s.gwq i).next) 16 = (u, some d) →
    (bitOf (dCtrl d) 31 = false → exec (.gwQueuePoll i) s = .next u) ∧
    (bitOf (dCtrl d) 31 = true → u.unitRead (u.queueSrc i) (dBuf d) (dLen d) = (w, some bs) →
      ((s.gwq i).kind = 0 → exec (.gwQueuePoll i) s = .next (w.qSendEth i bs (dCtrl d))) ∧
      ((s.gwq i).kind = 1 → exec (.gwQueuePoll i) s = .next (w.qSendCan i bs (dCtrl d))) ∧
      ((s.gwq i).kind ≠ 0 → (s.gwq i).kind ≠ 1 → exec (.gwQueuePoll i) s = .next (w.qSendLin i bs (dCtrl d)))))

/-- Completion of SW_PORT, SW_VLAN, FLOW_ADD, FLOW_DEL, FLOW_READ, GW_PDU, GW_ROUTE and GW_QUEUE (R525 to R537, R543).
Clauses that the rules leave open follow the model's choice: log entries 20 and 64. -/
def Obligations.GatewayRingCommandsComplete : Prop :=
  ∀ (p : Fin 64) (e : BitVec 512) (k n : Nat) (bs : List Byte) (es : List (BitVec 128)) (s u t : State),
    (s.accepts p 0x52 [] [(8, 3, 0), (0xC, 31, 25), (0xC, 11, 0), (0x10, 23, 0), (0x14, 7, 0), (0x18, 47, 0)] true e →
      eBits e 8 3 0 = n → n ≤ 13 → (n < 8 → bitsOf (eWord e 0xC) 30 28 ≤ 4) → (8 ≤ n → n < 10 → bitsOf (eWord e 0xC) 30 28 ≤ 1) →
      u = ((s.setReg .sw 0 (Reg.SW_PCFGp n) (if n < 10 then eWord e 0xC else eWord e 0xC &&& 0x8DFFFFFF)).setReg .sw 0 (Reg.SW_PCPMAPp n) (eWord e 0x10)).setReg .sw 0 (Reg.SW_EXPMASKp n)
        (eWord e 0x14) →
      exec (.swPort p) s = .next (State.complete { u with
        gw := { u.gw with shapers := u.gw.shapers.set (Fin.ofNat 14 n) (eAddr e 0x18) } } p 0 0 0 0)) ∧
    (∀ vid : BitVec 12, s.accepts p 0x53 [] [(8, 11, 0), (8, 30, 16)] true e → vid = BitVec.ofNat 12 (eBits e 8 11 0) → vid ≠ 0 → vid ≠ 4095 →
      (eBits e 8 30 30 = 1 → exec (.swVlan p) s = .next (State.complete { s with
        gw := { s.gw with vlans := s.gw.vlans.set vid (BitVec.ofNat 14 (eBits e 8 29 16)) } } p 0 0 0 0)) ∧
      (eBits e 8 30 30 = 0 → exec (.swVlan p) s =
        .next (State.complete { s with gw := { s.gw with vlans := s.gw.vlans.erase vid } } p 0 0 0 0))) ∧
    (k = eBits e 8 8 0 → 0 < k → k ≤ 256 → s.fwRead (p.val == 1) (eAddr e 0x10) (16 * k) = (u, some bs) →
      es = (unpack 16 k bs).map (BitVec.ofNat 128) →
      (s.accepts p 0x54 [] flowFields true e → es.all flowOk = true →
        (State.flowPlaceAll es u 0 = (t, n, true) → exec (.flowAdd p) s = .next (t.complete p 0 0 n 0)) ∧
        (State.flowPlaceAll es u 0 = (t, n, false) → exec (.flowAdd p) s = .next (t.complete p 3 3 n 0))) ∧
      (s.accepts p 0x55 [] flowFields true e → es.foldl (fun (r : State × Nat) e => match r.1.flowFind (flowKey e) with
          | some (t, _) => ({ r.1 with gw := { r.1.gw with flows := r.1.gw.flows.erase t } }, r.2 + 1)
          | none => r) (u, 0) = (t, n) →
        exec (.flowDel p) s = .next (t.complete p 0 0 n 0))) ∧
    (∀ w x, s.accepts p 0x56 [] [(0x10, 47, 0), (0x18, 47, 0)] true e → eAddr e 0x18 % 64 = 0 →
      s.fwRead (p.val == 1) (eAddr e 0x10) 16 = (u, some bs) → u.flowFind (flowKey (BitVec.ofNat 128 (leNat bs))) = some (w, x) →
      exec (.flowRead p) s = .next (u.copyOut p (eAddr e 0x18) (leBytes 16 x.toNat) 0 0)) ∧
    (∀ (i : Fin 8192) (y : Pdu), s.accepts p 0x57 [] [(8, 12, 0), (8, 25, 16), (0x10, 47, 0)] true e → i = Fin.ofNat 8192 (eBits e 8 12 0) →
      (eBits e 8 17 17 = 0 → eBits e 8 16 16 = 1 → s.pduInUse i = false →
        exec (.gwPdu p) s = .next (State.complete { s with gw := { s.gw with pdus := s.gw.pdus.erase i } } p 0 0 0 0)) ∧
      (eBits e 8 17 17 = 0 → eBits e 8 16 16 = 0 → s.fwRead (p.val == 1) (eAddr e 0x10) 16 = (u, some bs) →
        parsePdu bs 0 u.now = some y → u.pduInUse i = false →
        (¬(y.target = true ∧ y.bus = 0) → exec (.gwPdu p) s = .next ((u.setPdu i y).complete p 0 0 0 0)) ∧
        (y.target = true → y.bus = 0 → u.freeCanSlot y.ctrl i = some k →
          exec (.gwPdu p) s = .next ((u.setPdu i { y with slot := k }).complete p 0 0 0 0))) ∧
      (eBits e 8 17 17 = 1 → eBits e 8 16 16 = 1 → exec (.gwPdu p) s = .next (State.complete { s with
        gw := { s.gw with templates := s.gw.templates.erase (Fin.ofNat 256 (eBits e 8 25 18)) } } p 0 0 0 0)) ∧
      (eBits e 8 17 17 = 1 → eBits e 8 16 16 = 0 → s.fwRead (p.val == 1) (eAddr e 0x10) 62 = (u, some bs) → headerLen bs ≤ 62 →
        exec (.gwPdu p) s = .next (State.complete { u with
          gw := { u.gw with templates := u.gw.templates.set (Fin.ofNat 256 (eBits e 8 25 18)) (bs.take (headerLen bs)) } } p 0 0 0 0))) ∧
    (s.accepts p 0x58 [] [(8, 26, 0), (0x10, 47, 0)] true e → k = eBits e 8 26 16 → n = eBits e 8 15 0 → 0 < k → k ≤ 1024 → n + k ≤ 65536 →
      s.fwRead (p.val == 1) (eAddr e 0x10) (16 * k) = (u, some bs) → es = (unpack 16 k bs).map (BitVec.ofNat 128) → t = installRoutes u es n →
      (firstBad u es n = none → overFull t es n = none → exec (.gwRoute p) s = .next (t.complete p 0 0 0 0)) ∧
      (∀ i, firstBad u es n = some i → exec (.gwRoute p) s = .next (u.complete p 3 2 i 0))) ∧
    (∀ i : Fin 32, s.accepts p 0x59 [] [(8, 4, 0), (8, 18, 8), (0xC, 11, 0), (0xC, 19, 16), (0x10, 47, 0)] true e →
      i = Fin.ofNat 32 (eBits e 8 4 0) →
      (eBits e 8 8 8 = 0 → exec (.gwQueue p) s = .next ((s.setGwq i GwQueue.off).complete p 0 0 0 0)) ∧
      (eBits e 8 8 8 = 1 → eBits e 8 10 9 ≠ 3 → (eBits e 8 10 9 = 1 → eBits e 8 15 11 ≤ 23) → (eBits e 8 10 9 = 2 → eBits e 8 15 11 ≤ 7) →
        eBits e 8 18 16 ≠ 0 → eBits e 8 18 16 ≠ 7 → 4 ≤ eBits e 0xC 19 16 → eBits e 0xC 19 16 ≤ 12 → eAddr e 0x10 % 16 = 0 →
        (eBits e 0xC 11 0 ≠ 0 → s.ctxLive (BitVec.ofNat 12 (eBits e 0xC 11 0)) = true ∧
          s.ctxWorld (BitVec.ofNat 12 (eBits e 0xC 11 0)) = decide (i.val / 16 = 1)) →
        exec (.gwQueue p) s = .next ((s.setGwq i { GwQueue.off with
          st := 1, ctx := BitVec.ofNat 12 (eBits e 0xC 11 0), cls := Fin.ofNat 8 (eBits e 8 18 16), kind := Fin.ofNat 4 (eBits e 8 10 9),
          ctrl := eBits e 8 15 11, n := eBits e 0xC 19 16, base := eAddr e 0x10 }).complete p 0 0 0 0)))

/-! ### PCIe and cameras -/

/-- Completion of the PCIe commands (R512, R513, R540 to R543, R549): an accepted access waits at the port with its tracker and credits; a read
without a completion in 50 µs fails; a link that goes down fails the posted writes; an endpoint reaches memory only through a window, and a posted
request that the fabric cannot take waits in the port, where a read may not pass it; a port that is full both ways yields.
Clauses that the rules leave open follow the model's choice: log entries 65 and 92. -/
def Obligations.PcieCommandsComplete : Prop :=
  ∀ (src : Src) (a : Addr) (len id : Nat) (data : List Byte) (reply : Option (List Byte)) (p : Fin 64) (e : BitVec 512) (w : Fin 8)
    (n : Fin 17) (s u : State),
    (s.isPci a.toNat = true → s.gw.pciYield = false →
      (s.refusal src a.toNat len false = none → (s.pciTx true).length < 256 → s.trackerFree true src a.toNat = true →
        s.mayCross src a.toNat len false = true → s.takeCredits src a.toNat (flits false len) = some u →
        exec (.pcieOutboundRequest src a true len data reply) s =
          .next ((u.cross src a.toNat len false).addTx true src a.toNat len ((reply.getD []).take len) none 8)) ∧
      (s.refusal src a.toNat data.length true = none → s.pciUp = true → (s.pciTx false).length < 64 →
        s.trackerFree false src a.toNat = true → s.mayCross src a.toNat data.length true = true →
        s.takeCredits src a.toNat (flits true data.length) = some u →
        exec (.pcieOutboundRequest src a false len data reply) s =
          .next ((u.cross src a.toNat data.length true).addTx false src a.toNat data.length data none 8)) ∧
      (s.refusal src a.toNat data.length true = none → s.pciUp = false →
        exec (.pcieOutboundRequest src a false len data reply) s = .next (s.pwFail src a.toNat 6 (addrDie a.toNat)))) ∧
    (∀ t, s.txOf id = some t → t.isRead = true → s.isPci t.addr = true → t.since + 50000 ≤ s.now →
      exec (.pcieCompletionTimeout id) s = .next (((s.dropTx id).raise .pci 0 2 t.addr 0).readFailed t 6)) ∧
    (s.up 103 = true → s.fld .pci 0 Reg.PCI_STAT 31 28 ≠ 0 → exec .pcieLinkDown s = .next s.pciDown) ∧
    (s.pciUp = true → s.gw.pciInQ = [] →
      (s.pciWindow a.toNat len = none → exec (.pcieInboundRequest a true len data false) s =
        .next { s.raise .pci 0 1 a.toNat 0 with gw := { (s.raise .pci 0 1 a.toNat 0).gw with pciIn := some (a.toNat, none) } }) ∧
      (s.pciWindow a.toNat data.length = none → exec (.pcieInboundRequest a false len data false) s = .next (s.raise .pci 0 1 a.toNat 0)) ∧
      (∀ r, s.pciWindow a.toNat len = some w → s.unitRead (s.winSrc w) a.toNat len = (u, r) →
        exec (.pcieInboundRequest a true len data false) s = .next { u with gw := { u.gw with pciIn := some (a.toNat, r) } }) ∧
      (s.pciWindow a.toNat data.length = some w → bitOf (s.winAttr w) 30 = false → s.mayCross (s.winSrc w) a.toNat data.length true = true →
        ∃ t, exec (.pcieInboundRequest a false len data false) s = .next t ∧ t.gw.pciCredAt = s.now ∧
          t.mem = (s.unitWrite (s.winSrc w) a.toNat data).mem)) ∧
    (s.pciUp = true → s.pciWindow a.toNat data.length = some w → s.gw.pciInQ.length < 64 →
      (bitOf (s.winAttr w) 30 = true → exec (.pcieInboundRequest a false len data false) s = .next (s.msi a.toNat data)) ∧
      (bitOf (s.winAttr w) 30 = false → (s.gw.pciInQ ≠ [] ∨ s.mayCross (s.winSrc w) a.toNat data.length true = false) →
        exec (.pcieInboundRequest a false len data false) s =
          .next { s with gw := { s.gw with pciInQ := s.gw.pciInQ ++ [(s.winSrc w, a.toNat, data)] } })) ∧
    (s.pciUp = true → s.gw.pciYield = false → 64 ≤ (s.pciTx false).length → 64 ≤ s.gw.pciInQ.length → s.gw.pciCredAt + 400 ≤ s.now →
      exec (.pcieYield n) s = .next (upTo n.val (fun _ (s : State) => s.pciPop) { s.count .pci 0 Reg.PCI_YIELDCNT 1 with
          gw := { (s.count .pci 0 Reg.PCI_YIELDCNT 1).gw with pciYield := true } })) ∧
    (∀ ctx : BitVec 12, s.accepts p 0x5A [] [(8, 2, 0), (8, 13, 8), (8, 27, 16), (0x10, 47, 0), (0x18, 63, 0)] true e →
      w = Fin.ofNat 8 (eBits e 8 2 0) → ctx = BitVec.ofNat 12 (eBits e 8 27 16) →
      (eBits e 8 8 8 = 0 ∨ (eAddr e 0x10 % 4096 = 0 ∧ eAddr e 0x18 % 4096 = 0 ∧ eAddr e 0x18 ≠ 0 ∧ eAddr e 0x10 + eAddr e 0x18 ≤ 2 ^ 48 ∧
        (ctx ≠ 0 → s.ctxLive ctx = true ∧ s.ctxWorld ctx = (eBits e 8 10 10 == 1)) ∧
        ∀ x : Fin 8, x ≠ w → bitOf (s.winAttr x) 31 = true →
          s.winBase x + s.winSize x ≤ eAddr e 0x10 ∨ eAddr e 0x10 + eAddr e 0x18 ≤ s.winBase x)) →
      exec (.pciWindow p) s = .next ((((s.setReg2 .pci 0 (Reg.PCI_WINBASELw w) (Reg.PCI_WINBASEHw w) (eAddr e 0x10)).setReg .pci 0
        (Reg.PCI_WINSIZEw w) (BitVec.ofNat 32 (eAddr e 0x18 / 4096))).setReg .pci 0 (Reg.PCI_WINATTRw w) (BitVec.ofNat 32
          (b2n (eBits e 8 8 8 == 1) * 2 ^ 31 + eBits e 8 9 9 * 2 ^ 30 + b2n (eBits e 8 10 10 == 1) * 2 ^ 29 + eBits e 8 13 11 * 2 ^ 26 +
            ctx.toNat))).complete p 0 0 0 0)) ∧
    (s.accepts p 0x5B [] [(8, 1, 0)] true e →
      (eBits e 8 1 0 = 0 →
        (∀ rate width, s.perst = false → s.up 103 = true → exec (.pciLinkTrain p (some (rate, width))) s =
          .next ((s.setReg .pci 0 Reg.PCI_STAT (BitVec.ofNat 32 (2 * 2 ^ 28 + rate.val * 2 ^ 24 + width.val * 2 ^ 20))).complete p 0 0 0 0)) ∧
        exec (.pciLinkTrain p none) s = .next ((s.setReg .pci 0 Reg.PCI_STAT 0).complete p 0 0 0 0)) ∧
      (eBits e 8 1 0 = 1 → u = s.setFld .pci 0 Reg.PCI_CTRL 1 1 1 →
        exec (.pciLinkPerstAssert p) s =
          .next ((if u.fld .pci 0 Reg.PCI_STAT 31 28 = 0 then u else u.pciDown).complete p 0 0 0 0)) ∧
      (eBits e 8 1 0 = 2 →
        exec (.pciLinkPerstRelease p) s = .next ((s.setFld .pci 0 Reg.PCI_CTRL 1 1 0).complete p 0 0 0 0)))

/-- Completion of CSI_PACKET_RECEIVE, FRAME_RECORD_FINAL, STREAM_DUE_CHECK, CSI_PHY_SYNC, CAM_STREAM and ISP_TUNE (R554 to R561, R583, R585): a
packet goes to every stream of its channel; a finished frame's record is written; a frame not final at its due phase is LATE.
Clauses that the rules leave open follow the model's choice: log entries 26, 28, 66 and 67.
R557, R560: a frame begins with its record PENDING in the slot of its number, or, while the wheel is stopped or armed, only counts as a
drop. -/
def Obligations.CameraCommandsComplete : Prop :=
  (∀ (r : Fin 16) (vc : Fin 16) (sid : Fin 64) (x : Stream) (dt : BitVec 6) (payload bs : List Byte) (crcOk room ecc sync : Bool) (p : Fin 64)
    (e : BitVec 512) (s u : State),
    (s.up (camDomain r) = true →
      exec (.csiPacketReceive r .bad vc .frameStart) s = .next s ∧
      exec (.csiPacketReceive r .good vc .frameStart) s = .next (s.frameStart r vc) ∧
      exec (.csiPacketReceive r .good vc .frameEnd) s =
        .next ((s.streamsOf r vc).foldl (fun (s : State) sid => s.endFrame sid (some s.now)) s) ∧
      exec (.csiPacketReceive r .good vc (.line dt payload crcOk room ecc)) s =
        .next ((s.streamsOf r vc).foldl (fun (s : State) sid => s.camLine sid dt payload crcOk room ecc) s) ∧
      (s.streamsOf r vc = [sid] → exec (.csiPacketReceive r .corrected vc .lineSync) s = .next (s.raise .cam r 0 0 (sidIdx sid))) ∧
      exec (.csiPhySync r sync) s = .next (s.setFld .cam r Reg.CAM_STAT 0 0 (b2n sync))) ∧
    (∀ f t, s.stream sid = some x → x.ended = f :: t →
      u = (match f.eof with
        | some _ => s
        | none => s.freeWord.2) →
      exec (.frameRecordFinal sid) s = .next (((u.unitWrite (u.streamSrc sid x) (x.recordAt f.frame)
        (frameRecord f (match f.eof with
          | some v => BitVec.ofNat 32 v
          | none => s.freeWord.1) ((u.wheel x.wheel).encode f.frame))).setStream sid { x with ended := t }).setReg .cam (sidRecv sid)
          (Reg.CAM_SFRAMEs (sidIdx sid)) f.frame)) ∧
    (∀ f, s.stream sid = some x → x.cur = some f → x.ended = [] → f.late = false → s.dueBegun x f = true →
      exec (.streamDueCheck sid) s = .next ((s.camRaise sid 4).setStream sid { x with cur := some { f with late := true }, ended := [] })) ∧
    (s.accepts p 0x68 [] [(8, 5, 0), (8, 8, 8), (0xC, 7, 0), (0x10, 47, 0)] true e → sid = Fin.ofNat 64 (eBits e 8 5 0) →
      (eBits e 8 8 8 = 0 → exec (.camStream p) s =
        .next (State.complete { s with media := { s.media with streams := s.media.streams.erase sid } } p 0 0 0 0)) ∧
      (eBits e 8 8 8 = 1 → s.fwRead (p.val == 1) (eAddr e 0x10) 64 = (u, some bs) → parseStream sid bs = some x →
        (eBits e 0xC 2 0 = 1 ∨ eBits e 0xC 2 0 = 2 ∨ eBits e 0xC 2 0 = 4) → u.stream sid = none →
        u.media.streams.any (fun o => sidRecv o.1 == sidRecv sid && o.2.vc == x.vc && o.2.dt == x.dt) = false →
        (x.ctx ≠ 0 → u.ctxLive x.ctx = true) → ispFits (x :: u.media.streams.map (·.2)) = true →
        exec (.camStream p) s = .next (((u.setReg .cam (sidRecv sid) Reg.CAM_CFG (eWord e 0xC)).setStream sid x).complete p 0 0 0 0))) ∧
    (s.accepts p 0x69 [] [(8, 5, 0), (0x10, 47, 0)] true e → sid = Fin.ofNat 64 (eBits e 8 5 0) → s.stream sid = some x → x.isp = true →
      exec (.ispTune p true) s = .next (State.complete { s.setStream sid { x with tuneNext := s.freeCtr + 1 } with
        freeCtr := s.freeCtr + 1 } p 0 0 0 0) ∧
      exec (.ispTune p false) s = .next ((s.raise .isp 0 1 0 0).complete p 3 1 0 0))) ∧
  (∀ (sid : Fin 64) (x : Stream) (s : State), s.stream sid = some x →
    ((s.wheel x.wheel).going = false → s.beginFrame sid = s.count .cam (sidRecv sid) (Reg.CAM_SDROPs (sidIdx sid)) 1) ∧
    ((s.wheel x.wheel).going = true → ∃ f, ((s.beginFrame sid).stream sid).bind (·.cur) = some f ∧ f.lines = 0 ∧ f.late = false ∧
      f.frame = if (s.wheel x.wheel).startDue then (s.wheel x.wheel).frame + 1 else (s.wheel x.wheel).frame))

/-! ### Graphics, display and codec -/

/-- Completion of GFX_DOORBELL, GFX_QUEUE_POLL, RENDER_PASS_START, PASS_WRITEBACK, COMPOSITOR_PREEMPT, GFX_QUEUE and GFX_POOL (R563 to R576, R583,
R586): one pass runs at a time, once the queue that it waits on has written back; its end is written back with the next number.
Clauses that the rules leave open follow the model's choice: log entries 68, 92 and 119.
R563, R564: the write-back of a pass advances the queue to its next entry and its sequence number by one, and clears the pass. -/
def Obligations.GraphicsCommandsComplete : Prop :=
  (∀ (src : Src) (q c : Fin 16) (ps : Pass) (d : PassDesc) (po : Pool) (bs : List Byte) (need stalls n : Nat)
    (acts : List GfxAct) (p : Fin 64) (e : BitVec 512) (ctx : BitVec 12) (s u v : State) (pt pu : Pass) (fits : Bool) (fl ch : Nat),
    (s.reaches src (mediaRegs 0x1100000 + Reg.GFX_QDBq q) = true → exec (.gfxDoorbell src q) s = .next (s.gfxCheck q)) ∧
    exec (.gfxQueuePoll q) s = .next (s.gfxCheck q) ∧
    (s.rasterUp = true → (s.gfx q).st ≠ 0 → (s.gfx q).pass = none → s.unitRead (s.gfxSrc q 56) (s.gfx q).entryAt 32 = (u, some bs) →
      bitOf (BitVec.ofNat 32 (leNat ((bs.drop 4).take 4))) 31 = true →
      ∃ x, s.gfxCheck q = u.setGfx q { s.gfx q with pass := some x } ∧ x.entry = (s.gfx q).entryAt ∧ x.started = false ∧ x.flushes = 0) ∧
    ((s.gfx q).pass = some ps → s.rasterUp = true → ps.started = false → (s.gfx q).st = 1 → s.gfxRunning = none → s.waitMet ps = true →
      exec (.renderPassStart q none need stalls acts) s = .next ((s.emptyTex.setGfx q { s.gfx q with
        st := 2, pass := some { ps with started := true, res := 2 } }).raise .gfx 0 4 0 q) ∧
      (d.ok = true → s.pool (s.gfx q).ctx = some po → poolTake (s.pool (s.gfx q).ctx) d.spill.isSome need = (fl, ch, fits) →
        u = (State.count { s.emptyTex with media := { s.emptyTex.media with pools := s.media.pools.set (s.gfx q).ctx { po with used := po.used + ch } } }
          .gfx 0 Reg.GFX_TLFLUSH fl).count .gfx 0 Reg.GFX_SBSTALL stalls →
        (if fits then u else u.raise .gfx 0 3 0 q).fastClears q { ps with
          started := true, desc := d, res := if fits then 0 else 1, flushes := fl, flushLeft := fl, chunks := ch } = (v, pt) →
        ∀ w, v.gfxActs q pt (v.heldPass pt) (if d.draws then acts else []) = (w, pu) →
          exec (.renderPassStart q (some d) need stalls acts) s = .next (w.setGfx q { s.gfx q with st := 2, pass := some pu }))) ∧
    ((s.gfx q).pass = some ps → s.rasterUp = true → ps.started = true → (s.gfx q).st = 2 → s.heldPass ps = false →
      (ps.desc.present = none → ps.res = 0 → s.renderRest q ps acts = (u, pt) → pt.desc = ps.desc →
        exec (.passWriteback q acts) s = .next (u.passEnd q pt (if pt.failed then 2 else pt.res))) ∧
      (∀ pr, ps.desc.present = some pr → ps.res = 0 → s.renderRest q ps acts = (u, pt) → pt.desc = ps.desc →
        exec (.passWriteback q acts) s = .next ((u.passEnd q pt (if pt.failed then 2 else pt.res)).present pr)) ∧
      (ps.desc.present = none → ps.res = 1 → s.spoil q ps = (u, pt) → pt.desc = ps.desc →
        exec (.passWriteback q acts) s = .next (u.passEnd q pt (if pt.failed then 2 else pt.res))) ∧
      (ps.desc.present = none → ps.res = 2 → exec (.passWriteback q acts) s = .next (s.passEnd q ps 2))) ∧
    (∀ x, s.media.gfx.find? (fun e => e.2.compositor && e.2.st == 1 && (e.2.pass.map (fun ps => !ps.started && s.waitMet ps)).getD false) = some x →
      s.gfxRunning = some c → (s.gfx c).pass = some ps →
      (ps.res = 0 → ps.desc.draws = true → s.gfxActs c ps (s.heldPass ps) acts = (u, pt) →
        exec (.compositorPreempt acts) s = .next ((u.setGfx c { u.gfx c with st := 3, pass := some pt }).count .gfx 0 Reg.GFX_PREEMPT 1)) ∧
      (ps.desc.draws = false →
        exec (.compositorPreempt acts) s = .next ((s.setGfx c { s.gfx c with st := 3, pass := some ps }).count .gfx 0 Reg.GFX_PREEMPT 1))) ∧
    (s.accepts p 0x6A [] [(8, 3, 0), (8, 9, 8), (8, 18, 16), (8, 27, 24), (0xC, 11, 0), (0x10, 47, 0)] true e →
      q = Fin.ofNat 16 (eBits e 8 3 0) → ctx = BitVec.ofNat 12 (eBits e 0xC 11 0) →
      (eBits e 8 8 8 = 0 → exec (.gfxQueue p) s = .next ((s.setGfx q GfxQueue.off).complete p 0 0 0 0)) ∧
      (eBits e 8 8 8 = 1 → (eBits e 8 18 16 = 3 ∨ eBits e 8 18 16 = 4) → 4 ≤ eBits e 8 27 24 → eBits e 8 27 24 ≤ 12 → eAddr e 0x10 % 32 = 0 →
        (eBits e 8 9 9 = 1 → s.media.gfx.any (fun o => o.1 != q && o.2.compositor && o.2.st != 0) = false) →
        (ctx ≠ 0 → s.ctxLive ctx = true) → s.mayUse p ctx = true →
        exec (.gfxQueue p) s = .next ((s.setGfx q { GfxQueue.off with
          st := 1, ctx := ctx, cls := Fin.ofNat 8 (eBits e 8 18 16), n := eBits e 8 27 24, base := eAddr e 0x10,
          compositor := decide (eBits e 8 9 9 = 1) }).complete p 0 0 0 0))) ∧
    (s.accepts p 0x6B [] [(8, 11, 0), (0x10, 47, 0), (0x18, 31, 0)] true e → ctx = BitVec.ofNat 12 (eBits e 8 11 0) →
      (ctx ≠ 0 → s.ctxLive ctx = true) → s.mayUse p ctx = true → s.ctxPass ctx = false → n = (eWord e 0x18).toNat →
      exec (.gfxPool p) s = .next (State.complete { s with
        media := { s.media with pools := if n = 0 then s.media.pools.erase ctx else s.media.pools.set ctx ⟨eAddr e 0x10, n, 0⟩ } } p 0 0 0 0))) ∧
  (∀ (q : Fin 16) (ps : Pass) (res : Nat) (s : State), (s.gfx q).compositor = false →
    ((s.passEnd q ps res).gfx q).next = (s.gfx q).next + 1 ∧ ((s.passEnd q ps res).gfx q).seq = (s.gfx q).seq + 1 ∧
    ((s.passEnd q ps res).gfx q).pass = none ∧ ((s.passEnd q ps res).gfx q).st = 1)

/-- R567, R572, R573, R574: fragments reach a sample and its ordered region in submission order; a tile whose flag is set loads as the clear
value; inside its page a texel lies where the interleaved bits of its coordinates put it; a lookup in a page that is not resident gives zeros
and sets the page's feedback bit. Bit n of a map is bit n % 8 of its byte n / 8: the model's choice, log entry 119. -/
def Obligations.TilesAndTexturesFollowTheirLayout : Prop :=
  (∀ fs : List Frag, (submitted fs).Perm fs ∧ (submitted fs).Pairwise (fun f g => f.sub ≤ g.sub)) ∧
  (∀ (log : Fin 5) (x y i : Nat),
    texelOffset log x y < 65536 ∧ texelOffset log x y % 2 ^ log.val = 0 ∧ (i < pageW log → texelOffset log x y / 2 ^ (log.val + 2 * i) % 2 = x / 2 ^ i % 2) ∧
    (i < pageH log → texelOffset log x y / 2 ^ (log.val + 2 * i + 1) % 2 = y / 2 ^ i % 2)) ∧
  (∀ (s u : State) (src : Src) (ps : Pass) (i t : Nat) (a : Attach), ps.flushed.contains t = false → a.op = .load → s.flagged src a t = (u, true) →
    s.loadAtt src ps i a t = (u, allSamples (1024 * ps.desc.samples) (clearBytes a.clear a.bpp))) ∧
  (∀ (s u : State) (src : Src) (ps : Pass) (t : Texture) (res fb : Addr) (x y : Nat) (bs : List Byte), t.sparse = some (res, fb) →
    s.passRead src (res.toNat + t.page x y / 8) 1 = (u, bs) → mapBit bs (t.page x y) = false →
    s.lookup src ps t x y =
      u.putBit src { ps with given := ps.given ++ [.texel false (List.replicate (2 ^ t.log.val) 0)] } fb (t.page x y) true)

/-- Completion of SCAN_OUT_LINE, DISPLAY_LATCH, IMAGE_RELEASE, DISPLAY_LINK_LOSS, DSP_OUT, DSP_PLANE, CODEC_PICTURE and CODEC_SESSION (R577 to R583,
R587, R588): a line goes out and its number advances round the frame; a picture is written back under its session's next descriptor.
Clauses that the rules leave open follow the model's choice: log entries 27, 68 and 120. -/
def Obligations.DisplayAndCodecCommandsComplete : Prop :=
  ∀ (o : Fin 6) (arrived : Bool) (p : Fin 64) (e : BitVec 512) (k : Fin 4) (j : Fin 16) (x : Codec) (src : Src) (a l : Nat) (c : Word)
    (d out : List Byte) (len : BitVec 16) (err : Fin 4) (r : PlaneRec) (ctx : BitVec 12) (s u v w : State) (ok : Bool),
    (s.dspUp o = true →
      (s.curLine o = s.latchLine o →
        exec (.displayLatch o) s = .next ((List.finRange 4).foldl (fun (s : State) k => s.latchPlane o k) s)) ∧
      (s.curLine o = s.vActive o → ∃ t, exec (.imageRelease o) s = .next t ∧ ∀ k y, t.plane o k = some y → y.latched = []) ∧
      exec (.displayLinkLoss o) s =
        .next (State.raise { s with media := { s.media with trained := s.media.trained &&& ~~~(1#6 <<< o.val) } } .dsp o 1 0 0) ∧
      (∀ n, s.curLine o = l → 0 < l → (s.vActive o ≤ l ∧ (v, ok) = (s, true) ∨ l < s.vActive o ∧ s.composeLine o arrived l = (v, ok)) →
        w = (if ok then v else (v.raise .dsp o 0 0 0).count .dsp o Reg.DSP_UNDERCNT 1) → n = (if w.vTotal o ≤ l + 1 then 0 else l + 1) →
        u = State.setFld { w with media := { w.media with line := w.media.line.set o n } } .dsp o Reg.DSP_STAT 31 16 n →
        exec (.scanOutLine o arrived) s = .next (if n = u.vActive o then u.internalEvent (16 + o.val) else u))) ∧
    (s.accepts p 0x6C [] [(8, 2, 0), (8, 8, 8), (0xC, 31, 0), (0x10, 2, 0), (0x14, 31, 0), (0x18, 31, 0), (0x1C, 7, 0)] true e →
      eBits e 8 2 0 = o.val →
      (eBits e 8 8 8 = 0 → u = s.setFld .dsp o Reg.DSP_CFG 31 31 0 → exec (.dspOut p arrived) s = .next (State.complete { u with
        media := { u.media with trained := u.media.trained &&& ~~~(1#6 <<< o.val), line := u.media.line.erase o } } p 0 0 0 0)) ∧
      (eBits e 8 8 8 = 1 → dspCfgOk o.val (eWord e 0xC) (eWord e 0x14) (eWord e 0x18) = true →
        u = ((((s.setReg .dsp o Reg.DSP_CFG (putBits (eWord e 0xC) 31 31 1)).setReg .dsp o Reg.DSP_INTEN (eWord e 0x10)).setReg .dsp o
          Reg.DSP_HTIM (eWord e 0x14)).setReg .dsp o Reg.DSP_VTIM (eWord e 0x18)).setReg .dsp o Reg.DSP_LATCH (eWord e 0x1C) →
        exec (.dspOut p true) s = .next (State.complete { u with
          media := { u.media with
            trained := (u.media.trained &&& ~~~(1#6 <<< o.val)) ||| (1#6 <<< o.val), line := u.media.line.erase o } } p 0 0 0 0))) ∧
    (s.accepts p 0x6D [] [(8, 2, 0), (8, 5, 4), (8, 9, 8), (0xC, 11, 0), (0x10, 47, 0)] true e → eBits e 8 2 0 = o.val →
      k = Fin.ofNat 4 (eBits e 8 5 4) → ctx = BitVec.ofNat 12 (eBits e 0xC 11 0) →
      (eBits e 8 8 8 = 0 → ∀ y, exec (.dspPlane p y) s =
        .next (State.complete { s with media := { s.media with planeNext := s.media.planeNext.set (o, k) none } } p 0 0 0 0)) ∧
      (eBits e 8 8 8 = 1 → r.ok (decide (eBits e 8 9 9 = 1)) = true → (ctx ≠ 0 → s.ctxLive ctx = true) →
        s.mayUse p ctx = true → exec (.dspPlane p (some r)) s = .next (State.complete { s with
          media := { s.media with
            planeNext := s.media.planeNext.set (o, k) (some ⟨ctx, decide (eBits e 8 9 9 = 1), r, [], none, [], []⟩) } }
          p 0 0 0 0))) ∧
    (s.accepts p 0x6E [] [(8, 3, 0), (8, 12, 8), (0xC, 11, 0), (0x10, 31, 0), (0x18, 47, 0)] true e → j = Fin.ofNat 16 (eBits e 8 3 0) →
      ctx = BitVec.ofNat 12 (eBits e 0xC 11 0) →
      (eBits e 8 8 8 = 0 → exec (.codecSession p) s =
        .next (State.complete { s with media := { s.media with codecs := s.media.codecs.erase j } } p 0 0 0 0)) ∧
      (eBits e 8 8 8 = 1 → eBits e 8 12 10 ≠ 0 → eBits e 8 12 10 ≠ 7 → eAddr e 0x18 % 16 = 0 →
        (eWord e 0x10).toNat + ((s.media.codecs.filter (fun o => o.1 != j && o.2.encode == decide (eBits e 8 9 9 = 1))).map
          (fun o => o.2.rate)).foldl (· + ·) 0 ≤ codecMax (decide (eBits e 8 9 9 = 1)) →
        (ctx ≠ 0 → s.ctxLive ctx = true) → s.mayUse p ctx = true →
        exec (.codecSession p) s = .next (State.complete { s with
          media := { s.media with codecs := s.media.codecs.set j ⟨ctx, Fin.ofNat 8 (eBits e 8 12 10), decide (eBits e 8 9 9 = 1),
            (eWord e 0x10).toNat, eAddr e 0x18, 0⟩ } } p 0 0 0 0))) ∧
    (s.media.codecs.get? j = some x → src = ⟨7, 80, s.ctxWorld x.ctx, x.ctx, s.gen x.ctx, x.cls, false⟩ →
      a = x.ring + (x.next % (Config.codecLast + 1)) * 16 → s.up 115 = true → s.unitRead src a 16 = (u, some d) →
      c = BitVec.ofNat 32 (leNat ((d.drop 8).take 4)) →
      (bitOf c 31 = false → exec (.codecPicture j out len err none) s = .next u) ∧
      (bitOf c 31 = true → err ≠ 3 → out ≠ [] → u.unitWriteOk src (leNat (d.take 6)) out = (w, ok) →
        ∃ t, exec (.codecPicture j out len err none) s = .next t ∧ t.media.codecs.get? j = some { x with next := x.next + 1 }))

/-! ### Woade -/

/-- Completion of the link commands of the message fabric (R594 to R608): a new round takes a schedule that is due and the suspensions; a slot
sorts what arrived and serves every port, which sends at most 96 flits and at most 64 on each virtual channel; a flit counts and goes on by its
destination; the sixteenth frame lost within 10 µs takes its port down, and the port's transit flits with it.
Clauses that the rules leave open follow the model's choice: log entries 29, 69, 122 and 123. -/
def Obligations.WoadeLinkCommandsComplete : Prop :=
  ∀ (p : Fin 8) (q : Fin 16) (f : Fin 256) (n : Nat) (src : Src) (x : Flit) (m : WRx) (t : List WRx) (fl : WFlow) (offset : Int)
    (h : Heartbeat) (mt : Maint) (back : List (Nat × Nat)) (even odd : Fin 5) (s u w : State),
    (s.wdeUp = true → s.roundNow ≠ s.wde.round →
      ∃ t, exec .woadeRoundStart s = .next t ∧ t.wde.round = s.roundNow ∧ t.wde.slot = 1024 ∧
        (∀ a b, s.wde.pending = some (a, b) →
          (0 ≤ (BitVec.ofNat 32 s.roundNow - a).toInt → t.wde.sched = b ∧ t.wde.pending = none) ∧
          ((BitVec.ofNat 32 s.roundNow - a).toInt < 0 → t.wde.sched = s.wde.sched ∧ t.wde.pending = s.wde.pending))) ∧
    (∀ j arr, j = s.slotNow → arr = s.wde.arrived → s.wdeUp = true → s.roundNow = s.wde.round → j ≠ s.wde.slot → u = s.setWde { s.wde with slot := j, arrived := [] } →
      w = (if j = 1 then u.heartbeatRound else u) →
      exec (.woadeSlotStart back) s = .next ((List.finRange 8).foldl (fun (s : State) (p : Fin 8) => s.portSlot p j s.slotTime (back.getD p (0, 0)) arr)
        (arr.foldl (fun (s : State) a => s.sortArrival j a) w))) ∧
    (s.wportUp p = true →
      (∀ sent echoed, mt.echo = some (sent, echoed) → mt.hb = none →
        u = (s.setWport p { s.wport p with got := some (mt.stamp, s.slotTime) }).count .wdp p Reg.WDP_RXFLITp 1 →
        offset = linkOffset sent echoed mt.stamp u.slotTime → w = u.setReg .wdp p Reg.WDP_SKEWp (BitVec.ofInt 32 offset) →
        (offset.natAbs ≤ 30 → exec (.maintenanceFlit p mt) s = .next (w.setWport p { u.wport p with
          good := (u.wport p).good + 1, susNext := (u.wport p).susNext && decide ((u.wport p).good + 1 < 4) })) ∧
        (30 < offset.natAbs →
          exec (.maintenanceFlit p mt) s = .next ((w.setWport p { u.wport p with good := 0, susNext := true }).wdeRaise 3 p 0))) ∧
      (6 ≤ p.val → mt.echo = none → mt.hb = some h → s.wde.pair.enabled = true → h.dev = s.wde.pair.partner → h.ready = true →
        h.pkg.toNat = pkREADY →
        ∃ t, exec (.maintenanceFlit p mt) s = .next t ∧ t.wde.pair.seen = true ∧ t.wde.pair.count = 0 ∧
          t.wde.pair.good = s.wde.pair.good ∧ t.reg .wde 0 Reg.WDE_PARTNERWORD = h.word) ∧
      (∀ l, u = (s.count .wdp p Reg.WDP_FECUEp 1).wdeRaise 1 p 0 → l = (u.now :: (u.wport p).lostAt).take 16 →
        w = u.setWport p { u.wport p with lostAt := l } →
        (l.length < 16 → exec (.woadeFlitReceive p .lost) s = .next w) ∧
        (∀ t, l[15]? = some t → w.now ≤ t + 10000 → exec (.woadeFlitReceive p .lost) s = .next (w.wportDown p))) ∧
      (∀ k, (s.wport p).replay[k.val]? = some x → exec (.woadeFlitReceive p (.replay k)) s =
        .next (((s.setWport p { s.wport p with out := (s.wport p).out ++ [x] }).count .wdp p Reg.WDP_REPLAYp 1).countTx p 1)) ∧
      (n = even.val + odd.val → u = (if n = 0 then s.count .wdp p Reg.WDP_RXFLITp 1
          else ((s.count .wdp p Reg.WDP_RXFLITp 1).count .wdp p Reg.WDP_FECCp n).wdeRaise 0 p 0) →
        (x.dst = u.wdeId → exec (.woadeFlitReceive p (.flit even odd x)) s = .next (u.joinFlit p x)) ∧
        (x.dst ≠ u.wdeId → x.sched = true → exec (.woadeFlitReceive p (.flit even odd x)) s =
          .next (u.setWde { u.wde with arrived := u.wde.arrived ++ [(p, x)] })) ∧
        (∀ o, x.dst ≠ u.wdeId → x.sched = false → u.wdeRoute x.dst = .port o → u.wportUp o = true →
          exec (.woadeFlitReceive p (.flit even odd x)) s =
            .next (u.setWde { u.wde with transit := u.wde.transit ++ [(o, { x with vc := u.wdeVc o x.vc })] }))) ∧
      exec (.woadePortDown p) s = .next (((s.wportOff p 1).count .wdp p Reg.WDP_DOWNp 1).wdeRaise 2 p 0) ∧
      (s.wportOff p 1).wde.transit = s.wde.transit.filter (fun e => e.1 != p) ∧ ((s.wportOff p 1).wport p).st = 1 ∧
      ((s.wportOff p 1).wport p).cred = (0, 0) ∧ ((s.wportOff p 1).wport p).downAt = s.now ∧
      (∀ j stamp cr arr, ((s.portSlot p j stamp cr arr).wport p).out.length ≤ 96 ∧
        ((s.portSlot p j stamp cr arr).wport p).cred.1 ≤ 64 ∧ ((s.portSlot p j stamp cr arr).wport p).cred.2 ≤ 64)) ∧
    (s.wde.ready = m :: t → u = s.setWde { s.wde with ready := t } →
      (m.bytes.length < 16 → exec .woadeMessageReceive s = .next u) ∧
      (16 ≤ m.bytes.length → m.bytes.length < 16 + bitsOf (BitVec.ofNat 32 (leNat ((m.bytes.drop 4).take 4))) 12 0 →
        exec .woadeMessageReceive s = .next (State.seqSkip
          (u.msgLost (Fin.ofNat 64 (bitsOf (BitVec.ofNat 32 (leNat ((m.bytes.drop 4).take 4))) 21 16)) 1 m.port)
          (BitVec.ofNat 14 (bitsOf (BitVec.ofNat 32 (leNat ((m.bytes.drop 0).take 4))) 29 16))
          (Fin.ofNat 256 (bitsOf (BitVec.ofNat 32 (leNat ((m.bytes.drop 4).take 4))) 31 24))
          (BitVec.ofNat 16 (bitsOf (BitVec.ofNat 32 (leNat ((m.bytes.drop 8).take 4))) 15 0)))) ∧
      (∀ len data, 16 ≤ m.bytes.length → len = bitsOf (BitVec.ofNat 32 (leNat ((m.bytes.drop 4).take 4))) 12 0 →
        data = (m.bytes.drop 16).take len → 16 + len ≤ m.bytes.length →
        crc32c (m.bytes.take 12 ++ data) = BitVec.ofNat 32 (leNat ((m.bytes.drop 0xC).take 4)) →
        u.seqCheck (BitVec.ofNat 14 (bitsOf (BitVec.ofNat 32 (leNat ((m.bytes.drop 0).take 4))) 29 16))
          (Fin.ofNat 256 (bitsOf (BitVec.ofNat 32 (leNat ((m.bytes.drop 4).take 4))) 31 24))
          (BitVec.ofNat 16 (bitsOf (BitVec.ofNat 32 (leNat ((m.bytes.drop 8).take 4))) 15 0)) = (w, 0) →
        exec .woadeMessageReceive s = .next (w.rqDeliver (Fin.ofNat 64 (bitsOf (BitVec.ofNat 32 (leNat ((m.bytes.drop 4).take 4))) 21 16))
          (BitVec.ofNat 14 (bitsOf (BitVec.ofNat 32 (leNat ((m.bytes.drop 0).take 4))) 29 16)) data m))) ∧
    (s.reaches src (vehRegs 0x1E00000 + Reg.WDE_SQDBq q) = true → exec (.woadeSqDoorbell src q) s = .next (s.sqCheck q)) ∧
    exec (.woadeSqPoll q) s = .next (s.sqCheck q) ∧
    (∀ (y : WSq) err stamp t d a, s.wde.sqs.get? q = some y → y.done = (err, stamp) :: t → s.wflow y.flow = some fl →
      a = y.base + y.wb % 2 ^ y.n * 16 → s.unitRead (s.wdeSrc fl.ctx fl.cls) a 16 = (u, some d) →
      (u.unitWriteOk (s.wdeSrc fl.ctx fl.cls) a (d.take 8 ++
        leBytes 4 (bitsOf (BitVec.ofNat 32 (leNat ((d.drop 8).take 4))) 29 29 * 2 ^ 29 + bitsOf (BitVec.ofNat 32 (leNat ((d.drop 8).take 4))) 30 30 * 2 ^ 30 +
          (if err = 0 then 0 else 2 ^ 28 + err * 2 ^ 24)) ++ leBytes 4 (if err = 0 then stamp.toNat else 0)) = (w, true) →
        exec (.woadeSendWriteback q) s = .next (if bitOf (BitVec.ofNat 32 (leNat ((d.drop 8).take 4))) 29
          then (w.setWsq q { y with wb := y.wb + 1, done := t }).setFld .wde 0 (Reg.WDE_SQPENDq q) 0 0 1
          else w.setWsq q { y with wb := y.wb + 1, done := t }))) ∧
    (s.wdeUp = true →
      ((s.wport p).st = 1 → exec (.woadePortUp p) s = .next (s.setWport p { s.wport p with st := 2 })) ∧
      ((s.wport p).st = 1 → (s.wport p).since + 30000000 ≤ s.now →
        exec (.woadeTrainTimeout p) s = .next ((s.setWport p { s.wport p with st := 3, since := s.now }).wdeRaise 7 p 0)) ∧
      ((s.wport p).st = 3 → (s.wport p).since + 1000000000 ≤ s.now →
        exec (.woadeTrainRetry p) s = .next (s.setWport p { s.wport p with st := 1, since := s.now })) ∧
      (∀ g t, s.wflow f = some fl → s.wdeRoute fl.dev = .port p → fl.buf = g :: t → g.wait + 1000000 ≤ s.now →
        (s.wportUp p = false ∨ fl.sched = false) →
        exec (.woadeMessageDiscard f) s = .next (((s.setWflow f { fl with buf := t }).count .wdp p Reg.WDP_XMITDROPp 1).sqEnd g.sq 4)) ∧
      (∀ g t, s.wflow f = some fl → s.wdeRoute fl.dev = .nowhere → fl.buf = g :: t →
        exec (.woadeMessageDiscard f) s = .next ((s.setWflow f { fl with buf := t }).sqEnd g.sq 3)) ∧
      ((∀ r : Fin 8, 6 ≤ r.val → (s.wport r).st ≠ 2 ∧ (s.wport r).downAt + 100000 ≤ s.now) → s.wde.pair.enabled = true → s.wde.pair.lost = false →
        exec .partnerLoss s = .next ((s.setWde { s.wde with pair := { s.wde.pair with lost := true, alive := false } }).wdeRaise 6 0 0)))

/-- Completion of WDE_TOPO, WDE_PORT, WDE_FLOW, WDE_SCHED, WDE_SQUEUE, WDE_RQUEUE and WDE_PAIR (R592, R597, R598, R601 to R609).
Clauses that the rules leave open follow the model's choice: log entries 68 and 69. -/
def Obligations.WoadeRingCommandsComplete : Prop :=
  ∀ (p : Fin 64) (e : BitVec 512) (n : Fin 8) (f : Fin 256) (q : Fin 16) (r : Fin 64) (ctx : BitVec 12) (y : WFlow) (bs : List Byte) (s u : State),
    (s.accepts p 0x60 [] [(8, 13, 0), (0xC, 4, 0), (0xC, 12, 8), (0xC, 19, 16), (0xC, 25, 24)] true e →
      s.domEnabled (Fin.ofNat 4 (eBits e 0xC 25 24)) = true → s.wdeBound = false →
      exec (.wdeTopo p) s = .next (((s.setReg .wde 0 Reg.WDE_ID (BitVec.ofNat 32 (eBits e 8 13 0))).setReg .wde 0 Reg.WDE_TOPO
        (BitVec.ofNat 32 (eBits e 0xC 4 0 * 2 ^ 24 + eBits e 0xC 12 8 * 2 ^ 16 + eBits e 0xC 19 16 * 2 ^ 8 + eBits e 0xC 25 24))).complete p 0 0 0 0)) ∧
    (s.accepts p 0x61 [] [(8, 2, 0), (8, 8, 8)] true e → n = Fin.ofNat 8 (eBits e 8 2 0) →
      (eBits e 8 8 8 = 0 → ((s.wport n).st = 2 → exec (.wdePort p) s = .next ((s.wportOff n 0).complete p 0 0 0 0)) ∧
        ((s.wport n).st ≠ 2 → exec (.wdePort p) s = .next ((s.setWport n { s.wport n with st := 0 }).complete p 0 0 0 0))) ∧
      (eBits e 8 8 8 = 1 → s.wdeUp = true → (s.wport n).st = 0 →
        exec (.wdePort p) s = .next (s.setWport n { s.wport n with st := 1, since := s.now })) ∧
      (eBits e 8 8 8 = 1 → (s.wport n).st = 2 → exec (.wdePort p) s = .next (s.complete p 0 0 2 0))) ∧
    (s.accepts p 0x62 [] [(8, 9, 0), (8, 18, 16), (0xC, 11, 0), (0x10, 13, 0), (0x10, 21, 16)] true e → f = Fin.ofNat 256 (eBits e 8 7 0) →
      f ≠ 255 → ctx = BitVec.ofNat 12 (eBits e 0xC 11 0) →
      (eBits e 8 8 8 = 0 → s.wde.sqs.any (fun q => q.2.flow == f) = false → exec (.wdeFlow p) s =
        .next ((s.setWde { s.wde with flows := s.wde.flows.filter (fun x => x.1.val != f.val) }).complete p 0 0 0 0)) ∧
      (eBits e 8 8 8 = 1 → (ctx ≠ 0 → s.ctxLive ctx = true) → s.mayUse p ctx = true →
        exec (.wdeFlow p) s = .next ((s.setWflow f ⟨ctx, Fin.ofNat 8 (eBits e 8 18 16), decide (eBits e 8 9 9 = 1),
          BitVec.ofNat 14 (eBits e 0x10 13 0), Fin.ofNat 64 (eBits e 0x10 21 16), 0, []⟩).complete p 0 0 0 0))) ∧
    (∀ es, s.accepts p 0x63 [] [(8, 31, 0), (0x10, 47, 0)] true e → eAddr e 0x10 % 64 = 0 →
      s.fwRead (p.val == 1) (eAddr e 0x10) 16384 = (u, some bs) → es = (List.finRange 8192).map (schedEntry bs) → es.any schedBad = false →
      2 ≤ (eWord e 8 - BitVec.ofNat 32 s.roundNow).toNat → (eWord e 8 - BitVec.ofNat 32 s.roundNow).toNat < 2 ^ 31 →
      exec (.wdeSched p) s = .next (((u.setWde { u.wde with
        pending := some (eWord e 8, (es.filter (fun x => bitOf x.2 15)).map (fun x =>
          (x.1, (⟨bitOf x.2 14, Fin.ofNat 8 (bitsOf x.2 13 11), Fin.ofNat 256 (bitsOf x.2 7 0)⟩ : WEntry)))) }).setReg .wde 0 Reg.WDE_NEXTRND
            (eWord e 8)).complete p 0 0 0 0)) ∧
    (s.accepts p 0x64 [] [(8, 3, 0), (8, 8, 8), (8, 23, 16), (0xC, 3, 0), (0x10, 47, 0)] true e → q = Fin.ofNat 16 (eBits e 8 3 0) →
      f = Fin.ofNat 256 (eBits e 8 23 16) →
      (eBits e 8 8 8 = 0 → exec (.wdeSqueue p) s = .next ((s.setWde { s.wde with sqs := s.wde.sqs.erase q }).complete p 0 0 0 0)) ∧
      (eBits e 8 8 8 = 1 → 4 ≤ eBits e 0xC 3 0 → eBits e 0xC 3 0 ≤ 12 → eAddr e 0x10 % 16 = 0 → s.wflow f = some y →
        exec (.wdeSqueue p) s = .next ((s.setWsq q ⟨1, f, eBits e 0xC 3 0, eAddr e 0x10, 0, 0, []⟩).complete p 0 0 0 0))) ∧
    (s.accepts p 0x65 [] [(8, 5, 0), (8, 8, 8), (8, 18, 16), (8, 27, 24), (0xC, 11, 0), (0x10, 47, 0), (0x18, 13, 0), (0x18, 29, 16)] true e →
      r = Fin.ofNat 64 (eBits e 8 5 0) → ctx = BitVec.ofNat 12 (eBits e 0xC 11 0) →
      (eBits e 8 8 8 = 0 → exec (.wdeRqueue p) s = .next ((s.setWde { s.wde with rqs := s.wde.rqs.erase r }).complete p 0 0 0 0)) ∧
      (eBits e 8 8 8 = 1 → 4 ≤ eBits e 8 27 24 → eBits e 8 27 24 ≤ 12 → eAddr e 0x10 % 16 = 0 → (ctx ≠ 0 → s.ctxLive ctx = true) →
        s.mayUse p ctx = true →
        ∃ v : WRq, exec (.wdeRqueue p) s = .next ((s.setWrq r v).complete p 0 0 0 0) ∧ v.st = 1 ∧ v.ctx = ctx ∧ v.next = 0 ∧
          v.base = eAddr e 0x10 ∧ v.n = eBits e 8 27 24 ∧ v.lo = BitVec.ofNat 14 (eBits e 0x18 13 0) ∧
          v.hi = BitVec.ofNat 14 (eBits e 0x18 29 16))) ∧
    (s.accepts p 0x66 [] [(8, 8, 8), (8, 3, 0), (0xC, 13, 0)] true e →
      (eBits e 8 8 8 = 0 → exec (.wdePair p) s = .next ((s.setWde { s.wde with pair := WoadeState.reset.pair }).complete p 0 0 0 0)) ∧
      (eBits e 8 8 8 = 1 → eBits e 8 3 0 ≠ 0 → BitVec.ofNat 14 (eBits e 0xC 13 0) ≠ s.wdeId →
        exec (.wdePair p) s = .next ((s.setWde { s.wde with
          pair := ⟨true, BitVec.ofNat 14 (eBits e 0xC 13 0), eBits e 8 3 0, false, false, 0, 0, false, 0⟩ }).complete p 0 0 0 0)))

/-! ### Power, coolant, temperature -/

/-- Completion of the commands of power, coolant and temperature (R54, R223, R370 to R398, R488, R622 to R632): a lost supply or clock and a long
RESET_N leave what survives a reset; a switch ends; the samples are judged; the cap stays within its range and above the budgets that are on.
Clauses that the rules leave open follow the model's choice: log entries 31, 51, 70, 71, 109 and 110.
R395, R626: what a power loss leaves: every domain, every register, memory and every core as after reset. -/
def Obligations.PowerCommandsComplete : Prop :=
  (∀ (d : Fin 116) (silent : Option (Fin 11 × Nat)) (ns n a : Nat) (may : Bool) (src : Src) (v : Word) (p : Fin 64) (e : BitVec 512)
    (x : PwrReq × Nat) (dv : Fin 8) (t : Int) (s u : State),
    (1000 ≤ ns ∨ (200 ≤ ns ∧ may = true) → exec (.resetAssert ns may) s = .next s.powerLost) ∧
    (ns < 200 → exec (.resetAssert ns may) s = .next s) ∧
    (2000 ≤ ns → exec (.supplyFault ns) s = .next s.powerLost) ∧
    exec .refclkLoss s = .next s.powerLost ∧ exec .powerRemoval s = .next s.powerLost ∧
    (s.cool = true → u = { s.setFld .pwr 0 Reg.PWR_STAT 2 2 0 with pwr := { (s.setFld .pwr 0 Reg.PWR_STAT 2 2 0).pwr with lateCool := none } } →
      (u.pkg = pkREADY → exec .coolOkDeassert s = .next ((u.raise .pwr 0 3 0 0).toPartial (List.range 6))) ∧
      (u.pkg ≠ pkREADY → exec .coolOkDeassert s = .next (u.tolidDrop (List.range 6)))) ∧
    (s.pkg ≠ pkRESET → s.pwr.cut = false →
      (125 < t → exec (.thermalSample [(dv, t)]) s = .next s.hardCut) ∧
      (t ≤ 125 → u = (s.setReg .pwr 0 Reg.PWR_THERM (BitVec.ofNat 32 (dv.val * 2 ^ 12 + wrapN 9 t))).thermDie dv t →
        (u.cool = true ∨ u.pkg ≠ pkPARTIAL ∨ u.budgetSum ≤ 160 ∨ dv.val < 6 ∨ t < 100 → exec (.thermalSample [(dv, t)]) s = .next u) ∧
        (u.cool = false → u.pkg = pkPARTIAL → 160 < u.budgetSum → 6 ≤ dv.val → 100 ≤ t →
          exec (.thermalSample [(dv, t)]) s = .next u.shed)) ∧
      (averages ((n :: s.pwr.samples).take 100) = [] →
        exec (.powerSample n) s = .next { s with pwr := { s.pwr with samples := (n :: s.pwr.samples).take 100 } }) ∧
      (∀ l, averages ((n :: s.pwr.samples).take 100) = a :: l →
        u = State.setReg { s with pwr := { s.pwr with samples := (n :: s.pwr.samples).take 100 } } .pwr 0 Reg.PWR_MEAS
          (BitVec.ofNat 32 ((a :: l).foldl Nat.max 0 % 4096 * 2 ^ 16 + a % 4096)) →
        exec (.powerSample n) s = .next (if u.effCap < a then u.raise .pwr 0 4 0 0 else u))) ∧
    (s.switchOf d = some x →
      (x.1.on = true ∨ s.fab.tx.any (fun t => !t.isRead && !t.src.fw && agentDomain t.src.die t.src.agent == d.val) = false →
        exec (.domainSwitchDone d silent) s = .next (s.switchDone x (silent.map (fun y => (y.1.val, y.2))))) ∧
      (x.1.on = false → x.2 + 50000 ≤ s.now → exec (.domainDrainEnd d) s = .next (s.drainDomain d))) ∧
    (s.accepts p 0x28 [] [(8, 6, 0), (8, 8, 8)] true e → s.reqPending (.ring p) = false → eBits e 8 6 0 ≤ 115 →
      s.trustedOwns (eBits e 8 6 0) = decide (p = 1) →
      exec (.pwrDomain p) s = .next (s.request ⟨eBits e 8 6 0, decide (eBits e 8 8 8 = 1), .ring p⟩)) ∧
    (s.reaches src (vehRegs 0x1500000 + Reg.PWR_REQ) = true → bitOf v 31 = true → s.mayWrite src .pwr 0 = true → s.reqPending .expert = false →
      bitsOf v 6 0 ≤ 115 → s.trustedOwns (bitsOf v 6 0) = src.world →
      exec (.pwrReq src v) s = .next ((s.setReg .pwr 0 Reg.PWR_REQRES 0).request ⟨bitsOf v 6 0, bitOf v 30, .expert⟩)) ∧
    (s.accepts p 0x29 [] [(8, 9, 0)] true e → n = eBits e 8 9 0 → 120 ≤ n → n ≤ 560 →
      (s.budgetSum ≤ n * 4 → exec (.pwrCap p) s = .next ((s.setReg .pwr 0 Reg.PWR_CAP (BitVec.ofNat 32 n)).complete p 0 0 0 0)) ∧
      (n * 4 < s.budgetSum → exec (.pwrCap p) s = .next (s.complete p 3 6 0 0))) ∧
    (s.reaches src (vehRegs 0x1500000 + Reg.PWR_CAP) = true → s.mayWrite src .pwr 0 = true → n = bitsOf v 9 0 → 120 ≤ n → n ≤ 560 →
      s.budgetSum ≤ n * 4 → exec (.pwrCapWrite src v) s = .next (s.setReg .pwr 0 Reg.PWR_CAP (BitVec.ofNat 32 n))) ∧
    (s.accepts p 0x2A [] [(0x10, 47, 0)] true e → exec (.pwrRead p) s = .next (s.copyBuf p (eAddr e 0x10)
      ((([Reg.PWR_STAT, Reg.PWR_CAP, Reg.PWR_BUDGET, Reg.PWR_MEAS, Reg.PWR_THERM].map (fun o => (s.reg .pwr 0 o).toNat)) ++
        (List.range 4).map s.onWord).flatMap (leBytes 4)) 0 0)) ∧
    (s.accepts p 0x2B [] [] true e → exec (.shutdown p) s = .next (((s.endAllWork).complete p 0 0 0 0).shutDown pkOFF)) ∧
    (s.pending = [] → s.pwr.shutTo = some pkOFF → u = { s with pwr := { s.pwr with shutTo := none } } →
      step s = .next (u.powerDown pkOFF).clockTick.aplicTick.pciDrain) ∧
    (s.accepts p 0x2C [] [(0x10, 47, 0)] true e → exec (.bootReport p) s = .next (s.copyBuf p (eAddr e 0x10)
      ((((List.range 8).map (fun k => (s.pwr.bootTimes.get (Fin.ofNat 9 (k + 1)) 0).toNat)) ++
        [(s.reg .pwr 0 Reg.PWR_BOOTERR).toNat, (s.reg .pwr 0 Reg.PWR_BOOTTIME).toNat]).flatMap (leBytes 4)) 0 0))) ∧
  (∀ (s : State), s.powerLost.mem = [] ∧ s.powerLost.cores = State.reset.cores ∧ s.powerLost.regs = State.reset.regs ∧
    s.powerLost.on = State.reset.on ∧ s.powerLost.fab = State.reset.fab ∧ s.powerLost.time = State.reset.time ∧
    s.powerLost.sched = State.reset.sched ∧ s.powerLost.fw = State.reset.fw ∧ s.powerLost.flt = State.reset.flt ∧
    s.powerLost.pkg = pkRESET ∧ s.powerLost.pwr.densityBlown = s.pwr.densityBlown)

/-! ### Safety -/

/-- Completion of the commands of the checker engine, the comparator and their pairings (R399 to R428, R477): a monitor loads with its shares,
launches once a frame and ends DONE or late; a comparison counts its verdict, whose entry FP3 writes; a signature is checked once.
Clauses that the rules leave open follow the model's choice: log entries 35, 72, 73, 74, 75 and 76.
R411, R414, R421: what a comparison answers before any list is read: a lasting fault first, then the primary's record, then the monitor's. -/
def Obligations.SafetyCommandsComplete : Prop :=
  (∀ (p : Fin 64) (e : BitVec 512) (m i : Fin 16) (sl wh : Fin 4) (x : Monitor) (y : Pairing) (pt : Part) (k : Kind) (c : CoreId) (cert : Cert)
    (bs pb : List Byte) (s t0 u v w : State) (f : Word),
    (∀ ch fh img res, s.accepts p 0x30 [] [(8, 3, 0), (8, 9, 8), (0x10, 47, 0), (0x18, 47, 0)] true e →
      m = Fin.ofNat 16 (eBits e 8 3 0) → sl = Fin.ofNat 4 (eBits e 8 9 8) →
      s.fwRead (p.val == 1) (eAddr e 0x18) 0x60 = (t0, some ch) → t0.fwRead (p.val == 1) (eAddr e 0x18) (certLen ch) = (u, some bs) →
      u.fwRead (p.val == 1) (eAddr e 0x10) 0x40 = (v, some fh) → v.readImage (p.val == 1) (eAddr e 0x10) fh = (w, some img) →
      parseCert bs 1 = some cert → monCert cert = some k → w.up 100 = true → monWheel sl cert.placement = some wh →
      cert.formula = sha256 img → formulaOk fh 0x4E5A4D31 cert.toolver = true → w.monCode m sl wh cert k true true = 0 →
      w.installAll cert.res = res →
      exec (.safeMonLoad p true) s = .next ((res.1.setMon m ⟨sl, wh, k.launch.toNat, k.deadline.toNat, res.2,
        cert.formula, sha256 bs, none, none⟩).complete p 0 0 0 0)) ∧
    (s.accepts p 0x31 [] [(8, 3, 0)] true e → m = Fin.ofNat 16 (eBits e 8 3 0) → s.mon m = some x → s.namedBy m = [] →
      u = x.shares.foldl (fun (s : State) r => s.removeRes r) s →
      exec (.safeMonUnload p) s = .next (State.complete { u with chk := { u.chk with mons := u.chk.mons.erase m } } p 0 0 0 0)) ∧
    (∀ t, s.mon m = some x → s.namedBy m = (i, y) :: t → s.up 100 = true → (s.wheel x.wheel).going = true → (s.wheel x.wheel).begun = true →
      x.running = none → (∀ r, x.final = some r → r.1 ≠ (s.wheel x.wheel).frame) → x.launch ≤ (s.wheel x.wheel).phase.toNat →
      (s.wheel x.wheel).phase.toNat < x.deadline → s.chk.mons.any (fun e => e.2.slice == x.slice && e.2.running.isSome) = false →
      (s.unitRead (chkSrc 7) y.marg 256 = (u, some bs) →
        exec (.monitorLaunch m) s = .next (u.setMon m { x with running := some (s.wheel x.wheel).frame })) ∧
      (s.unitRead (chkSrc 7) y.marg 256 = (u, none) →
        exec (.monitorLaunch m) s = .next (u.setMon m { x with final := some ((s.wheel x.wheel).frame, false, false) }))) ∧
    (∀ writes, s.mon m = some x → x.running = some f →
      exec (.monitorComplete m writes 0) s = .next ((writes.foldl (fun (s : State) e => s.unitWrite (chkSrc 6) e.1.toNat e.2) s).setMon m { x with
        running := none, final := some (f, true, false) }) ∧
      (i = (((s.namedBy m).head?).map (·.1)).getD 0 →
        exec (.monitorComplete m writes 1) s = .next ((writes.foldl (fun (s : State) e => s.unitWrite (chkSrc 6) e.1.toNat e.2)
          (s.chkRaise 1 x.slice i)).setMon m { x with running := none, final := some (f, true, false) }) ∧
        exec (.monitorComplete m writes 2) s =
          .next ((s.chkRaise 2 x.slice i).setMon m { x with running := none, final := some (f, false, true) })) ∧
      ((s.wheel x.wheel).passed f x.deadline = true → u = s.setMon m { x with running := none, final := some (f, false, false) } →
        exec (.monitorDeadline m) s = .next ((u.namedBy m).foldl (fun (s : State) e => s.chkRaise 5 x.slice e.1) u))) ∧
    (∀ g q r, s.accepts p 0x32 [] [(8, 47, 0)] true e → s.fwRead (p.val == 1) (eAddr e 8) 64 = (u, some bs) → parsePairing bs = some (i, y) →
      u.fwRead (p.val == 1) y.prog 320 = (v, some pb) → v.part y.part = some pt → v.mayUse p pt.ctx = true →
      v.pairingOk i y = some (pt, q, r) → parseProg pb = some g →
      exec (.safePair p) s = .next ((v.setPairing i { y with
        firstFrame := if (v.wheel pt.wheel).begun then (v.wheel pt.wheel).frame + 1 else 0, lasting := pt.failed }).complete p 0 0 0 0)) ∧
    (s.accepts p 0x33 [] [(8, 3, 0)] true e → i = Fin.ofNat 16 (eBits e 8 3 0) → s.pairing i = some y → y.active = true → y.by_ = none →
      (y.pend = [] → exec (.safeUnpair p) s =
        .next (State.complete { s with chk := { s.chk with pairs := s.chk.pairs.erase i } } p 0 0 0 0)) ∧
      (y.pend ≠ [] → exec (.safeUnpair p) s = .next (s.setPairing i { y with active := false, by_ := some p }))) ∧
    (∀ vd r cn, s.pairing i = some y → s.part y.part = some pt → y.active = true → s.up 100 = true → s.compareDue y pt y.next = true →
      s.compareFrame i y y.next = (u, vd, r, cn) → sl = ((u.mon y.mon).map (·.slice)).getD 0 →
      v = (if vd = 1 then u.count .chk 0 (Reg.CHK_AGREEi i) 1
        else if vd = 2 then (u.count .chk 0 (Reg.CHK_DISAGi i) 1).chkRaise 3 sl i
        else (u.count .chk 0 (Reg.CHK_INDETi i) 1).chkRaise 4 sl i) →
      exec (.comparisonStart i) s = .next (v.setPairing i { y with
        compared := some y.next, pend := y.pend ++ [⟨y.next, vd, r, cn.up, cn.um, cn.cm, cn.bv, cn.matched, v.now32,
          (s.primaryOut y y.next).code, v.accordOk pt, v.partDebug pt⟩] })) ∧
    (∀ vd t, s.pairing i = some y → y.pend = vd :: t → y.active = true → s.fpRuns 3 = true →
      u = (s.fwWrite false (y.vtab + vd.frame.toNat % 64 * 32) (vd.bytes (y.lasting || ((s.part y.part).map (·.failed)).getD false))).1 →
      exec (.verdictWrite i) s = .next ((u.trace 3 0x0402 [y.part, vd.frame.toNat, vd.verdict]).setPairing i { y with pend := t })) ∧
    (∀ r good, s.chk.due.get? c = some r → s.fpRuns 3 = true → good = (s.reg .cad c.cl.inst (Reg.CAD_ACCSIGk c.k) == accordExpect r) →
      u = { s with chk := { s.chk with due := s.chk.due.erase c, accord := s.chk.accord.set c (good, s.chk.begun.get c 0) } } →
      exec (.accordSignatureCheck c) s = .next (if good then u else u.accmis c)) ∧
    (s.fpRuns 3 = true → s.up 100 = true → s.chk.selfTest + 1000000000 ≤ s.now → u = { s with chk := { s.chk with selfTest := s.now } } →
      exec (.comparatorSelfTest true) s = .next u ∧ exec (.comparatorSelfTest false) s = .next (u.chkRaise 6 0 0)) ∧
    (∀ d, s.accepts p 0x34 [] [(8, 6, 0)] true e → d = eBits e 8 6 0 → d < 116 → [84, 85, 89, 90].contains d = false → s.pkg = pkREADY →
      s.up d = true → s.retestInUse d = false →
      exec (.safeRetest p none) s = .next ((s.blotter d none).complete p 0 0 0 0) ∧
      (∀ z : Fin 11 × Nat, exec (.safeRetest p (some z)) s =
        .next (((((s.blotter d (some (z.1.val, z.2))).raise .pwr 0 1 0 0).powerOff d)).complete p 0 0 0 0))) ∧
    (s.accepts p 0x35 [] [(0x10, 47, 0)] true e →
      exec (.safeStatus p) s = .next (s.copyBuf p (eAddr e 0x10) ((([s.chkStat, (s.reg .chk 0 Reg.CHK_ERRSTAT).toNat] ++
        ((List.finRange 16).flatMap (fun i => [s.chkPair i, (s.reg .chk 0 (Reg.CHK_AGREEi i)).toNat, (s.reg .chk 0 (Reg.CHK_DISAGi i)).toNat,
          (s.reg .chk 0 (Reg.CHK_INDETi i)).toNat])) ++ (List.finRange 8).map s.lksStat ++ [(s.reg .blt 0 Reg.BLT_STAT).toNat]).flatMap
            (leBytes 4)).take 256) 0 0))) ∧
  (∀ (s : State) (i : Fin 16) (y : Pairing) (f : Word),
    (y.lasting = true → s.compareFrame i y f = (s, 3, 6, ⟨0, 0, 0, 0, 0⟩)) ∧
    (y.lasting = false → s.primaryOut y f ≠ .done → s.compareFrame i y f = (s, 3, 1, ⟨0, 0, 0, 0, 0⟩)) ∧
    (y.lasting = false → s.primaryOut y f = .done → s.mon y.mon = none → s.compareFrame i y f = (s, 3, 2, ⟨0, 0, 0, 0, 0⟩)))

/-! ### Faults -/

/-- Completion of the commands of fault collection (R416, R433 to R463, R644): FP7 records, clears and hands on what a block or firmware reports;
FP3 counts each event once; a pulse ends after 10 microseconds; an expired lease stops its holder; a partition reset fences, drains and loads.
Clauses that the rules leave open follow the model's choice: log entries 77, 78, 79 and 80. -/
def Obligations.FaultCommandsComplete : Prop :=
  ∀ (b : Blk) (i : Nat) (src : Src) (v : Word) (p : Fin 64) (e : BitVec 512) (c : CoreId) (ch : Fin 8) (d : Fin 8) (q : Fin 7) (cls : Fin 8)
    (pid : Fin 32) (pt : Part) (s u : State) (n m : Nat) (x : BitVec 64),
    (s.fpRuns 7 = true →
      (s.inten b i &&& s.errBits b i ≠ 0 → exec (.faultService (.block b i)) s = .next (s.serviceBits b i 0xFFFFFFFF)) ∧
      (∀ j t, s.flt.ignWr = (b, j) :: t → u = { s with flt := { s.flt with ignWr := t } } →
        exec (.faultService .ignored) s = .next ((u.fwPulse 7 false).faultRecord ⟨b, j, 25, 0, .report, 0, 0, u.sourceCtx b j .report, 0, 0, 0⟩)) ∧
      (∀ k t, s.flt.conds = k :: t → u = { s with flt := { s.flt with conds := t } } →
        exec (.faultService .cond) s =
          .next (u.faultRecord ⟨k.blk, k.inst, k.cond, 0, u.scopeOf k.blk k.inst k.cond none, 0, 0, k.ctx, k.addr, 0, 0⟩)) ∧
      exec .faultSweep s = .next ((List.finRange 8).foldl (fun (s : State) (d : Fin 8) =>
        if (s.fab.pwlog.get d []).isEmpty && s.fld .fab d Reg.FAB_PWLOGCNT 31 31 == 0 then s else s.drainLog d)
        (s.faulty.foldl (fun (s : State) (x : Blk × Nat) => s.serviceBits x.1 x.2 (~~~(s.inten x.1 x.2))) s))) ∧
    (∀ a t, s.flt.events = a :: t → s.fpRuns 3 = true →
      exec .windowEvent s = .next (State.countEvent { s with flt := { s.flt with events := t } } a)) ∧
    (s.flt.errPulse = some x → x.toNat + 10000 ≤ s.now →
      exec (.pinPulseEnd true) s = .next { s with flt := { s.flt with errPulse := none } }) ∧
    (s.flt.warnPulse = some x → x.toNat + 10000 ≤ s.now →
      exec (.pinPulseEnd false) s = .next { s with flt := { s.flt with warnPulse := none } }) ∧
    (src.fw = true → s.reaches src (vehRegs 0x1700000 + Reg.FLT_PULSE) = true → exec (.fltPulse src v) s =
      .next (if bitOf v 0 then (if bitOf v 1 then s.pulse true else s).pulse false else if bitOf v 1 then s.pulse true else s)) ∧
    (src.fw = false → s.reaches src (vehRegs 0x1700000 + Reg.FLT_PULSE) = true → v &&& 3 ≠ 0 →
      exec (.fltPulse src v) s = .next (s.ignoredWrite .flt 0)) ∧
    (s.fw.mcRunning = true →
      (∀ l a t, s.flt.locks.find? (fun l => l.1 == a) = some (l, c, t) → t + 100000 ≤ s.now →
        s.sched.jobs.any (fun j => j.stopping && j.running.contains c) = false →
        exec (.leaseExpire (.lock a)) s = .next (s.holderFaulted c)) ∧
      (∀ l t, s.flt.chanLease.get? (c, ch) = some (l, t) → t + 100000 ≤ s.now → (Chan.get (s.core c) ch).st = .active →
        s.fab.tx.any (fun x => x.isRead && x.src.core == some c && x.chan.val == ch.val) = false →
        s.sched.jobs.any (fun j => j.stopping && j.running.contains c) = false →
        exec (.leaseExpire (.chan c ch)) s = .next (s.holderFaulted c)) ∧
      (∀ y, s.fab.credits.find? (fun x => x.die == d && x.port == q && x.cls == cls && decide (x.since + 100000 ≤ s.now)) = some y →
        exec (.leaseExpire (.credit d q cls)) s = .next (s.creditExpired d q y))) ∧
    (∀ first next start, s.accepts p 0x38 [7] [(8, 31, 0), (0xC, 6, 0), (0x10, 47, 0)] true e → n = eBits e 0xC 6 0 → 0 < n → n ≤ 64 →
      first = eWord e 8 → next = s.reg .flt 0 Reg.FLT_LOGNEXT → start = (if 65536 < (next - first).toNat then next - 65536 else first) →
      m = Nat.min n (next - start).toNat →
      exec (.fltRead p) s = .next (s.copyBuf p (eAddr e 0x10)
        ((List.range m).flatMap (fun i => s.load (s.fixed.fltBase + (start.toNat + i) % 65536 * 32) 32)) m next.toNat)) ∧
    (s.accepts p 0x39 [3] [(8, 5, 0), (8, 8, 8), (0xC, 31, 0), (0x10, 31, 0), (0x14, 3, 0), (0x18, 31, 0)] true e →
      (eBits e 8 8 8 = 0 → exec (.fltWindow p) s = .next (State.complete { s with
        flt := { s.flt with rules := s.flt.rules.erase (Fin.ofNat 64 (eBits e 8 5 0)) } } p 0 0 0 0)) ∧
      (eBits e 8 8 8 = 1 → n = eBits e 0x14 3 0 → m = eBits e 0x18 31 0 → 0 < n → 0 < m → m ≤ 60000 →
        exec (.fltWindow p) s = .next (State.complete { s with
          flt := { s.flt with rules := s.flt.rules.set (Fin.ofNat 64 (eBits e 8 5 0)) ⟨eWord e 0xC, eWord e 0x10, n, m⟩ } } p 0 0 0 0))) ∧
    (s.accepts p 0x3A [] [(8, 1, 0), (8, 10, 8)] true e →
      (eBits e 8 1 1 = 1 → s.pkg = pkFAILED → exec (.fltPin p) s = .next (s.complete p 3 1 0 0)) ∧
      (eBits e 8 1 1 = 0 ∨ s.pkg ≠ pkFAILED → exec (.fltPin p) s = .next (([0, 1].foldl (fun (s : State) b =>
        if eBits e 8 b b = 0 then s
        else if eBits e 8 9 9 = 1 then (s.setFld .flt 0 Reg.FLT_PINHOLD b b (eBits e 8 8 8)).setFld .flt 0 Reg.FLT_PINAUTO b b (eBits e 8 10 10)
        else s.setFld .flt 0 Reg.FLT_PINHOLD b b (eBits e 8 8 8)) s).complete p 0 0 0 0))) ∧
    (s.accepts p 0x3B [] [(8, 4, 0)] true e → pid = Fin.ofNat 32 (eBits e 8 4 0) → s.livePart pid = some pt → s.mayUse p pt.ctx = true →
      s.flt.drains.get? pid = none →
      (pt.failed = false → exec (.fltPartreset p) s = .next (s.beginReset pid pt p)) ∧
      (pt.failed = true → exec (.fltPartreset p) s = .next (s.complete p 3 0x20 0 0))) ∧
    (∀ y t, s.flt.drains.get? pid = some (y, t) → s.part pid = some pt → s.partQuiet pid = true →
      ((s.partPosted pt) = [] ∨ t + 100000 ≤ s.now) →
      exec (.partresetDrainEnd pid) s =
        .next ((State.endReset { s with flt := { s.flt with drains := s.flt.drains.erase pid } } pid pt).complete y 0 0 0 0)) ∧
    (∀ bs, s.accepts p 0x3C [] [(8, 2, 0), (0x10, 47, 0)] true e → bs = ((s.leaseList (Fin.ofNat 8 (eBits e 8 2 0))).take 64).flatten →
      exec (.fltLeases p) s = .next (State.copyBuf { s with freeCtr := s.freeCtr + 1 } p (eAddr e 0x10) (bs ++ leBytes (1024 - bs.length) 0) 0 0)) ∧
    (s.accepts p 0x3D [3] [(8, 31, 0), (0x10, 47, 0)] true e →
      exec (.fltSource p) s = .next (s.copyBuf p (eAddr e 0x10) (s.sourceBytes (eWord e 8)) 0 0)) ∧
    (∀ off old, s.accepts p 0x3E [] [(8, 2, 0), (8, 12, 8), (0xC, 31, 0)] true e → d = Fin.ofNat 8 (eBits e 8 2 0) →
      off = Reg.FAB_PWSTICKYw (eBits e 8 12 8) → s.up (domFab d) = true → (regFields ⟨.fab, d, off⟩).isSome = true → old = s.reg .fab d off →
      exec (.fltPwsticky p) s = .next ((s.setReg .fab d off (old &&& ~~~(eWord e 0xC))).complete p 0 0 old.toNat 0))

/-- R440, R444, R445: without a rule a source becomes lasting at its third event within one second; an event of class F acts at once and is not
counted. -/
def Obligations.ThirdEventInTheWindowIsLasting : Prop :=
  ∀ (s : State) (e : Ev) (t1 t2 : Nat),
    (e.cls = 2 → s.countEvent e = s.act e.scope) ∧
    (e.cls = 1 → s.flt.rules = [] → s.isLasting e.source = false → s.flt.hist.get e.source [] = [t1, t2] → t2 ≤ t1 → t1 ≤ e.stamp →
      (e.stamp - t2 ≤ 1000000000 → ∃ u : State, u.isLasting e.source = true ∧ s.countEvent e = (u.act e.scope).fwPulse 7 true) ∧
      (1000000000 < e.stamp - t2 → (s.countEvent e).isLasting e.source = false))

/-! ### Security and management -/

/-- Completion of the security commands (R465 to R488, R492): a context is created with a key slot of its own; its removal fences, drains, advances
the generation and releases; regions, packages, group keys, reports, write logs and gated clocks.
Clauses that the rules leave open follow the model's choice: log entries 81, 82 and 121. -/
def Obligations.SecurityCommandsComplete : Prop :=
  ∀ (p : Fin 64) (e : BitVec 512) (ctx : BitVec 12) (sl : Fin 64) (n : Fin 256) (d : Fin 8) (a b c : Nat) (bs gk : List Byte) (g : Word) (r : Removal)
    (keyErr : Bool) (s u v w : State),
    (s.accepts p 0x40 [4] [(8, 11, 0), (8, 21, 16), (8, 24, 24)] true e → ctx = eCtx e → sl = Fin.ofNat 64 (eBits e 8 21 16) → ctx ≠ 0 →
      s.sec.ctxs.get? ctx = none →
      (sl ≠ 0 → ∃ y, s.sec.slices.get? sl = some y ∧ y.world = (p.val == 1)) → (s.ctxsOf sl).length < s.sliceLimit sl 4095 (·.ctxs) →
      (eBits e 8 24 24 = 0 → exec (.ctxCreate p) s = .next ((State.setAcct { s with
        sec := { s.sec with ctxs := s.sec.ctxs.set ctx ⟨p.val == 1, sl, 0, false, false, 0⟩ } } ctx (fun _ => Acct.zero)).complete p 0 0 0 0)) ∧
      (eBits e 8 24 24 = 1 → s.slotsOf sl < s.sliceLimit sl 255 (·.slots) → s.freeSlot = some n →
        exec (.ctxCreate p) s = .next ((((State.setAcct { s with
          sec := { s.sec with ctxs := s.sec.ctxs.set ctx ⟨p.val == 1, sl, n, false, false, 0⟩ } } ctx (fun _ => Acct.zero)).setSlot n
            (some ⟨1, ctx⟩)).drawKey n).complete p 0 0 0 0))) ∧
    (s.accepts p 0x41 [1, 4] [(8, 11, 0)] true e → ctx = eCtx e → s.secCtx ctx = true → s.mayUse p ctx = true →
      s.sec.removals.any (fun r => r.ctx == ctx && r.pair == p && r.cmdid == eCmd e) = false → u = s.fenceCtx ctx →
      exec (.ctxDestroy p) s = .next { u with sec := { u.sec with removals := u.sec.removals ++ [⟨ctx, p, eCmd e, u.now, false⟩] } }) ∧
    (s.removalOf ctx = some r → s.fpRuns 4 = true →
      (r.advanced = false → (s.ctxTx ctx = [] ∨ r.since + 50000 ≤ s.now) →
        u = (if keyErr then (s.advanceGen ctx).raise .sec 0 3 0 0 else s.advanceGen ctx) →
        exec (.ctxDestroyDrainEnd ctx keyErr) s = .next { u with
          sec := { u.sec with removals := u.sec.removals.map (fun (x : Removal) => if x.ctx = ctx then { x with advanced := true } else x) } }) ∧
      (∀ x : Ctx, r.advanced = true → s.sec.ctxs.get? ctx = some x → x.slot = n →
        u = (if n.val = 0 then s else { s.setSlot n none with sec := { (s.setSlot n none).sec with memKey := s.sec.memKey.erase n } }) →
        exec (.ctxDestroyRelease ctx) s = .next (State.complete { u with
          sec := { u.sec with
            ctxs := u.sec.ctxs.erase ctx, regions := u.sec.regions.filter (fun y => y.ctx != ctx), dirty := u.sec.dirty.erase ctx,
            wpkgs := u.sec.wpkgs.filter (fun w => w.ctx != ctx), removals := u.sec.removals.filter (fun y => y.ctx != ctx) }
          sched := { u.sched with acct := u.sched.acct.erase ctx } } r.pair 0 0 x.discards 0))) ∧
    (s.accepts p 0x42 [] [(8, 11, 0), (8, 18, 16), (0x10, 63, 0), (0x18, 63, 0)] true e → ctx = eCtx e → d = Fin.ofNat 8 (eBits e 8 18 16) →
      eAddr e 0x10 = a * unit2M → eAddr e 0x18 = b * unit2M → 0 < b → a * unit2M + b * unit2M ≤ s.dramBytes d → s.secCtx ctx = true →
      s.mayUse p ctx = true → c = s.sliceLimit (s.sliceOfCtx ctx) (s.dramUnits d) (fun x => x.dram.get d 0) →
      (s.unitsOf (s.sliceOfCtx ctx) d + b ≤ c → (s.allRegions.filter (fun r => r.die == d)).length < 256 → (d.val = 6 → 256 ≤ a) →
        (∀ r ∈ s.allRegions, r.die = d → r.base + r.size ≤ a ∨ a + b ≤ r.base) →
        exec (.memMap p) s = .next (State.complete { s with
          sec := { s.sec with regions := s.sec.regions ++ [⟨d, a, b, ctx, s.ctxWorld ctx⟩] } } p 0 0 0 0)) ∧
      (c < s.unitsOf (s.sliceOfCtx ctx) d + b → exec (.memMap p) s = .next (s.complete p 3 2 0 0))) ∧
    (s.accepts p 0x43 [4] [(8, 11, 0), (0x10, 47, 0), (0x18, 47, 0)] true e → ctx = eCtx e → a = eAddr e 0x18 →
      s.fwRead true (eAddr e 0x10) 128 = (u, some bs) → bWord bs 0 = 0x57504B31 → bWord bs 4 = 0x00800001 → b = bWord bs 0xC → 0 < b →
      bZero bs [(0x78, 31, 0), (0x7C, 31, 0)] = true → g = BitVec.ofNat 32 (bWord bs 8) → u.secCtx ctx = true → u.mayUse p ctx = true →
      u.sec.groups.get? g = some gk → u.inRegions ctx a (b * 64) = true →
      (unwrapPk gk bs = none → exec (.wpkgLoad p) s = .next ((u.zero a (b * 64)).complete p 3 8 0 0)) ∧
      (∀ pk ps, unwrapPk gk bs = some pk → u.fwRead true (eAddr e 0x10 + 128) (b * 64 + 16) = (v, some ps) →
        (gcmOpen pk (bBytes bs 0x6C 12) bs (ps.take (b * 64)) (ps.drop (b * 64)) = none →
          exec (.wpkgLoad p) s = .next ((v.zero a (b * 64)).complete p 3 8 0 0)) ∧
        (∀ plain, gcmOpen pk (bBytes bs 0x6C 12) bs (ps.take (b * 64)) (ps.drop (b * 64)) = some plain →
          (bBytes bs 0x10 32 ≠ sha256 plain → exec (.wpkgLoad p) s = .next ((v.zero a (b * 64)).complete p 3 9 0 0)) ∧
          (bBytes bs 0x10 32 = sha256 plain → v.placePlain a plain b = (w, true) → exec (.wpkgLoad p) s = .next (State.complete { w with
            sec := { w.sec with wpkgs := w.sec.wpkgs.filter (fun (y : WPkg) => y.dest != a) ++
              [⟨ctx, a, bBytes bs 0x10 32, sha256 (bs ++ ps), g⟩] } } p 0 0 0 0))))) ∧
    (s.accepts p 0x44 [4] groupFields true e →
      (eBits e 8 0 0 = 0 → s.fwRead true (eAddr e 0x10) 0x320 = (u, some bs) → bWord bs 0 = 0x474B4231 → bWord bs 4 = 0x03200001 →
        g = BitVec.ofNat 32 (bWord bs 8) → g ≠ 0 → bZero bs [(0xC, 31, 2)] = true → leNat (bBytes bs 0x10 16) = leNat u.fixed.devid →
        ((u.sec.groups.get? g).isSome = true ∨ u.sec.groups.length < 16) → exec (.groupKeyInstall p (some gk)) s =
          .next (State.complete { u with sec := { u.sec with groups := u.sec.groups.set g gk } } p 0 0 0 0)) ∧
      (eBits e 8 0 0 = 1 → (s.sec.groups.get? (eWord e 0xC)).isSome = true → exec (.groupKeyRemove p) s =
        .next (State.complete { s with sec := { s.sec with groups := s.sec.groups.erase (eWord e 0xC) } } p 0 0 0 0))) ∧
    (∀ sig o, s.accepts p 0x45 [4] [(8, 0, 0), (8, 23, 12), (0x10, 47, 0), (0x18, 47, 0)] true e → eAddr e 0x18 % 64 = 0 →
      ctx = BitVec.ofNat 12 (eBits e 8 23 12) → o = (if eBits e 8 0 0 == 1 then some ctx else none) →
      (eBits e 8 0 0 = 1 → (ctx ≠ 0 → s.ctxLive ctx = true) ∧ s.mayUse p ctx = true) →
      s.fwRead (p.val == 1) (eAddr e 0x10) 32 = (u, some bs) →
      exec (.attest p sig) s = .next (u.copyOut p (eAddr e 0x18) (u.attest o bs sig) (u.attest o bs sig).length 0)) ∧
    (ctx = eCtx e → s.secCtx ctx = true → s.mayUse p ctx = true →
      (s.accepts p 0x46 [] [(8, 11, 0)] true e →
        (s.sec.dirty.get? ctx = none → s.sec.dirty.length < 4 → exec (.dirtyStart p) s =
          .next (State.complete { s with sec := { s.sec with dirty := s.sec.dirty.set ctx [] } } p 0 0 0 0)) ∧
        ((s.sec.dirty.get? ctx).isSome = true → exec (.dirtyStart p) s = .next (s.complete p 0 0 0 0))) ∧
      (∀ l, s.accepts p 0x47 [] [(8, 11, 0), (8, 18, 16), (0x10, 47, 0)] true e → d = Fin.ofNat 8 (eBits e 8 18 16) → eAddr e 0x10 % 64 = 0 →
        s.sec.dirty.get? ctx = some l → exec (.dirtyRead p) s = .next (State.copyOut { s with
          sec := { s.sec with dirty := s.sec.dirty.set ctx (l.filter (fun g => g.1 != d)) } } p (eAddr e 0x10) (s.bitmap d l) (s.bitmap d l).length 0)) ∧
      (s.accepts p 0x48 [] [(8, 11, 0)] true e → exec (.dirtyStop p) s =
        .next (State.complete { s with sec := { s.sec with dirty := s.sec.dirty.erase ctx } } p 0 0 0 0))) ∧
    (s.accepts p 0x49 [] [(8, 6, 0), (8, 8, 8)] true e → a = eBits e 8 6 0 → a < 116 → s.trustedOwns a = (p.val == 1) → s.pwr.queue = [] →
      s.busy.getLsbD a = false → s.domOn a = true →
      (eBits e 8 8 8 = 1 → s.gated.getLsbD a = false → s.gateCode a true = 0 →
        exec (.domClock p) s = .next (State.complete { s with gated := s.gated ||| BitVec.ofNat 116 (2 ^ a) } p 0 0 0 0)) ∧
      (eBits e 8 8 8 = 0 → s.gated.getLsbD a = true → s.gateCode a false = 0 →
        exec (.domClock p) s = .next (State.complete { s with gated := s.gated &&& ~~~(BitVec.ofNat 116 (2 ^ a)) } p 0 0 0 0)) ∧
      (s.gated.getLsbD a = (eBits e 8 8 8 == 1) → exec (.domClock p) s = .next (s.complete p 0 0 0 0)))

/-- Completion of the commands of the management network (R480, R481, R489 to R491): a session opens with HELLO and AUTH; each good request is
performed once and answered; a failed AUTH counts, and five within a minute lock the port.
Clauses that the rules leave open follow the model's choice: log entries 36, 83, 92, 115 and 116.
R356, R489: a request that has been answered is not performed again: it gets the answer that is kept, and only the time of the session's last
valid request changes besides. -/
def Obligations.ManagementCommandsComplete : Prop :=
  (∀ (q : MgmtDgram) (x : Mgmt) (id : Word) (cred : Fin 8) (nd sig secret pt : List Byte) (n : Fin 64) (y : Slice) (s u : State),
    (s.mgmtUp = true → s.mgmtFor q = true → tpOp q.bytes = 1 → tpForm 0x484D q.bytes 0 = true → tpSession q.bytes = 0 → pt = tpPayload q.bytes →
      pt.length = 36 → mgWord pt 8 < 8 → cred = Fin.ofNat 8 (mgWord pt 8) → s.sec.lockUntil = none → id ≠ 0 → s.mgmtOf id = none →
      exec (.mgmtHello q id nd sig) s = .next (State.mgmtSend { s with
        sec := { s.sec with mgmt := s.sec.mgmt.filter (fun x => x.established || x.cred != cred) ++
          [⟨id, cred, pt.take 32, nd, [], false, s.now, []⟩] } } q
        (tpHeader 0x484D 0x81 0 (nd ++ sig).length id 0 (BitVec.ofNat 64 (2 ^ 63)) ++ nd ++ sig))) ∧
    (s.mgmtUp = true → s.mgmtFor q = true → tpOp q.bytes = 3 → tpMagic q.bytes = 0x484D01 → s.mgmtOf (tpSession q.bytes) = some x →
      x.established = false →
      exec (.mgmtAuth q none) s = .next (s.dropMgmt (tpSession q.bytes)).authFail ∧
      (s.sec.revoked.getLsbD x.cred.val = false → (s.sec.mgmt.filter (fun y => y.established && y.cred != x.cred)).length < 2 →
        exec (.mgmtAuth q (some secret)) s = .next ((State.putMgmt { s with
          sec := { s.sec with mgmt := s.sec.mgmt.filter (fun y => y.id == tpSession q.bytes || !(y.established && y.cred == x.cred)) } }
            { x with established := true, secret := secret, lastValid := s.now }).mgmtSend q
              (Mgmt.answer { x with established := true, secret := secret, lastValid := s.now } 3 0 (tpSeq q.bytes) [])))) ∧
    (u = s.heard x → n = Fin.ofNat 64 (mgWord pt 0) →
      (s.admits q 0x10 x pt →
        (∀ m, parseSlice pt = some (m, y) → u.sliceRole x = true → u.sliceFits m y = true → exec (.sliceCreate q) s =
          .next (State.answered { u with sec := { u.sec with slices := u.sec.slices.set m y } } q x 0 [])) ∧
        (parseSlice pt = none → exec (.sliceCreate q) s = .next (u.answered q x 5 []))) ∧
      (s.admits q 0x11 x pt → mgWord pt 0 < 64 → u.sliceRole x = true → (u.sec.slices.get? n).isSome = true → u.ctxsOf n = [] →
        exec (.sliceDestroy q) s = .next (State.answered { u with sec := { u.sec with slices := u.sec.slices.erase n } } q x 0 [])) ∧
      (s.admits q 0x12 x pt → mgWord pt 0 < 64 → u.sliceRole x = true → u.sec.slices.get? n = some y → exec (.sliceRead q) s =
        .next (u.answered q x 0 (y.bytes n ++ leBytes 8 (Config.sliceUse (u.slotsOf n) (u.sliceParts n).length (u.ctxsOf n).length).toNat))) ∧
      (s.admits q 0x13 x pt →
        (mgWord pt 0 < 8 → u.revokeRole x = true → exec (.credRevoke q) s =
          .next (State.answered { u with sec := { u.sec with revoked := u.sec.revoked ||| BitVec.ofNat 8 (1 <<< mgWord pt 0) } } q x 0 [])) ∧
        (u.revokeRole x = false → exec (.credRevoke q) s = .next (u.answered q x 5 []))) ∧
      (∀ r, s.admits q 0x14 x pt → s.fpRuns 4 = true → s.sec.report = none → r = u.attest none (pt.take 32) sig →
        exec (.pkgAttest q sig) s = .next (State.answered { u with sec := { u.sec with report := some (pt.take 32, r) } } q x 0
          (leBytes 4 r.length ++ (r.drop (mgWord pt 8)).take 1020))) ∧
      (s.admits q 0x15 x pt → exec (.logRead q) s = .next (u.answered q x 0 (if mgWord pt 0 = 1
        then u.logEntries u.fixed.logBase u.fixed.logSize u.fw.logNext (BitVec.ofNat 32 (mgWord pt 1)) 32
        else u.logEntries u.fixed.fltBase 65536 (u.reg .flt 0 Reg.FLT_LOGNEXT) (BitVec.ofNat 32 (mgWord pt 1)) 32))) ∧
      (s.admits q 0x16 x pt → exec (.mgmtClose q) s = .next ((u.dropMgmt x.id).answered q x 0 []))) ∧
    exec .mgmtSessionTimeout s =
      .next { s with sec := { s.sec with mgmt := s.sec.mgmt.filter (fun x => !decide (x.lastValid + 60000000000 ≤ s.now)) } } ∧
    (∀ t, s.sec.lockUntil = some t → t ≤ s.now →
      exec .mgmtLockoutEnd s = .next { s with sec := { s.sec with lockUntil := none } })) ∧
  (∀ (s : State) (q : MgmtDgram) (x : Mgmt) (op : Nat) (pt bs : List Byte) (k : Mgmt → List Byte → State → State × Nat × List Byte),
    s.mgmtUp = true → s.mgmtFor q = true → tpForm 0x484D q.bytes 16 = true → tpOp q.bytes = op → s.mgmtOf (tpSession q.bytes) = some x →
    tpOpened x.key q.bytes = some pt → x.established = true → tpSeq q.bytes ≠ 0 → (tpSeq q.bytes).toNat ≤ 2 ^ 62 →
    x.done.find? (fun e => e.1 == tpSeq q.bytes) = some (tpSeq q.bytes, bs) → s.mgmtRequest q op k = (s.heard x).mgmtSend q bs)

/-! ### Rules stated whole -/

/-- R330, R363: FP4 serves pair 1 and FP0 every other pair; the management core's watchdog of 1 ms is kicked through FW_MCWDKICK, and its expiry
sets MCWDOG of class F, lowers READY and leaves the management core stopped. -/
def Obligations.PairsAreServedAndTheManagementCoreIsWatched : Prop :=
  (∀ p : Fin 64, ringFp p = if p = 1 then 4 else 0) ∧ errClass .fw 4 = .f ∧
  ∀ (src : Src) (s : State), s.fw.mcRunning = true →
    exec (.mcWatchdogKick src true) s = .next { s with fw := { s.fw with mcKick := s.now } } ∧
    (s.now < s.fw.mcKick + 1000000 → exec .mcWatchdogExpire s = .next s) ∧
    (s.fw.mcKick + 1000000 ≤ s.now → ∃ t, exec .mcWatchdogExpire s = .next t ∧ bitOf (t.reg .fw 0 Reg.FW_ERRSTAT) 4 = true ∧
      t.fld .pwr 0 Reg.PWR_STAT 0 0 = 0 ∧ t.fw.mcRunning = false)

/-- R391: PWR_CAP takes whole watts from 120 to 560, is 560 after reset, and a cap below the budgets that are on is refused with BUDGET. -/
def Obligations.PowerCapStaysInItsRange : Prop :=
  State.reset.reg .pwr 0 Reg.PWR_CAP = 560 ∧
  ∀ (p : Fin 64) (e : BitVec 512) (w : Nat) (s : State), s.accepts p 0x29 [] [(8, 9, 0)] true e → w = eBits e 8 9 0 →
    (w < 120 ∨ 560 < w → exec (.pwrCap p) s = .next (s.complete p 2 0 0 0)) ∧
    (120 ≤ w → w ≤ 560 → w * 4 < s.budgetSum → exec (.pwrCap p) s = .next (s.complete p 3 6 0 0)) ∧
    (120 ≤ w → w ≤ 560 → s.budgetSum ≤ w * 4 →
      exec (.pwrCap p) s = .next ((s.setReg .pwr 0 Reg.PWR_CAP (BitVec.ofNat 32 w)).complete p 0 0 0 0))

/-- R182: a context load sets every lane of CV0 to CV3 to +0. -/
def Obligations.ContextLoadClearsTheCorrectionLanes : Prop :=
  ∀ (c : CoreId) (s : State) (i : Fin 4), ((s.loadCore c).core c).cv.get i 0 = 0

/-- R62: a scale of 0xFF makes every value of the block a NaN, whatever the element is; no other scale does. -/
def Obligations.NanScaleMakesANanBlock : Prop :=
  (∀ f e : Nat, scaled (elemVal f e) (scaleExp 0xFF) = .nan) ∧
  (∀ (x m : Nat) (n : Bool) (ev : Int), x < 0xFF → scaled (.fin n m ev) (scaleExp x) = .fin n m (ev + (x : Int) - 127))

/-- R44, R46: a pair is usable only with both of its cores enabled, and ENABLE does nothing on another; admission refuses a placement that names a
disabled core, or a pair that is not usable for paired mode. -/
def Obligations.AdmissionNeedsUsableCores : Prop :=
  ∀ (s : State),
    (∀ p : PairId, (s.pairUsable p = true ↔ s.coreEnabled p.primary = true ∧ s.coreEnabled p.checker = true) ∧
      (s.pairUsable p = false → s.pairEnable p true = s)) ∧
    (∀ (d : PDesc) (c : Cert) (sigOk digestOk : Bool) (r : PRec), r ∈ d.recs →
      ((∃ x ∈ r.coreList, s.coreEnabled x = false) ∨ (∃ i : Fin 4, r.pairs.getLsbD i = true ∧ s.pairUsable ⟨r.cl, i⟩ = false)) →
      s.admitCode d c sigOk digestOk ≠ 0)

/-! ### Every command -/

/-- A step takes the command at the front of the queue and runs it on the state with the rest.
Clauses that the rules leave open follow the model's choice: log entry 2. -/
def Obligations.StepRunsTheFrontCommand : Prop :=
  ∀ (c : Instr) (t : List Instr) (s : State), s.pending = c :: t → step s = exec c { s with pending := t }

/-- Every step answers a next state, whatever the command: one command leaves the queue, and what fuses and the manifest fix never changes. -/
def Obligations.EveryStepTakesOneCommand : Prop :=
  ∀ s : State, ∃ t, step s = .next t ∧ t.pending = s.pending.tail ∧ t.fixed = s.fixed

/-- What reset leaves: the package in RESET with READY low, every domain off, LT at 0, no core running, no wheel going, no pair open, no partition, no
context, and memory in its canonical form; that an unlisted byte reads 0 is the model's choice (log entry 4). -/
def Obligations.ResetLeavesThePackageOff : Prop :=
  State.reset.safe ∧ State.reset.pending = [] ∧ State.reset.pkg = pkRESET ∧ State.reset.fld .pwr 0 Reg.PWR_STAT 0 0 = 0 ∧
  State.reset.on = 0 ∧ State.reset.now = 0 ∧ State.reset.sched.parts = [] ∧ State.reset.sec.ctxs = [] ∧ State.reset.sec.regions = [] ∧
  (∀ a, memGet State.reset.mem a = 0) ∧ (∀ c, (State.reset.core c).run = false) ∧ (∀ w, (State.reset.wheel w).going = false) ∧
  (∀ p, (State.reset.ring p).isOpen = false)

/-- Every step keeps memory in its canonical form, so that equal memories stay equal data. -/
def Obligations.EveryStepKeepsMemoryCanonical : Prop :=
  ∀ s t : State, s.safe → step s = .next t → t.safe
end

