-- ==== Sys2Proof/Laws/Memory.lean ====
section
/-! SUPPORT. Laws of memory: what a byte reads as after each operation, that every operation keeps the canonical form, and that canonical
memories which read alike are equal. -/

namespace Sys2Proof.Machine

theorem Memory.wf_cons {c : Host.Cell} {m : List Host.Cell} :
    Memory.wf (c :: m) = true ↔ c.2 ≠ 0 ∧ (∀ d ∈ m, c.1 < d.1) ∧ Memory.wf m = true := by
  induction m generalizing c with
  | nil => simp [Memory.wf]
  | cons d t ih =>
    simp only [Memory.wf, Bool.and_eq_true, bne_iff_ne, decide_eq_true_eq, List.mem_cons, forall_eq_or_imp]
    constructor
    · rintro ⟨⟨h0, h1⟩, h2⟩
      exact ⟨h0, ⟨h1, fun e he => Nat.lt_trans h1 ((ih.mp h2).2.1 e he)⟩, h2⟩
    · rintro ⟨h0, ⟨h1, -⟩, h2⟩
      exact ⟨⟨h0, h1⟩, h2⟩

/-- A byte below every listed one reads 0. -/
theorem memGet_of_lt {m : List Host.Cell} {a : Nat} (h : ∀ d ∈ m, a < d.1) : memGet m a = 0 := by
  induction m with
  | nil => rfl
  | cons c t ih =>
    have := h c (List.mem_cons_self)
    simp only [memGet]
    rw [if_neg (by omega), ih fun d hd => h d (List.mem_cons_of_mem _ hd)]

theorem memGet_memSet {m : List Host.Cell} (h : Memory.wf m = true) (a x : Nat) (b : Byte) :
    memGet (memSet m a b) x = if x = a then b else memGet m x := by
  induction m with
  | nil => simp only [memSet]; split <;> simp only [memGet] <;> grind
  | cons c t ih =>
    obtain ⟨-, h1, h2⟩ := Memory.wf_cons.mp h
    obtain ⟨a', b'⟩ := c
    have ih := ih h2
    have below : ∀ y, y ≤ a' → memGet t y = 0 := fun y hy => memGet_of_lt fun d hd => Nat.lt_of_le_of_lt hy (h1 d hd)
    simp only [memSet]
    split
    · split <;> simp only [memGet] <;> grind
    · split
      · split <;> simp only [memGet] <;> grind
      · simp only [memGet, ih]; grind

theorem mem_memSet {m : List Host.Cell} {a : Nat} {b : Byte} {d : Host.Cell} (h : d ∈ memSet m a b) : d.1 = a ∨ d ∈ m := by
  induction m with
  | nil => simp only [memSet] at h; split at h <;> simp_all
  | cons c t ih => simp only [memSet] at h; grind

/-- A write of one byte keeps the canonical form. -/
theorem memSet_wf {m : List Host.Cell} (h : Memory.wf m = true) (a : Nat) (b : Byte) : Memory.wf (memSet m a b) = true := by
  induction m with
  | nil => simp only [memSet]; split <;> simp_all [Memory.wf]
  | cons c t ih =>
    have hc := Memory.wf_cons.mp h
    obtain ⟨h0, h1, h2⟩ := hc
    obtain ⟨a', b'⟩ := c
    simp only [memSet]
    split
    · next hlt =>
      split
      · exact h
      · next hb =>
        refine Memory.wf_cons.mpr ⟨hb, ?_, h⟩
        intro d hd
        rcases List.mem_cons.mp hd with rfl | hd
        · exact hlt
        · exact Nat.lt_trans hlt (h1 d hd)
    · next hge =>
      split
      · next he =>
        split
        · exact h2
        · next hb => exact Memory.wf_cons.mpr ⟨hb, fun d hd => he ▸ h1 d hd, h2⟩
      · next hne =>
        refine Memory.wf_cons.mpr ⟨h0, ?_, ih h2⟩
        intro d hd
        rcases mem_memSet hd with e | hd
        · show a' < d.1; omega
        · exact h1 d hd

/-- A store of bytes keeps the canonical form. -/
theorem memWrite_wf {m : List Host.Cell} (h : Memory.wf m = true) (a : Nat) (bs : List Byte) : Memory.wf (memWrite m a bs) = true := by
  induction bs generalizing m a with
  | nil => exact h
  | cons b t ih => exact ih (memSet_wf h a b) (a + 1)

/-- Zeroing a range keeps the canonical form. -/
theorem memZero_wf {m : List Host.Cell} (h : Memory.wf m = true) (a n : Nat) : Memory.wf (memZero m a n) = true := by
  induction m with
  | nil => rfl
  | cons c t ih =>
    obtain ⟨h0, h1, h2⟩ := Memory.wf_cons.mp h
    simp only [memZero, List.filter_cons]
    split
    · exact Memory.wf_cons.mpr ⟨h0, fun d hd => h1 d (List.mem_filter.mp hd).1, ih h2⟩
    · exact ih h2

/-- After a store, a byte of the stored range reads as stored, and every other byte as before. -/
theorem memGet_memWrite {m : List Host.Cell} (h : Memory.wf m = true) (a x : Nat) (bs : List Byte) :
    memGet (memWrite m a bs) x = if a ≤ x then (bs[x - a]?).getD (memGet m x) else memGet m x := by
  induction bs generalizing m a with
  | nil => simp [memWrite]
  | cons b t ih =>
    rw [memWrite, ih (memSet_wf h a b), memGet_memSet h]
    by_cases hx : x = a
    · subst hx; simp [show ¬ x + 1 ≤ x by omega]
    · by_cases hl : a ≤ x
      · have e : x - a = (x - (a + 1)) + 1 := by omega
        simp [show a + 1 ≤ x by omega, hl, hx, e]
      · simp [show ¬ a + 1 ≤ x by omega, hl, hx]

theorem memGet_memWrite_of_not_mem {m : List Host.Cell} (h : Memory.wf m = true) {a x : Nat} {bs : List Byte}
    (hx : x < a ∨ a + bs.length ≤ x) : memGet (memWrite m a bs) x = memGet m x := by
  rw [memGet_memWrite h]
  split
  · rw [List.getElem?_eq_none (by omega), Option.getD_none]
  · rfl

theorem memGet_memZero {m : List Host.Cell} (h : Memory.wf m = true) (a n x : Nat) :
    memGet (memZero m a n) x = if a ≤ x ∧ x < a + n then 0 else memGet m x := by
  induction m with
  | nil => simp [memZero, memGet]
  | cons c t ih =>
    obtain ⟨-, h1, h2⟩ := Memory.wf_cons.mp h
    have ih := ih h2
    simp only [memZero] at ih
    simp only [memZero, List.filter_cons, memGet]
    split <;> rename_i hk <;> simp only [Bool.or_eq_true, decide_eq_true_eq] at hk
    · simp only [memGet, ih]; split <;> split <;> first | rfl | omega
    · rw [ih]
      by_cases hx : c.1 = x
      · subst hx; simp only [if_true]; rw [if_pos (by omega)]; rw [if_pos (by omega)]
      · simp [hx]

@[simp] theorem memRead_length (m : List Host.Cell) (a n : Nat) : (memRead m a n).length = n := by
  induction n generalizing a with
  | zero => rfl
  | succ n ih => simp [memRead, ih]

theorem memRead_getElem (m : List Host.Cell) (a n i : Nat) (h : i < (memRead m a n).length) : (memRead m a n)[i] = memGet m (a + i) := by
  induction n generalizing a i with
  | zero => simp [memRead] at h
  | succ n ih =>
    cases i with
    | zero => rfl
    | succ i =>
      simp only [memRead, List.getElem_cons_succ]
      rw [ih, Nat.add_assoc, Nat.add_comm 1 i]

/-- What was just stored is read back. -/
theorem memRead_memWrite {m : List Host.Cell} (h : Memory.wf m = true) (a : Nat) (bs : List Byte) :
    memRead (memWrite m a bs) a bs.length = bs := by
  apply List.ext_getElem (memRead_length ..)
  intro i h1 h2
  rw [memRead_getElem, memGet_memWrite h]
  simp [h2]

/-- Canonical memories that read alike at every address are equal. -/
theorem Memory.ext {m n : List Host.Cell} (hm : Memory.wf m = true) (hn : Memory.wf n = true) (h : ∀ a, memGet m a = memGet n a) : m = n := by
  induction m generalizing n with
  | nil =>
    cases n with
    | nil => rfl
    | cons d t => exact absurd (by simpa [memGet] using (h d.1).symm) (Memory.wf_cons.mp hn).1
  | cons c t ih =>
    obtain ⟨hc0, hc1, hc2⟩ := Memory.wf_cons.mp hm
    cases n with
    | nil => exact absurd (by simpa [memGet] using h c.1) hc0
    | cons d u =>
      obtain ⟨hd0, hd1, hd2⟩ := Memory.wf_cons.mp hn
      have hcd : c.1 = d.1 := by
        have e1 := h c.1
        have e2 := h d.1
        simp only [memGet, if_true] at e1 e2
        rcases Nat.lt_trichotomy c.1 d.1 with l | e | l
        · rw [if_neg (by omega), memGet_of_lt fun x hx => Nat.lt_trans l (hd1 x hx)] at e1
          exact absurd e1 hc0
        · exact e
        · rw [if_neg (by omega), memGet_of_lt fun x hx => Nat.lt_trans l (hc1 x hx)] at e2
          exact absurd e2.symm hd0
      have e1 := h c.1
      simp only [memGet, if_true, hcd] at e1
      have hcd' : c = d := Prod.ext hcd e1
      subst hcd'
      rw [ih hc2 hd2]
      intro a
      by_cases ha : a = c.1
      · subst ha; rw [memGet_of_lt hc1, memGet_of_lt hd1]
      · have := h a
        simpa [memGet, Ne.symm ha] using this

end Sys2Proof.Machine
end

