-- ==== Sys2Proof/Laws/Commands.lean ====
section
/-! SUPPORT. Laws of the operations that most meanings end in: an instruction of a core that issues, a command of a ring pair, a store. -/

namespace Sys2Proof.Machine

/-! ### An instruction of a core -/

theorem State.canIssue_of_ready {s : State} {c : CoreId} {op : Nat} {w : BitVec 56} (h : s.ready c op w = true) : s.canIssue c = true := by
  simp only [State.ready, Bool.and_eq_true] at h; exact h.1.1

theorem State.not_inAccord_of_ready {s : State} {c : CoreId} {op : Nat} {w : BitVec 56} (h : s.ready c op w = true) :
    inAccord (s.core c).pc.toNat = false := by
  simp only [State.ready, Bool.and_eq_true, Bool.not_eq_true'] at h; exact h.1.2

theorem State.not_interlocked_of_ready {s : State} {c : CoreId} {op : Nat} {w : BitVec 56} (h : s.ready c op w = true) :
    (s.core c).interlocked op w = false := by
  simp only [State.ready, Bool.and_eq_true, Bool.not_eq_true'] at h; exact h.2

theorem State.ready_of_starts {s : State} {c : CoreId} {op : Nat} {w : BitVec 56} (h : s.starts c op w = true) : s.ready c op w = true := by
  simp only [State.starts, Bool.and_eq_true] at h; exact h.1.1

/-- A core that cannot issue does nothing. -/
theorem State.issue_idle {s : State} {c : CoreId} (op : Nat) (w : BitVec 56) (r : Issue) (h : s.canIssue c = false) :
    s.issue c op w r = s := by
  simp [State.issue, h]

/-- A fetch from the accord area raises ACCESS (R156). -/
theorem State.issue_accord {s : State} {c : CoreId} (op : Nat) (w : BitVec 56) (r : Issue) (h : s.canIssue c = true)
    (ha : inAccord (s.core c).pc.toNat = true) : s.issue c op w r = s.except c xACCESS (s.pcAddr c) := by
  simp [State.issue, h, ha]

/-- An instruction that a queued one holds up stalls in issue (R100, R101). -/
theorem State.issue_interlocked {s : State} {c : CoreId} {op : Nat} {w : BitVec 56} (r : Issue) (h : s.canIssue c = true)
    (ha : inAccord (s.core c).pc.toNat = false) (hi : (s.core c).interlocked op w = true) :
    s.issue c op w r = s.putCore c { s.core c with stalled := true } := by
  simp [State.issue, h, ha, hi]

/-- What each way to issue comes to. -/
theorem State.issue_ready {s : State} {c : CoreId} {op : Nat} {w : BitVec 56} (h : s.ready c op w = true) (r : Issue) :
    s.issue c op w r = match r with
      | .ok t => s.completed c t
      | .jump t a => t.transferred c a
      | .own t => t
      | .stay t => t
      | .stall t => t.putCore c { t.core c with stalled := true }
      | .exc b a => s.except c b a
      | .fail t b a => t.except c b a := by
  simp only [State.issue, State.canIssue_of_ready h, State.not_inAccord_of_ready h, State.not_interlocked_of_ready h,
    Bool.not_true, Bool.false_eq_true, if_false]
  cases r <;> rfl

theorem State.issue_ok {s : State} {c : CoreId} {op : Nat} {w : BitVec 56} (h : s.ready c op w = true) (t : State) :
    s.issue c op w (.ok t) = s.completed c t := State.issue_ready h _

theorem State.issue_jump {s : State} {c : CoreId} {op : Nat} {w : BitVec 56} (h : s.ready c op w = true) (t : State) (a : BitVec 20) :
    s.issue c op w (.jump t a) = t.transferred c a := State.issue_ready h _

theorem State.issue_own {s : State} {c : CoreId} {op : Nat} {w : BitVec 56} (h : s.ready c op w = true) (t : State) :
    s.issue c op w (.own t) = t := State.issue_ready h _

theorem State.issue_stay {s : State} {c : CoreId} {op : Nat} {w : BitVec 56} (h : s.ready c op w = true) (t : State) :
    s.issue c op w (.stay t) = t := State.issue_ready h _

theorem State.issue_stall {s : State} {c : CoreId} {op : Nat} {w : BitVec 56} (h : s.ready c op w = true) (t : State) :
    s.issue c op w (.stall t) = t.putCore c { t.core c with stalled := true } := State.issue_ready h _

theorem State.issue_exc {s : State} {c : CoreId} {op : Nat} {w : BitVec 56} (h : s.ready c op w = true) (b a : Nat) :
    s.issue c op w (.exc b a) = s.except c b a := State.issue_ready h _

theorem State.issue_fail {s : State} {c : CoreId} {op : Nat} {w : BitVec 56} (h : s.ready c op w = true) (t : State) (b a : Nat) :
    s.issue c op w (.fail t b a) = t.except c b a := State.issue_ready h _

/-- An instruction of a unit that starts is not queued (R101, R160). -/
theorem State.queued_starts {s : State} {c : CoreId} {op : Nat} {w : BitVec 56} (h : s.starts c op w = true) (r : Issue) :
    s.queued c op w r = r := by
  simp only [State.starts, Bool.and_eq_true, Bool.not_eq_true', List.all_eq_true, bne_iff_ne, ne_eq] at h
  unfold State.queued
  cases hu : unitOf op with
  | none => rfl
  | some u =>
    have e : (s.core c).unitQ.filter (fun q => q.unit == u) = [] := by
      rw [List.filter_eq_nil_iff]
      intro q hq
      have := h.1.2 q hq
      rw [hu] at this
      simpa using fun e => this (congrArg some e.symm)
    simp [e, h.2]

/-- An instruction of a unit that starts is issued as it stands. -/
theorem State.unit_starts {s : State} {c : CoreId} {op : Nat} {w : BitVec 56} (h : s.starts c op w = true) (ok : Bool) (r : Issue) :
    s.unit c op w ok r = s.legal c ok r := by
  rw [State.unit, State.queued_starts h]

/-- An ill-formed word raises ILLEGAL, a well-formed one goes on (R164). -/
theorem State.legal_eq (s : State) (c : CoreId) (ok : Bool) (r : Issue) :
    s.legal c ok r = if ok then r else .exc xILLEGAL (s.pcAddr c) := rfl

/-- A read of a range without errors answers its bytes and changes nothing (R197). -/
theorem State.read_clean {s : State} {a n : Nat} (h : ∀ g ∈ s.granules a n, s.fab.ecc.get? g = none) : s.read a n = (s, s.load a n, none) := by
  have e : (s.granules a n).filterMap (fun g => (s.fab.ecc.get? g).map (fun e => (g, e))) = [] := by
    rw [List.filterMap_eq_nil_iff]
    intro g hg
    simp [h g hg]
  simp [State.read, e]

/-- Bytes that no DMA write meets are as they stand. -/
theorem State.landed_none {s : State} {a : Nat} {bs : List Byte}
    (h : ∀ l ∈ s.fab.landing, ¬(l.addr < a + bs.length ∧ a < l.addr + l.old.length)) : s.landed a bs = (s, bs) := by
  unfold State.landed
  generalize s.fab.landing = l at h
  induction l with
  | nil => rfl
  | cons x l ih =>
    rw [List.foldr_cons, ih fun y hy => h y (List.mem_cons_of_mem _ hy)]
    exact if_neg (h x List.mem_cons_self)

/-- A read of a core of a clean range answers its bytes and changes nothing (R114, R197). -/
theorem State.coreRead_clean {s : State} {a n : Nat} (h : s.clean a n) : s.coreRead a n = (s, s.load a n, none) := by
  have hl : s.landed a (s.load a n) = (s, s.load a n) := State.landed_none (by simpa [State.load, memRead_length] using h.landed)
  cases hd : s.doubled a with
  | false => simp [State.coreRead, State.read_clean h.own, hd, hl]
  | true => simp [State.coreRead, State.read_clean h.own, State.read_clean (h.checker hd), hd, hl]

/-- An aligned load of the own stores is the checked read (R142). -/
theorem State.coreLoad_read {s t : State} {c : CoreId} {a n : Nat} {bs : List Byte} (ha : a % (if n = 256 then 64 else n) = 0)
    (hr : ownRange c a n = true) (hu : (s.core c).unitWrites a n = false) (h : s.coreRead a n = (t, bs, none)) (k : State → Nat → Issue) :
    s.coreLoad c a n k = k t (leNat bs) := by
  simp only [ownRange] at hr
  simp [State.coreLoad, ha, hr, hu, h]

/-- A store that may take place does. -/
theorem State.coreStore_ok {s : State} {c : CoreId} {a align : Nat} {bs : List Byte} (h : s.mayStore c a align bs.length) :
    s.coreStore c a align bs = .ok (s.store a bs) := by
  obtain ⟨h1, h2, h3, h4⟩ := h
  simp only [ownRange] at h2
  simp only [State.inUse, Bool.or_eq_false_iff] at h4
  simp [State.coreStore, h1, h2, h3, h4]

/-! ### Commands of ring pairs and of management sessions -/

/-- An accepted command of a pair is performed (R335). -/
theorem State.command_accepts {s : State} {p : Fin 64} {op : Nat} {needs : List (Fin 8)} {fields : List (Nat × Nat × Nat)} {ctl : Bool}
    {e : BitVec 512} (h : s.accepts p op needs fields ctl e) (k : BitVec 512 → State) : s.command p op needs fields ctl k = k e := by
  obtain ⟨h1, h2, h3, h4⟩ := h
  cases ctl with
  | false => simp +contextual [State.command, h1, h2, h3]
  | true => simp +contextual [State.command, h1, h2, h3, h4 rfl]

/-- Without a taken command of that opcode, or while a processor that it needs does not run, nothing happens. -/
theorem State.command_none {s : State} {p : Fin 64} {op : Nat} {needs : List (Fin 8)} (h : s.takenCmd p op needs = none)
    (fields : List (Nat × Nat × Nat)) (ctl : Bool) (k : BitVec 512 → State) : s.command p op needs fields ctl k = s := by
  simp [State.command, h]

/-- A command with a bit outside its fields ends BADCMD (R340). -/
theorem State.command_bad {s : State} {p : Fin 64} {op : Nat} {needs : List (Fin 8)} {fields : List (Nat × Nat × Nat)} {e : BitVec 512}
    (h : s.takenCmd p op needs = some e) (hp : s.pkg ≠ pkSHUTTING) (he : eClean e fields = false) (ctl : Bool) (k : BitVec 512 → State) :
    s.command p op needs fields ctl k = s.complete p stBADCMD 0 0 0 := by
  simp [State.command, h, hp, he]

/-- An admitted request of a session is performed and answered (R356). -/
theorem State.mgmtRequest_admits {s : State} {q : MgmtDgram} {op : Nat} {x : Mgmt} {pt : List Byte} (h : s.admits q op x pt)
    (k : Mgmt → List Byte → State → State × Nat × List Byte) {t : State} {status : Nat} {bs : List Byte}
    (hk : k { x with lastValid := s.now } pt (s.heard x) = (t, status, bs)) (ht : t.now = s.now) :
    s.mgmtRequest q op k = t.answered q x status bs := by
  obtain ⟨h1, h2, h3, h4, h5, h6, h7, h8, h9, h10, h11⟩ := h
  have h11' : ¬(x.done.length = 64 ∧ (x.done.all fun e => decide (tpSeq q.bytes < e.1)) = true) := by simpa using h11
  have h9' : ¬ 2 ^ 62 < (tpSeq q.bytes).toNat := by omega
  subst h4
  simp only [State.mgmtRequest, h1, h2, h3, h5, h6, h7, h10, Bool.not_true, Bool.or_false, bne_self_eq_false, Bool.and_false,
    Bool.false_eq_true, if_false, beq_eq_false_iff_ne.mpr h8, decide_eq_false h9', if_neg h11', State.answered, ht]
  simp only [State.heard, h7] at hk
  simp only [if_true, hk, Mgmt.answer, Mgmt.key]

/-! ### Stores -/

theorem State.store_mem_of_not_doubled {s : State} {a : Nat} {bs : List Byte} (h : s.doubled a = false) :
    (s.store a bs).mem = memWrite s.mem a bs := by
  simp [State.store, h]

/-- A store changes no byte outside its range and, for the primary of a pair in lockstep, the same range of the checker (R114). -/
theorem State.memGet_store_of_not_mem {s : State} (hw : s.safe) {a x : Nat} {bs : List Byte} (h : x < a ∨ a + bs.length ≤ x)
    (hm : s.doubled a = true → x < a + 0x100000 ∨ a + 0x100000 + bs.length ≤ x) :
    memGet (s.store a bs).mem x = memGet s.mem x := by
  simp only [State.store]
  split
  · next e =>
    rw [memGet_memWrite_of_not_mem (memWrite_wf hw _ _) (hm e), memGet_memWrite_of_not_mem hw h]
  · exact memGet_memWrite_of_not_mem hw h

/-- A store that does not reach its own mirror is read back. -/
theorem State.load_store {s : State} (hw : s.safe) {a : Nat} {bs : List Byte} (h : bs.length ≤ 0x100000) :
    (s.store a bs).load a bs.length = bs := by
  have key : ∀ m : List Host.Cell, Memory.wf m = true → (∀ x, a ≤ x → x < a + bs.length → memGet m x = memGet (memWrite s.mem a bs) x) →
      memRead m a bs.length = bs := by
    intro m _ hx
    apply List.ext_getElem (memRead_length ..)
    intro i h1 h2
    rw [memRead_getElem, hx _ (by omega) (by omega), memGet_memWrite hw]
    simp [h2]
  simp only [State.load, State.store]
  split
  · exact key _ (memWrite_wf (memWrite_wf hw _ _) _ _) fun x h1 h2 => memGet_memWrite_of_not_mem (memWrite_wf hw _ _) (by omega)
  · exact memRead_memWrite hw a bs

end Sys2Proof.Machine
end

