-- ==== Sys2Proof/Laws/Keeps.lean ====
section
/-! SUPPORT. What every operation of the machine keeps: the queue, the part's fixed data and the canonical form of memory. The lemmas
here close such goals by walking back from the answer of an operation to the state it was given. -/

namespace Sys2Proof.Machine

/-- From `s` to `t` the queue and the fixed data stand, and memory stays canonical. -/
structure Keeps (s t : State) : Prop where
  pending : t.pending = s.pending
  fixed : t.fixed = s.fixed
  mem : Memory.wf s.mem = true → Memory.wf t.mem = true

/-- `Keeps` of an operation that may have no answer. -/
structure KeepsSome (s : State) (o : Option State) : Prop where
  keeps : ∀ t, o = some t → Keeps s t

/-- `Keeps` of an operation that may have no answer and answers a value beside the state. -/
structure KeepsSomeFst {α : Type} (s : State) (o : Option (State × α)) : Prop where
  keeps : ∀ p, o = some p → Keeps s p.1

/-- `Keeps` of a command's meaning, which answers a next state. -/
def KeepsOut (s : State) (o : Out) : Prop := ∃ t, o = .next t ∧ Keeps s t

theorem Keeps.refl (s : State) : Keeps s s := ⟨rfl, rfl, id⟩

theorem Keeps.trans {r s t : State} (h : Keeps r s) (k : Keeps s t) : Keeps r t :=
  ⟨k.pending.trans h.pending, k.fixed.trans h.fixed, fun w => k.mem (h.mem w)⟩

/-- A record update of other fields keeps all three. -/
theorem Keeps.upd {r s : State} {regs fab cores bars time sched fw flt sec pwr chk cpu gw media wde on busy gated freeCtr}
    (h : Keeps r s) : Keeps r (State.mk s.pending s.mem regs s.fixed fab cores bars time sched fw flt sec pwr chk cpu gw media wde on busy gated freeCtr) :=
  ⟨h.pending, h.fixed, h.mem⟩

theorem Keeps.upd_iff {r s : State} {regs fab cores bars time sched fw flt sec pwr chk cpu gw media wde on busy gated freeCtr} :
    Keeps r (State.mk s.pending s.mem regs s.fixed fab cores bars time sched fw flt sec pwr chk cpu gw media wde on busy gated freeCtr) ↔
      Keeps r s :=
  ⟨fun h => ⟨h.pending, h.fixed, h.mem⟩, Keeps.upd⟩

/-- A record update that changes memory by an operation that keeps the canonical form. -/
theorem Keeps.updMem {r s : State} {m regs fab cores bars time sched fw flt sec pwr chk cpu gw media wde on busy gated freeCtr}
    (h : Keeps r s) (hm : Memory.wf s.mem = true → Memory.wf m = true) :
    Keeps r (State.mk s.pending m regs s.fixed fab cores bars time sched fw flt sec pwr chk cpu gw media wde on busy gated freeCtr) :=
  ⟨h.pending, h.fixed, fun w => hm (h.mem w)⟩

theorem Keeps.ite {r a b : State} {c : Prop} [Decidable c] (ha : Keeps r a) (hb : Keeps r b) : Keeps r (if c then a else b) := by
  split <;> assumption

theorem Keeps.ite_fst {α : Type} {r : State} {a b : State × α} {c : Prop} [Decidable c] (ha : Keeps r a.1) (hb : Keeps r b.1) :
    Keeps r (if c then a else b).1 := by
  split <;> assumption

theorem Keeps.of_fst {α : Type} {r t : State} {b : α} {p : State × α} (e : p = (t, b)) (h : Keeps r p.1) : Keeps r t := by
  subst e; exact h

theorem Keeps.of_snd {α : Type} {r t : State} {b : α} {p : α × State} (e : p = (b, t)) (h : Keeps r p.2) : Keeps r t := by
  subst e; exact h

theorem Keeps.of_some {r t : State} {o : Option State} (e : o = some t) (h : KeepsSome r o) : Keeps r t := h.keeps t e

theorem Keeps.of_some_fst {α : Type} {r t : State} {b : α} {o : Option (State × α)} (e : o = some (t, b)) (h : KeepsSomeFst r o) :
    Keeps r t := h.keeps (t, b) e

theorem Keeps.of_some_pair {α : Type} {r : State} {p : State × α} {o : Option (State × α)} (e : o = some p) (h : KeepsSomeFst r o) :
    Keeps r p.1 := h.keeps p e

theorem Keeps.getD {r s : State} {o : Option State} (h : KeepsSome r o) (k : Keeps r s) : Keeps r (o.getD s) := by
  cases o with
  | none => exact k
  | some t => exact h.keeps t rfl

theorem KeepsSome.none {r : State} : KeepsSome r none := ⟨fun _ h => nomatch h⟩

theorem KeepsSome.some {r t : State} (h : Keeps r t) : KeepsSome r (some t) := ⟨fun _ e => Option.some.inj e ▸ h⟩

theorem KeepsSome.ite {r : State} {a b : Option State} {c : Prop} [Decidable c] (ha : KeepsSome r a) (hb : KeepsSome r b) :
    KeepsSome r (if c then a else b) := by
  split <;> assumption

theorem KeepsSome.mapState {r : State} {f : State → State} {o : Option State} (hf : ∀ t, Keeps r t → Keeps r (f t))
    (h : KeepsSome r o) : KeepsSome r (o.map f) := by
  cases o with
  | none => exact KeepsSome.none
  | some t => exact KeepsSome.some (hf t (h.keeps t rfl))

theorem KeepsSome.foldl {α : Type} {r : State} {f : Option State → α → Option State} {l : List α} {o : Option State}
    (hf : ∀ o x, KeepsSome r o → KeepsSome r (f o x)) (h : KeepsSome r o) : KeepsSome r (l.foldl f o) := by
  induction l generalizing o with
  | nil => exact h
  | cons x l ih => exact ih (hf o x h)

theorem KeepsSome.map {α : Type} {r : State} {f : α → State} {o : Option α} (h : ∀ x, Keeps r (f x)) : KeepsSome r (o.map f) := by
  cases o with
  | none => exact KeepsSome.none
  | some x => exact KeepsSome.some (h x)

theorem KeepsSomeFst.none {α : Type} {r : State} : KeepsSomeFst (α := α) r none := ⟨fun _ h => nomatch h⟩

theorem KeepsSomeFst.some {α : Type} {r t : State} {b : α} (h : Keeps r t) : KeepsSomeFst r (some (t, b)) :=
  ⟨fun _ e => Option.some.inj e ▸ h⟩

theorem KeepsSomeFst.ite {α : Type} {r : State} {a b : Option (State × α)} {c : Prop} [Decidable c] (ha : KeepsSomeFst r a)
    (hb : KeepsSomeFst r b) : KeepsSomeFst r (if c then a else b) := by
  split <;> assumption

theorem KeepsOut.next {r t : State} (h : Keeps r t) : KeepsOut r (.next t) := ⟨t, rfl, h⟩

theorem KeepsOut.ite {r : State} {a b : Out} {c : Prop} [Decidable c] (ha : KeepsOut r a) (hb : KeepsOut r b) :
    KeepsOut r (if c then a else b) := by
  split <;> assumption

/-- `Keeps` of the way an instruction of a core ends. -/
structure KeepsIssue (s : State) (i : Issue) : Prop where
  ok : ∀ t, i = .ok t → Keeps s t
  jump : ∀ t pc, i = .jump t pc → Keeps s t
  own : ∀ t, i = .own t → Keeps s t
  stay : ∀ t, i = .stay t → Keeps s t
  stall : ∀ t, i = .stall t → Keeps s t
  fail : ∀ t b a, i = .fail t b a → Keeps s t

theorem KeepsIssue.of_ok {r t : State} (h : Keeps r t) : KeepsIssue r (.ok t) := by constructor <;> grind
theorem KeepsIssue.of_jump {r t : State} {pc} (h : Keeps r t) : KeepsIssue r (.jump t pc) := by constructor <;> grind
theorem KeepsIssue.of_own {r t : State} (h : Keeps r t) : KeepsIssue r (.own t) := by constructor <;> grind
theorem KeepsIssue.of_stay {r t : State} (h : Keeps r t) : KeepsIssue r (.stay t) := by constructor <;> grind
theorem KeepsIssue.of_stall {r t : State} (h : Keeps r t) : KeepsIssue r (.stall t) := by constructor <;> grind
theorem KeepsIssue.of_fail {r t : State} {b a} (h : Keeps r t) : KeepsIssue r (.fail t b a) := by constructor <;> grind
theorem KeepsIssue.of_exc {r : State} {b a} : KeepsIssue r (.exc b a) := by constructor <;> grind

theorem KeepsIssue.ite {r : State} {a b : Issue} {c : Prop} [Decidable c] (ha : KeepsIssue r a) (hb : KeepsIssue r b) :
    KeepsIssue r (if c then a else b) := by
  split <;> assumption

/-- `Keeps` of the way an instruction of a core ends, where it may have none. -/
structure KeepsSomeIssue (s : State) (o : Option Issue) : Prop where
  keeps : ∀ i, o = some i → KeepsIssue s i

theorem KeepsSomeIssue.none {r : State} : KeepsSomeIssue r none := ⟨fun _ h => nomatch h⟩

theorem KeepsSomeIssue.some {r : State} {i : Issue} (h : KeepsIssue r i) : KeepsSomeIssue r (some i) :=
  ⟨fun _ e => Option.some.inj e ▸ h⟩

theorem KeepsSomeIssue.ite {r : State} {a b : Option Issue} {c : Prop} [Decidable c] (ha : KeepsSomeIssue r a)
    (hb : KeepsSomeIssue r b) : KeepsSomeIssue r (if c then a else b) := by
  split <;> assumption

theorem KeepsIssue.of_some {r : State} {i : Issue} {o : Option Issue} (e : o = some i) (h : KeepsSomeIssue r o) : KeepsIssue r i :=
  h.keeps i e

theorem Keeps.foldl {α : Type} {r s : State} {f : State → α → State} {l : List α} (hf : ∀ t x, Keeps r t → Keeps r (f t x))
    (h : Keeps r s) : Keeps r (l.foldl f s) := by
  induction l generalizing s with
  | nil => exact h
  | cons x l ih => exact ih (hf s x h)

theorem Keeps.foldl_fst {α β : Type} {r : State} {p : State × β} {f : State × β → α → State × β} {l : List α}
    (hf : ∀ q x, Keeps r q.1 → Keeps r (f q x).1) (h : Keeps r p.1) : Keeps r (l.foldl f p).1 := by
  induction l generalizing p with
  | nil => exact h
  | cons x l ih => exact ih (hf p x h)

theorem Keeps.foldr_fst {α β : Type} {r : State} {p : State × β} {f : α → State × β → State × β} {l : List α}
    (hf : ∀ q x, Keeps r q.1 → Keeps r (f x q).1) (h : Keeps r p.1) : Keeps r (l.foldr f p).1 := by
  induction l with
  | nil => exact h
  | cons x l ih => exact hf _ x ih

theorem Keeps.upTo {r s : State} {f : Nat → State → State} {n : Nat} (hf : ∀ i t, Keeps r t → Keeps r (f i t)) (h : Keeps r s) :
    Keeps r (Sys2Proof.upTo n f s) :=
  Keeps.foldl (fun t i => hf i t) h

end Sys2Proof.Machine
end

