-- ==== Sys2Proof/Laws/KeepsCores.lean ====
section
/-! SUPPORT. Every operation of a core: its instructions and control keeps the queue, the fixed data and the canonical form of memory. -/

namespace Sys2Proof.Machine

theorem State.freeWord_keeps {r s : State} (h : Keeps r s) :
    Keeps r (State.freeWord s).2 := by
  unfold State.freeWord
  repeat' with_reducible first | assumption | simp only [Keeps.upd_iff]

theorem State.landed_keeps {r s : State} {a bs} (h : Keeps r s) :
    Keeps r (State.landed s a bs).1 := by
  unfold State.landed
  refine Keeps.foldr_fst (fun q l k => ?_) h
  dsimp only
  split
  · exact State.freeWord_keeps k
  · exact k

theorem State.setReg_keeps {r s : State} {b i off v} (h : Keeps r s) :
    Keeps r (State.setReg s b i off v) := by
  unfold State.setReg
  repeat' with_reducible first | assumption | simp only [Keeps.upd_iff]

theorem State.setFld_keeps {r s : State} {b i off hi lo v} (h : Keeps r s) :
    Keeps r (State.setFld s b i off hi lo v) := by
  unfold State.setFld
  repeat' with_reducible first | assumption | apply State.setReg_keeps

theorem State.count_keeps {r s : State} {b i off x4} (h : Keeps r s) :
    Keeps r (State.count s b i off x4) := by
  unfold State.count
  repeat' with_reducible first | assumption | apply State.setReg_keeps

theorem State.pulse_keeps {r s : State} {isErr} (h : Keeps r s) :
    Keeps r (State.pulse s isErr) := by
  unfold State.pulse
  repeat' with_reducible first
    | assumption | apply Keeps.ite | apply State.count_keeps | apply State.setFld_keeps | simp only [Keeps.upd_iff]

theorem State.noteEvent_keeps {r s : State} {b i bit info} (h : Keeps r s) :
    Keeps r (State.noteEvent s b i bit info) := by
  unfold State.noteEvent
  repeat' with_reducible first | assumption | apply Keeps.ite | simp only [Keeps.upd_iff]

theorem State.setReg2_keeps {r s : State} {b i offL offH v} (h : Keeps r s) :
    Keeps r (State.setReg2 s b i offL offH v) := by
  unfold State.setReg2
  repeat' with_reducible first | assumption | apply State.setReg_keeps

theorem State.raise_keeps {r s : State} {b i bit addr info} (h : Keeps r s) :
    Keeps r (State.raise s b i bit addr info) := by
  unfold State.raise
  repeat' with_reducible first
    | assumption | apply State.noteEvent_keeps | apply State.pulse_keeps | apply State.setReg_keeps | apply State.setReg2_keeps | split
    | simp only [Keeps.upd_iff]

theorem State.recordEcc_keeps {r s : State} {g e} (h : Keeps r s) :
    Keeps r (State.recordEcc s g e) := by
  unfold State.recordEcc
  repeat' with_reducible first
    | assumption | apply State.raise_keeps | apply State.count_keeps | split | simp only [Keeps.upd_iff]

theorem State.read_keeps {r s : State} {a x2} (h : Keeps r s) :
    Keeps r (State.read s a x2).1 := by
  unfold State.read
  repeat' with_reducible first | assumption | intro _ | apply Keeps.foldl | apply State.recordEcc_keeps

theorem State.coreRead_keeps {r s : State} {a x2} (h : Keeps r s) :
    Keeps r (State.coreRead s a x2).1 := by
  unfold State.coreRead
  repeat' with_reducible first | assumption | apply Keeps.ite_fst | apply State.landed_keeps | apply State.read_keeps

theorem State.freeBytes_keeps {r s : State} {a} (h : Keeps r s) :
    Keeps r (State.freeBytes s a).1 := by
  induction a generalizing s with
  | zero => exact h
  | succ n ih =>
    unfold State.freeBytes
    repeat' with_reducible first | assumption | apply ih | apply State.freeWord_keeps

theorem State.ignoredWrite_keeps {r s : State} {b i} (h : Keeps r s) :
    Keeps r (State.ignoredWrite s b i) := by
  unfold State.ignoredWrite
  repeat' with_reducible first | assumption | simp only [Keeps.upd_iff]

theorem State.setCore_keeps {r s : State} {c x} (h : Keeps r s) :
    Keeps r (State.setCore s c x) := by
  unfold State.setCore
  repeat' with_reducible first | assumption | simp only [Keeps.upd_iff]

theorem State.modCore_keeps {r s : State} {c f} (h : Keeps r s) :
    Keeps r (State.modCore s c f) := by
  unfold State.modCore
  repeat' with_reducible first | assumption | apply State.setCore_keeps

theorem State.store_keeps {r s : State} {a bs} (h : Keeps r s) :
    Keeps r (State.store s a bs) := by
  unfold State.store
  refine Keeps.updMem h fun w => ?_
  split
  · exact memWrite_wf (memWrite_wf w _ _) _ _
  · exact memWrite_wf w _ _

theorem State.store32_keeps {r s : State} {a v} (h : Keeps r s) :
    Keeps r (State.store32 s a v) := by
  unfold State.store32
  repeat' with_reducible first | assumption | apply State.store_keeps

theorem State.zero_keeps {r s : State} {a m} (h : Keeps r s) :
    Keeps r (State.zero s a m) :=
  Keeps.updMem h fun w => memZero_wf w _ _

theorem State.putCore_keeps {r s : State} {c x} (h : Keeps r s) :
    Keeps r (State.putCore s c x) := by
  unfold State.putCore
  repeat' with_reducible first | assumption | intro _ | apply Keeps.foldl | apply State.setCore_keeps

theorem State.release_keeps {r s : State} {c rd v} (h : Keeps r s) :
    Keeps r (State.release s c rd v) := by
  unfold State.release
  repeat' with_reducible first | assumption | apply State.putCore_keeps

theorem State.barRelease_keeps {r s : State} {cl slot v} (h : Keeps r s) :
    Keeps r (State.barRelease s cl slot v) := by
  unfold State.barRelease
  repeat' with_reducible first
    | assumption | intro _ | apply Keeps.foldl | apply State.release_keeps | split | simp only [Keeps.upd_iff]

theorem State.barClear_keeps {r s : State} {c} (h : Keeps r s) :
    Keeps r (State.barClear s c) := by
  unfold State.barClear
  repeat' with_reducible first | assumption | intro _ | apply Keeps.foldl | apply State.barRelease_keeps | split

theorem State.except_keeps {r s : State} {c bit addr} (h : Keeps r s) :
    Keeps r (State.except s c bit addr) := by
  unfold State.except
  repeat' with_reducible first | assumption | apply State.putCore_keeps

theorem State.issue_keeps {r s : State} {c op w i} (h : Keeps r s) (hi : KeepsIssue r i) :
    Keeps r (State.issue s c op w i) := by
  unfold State.issue
  split
  · exact h
  · split
    · exact State.except_keeps h
    · split
      · exact State.putCore_keeps h
      · cases i with
        | ok t => exact State.putCore_keeps (hi.ok t rfl)
        | jump t a => exact State.putCore_keeps (hi.jump t a rfl)
        | own t => exact hi.own t rfl
        | stay t => exact hi.stay t rfl
        | stall t => exact State.putCore_keeps (hi.stall t rfl)
        | exc b a => exact State.except_keeps h
        | fail t b a => exact State.except_keeps (hi.fail t b a rfl)

theorem State.legal_keeps {r s : State} {c ok x3} (h : Keeps r s) (hi : KeepsIssue r x3) :
    KeepsIssue r (State.legal s c ok x3) := by
  unfold State.legal
  repeat' with_reducible first | assumption | apply KeepsIssue.of_exc | apply KeepsIssue.ite

theorem State.orFlags_keeps {r s : State} {c f} (h : Keeps r s) :
    Keeps r (State.orFlags s c f) := by
  unfold State.orFlags
  repeat' with_reducible first | assumption | intro _ | apply Keeps.ite | apply Keeps.foldl | apply State.setReg_keeps

theorem State.setSig_keeps {r s : State} {c sid v} (h : Keeps r s) :
    Keeps r (State.setSig s c sid v) := by
  unfold State.setSig
  repeat' with_reducible first | assumption | intro _ | apply Keeps.foldl | apply State.setReg_keeps

theorem State.sigCheck_keeps {r s : State} {c} (h : Keeps r s) :
    Keeps r (State.sigCheck s c) := by
  unfold State.sigCheck
  repeat' with_reducible first | assumption | apply State.setSig_keeps | apply State.release_keeps | split

theorem State.sigAdd_keeps {r s : State} {c sid x3} (h : Keeps r s) :
    Keeps r (State.sigAdd s c sid x3) := by
  unfold State.sigAdd
  repeat' with_reducible first | assumption | apply State.sigCheck_keeps | apply State.setSig_keeps

theorem State.toS_keeps {r s : State} {c w v} (h : Keeps r s) :
    KeepsIssue r (State.toS s c w v) := by
  unfold State.toS
  repeat' with_reducible first | assumption | apply KeepsIssue.of_ok | apply State.putCore_keeps

theorem State.loopStart_keeps {r s : State} {c w count} (h : Keeps r s) :
    KeepsIssue r (State.loopStart s c w count) := by
  unfold State.loopStart
  repeat' with_reducible first
    | assumption | apply KeepsIssue.of_own | apply KeepsIssue.of_exc | apply KeepsIssue.ite | apply State.putCore_keeps

theorem State.setWheel_keeps {r s : State} {w x} (h : Keeps r s) :
    Keeps r (State.setWheel s w x) := by
  unfold State.setWheel
  repeat' with_reducible first | assumption | simp only [Keeps.upd_iff]

theorem execAadd_keeps {r s : State} {c w} (h : Keeps r s) :
    KeepsOut r (execAadd c w s) := by
  unfold execAadd
  repeat' with_reducible first
    | assumption | apply KeepsOut.next | apply State.issue_keeps | apply State.legal_keeps | apply State.putCore_keeps
    | apply KeepsIssue.of_ok

theorem execAaddi_keeps {r s : State} {c w} (h : Keeps r s) :
    KeepsOut r (execAaddi c w s) := by
  unfold execAaddi
  repeat' with_reducible first
    | assumption | apply KeepsOut.next | apply State.issue_keeps | apply State.legal_keeps | apply State.putCore_keeps
    | apply KeepsIssue.of_ok

theorem execAli_keeps {r s : State} {c w} (h : Keeps r s) :
    KeepsOut r (execAli c w s) := by
  unfold execAli
  repeat' with_reducible first
    | assumption | apply KeepsOut.next | apply State.issue_keeps | apply State.legal_keeps | apply State.putCore_keeps
    | apply KeepsIssue.of_ok

theorem execAmovs_keeps {r s : State} {c w} (h : Keeps r s) :
    KeepsOut r (execAmovs c w s) := by
  unfold execAmovs
  repeat' with_reducible first
    | assumption | apply KeepsOut.next | apply State.issue_keeps | apply State.legal_keeps | apply State.toS_keeps

theorem execAsets_keeps {r s : State} {c w} (h : Keeps r s) :
    KeepsOut r (execAsets c w s) := by
  unfold execAsets
  repeat' with_reducible first
    | assumption | apply KeepsOut.next | apply State.issue_keeps | apply State.legal_keeps | apply State.putCore_keeps
    | apply KeepsIssue.of_ok

theorem execBr_keeps {r s : State} {c w} (h : Keeps r s) :
    KeepsOut r (execBr c w s) := by
  unfold execBr
  repeat' with_reducible first
    | assumption | apply KeepsOut.next | apply State.issue_keeps | apply State.legal_keeps | apply KeepsIssue.of_ok
    | apply KeepsIssue.of_jump | apply KeepsIssue.of_exc | split

theorem execJal_keeps {r s : State} {c w} (h : Keeps r s) :
    KeepsOut r (execJal c w s) := by
  unfold execJal
  repeat' with_reducible first
    | assumption | apply KeepsOut.next | apply State.issue_keeps | apply State.legal_keeps | apply State.putCore_keeps
    | apply KeepsIssue.of_jump

theorem execJmp_keeps {r s : State} {c w} (h : Keeps r s) :
    KeepsOut r (execJmp c w s) := by
  unfold execJmp
  repeat' with_reducible first
    | assumption | apply KeepsOut.next | apply State.issue_keeps | apply State.legal_keeps | apply KeepsIssue.of_jump

theorem execJr_keeps {r s : State} {c w} (h : Keeps r s) :
    KeepsOut r (execJr c w s) := by
  unfold execJr
  repeat' with_reducible first
    | assumption | apply KeepsOut.next | apply State.issue_keeps | apply State.legal_keeps | apply KeepsIssue.of_jump
    | apply KeepsIssue.of_exc | apply KeepsIssue.ite

theorem execLoop_keeps {r s : State} {c w} (h : Keeps r s) :
    KeepsOut r (execLoop c w s) := by
  unfold execLoop
  repeat' with_reducible first | assumption | apply KeepsOut.next | apply State.issue_keeps | apply State.loopStart_keeps

theorem execLoopi_keeps {r s : State} {c w} (h : Keeps r s) :
    KeepsOut r (execLoopi c w s) := by
  unfold execLoopi
  repeat' with_reducible first | assumption | apply KeepsOut.next | apply State.issue_keeps | apply State.loopStart_keeps

theorem execNop_keeps {r s : State} {c w} (h : Keeps r s) :
    KeepsOut r (execNop c w s) := by
  unfold execNop
  repeat' with_reducible first
    | assumption | apply KeepsOut.next | apply State.issue_keeps | apply State.legal_keeps | apply KeepsIssue.of_ok

theorem execPfroms_keeps {r s : State} {c w} (h : Keeps r s) :
    KeepsOut r (execPfroms c w s) := by
  unfold execPfroms
  repeat' with_reducible first
    | assumption | apply KeepsOut.next | apply State.issue_keeps | apply State.legal_keeps | apply State.putCore_keeps
    | apply KeepsIssue.of_ok

theorem execPlane_keeps {r s : State} {c w} (h : Keeps r s) :
    KeepsOut r (execPlane c w s) := by
  unfold execPlane
  repeat' with_reducible first
    | assumption | apply KeepsOut.next | apply State.issue_keeps | apply State.legal_keeps | apply State.putCore_keeps
    | apply KeepsIssue.of_ok

theorem execPmovs_keeps {r s : State} {c w} (h : Keeps r s) :
    KeepsOut r (execPmovs c w s) := by
  unfold execPmovs
  repeat' with_reducible first
    | assumption | apply KeepsOut.next | apply State.issue_keeps | apply State.legal_keeps | apply State.toS_keeps

theorem execPop_keeps {r s : State} {c w} (h : Keeps r s) :
    KeepsOut r (execPop c w s) := by
  unfold execPop
  repeat' with_reducible first
    | assumption | apply KeepsOut.next | apply State.issue_keeps | apply State.legal_keeps | apply State.putCore_keeps
    | apply KeepsIssue.of_ok

theorem execSop_keeps {r s : State} {c w} (h : Keeps r s) :
    KeepsOut r (execSop c w s) := by
  unfold execSop
  repeat' with_reducible first
    | assumption | apply KeepsOut.next | apply State.issue_keeps | apply State.legal_keeps | apply State.toS_keeps | apply KeepsIssue.of_exc
    | split

theorem execSopi_keeps {r s : State} {c w} (h : Keeps r s) :
    KeepsOut r (execSopi c w s) := by
  unfold execSopi
  repeat' with_reducible first
    | assumption | apply KeepsOut.next | apply State.issue_keeps | apply State.legal_keeps | apply State.toS_keeps | apply KeepsIssue.of_exc
    | split

theorem execSrd_keeps {r s : State} {c w} (h : Keeps r s) :
    KeepsOut r (execSrd c w s) := by
  unfold execSrd
  repeat' with_reducible first
    | assumption | apply KeepsOut.next | apply State.issue_keeps | apply State.legal_keeps | apply State.putCore_keeps
    | apply State.modCore_keeps | apply KeepsIssue.of_own | apply KeepsIssue.of_exc | split

theorem execWaitc_keeps {r s : State} {c w} (h : Keeps r s) :
    KeepsOut r (execWaitc c w s) := by
  unfold execWaitc
  repeat' with_reducible first
    | assumption | apply KeepsOut.next | apply State.issue_keeps | apply State.legal_keeps | apply KeepsIssue.of_ok

theorem State.logWrite_keeps {r s : State} {fp lt point args} (h : Keeps r s) :
    Keeps r (State.logWrite s fp lt point args) := by
  unfold State.logWrite
  repeat' with_reducible first | assumption | apply State.store_keeps | apply State.store32_keeps | simp only [Keeps.upd_iff]

theorem State.trace_keeps {r s : State} {fp point args} (h : Keeps r s) :
    Keeps r (State.trace s fp point args) := by
  unfold State.trace
  repeat' with_reducible first
    | assumption | apply Keeps.ite | apply State.logWrite_keeps | apply State.count_keeps | simp only [Keeps.upd_iff]

theorem State.accslip_keeps {r s : State} {c p k} (h : Keeps r s) :
    Keeps r (State.accslip s c p k) := by
  unfold State.accslip
  repeat' with_reducible first | assumption | apply State.raise_keeps | simp only [Keeps.upd_iff]

theorem State.accordBegin_keeps {r s : State} {c} (h : Keeps r s) :
    Keeps r (State.accordBegin s c) := by
  unfold State.accordBegin
  repeat' with_reducible first
    | assumption | apply State.setReg_keeps | apply State.accslip_keeps | split | simp only [Keeps.upd_iff]

theorem State.setJob_keeps {r s : State} {j} (h : Keeps r s) :
    Keeps r (State.setJob s j) := by
  unfold State.setJob
  repeat' with_reducible first | assumption | simp only [Keeps.upd_iff]

theorem State.syncAcct_keeps {r s : State} {ctx} (h : Keeps r s) :
    Keeps r (State.syncAcct s ctx) := by
  unfold State.syncAcct
  repeat' with_reducible first | assumption | apply State.store_keeps

theorem State.setAcct_keeps {r s : State} {ctx f} (h : Keeps r s) :
    Keeps r (State.setAcct s ctx f) := by
  unfold State.setAcct
  repeat' with_reducible first | assumption | apply State.syncAcct_keeps | simp only [Keeps.upd_iff]

theorem State.lateEvent_keeps {r s : State} {c} (h : Keeps r s) :
    Keeps r (State.lateEvent s c) := by
  unfold State.lateEvent
  repeat' with_reducible first
    | assumption | apply State.trace_keeps | apply State.setJob_keeps | apply State.raise_keeps | apply State.setAcct_keeps
    | apply State.count_keeps | split | simp only [Keeps.upd_iff]

theorem State.setPart_keeps {r s : State} {p x} (h : Keeps r s) :
    Keeps r (State.setPart s p x) := by
  unfold State.setPart
  repeat' with_reducible first | assumption | simp only [Keeps.upd_iff]

theorem State.setLines_keeps {r s : State} {x1} (h : Keeps r s) :
    Keeps r (State.setLines s x1) := by
  unfold State.setLines
  repeat' with_reducible first | assumption | simp only [Keeps.upd_iff]

theorem State.dropLine_keeps {r s : State} {x} (h : Keeps r s) :
    Keeps r (State.dropLine s x) := by
  unfold State.dropLine
  repeat' with_reducible first | assumption | apply State.setLines_keeps

theorem State.putLine_keeps {r s : State} {x} (h : Keeps r s) :
    Keeps r (State.putLine s x) := by
  unfold State.putLine
  repeat' with_reducible first | assumption | apply State.setLines_keeps | apply State.dropLine_keeps

theorem State.writeDown_keeps {r s : State} {x} (h : Keeps r s) :
    Keeps r (State.writeDown s x) := by
  unfold State.writeDown
  repeat' with_reducible first
    | assumption | apply State.putLine_keeps | apply State.dropLine_keeps | split | simp only [Keeps.upd_iff]

theorem State.evict_keeps {r s : State} {x} (h : Keeps r s) :
    Keeps r (State.evict s x) := by
  unfold State.evict
  repeat' with_reducible first | assumption | intro _ | apply Keeps.ite | apply Keeps.foldl | apply State.writeDown_keeps

theorem State.allocate_keeps {r s : State} {c world a ways} (h : Keeps r s) :
    Keeps r (State.allocate s c world a ways) := by
  unfold State.allocate
  repeat' with_reducible first
    | assumption | apply State.putLine_keeps | apply State.evict_keeps | apply State.freeWord_keeps | split
    | refine Keeps.of_snd (by assumption) ?_ | simp only [Keeps.upd_iff]

theorem State.loseLine_keeps {r s : State} {x} (h : Keeps r s) :
    Keeps r (State.loseLine s x) := by
  have k : Keeps r (s.dropLine x) := State.dropLine_keeps h
  unfold State.loseLine; dsimp only
  split
  · exact State.putLine_keeps k
  · exact Keeps.updMem k fun w => memWrite_wf w _ _
  · exact k

theorem State.lineError_keeps {r s : State} {pair x} (h : Keeps r s) :
    Keeps r (State.lineError s pair x).1 := by
  unfold State.lineError
  repeat' with_reducible first
    | assumption | apply State.loseLine_keeps | apply State.putLine_keeps | apply State.raise_keeps | apply State.count_keeps | split

theorem State.cachedLine_keeps {r s : State} {src write a} (h : Keeps r s) :
    Keeps r (State.cachedLine s src write a).1 := by
  unfold State.cachedLine
  repeat' with_reducible first
    | assumption | intro _ | apply Keeps.ite | apply Keeps.ite_fst | apply Keeps.foldl | apply Keeps.foldl_fst | apply State.lineError_keeps
    | apply State.putLine_keeps | apply State.writeDown_keeps | apply State.allocate_keeps | split

theorem State.cached_keeps {r s : State} {src a x3 write} (h : Keeps r s) :
    Keeps r (State.cached s src a x3 write).1 := by
  unfold State.cached
  repeat' with_reducible first | assumption | intro _ | apply Keeps.ite_fst | apply Keeps.foldl_fst | apply State.cachedLine_keeps

theorem State.emptyCaches_keeps {r s : State} (h : Keeps r s) :
    Keeps r (State.emptyCaches s) := by
  unfold State.emptyCaches
  repeat' with_reducible first | assumption | apply Keeps.foldl | apply State.loseLine_keeps

theorem State.emptyPair_keeps {r s : State} {p} (h : Keeps r s) :
    Keeps r (State.emptyPair s p) := by
  unfold State.emptyPair
  repeat' with_reducible first | assumption | apply Keeps.foldl | apply State.loseLine_keeps

theorem State.flushPair_keeps {r s : State} {p} (h : Keeps r s) :
    Keeps r (State.flushPair s p) := by
  unfold State.flushPair
  repeat' with_reducible first | assumption | intro _ | apply Keeps.foldl | apply State.writeDown_keeps

theorem State.invalidate_keeps {r s : State} {a x2} (h : Keeps r s) :
    Keeps r (State.invalidate s a x2) := by
  unfold State.invalidate
  repeat' with_reducible first | assumption | apply Keeps.foldl | apply State.loseLine_keeps

theorem State.setHart_keeps {r s : State} {x1 x} (h : Keeps r s) :
    Keeps r (State.setHart s x1 x) := by
  unfold State.setHart
  repeat' with_reducible first | assumption | simp only [Keeps.upd_iff]

theorem State.queued_keeps {r s : State} {c op w x4} (h : Keeps r s) (hi : KeepsIssue r x4) :
    KeepsIssue r (State.queued s c op w x4) := by
  unfold State.queued
  repeat' with_reducible first
    | assumption | apply KeepsIssue.of_ok | apply KeepsIssue.of_stall | apply KeepsIssue.ite | apply State.putCore_keeps | split

theorem State.unit_keeps {r s : State} {c op w ok x5} (h : Keeps r s) (hi : KeepsIssue r x5) :
    KeepsIssue r (State.unit s c op w ok x5) := by
  unfold State.unit
  repeat' with_reducible first | assumption | apply State.legal_keeps | apply State.queued_keeps

theorem execAccord_keeps {r s : State} {c w} (h : Keeps r s) :
    KeepsOut r (execAccord c w s) := by
  unfold execAccord
  repeat' with_reducible first
    | assumption | apply KeepsOut.next | apply State.issue_keeps | apply State.legal_keeps | apply State.accordBegin_keeps
    | apply State.putCore_keeps | apply KeepsIssue.of_stay | apply KeepsIssue.of_stall | apply KeepsIssue.ite

theorem execBar_keeps {r s : State} {c w} (h : Keeps r s) :
    KeepsOut r (execBar c w s) := by
  unfold execBar
  repeat' with_reducible first
    | assumption | apply KeepsOut.next | apply State.issue_keeps | apply State.legal_keeps | apply State.putCore_keeps
    | apply State.barRelease_keeps | apply KeepsIssue.of_own | apply KeepsIssue.of_stay | apply KeepsIssue.ite | simp only [Keeps.upd_iff]

theorem execDmago_keeps {r s : State} {c w} (h : Keeps r s) :
    KeepsOut r (execDmago c w s) := by
  unfold execDmago
  repeat' with_reducible first
    | assumption | apply KeepsOut.next | apply State.issue_keeps | apply State.legal_keeps | apply State.putCore_keeps
    | apply KeepsIssue.of_ok | apply KeepsIssue.of_stall | apply KeepsIssue.ite

theorem execDmastop_keeps {r s : State} {c w} (h : Keeps r s) :
    KeepsOut r (execDmastop c w s) := by
  unfold execDmastop
  repeat' with_reducible first
    | assumption | apply KeepsOut.next | apply State.issue_keeps | apply State.legal_keeps | apply State.putCore_keeps
    | apply KeepsIssue.of_ok

theorem execEnd_keeps {r s : State} {c w} (h : Keeps r s) :
    KeepsOut r (execEnd c w s) := by
  unfold execEnd
  repeat' with_reducible first
    | assumption | apply KeepsOut.next | apply State.setReg_keeps | apply State.issue_keeps | apply State.legal_keeps
    | apply State.putCore_keeps | apply KeepsIssue.of_own | apply KeepsIssue.of_stall | apply KeepsIssue.ite

theorem execFence_keeps {r s : State} {c w} (h : Keeps r s) :
    KeepsOut r (execFence c w s) := by
  unfold execFence
  repeat' with_reducible first
    | assumption | apply KeepsOut.next | apply State.issue_keeps | apply State.legal_keeps | apply KeepsIssue.of_ok
    | apply KeepsIssue.of_stall | apply KeepsIssue.ite

theorem execPwait_keeps {r s : State} {c w} (h : Keeps r s) :
    KeepsOut r (execPwait c w s) := by
  unfold execPwait
  repeat' with_reducible first
    | assumption | apply KeepsOut.next | apply State.issue_keeps | apply State.legal_keeps | apply State.putCore_keeps
    | apply State.lateEvent_keeps | apply KeepsIssue.of_ok | apply KeepsIssue.of_stay | apply KeepsIssue.ite

theorem execPwb_keeps {r s : State} {c w} (h : Keeps r s) :
    KeepsOut r (execPwb c w s) := by
  unfold execPwb
  repeat' with_reducible first
    | assumption | apply KeepsOut.next | apply State.issue_keeps | apply State.legal_keeps | apply State.putCore_keeps
    | apply KeepsIssue.of_ok | apply KeepsIssue.of_stall | apply KeepsIssue.ite

theorem execSigpost_keeps {r s : State} {c w} (h : Keeps r s) :
    KeepsOut r (execSigpost c w s) := by
  unfold execSigpost
  repeat' with_reducible first
    | assumption | apply KeepsOut.next | apply State.issue_keeps | apply State.legal_keeps | apply State.sigAdd_keeps
    | apply KeepsIssue.of_ok | apply KeepsIssue.of_exc | apply KeepsIssue.ite

theorem execSigwait_keeps {r s : State} {c w} (h : Keeps r s) :
    KeepsOut r (execSigwait c w s) := by
  unfold execSigwait
  repeat' with_reducible first
    | assumption | apply Keeps.ite | apply KeepsOut.next | apply State.issue_keeps | apply State.legal_keeps | apply State.setSig_keeps
    | apply State.putCore_keeps | apply KeepsIssue.of_ok | apply KeepsIssue.of_stay | apply KeepsIssue.ite

theorem State.amo_keeps {r s : State} {c w f} (h : Keeps r s) :
    KeepsIssue r (State.amo s c w f) := by
  unfold State.amo
  repeat' with_reducible first
    | assumption | apply KeepsIssue.of_fail | apply KeepsIssue.of_exc | apply State.toS_keeps | apply State.coreRead_keeps
    | apply State.legal_keeps | apply State.store32_keeps | split | refine Keeps.of_fst (by assumption) ?_ | simp only [Keeps.upd_iff]

theorem State.coreLoad_keeps {r s : State} {c a x3 k} (h : Keeps r s) (hk : ∀ y0 y1, Keeps r y0 → KeepsIssue r (k y0 y1)) :
    KeepsIssue r (State.coreLoad s c a x3 k) := by
  unfold State.coreLoad
  repeat' with_reducible first
    | assumption | apply KeepsIssue.of_stall | apply KeepsIssue.of_fail | apply KeepsIssue.of_exc | apply State.coreRead_keeps | apply hk
    | split | refine Keeps.of_fst (by assumption) ?_

theorem State.coreStore_keeps {r s : State} {c a align bs} (h : Keeps r s) :
    KeepsIssue r (State.coreStore s c a align bs) := by
  unfold State.coreStore
  repeat' with_reducible first
    | assumption | apply KeepsIssue.of_ok | apply KeepsIssue.of_stall | apply KeepsIssue.of_exc | apply KeepsIssue.ite
    | apply State.store_keeps

theorem State.loadS_keeps {r s : State} {c w x3 signed} (h : Keeps r s) :
    KeepsIssue r (State.loadS s c w x3 signed) := by
  unfold State.loadS
  repeat' with_reducible first
    | assumption | intro _ | apply State.legal_keeps | apply State.coreLoad_keeps | apply State.toS_keeps

theorem State.storeLanes_keeps {r s : State} {a p v} (h : Keeps r s) :
    Keeps r (State.storeLanes s a p v) := by
  unfold State.storeLanes
  repeat' with_reducible first | assumption | intro _ | apply Keeps.ite | apply Keeps.upTo | apply State.store32_keeps

theorem State.storeV_keeps {r s : State} {c w x3 v} (h : Keeps r s) :
    KeepsIssue r (State.storeV s c w x3 v) := by
  unfold State.storeV
  repeat' with_reducible first | assumption | apply State.legal_keeps | apply State.coreStore_keeps

theorem execAmoadd_keeps {r s : State} {c w} (h : Keeps r s) :
    KeepsOut r (execAmoadd c w s) := by
  unfold execAmoadd
  repeat' with_reducible first | assumption | apply KeepsOut.next | apply State.issue_keeps | apply State.amo_keeps

theorem execAmocas_keeps {r s : State} {c w} (h : Keeps r s) :
    KeepsOut r (execAmocas c w s) := by
  unfold execAmocas
  repeat' with_reducible first | assumption | apply KeepsOut.next | apply State.issue_keeps | apply State.amo_keeps

theorem execAmoswap_keeps {r s : State} {c w} (h : Keeps r s) :
    KeepsOut r (execAmoswap c w s) := by
  unfold execAmoswap
  repeat' with_reducible first | assumption | apply KeepsOut.next | apply State.issue_keeps | apply State.amo_keeps

theorem execLda_keeps {r s : State} {c w} (h : Keeps r s) :
    KeepsOut r (execLda c w s) := by
  unfold execLda
  repeat' with_reducible first
    | assumption | intro _ | apply KeepsOut.next | apply State.issue_keeps | apply State.legal_keeps | apply State.coreLoad_keeps
    | apply State.putCore_keeps | apply KeepsIssue.of_ok

theorem execLdb_keeps {r s : State} {c w} (h : Keeps r s) :
    KeepsOut r (execLdb c w s) := by
  unfold execLdb
  repeat' with_reducible first | assumption | apply KeepsOut.next | apply State.issue_keeps | apply State.loadS_keeps

theorem execLdbu_keeps {r s : State} {c w} (h : Keeps r s) :
    KeepsOut r (execLdbu c w s) := by
  unfold execLdbu
  repeat' with_reducible first | assumption | apply KeepsOut.next | apply State.issue_keeps | apply State.loadS_keeps

theorem execLdh_keeps {r s : State} {c w} (h : Keeps r s) :
    KeepsOut r (execLdh c w s) := by
  unfold execLdh
  repeat' with_reducible first | assumption | apply KeepsOut.next | apply State.issue_keeps | apply State.loadS_keeps

theorem execLdhu_keeps {r s : State} {c w} (h : Keeps r s) :
    KeepsOut r (execLdhu c w s) := by
  unfold execLdhu
  repeat' with_reducible first | assumption | apply KeepsOut.next | apply State.issue_keeps | apply State.loadS_keeps

theorem execLdw_keeps {r s : State} {c w} (h : Keeps r s) :
    KeepsOut r (execLdw c w s) := by
  unfold execLdw
  repeat' with_reducible first | assumption | apply KeepsOut.next | apply State.issue_keeps | apply State.loadS_keeps

theorem execSta_keeps {r s : State} {c w} (h : Keeps r s) :
    KeepsOut r (execSta c w s) := by
  unfold execSta
  repeat' with_reducible first
    | assumption | apply KeepsOut.next | apply State.issue_keeps | apply State.legal_keeps | apply State.storeV_keeps

theorem execStb_keeps {r s : State} {c w} (h : Keeps r s) :
    KeepsOut r (execStb c w s) := by
  unfold execStb
  repeat' with_reducible first | assumption | apply KeepsOut.next | apply State.issue_keeps | apply State.storeV_keeps

theorem execSth_keeps {r s : State} {c w} (h : Keeps r s) :
    KeepsOut r (execSth c w s) := by
  unfold execSth
  repeat' with_reducible first | assumption | apply KeepsOut.next | apply State.issue_keeps | apply State.storeV_keeps

theorem execStw_keeps {r s : State} {c w} (h : Keeps r s) :
    KeepsOut r (execStw c w s) := by
  unfold execStw
  repeat' with_reducible first | assumption | apply KeepsOut.next | apply State.issue_keeps | apply State.storeV_keeps

theorem execVld_keeps {r s : State} {c w} (h : Keeps r s) :
    KeepsOut r (execVld c w s) := by
  unfold execVld
  repeat' with_reducible first
    | assumption | intro _ | apply KeepsOut.next | apply State.issue_keeps | apply State.legal_keeps | apply State.coreLoad_keeps
    | apply State.putCore_keeps | apply KeepsIssue.of_ok

theorem execVst_keeps {r s : State} {c w} (h : Keeps r s) :
    KeepsOut r (execVst c w s) := by
  unfold execVst
  repeat' with_reducible first
    | assumption | apply KeepsOut.next | apply State.issue_keeps | apply State.legal_keeps | apply State.coreStore_keeps
    | apply State.storeLanes_keeps | apply KeepsIssue.of_ok | split

theorem State.exceptAfter_keeps {r s : State} {c bit addr} (h : Keeps r s) :
    KeepsIssue r (State.exceptAfter s c bit addr) := by
  unfold State.exceptAfter
  repeat' with_reducible first | assumption | apply KeepsIssue.of_own | apply State.putCore_keeps | apply State.except_keeps

theorem State.exceptQueued_keeps {r s : State} {c bit addr} (h : Keeps r s) :
    Keeps r (State.exceptQueued s c bit addr) := by
  unfold State.exceptQueued
  repeat' with_reducible first | assumption | apply State.putCore_keeps

theorem State.readLines_keeps {r s : State} {a x2} (h : Keeps r s) :
    Keeps r (State.readLines s a x2).1 := by
  unfold State.readLines
  repeat' with_reducible first | assumption | apply State.coreRead_keeps

theorem State.scaleRow_keeps {r s : State} {t o i line} (h : Keeps r s) :
    Keeps r (State.scaleRow s t o i line).1 := by
  unfold State.scaleRow
  repeat' with_reducible first | assumption | apply Keeps.ite_fst | apply State.coreRead_keeps

theorem State.streamRows_keeps {r s : State} {c t b o x5 x6 x7} (h : Keeps r s) :
    Keeps r (State.streamRows s c t b o x5 x6 x7).1 := by
  induction x5 generalizing s c t b o x6 x7 with
  | zero => exact h
  | succ n ih =>
    unfold State.streamRows
    repeat' with_reducible first
      | assumption | intro _ | apply Keeps.foldl | apply ih | apply State.coreRead_keeps | apply State.scaleRow_keeps
      | apply State.orFlags_keeps | apply State.putCore_keeps | apply State.count_keeps | split | refine Keeps.of_fst (by assumption) ?_

theorem State.streamHead_keeps {r s : State} {c} (h : Keeps r s) :
    Keeps r (State.streamHead s c) := by
  unfold State.streamHead
  repeat' with_reducible first
    | assumption | apply State.exceptQueued_keeps | apply State.streamRows_keeps | apply State.putCore_keeps | split
    | refine Keeps.of_fst (by assumption) ?_ | simp only [Keeps.upd_iff]

theorem State.streamIssue_keeps {r s : State} {c w avac} (h : Keeps r s) :
    KeepsIssue r (State.streamIssue s c w avac) := by
  unfold State.streamIssue
  repeat' with_reducible first
    | assumption | apply KeepsIssue.of_ok | apply KeepsIssue.of_stall | apply KeepsIssue.of_exc | apply State.legal_keeps
    | apply State.putCore_keeps | split

theorem execAmv_keeps {r s : State} {c w} (h : Keeps r s) :
    KeepsOut r (execAmv c w s) := by
  unfold execAmv
  repeat' with_reducible first
    | assumption | apply KeepsOut.next | apply State.unit_keeps | apply State.issue_keeps | apply State.exceptAfter_keeps
    | apply State.putCore_keeps | apply KeepsIssue.of_ok | apply KeepsIssue.ite

theorem execAmvw_keeps {r s : State} {c w} (h : Keeps r s) :
    KeepsOut r (execAmvw c w s) := by
  unfold execAmvw
  repeat' with_reducible first
    | assumption | apply KeepsOut.next | apply State.unit_keeps | apply State.issue_keeps | apply State.exceptAfter_keeps
    | apply State.putCore_keeps | apply KeepsIssue.of_ok | apply KeepsIssue.ite

theorem execAvac_keeps {r s : State} {c w} (h : Keeps r s) :
    KeepsOut r (execAvac c w s) := by
  unfold execAvac
  repeat' with_reducible first | assumption | apply KeepsOut.next | apply State.issue_keeps | apply State.streamIssue_keeps

theorem execMma_keeps {r s : State} {c w} (h : Keeps r s) :
    KeepsOut r (execMma c w s) := by
  unfold execMma
  repeat' with_reducible first | assumption | apply KeepsOut.next | apply State.issue_keeps | apply State.streamIssue_keeps

theorem execWld_keeps {r s : State} {c w} (h : Keeps r s) :
    KeepsOut r (execWld c w s) := by
  unfold execWld
  repeat' with_reducible first
    | assumption | apply KeepsOut.next | apply State.issue_keeps | apply State.legal_keeps | apply State.exceptAfter_keeps
    | apply State.readLines_keeps | apply State.putCore_keeps | apply State.queued_keeps | apply KeepsIssue.of_ok
    | apply KeepsIssue.of_stall | apply KeepsIssue.of_exc | split | refine Keeps.of_fst (by assumption) ?_ | simp only [Keeps.upd_iff]

theorem State.putV_keeps {r s : State} {c w v f} (h : Keeps r s) :
    KeepsIssue r (State.putV s c w v f) := by
  unfold State.putV
  repeat' with_reducible first | assumption | apply KeepsIssue.of_ok | apply State.orFlags_keeps | apply State.putCore_keeps

theorem State.toV_keeps {r s : State} {c w f} (h : Keeps r s) :
    KeepsIssue r (State.toV s c w f) := by
  unfold State.toV
  repeat' with_reducible first | assumption | apply KeepsIssue.of_ok | apply State.orFlags_keeps | apply State.putCore_keeps

theorem execVcmp_keeps {r s : State} {c w} (h : Keeps r s) :
    KeepsOut r (execVcmp c w s) := by
  unfold execVcmp
  repeat' with_reducible first
    | assumption | apply KeepsOut.next | apply State.unit_keeps | apply State.issue_keeps | apply State.putCore_keeps
    | apply KeepsIssue.of_ok

theorem execVcvt_keeps {r s : State} {c w} (h : Keeps r s) :
    KeepsOut r (execVcvt c w s) := by
  unfold execVcvt
  repeat' with_reducible first
    | assumption | apply KeepsOut.next | apply State.putV_keeps | apply State.unit_keeps | apply State.issue_keeps | apply State.toV_keeps
    | apply KeepsIssue.of_exc | apply KeepsSomeIssue.none | apply KeepsSomeIssue.some | apply KeepsSomeIssue.ite | split
    | refine KeepsIssue.of_some (by assumption) ?_

theorem execVfapx_keeps {r s : State} {c w} (h : Keeps r s) :
    KeepsOut r (execVfapx c w s) := by
  unfold execVfapx
  repeat' with_reducible first
    | assumption | apply KeepsOut.next | apply State.unit_keeps | apply State.issue_keeps | apply State.toV_keeps

theorem execVfds_keeps {r s : State} {c w} (h : Keeps r s) :
    KeepsOut r (execVfds c w s) := by
  unfold execVfds
  repeat' with_reducible first
    | assumption | apply KeepsOut.next | apply State.unit_keeps | apply State.issue_keeps | apply State.toV_keeps

theorem execVfma_keeps {r s : State} {c w} (h : Keeps r s) :
    KeepsOut r (execVfma c w s) := by
  unfold execVfma
  repeat' with_reducible first
    | assumption | apply KeepsOut.next | apply State.unit_keeps | apply State.issue_keeps | apply State.toV_keeps

theorem execVfop_keeps {r s : State} {c w} (h : Keeps r s) :
    KeepsOut r (execVfop c w s) := by
  unfold execVfop
  repeat' with_reducible first
    | assumption | apply KeepsOut.next | apply State.unit_keeps | apply State.issue_keeps | apply State.toV_keeps

theorem execViop_keeps {r s : State} {c w} (h : Keeps r s) :
    KeepsOut r (execViop c w s) := by
  unfold execViop
  repeat' with_reducible first
    | assumption | apply KeepsOut.next | apply State.unit_keeps | apply State.issue_keeps | apply State.toV_keeps

theorem execVmov_keeps {r s : State} {c w} (h : Keeps r s) :
    KeepsOut r (execVmov c w s) := by
  unfold execVmov
  repeat' with_reducible first
    | assumption | apply KeepsOut.next | apply State.putV_keeps | apply State.unit_keeps | apply State.issue_keeps
    | apply State.putCore_keeps | apply State.toV_keeps | apply KeepsIssue.of_ok | split

theorem execVmxqDequantise_keeps {r s : State} {c w} (h : Keeps r s) :
    KeepsOut r (execVmxqDequantise c w s) := by
  unfold execVmxqDequantise
  repeat' with_reducible first
    | assumption | apply KeepsOut.next | apply State.putV_keeps | apply State.unit_keeps | apply State.issue_keeps

theorem execVmxqQuantise_keeps {r s : State} {c w} (h : Keeps r s) :
    KeepsOut r (execVmxqQuantise c w s) := by
  unfold execVmxqQuantise
  repeat' with_reducible first
    | assumption | apply KeepsOut.next | apply State.unit_keeps | apply State.issue_keeps | apply State.orFlags_keeps
    | apply State.putCore_keeps | apply KeepsIssue.of_ok

theorem execVred_keeps {r s : State} {c w} (h : Keeps r s) :
    KeepsOut r (execVred c w s) := by
  unfold execVred
  repeat' with_reducible first
    | assumption | apply KeepsOut.next | apply State.putV_keeps | apply State.unit_keeps | apply State.issue_keeps | apply KeepsIssue.of_exc
    | split

theorem execVreq_keeps {r s : State} {c w} (h : Keeps r s) :
    KeepsOut r (execVreq c w s) := by
  unfold execVreq
  repeat' with_reducible first
    | assumption | apply KeepsOut.next | apply State.putV_keeps | apply State.unit_keeps | apply State.issue_keeps

theorem execVsop_keeps {r s : State} {c w} (h : Keeps r s) :
    KeepsOut r (execVsop c w s) := by
  unfold execVsop
  repeat' with_reducible first
    | assumption | apply KeepsOut.next | apply State.unit_keeps | apply State.issue_keeps | apply State.toV_keeps

theorem execAexp2_keeps {r s : State} {c w} (h : Keeps r s) :
    KeepsOut r (execAexp2 c w s) := by
  unfold execAexp2
  repeat' with_reducible first
    | assumption | apply KeepsOut.next | apply State.unit_keeps | apply State.issue_keeps | apply State.toV_keeps

theorem execAopen_keeps {r s : State} {c w} (h : Keeps r s) :
    KeepsOut r (execAopen c w s) := by
  unfold execAopen
  repeat' with_reducible first
    | assumption | apply KeepsOut.next | apply State.unit_keeps | apply State.issue_keeps | apply State.putCore_keeps
    | apply KeepsIssue.of_ok

theorem execAstate_keeps {r s : State} {c w} (h : Keeps r s) :
    KeepsOut r (execAstate c w s) := by
  unfold execAstate
  repeat' with_reducible first
    | assumption | apply KeepsOut.next | apply State.putV_keeps | apply State.unit_keeps | apply State.issue_keeps
    | apply State.putCore_keeps | apply KeepsIssue.of_ok | split

theorem execAstep_keeps {r s : State} {c w} (h : Keeps r s) :
    KeepsOut r (execAstep c w s) := by
  unfold execAstep
  repeat' with_reducible first
    | assumption | apply KeepsOut.next | apply State.unit_keeps | apply State.issue_keeps | apply State.orFlags_keeps
    | apply State.putCore_keeps | apply KeepsIssue.of_ok

theorem execVapp_keeps {r s : State} {c w} (h : Keeps r s) :
    KeepsOut r (execVapp c w s) := by
  unfold execVapp
  repeat' with_reducible first
    | assumption | apply KeepsOut.next | apply State.unit_keeps | apply State.issue_keeps | apply State.orFlags_keeps
    | apply State.putCore_keeps | apply KeepsIssue.of_ok

theorem execVfil_keeps {r s : State} {c w} (h : Keeps r s) :
    KeepsOut r (execVfil c w s) := by
  unfold execVfil
  repeat' with_reducible first
    | assumption | apply KeepsOut.next | apply State.issue_keeps | apply State.legal_keeps | apply State.exceptAfter_keeps
    | apply State.readLines_keeps | apply State.putCore_keeps | apply State.queued_keeps | apply KeepsIssue.of_ok | apply KeepsIssue.of_exc
    | split | refine Keeps.of_fst (by assumption) ?_

theorem execVfls_keeps {r s : State} {c w} (h : Keeps r s) :
    KeepsOut r (execVfls c w s) := by
  unfold execVfls
  repeat' with_reducible first
    | assumption | apply KeepsOut.next | apply State.issue_keeps | apply State.store_keeps | apply State.legal_keeps
    | apply State.queued_keeps | apply KeepsIssue.of_ok | apply KeepsIssue.of_stall | apply KeepsIssue.of_exc | apply KeepsIssue.ite

end Sys2Proof.Machine
end

