-- ==== Sys2Proof/Laws/KeepsFabric.lean ====
section
/-! SUPPORT. Every operation of the fabric, firmware services, jobs and core commands keeps the queue, the fixed data and the canonical form of memory. -/

namespace Sys2Proof.Machine

theorem State.setShUse_keeps {r s : State} {b i e u} (h : Keeps r s) :
    Keeps r (State.setShUse s b i e u) := by
  unfold State.setShUse
  repeat' with_reducible first | assumption | simp only [Keeps.upd_iff]

theorem State.shareSlot_keeps {r s : State} {b i waiting} (h : Keeps r s) :
    Keeps r (State.shareSlot s b i waiting).1 := by
  unfold State.shareSlot
  repeat' with_reducible first
    | assumption | intro _ | apply Keeps.foldl | apply State.setShUse_keeps | split | simp only [Keeps.upd_iff]

theorem State.chanAcquire_keeps {r s : State} {c ch} (h : Keeps r s) :
    Keeps r (State.chanAcquire s c ch) := by
  unfold State.chanAcquire
  repeat' with_reducible first | assumption | simp only [Keeps.upd_iff]

theorem State.chanRelease_keeps {r s : State} {c ch} (h : Keeps r s) :
    Keeps r (State.chanRelease s c ch) := by
  unfold State.chanRelease
  repeat' with_reducible first | assumption | simp only [Keeps.upd_iff]

theorem State.modChan_keeps {r s : State} {c ch f} (h : Keeps r s) :
    Keeps r (State.modChan s c ch f) := by
  unfold State.modChan
  repeat' with_reducible first | assumption | apply State.putCore_keeps

theorem State.chanError_keeps {r s : State} {c ch} (h : Keeps r s) :
    Keeps r (State.chanError s c ch) := by
  unfold State.chanError
  repeat' with_reducible first | assumption | apply State.chanRelease_keeps | apply State.modChan_keeps

theorem State.chanFails_keeps {r s : State} {t} (h : Keeps r s) :
    Keeps r (State.chanFails s t) := by
  unfold State.chanFails
  repeat' with_reducible first | assumption | apply State.chanError_keeps | split

theorem State.chanRenew_keeps {r s : State} {c ch} (h : Keeps r s) :
    Keeps r (State.chanRenew s c ch) := by
  unfold State.chanRenew
  repeat' with_reducible first | assumption | split | simp only [Keeps.upd_iff]

theorem State.serveAt_keeps {r s : State} {b i src x4 slots} (h : Keeps r s) :
    Keeps r (State.serveAt s b i src x4 slots) := by
  unfold State.serveAt
  repeat' with_reducible first
    | assumption | intro _ | apply Keeps.upTo | apply State.setReg_keeps | apply State.shareSlot_keeps | apply State.count_keeps
    | apply State.freeWord_keeps | simp only [Keeps.upd_iff]

theorem State.cross_keeps {r s : State} {src a x3 write} (h : Keeps r s) :
    Keeps r (State.cross s src a x3 write) := by
  unfold State.cross
  repeat' with_reducible first | assumption | intro _ | apply Keeps.foldl | apply State.serveAt_keeps

theorem State.unitExc_keeps {r s : State} {c bit a} (h : Keeps r s) :
    Keeps r (State.unitExc s c bit a) := by
  unfold State.unitExc
  repeat' with_reducible first | assumption | apply Keeps.ite | apply State.raise_keeps | apply State.except_keeps

theorem State.deliver_keeps {r s : State} {src a data fail} (h : Keeps r s) :
    Keeps r (State.deliver s src a data fail) := by
  unfold State.deliver
  repeat' with_reducible first
    | assumption | apply State.unitExc_keeps | apply State.setHart_keeps | split | simp only [Keeps.upd_iff]

theorem State.dirWrite_keeps {r s : State} {a bs} (h : Keeps r s) :
    Keeps r (State.dirWrite s a bs) := by
  unfold State.dirWrite
  repeat' with_reducible first
    | assumption | intro _ | apply Keeps.ite | apply Keeps.foldl | apply State.store_keeps | apply State.ignoredWrite_keeps

theorem State.guarded_keeps {r s : State} {src b i would f} (h : Keeps r s) (hk : ∀ y0, Keeps r y0 → Keeps r (f y0)) :
    Keeps r (State.guarded s src b i would f) := by
  unfold State.guarded
  repeat' with_reducible first | assumption | apply Keeps.ite | apply State.ignoredWrite_keeps | apply hk

theorem State.serve_keeps {r s : State} {src a x3 write} (h : Keeps r s) :
    Keeps r (State.serve s src a x3 write) := by
  unfold State.serve
  repeat' with_reducible first
    | assumption | intro _ | apply Keeps.foldl | apply State.serveAt_keeps | split | simp only [Keeps.upd_iff]

theorem State.landRead_keeps {r s : State} {src a x3} (h : Keeps r s) :
    Keeps r (State.landRead s src a x3).1 := by
  unfold State.landRead
  repeat' with_reducible first | assumption | apply State.serve_keeps | apply State.cached_keeps | apply State.read_keeps

theorem State.rmw_keeps {r s : State} {a x2} (h : Keeps r s) :
    Keeps r (State.rmw s a x2).1 := by
  unfold State.rmw
  repeat' with_reducible first | assumption | intro _ | apply Keeps.foldl | apply State.recordEcc_keeps

theorem State.logDirty_keeps {r s : State} {a x2} (h : Keeps r s) :
    Keeps r (State.logDirty s a x2) := by
  unfold State.logDirty
  repeat' with_reducible first | assumption | split | simp only [Keeps.upd_iff]

theorem State.landWrite_keeps {r s : State} {src a bs} (h : Keeps r s) :
    Keeps r (State.landWrite s src a bs).1 := by
  unfold State.landWrite
  repeat' with_reducible first
    | assumption | apply Keeps.ite_fst | apply State.serve_keeps | apply State.store_keeps | apply State.rmw_keeps
    | apply State.logDirty_keeps | apply State.cached_keeps | apply State.dirWrite_keeps | split

theorem State.pwFail_keeps {r s : State} {src a code target} (h : Keeps r s) :
    Keeps r (State.pwFail s src a code target) := by
  unfold State.pwFail
  repeat' with_reducible first
    | assumption | apply State.setReg_keeps | apply State.setFld_keeps | apply State.raise_keeps | apply State.putCore_keeps
    | apply State.setHart_keeps | split | simp only [Keeps.upd_iff]

theorem State.readFailed_keeps {r s : State} {t code} (h : Keeps r s) :
    Keeps r (State.readFailed s t code) := by
  unfold State.readFailed
  repeat' with_reducible first | assumption | apply State.chanFails_keeps | apply State.deliver_keeps

theorem State.secViol_keeps {r s : State} {src a reason} (h : Keeps r s) :
    Keeps r (State.secViol s src a reason) := by
  unfold State.secViol
  repeat' with_reducible first
    | assumption | apply Keeps.ite | apply State.raise_keeps | apply State.count_keeps | apply State.setReg_keeps
    | apply State.setReg2_keeps

theorem State.recordRefusal_keeps {r s : State} {src a x3} (h : Keeps r s) :
    Keeps r (State.recordRefusal s src a x3) := by
  unfold State.recordRefusal
  repeat' with_reducible first
    | assumption | apply State.raise_keeps | apply State.secViol_keeps | apply State.count_keeps | split | simp only [Keeps.upd_iff]

theorem State.regCommand_keeps {r s : State} {src x2 x3 off base f} (h : Keeps r s) (hk : ∀ y0, Keeps r y0 → Keeps r (f y0)) :
    Keeps r (State.regCommand s src x2 x3 off base f) := by
  unfold State.regCommand
  repeat' with_reducible first
    | assumption | apply State.pwFail_keeps | apply State.recordRefusal_keeps | apply hk | split | simp only [Keeps.upd_iff]

theorem State.unitRead_keeps {r s : State} {src a x3} (h : Keeps r s) :
    Keeps r (State.unitRead s src a x3).1 := by
  unfold State.unitRead
  repeat' with_reducible first
    | assumption | apply State.cross_keeps | apply State.recordRefusal_keeps | apply State.landRead_keeps | split
    | simp only [Keeps.upd_iff]

theorem State.unitWriteOk_keeps {r s : State} {src a bs} (h : Keeps r s) :
    Keeps r (State.unitWriteOk s src a bs).1 := by
  unfold State.unitWriteOk
  repeat' with_reducible first
    | assumption | apply State.cross_keeps | apply State.landWrite_keeps | apply State.recordRefusal_keeps | apply State.pwFail_keeps
    | split | refine Keeps.of_fst (by assumption) ?_ | simp only [Keeps.upd_iff]

theorem State.unitWrite_keeps {r s : State} {src a bs} (h : Keeps r s) :
    Keeps r (State.unitWrite s src a bs) := by
  unfold State.unitWrite
  repeat' with_reducible first | assumption | apply State.unitWriteOk_keeps

theorem State.touch_keeps {r s : State} {ctx} (h : Keeps r s) :
    Keeps r (State.touch s ctx) := by
  unfold State.touch
  repeat' with_reducible first | assumption | simp only [Keeps.upd_iff]

theorem State.setSlot_keeps {r s : State} {x1 x} (h : Keeps r s) :
    Keeps r (State.setSlot s x1 x) := by
  unfold State.setSlot
  repeat' with_reducible first | assumption | simp only [Keeps.upd_iff]

theorem State.syncRing_keeps {r s : State} {p} (h : Keeps r s) :
    Keeps r (State.syncRing s p) := by
  unfold State.syncRing
  repeat' with_reducible first | assumption | apply State.store_keeps | apply State.store32_keeps

theorem State.setRing_keeps {r s : State} {p x2} (h : Keeps r s) :
    Keeps r (State.setRing s p x2) := by
  unfold State.setRing
  repeat' with_reducible first | assumption | apply State.syncRing_keeps | simp only [Keeps.upd_iff]

theorem State.closeRing_keeps {r s : State} {p} (h : Keeps r s) :
    Keeps r (State.closeRing s p) := by
  unfold State.closeRing
  repeat' with_reducible first
    | assumption | apply State.touch_keeps | apply State.setSlot_keeps | apply State.setRing_keeps | split | simp only [Keeps.upd_iff]

theorem State.fwWrite_keeps {r s : State} {world a bs} (h : Keeps r s) :
    Keeps r (State.fwWrite s world a bs).1 := by
  unfold State.fwWrite
  repeat' with_reducible first | assumption | apply State.unitWriteOk_keeps

theorem State.cqPend_keeps {r s : State} {p} (h : Keeps r s) :
    Keeps r (State.cqPend s p) := by
  unfold State.cqPend
  repeat' with_reducible first | assumption | apply Keeps.ite | apply State.setReg_keeps

theorem State.cqWrite_keeps {r s : State} {p bs} (h : Keeps r s) :
    Keeps r (State.cqWrite s p bs) := by
  unfold State.cqWrite
  repeat' with_reducible first | assumption | apply State.fwWrite_keeps | apply State.cqPend_keeps | apply State.setRing_keeps

theorem State.post_keeps {r s : State} {p bs droppable} (h : Keeps r s) :
    Keeps r (State.post s p bs droppable) := by
  unfold State.post
  repeat' with_reducible first
    | assumption | apply Keeps.ite | apply State.cqWrite_keeps | apply State.trace_keeps | apply State.count_keeps
    | apply State.setRing_keeps

theorem State.finish_keeps {r s : State} {p status detail v0 v1} (h : Keeps r s) :
    Keeps r (State.finish s p status detail v0 v1) := by
  unfold State.finish
  repeat' with_reducible first
    | assumption | apply State.setRing_keeps | apply State.post_keeps | apply State.trace_keeps | split | simp only [Keeps.upd_iff]

theorem State.complete_keeps {r s : State} {p status detail v0 v1} (h : Keeps r s) :
    Keeps r (State.complete s p status detail v0 v1) := by
  unfold State.complete
  repeat' with_reducible first | assumption | apply Keeps.ite | apply State.finish_keeps | apply State.closeRing_keeps | split

theorem State.command_keeps {r s : State} {p op needs fields controlOnly k} (h : Keeps r s) (hk : ∀ y0, Keeps r (k y0)) :
    Keeps r (State.command s p op needs fields controlOnly k) := by
  unfold State.command
  repeat' with_reducible first | assumption | apply State.complete_keeps | apply hk | split

theorem State.copyOut_keeps {r s : State} {p buf bs v0 v1} (h : Keeps r s) :
    Keeps r (State.copyOut s p buf bs v0 v1) := by
  unfold State.copyOut
  repeat' with_reducible first
    | assumption | apply State.complete_keeps | apply State.fwWrite_keeps | split | refine Keeps.of_fst (by assumption) ?_

theorem State.copyBuf_keeps {r s : State} {p buf bs v0 v1} (h : Keeps r s) :
    Keeps r (State.copyBuf s p buf bs v0 v1) := by
  unfold State.copyBuf
  repeat' with_reducible first | assumption | apply Keeps.ite | apply State.complete_keeps | apply State.copyOut_keeps

theorem State.cqMove_keeps {r x1 : State} {x0 x2} (h : Keeps r x1) :
    Keeps r (State.cqMove x0 x1 x2) := by
  induction x0 generalizing x1 x2 with
  | zero => exact h
  | succ n ih =>
    unfold State.cqMove
    repeat' with_reducible first
      | assumption | apply ih | apply State.setRing_keeps | apply State.cqWrite_keeps | split | simp only [Keeps.upd_iff]

theorem State.drawKey_keeps {r s : State} {x1} (h : Keeps r s) :
    Keeps r (State.drawKey s x1) := by
  unfold State.drawKey
  repeat' with_reducible first | assumption | apply State.freeBytes_keeps | simp only [Keeps.upd_iff]

theorem State.fwPulse_keeps {r s : State} {k isErr} (h : Keeps r s) :
    Keeps r (State.fwPulse s k isErr) := by
  unfold State.fwPulse
  repeat' with_reducible first | assumption | apply Keeps.ite | apply State.pulse_keeps | simp only [Keeps.upd_iff]

theorem State.fwRead_keeps {r s : State} {world a x3} (h : Keeps r s) :
    Keeps r (State.fwRead s world a x3).1 := by
  unfold State.fwRead
  repeat' with_reducible first | assumption | apply State.unitRead_keeps

theorem State.logFlush_keeps {r s : State} (h : Keeps r s) :
    Keeps r (State.logFlush s) := by
  unfold State.logFlush
  repeat' with_reducible first | assumption | intro _ | apply Keeps.foldl | apply State.logWrite_keeps | simp only [Keeps.upd_iff]

theorem State.ok_keeps {r s : State} {p} (h : Keeps r s) :
    Keeps r (State.ok s p) := by
  unfold State.ok
  repeat' with_reducible first | assumption | apply State.complete_keeps

theorem State.withdraw_keeps {r s : State} (h : Keeps r s) :
    Keeps r (State.withdraw s) := by
  unfold State.withdraw
  repeat' with_reducible first | assumption | apply State.store_keeps

theorem State.setPkg_keeps {r s : State} {k} (h : Keeps r s) :
    Keeps r (State.setPkg s k) := by
  unfold State.setPkg
  repeat' with_reducible first | assumption | apply Keeps.ite | apply State.setFld_keeps

theorem State.packageFail_keeps {r s : State} (h : Keeps r s) :
    Keeps r (State.packageFail s) := by
  unfold State.packageFail
  repeat' with_reducible first | assumption | apply State.setFld_keeps | apply State.withdraw_keeps | apply State.setPkg_keeps

theorem State.payPulses_keeps {r s : State} {k} (h : Keeps r s) :
    Keeps r (State.payPulses s k) := by
  unfold State.payPulses
  repeat' with_reducible first | assumption | intro _ | apply Keeps.foldl | apply State.pulse_keeps | simp only [Keeps.upd_iff]

theorem State.refuse_keeps {r s : State} {p detail} (h : Keeps r s) :
    Keeps r (State.refuse s p detail) := by
  unfold State.refuse
  repeat' with_reducible first | assumption | apply State.complete_keeps

theorem State.refuseFree_keeps {r s : State} {p} (h : Keeps r s) :
    Keeps r (State.refuseFree s p) := by
  unfold State.refuseFree
  repeat' with_reducible first | assumption | apply State.freeWord_keeps | apply State.refuse_keeps

theorem State.syncFwState_keeps {r s : State} (h : Keeps r s) :
    Keeps r (State.syncFwState s) := by
  unfold State.syncFwState
  repeat' with_reducible first | assumption | apply State.store_keeps

theorem State.setFp_keeps {r s : State} {k x} (h : Keeps r s) :
    Keeps r (State.setFp s k x) := by
  unfold State.setFp
  repeat' with_reducible first | assumption | apply State.syncFwState_keeps | simp only [Keeps.upd_iff]

theorem State.addTx_keeps {r s : State} {isRead src a len data fail chan} (h : Keeps r s) :
    Keeps r (State.addTx s isRead src a len data fail chan) := by
  unfold State.addTx
  repeat' with_reducible first | assumption | simp only [Keeps.upd_iff]

theorem State.dropTx_keeps {r s : State} {id} (h : Keeps r s) :
    Keeps r (State.dropTx s id) := by
  unfold State.dropTx
  repeat' with_reducible first | assumption | simp only [Keeps.upd_iff]

theorem State.endTx_keeps {r s : State} {t code} (h : Keeps r s) :
    Keeps r (State.endTx s t code) := by
  unfold State.endTx
  repeat' with_reducible first
    | assumption | apply Keeps.ite | apply State.dropTx_keeps | apply State.readFailed_keeps | apply State.pwFail_keeps

theorem State.pciCredit_keeps {r s : State} {a} (h : Keeps r s) :
    Keeps r (State.pciCredit s a) := by
  unfold State.pciCredit
  repeat' with_reducible first | assumption | split | simp only [Keeps.upd_iff]

theorem State.pwlogPop_keeps {r s : State} {d} (h : Keeps r s) :
    Keeps r (State.pwlogPop s d) := by
  unfold State.pwlogPop
  repeat' with_reducible first | assumption | simp only [Keeps.upd_iff]

theorem State.readTimeout_keeps {r s : State} {t} (h : Keeps r s) :
    Keeps r (State.readTimeout s t) := by
  unfold State.readTimeout
  repeat' with_reducible first | assumption | apply State.dropTx_keeps | apply State.readFailed_keeps | apply State.raise_keeps

theorem State.revokeLink_keeps {r s : State} {d p} (h : Keeps r s) :
    Keeps r (State.revokeLink s d p) := by
  unfold State.revokeLink
  repeat' with_reducible first
    | assumption | intro _ | apply Keeps.foldl | apply State.trace_keeps | apply State.count_keeps | apply State.raise_keeps
    | apply State.endTx_keeps | simp only [Keeps.upd_iff]

theorem State.takeBuffers_keeps {r x3 : State} {x0 cls x2} (h : Keeps r x3) :
    KeepsSome r (State.takeBuffers x0 cls x2 x3) := by
  induction x2 generalizing x0 cls x3 with
  | zero => exact KeepsSome.some h
  | succ n ih =>
    unfold State.takeBuffers
    repeat' with_reducible first | assumption | apply KeepsSome.none | apply ih | split | simp only [Keeps.upd_iff]

theorem State.takeEscape_keeps {r s : State} {x0 k} (h : Keeps r s) :
    KeepsSome r (State.takeEscape x0 k s) := by
  unfold State.takeEscape
  repeat' with_reducible first | assumption | apply KeepsSome.none | apply KeepsSome.some | split | simp only [Keeps.upd_iff]

theorem State.takeRoute_keeps {r x3 : State} {cls k x2} (h : Keeps r x3) :
    KeepsSome r (State.takeRoute cls k x2 x3) := by
  induction x2 generalizing cls k x3 with
  | nil => exact KeepsSome.some h
  | cons y l ih =>
    unfold State.takeRoute
    repeat' with_reducible first
      | assumption | apply ih | apply State.takeEscape_keeps | apply State.takeBuffers_keeps | split
      | refine Keeps.of_some (by assumption) ?_

theorem State.takeCredits_keeps {r s : State} {src a k} (h : Keeps r s) :
    KeepsSome r (State.takeCredits s src a k) := by
  unfold State.takeCredits
  repeat' with_reducible first | assumption | apply State.takeRoute_keeps

theorem State.writeBack_keeps {r s : State} {g} (h : Keeps r s) :
    Keeps r (State.writeBack s g) := by
  unfold State.writeBack
  repeat' with_reducible first | assumption | apply Keeps.ite | simp only [Keeps.upd_iff]

theorem State.setCadCore_keeps {r s : State} {c v} (h : Keeps r s) :
    Keeps r (State.setCadCore s c v) := by
  unfold State.setCadCore
  repeat' with_reducible first | assumption | apply State.setFld_keeps

theorem State.stopCore_keeps {r s : State} {c} (h : Keeps r s) :
    Keeps r (State.stopCore s c) := by
  unfold State.stopCore
  repeat' with_reducible first
    | assumption | apply State.barClear_keeps | apply State.setCadCore_keeps | apply State.putCore_keeps

theorem State.stopJob_keeps {r s : State} {j} (h : Keeps r s) :
    Keeps r (State.stopJob s j) := by
  unfold State.stopJob
  repeat' with_reducible first
    | assumption | intro _ | apply Keeps.foldl | apply State.stopCore_keeps | apply State.setReg_keeps | apply State.setCadCore_keeps
    | apply State.setJob_keeps | split

theorem State.mailboxPush_keeps {r s : State} {j} (h : Keeps r s) :
    Keeps r (State.mailboxPush s j) := by
  unfold State.mailboxPush
  repeat' with_reducible first
    | assumption | apply Keeps.ite | apply State.touch_keeps | apply State.setReg_keeps | apply State.trace_keeps | apply State.raise_keeps
    | simp only [Keeps.upd_iff]

theorem State.finalize_keeps {r s : State} {j out} (h : Keeps r s) :
    Keeps r (State.finalize s j out) := by
  unfold State.finalize
  repeat' with_reducible first | assumption | apply State.mailboxPush_keeps | apply State.setJob_keeps | split

theorem State.faultJob_keeps {r s : State} {j} (h : Keeps r s) :
    Keeps r (State.faultJob s j) := by
  unfold State.faultJob
  repeat' with_reducible first | assumption | apply State.stopJob_keeps | apply State.finalize_keeps

theorem State.coreFailed_keeps {r s : State} {c} (h : Keeps r s) :
    Keeps r (State.coreFailed s c) := by
  unfold State.coreFailed
  repeat' with_reducible first | assumption | apply State.faultJob_keeps | split

theorem State.unstage_keeps {r s : State} {p k} (h : Keeps r s) :
    Keeps r (State.unstage s p k) := by
  unfold State.unstage
  repeat' with_reducible first | assumption | intro _ | apply Keeps.ite | apply Keeps.foldl | apply State.setCadCore_keeps

theorem State.disarmAll_keeps {r s : State} {p} (h : Keeps r s) :
    Keeps r (State.disarmAll s p) := by
  unfold State.disarmAll
  repeat' with_reducible first
    | assumption | intro _ | apply Keeps.foldl | apply State.setPart_keeps | apply State.unstage_keeps | split

theorem State.endJobs_keeps {r s : State} {p running waiting} (h : Keeps r s) :
    Keeps r (State.endJobs s p running waiting) := by
  unfold State.endJobs
  repeat' with_reducible first
    | assumption | intro _ | apply Keeps.ite | apply Keeps.foldl | apply State.stopJob_keeps | apply State.finalize_keeps

theorem State.failPart_keeps {r s : State} {p} (h : Keeps r s) :
    Keeps r (State.failPart s p) := by
  unfold State.failPart
  repeat' with_reducible first
    | assumption | apply Keeps.foldl | apply State.setPart_keeps | apply State.faultJob_keeps | split | simp only [Keeps.upd_iff]

theorem State.idleBars_keeps {r s : State} {cl} (h : Keeps r s) :
    Keeps r (State.idleBars s cl) := by
  unfold State.idleBars
  repeat' with_reducible first | assumption | simp only [Keeps.upd_iff]

theorem State.loadCore_keeps {r s : State} {c} (h : Keeps r s) :
    Keeps r (State.loadCore s c) := by
  unfold State.loadCore
  repeat' with_reducible first
    | assumption | intro _ | apply Keeps.upTo | apply State.barClear_keeps | apply State.store_keeps | apply State.zero_keeps
    | apply State.setCore_keeps | apply State.setReg_keeps

theorem State.loadCores_keeps {r s : State} {cl cs} (h : Keeps r s) :
    Keeps r (State.loadCores s cl cs) := by
  unfold State.loadCores
  repeat' with_reducible first
    | assumption | apply Keeps.ite | apply Keeps.foldl | apply State.loadCore_keeps | apply State.idleBars_keeps

theorem State.modKind_keeps {r s : State} {p k f} (h : Keeps r s) :
    Keeps r (State.modKind s p k f) := by
  unfold State.modKind
  repeat' with_reducible first | assumption | apply State.setPart_keeps | split

theorem State.prefail_keeps {r s : State} {pid kn lead j cs} (h : Keeps r s) :
    Keeps r (State.prefail s pid kn lead j cs) := by
  unfold State.prefail
  repeat' with_reducible first | assumption | apply State.raise_keeps | apply State.faultJob_keeps

theorem State.revoked_keeps {r s : State} {kind holder die} (h : Keeps r s) :
    Keeps r (State.revoked s kind holder die) := by
  unfold State.revoked
  repeat' with_reducible first | assumption | apply State.trace_keeps | apply State.count_keeps

theorem State.revokeChans_keeps {r s : State} {c} (h : Keeps r s) :
    Keeps r (State.revokeChans s c) := by
  unfold State.revokeChans
  repeat' with_reducible first
    | assumption | intro _ | apply Keeps.ite | apply Keeps.foldl | apply State.revoked_keeps | apply State.modCore_keeps

theorem State.revokeLocks_keeps {r s : State} {c} (h : Keeps r s) :
    Keeps r (State.revokeLocks s c) := by
  unfold State.revokeLocks
  repeat' with_reducible first | assumption | intro _ | apply Keeps.foldl | apply State.revoked_keeps | apply State.store32_keeps

theorem State.startCore_keeps {r s : State} {c entry w} (h : Keeps r s) :
    Keeps r (State.startCore s c entry w) := by
  unfold State.startCore
  repeat' with_reducible first
    | assumption | intro _ | apply Keeps.foldl | apply State.putCore_keeps | apply State.setReg_keeps | apply State.setCadCore_keeps

theorem State.writeArgs_keeps {r s : State} {p c bs} (h : Keeps r s) :
    Keeps r (State.writeArgs s p c bs) := by
  unfold State.writeArgs
  repeat' with_reducible first | assumption | apply State.store_keeps

theorem outState_keeps {r s : State} {o} (h : KeepsOut r o) :
    Keeps r (outState o s) := by
  obtain ⟨t, rfl, h⟩ := h
  exact h

/-- Every meaning of an opcode keeps. -/
theorem opcodeMeaning_keeps {r s : State} {op c w o} (e : opcodeMeaning op c w s = some o) (h : Keeps r s) : KeepsOut r o := by
  unfold opcodeMeaning at e
  split at e <;> first
    | (obtain rfl := Option.some.inj e; with_reducible first
      | exact execAstep_keeps h | exact execVred_keeps h | exact execAvac_keeps h | exact execVfil_keeps h
      | exact execVreq_keeps h | exact execPwait_keeps h | exact execVfop_keeps h | exact execVfma_keeps h
      | exact execLdw_keeps h | exact execSigwait_keeps h | exact execLoop_keeps h | exact execAmv_keeps h
      | exact execFence_keeps h | exact execAmoswap_keeps h | exact execVcmp_keeps h | exact execStw_keeps h
      | exact execPmovs_keeps h | exact execVfds_keeps h | exact execPlane_keeps h | exact execSopi_keeps h
      | exact execVfapx_keeps h | exact execMma_keeps h | exact execAadd_keeps h | exact execDmago_keeps h
      | exact execAmocas_keeps h | exact execVapp_keeps h | exact execPfroms_keeps h | exact execSta_keeps h
      | exact execVcvt_keeps h | exact execSigpost_keeps h | exact execWaitc_keeps h | exact execAmoadd_keeps h
      | exact execVsop_keeps h | exact execSrd_keeps h | exact execNop_keeps h | exact execSth_keeps h | exact execAmvw_keeps h
      | exact execLdh_keeps h | exact execStb_keeps h | exact execEnd_keeps h | exact execAli_keeps h | exact execAmovs_keeps h
      | exact execVfls_keeps h | exact execPwb_keeps h | exact execBar_keeps h | exact execDmastop_keeps h
      | exact execPop_keeps h | exact execJr_keeps h | exact execVmxqDequantise_keeps h | exact execAopen_keeps h
      | exact execBr_keeps h | exact execLdb_keeps h | exact execLda_keeps h | exact execAstate_keeps h | exact execSop_keeps h
      | exact execJal_keeps h | exact execVmxqQuantise_keeps h | exact execLoopi_keeps h | exact execViop_keeps h
      | exact execJmp_keeps h | exact execVst_keeps h | exact execVmov_keeps h | exact execAaddi_keeps h | exact execVld_keeps h
      | exact execAccord_keeps h | exact execAsets_keeps h | exact execAexp2_keeps h | exact execLdbu_keeps h
      | exact execWld_keeps h | exact execLdhu_keeps h
      | exact KeepsOut.ite (execVmxqQuantise_keeps h) (execVmxqDequantise_keeps h))
    | exact nomatch e

theorem State.runUOp_keeps {r s : State} {c q rest} (h : Keeps r s) :
    Keeps r (State.runUOp s c q rest) := by
  have k : Keeps r (s.putCore c ((s.core c).startUOp q)) := State.putCore_keeps h
  refine State.putCore_keeps ?_
  split
  · next e => exact outState_keeps (opcodeMeaning_keeps e k)
  · exact k

theorem State.drainUnits_keeps {r x2 : State} {c x1} (h : Keeps r x2) :
    Keeps r (State.drainUnits c x1 x2) := by
  induction x1 generalizing c x2 with
  | zero => exact h
  | succ n ih =>
    unfold State.drainUnits
    repeat' with_reducible first | assumption | apply ih | apply State.runUOp_keeps | split

theorem State.endLockstep_keeps {r s : State} {c} (h : Keeps r s) :
    Keeps r (State.endLockstep s c) := by
  unfold State.endLockstep
  repeat' with_reducible first | assumption | apply Keeps.ite | apply State.setFld_keeps

theorem State.expertStart_keeps {r s : State} {c} (h : Keeps r s) :
    Keeps r (State.expertStart s c) := by
  unfold State.expertStart
  repeat' with_reducible first | assumption | apply State.startCore_keeps

theorem State.fetchInstr_keeps {r s : State} {c} (h : Keeps r s) :
    Keeps r (State.fetchInstr s c).1 := by
  unfold State.fetchInstr
  repeat' with_reducible first
    | assumption | apply State.coreRead_keeps | apply State.setCore_keeps | split | refine Keeps.of_fst (by assumption) ?_
    | simp only [Keeps.upd_iff]

theorem State.issueNext_keeps {r s : State} {c} (h : Keeps r s) :
    Keeps r (State.issueNext s c) := by
  unfold State.issueNext
  split
  · exact h
  · split
    · exact State.except_keeps h
    · split
      · next e => exact State.except_keeps (Keeps.of_fst e (State.fetchInstr_keeps h))
      · next e =>
        have h' := Keeps.of_fst e (State.fetchInstr_keeps h)
        split
        · next e' => exact outState_keeps (opcodeMeaning_keeps e' h')
        · exact State.except_keeps h'

theorem State.expertStep_keeps {r s : State} {c} (h : Keeps r s) :
    Keeps r (State.expertStep s c) := by
  unfold State.expertStep
  repeat' with_reducible first
    | assumption | apply Keeps.ite | apply State.endLockstep_keeps | apply State.issueNext_keeps | apply State.setCore_keeps

theorem State.haltClear_keeps {r s : State} {c} (h : Keeps r s) :
    Keeps r (State.haltClear s c) := by
  unfold State.haltClear
  repeat' with_reducible first | assumption | apply State.setFld_keeps | apply State.setCore_keeps

theorem State.haltRequest_keeps {r s : State} {c} (h : Keeps r s) :
    Keeps r (State.haltRequest s c) := by
  unfold State.haltRequest
  repeat' with_reducible first
    | assumption | apply Keeps.ite | apply State.setFld_keeps | apply State.endLockstep_keeps | apply State.barClear_keeps
    | apply State.setCore_keeps

theorem State.pairEnable_keeps {r s : State} {p en} (h : Keeps r s) :
    Keeps r (State.pairEnable s p en) := by
  unfold State.pairEnable
  repeat' with_reducible first | assumption | apply Keeps.ite | apply State.setFld_keeps | apply State.setCore_keeps

theorem State.recordPend_keeps {r s : State} {c p} (h : Keeps r s) :
    Keeps r (State.recordPend s c p) := by
  unfold State.recordPend
  repeat' with_reducible first | assumption | intro _ | apply Keeps.ite | apply Keeps.foldl | apply State.raise_keeps

end Sys2Proof.Machine
end

