-- ==== Sys2Proof/Laws/KeepsSchedule.lean ====
section
/-! SUPPORT. Every operation of wheels, time, admission, rings and the remote pair keeps the queue, the fixed data and the canonical form of memory. -/

namespace Sys2Proof.Machine

theorem State.armWheel_keeps {r s : State} {w v} (h : Keeps r s) :
    Keeps r (State.armWheel s w v) := by
  unfold State.armWheel
  repeat' with_reducible first | assumption | apply State.setWheel_keeps | apply State.setReg_keeps

theorem State.prefailTick_keeps {r s : State} {w} (h : Keeps r s) :
    Keeps r (State.prefailTick s w) := by
  unfold State.prefailTick
  repeat' with_reducible first
    | assumption | intro _ | apply Keeps.ite | apply Keeps.foldl | apply State.modKind_keeps | apply State.prefail_keeps

theorem State.countTicks_keeps {r s : State} {w} (h : Keeps r s) :
    Keeps r (State.countTicks s w) := by
  unfold State.countTicks
  repeat' with_reducible first | assumption | simp only [Keeps.upd_iff]

theorem State.releasePhases_keeps {r s : State} {w} (h : Keeps r s) :
    Keeps r (State.releasePhases s w) := by
  unfold State.releasePhases
  repeat' with_reducible first | assumption | intro _ | apply Keeps.foldl | apply State.release_keeps | split

theorem State.tickEffects_keeps {r s : State} {w} (h : Keeps r s) :
    Keeps r (State.tickEffects s w) := by
  unfold State.tickEffects
  repeat' with_reducible first
    | assumption | apply State.prefailTick_keeps | apply State.countTicks_keeps | apply State.releasePhases_keeps

theorem State.startFrame_keeps {r s : State} {w at_ st} (h : Keeps r s) :
    Keeps r (State.startFrame s w at_ st) := by
  unfold State.startFrame
  repeat' with_reducible first
    | assumption | apply State.setWheel_keeps | apply State.setReg_keeps | apply State.tickEffects_keeps

theorem State.raiseSub_keeps {r s : State} {b i bit sub} (h : Keeps r s) :
    Keeps r (State.raiseSub s b i bit sub) := by
  unfold State.raiseSub
  repeat' with_reducible first | assumption | apply Keeps.ite | apply State.raise_keeps | simp only [Keeps.upd_iff]

theorem State.sourceEvent_keeps {r s : State} {w at_ camera} (h : Keeps r s) :
    Keeps r (State.sourceEvent s w at_ camera) := by
  unfold State.sourceEvent
  repeat' with_reducible first
    | assumption | apply Keeps.ite | apply State.startFrame_keeps | apply State.raiseSub_keeps | apply State.count_keeps
    | apply State.setWheel_keeps

theorem State.cameraEvent_keeps {r s : State} {x1} (h : Keeps r s) :
    Keeps r (State.cameraEvent s x1) := by
  unfold State.cameraEvent
  repeat' with_reducible first | assumption | intro _ | apply Keeps.ite | apply Keeps.foldl | apply State.sourceEvent_keeps

theorem State.loseSource_keeps {r s : State} {w} (h : Keeps r s) :
    Keeps r (State.loseSource s w) := by
  unfold State.loseSource
  repeat' with_reducible first
    | assumption | apply Keeps.ite | apply State.raiseSub_keeps | apply State.count_keeps | apply State.setWheel_keeps
    | simp only [Keeps.upd_iff]

theorem State.setDom_keeps {r s : State} {d x} (h : Keeps r s) :
    Keeps r (State.setDom s d x) := by
  unfold State.setDom
  repeat' with_reducible first | assumption | simp only [Keeps.upd_iff]

theorem State.setTrig_keeps {r s : State} {x1 x} (h : Keeps r s) :
    Keeps r (State.setTrig s x1 x) := by
  unfold State.setTrig
  repeat' with_reducible first | assumption | simp only [Keeps.upd_iff]

theorem State.wheelStop_keeps {r s : State} {w} (h : Keeps r s) :
    Keeps r (State.wheelStop s w) := by
  unfold State.wheelStop
  repeat' with_reducible first
    | assumption | intro _ | apply Keeps.foldl | apply State.raiseSub_keeps | apply State.setWheel_keeps | apply State.stopJob_keeps
    | apply State.finalize_keeps | apply State.disarmAll_keeps | apply State.setPart_keeps | split | simp only [Keeps.upd_iff]

theorem State.writeWhlCfg_keeps {r s : State} {w v} (h : Keeps r s) :
    Keeps r (State.writeWhlCfg s w v) := by
  unfold State.writeWhlCfg
  repeat' with_reducible first
    | assumption | apply Keeps.ite | apply State.armWheel_keeps | apply State.raiseSub_keeps | apply State.setReg_keeps
    | apply State.setWheel_keeps

theorem State.setCap_keeps {r s : State} {x1 x} (h : Keeps r s) :
    Keeps r (State.setCap s x1 x) := by
  unfold State.setCap
  repeat' with_reducible first | assumption | simp only [Keeps.upd_iff]

theorem State.capPop_keeps {r s : State} {x1} (h : Keeps r s) :
    Keeps r (State.capPop s x1) := by
  unfold State.capPop
  repeat' with_reducible first | assumption | apply State.setCap_keeps

theorem State.captureEdge_keeps {r s : State} {x1 rising} (h : Keeps r s) :
    Keeps r (State.captureEdge s x1 rising) := by
  unfold State.captureEdge
  repeat' with_reducible first
    | assumption | apply Keeps.ite | apply State.raiseSub_keeps | apply State.count_keeps | apply State.setCap_keeps

theorem State.takeStamp_keeps {r s : State} {x1 e} (h : Keeps r s) :
    Keeps r (State.takeStamp s x1 e) := by
  unfold State.takeStamp
  repeat' with_reducible first
    | assumption | apply Keeps.ite | apply State.setCap_keeps | apply State.raiseSub_keeps | apply State.count_keeps

theorem State.takeStamps_keeps {r s : State} (h : Keeps r s) :
    Keeps r (State.takeStamps s) := by
  unfold State.takeStamps
  repeat' with_reducible first | assumption | intro _ | apply Keeps.foldl | apply State.setCap_keeps | apply State.takeStamp_keeps

theorem State.clockTick_keeps {r s : State} (h : Keeps r s) :
    Keeps r (State.clockTick s) := by
  unfold State.clockTick
  repeat' with_reducible first
    | assumption | intro _ | apply Keeps.ite | apply Keeps.foldl | apply State.setDom_keeps | apply State.takeStamps_keeps
    | simp only [Keeps.upd_iff]

theorem State.refuseDom_keeps {r s : State} {d} (h : Keeps r s) :
    Keeps r (State.refuseDom s d) := by
  unfold State.refuseDom
  repeat' with_reducible first | assumption | apply State.count_keeps

theorem State.domAct_keeps {r s : State} {d a} (h : Keeps r s) :
    Keeps r (State.domAct s d a) := by
  unfold State.domAct
  repeat' with_reducible first | assumption | apply Keeps.ite | apply State.refuseDom_keeps | apply State.setDom_keeps

theorem State.domEnable_keeps {r s : State} {d en} (h : Keeps r s) :
    Keeps r (State.domEnable s d en) := by
  unfold State.domEnable
  repeat' with_reducible first | assumption | apply Keeps.ite | apply State.refuseDom_keeps | apply State.setFld_keeps

theorem State.domLoad_keeps {r s : State} {d v} (h : Keeps r s) :
    Keeps r (State.domLoad s d v) := by
  unfold State.domLoad
  repeat' with_reducible first | assumption | apply State.domAct_keeps

theorem State.domSlew_keeps {r s : State} {d v} (h : Keeps r s) :
    Keeps r (State.domSlew s d v) := by
  unfold State.domSlew
  repeat' with_reducible first | assumption | apply State.setFld_keeps | apply State.setDom_keeps

theorem State.domStep_keeps {r s : State} {d v} (h : Keeps r s) :
    Keeps r (State.domStep s d v) := by
  unfold State.domStep
  repeat' with_reducible first | assumption | apply State.domAct_keeps

theorem State.internalEvent_keeps {r s : State} {ev} (h : Keeps r s) :
    Keeps r (State.internalEvent s ev) := by
  unfold State.internalEvent
  repeat' with_reducible first | assumption | intro _ | apply Keeps.ite | apply Keeps.foldl | apply State.captureEdge_keeps

theorem State.setGptp_keeps {r s : State} {d st gm} (h : Keeps r s) :
    Keeps r (State.setGptp s d st gm) := by
  unfold State.setGptp
  repeat' with_reducible first | assumption | apply Keeps.ite | apply State.trace_keeps | simp only [Keeps.upd_iff]

theorem State.trigDisable_keeps {r s : State} {x1} (h : Keeps r s) :
    Keeps r (State.trigDisable s x1) := by
  unfold State.trigDisable
  repeat' with_reducible first
    | assumption | apply Keeps.foldl | apply State.setTrig_keeps | apply State.setFld_keeps | apply State.loseSource_keeps

theorem State.trigEnable_keeps {r s : State} {x1 v} (h : Keeps r s) :
    Keeps r (State.trigEnable s x1 v) := by
  unfold State.trigEnable
  repeat' with_reducible first
    | assumption | apply State.setReg_keeps | apply State.setTrig_keeps | split | simp only [Keeps.upd_iff]

theorem State.tuWrite_keeps {r s : State} {src off guard would f} (h : Keeps r s) (hk : ∀ y0, Keeps r y0 → Keeps r (f y0)) :
    Keeps r (State.tuWrite s src off guard would f) := by
  unfold State.tuWrite
  repeat' with_reducible first
    | assumption | intro _ | apply Keeps.ite | apply State.regCommand_keeps | apply State.ignoredWrite_keeps | apply State.guarded_keeps

theorem State.writeCap_keeps {r s : State} {x1 v} (h : Keeps r s) :
    Keeps r (State.writeCap s x1 v) := by
  unfold State.writeCap
  repeat' with_reducible first | assumption | apply Keeps.ite | apply State.setReg_keeps | apply State.raiseSub_keeps

theorem State.writeTrig_keeps {r s : State} {x1 v} (h : Keeps r s) :
    Keeps r (State.writeTrig s x1 v) := by
  unfold State.writeTrig
  repeat' with_reducible first
    | assumption | apply Keeps.ite | apply State.trigDisable_keeps | apply State.setReg_keeps | apply State.trigEnable_keeps
    | apply State.raise_keeps

theorem State.phaseTick_keeps {r s : State} {w} (h : Keeps r s) :
    Keeps r (State.phaseTick s w) := by
  unfold State.phaseTick
  repeat' with_reducible first
    | assumption | apply Keeps.ite | apply State.startFrame_keeps | apply State.setWheel_keeps | apply State.tickEffects_keeps

theorem State.whlWrite_keeps {r s : State} {src w off would f} (h : Keeps r s) (hk : ∀ y0, Keeps r y0 → Keeps r (f y0)) :
    Keeps r (State.whlWrite s src w off would f) := by
  unfold State.whlWrite
  repeat' with_reducible first
    | assumption | intro _ | apply Keeps.ite | apply State.regCommand_keeps | apply State.ignoredWrite_keeps | apply State.guarded_keeps

theorem execWheelEnable_keeps {r s : State} {src w v} (h : Keeps r s) :
    KeepsOut r (execWheelEnable src w v s) := by
  unfold execWheelEnable
  repeat' with_reducible first
    | assumption | intro _ | apply KeepsOut.next | apply State.whlWrite_keeps | apply State.writeWhlCfg_keeps

theorem State.abortJob_keeps {r s : State} {p k num} (h : Keeps r s) :
    Keeps r (State.abortJob s p k num).1 := by
  unfold State.abortJob
  repeat' with_reducible first | assumption | apply State.stopJob_keeps | apply State.finalize_keeps | split

theorem State.abortResult_keeps {r s : State} {cl x2} (h : Keeps r s) :
    Keeps r (State.abortResult s cl x2) := by
  unfold State.abortResult
  repeat' with_reducible first | assumption | apply State.setReg_keeps

theorem State.addJob_keeps {r s : State} {j} (h : Keeps r s) :
    Keeps r (State.addJob s j) := by
  unfold State.addJob
  repeat' with_reducible first | assumption | simp only [Keeps.upd_iff]

theorem State.argRead_keeps {r s : State} {pid p k a} (h : Keeps r s) :
    Keeps r (State.argRead s pid p k a).1 := by
  unfold State.argRead
  repeat' with_reducible first
    | assumption | intro _ | apply Keeps.foldl_fst | apply State.unitRead_keeps | apply State.raise_keeps | split
    | refine Keeps.of_fst (by assumption) ?_

theorem State.argumentRead_keeps {r s : State} {pid kn} (h : Keeps r s) :
    Keeps r (State.argumentRead s pid kn) := by
  unfold State.argumentRead
  repeat' with_reducible first
    | assumption | intro _ | apply Keeps.ite | apply Keeps.foldl | apply State.argRead_keeps | apply State.setCadCore_keeps
    | apply State.modKind_keeps | split

theorem State.cadAbort_keeps {r s : State} {cl v} (h : Keeps r s) :
    Keeps r (State.cadAbort s cl v) := by
  unfold State.cadAbort
  repeat' with_reducible first
    | assumption | apply State.setReg_keeps | apply State.abortResult_keeps | apply State.abortJob_keeps | split | simp only [Keeps.upd_iff]

theorem State.clearReady_keeps {r s : State} {j} (h : Keeps r s) :
    Keeps r (State.clearReady s j) := by
  unfold State.clearReady
  repeat' with_reducible first | assumption | apply State.unitWrite_keeps

theorem State.missJob_keeps {r s : State} {pid kn p j} (h : Keeps r s) :
    Keeps r (State.missJob s pid kn p j) := by
  unfold State.missJob
  repeat' with_reducible first
    | assumption | apply State.stopJob_keeps | apply State.finalize_keeps | apply State.trace_keeps | apply State.raise_keeps
    | apply State.count_keeps

theorem State.deadlineCheck_keeps {r s : State} {pid kn} (h : Keeps r s) :
    Keeps r (State.deadlineCheck s pid kn) := by
  unfold State.deadlineCheck
  repeat' with_reducible first | assumption | intro _ | apply Keeps.foldl | apply State.missJob_keeps | split

theorem State.yieldJob_keeps {r s : State} {p k j} (h : Keeps r s) :
    Keeps r (State.yieldJob s p k j) := by
  unfold State.yieldJob
  repeat' with_reducible first
    | assumption | intro _ | apply Keeps.foldl | apply State.count_keeps | apply State.setAcct_keeps | apply State.setCadCore_keeps
    | apply State.setReg_keeps | apply State.store_keeps | apply State.trace_keeps | apply State.setJob_keeps

theorem State.endNotice_keeps {r s : State} {c} (h : Keeps r s) :
    Keeps r (State.endNotice s c) := by
  unfold State.endNotice
  repeat' with_reducible first
    | assumption | apply State.setCadCore_keeps | apply State.finalize_keeps | apply State.yieldJob_keeps | apply State.setJob_keeps
    | apply State.missJob_keeps | apply State.setAcct_keeps | apply State.putCore_keeps | split | simp only [Keeps.upd_iff]

theorem State.entryDeadline_keeps {r s : State} {cl i} (h : Keeps r s) :
    Keeps r (State.entryDeadline s cl i) := by
  unfold State.entryDeadline
  repeat' with_reducible first
    | assumption | intro _ | apply Keeps.ite | apply Keeps.foldl | apply State.raise_keeps | apply State.stopCore_keeps

theorem State.entryLaunch_keeps {r s : State} {cl i} (h : Keeps r s) :
    Keeps r (State.entryLaunch s cl i) := by
  unfold State.entryLaunch
  repeat' with_reducible first
    | assumption | intro _ | apply Keeps.ite | apply Keeps.foldl | apply State.startCore_keeps | apply State.modCore_keeps

theorem State.launch_keeps {r s : State} {p k j bs} (h : Keeps r s) :
    Keeps r (State.launch s p k j bs) := by
  unfold State.launch
  repeat' with_reducible first
    | assumption | intro _ | apply Keeps.foldl | apply State.clearReady_keeps | apply State.setJob_keeps | apply State.setAcct_keeps
    | apply State.startCore_keeps | apply State.writeArgs_keeps

theorem State.periodicLaunch_keeps {r s : State} {pid kn} (h : Keeps r s) :
    Keeps r (State.periodicLaunch s pid kn) := by
  unfold State.periodicLaunch
  repeat' with_reducible first
    | assumption | apply Keeps.ite | apply State.prefail_keeps | apply State.modKind_keeps | apply State.addJob_keeps
    | apply State.finalize_keeps | apply State.launch_keeps | apply State.trace_keeps | apply State.lateEvent_keeps | split

theorem State.postRecord_keeps {r s : State} {j rest} (h : Keeps r s) :
    Keeps r (State.postRecord s j rest) := by
  unfold State.postRecord
  repeat' with_reducible first
    | assumption | apply Keeps.ite | apply State.unitWrite_keeps | apply State.setAcct_keeps | apply State.syncAcct_keeps
    | apply State.post_keeps | apply State.trace_keeps | simp only [Keeps.upd_iff]

theorem State.stopComplete_keeps {r s : State} {j} (h : Keeps r s) :
    Keeps r (State.stopComplete s j) := by
  unfold State.stopComplete
  repeat' with_reducible first
    | assumption | intro _ | apply Keeps.ite | apply Keeps.foldl | apply State.revokeChans_keeps | apply State.revokeLocks_keeps
    | apply State.setCadCore_keeps | apply State.putCore_keeps | apply State.setJob_keeps

theorem execCadAbort_keeps {r s : State} {src cl v} (h : Keeps r s) :
    KeepsOut r (execCadAbort src cl v s) := by
  unfold execCadAbort
  repeat' with_reducible first
    | assumption | intro _ | apply Keeps.ite | apply KeepsOut.next | apply State.regCommand_keeps | apply State.cadAbort_keeps
    | apply State.ignoredWrite_keeps

theorem State.installCode_keeps {r s : State} {p} (h : Keeps r s) :
    Keeps r (State.installCode s p) := by
  unfold State.installCode
  repeat' with_reducible first
    | assumption | intro _ | apply Keeps.ite | apply Keeps.foldl | apply State.modCore_keeps | apply State.store_keeps

theorem State.installEntry_keeps {r s : State} {pid k x3} (h : Keeps r s) :
    Keeps r (State.installEntry s pid k x3) := by
  unfold State.installEntry
  repeat' with_reducible first | assumption | apply State.setReg_keeps | split | simp only [Keeps.upd_iff]

theorem State.installRes_keeps {r s : State} {x1} (h : Keeps r s) :
    Keeps r (State.installRes s x1).1 := by
  unfold State.installRes
  repeat' with_reducible first
    | assumption | apply State.setReg_keeps | apply State.setFld_keeps | split | simp only [Keeps.upd_iff]

theorem State.installAll_keeps {r s : State} {rs} (h : Keeps r s) :
    Keeps r (State.installAll s rs).1 := by
  unfold State.installAll
  repeat' with_reducible first | assumption | intro _ | apply Keeps.foldl_fst | apply State.installRes_keeps

theorem State.admitPart_keeps {r s : State} {d c faddr certDig code locks} (h : Keeps r s) :
    Keeps r (State.admitPart s d c faddr certDig code locks) := by
  unfold State.admitPart
  repeat' with_reducible first
    | assumption | intro _ | apply Keeps.ite | apply Keeps.foldl | apply State.installAll_keeps | apply State.setPart_keeps
    | apply State.installEntry_keeps | apply State.pairEnable_keeps | apply State.loadCores_keeps | apply State.modCore_keeps
    | apply State.setReg_keeps | apply State.installCode_keeps | simp only [Keeps.upd_iff]

theorem State.beginUnload_keeps {r s : State} {pid by_} (h : Keeps r s) :
    Keeps r (State.beginUnload s pid by_) := by
  unfold State.beginUnload
  repeat' with_reducible first
    | assumption | intro _ | apply Keeps.foldl | apply State.disarmAll_keeps | apply State.finalize_keeps | apply State.setPart_keeps
    | split | simp only [Keeps.upd_iff]

theorem State.endLasting_keeps {r s : State} {pid} (h : Keeps r s) :
    Keeps r (State.endLasting s pid) := by
  unfold State.endLasting
  repeat' with_reducible first | assumption | simp only [Keeps.upd_iff]

theorem State.endPairings_keeps {r s : State} {pid} (h : Keeps r s) :
    Keeps r (State.endPairings s pid) := by
  unfold State.endPairings
  repeat' with_reducible first | assumption | simp only [Keeps.upd_iff]

theorem State.removeRes_keeps {r s : State} {x1} (h : Keeps r s) :
    Keeps r (State.removeRes s x1) := by
  unfold State.removeRes
  repeat' with_reducible first | assumption | apply Keeps.ite | apply State.setReg_keeps | apply State.setFld_keeps

theorem State.removePart_keeps {r s : State} {pid} (h : Keeps r s) :
    Keeps r (State.removePart s pid) := by
  unfold State.removePart
  repeat' with_reducible first
    | assumption | intro _ | apply Keeps.foldl | apply Keeps.upTo | apply State.removeRes_keeps | apply State.setReg_keeps
    | apply State.zero_keeps | apply State.trace_keeps | apply State.endLasting_keeps | apply State.endPairings_keeps | split
    | simp only [Keeps.upd_iff]

theorem State.forceUnload_keeps {r s : State} {pid out} (h : Keeps r s) :
    Keeps r (State.forceUnload s pid out) := by
  unfold State.forceUnload
  repeat' with_reducible first
    | assumption | intro _ | apply Keeps.foldl | apply State.disarmAll_keeps | apply State.endJobs_keeps | apply State.modCore_keeps
    | apply State.revokeChans_keeps | apply State.revokeLocks_keeps | apply State.removePart_keeps | apply State.ok_keeps | split
    | simp only [Keeps.upd_iff]

theorem State.readImage_keeps {r s : State} {world a hdr} (h : Keeps r s) :
    Keeps r (State.readImage s world a hdr).1 := by
  unfold State.readImage
  repeat' with_reducible first | assumption | apply State.fwRead_keeps

theorem State.ringError_keeps {r s : State} {p off v} (h : Keeps r s) :
    Keeps r (State.ringError s p off v) := by
  unfold State.ringError
  repeat' with_reducible first | assumption | apply State.trace_keeps | apply State.raise_keeps

theorem State.takeTail_keeps {r s : State} {p} (h : Keeps r s) :
    Keeps r (State.takeTail s p) := by
  unfold State.takeTail
  repeat' with_reducible first | assumption | apply Keeps.ite | apply State.setRing_keeps | apply State.ringError_keeps

theorem State.takeCommand_keeps {r s : State} {p} (h : Keeps r s) :
    Keeps r (State.takeCommand s p) := by
  unfold State.takeCommand
  repeat' with_reducible first
    | assumption | apply Keeps.ite | apply State.fwRead_keeps | apply State.touch_keeps | apply State.setRing_keeps
    | apply State.trace_keeps | apply State.complete_keeps

theorem State.takeHead_keeps {r s : State} {p} (h : Keeps r s) :
    Keeps r (State.takeHead s p) := by
  unfold State.takeHead
  repeat' with_reducible first | assumption | apply Keeps.ite | apply State.setRing_keeps | apply State.ringError_keeps

theorem State.inspect_keeps {r s : State} {p} (h : Keeps r s) :
    Keeps r (State.inspect s p) := by
  unfold State.inspect
  repeat' with_reducible first
    | assumption | apply Keeps.ite | apply State.takeTail_keeps | apply State.takeHead_keeps | apply State.takeCommand_keeps
    | apply State.cqMove_keeps

theorem State.doorbell_keeps {r s : State} {src p} (h : Keeps r s) :
    Keeps r (State.doorbell s src p) := by
  unfold State.doorbell
  repeat' with_reducible first | assumption | apply Keeps.ite | apply State.inspect_keeps | apply State.ignoredWrite_keeps

theorem State.openRing_keeps {r s : State} {p world remote ctx sqN cqN sqBase cqBase windows} (h : Keeps r s) :
    Keeps r (State.openRing s p world remote ctx sqN cqN sqBase cqBase windows) := by
  unfold State.openRing
  repeat' with_reducible first | assumption | apply State.store_keeps | apply State.setRing_keeps

theorem State.ringSlot_keeps {r s : State} {p ctx key} (h : Keeps r s) :
    KeepsSome r (State.ringSlot s p ctx key) := by
  unfold State.ringSlot
  repeat' with_reducible first
    | assumption | intro _ | apply KeepsSome.map | apply State.setSlot_keeps | simp only [Keeps.upd_iff]

theorem State.withKind_keeps {r s : State} {p pid kn queued k} (h : Keeps r s) (hk : ∀ y0 y1, Keeps r (k y0 y1)) :
    Keeps r (State.withKind s p pid kn queued k) := by
  unfold State.withKind
  repeat' with_reducible first | assumption | apply State.complete_keeps | apply State.refuse_keeps | apply hk | split

theorem execDoorbell_keeps {r s : State} {src p} (h : Keeps r s) :
    KeepsOut r (execDoorbell src p s) := by
  unfold execDoorbell
  repeat' with_reducible first
    | assumption | intro _ | apply KeepsOut.next | apply State.regCommand_keeps | apply State.doorbell_keeps

theorem State.timeSet_keeps {r s : State} {p action k} (h : Keeps r s) (hk : ∀ y0 y1, Keeps r (k y0 y1)) :
    Keeps r (State.timeSet s p action k) := by
  unfold State.timeSet
  repeat' with_reducible first
    | assumption | intro _ | apply Keeps.ite | apply State.command_keeps | apply State.complete_keeps | apply hk

theorem State.chargeRestart_keeps {r s : State} {ctxs} (h : Keeps r s) :
    Keeps r (State.chargeRestart s ctxs) := by
  unfold State.chargeRestart
  repeat' with_reducible first | assumption | intro _ | apply Keeps.foldl | apply State.syncAcct_keeps | apply State.setAcct_keeps

theorem State.postMailbox_keeps {r x1 : State} {x0} (h : Keeps r x1) :
    Keeps r (State.postMailbox x0 x1) := by
  induction x0 generalizing x1 with
  | zero => exact h
  | succ n ih =>
    unfold State.postMailbox
    repeat' with_reducible first | assumption | apply ih | apply State.postRecord_keeps | split

theorem State.fpBack_keeps {r s : State} {k} (h : Keeps r s) :
    Keeps r (State.fpBack s k) := by
  unfold State.fpBack
  repeat' with_reducible first
    | assumption | apply Keeps.ite | apply State.setFp_keeps | apply State.payPulses_keeps | apply State.logFlush_keeps
    | apply State.postMailbox_keeps | apply State.trace_keeps | apply State.chargeRestart_keeps

theorem State.mcFail_keeps {r s : State} (h : Keeps r s) :
    Keeps r (State.mcFail s) := by
  unfold State.mcFail
  repeat' with_reducible first
    | assumption | apply State.packageFail_keeps | apply State.raise_keeps | apply State.syncFwState_keeps | simp only [Keeps.upd_iff]

theorem State.measureFp4_keeps {r s : State} {digest} (h : Keeps r s) :
    Keeps r (State.measureFp4 s digest) := by
  unfold State.measureFp4
  repeat' with_reducible first | assumption | intro _ | apply Keeps.upTo | apply State.setReg_keeps

theorem State.restartFp_keeps {r s : State} {k} (h : Keeps r s) :
    Keeps r (State.restartFp s k) := by
  unfold State.restartFp
  repeat' with_reducible first
    | assumption | intro _ | apply Keeps.ite | apply Keeps.foldl | apply State.setFp_keeps | apply State.trace_keeps
    | apply State.raise_keeps | apply State.setDom_keeps

theorem execFpRestart_keeps {r s : State} {src k v} (h : Keeps r s) :
    KeepsOut r (execFpRestart src k v s) := by
  unfold execFpRestart
  repeat' with_reducible first
    | assumption | intro _ | apply Keeps.ite | apply KeepsOut.next | apply State.regCommand_keeps | apply State.ignoredWrite_keeps
    | apply State.guarded_keeps | apply State.restartFp_keeps

theorem execMcWatchdogKick_keeps {r s : State} {src self} (h : Keeps r s) :
    KeepsOut r (execMcWatchdogKick src self s) := by
  unfold execMcWatchdogKick
  repeat' with_reducible first
    | assumption | intro _ | apply Keeps.ite | apply KeepsOut.next | apply State.regCommand_keeps | apply State.ignoredWrite_keeps
    | simp only [Keeps.upd_iff]

theorem execWatchdogKick_keeps {r s : State} {src self k} (h : Keeps r s) :
    KeepsOut r (execWatchdogKick src self k s) := by
  unfold execWatchdogKick
  repeat' with_reducible first
    | assumption | intro _ | apply Keeps.ite | apply KeepsOut.next | apply State.setFp_keeps | apply State.regCommand_keeps
    | apply State.ignoredWrite_keeps

theorem State.dropSession_keeps {r s : State} {p id} (h : Keeps r s) :
    Keeps r (State.dropSession s p id) := by
  unfold State.dropSession
  repeat' with_reducible first | assumption | simp only [Keeps.upd_iff]

theorem State.putSession_keeps {r s : State} {x} (h : Keeps r s) :
    Keeps r (State.putSession s x) := by
  unfold State.putSession
  repeat' with_reducible first | assumption | simp only [Keeps.upd_iff]

theorem State.establish_keeps {r s : State} {q x} (h : Keeps r s) :
    Keeps r (State.establish s q x) := by
  unfold State.establish
  repeat' with_reducible first | assumption | apply State.trace_keeps | apply State.putSession_keeps | simp only [Keeps.upd_iff]

theorem State.rapDrop_keeps {r s : State} (h : Keeps r s) :
    Keeps r (State.rapDrop s) := by
  unfold State.rapDrop
  repeat' with_reducible first | assumption | apply State.count_keeps

theorem State.rapAuthFail_keeps {r s : State} {p q} (h : Keeps r s) :
    Keeps r (State.rapAuthFail s p q) := by
  unfold State.rapAuthFail
  repeat' with_reducible first | assumption | apply State.trace_keeps | apply State.rapDrop_keeps

theorem State.rapTake_keeps {r s : State} {q op tag k} (h : Keeps r s) (hk : ∀ y0, Keeps r (k y0)) :
    Keeps r (State.rapTake s q op tag k) := by
  unfold State.rapTake
  repeat' with_reducible first | assumption | apply Keeps.ite | apply State.rapDrop_keeps | apply hk

theorem State.rapSend_keeps {r s : State} {o} (h : Keeps r s) :
    Keeps r (State.rapSend s o) := by
  unfold State.rapSend
  repeat' with_reducible first | assumption | simp only [Keeps.upd_iff]

theorem State.rapRespond_keeps {r s : State} {p q status payload} (h : Keeps r s) :
    Keeps r (State.rapRespond s p q status payload) := by
  unfold State.rapRespond
  repeat' with_reducible first | assumption | apply State.putSession_keeps | apply State.rapSend_keeps | split

theorem State.rapRequest_keeps {r s : State} {q op k} (h : Keeps r s) (hk : ∀ y0 y1 y2, Keeps r y2 → Keeps r (k y0 y1 y2)) :
    Keeps r (State.rapRequest s q op k) := by
  unfold State.rapRequest
  repeat' with_reducible first
    | assumption | intro _ | apply Keeps.ite | apply State.rapTake_keeps | apply State.rapRespond_keeps | apply State.rapSend_keeps
    | apply State.rapDrop_keeps | apply State.rapAuthFail_keeps | apply State.establish_keeps | apply State.putSession_keeps | apply hk
    | split

theorem State.rapStore_keeps {r s : State} {a bs} (h : Keeps r s) :
    Keeps r (State.rapStore s a bs).1 := by
  unfold State.rapStore
  repeat' with_reducible first | assumption | apply Keeps.ite_fst | apply State.dirWrite_keeps | apply State.unitWriteOk_keeps

end Sys2Proof.Machine
end

