-- ==== Sys2Proof/Laws/KeepsInterfaces.lean ====
section
/-! SUPPORT. Every operation of the CPUs, networks, camera, graphics, display and Woade keeps the queue, the fixed data and the canonical form of memory. -/

namespace Sys2Proof.Machine

theorem State.setCpuPair_keeps {r s : State} {p x} (h : Keeps r s) :
    Keeps r (State.setCpuPair s p x) := by
  unfold State.setCpuPair
  repeat' with_reducible first | assumption | simp only [Keeps.upd_iff]

theorem State.haltPair_keeps {r s : State} {p} (h : Keeps r s) :
    Keeps r (State.haltPair s p) := by
  unfold State.haltPair
  repeat' with_reducible first | assumption | apply Keeps.ite | apply State.setCpuPair_keeps

theorem State.pairCmd_keeps {r s : State} {src p f} (h : Keeps r s) (hk : ∀ y0, Keeps r y0 → Keeps r (f y0)) :
    Keeps r (State.pairCmd s src p f) := by
  unfold State.pairCmd
  repeat' with_reducible first
    | assumption | intro _ | apply Keeps.ite | apply State.regCommand_keeps | apply State.ignoredWrite_keeps | apply State.guarded_keeps

theorem State.releasePair_keeps {r s : State} {p} (h : Keeps r s) :
    Keeps r (State.releasePair s p) := by
  unfold State.releasePair
  repeat' with_reducible first
    | assumption | apply State.emptyPair_keeps | apply State.setHart_keeps | apply State.setCpuPair_keeps

theorem State.stopPair_keeps {r s : State} {p} (h : Keeps r s) :
    Keeps r (State.stopPair s p) := by
  unfold State.stopPair
  repeat' with_reducible first | assumption | apply State.setCpuPair_keeps

theorem execCpuPairStart_keeps {r s : State} {src p v} (h : Keeps r s) :
    KeepsOut r (execCpuPairStart src p v s) := by
  unfold execCpuPairStart
  repeat' with_reducible first
    | assumption | intro _ | apply Keeps.ite | apply KeepsOut.next | apply State.pairCmd_keeps | apply State.releasePair_keeps

theorem execCpuPairStop_keeps {r s : State} {src p v} (h : Keeps r s) :
    KeepsOut r (execCpuPairStop src p v s) := by
  unfold execCpuPairStop
  repeat' with_reducible first
    | assumption | intro _ | apply Keeps.ite | apply KeepsOut.next | apply State.pairCmd_keeps | apply State.stopPair_keeps

theorem State.setCan_keeps {r s : State} {c x} (h : Keeps r s) :
    Keeps r (State.setCan s c x) := by
  unfold State.setCan
  repeat' with_reducible first | assumption | simp only [Keeps.upd_iff]

theorem State.canPutPdu_keeps {r s : State} {c slot f} (h : Keeps r s) :
    Keeps r (State.canPutPdu s c slot f) := by
  unfold State.canPutPdu
  repeat' with_reducible first | assumption | apply Keeps.ite | apply State.count_keeps | apply State.setCan_keeps

theorem State.flowLookup_keeps {r s : State} {k ecc} (h : Keeps r s) :
    Keeps r (State.flowLookup s k ecc).1 := by
  unfold State.flowLookup
  repeat' with_reducible first | assumption | apply State.raise_keeps | split | simp only [Keeps.upd_iff]

theorem State.setPdu_keeps {r s : State} {x1 x} (h : Keeps r s) :
    Keeps r (State.setPdu s x1 x) := by
  unfold State.setPdu
  repeat' with_reducible first | assumption | simp only [Keeps.upd_iff]

theorem State.routeWrite_keeps {r s : State} {x1 v} (h : Keeps r s) :
    Keeps r (State.routeWrite s x1 v) := by
  unfold State.routeWrite
  repeat' with_reducible first | assumption | apply State.setPdu_keeps | split

theorem State.swDrop_keeps {r s : State} {p} (h : Keeps r s) :
    Keeps r (State.swDrop s p) := by
  unfold State.swDrop
  repeat' with_reducible first | assumption | apply State.count_keeps

theorem State.swQueue_keeps {r s : State} {f prio dests} (h : Keeps r s) :
    Keeps r (State.swQueue s f prio dests).1 := by
  unfold State.swQueue
  repeat' with_reducible first
    | assumption | intro _ | apply Keeps.ite_fst | apply Keeps.foldl_fst | apply State.swDrop_keeps | simp only [Keeps.upd_iff]

theorem State.swForward_keeps {r s : State} {f pass ecc} (h : Keeps r s) :
    Keeps r (State.swForward s f pass ecc).1 := by
  unfold State.swForward
  repeat' with_reducible first
    | assumption | apply State.swDrop_keeps | apply State.flowLookup_keeps | apply State.swQueue_keeps | split | simp only [Keeps.upd_iff]

theorem State.setLin_keeps {r s : State} {c x} (h : Keeps r s) :
    Keeps r (State.setLin s c x) := by
  unfold State.setLin
  repeat' with_reducible first | assumption | simp only [Keeps.upd_iff]

theorem State.linPublish_keeps {r s : State} {c id enh data} (h : Keeps r s) :
    Keeps r (State.linPublish s c id enh data) := by
  unfold State.linPublish
  repeat' with_reducible first | assumption | apply State.setLin_keeps

theorem State.pduSend_keeps {r s : State} {x1} (h : Keeps r s) :
    Keeps r (State.pduSend s x1) := by
  unfold State.pduSend
  repeat' with_reducible first
    | assumption | apply State.canPutPdu_keeps | apply State.linPublish_keeps | apply State.swForward_keeps | split

theorem State.groupSend_keeps {r s before : State} {rs} (h : Keeps r s) (hi : Keeps r before) :
    Keeps r (State.groupSend s before rs) := by
  unfold State.groupSend
  repeat' with_reducible first | assumption | intro _ | apply Keeps.foldl | apply State.pduSend_keeps | split

theorem State.runGroup_keeps {r s : State} {rs f} (h : Keeps r s) :
    Keeps r (State.runGroup s rs f) := by
  unfold State.runGroup
  repeat' with_reducible first
    | assumption | intro _ | apply Keeps.foldl | apply State.groupSend_keeps | apply State.routeWrite_keeps

theorem State.pduReceive_keeps {r s : State} {x1 data} (h : Keeps r s) :
    Keeps r (State.pduReceive s x1 data) := by
  unfold State.pduReceive
  repeat' with_reducible first | assumption | apply State.setPdu_keeps | apply State.runGroup_keeps | split

theorem State.pdusReceive_keeps {r s : State} {f data} (h : Keeps r s) :
    Keeps r (State.pdusReceive s f data) := by
  unfold State.pdusReceive
  repeat' with_reducible first | assumption | intro _ | apply Keeps.foldl | apply State.pduReceive_keeps

theorem State.framePdus_keeps {r s : State} {bs} (h : Keeps r s) :
    Keeps r (State.framePdus s bs) := by
  unfold State.framePdus
  repeat' with_reducible first | assumption | intro _ | apply Keeps.foldl | apply State.pdusReceive_keeps

theorem State.setGwq_keeps {r s : State} {i x} (h : Keeps r s) :
    Keeps r (State.setGwq s i x) := by
  unfold State.setGwq
  repeat' with_reducible first | assumption | simp only [Keeps.upd_iff]

theorem State.qDeliver_keeps {r s : State} {i kind bs port stamp} (h : Keeps r s) :
    Keeps r (State.qDeliver s i kind bs port stamp) := by
  unfold State.qDeliver
  repeat' with_reducible first
    | assumption | apply Keeps.ite | apply State.count_keeps | apply State.unitRead_keeps | apply State.setGwq_keeps
    | apply State.unitWriteOk_keeps | split | refine Keeps.of_fst (by assumption) ?_

theorem State.qWriteBack_keeps {r s : State} {i len ctrl err port stamp irq} (h : Keeps r s) :
    Keeps r (State.qWriteBack s i len ctrl err port stamp irq) := by
  unfold State.qWriteBack
  repeat' with_reducible first
    | assumption | apply State.unitRead_keeps | apply State.raise_keeps | apply State.setGwq_keeps | apply State.unitWriteOk_keeps
    | apply State.setFld_keeps | split | refine Keeps.of_fst (by assumption) ?_ | simp only [Keeps.upd_iff]

theorem State.txCopyEnds_keeps {r s : State} {i dropped stamp} (h : Keeps r s) :
    Keeps r (State.txCopyEnds s i dropped stamp) := by
  unfold State.txCopyEnds
  repeat' with_reducible first | assumption | apply State.setGwq_keeps | split | simp only [Keeps.upd_iff]

theorem State.passRead_keeps {r s : State} {src a x3} (h : Keeps r s) :
    Keeps r (State.passRead s src a x3).1 := by
  unfold State.passRead
  repeat' with_reducible first
    | assumption | apply State.unitRead_keeps | apply State.freeBytes_keeps | split | refine Keeps.of_fst (by assumption) ?_

theorem State.passWrite_keeps {r s : State} {src ps a bs} (h : Keeps r s) :
    Keeps r (State.passWrite s src ps a bs).1 := by
  unfold State.passWrite
  repeat' with_reducible first | assumption | apply State.unitWriteOk_keeps

theorem State.fastClear_keeps {r s : State} {src ps a} (h : Keeps r s) :
    Keeps r (State.fastClear s src ps a).1 := by
  unfold State.fastClear
  repeat' with_reducible first
    | assumption | apply Keeps.ite_fst | apply State.passRead_keeps | apply State.passWrite_keeps | split

theorem State.flagged_keeps {r s : State} {src a t} (h : Keeps r s) :
    Keeps r (State.flagged s src a t).1 := by
  unfold State.flagged
  repeat' with_reducible first | assumption | apply State.passRead_keeps | split

theorem State.loadAtt_keeps {r s : State} {src ps i a t} (h : Keeps r s) :
    Keeps r (State.loadAtt s src ps i a t).1 := by
  unfold State.loadAtt
  repeat' with_reducible first
    | assumption | intro _ | apply Keeps.ite_fst | apply Keeps.foldl_fst | apply State.passRead_keeps | apply State.freeBytes_keeps
    | apply State.flagged_keeps | split

theorem State.loadTile_keeps {r s : State} {src ps t} (h : Keeps r s) :
    Keeps r (State.loadTile s src ps t).1 := by
  unfold State.loadTile
  repeat' with_reducible first | assumption | intro _ | apply Keeps.foldl_fst | apply State.loadAtt_keeps

theorem State.texRead_keeps {r s : State} {src ps a x4} (h : Keeps r s) :
    Keeps r (State.texRead s src ps a x4).1 := by
  unfold State.texRead
  repeat' with_reducible first
    | assumption | apply State.passRead_keeps | apply State.freeWord_keeps | split | refine Keeps.of_fst (by assumption) ?_
    | refine Keeps.of_snd (by assumption) ?_ | simp only [Keeps.upd_iff]

theorem State.texFlagged_keeps {r s : State} {src ps t x x5} (h : Keeps r s) :
    Keeps r (State.texFlagged s src ps t x x5).1 := by
  unfold State.texFlagged
  repeat' with_reducible first | assumption | apply State.passRead_keeps | split

theorem State.texel_keeps {r s : State} {src ps t x x5} (h : Keeps r s) :
    Keeps r (State.texel s src ps t x x5).1 := by
  unfold State.texel
  repeat' with_reducible first
    | assumption | apply State.texRead_keeps | apply State.texFlagged_keeps | split | refine Keeps.of_fst (by assumption) ?_

theorem State.putBit_keeps {r s : State} {src ps a x4 v} (h : Keeps r s) :
    Keeps r (State.putBit s src ps a x4 v).1 := by
  unfold State.putBit
  repeat' with_reducible first | assumption | apply State.passRead_keeps | apply State.passWrite_keeps

theorem State.lookup_keeps {r s : State} {src ps t x x5} (h : Keeps r s) :
    Keeps r (State.lookup s src ps t x x5).1 := by
  unfold State.lookup
  repeat' with_reducible first
    | assumption | apply Keeps.ite_fst | apply State.passRead_keeps | apply State.texel_keeps | apply State.putBit_keeps | split

theorem State.shaderOp_keeps {r s : State} {src ps tiles x x5 k op} (h : Keeps r s) :
    Keeps r (State.shaderOp s src ps tiles x x5 k op).1 := by
  unfold State.shaderOp
  repeat' with_reducible first | assumption | apply State.passWrite_keeps | apply State.lookup_keeps | split

theorem State.retireFrag_keeps {r s : State} {q ps tiles f} (h : Keeps r s) :
    Keeps r (State.retireFrag s q ps tiles f).1 := by
  unfold State.retireFrag
  repeat' with_reducible first | assumption | intro _ | apply Keeps.foldl_fst | apply State.shaderOp_keeps

theorem State.retireFrags_keeps {r s : State} {q ps tiles fs} (h : Keeps r s) :
    Keeps r (State.retireFrags s q ps tiles fs).1 := by
  unfold State.retireFrags
  repeat' with_reducible first | assumption | intro _ | apply Keeps.foldl_fst | apply State.retireFrag_keeps

theorem State.spillTile_keeps {r s : State} {src ps t tiles} (h : Keeps r s) :
    Keeps r (State.spillTile s src ps t tiles).1 := by
  unfold State.spillTile
  repeat' with_reducible first | assumption | intro _ | apply Keeps.foldl_fst | apply State.passWrite_keeps | split

theorem State.flushTiles_keeps {r s : State} {q ps ts} (h : Keeps r s) :
    Keeps r (State.flushTiles s q ps ts).1 := by
  unfold State.flushTiles
  repeat' with_reducible first
    | assumption | intro _ | apply Keeps.foldl_fst | apply State.loadTile_keeps | apply State.retireFrags_keeps
    | apply State.spillTile_keeps | split

theorem State.resolve_keeps {r s : State} {x1 bpp bs} (h : Keeps r s) :
    Keeps r (State.resolve s x1 bpp bs).1 := by
  unfold State.resolve
  repeat' with_reducible first | assumption | apply Keeps.ite_fst | apply State.freeBytes_keeps

theorem State.storeAtt_keeps {r s : State} {src ps a t tile} (h : Keeps r s) :
    Keeps r (State.storeAtt s src ps a t tile).1 := by
  unfold State.storeAtt
  repeat' with_reducible first
    | assumption | intro _ | apply Keeps.foldl_fst | apply State.passWrite_keeps | apply State.putBit_keeps | apply State.resolve_keeps
    | split

theorem State.storeTile_keeps {r s : State} {src ps t drawn tiles} (h : Keeps r s) :
    Keeps r (State.storeTile s src ps t drawn tiles).1 := by
  unfold State.storeTile
  repeat' with_reducible first
    | assumption | intro _ | apply Keeps.ite_fst | apply Keeps.foldl_fst | apply State.storeAtt_keeps | apply State.flagged_keeps

theorem State.renderTile_keeps {r s : State} {q ps fs} (h : Keeps r s) :
    Keeps r (State.renderTile s q ps fs).1 := by
  unfold State.renderTile
  repeat' with_reducible first
    | assumption | apply Keeps.ite_fst | apply State.loadTile_keeps | apply State.retireFrags_keeps | apply State.storeTile_keeps

theorem State.gfxAct_keeps {r s : State} {q ps a} (h : Keeps r s) :
    Keeps r (State.gfxAct s q ps a).1 := by
  unfold State.gfxAct
  repeat' with_reducible first
    | assumption | apply State.shaderOp_keeps | apply State.renderTile_keeps | apply State.flushTiles_keeps | apply State.raise_keeps
    | split | simp only [Keeps.upd_iff]

theorem State.gfxActs_keeps {r s : State} {q ps held acts} (h : Keeps r s) :
    Keeps r (State.gfxActs s q ps held acts).1 := by
  unfold State.gfxActs
  repeat' with_reducible first | assumption | intro _ | apply Keeps.ite_fst | apply Keeps.foldl_fst | apply State.gfxAct_keeps

theorem State.renderRest_keeps {r s : State} {q ps acts} (h : Keeps r s) :
    Keeps r (State.renderRest s q ps acts).1 := by
  unfold State.renderRest
  repeat' with_reducible first
    | assumption | intro _ | apply Keeps.ite_fst | apply Keeps.foldl_fst | apply State.renderTile_keeps | apply State.gfxActs_keeps

theorem State.setGfx_keeps {r s : State} {q x} (h : Keeps r s) :
    Keeps r (State.setGfx s q x) := by
  unfold State.setGfx
  repeat' with_reducible first | assumption | simp only [Keeps.upd_iff]

theorem State.spoil_keeps {r s : State} {q ps} (h : Keeps r s) :
    Keeps r (State.spoil s q ps).1 := by
  unfold State.spoil
  repeat' with_reducible first
    | assumption | intro _ | apply Keeps.foldl_fst | apply State.freeBytes_keeps | apply State.storeAtt_keeps

theorem State.emptyTex_keeps {r s : State} (h : Keeps r s) :
    Keeps r (State.emptyTex s) := by
  unfold State.emptyTex
  repeat' with_reducible first | assumption | simp only [Keeps.upd_iff]

theorem State.fastClears_keeps {r s : State} {q ps} (h : Keeps r s) :
    Keeps r (State.fastClears s q ps).1 := by
  unfold State.fastClears
  repeat' with_reducible first | assumption | intro _ | apply Keeps.foldl_fst | apply State.fastClear_keeps

theorem State.gfxCheck_keeps {r s : State} {q} (h : Keeps r s) :
    Keeps r (State.gfxCheck s q) := by
  unfold State.gfxCheck
  repeat' with_reducible first
    | assumption | apply Keeps.ite | apply State.unitRead_keeps | apply State.setGfx_keeps | split | refine Keeps.of_fst (by assumption) ?_

theorem State.poolReturn_keeps {r s : State} {ctx x2} (h : Keeps r s) :
    Keeps r (State.poolReturn s ctx x2) := by
  unfold State.poolReturn
  repeat' with_reducible first | assumption | split | simp only [Keeps.upd_iff]

theorem State.resumeStopped_keeps {r s : State} (h : Keeps r s) :
    Keeps r (State.resumeStopped s) := by
  unfold State.resumeStopped
  repeat' with_reducible first | assumption | simp only [Keeps.upd_iff]

theorem State.passEnd_keeps {r s : State} {q ps res} (h : Keeps r s) :
    Keeps r (State.passEnd s q ps res) := by
  unfold State.passEnd
  repeat' with_reducible first
    | assumption | apply Keeps.ite | apply State.unitRead_keeps | apply State.unitWrite_keeps | apply State.poolReturn_keeps
    | apply State.setGfx_keeps | apply State.setFld_keeps | apply State.resumeStopped_keeps

theorem State.gfxStop_keeps {r s : State} {ctx} (h : Keeps r s) :
    Keeps r (State.gfxStop s ctx) := by
  unfold State.gfxStop
  repeat' with_reducible first
    | assumption | intro _ | apply Keeps.foldl | apply State.passEnd_keeps | split | simp only [Keeps.upd_iff]

theorem State.present_keeps {r s : State} {pr} (h : Keeps r s) :
    Keeps r (State.present s pr) := by
  unfold State.present
  repeat' with_reducible first | assumption | split | simp only [Keeps.upd_iff]

theorem State.withCtx_keeps {r s : State} {p ctx world k} (h : Keeps r s) (hk : ∀ y0, Keeps r y0 → Keeps r (k y0)) :
    Keeps r (State.withCtx s p ctx world k) := by
  unfold State.withCtx
  repeat' with_reducible first | assumption | apply Keeps.ite | apply State.complete_keeps | apply State.refuse_keeps | apply hk

theorem execGfxDoorbell_keeps {r s : State} {src q} (h : Keeps r s) :
    KeepsOut r (execGfxDoorbell src q s) := by
  unfold execGfxDoorbell
  repeat' with_reducible first
    | assumption | intro _ | apply KeepsOut.next | apply State.regCommand_keeps | apply State.gfxCheck_keeps

theorem State.countTx_keeps {r s : State} {p x2} (h : Keeps r s) :
    Keeps r (State.countTx s p x2) := by
  unfold State.countTx
  repeat' with_reducible first | assumption | apply State.count_keeps

theorem State.setWde_keeps {r s : State} {x} (h : Keeps r s) :
    Keeps r (State.setWde s x) := by
  unfold State.setWde
  repeat' with_reducible first | assumption | simp only [Keeps.upd_iff]

theorem State.joinFlit_keeps {r s : State} {p f} (h : Keeps r s) :
    Keeps r (State.joinFlit s p f) := by
  unfold State.joinFlit
  repeat' with_reducible first | assumption | apply Keeps.ite | apply State.setWde_keeps

theorem State.wdeRaise_keeps {r s : State} {bit port queue} (h : Keeps r s) :
    Keeps r (State.wdeRaise s bit port queue) := by
  unfold State.wdeRaise
  repeat' with_reducible first | assumption | apply State.raise_keeps

theorem State.msgLost_keeps {r s : State} {rq x2 port} (h : Keeps r s) :
    Keeps r (State.msgLost s rq x2 port) := by
  unfold State.msgLost
  repeat' with_reducible first | assumption | apply State.wdeRaise_keeps | apply State.count_keeps

theorem State.setWport_keeps {r s : State} {p x} (h : Keeps r s) :
    Keeps r (State.setWport s p x) := by
  unfold State.setWport
  repeat' with_reducible first | assumption | apply State.setWde_keeps

theorem State.setWsq_keeps {r s : State} {q x} (h : Keeps r s) :
    Keeps r (State.setWsq s q x) := by
  unfold State.setWsq
  repeat' with_reducible first | assumption | apply State.setWde_keeps

theorem State.sqEnd_keeps {r s : State} {q err} (h : Keeps r s) :
    Keeps r (State.sqEnd s q err) := by
  unfold State.sqEnd
  repeat' with_reducible first | assumption | apply State.setWsq_keeps | split

theorem State.setWflow_keeps {r s : State} {f x} (h : Keeps r s) :
    Keeps r (State.setWflow s f x) := by
  unfold State.setWflow
  repeat' with_reducible first | assumption | apply State.setWde_keeps | split

theorem State.sendFlits_keeps {r s : State} {f x2 sched vc} (h : Keeps r s) :
    Keeps r (State.sendFlits s f x2 sched vc).1 := by
  unfold State.sendFlits
  repeat' with_reducible first
    | assumption | intro _ | apply Keeps.foldl | apply State.setWflow_keeps | apply State.sqEnd_keeps | split

theorem State.sendUnscheduled_keeps {r s : State} {p x2 room} (h : Keeps r s) :
    Keeps r (State.sendUnscheduled s p x2 room).1 := by
  unfold State.sendUnscheduled
  repeat' with_reducible first
    | assumption | intro _ | apply Keeps.ite_fst | apply Keeps.foldl_fst | apply State.setWde_keeps | apply State.sendFlits_keeps | split

theorem State.portSlot_keeps {r s : State} {p j stamp back arrived} (h : Keeps r s) :
    Keeps r (State.portSlot s p j stamp back arrived) := by
  unfold State.portSlot
  repeat' with_reducible first
    | assumption | apply State.setWport_keeps | apply State.sendFlits_keeps | apply State.countTx_keeps | apply State.sendUnscheduled_keeps
    | split

theorem State.seqCheck_keeps {r s : State} {src flow seq} (h : Keeps r s) :
    Keeps r (State.seqCheck s src flow seq).1 := by
  unfold State.seqCheck
  repeat' with_reducible first | assumption | apply State.setWde_keeps

theorem State.seqSkip_keeps {r s : State} {src flow seq} (h : Keeps r s) :
    Keeps r (State.seqSkip s src flow seq) := by
  unfold State.seqSkip
  repeat' with_reducible first | assumption | apply Keeps.ite | apply State.setWde_keeps

theorem State.setWrq_keeps {r s : State} {q x} (h : Keeps r s) :
    Keeps r (State.setWrq s q x) := by
  unfold State.setWrq
  repeat' with_reducible first | assumption | apply State.setWde_keeps

theorem State.wdeEnqueue_keeps {r s : State} {f x data sq} (h : Keeps r s) :
    Keeps r (State.wdeEnqueue s f x data sq) := by
  unfold State.wdeEnqueue
  repeat' with_reducible first
    | assumption | apply State.setWflow_keeps | apply State.sqEnd_keeps | apply State.setWde_keeps | split

theorem State.sqTake_keeps {r x1 : State} {x0 x2} (h : Keeps r x1) :
    Keeps r (State.sqTake x0 x1 x2) := by
  induction x0 generalizing x1 x2 with
  | zero => exact h
  | succ n ih =>
    unfold State.sqTake
    repeat' with_reducible first
      | assumption | apply ih | apply State.setWsq_keeps | apply State.wdeEnqueue_keeps | apply State.unitRead_keeps
      | apply State.sqEnd_keeps | split | refine Keeps.of_fst (by assumption) ?_ | simp only [Keeps.upd_iff]

theorem State.sqCheck_keeps {r s : State} {q} (h : Keeps r s) :
    Keeps r (State.sqCheck s q) := by
  unfold State.sqCheck
  repeat' with_reducible first | assumption | apply State.sqTake_keeps | split

theorem State.wdeAccept_keeps {r s : State} {src dst rq f data} (h : Keeps r s) :
    KeepsSomeFst r (State.wdeAccept s src dst rq f data) := by
  unfold State.wdeAccept
  repeat' with_reducible first
    | assumption | apply KeepsSomeFst.none | apply KeepsSomeFst.some | apply State.wdeEnqueue_keeps | split

theorem State.restartWaits_keeps {r s : State} {p} (h : Keeps r s) :
    Keeps r (State.restartWaits s p) := by
  unfold State.restartWaits
  repeat' with_reducible first | assumption | apply State.setWde_keeps

theorem State.wportOff_keeps {r s : State} {p st} (h : Keeps r s) :
    Keeps r (State.wportOff s p st) := by
  unfold State.wportOff
  repeat' with_reducible first
    | assumption | apply State.setWport_keeps | apply State.restartWaits_keeps | apply State.setWde_keeps

theorem State.wportDown_keeps {r s : State} {p} (h : Keeps r s) :
    Keeps r (State.wportDown s p) := by
  unfold State.wportDown
  repeat' with_reducible first | assumption | apply State.wdeRaise_keeps | apply State.wportOff_keeps | apply State.count_keeps

theorem State.frameLost_keeps {r s : State} {p} (h : Keeps r s) :
    Keeps r (State.frameLost s p) := by
  unfold State.frameLost
  repeat' with_reducible first
    | assumption | apply State.setWport_keeps | apply State.wdeRaise_keeps | apply State.wportDown_keeps | apply State.count_keeps | split
    | simp only [Keeps.upd_iff]

theorem State.partnerLoss_keeps {r s : State} (h : Keeps r s) :
    Keeps r (State.partnerLoss s) := by
  unfold State.partnerLoss
  repeat' with_reducible first | assumption | apply Keeps.ite | apply State.wdeRaise_keeps | apply State.setWde_keeps

theorem State.heartbeatRound_keeps {r s : State} (h : Keeps r s) :
    Keeps r (State.heartbeatRound s) := by
  unfold State.heartbeatRound
  repeat' with_reducible first | assumption | apply Keeps.ite | apply State.setWde_keeps | apply State.partnerLoss_keeps

theorem State.linkCheck_keeps {r s : State} {p offset} (h : Keeps r s) :
    Keeps r (State.linkCheck s p offset) := by
  unfold State.linkCheck
  repeat' with_reducible first
    | assumption | apply Keeps.ite | apply State.setReg_keeps | apply State.setWport_keeps | apply State.wdeRaise_keeps

theorem State.rqWriteBack_keeps {r s : State} {q x d len err src m} (h : Keeps r s) :
    Keeps r (State.rqWriteBack s q x d len err src m) := by
  unfold State.rqWriteBack
  repeat' with_reducible first
    | assumption | apply State.unitWriteOk_keeps | apply State.setWrq_keeps | apply State.setFld_keeps | split
    | refine Keeps.of_fst (by assumption) ?_ | simp only [Keeps.upd_iff]

theorem State.rqDeliver_keeps {r s : State} {q src data m} (h : Keeps r s) :
    Keeps r (State.rqDeliver s q src data m) := by
  unfold State.rqDeliver
  repeat' with_reducible first
    | assumption | apply State.wdeRaise_keeps | apply State.count_keeps | apply State.unitRead_keeps | apply State.rqWriteBack_keeps
    | apply State.unitWriteOk_keeps | split | refine Keeps.of_fst (by assumption) ?_

theorem State.sortArrival_keeps {r s : State} {j a} (h : Keeps r s) :
    Keeps r (State.sortArrival s j a) := by
  unfold State.sortArrival
  repeat' with_reducible first | assumption | apply State.wdeRaise_keeps | apply State.setWde_keeps | split

theorem State.wdeStop_keeps {r s : State} {ctx} (h : Keeps r s) :
    Keeps r (State.wdeStop s ctx) := by
  unfold State.wdeStop
  repeat' with_reducible first | assumption | apply State.setWde_keeps

theorem execWoadeSqDoorbell_keeps {r s : State} {src q} (h : Keeps r s) :
    KeepsOut r (execWoadeSqDoorbell src q s) := by
  unfold execWoadeSqDoorbell
  repeat' with_reducible first
    | assumption | intro _ | apply KeepsOut.next | apply State.regCommand_keeps | apply State.sqCheck_keeps

theorem State.applyPlanes_keeps {r s : State} {o} (h : Keeps r s) :
    Keeps r (State.applyPlanes s o) := by
  unfold State.applyPlanes
  repeat' with_reducible first | assumption | intro _ | apply Keeps.ite | apply Keeps.foldl | simp only [Keeps.upd_iff]

theorem State.planeRow_keeps {r s : State} {src x2 img x4} (h : Keeps r s) :
    Keeps r (State.planeRow s src x2 img x4).1 := by
  unfold State.planeRow
  repeat' with_reducible first
    | assumption | intro _ | apply Keeps.foldl_fst | apply State.passRead_keeps | apply State.unitRead_keeps | split
    | refine Keeps.of_fst (by assumption) ?_ | simp only [Keeps.upd_iff]

theorem State.planeLine_keeps {r s : State} {o x x3} (h : Keeps r s) :
    Keeps r (State.planeLine s o x x3).1 := by
  unfold State.planeLine
  repeat' with_reducible first | assumption | apply Keeps.ite_fst | apply State.planeRow_keeps

theorem State.composeLine_keeps {r s : State} {o arrived x3} (h : Keeps r s) :
    Keeps r (State.composeLine s o arrived x3).1 := by
  unfold State.composeLine
  repeat' with_reducible first
    | assumption | intro _ | apply Keeps.foldl_fst | apply State.planeLine_keeps | split | refine Keeps.of_fst (by assumption) ?_
    | simp only [Keeps.upd_iff]

theorem State.setPlane_keeps {r s : State} {o k x} (h : Keeps r s) :
    Keeps r (State.setPlane s o k x) := by
  unfold State.setPlane
  repeat' with_reducible first | assumption | simp only [Keeps.upd_iff]

theorem State.latchPlane_keeps {r s : State} {o k} (h : Keeps r s) :
    Keeps r (State.latchPlane s o k) := by
  unfold State.latchPlane
  repeat' with_reducible first
    | assumption | apply State.count_keeps | apply State.setFld_keeps | apply State.unitRead_keeps | apply State.setPlane_keeps | split
    | refine Keeps.of_fst (by assumption) ?_ | simp only [Keeps.upd_iff]

theorem State.mediaStop_keeps {r s : State} {ctx} (h : Keeps r s) :
    Keeps r (State.mediaStop s ctx) := by
  unfold State.mediaStop
  repeat' with_reducible first | assumption | apply State.gfxStop_keeps | simp only [Keeps.upd_iff]

theorem State.setStream_keeps {r s : State} {sid x} (h : Keeps r s) :
    Keeps r (State.setStream s sid x) := by
  unfold State.setStream
  repeat' with_reducible first | assumption | simp only [Keeps.upd_iff]

theorem State.beginFrame_keeps {r s : State} {sid} (h : Keeps r s) :
    Keeps r (State.beginFrame s sid) := by
  unfold State.beginFrame
  repeat' with_reducible first
    | assumption | apply Keeps.ite | apply State.count_keeps | apply State.unitWriteOk_keeps | apply State.setStream_keeps | split

theorem State.writeLine_keeps {r s : State} {sid x f payload} (h : Keeps r s) :
    Keeps r (State.writeLine s sid x f payload).1 := by
  unfold State.writeLine
  repeat' with_reducible first | assumption | intro _ | apply Keeps.foldl_fst | apply State.unitWriteOk_keeps

theorem State.camRaise_keeps {r s : State} {sid bit} (h : Keeps r s) :
    Keeps r (State.camRaise s sid bit) := by
  unfold State.camRaise
  repeat' with_reducible first | assumption | apply State.raise_keeps

theorem State.camLine_keeps {r s : State} {sid dt payload crcOk room ispEcc} (h : Keeps r s) :
    Keeps r (State.camLine s sid dt payload crcOk room ispEcc) := by
  unfold State.camLine
  repeat' with_reducible first
    | assumption | apply State.setStream_keeps | apply State.raise_keeps | apply State.writeLine_keeps | apply State.camRaise_keeps
    | apply State.count_keeps | split

theorem State.endFrame_keeps {r s : State} {sid eof} (h : Keeps r s) :
    Keeps r (State.endFrame s sid eof) := by
  unfold State.endFrame
  repeat' with_reducible first | assumption | apply State.camRaise_keeps | apply State.setStream_keeps | split

theorem State.frameStart_keeps {r s : State} {x1 vc} (h : Keeps r s) :
    Keeps r (State.frameStart s x1 vc) := by
  unfold State.frameStart
  repeat' with_reducible first
    | assumption | intro _ | apply Keeps.ite | apply Keeps.foldl | apply State.internalEvent_keeps | apply State.cameraEvent_keeps
    | apply State.beginFrame_keeps | apply State.endFrame_keeps

theorem State.aplicTook_keeps {r s : State} {x1} (h : Keeps r s) :
    Keeps r (State.aplicTook s x1) := by
  unfold State.aplicTook
  repeat' with_reducible first | assumption | apply Keeps.ite | apply State.setTrig_keeps

theorem State.msiSet_keeps {r s : State} {world page eiid} (h : Keeps r s) :
    Keeps r (State.msiSet s world page eiid) := by
  unfold State.msiSet
  repeat' with_reducible first | assumption | simp only [Keeps.upd_iff]

theorem State.aplicLook_keeps {r s : State} {k x} (h : Keeps r s) :
    Keeps r (State.aplicLook s k x) := by
  unfold State.aplicLook
  repeat' with_reducible first
    | assumption | apply Keeps.ite | apply State.aplicTook_keeps | apply State.msiSet_keeps | simp only [Keeps.upd_iff]

theorem State.aplicTick_keeps {r s : State} (h : Keeps r s) :
    Keeps r (State.aplicTick s) := by
  unfold State.aplicTick
  repeat' with_reducible first | assumption | intro _ | apply Keeps.ite | apply Keeps.foldl | apply State.aplicLook_keeps

theorem State.msi_keeps {r s : State} {a data} (h : Keeps r s) :
    Keeps r (State.msi s a data) := by
  unfold State.msi
  repeat' with_reducible first | assumption | simp only [Keeps.upd_iff]

theorem State.pciDown_keeps {r s : State} (h : Keeps r s) :
    Keeps r (State.pciDown s) := by
  unfold State.pciDown
  repeat' with_reducible first
    | assumption | intro _ | apply Keeps.foldl | apply State.raise_keeps | apply State.setReg_keeps | apply State.pwFail_keeps
    | apply State.dropTx_keeps

theorem State.pciPop_keeps {r s : State} (h : Keeps r s) :
    Keeps r (State.pciPop s) := by
  unfold State.pciPop
  repeat' with_reducible first | assumption | apply State.unitWrite_keeps | split | simp only [Keeps.upd_iff]

theorem State.pciProgress_keeps {r s : State} (h : Keeps r s) :
    Keeps r (State.pciProgress s) := by
  unfold State.pciProgress
  repeat' with_reducible first | assumption | simp only [Keeps.upd_iff]

theorem State.pciDrain_keeps {r s : State} (h : Keeps r s) :
    Keeps r (State.pciDrain s) := by
  unfold State.pciDrain
  repeat' with_reducible first | assumption | apply State.pciPop_keeps | apply State.pciProgress_keeps | split

theorem State.pciLink_keeps {r s : State} {p action k} (h : Keeps r s) (hk : ∀ y0, Keeps r y0 → Keeps r (k y0)) :
    Keeps r (State.pciLink s p action k) := by
  unfold State.pciLink
  repeat' with_reducible first
    | assumption | intro _ | apply Keeps.ite | apply State.command_keeps | apply State.complete_keeps | apply State.ok_keeps | apply hk

theorem State.sendPci_keeps {r s : State} {isRead src a len data} (h : Keeps r s) :
    Keeps r (State.sendPci s isRead src a len data) := by
  unfold State.sendPci
  repeat' with_reducible first
    | assumption | apply State.cross_keeps | apply State.addTx_keeps | apply State.takeCredits_keeps | split
    | refine Keeps.of_some (by assumption) ?_

theorem State.pciOutbound_keeps {r s : State} {src a isRead len data reply} (h : Keeps r s) :
    Keeps r (State.pciOutbound s src a isRead len data reply) := by
  unfold State.pciOutbound
  repeat' with_reducible first
    | assumption | apply State.cross_keeps | apply State.sendPci_keeps | apply State.recordRefusal_keeps | apply State.deliver_keeps
    | apply State.pwFail_keeps | split

theorem State.canSetMode_keeps {r s : State} {c m} (h : Keeps r s) :
    Keeps r (State.canSetMode s c m).1 := by
  unfold State.canSetMode
  repeat' with_reducible first
    | assumption | apply Keeps.ite_fst | apply State.setFld_keeps | apply State.raise_keeps | apply State.setCan_keeps

theorem State.canCtrl_keeps {r s : State} {c v} (h : Keeps r s) :
    Keeps r (State.canCtrl s c v).1 := by
  unfold State.canCtrl
  repeat' with_reducible first | assumption | apply State.canSetMode_keeps | apply State.setFld_keeps

theorem State.canFree_keeps {r s : State} {c b dropped} (h : Keeps r s) :
    Keeps r (State.canFree s c b dropped) := by
  unfold State.canFree
  repeat' with_reducible first
    | assumption | apply State.setCan_keeps | apply State.txCopyEnds_keeps | split | simp only [Keeps.upd_iff]

theorem State.canRec_keeps {r s : State} {c errs} (h : Keeps r s) :
    Keeps r (State.canRec s c errs) := by
  unfold State.canRec
  repeat' with_reducible first
    | assumption | apply Keeps.ite | apply State.setCan_keeps | apply State.raise_keeps | apply State.freeWord_keeps

theorem State.canSet_keeps {r s : State} {p action k} (h : Keeps r s) (hk : ∀ y0 y1, Keeps r (k y0 y1)) :
    Keeps r (State.canSet s p action k) := by
  unfold State.canSet
  repeat' with_reducible first
    | assumption | intro _ | apply Keeps.ite | apply State.command_keeps | apply State.complete_keeps | apply hk

theorem State.canTiming_keeps {r s : State} {c off v} (h : Keeps r s) :
    Keeps r (State.canTiming s c off v) := by
  unfold State.canTiming
  repeat' with_reducible first | assumption | apply Keeps.ite | apply State.raise_keeps | apply State.setReg_keeps

theorem State.linCtrl_keeps {r s : State} {c v} (h : Keeps r s) :
    Keeps r (State.linCtrl s c v).1 := by
  unfold State.linCtrl
  repeat' with_reducible first | assumption | apply Keeps.ite_fst | apply State.setFld_keeps | apply State.raise_keeps

theorem State.linSet_keeps {r s : State} {p action k} (h : Keeps r s) (hk : ∀ y0 y1, Keeps r (k y0 y1)) :
    Keeps r (State.linSet s p action k) := by
  unfold State.linSet
  repeat' with_reducible first | assumption | intro _ | apply Keeps.ite | apply State.command_keeps | apply hk

theorem State.flowPlace_keeps {r s : State} {e} (h : Keeps r s) :
    KeepsSome r (State.flowPlace s e) := by
  unfold State.flowPlace
  repeat' with_reducible first | assumption | apply KeepsSome.none | apply KeepsSome.some | split | simp only [Keeps.upd_iff]

theorem State.flowPlaceAll_keeps {r x1 : State} {x0 x2} (h : Keeps r x1) :
    Keeps r (State.flowPlaceAll x0 x1 x2).1 := by
  induction x0 generalizing x1 x2 with
  | nil => exact h
  | cons y l ih =>
    unfold State.flowPlaceAll
    repeat' with_reducible first
      | assumption | apply ih | apply State.flowPlace_keeps | split | refine Keeps.of_some (by assumption) ?_

theorem State.qSendCan_keeps {r s : State} {i bs ctrl} (h : Keeps r s) :
    Keeps r (State.qSendCan s i bs ctrl) := by
  unfold State.qSendCan
  repeat' with_reducible first
    | assumption | apply State.setGwq_keeps | apply State.setCan_keeps | split | simp only [Keeps.upd_iff]

theorem State.qSendLin_keeps {r s : State} {i bs ctrl} (h : Keeps r s) :
    Keeps r (State.qSendLin s i bs ctrl) := by
  unfold State.qSendLin
  repeat' with_reducible first | assumption | apply Keeps.ite | apply State.setGwq_keeps | apply State.linPublish_keeps

theorem State.qSendEth_keeps {r s : State} {i bs ctrl} (h : Keeps r s) :
    Keeps r (State.qSendEth s i bs ctrl) := by
  unfold State.qSendEth
  repeat' with_reducible first
    | assumption | apply Keeps.ite | apply State.setGwq_keeps | apply State.swForward_keeps | apply State.count_keeps

theorem State.qCheck_keeps {r s : State} {i} (h : Keeps r s) :
    Keeps r (State.qCheck s i) := by
  unfold State.qCheck
  repeat' with_reducible first
    | assumption | apply Keeps.ite | apply State.unitRead_keeps | apply State.setGwq_keeps | apply State.qSendEth_keeps
    | apply State.qSendCan_keeps | apply State.qSendLin_keeps | split | refine Keeps.of_fst (by assumption) ?_

theorem State.swDeliver_keeps {r s : State} {p q f} (h : Keeps r s) :
    Keeps r (State.swDeliver s p q f) := by
  unfold State.swDeliver
  repeat' with_reducible first
    | assumption | apply Keeps.ite | apply State.qDeliver_keeps | apply State.framePdus_keeps | simp only [Keeps.upd_iff]

theorem State.withFlows_keeps {r s : State} {p op k} (h : Keeps r s) (hk : ∀ y0 y1, Keeps r y0 → Keeps r (k y0 y1)) :
    Keeps r (State.withFlows s p op k) := by
  unfold State.withFlows
  repeat' with_reducible first
    | assumption | intro _ | apply Keeps.ite | apply State.command_keeps | apply State.complete_keeps | apply State.fwRead_keeps | apply hk
    | split | refine Keeps.of_fst (by assumption) ?_

theorem execGwQueueDoorbell_keeps {r s : State} {src i} (h : Keeps r s) :
    KeepsOut r (execGwQueueDoorbell src i s) := by
  unfold execGwQueueDoorbell
  repeat' with_reducible first
    | assumption | intro _ | apply KeepsOut.next | apply State.regCommand_keeps | apply State.qCheck_keeps

theorem execMdioCommand_keeps {r s : State} {src v} (h : Keeps r s) :
    KeepsOut r (execMdioCommand src v s) := by
  unfold execMdioCommand
  repeat' with_reducible first
    | assumption | intro _ | apply Keeps.ite | apply KeepsOut.next | apply State.regCommand_keeps | apply State.guarded_keeps
    | apply State.setReg_keeps | simp only [Keeps.upd_iff]

theorem installRoutes_keeps {r s : State} {x1 x2} (h : Keeps r s) :
    Keeps r (installRoutes s x1 x2) := by
  induction x1 generalizing s x2 with
  | nil => exact h
  | cons y l ih =>
    unfold installRoutes
    repeat' with_reducible first | assumption | apply ih | simp only [Keeps.upd_iff]

end Sys2Proof.Machine
end

