-- ==== Sys2Proof/Laws/KeepsPackage.lean ====
section
/-! SUPPORT. Every operation of power, bring-up, safety, faults, security and management keeps the queue, the fixed data and the canonical form of memory. -/

namespace Sys2Proof.Machine

theorem State.setMcs_keeps {r s : State} {d v} (h : Keeps r s) :
    Keeps r (State.setMcs s d v) := by
  unfold State.setMcs
  repeat' with_reducible first | assumption | intro _ | apply Keeps.upTo | apply State.setFld_keeps

theorem State.calibrating_keeps {r s : State} {d} (h : Keeps r s) :
    Keeps r (State.calibrating s d) := by
  unfold State.calibrating
  repeat' with_reducible first | assumption | apply State.setMcs_keeps | split

theorem State.syncBudget_keeps {r s : State} (h : Keeps r s) :
    Keeps r (State.syncBudget s) := by
  unfold State.syncBudget
  repeat' with_reducible first | assumption | apply State.setFld_keeps

theorem State.reqResult_keeps {r s : State} {by_ code} (h : Keeps r s) :
    Keeps r (State.reqResult s by_ code) := by
  unfold State.reqResult
  repeat' with_reducible first | assumption | apply State.ok_keeps | apply State.refuse_keeps | apply State.setReg_keeps | split

theorem State.evalReq_keeps {r s : State} {x1} (h : Keeps r s) :
    Keeps r (State.evalReq s x1) := by
  unfold State.evalReq
  repeat' with_reducible first
    | assumption | apply Keeps.ite | apply State.calibrating_keeps | apply State.syncBudget_keeps | apply State.reqResult_keeps
    | simp only [Keeps.upd_iff]

theorem State.runQueue_keeps {r x1 : State} {x0} (h : Keeps r x1) :
    Keeps r (State.runQueue x0 x1) := by
  induction x0 generalizing x1 with
  | zero => exact h
  | succ n ih =>
    unfold State.runQueue
    repeat' with_reducible first | assumption | apply ih | apply State.evalReq_keeps | split | simp only [Keeps.upd_iff]

theorem State.advanceQueue_keeps {r s : State} (h : Keeps r s) :
    Keeps r (State.advanceQueue s) := by
  unfold State.advanceQueue
  repeat' with_reducible first | assumption | apply State.runQueue_keeps

theorem State.blotter_keeps {r s : State} {d silent} (h : Keeps r s) :
    Keeps r (State.blotter s d silent) := by
  unfold State.blotter
  repeat' with_reducible first
    | assumption | intro _ | apply Keeps.foldl | apply State.count_keeps | apply State.setReg_keeps | apply State.setFld_keeps | split

theorem State.drainDomain_keeps {r s : State} {d} (h : Keeps r s) :
    Keeps r (State.drainDomain s d) := by
  unfold State.drainDomain
  repeat' with_reducible first | assumption | intro _ | apply Keeps.foldl | apply State.endTx_keeps

theorem State.dropCounters_keeps {r s : State} {isPort die} (h : Keeps r s) :
    Keeps r (State.dropCounters s isPort die) := by
  unfold State.dropCounters
  repeat' with_reducible first | assumption | simp only [Keeps.upd_iff]

theorem State.dropLinks_keeps {r s : State} {d} (h : Keeps r s) :
    Keeps r (State.dropLinks s d) := by
  unfold State.dropLinks
  repeat' with_reducible first
    | assumption | intro _ | apply Keeps.foldl | apply State.revokeLink_keeps | apply State.setFld_keeps | split

theorem State.dropMemory_keeps {r s : State} {d} (h : Keeps r s) :
    Keeps r (State.dropMemory s d) := by
  unfold State.dropMemory
  repeat' with_reducible first | assumption | apply State.zero_keeps | split

theorem State.memReady_keeps {r s : State} {d} (h : Keeps r s) :
    Keeps r (State.memReady s d) := by
  unfold State.memReady
  repeat' with_reducible first | assumption | apply State.zero_keeps | apply State.setMcs_keeps

theorem State.portsTraining_keeps {r s : State} {d} (h : Keeps r s) :
    Keeps r (State.portsTraining s d) := by
  unfold State.portsTraining
  repeat' with_reducible first | assumption | intro _ | apply Keeps.ite | apply Keeps.foldl | apply State.setFld_keeps

theorem State.resetInterfaces_keeps {r s : State} {d} (h : Keeps r s) :
    Keeps r (State.resetInterfaces s d) := by
  unfold State.resetInterfaces
  repeat' with_reducible first
    | assumption | apply State.setWde_keeps | apply State.dropCounters_keeps | split | simp only [Keeps.upd_iff]

theorem State.resetVehicle_keeps {r s : State} {d} (h : Keeps r s) :
    Keeps r (State.resetVehicle s d) := by
  unfold State.resetVehicle
  repeat' with_reducible first
    | assumption | intro _ | apply Keeps.foldl | apply State.emptyCaches_keeps | apply State.emptyPair_keeps | apply State.setFp_keeps
    | apply State.setCpuPair_keeps | apply State.dropCounters_keeps | split | simp only [Keeps.upd_iff]

theorem State.resetDomain_keeps {r s : State} {d} (h : Keeps r s) :
    Keeps r (State.resetDomain s d) := by
  unfold State.resetDomain
  split
  · split
    · exact State.dropCounters_keeps h
    · split
      · exact State.dropCounters_keeps h
      · refine Keeps.upd (Keeps.foldl (fun t x ht => ?_) h)
        exact State.revokeChans_keeps (State.revokeLocks_keeps ht)
  · split
    · exact State.resetVehicle_keeps h
    · exact State.resetInterfaces_keeps h

theorem State.powerOff_keeps {r s : State} {d} (h : Keeps r s) :
    Keeps r (State.powerOff s d) := by
  unfold State.powerOff
  repeat' with_reducible first
    | assumption | apply Keeps.ite | apply State.resetDomain_keeps | apply State.dropLinks_keeps | apply State.drainDomain_keeps
    | apply State.dropMemory_keeps | apply State.syncBudget_keeps | simp only [Keeps.upd_iff]

theorem State.trainPorts_keeps {r s : State} {bad d} (h : Keeps r s) :
    Keeps r (State.trainPorts s bad d) := by
  unfold State.trainPorts
  repeat' with_reducible first | assumption | intro _ | apply Keeps.foldl | apply State.setFld_keeps | split

theorem State.powerUp_keeps {r s : State} {d} (h : Keeps r s) :
    Keeps r (State.powerUp s d) := by
  unfold State.powerUp
  repeat' with_reducible first
    | assumption | apply State.syncBudget_keeps | apply State.setCpuPair_keeps | apply State.releasePair_keeps | apply State.memReady_keeps
    | apply State.portsTraining_keeps | split | simp only [Keeps.upd_iff]

theorem State.powerOn_keeps {r s : State} {d} (h : Keeps r s) :
    Keeps r (State.powerOn s d) := by
  unfold State.powerOn
  repeat' with_reducible first | assumption | apply Keeps.ite | apply State.trainPorts_keeps | apply State.powerUp_keeps

theorem State.request_keeps {r s : State} {x1} (h : Keeps r s) :
    Keeps r (State.request s x1) := by
  unfold State.request
  repeat' with_reducible first | assumption | apply State.advanceQueue_keeps | simp only [Keeps.upd_iff]

theorem State.switchDone_keeps {r s : State} {e silent} (h : Keeps r s) :
    Keeps r (State.switchDone s e silent) := by
  unfold State.switchDone
  repeat' with_reducible first
    | assumption | apply State.blotter_keeps | apply State.powerOn_keeps | apply State.reqResult_keeps | apply State.raise_keeps
    | apply State.powerOff_keeps | apply State.advanceQueue_keeps | apply State.syncBudget_keeps | split | simp only [Keeps.upd_iff]

theorem State.wrongWorld_keeps {r s : State} (h : Keeps r s) :
    Keeps r (State.wrongWorld s) := by
  unfold State.wrongWorld
  repeat' with_reducible first | assumption | apply State.trace_keeps | apply State.raise_keeps | apply State.count_keeps

theorem State.blowDensity_keeps {r s : State} (h : Keeps r s) :
    Keeps r (State.blowDensity s) := by
  unfold State.blowDensity
  repeat' with_reducible first | assumption | apply Keeps.ite | simp only [Keeps.upd_iff]

theorem State.bootClock_keeps {r s : State} {us} (h : Keeps r s) :
    Keeps r (State.bootClock s us) := by
  unfold State.bootClock
  repeat' with_reducible first | assumption | simp only [Keeps.upd_iff]

theorem State.openControl_keeps {r s : State} {p} (h : Keeps r s) :
    Keeps r (State.openControl s p) := by
  unfold State.openControl
  repeat' with_reducible first | assumption | apply Keeps.ite | apply State.setRing_keeps | apply State.store_keeps

theorem State.bootFail_keeps {r s : State} {step code die} (h : Keeps r s) :
    Keeps r (State.bootFail s step code die) := by
  unfold State.bootFail
  repeat' with_reducible first
    | assumption | apply Keeps.ite | apply State.setReg_keeps | apply State.packageFail_keeps | apply State.raise_keeps
    | apply State.setFld_keeps | apply State.openControl_keeps

theorem State.serve8_keeps {r s : State} {cool} (h : Keeps r s) :
    Keeps r (State.serve8 s cool) := by
  unfold State.serve8
  repeat' with_reducible first | assumption | apply State.setPkg_keeps | apply State.setFld_keeps | apply State.openControl_keeps

theorem State.publish_keeps {r s : State} {whole} (h : Keeps r s) :
    Keeps r (State.publish s whole) := by
  unfold State.publish
  repeat' with_reducible first | assumption | apply State.store_keeps

theorem State.startFps_keeps {r s : State} (h : Keeps r s) :
    Keeps r (State.startFps s) := by
  unfold State.startFps
  repeat' with_reducible first
    | assumption | intro _ | apply Keeps.foldl | apply State.trace_keeps | apply State.payPulses_keeps | apply State.setFp_keeps

theorem State.writeDirectory_keeps {r s : State} (h : Keeps r s) :
    Keeps r (State.writeDirectory s) := by
  unfold State.writeDirectory
  repeat' with_reducible first | assumption | apply State.store_keeps

theorem State.setupLogs_keeps {r s : State} (h : Keeps r s) :
    Keeps r (State.setupLogs s) := by
  unfold State.setupLogs
  repeat' with_reducible first | assumption | apply State.setReg2_keeps | apply State.setReg_keeps

theorem State.calFail_keeps {r s : State} {f} (h : Keeps r s) :
    Keeps r (State.calFail s f) := by
  unfold State.calFail
  repeat' with_reducible first | assumption | apply Keeps.ite | apply State.setFld_keeps | apply State.raise_keeps

theorem State.bootWork_keeps {r s : State} {k doms fail} (h : Keeps r s) :
    Keeps r (State.bootWork s k doms fail) := by
  unfold State.bootWork
  repeat' with_reducible first
    | assumption | intro _ | apply Keeps.foldl | apply State.drawKey_keeps | apply State.calibrating_keeps | apply State.startFps_keeps
    | apply State.setWport_keeps | apply State.writeDirectory_keeps | apply State.setupLogs_keeps | apply State.calFail_keeps
    | apply State.blotter_keeps | apply State.trainPorts_keeps | apply State.powerUp_keeps | split | simp only [Keeps.upd_iff]

theorem State.tolidSteps_keeps {r s : State} {doms fail l} (h : Keeps r s) :
    Keeps r (State.tolidSteps doms fail l s) := by
  induction l generalizing s with
  | nil => exact State.serve8_keeps (State.publish_keeps (State.blowDensity_keeps h))
  | cons y l ih =>
    unfold State.tolidSteps; dsimp only
    split
    · exact State.bootFail_keeps (State.bootWork_keeps h)
    · exact ih (State.bootWork_keeps h)

theorem State.tolidStart_keeps {r s : State} {fail} (h : Keeps r s) :
    Keeps r (State.tolidStart s fail) := by
  unfold State.tolidStart
  repeat' with_reducible first | assumption | apply State.tolidSteps_keeps | simp only [Keeps.upd_iff]

theorem State.lateStart_keeps {r s : State} (h : Keeps r s) :
    Keeps r (State.lateStart s) := by
  unfold State.lateStart
  repeat' with_reducible first | assumption | apply State.tolidStart_keeps | split

theorem State.releaseListed_keeps {r s : State} (h : Keeps r s) :
    Keeps r (State.releaseListed s) := by
  unfold State.releaseListed
  repeat' with_reducible first | assumption | intro _ | apply Keeps.ite | apply Keeps.foldl | apply State.releasePair_keeps

theorem State.bootStep_keeps {r s : State} {k doms cool x4} (h : Keeps r s) :
    Keeps r (State.bootStep s k doms cool x4) := by
  unfold State.bootStep
  repeat' with_reducible first
    | assumption | apply State.setReg_keeps | apply State.serve8_keeps | apply State.blowDensity_keeps | apply State.lateStart_keeps
    | apply State.setFld_keeps | apply State.bootClock_keeps | apply State.releaseListed_keeps | apply State.publish_keeps
    | apply State.bootWork_keeps | apply State.bootFail_keeps | split | simp only [Keeps.upd_iff]

theorem State.bootSteps_keeps {r x3 : State} {cool x1 x2} (h : Keeps r x3) :
    Keeps r (State.bootSteps cool x1 x2 x3) := by
  induction x1 generalizing cool x2 x3 with
  | nil => exact h
  | cons y l ih =>
    unfold State.bootSteps
    repeat' with_reducible first
      | assumption | apply Keeps.ite | apply ih | apply State.setFld_keeps | apply State.bootStep_keeps | simp only [Keeps.upd_iff]

theorem State.allOff_keeps {r s : State} {doms} (h : Keeps r s) :
    Keeps r (State.allOff s doms) := by
  unfold State.allOff
  repeat' with_reducible first | assumption | apply Keeps.foldl | apply State.powerOff_keeps

theorem State.cancelSwitches_keeps {r s : State} {f code} (h : Keeps r s) :
    Keeps r (State.cancelSwitches s f code) := by
  unfold State.cancelSwitches
  repeat' with_reducible first
    | assumption | intro _ | apply Keeps.foldl | apply State.reqResult_keeps | simp only [Keeps.upd_iff]

theorem State.endAllWork_keeps {r s : State} (h : Keeps r s) :
    Keeps r (State.endAllWork s) := by
  unfold State.endAllWork
  repeat' with_reducible first
    | assumption | intro _ | apply Keeps.foldl | apply State.withdraw_keeps | apply State.setPkg_keeps | apply State.endJobs_keeps
    | apply State.disarmAll_keeps | apply State.postMailbox_keeps

theorem State.hardCut_keeps {r s : State} (h : Keeps r s) :
    Keeps r (State.hardCut s) := by
  unfold State.hardCut
  repeat' with_reducible first
    | assumption | apply Keeps.foldl | apply State.packageFail_keeps | apply State.setFld_keeps | apply State.powerOff_keeps
    | simp only [Keeps.upd_iff]

theorem State.powerDown_keeps {r s : State} {final} (h : Keeps r s) :
    Keeps r (State.powerDown s final) := by
  unfold State.powerDown
  repeat' with_reducible first
    | assumption | apply Keeps.foldl | apply State.haltPair_keeps | apply State.cancelSwitches_keeps | apply State.powerOff_keeps
    | apply State.syncBudget_keeps | apply State.setFld_keeps | apply State.setPkg_keeps | simp only [Keeps.upd_iff]

theorem State.idle_keeps {r s : State} (h : Keeps r s) :
    Keeps r (State.idle s) := by
  unfold State.idle
  repeat' with_reducible first
    | assumption | apply State.clockTick_keeps | apply State.aplicTick_keeps | apply State.pciDrain_keeps | apply State.setFld_keeps
    | apply State.powerDown_keeps | split | simp only [Keeps.upd_iff]

theorem State.powerLost_keeps {r s : State} (h : Keeps r s) :
    Keeps r (State.powerLost s) :=
  ⟨h.pending, h.fixed, fun _ => rfl⟩

theorem State.shedDomain_keeps {r s : State} {d} (h : Keeps r s) :
    Keeps r (State.shedDomain s d) := by
  unfold State.shedDomain
  repeat' with_reducible first
    | assumption | intro _ | apply Keeps.ite | apply Keeps.foldl | apply State.loseSource_keeps | apply State.trace_keeps
    | apply State.powerOff_keeps | apply State.cancelSwitches_keeps | simp only [Keeps.upd_iff]

theorem State.shedList_keeps {r x1 : State} {x0} (h : Keeps r x1) :
    Keeps r (State.shedList x0 x1) := by
  induction x0 generalizing x1 with
  | nil => exact h
  | cons y l ih =>
    unfold State.shedList
    repeat' with_reducible first | assumption | apply Keeps.ite | apply Keeps.foldl | apply ih | apply State.shedDomain_keeps

theorem State.shed_keeps {r s : State} (h : Keeps r s) :
    Keeps r (State.shed s) := by
  unfold State.shed
  repeat' with_reducible first
    | assumption | apply Keeps.ite | apply State.raise_keeps | apply State.syncBudget_keeps | apply State.shedList_keeps

theorem State.shutDown_keeps {r s : State} {k} (h : Keeps r s) :
    Keeps r (State.shutDown s k) :=
  Keeps.upd (Keeps.foldl (fun _ _ k => State.haltPair_keeps k) h)

theorem State.tolidOff_keeps {r s : State} {dies} (h : Keeps r s) :
    Keeps r (State.tolidOff s dies) := by
  unfold State.tolidOff
  repeat' with_reducible first
    | assumption | intro _ | apply Keeps.foldl | apply State.forceUnload_keeps | apply State.cancelSwitches_keeps | apply State.allOff_keeps

theorem State.tolidDrop_keeps {r s : State} {dies} (h : Keeps r s) :
    Keeps r (State.tolidDrop s dies) := by
  unfold State.tolidDrop
  repeat' with_reducible first
    | assumption | apply State.syncBudget_keeps | apply State.tolidOff_keeps | simp only [Keeps.upd_iff]

theorem State.toPartial_keeps {r s : State} {dies} (h : Keeps r s) :
    Keeps r (State.toPartial s dies) := by
  unfold State.toPartial
  repeat' with_reducible first
    | assumption | apply Keeps.ite | apply State.tolidDrop_keeps | apply State.setFld_keeps | apply State.syncBudget_keeps
    | apply State.publish_keeps | apply State.withdraw_keeps | apply State.setPkg_keeps | apply State.tolidOff_keeps

theorem State.thermDie_keeps {r s : State} {d t} (h : Keeps r s) :
    Keeps r (State.thermDie s d t) := by
  unfold State.thermDie
  repeat' with_reducible first
    | assumption | apply State.shutDown_keeps | apply State.toPartial_keeps | apply State.raise_keeps | apply State.endAllWork_keeps | split
    | simp only [Keeps.upd_iff]

theorem execPwrCapWrite_keeps {r s : State} {src v} (h : Keeps r s) :
    KeepsOut r (execPwrCapWrite src v s) := by
  unfold execPwrCapWrite
  repeat' with_reducible first
    | assumption | intro _ | apply Keeps.ite | apply KeepsOut.next | apply State.regCommand_keeps | apply State.guarded_keeps
    | apply State.ignoredWrite_keeps | apply State.setReg_keeps

theorem execPwrReq_keeps {r s : State} {src v} (h : Keeps r s) :
    KeepsOut r (execPwrReq src v s) := by
  unfold execPwrReq
  repeat' with_reducible first
    | assumption | intro _ | apply Keeps.ite | apply KeepsOut.next | apply State.regCommand_keeps | apply State.ignoredWrite_keeps
    | apply State.wrongWorld_keeps | apply State.request_keeps | apply State.setReg_keeps

theorem State.accmis_keeps {r s : State} {c} (h : Keeps r s) :
    Keeps r (State.accmis s c) := by
  unfold State.accmis
  repeat' with_reducible first | assumption | apply State.fwPulse_keeps | apply State.trace_keeps | simp only [Keeps.upd_iff]

theorem State.chkRaise_keeps {r s : State} {bit sl i} (h : Keeps r s) :
    Keeps r (State.chkRaise s bit sl i) := by
  unfold State.chkRaise
  repeat' with_reducible first | assumption | apply Keeps.ite | apply State.raise_keeps | simp only [Keeps.upd_iff]

theorem State.readList_keeps {r s : State} {a kind} (h : Keeps r s) :
    Keeps r (State.readList s a kind).1 := by
  unfold State.readList
  repeat' with_reducible first
    | assumption | apply Keeps.ite_fst | apply State.unitRead_keeps | split | refine Keeps.of_fst (by assumption) ?_

theorem State.compareLists_keeps {r s : State} {i x f} (h : Keeps r s) :
    Keeps r (State.compareLists s i x f).1 := by
  unfold State.compareLists
  repeat' with_reducible first
    | assumption | apply State.unitRead_keeps | apply State.chkRaise_keeps | apply State.readList_keeps | split
    | refine Keeps.of_fst (by assumption) ?_

theorem State.compareFrame_keeps {r s : State} {i x f} (h : Keeps r s) :
    Keeps r (State.compareFrame s i x f).1 := by
  unfold State.compareFrame
  repeat' with_reducible first | assumption | apply Keeps.ite_fst | apply State.compareLists_keeps

theorem State.setMon_keeps {r s : State} {m x} (h : Keeps r s) :
    Keeps r (State.setMon s m x) := by
  unfold State.setMon
  repeat' with_reducible first | assumption | simp only [Keeps.upd_iff]

theorem State.setPairing_keeps {r s : State} {i x} (h : Keeps r s) :
    Keeps r (State.setPairing s i x) := by
  unfold State.setPairing
  repeat' with_reducible first | assumption | simp only [Keeps.upd_iff]

theorem State.act_keeps {r s : State} {sc} (h : Keeps r s) :
    Keeps r (State.act s sc) := by
  unfold State.act
  repeat' with_reducible first
    | assumption | intro _ | apply Keeps.foldl | apply State.failPart_keeps | apply State.powerOff_keeps | apply State.haltPair_keeps
    | apply State.packageFail_keeps | split | simp only [Keeps.upd_iff]

theorem State.beginReset_keeps {r s : State} {pid pt by_} (h : Keeps r s) :
    Keeps r (State.beginReset s pid pt by_) := by
  unfold State.beginReset
  repeat' with_reducible first
    | assumption | intro _ | apply Keeps.ite | apply Keeps.foldl | apply State.setPart_keeps | apply State.endJobs_keeps
    | apply State.barClear_keeps | apply State.revokeChans_keeps | apply State.revokeLocks_keeps | simp only [Keeps.upd_iff]

theorem State.bitClear_keeps {r s : State} {b i bit} (h : Keeps r s) :
    Keeps r (State.bitClear s b i bit) := by
  unfold State.bitClear
  repeat' with_reducible first | assumption | apply State.setReg_keeps | simp only [Keeps.upd_iff]

theorem State.faultRecord_keeps {r s : State} {x1} (h : Keeps r s) :
    Keeps r (State.faultRecord s x1) := by
  unfold State.faultRecord
  repeat' with_reducible first
    | assumption | apply State.store_keeps | apply State.setReg_keeps | apply State.trace_keeps | simp only [Keeps.upd_iff]

theorem State.bitRecord_keeps {r s : State} {b i bit} (h : Keeps r s) :
    Keeps r (State.bitRecord s b i bit) := by
  unfold State.bitRecord
  repeat' with_reducible first | assumption | apply Keeps.ite | apply State.faultRecord_keeps | simp only [Keeps.upd_iff]

theorem State.countEvent_keeps {r s : State} {e} (h : Keeps r s) :
    Keeps r (State.countEvent s e) := by
  unfold State.countEvent
  repeat' with_reducible first
    | assumption | apply Keeps.ite | apply State.act_keeps | apply State.fwPulse_keeps | simp only [Keeps.upd_iff]

theorem State.leaseExp_keeps {r s : State} {b i} (h : Keeps r s) :
    Keeps r (State.leaseExp s b i) := by
  unfold State.leaseExp
  repeat' with_reducible first | assumption | apply State.fwPulse_keeps | simp only [Keeps.upd_iff]

theorem State.creditExpired_keeps {r s : State} {d p x} (h : Keeps r s) :
    Keeps r (State.creditExpired s d p x) := by
  unfold State.creditExpired
  repeat' with_reducible first
    | assumption | apply State.revoked_keeps | apply State.leaseExp_keeps | apply State.raise_keeps | apply State.endTx_keeps | split
    | simp only [Keeps.upd_iff]

theorem State.drainLog_keeps {r s : State} {d} (h : Keeps r s) :
    Keeps r (State.drainLog s d) := by
  unfold State.drainLog
  repeat' with_reducible first
    | assumption | intro _ | apply Keeps.ite | apply Keeps.foldl | apply State.pwlogPop_keeps | apply State.faultRecord_keeps
    | apply State.setFld_keeps

theorem State.endReset_keeps {r s : State} {pid pt} (h : Keeps r s) :
    Keeps r (State.endReset s pid pt) := by
  unfold State.endReset
  repeat' with_reducible first
    | assumption | intro _ | apply Keeps.foldl | apply State.loadCores_keeps | apply State.setPart_keeps | apply State.revokeChans_keeps
    | apply State.zero_keeps | apply State.installCode_keeps | apply State.endTx_keeps | apply State.revokeLocks_keeps
    | apply State.unstage_keeps

theorem State.holderFaulted_keeps {r s : State} {c} (h : Keeps r s) :
    Keeps r (State.holderFaulted s c) := by
  unfold State.holderFaulted
  repeat' with_reducible first
    | assumption | apply Keeps.ite | apply State.leaseExp_keeps | apply State.coreFailed_keeps | apply State.revokeChans_keeps
    | apply State.revokeLocks_keeps

theorem State.serviceBits_keeps {r s : State} {b i mask} (h : Keeps r s) :
    Keeps r (State.serviceBits s b i mask) := by
  unfold State.serviceBits
  repeat' with_reducible first
    | assumption | intro _ | apply Keeps.ite | apply Keeps.foldl | apply State.drainLog_keeps | apply State.bitRecord_keeps
    | apply State.bitClear_keeps | apply State.setReg_keeps

theorem execFltPulse_keeps {r s : State} {src v} (h : Keeps r s) :
    KeepsOut r (execFltPulse src v s) := by
  unfold execFltPulse
  repeat' with_reducible first
    | assumption | intro _ | apply Keeps.ite | apply KeepsOut.next | apply State.regCommand_keeps | apply State.ignoredWrite_keeps
    | apply State.pulse_keeps

theorem State.discardTx_keeps {r s : State} {t} (h : Keeps r s) :
    Keeps r (State.discardTx s t) := by
  unfold State.discardTx
  repeat' with_reducible first | assumption | apply State.recordRefusal_keeps | simp only [Keeps.upd_iff]

theorem State.scrub_keeps {r s : State} {x1} (h : Keeps r s) :
    Keeps r (State.scrub s x1) := by
  unfold State.scrub
  repeat' with_reducible first | assumption | apply State.serve_keeps | apply State.invalidate_keeps | apply State.zero_keeps

theorem State.advanceGen_keeps {r s : State} {ctx} (h : Keeps r s) :
    Keeps r (State.advanceGen s ctx) := by
  unfold State.advanceGen
  repeat' with_reducible first
    | assumption | intro _ | apply Keeps.ite | apply Keeps.foldl | apply State.drawKey_keeps | apply State.zero_keeps
    | apply State.discardTx_keeps | apply State.scrub_keeps | simp only [Keeps.upd_iff]

theorem State.closeRings_keeps {r s : State} {ctx} (h : Keeps r s) :
    Keeps r (State.closeRings s ctx) := by
  unfold State.closeRings
  repeat' with_reducible first
    | assumption | intro _ | apply Keeps.ite | apply Keeps.foldl | apply State.closeRing_keeps | apply State.setRing_keeps

theorem State.gwStop_keeps {r s : State} {ctx} (h : Keeps r s) :
    Keeps r (State.gwStop s ctx) := by
  unfold State.gwStop
  repeat' with_reducible first | assumption | simp only [Keeps.upd_iff]

theorem State.fenceCtx_keeps {r s : State} {ctx} (h : Keeps r s) :
    Keeps r (State.fenceCtx s ctx) := by
  unfold State.fenceCtx
  repeat' with_reducible first
    | assumption | intro _ | apply Keeps.foldl | apply State.forceUnload_keeps | apply State.gwStop_keeps | apply State.wdeStop_keeps
    | apply State.mediaStop_keeps | apply State.closeRings_keeps | split | simp only [Keeps.upd_iff]

theorem State.placePlain_keeps {r s : State} {dest bs x3} (h : Keeps r s) :
    Keeps r (State.placePlain s dest bs x3).1 := by
  unfold State.placePlain
  repeat' with_reducible first | assumption | intro _ | apply Keeps.foldl_fst | apply State.fwWrite_keeps

theorem State.withSecCtx_keeps {r s : State} {p ctx k} (h : Keeps r s) (hk : ∀ y0, Keeps r y0 → Keeps r (k y0)) :
    Keeps r (State.withSecCtx s p ctx k) := by
  unfold State.withSecCtx
  repeat' with_reducible first | assumption | apply Keeps.ite | apply State.refuse_keeps | apply State.complete_keeps | apply hk

theorem State.authFail_keeps {r s : State} (h : Keeps r s) :
    Keeps r (State.authFail s) := by
  unfold State.authFail
  repeat' with_reducible first
    | assumption | apply Keeps.ite | apply State.raise_keeps | apply State.count_keeps | simp only [Keeps.upd_iff]

theorem State.dropMgmt_keeps {r s : State} {id} (h : Keeps r s) :
    Keeps r (State.dropMgmt s id) := by
  unfold State.dropMgmt
  repeat' with_reducible first | assumption | simp only [Keeps.upd_iff]

theorem State.mgmtSend_keeps {r s : State} {q bytes} (h : Keeps r s) :
    Keeps r (State.mgmtSend s q bytes) := by
  unfold State.mgmtSend
  repeat' with_reducible first | assumption | simp only [Keeps.upd_iff]

theorem State.putMgmt_keeps {r s : State} {x} (h : Keeps r s) :
    Keeps r (State.putMgmt s x) := by
  unfold State.putMgmt
  repeat' with_reducible first | assumption | simp only [Keeps.upd_iff]

theorem State.mgmtRequest_keeps {r s : State} {q op k} (h : Keeps r s) (hk : ∀ y0 y1 y2, Keeps r y2 → Keeps r (k y0 y1 y2).1) :
    Keeps r (State.mgmtRequest s q op k) := by
  unfold State.mgmtRequest
  repeat' with_reducible first
    | assumption | apply State.putMgmt_keeps | apply State.mgmtSend_keeps | apply hk | split | simp only [Keeps.upd_iff]

end Sys2Proof.Machine
end

