-- ==== Sys2Proof/Laws/KeepsRegisters.lean ====
section
/-! SUPPORT. Every operation of register access, the bus, and bulk transfers keeps the queue, the fixed data and the canonical form of memory. -/

namespace Sys2Proof.Machine

theorem State.clearStalls_keeps {r s : State} {c off} (h : Keeps r s) :
    Keeps r (State.clearStalls s c off) := by
  unfold State.clearStalls
  repeat' with_reducible first | assumption | apply Keeps.ite | apply State.setCore_keeps | simp only [Keeps.upd_iff]

theorem State.readEffect_keeps {r s : State} {k} (h : Keeps r s) :
    Keeps r (State.readEffect s k) := by
  unfold State.readEffect
  repeat' with_reducible first
    | assumption | apply State.setReg_keeps | apply State.clearStalls_keeps | apply State.setCore_keeps | split | simp only [Keeps.upd_iff]

theorem State.readReg_keeps {r s : State} {k} (h : Keeps r s) :
    Keeps r (State.readReg s k).1 := by
  unfold State.readReg
  repeat' with_reducible first | assumption | apply State.readEffect_keeps

theorem State.startChain_keeps {r s : State} {c ch line} (h : Keeps r s) :
    Keeps r (State.startChain s c ch line) := by
  unfold State.startChain
  repeat' with_reducible first | assumption | apply State.chanAcquire_keeps | apply State.modChan_keeps

theorem State.dmaGo_keeps {r s : State} {c ch} (h : Keeps r s) :
    Keeps r (State.dmaGo s c ch) := by
  unfold State.dmaGo
  repeat' with_reducible first | assumption | apply Keeps.ite | apply State.startChain_keeps

theorem State.dmaStop_keeps {r s : State} {c ch} (h : Keeps r s) :
    Keeps r (State.dmaStop s c ch) := by
  unfold State.dmaStop
  repeat' with_reducible first | assumption | apply Keeps.ite | apply State.modChan_keeps | apply State.chanRelease_keeps

theorem State.writePerst_keeps {r s : State} {assert} (h : Keeps r s) :
    Keeps r (State.writePerst s assert) := by
  unfold State.writePerst
  repeat' with_reducible first | assumption | apply Keeps.ite | apply State.setFld_keeps | apply State.pciDown_keeps

theorem State.ctrlOther_keeps {r s : State} {k v} (h : Keeps r s) :
    Keeps r (State.ctrlOther s k v) := by
  unfold State.ctrlOther
  repeat' with_reducible first
    | assumption | apply Keeps.ite | apply State.haltRequest_keeps | apply State.haltClear_keeps | apply State.expertStep_keeps
    | apply State.expertStart_keeps | apply State.pairEnable_keeps | apply State.canCtrl_keeps | apply State.linCtrl_keeps
    | apply State.writePerst_keeps | split

theorem State.forgetBits_keeps {r s : State} {k old} (h : Keeps r s) :
    Keeps r (State.forgetBits s k old) := by
  unfold State.forgetBits
  repeat' with_reducible first | assumption | apply Keeps.ite | simp only [Keeps.upd_iff]

theorem State.tuGuarded_keeps {r s : State} {src guard would f} (h : Keeps r s) (hk : ∀ y0, Keeps r y0 → Keeps r (f y0)) :
    Keeps r (State.tuGuarded s src guard would f) := by
  unfold State.tuGuarded
  repeat' with_reducible first | assumption | apply Keeps.ite | apply State.ignoredWrite_keeps | apply State.guarded_keeps

theorem State.writeFields_keeps {r s : State} {k may v} (h : Keeps r s) :
    Keeps r (State.writeFields s k may v) := by
  unfold State.writeFields
  repeat' with_reducible first
    | assumption | apply Keeps.ite | apply State.forgetBits_keeps | apply State.setReg_keeps | apply State.ignoredWrite_keeps

theorem State.writeGuarded_keeps {r s : State} {src k guard v} (h : Keeps r s) :
    Keeps r (State.writeGuarded s src k guard v) := by
  unfold State.writeGuarded
  repeat' with_reducible first | assumption | apply State.writeFields_keeps

theorem State.writeArb_keeps {r s : State} {src k v} (h : Keeps r s) :
    Keeps r (State.writeArb s src k v) := by
  unfold State.writeArb
  repeat' with_reducible first
    | assumption | intro _ | apply Keeps.ite | apply State.writeGuarded_keeps | apply State.ignoredWrite_keeps | apply State.guarded_keeps
    | simp only [Keeps.upd_iff]

theorem runOut_keeps {r s : State} {o} (h : KeepsOut r o) :
    Keeps r (runOut o s) := outState_keeps h

theorem State.writeCad_keeps {r s : State} {src k v} (h : Keeps r s) :
    Keeps r (State.writeCad s src k v) := by
  unfold State.writeCad
  repeat' with_reducible first
    | assumption | apply Keeps.ite | apply runOut_keeps | apply execCadAbort_keeps | apply State.writeGuarded_keeps

theorem State.writeCam_keeps {r s : State} {src k v} (h : Keeps r s) :
    Keeps r (State.writeCam s src k v) := by
  unfold State.writeCam
  repeat' with_reducible first | assumption | apply State.writeGuarded_keeps

theorem State.writeCan_keeps {r s : State} {src k v} (h : Keeps r s) :
    Keeps r (State.writeCan s src k v) := by
  unfold State.writeCan
  repeat' with_reducible first
    | assumption | intro _ | apply Keeps.ite | apply State.guarded_keeps | apply State.canTiming_keeps | apply State.writeGuarded_keeps

theorem State.writeCpu_keeps {r s : State} {src k v} (h : Keeps r s) :
    Keeps r (State.writeCpu s src k v) := by
  unfold State.writeCpu
  repeat' with_reducible first
    | assumption | intro _ | apply Keeps.ite | apply runOut_keeps | apply execCpuPairStop_keeps | apply execCpuPairStart_keeps
    | apply State.guarded_keeps | apply State.setReg_keeps | apply State.writeGuarded_keeps | split

theorem State.writeCtrl_keeps {r s : State} {src k v} (h : Keeps r s) :
    Keeps r (State.writeCtrl s src k v) := by
  unfold State.writeCtrl
  repeat' with_reducible first
    | assumption | apply Keeps.ite | apply State.ctrlOther_keeps | apply State.setFld_keeps | apply State.ignoredWrite_keeps

theorem State.writeDomCtrl_keeps {r s : State} {d v} (h : Keeps r s) :
    Keeps r (State.writeDomCtrl s d v) := by
  unfold State.writeDomCtrl
  repeat' with_reducible first
    | assumption | apply Keeps.ite | apply State.domEnable_keeps | apply State.setFld_keeps | apply State.refuseDom_keeps

theorem State.writeDsp_keeps {r s : State} {src k v} (h : Keeps r s) :
    Keeps r (State.writeDsp s src k v) := by
  unfold State.writeDsp
  repeat' with_reducible first
    | assumption | apply Keeps.ite | apply State.writeGuarded_keeps | apply State.ignoredWrite_keeps | apply State.setReg_keeps
    | apply State.raise_keeps | simp only [Keeps.upd_iff]

theorem State.writeFlt_keeps {r s : State} {src k v} (h : Keeps r s) :
    Keeps r (State.writeFlt s src k v) := by
  unfold State.writeFlt
  repeat' with_reducible first
    | assumption | apply Keeps.ite | apply runOut_keeps | apply execFltPulse_keeps | apply State.writeGuarded_keeps

theorem State.writeFw_keeps {r s : State} {src k v} (h : Keeps r s) :
    Keeps r (State.writeFw s src k v) := by
  unfold State.writeFw
  repeat' with_reducible first
    | assumption | apply runOut_keeps | apply execWatchdogKick_keeps | apply execFpRestart_keeps | apply execDoorbell_keeps
    | apply execMcWatchdogKick_keeps | apply State.writeGuarded_keeps | split

theorem State.writeGfx_keeps {r s : State} {src k v} (h : Keeps r s) :
    Keeps r (State.writeGfx s src k v) := by
  unfold State.writeGfx
  repeat' with_reducible first
    | assumption | apply runOut_keeps | apply execGfxDoorbell_keeps | apply State.writeGuarded_keeps | split

theorem State.writeGw_keeps {r s : State} {src k v} (h : Keeps r s) :
    Keeps r (State.writeGw s src k v) := by
  unfold State.writeGw
  repeat' with_reducible first
    | assumption | apply runOut_keeps | apply execGwQueueDoorbell_keeps | apply State.writeGuarded_keeps | split

theorem State.writePci_keeps {r s : State} {src k v} (h : Keeps r s) :
    Keeps r (State.writePci s src k v) := by
  unfold State.writePci
  repeat' with_reducible first | assumption | apply State.writeGuarded_keeps

theorem State.writePwr_keeps {r s : State} {src k v} (h : Keeps r s) :
    Keeps r (State.writePwr s src k v) := by
  unfold State.writePwr
  repeat' with_reducible first
    | assumption | apply Keeps.ite | apply runOut_keeps | apply execPwrCapWrite_keeps | apply execPwrReq_keeps
    | apply State.writeGuarded_keeps

theorem State.writeSealed_keeps {r s : State} {src k sealed_ v} (h : Keeps r s) :
    Keeps r (State.writeSealed s src k sealed_ v) := by
  unfold State.writeSealed
  repeat' with_reducible first | assumption | apply Keeps.ite | apply State.ignoredWrite_keeps | apply State.writeGuarded_keeps

theorem State.writeTc_keeps {r s : State} {src k v} (h : Keeps r s) :
    Keeps r (State.writeTc s src k v) := by
  unfold State.writeTc
  repeat' with_reducible first
    | assumption | intro _ | apply State.guarded_keeps | apply State.dmaStop_keeps | apply State.dmaGo_keeps | apply State.modChan_keeps
    | apply State.sigCheck_keeps | apply State.setSig_keeps | apply State.writeGuarded_keeps | split

theorem State.writeWde_keeps {r s : State} {src k v} (h : Keeps r s) :
    Keeps r (State.writeWde s src k v) := by
  unfold State.writeWde
  repeat' with_reducible first
    | assumption | apply runOut_keeps | apply execWoadeSqDoorbell_keeps | apply State.writeGuarded_keeps | split

theorem State.writeSw_keeps {r s : State} {src k v} (h : Keeps r s) :
    Keeps r (State.writeSw s src k v) := by
  unfold State.writeSw
  repeat' with_reducible first
    | assumption | apply runOut_keeps | apply execMdioCommand_keeps | apply State.writeGuarded_keeps | split

theorem State.writeTu_keeps {r s : State} {src k v} (h : Keeps r s) :
    Keeps r (State.writeTu s src k v) := by
  unfold State.writeTu
  repeat' with_reducible first
    | assumption | intro _ | apply State.tuGuarded_keeps | apply State.writeDomCtrl_keeps | apply State.setReg_keeps
    | apply State.domStep_keeps | apply State.domLoad_keeps | apply State.domSlew_keeps | apply State.writeTrig_keeps
    | apply State.writeGuarded_keeps | apply State.setTrig_keeps | apply State.writeCap_keeps | apply State.setCap_keeps
    | apply State.capPop_keeps | split | simp only [Keeps.upd_iff]

theorem State.writeWhl_keeps {r s : State} {src k v} (h : Keeps r s) :
    Keeps r (State.writeWhl s src k v) := by
  unfold State.writeWhl
  repeat' with_reducible first
    | assumption | apply runOut_keeps | apply execWheelEnable_keeps | apply State.writeGuarded_keeps | split

theorem State.writeReg_keeps {r s : State} {src k v} (h : Keeps r s) :
    Keeps r (State.writeReg s src k v) := by
  unfold State.writeReg
  repeat' with_reducible first
    | assumption | apply State.writeCtrl_keeps | apply State.writeTc_keeps | apply State.writeArb_keeps | apply State.pwlogPop_keeps
    | apply State.writeGuarded_keeps | apply State.writeTu_keeps | apply State.writeWhl_keeps | apply State.writeCad_keeps
    | apply State.writeFw_keeps | apply State.writePwr_keeps | apply State.writeSealed_keeps | apply State.writeFlt_keeps
    | apply State.writeCpu_keeps | apply State.writeCan_keeps | apply State.writeSw_keeps | apply State.writeGw_keeps
    | apply State.writePci_keeps | apply State.writeCam_keeps | apply State.writeGfx_keeps | apply State.writeDsp_keeps
    | apply State.writeWde_keeps | split

theorem State.accessFault_keeps {r s : State} {x1 a} (h : Keeps r s) :
    Keeps r (State.accessFault s x1 a) := by
  unfold State.accessFault
  repeat' with_reducible first | assumption | apply State.setHart_keeps

theorem State.ctxBlocked_keeps {r s : State} {x1 a} (h : Keeps r s) :
    Keeps r (State.ctxBlocked s x1 a) := by
  unfold State.ctxBlocked
  repeat' with_reducible first | assumption | apply State.accessFault_keeps | apply State.raise_keeps

theorem State.bridge_keeps {r s : State} {src a f} (h : Keeps r s) (hk : ∀ y0, Keeps r y0 → Keeps r (f y0)) :
    Keeps r (State.bridge s src a f) := by
  unfold State.bridge
  repeat' with_reducible first | assumption | apply State.ctxBlocked_keeps | apply hk | split

theorem State.readAt_keeps {r s : State} {src a x3} (h : Keeps r s) :
    Keeps r (State.readAt s src a x3).1 := by
  unfold State.readAt
  repeat' with_reducible first
    | assumption | apply State.recordRefusal_keeps | apply State.readReg_keeps | apply State.serve_keeps | apply State.landRead_keeps
    | split | refine Keeps.of_fst (by assumption) ?_

theorem State.issueRead_keeps {r s : State} {src a x3 reply} (h : Keeps r s) :
    KeepsSome r (State.issueRead s src a x3 reply) := by
  unfold State.issueRead
  repeat' with_reducible first
    | assumption | apply KeepsSome.none | apply KeepsSome.some | apply KeepsSome.ite | apply State.cross_keeps | apply State.readAt_keeps
    | apply State.addTx_keeps | apply State.takeCredits_keeps | apply State.pciOutbound_keeps | apply State.deliver_keeps | split
    | refine Keeps.of_some (by assumption) ?_

theorem State.writeAt_keeps {r s : State} {src a bs} (h : Keeps r s) :
    Keeps r (State.writeAt s src a bs).1 := by
  unfold State.writeAt
  repeat' with_reducible first
    | assumption | apply State.recordRefusal_keeps | apply State.writeReg_keeps | apply State.serve_keeps | apply State.landWrite_keeps
    | split

theorem State.issueWrite_keeps {r s : State} {src a bs chan} (h : Keeps r s) :
    KeepsSome r (State.issueWrite s src a bs chan) := by
  unfold State.issueWrite
  repeat' with_reducible first
    | assumption | apply KeepsSome.none | apply KeepsSome.some | apply KeepsSome.ite | apply State.cross_keeps
    | apply State.accessFault_keeps | apply State.addTx_keeps | apply State.writeAt_keeps | apply State.takeCredits_keeps
    | apply State.pciOutbound_keeps | apply State.pwFail_keeps | split | refine Keeps.of_fst (by assumption) ?_
    | refine Keeps.of_some (by assumption) ?_

theorem State.postWrite_keeps {r s : State} {src a bs} (h : Keeps r s) :
    Keeps r (State.postWrite s src a bs) := by
  unfold State.postWrite
  repeat' with_reducible first
    | assumption | intro _ | apply Keeps.getD | apply State.bridge_keeps | apply State.accessFault_keeps | apply State.recordRefusal_keeps
    | apply State.issueWrite_keeps | split

theorem State.readReq_keeps {r s : State} {src a x3 reply} (h : Keeps r s) :
    Keeps r (State.readReq s src a x3 reply) := by
  unfold State.readReq
  repeat' with_reducible first | assumption | intro _ | apply Keeps.getD | apply State.bridge_keeps | apply State.issueRead_keeps

theorem State.statusWords_keeps {r x3 : State} {world plain x2 x4} (h : Keeps r x3) :
    Keeps r (State.statusWords world plain x2 x3 x4).1 := by
  induction x2 generalizing world plain x3 x4 with
  | zero => exact h
  | succ n ih =>
    unfold State.statusWords
    repeat' with_reducible first
      | assumption | apply ih | apply State.readEffect_keeps | apply State.recordRefusal_keeps | split
      | refine Keeps.of_fst (by assumption) ?_

theorem State.beatDone_keeps {r s : State} {c ch x3} (h : Keeps r s) :
    Keeps r (State.beatDone s c ch x3) := by
  unfold State.beatDone
  repeat' with_reducible first | assumption | apply State.chanRenew_keeps | apply State.modChan_keeps

theorem State.sendMessage_keeps {r s : State} {c ch d data} (h : Keeps r s) :
    KeepsSome r (State.sendMessage s c ch d data) := by
  unfold State.sendMessage
  repeat' with_reducible first
    | assumption | apply KeepsSome.none | apply KeepsSome.some | apply KeepsSome.ite | apply State.cross_keeps | apply State.wdeAccept_keeps
    | apply State.addTx_keeps | apply State.takeCredits_keeps | apply State.freeWord_keeps | split | refine Keeps.of_some (by assumption) ?_
    | refine Keeps.of_some_pair (by assumption) ?_

theorem State.beatWrite_keeps {r s : State} {c ch d a data} (h : Keeps r s) :
    KeepsSome r (State.beatWrite s c ch d a data) := by
  unfold State.beatWrite
  repeat' with_reducible first
    | assumption | intro _ | apply KeepsSome.ite | apply KeepsSome.mapState | apply State.sendMessage_keeps | apply State.issueWrite_keeps
    | simp only [Keeps.upd_iff]

theorem State.beatData_keeps {r s : State} {c ch d a data} (h : Keeps r s) :
    Keeps r (State.beatData s c ch d a data) := by
  unfold State.beatData
  repeat' with_reducible first
    | assumption | apply State.beatWrite_keeps | apply State.beatDone_keeps | apply State.modChan_keeps | split
    | refine Keeps.of_some (by assumption) ?_

theorem State.beatRead_keeps {r s : State} {c ch d k ep} (h : Keeps r s) :
    KeepsSome r (State.beatRead s c ch d k ep) := by
  unfold State.beatRead
  repeat' with_reducible first
    | assumption | intro _ | apply KeepsSome.none | apply KeepsSome.some | apply KeepsSome.mapState | apply State.issueRead_keeps
    | apply State.readAt_keeps | apply State.beatData_keeps | apply State.unitExc_keeps | apply State.chanError_keeps | split
    | refine Keeps.of_fst (by assumption) ?_ | simp only [Keeps.upd_iff]

theorem State.beat_keeps {r s : State} {c ch ep} (h : Keeps r s) :
    KeepsSome r (State.beat s c ch ep) := by
  unfold State.beat
  repeat' with_reducible first
    | assumption | intro _ | apply KeepsSome.none | apply KeepsSome.ite | apply KeepsSome.mapState | apply State.beatDone_keeps
    | apply State.beatWrite_keeps | apply State.modChan_keeps | apply State.beatRead_keeps | split

theorem State.chanData_keeps {r s : State} {t} (h : Keeps r s) :
    Keeps r (State.chanData s t) := by
  unfold State.chanData
  repeat' with_reducible first | assumption | apply Keeps.ite | apply State.chanError_keeps | apply State.beatData_keeps | split

theorem State.chanSignalled_keeps {r s : State} {c ch} (h : Keeps r s) :
    Keeps r (State.chanSignalled s c ch) := by
  unfold State.chanSignalled
  repeat' with_reducible first | assumption | simp only [Keeps.upd_iff]

theorem State.descError_keeps {r s : State} {c ch line unread} (h : Keeps r s) :
    Keeps r (State.descError s c ch line unread) := by
  unfold State.descError
  repeat' with_reducible first
    | assumption | apply Keeps.ite | apply State.raise_keeps | apply State.chanError_keeps | apply State.unitExc_keeps

theorem State.endDesc_keeps {r s : State} {c ch} (h : Keeps r s) :
    Keeps r (State.endDesc s c ch) := by
  unfold State.endDesc
  repeat' with_reducible first
    | assumption | apply Keeps.ite | apply State.chanRelease_keeps | apply State.modChan_keeps | apply State.chanSignalled_keeps
    | apply State.sigAdd_keeps

theorem State.pump_keeps {r x4 : State} {c ch ep x3} (h : Keeps r x4) :
    Keeps r (State.pump c ch ep x3 x4) := by
  induction x3 generalizing c ch ep x4 with
  | zero => exact h
  | succ n ih =>
    unfold State.pump
    repeat' with_reducible first | assumption | apply ih | apply State.beat_keeps | split | refine Keeps.of_some (by assumption) ?_

theorem State.pumpChan_keeps {r s : State} {c ch ep} (h : Keeps r s) :
    Keeps r (State.pumpChan s c ch ep) := by
  unfold State.pumpChan
  repeat' with_reducible first | assumption | apply State.pump_keeps

theorem State.launchDesc_keeps {r s : State} {c ch d ep} (h : Keeps r s) :
    Keeps r (State.launchDesc s c ch d ep) := by
  unfold State.launchDesc
  repeat' with_reducible first
    | assumption | apply State.modChan_keeps | apply State.pumpChan_keeps | apply State.putCore_keeps | apply State.chanRenew_keeps

theorem State.pumpAll_keeps {r s : State} (h : Keeps r s) :
    Keeps r (State.pumpAll s) := by
  unfold State.pumpAll
  repeat' with_reducible first | assumption | intro _ | apply Keeps.ite | apply Keeps.foldl | apply State.pumpChan_keeps

end Sys2Proof.Machine
end

