-- ==== Sys2Proof/Laws/Maps.lean ====
section
/-! SUPPORT. Laws of the sparse maps: what is read after a change of one key. -/

namespace Sys2Proof

variable {κ α : Type} [DecidableEq κ]

@[simp] theorem AMap.get_set_same (m : AMap κ α) (k : κ) (v d : α) : (m.set k v).get k d = v := by
  induction m with
  | nil => simp [AMap.set, AMap.get]
  | cons e t ih => by_cases h : e.1 = k <;> simp [AMap.set, AMap.get, h, ih]

@[simp] theorem AMap.get_set_other (m : AMap κ α) {k j : κ} (v d : α) (h : j ≠ k) : (m.set k v).get j d = m.get j d := by
  induction m with
  | nil => simp [AMap.set, AMap.get, h.symm]
  | cons e t ih => grind [AMap.set, AMap.get]

@[simp] theorem AMap.get?_set_same (m : AMap κ α) (k : κ) (v : α) : (m.set k v).get? k = some v := by
  induction m with
  | nil => simp [AMap.set, AMap.get?]
  | cons e t ih => by_cases h : e.1 = k <;> simp [AMap.set, AMap.get?, h, ih]

@[simp] theorem AMap.get?_set_other (m : AMap κ α) {k j : κ} (v : α) (h : j ≠ k) : (m.set k v).get? j = m.get? j := by
  induction m with
  | nil => simp [AMap.set, AMap.get?, h.symm]
  | cons e t ih => grind [AMap.set, AMap.get?]

@[simp] theorem AMap.get?_erase_same (m : AMap κ α) (k : κ) : (m.erase k).get? k = none := by
  induction m with
  | nil => rfl
  | cons e t ih => grind [AMap.erase, AMap.get?]

@[simp] theorem AMap.get?_erase_other (m : AMap κ α) {k j : κ} (h : j ≠ k) : (m.erase k).get? j = m.get? j := by
  induction m with
  | nil => rfl
  | cons e t ih => grind [AMap.erase, AMap.get?]

theorem AMap.get_eq (m : AMap κ α) (k : κ) (d : α) : m.get k d = (m.get? k).getD d := by
  induction m with
  | nil => rfl
  | cons e t ih => grind [AMap.get, AMap.get?]

end Sys2Proof
end

