-- ==== Sys2Proof/Laws/State.lean ====
section
/-! SUPPORT. What each update of one part of the state leaves as it was, and what is read after it. -/

namespace Sys2Proof.Machine

/-! `setReg` -/

@[simp] theorem State.setReg_pending (s : State) (b : Blk) (i off : Nat) (v : Word) : (s.setReg b i off v).pending = s.pending := rfl
@[simp] theorem State.setReg_mem (s : State) (b : Blk) (i off : Nat) (v : Word) : (s.setReg b i off v).mem = s.mem := rfl
@[simp] theorem State.setReg_regs (s : State) (b : Blk) (i off : Nat) (v : Word) : (s.setReg b i off v).regs = s.regs.set ⟨b, i, off⟩ v := rfl
@[simp] theorem State.setReg_fixed (s : State) (b : Blk) (i off : Nat) (v : Word) : (s.setReg b i off v).fixed = s.fixed := rfl
@[simp] theorem State.setReg_fab (s : State) (b : Blk) (i off : Nat) (v : Word) : (s.setReg b i off v).fab = s.fab := rfl
@[simp] theorem State.setReg_cores (s : State) (b : Blk) (i off : Nat) (v : Word) : (s.setReg b i off v).cores = s.cores := rfl
@[simp] theorem State.setReg_bars (s : State) (b : Blk) (i off : Nat) (v : Word) : (s.setReg b i off v).bars = s.bars := rfl
@[simp] theorem State.setReg_time (s : State) (b : Blk) (i off : Nat) (v : Word) : (s.setReg b i off v).time = s.time := rfl
@[simp] theorem State.setReg_sched (s : State) (b : Blk) (i off : Nat) (v : Word) : (s.setReg b i off v).sched = s.sched := rfl
@[simp] theorem State.setReg_fw (s : State) (b : Blk) (i off : Nat) (v : Word) : (s.setReg b i off v).fw = s.fw := rfl
@[simp] theorem State.setReg_flt (s : State) (b : Blk) (i off : Nat) (v : Word) : (s.setReg b i off v).flt = s.flt := rfl
@[simp] theorem State.setReg_sec (s : State) (b : Blk) (i off : Nat) (v : Word) : (s.setReg b i off v).sec = s.sec := rfl
@[simp] theorem State.setReg_pwr (s : State) (b : Blk) (i off : Nat) (v : Word) : (s.setReg b i off v).pwr = s.pwr := rfl
@[simp] theorem State.setReg_chk (s : State) (b : Blk) (i off : Nat) (v : Word) : (s.setReg b i off v).chk = s.chk := rfl
@[simp] theorem State.setReg_cpu (s : State) (b : Blk) (i off : Nat) (v : Word) : (s.setReg b i off v).cpu = s.cpu := rfl
@[simp] theorem State.setReg_gw (s : State) (b : Blk) (i off : Nat) (v : Word) : (s.setReg b i off v).gw = s.gw := rfl
@[simp] theorem State.setReg_media (s : State) (b : Blk) (i off : Nat) (v : Word) : (s.setReg b i off v).media = s.media := rfl
@[simp] theorem State.setReg_wde (s : State) (b : Blk) (i off : Nat) (v : Word) : (s.setReg b i off v).wde = s.wde := rfl
@[simp] theorem State.setReg_on (s : State) (b : Blk) (i off : Nat) (v : Word) : (s.setReg b i off v).on = s.on := rfl
@[simp] theorem State.setReg_busy (s : State) (b : Blk) (i off : Nat) (v : Word) : (s.setReg b i off v).busy = s.busy := rfl
@[simp] theorem State.setReg_gated (s : State) (b : Blk) (i off : Nat) (v : Word) : (s.setReg b i off v).gated = s.gated := rfl
@[simp] theorem State.setReg_freeCtr (s : State) (b : Blk) (i off : Nat) (v : Word) : (s.setReg b i off v).freeCtr = s.freeCtr := rfl

/-! `setFld` -/

@[simp] theorem State.setFld_pending (s : State) (b : Blk) (i off hi lo v : Nat) : (s.setFld b i off hi lo v).pending = s.pending := rfl
@[simp] theorem State.setFld_mem (s : State) (b : Blk) (i off hi lo v : Nat) : (s.setFld b i off hi lo v).mem = s.mem := rfl
@[simp] theorem State.setFld_fixed (s : State) (b : Blk) (i off hi lo v : Nat) : (s.setFld b i off hi lo v).fixed = s.fixed := rfl
@[simp] theorem State.setFld_fab (s : State) (b : Blk) (i off hi lo v : Nat) : (s.setFld b i off hi lo v).fab = s.fab := rfl
@[simp] theorem State.setFld_cores (s : State) (b : Blk) (i off hi lo v : Nat) : (s.setFld b i off hi lo v).cores = s.cores := rfl
@[simp] theorem State.setFld_bars (s : State) (b : Blk) (i off hi lo v : Nat) : (s.setFld b i off hi lo v).bars = s.bars := rfl
@[simp] theorem State.setFld_time (s : State) (b : Blk) (i off hi lo v : Nat) : (s.setFld b i off hi lo v).time = s.time := rfl
@[simp] theorem State.setFld_sched (s : State) (b : Blk) (i off hi lo v : Nat) : (s.setFld b i off hi lo v).sched = s.sched := rfl
@[simp] theorem State.setFld_fw (s : State) (b : Blk) (i off hi lo v : Nat) : (s.setFld b i off hi lo v).fw = s.fw := rfl
@[simp] theorem State.setFld_flt (s : State) (b : Blk) (i off hi lo v : Nat) : (s.setFld b i off hi lo v).flt = s.flt := rfl
@[simp] theorem State.setFld_sec (s : State) (b : Blk) (i off hi lo v : Nat) : (s.setFld b i off hi lo v).sec = s.sec := rfl
@[simp] theorem State.setFld_pwr (s : State) (b : Blk) (i off hi lo v : Nat) : (s.setFld b i off hi lo v).pwr = s.pwr := rfl
@[simp] theorem State.setFld_chk (s : State) (b : Blk) (i off hi lo v : Nat) : (s.setFld b i off hi lo v).chk = s.chk := rfl
@[simp] theorem State.setFld_cpu (s : State) (b : Blk) (i off hi lo v : Nat) : (s.setFld b i off hi lo v).cpu = s.cpu := rfl
@[simp] theorem State.setFld_gw (s : State) (b : Blk) (i off hi lo v : Nat) : (s.setFld b i off hi lo v).gw = s.gw := rfl
@[simp] theorem State.setFld_media (s : State) (b : Blk) (i off hi lo v : Nat) : (s.setFld b i off hi lo v).media = s.media := rfl
@[simp] theorem State.setFld_wde (s : State) (b : Blk) (i off hi lo v : Nat) : (s.setFld b i off hi lo v).wde = s.wde := rfl
@[simp] theorem State.setFld_on (s : State) (b : Blk) (i off hi lo v : Nat) : (s.setFld b i off hi lo v).on = s.on := rfl
@[simp] theorem State.setFld_busy (s : State) (b : Blk) (i off hi lo v : Nat) : (s.setFld b i off hi lo v).busy = s.busy := rfl
@[simp] theorem State.setFld_gated (s : State) (b : Blk) (i off hi lo v : Nat) : (s.setFld b i off hi lo v).gated = s.gated := rfl
@[simp] theorem State.setFld_freeCtr (s : State) (b : Blk) (i off hi lo v : Nat) : (s.setFld b i off hi lo v).freeCtr = s.freeCtr := rfl

/-! `setCore` -/

@[simp] theorem State.setCore_pending (s : State) (c : CoreId) (x : CoreState) : (s.setCore c x).pending = s.pending := rfl
@[simp] theorem State.setCore_mem (s : State) (c : CoreId) (x : CoreState) : (s.setCore c x).mem = s.mem := rfl
@[simp] theorem State.setCore_regs (s : State) (c : CoreId) (x : CoreState) : (s.setCore c x).regs = s.regs := rfl
@[simp] theorem State.setCore_fixed (s : State) (c : CoreId) (x : CoreState) : (s.setCore c x).fixed = s.fixed := rfl
@[simp] theorem State.setCore_fab (s : State) (c : CoreId) (x : CoreState) : (s.setCore c x).fab = s.fab := rfl
@[simp] theorem State.setCore_bars (s : State) (c : CoreId) (x : CoreState) : (s.setCore c x).bars = s.bars := rfl
@[simp] theorem State.setCore_time (s : State) (c : CoreId) (x : CoreState) : (s.setCore c x).time = s.time := rfl
@[simp] theorem State.setCore_sched (s : State) (c : CoreId) (x : CoreState) : (s.setCore c x).sched = s.sched := rfl
@[simp] theorem State.setCore_fw (s : State) (c : CoreId) (x : CoreState) : (s.setCore c x).fw = s.fw := rfl
@[simp] theorem State.setCore_flt (s : State) (c : CoreId) (x : CoreState) : (s.setCore c x).flt = s.flt := rfl
@[simp] theorem State.setCore_sec (s : State) (c : CoreId) (x : CoreState) : (s.setCore c x).sec = s.sec := rfl
@[simp] theorem State.setCore_pwr (s : State) (c : CoreId) (x : CoreState) : (s.setCore c x).pwr = s.pwr := rfl
@[simp] theorem State.setCore_chk (s : State) (c : CoreId) (x : CoreState) : (s.setCore c x).chk = s.chk := rfl
@[simp] theorem State.setCore_cpu (s : State) (c : CoreId) (x : CoreState) : (s.setCore c x).cpu = s.cpu := rfl
@[simp] theorem State.setCore_gw (s : State) (c : CoreId) (x : CoreState) : (s.setCore c x).gw = s.gw := rfl
@[simp] theorem State.setCore_media (s : State) (c : CoreId) (x : CoreState) : (s.setCore c x).media = s.media := rfl
@[simp] theorem State.setCore_wde (s : State) (c : CoreId) (x : CoreState) : (s.setCore c x).wde = s.wde := rfl
@[simp] theorem State.setCore_on (s : State) (c : CoreId) (x : CoreState) : (s.setCore c x).on = s.on := rfl
@[simp] theorem State.setCore_busy (s : State) (c : CoreId) (x : CoreState) : (s.setCore c x).busy = s.busy := rfl
@[simp] theorem State.setCore_gated (s : State) (c : CoreId) (x : CoreState) : (s.setCore c x).gated = s.gated := rfl
@[simp] theorem State.setCore_freeCtr (s : State) (c : CoreId) (x : CoreState) : (s.setCore c x).freeCtr = s.freeCtr := rfl

/-! `setWheel` -/

@[simp] theorem State.setWheel_pending (s : State) (w : Fin 4) (x : Wheel) : (s.setWheel w x).pending = s.pending := rfl
@[simp] theorem State.setWheel_mem (s : State) (w : Fin 4) (x : Wheel) : (s.setWheel w x).mem = s.mem := rfl
@[simp] theorem State.setWheel_regs (s : State) (w : Fin 4) (x : Wheel) : (s.setWheel w x).regs = s.regs := rfl
@[simp] theorem State.setWheel_fixed (s : State) (w : Fin 4) (x : Wheel) : (s.setWheel w x).fixed = s.fixed := rfl
@[simp] theorem State.setWheel_fab (s : State) (w : Fin 4) (x : Wheel) : (s.setWheel w x).fab = s.fab := rfl
@[simp] theorem State.setWheel_cores (s : State) (w : Fin 4) (x : Wheel) : (s.setWheel w x).cores = s.cores := rfl
@[simp] theorem State.setWheel_bars (s : State) (w : Fin 4) (x : Wheel) : (s.setWheel w x).bars = s.bars := rfl
@[simp] theorem State.setWheel_time (s : State) (w : Fin 4) (x : Wheel) : (s.setWheel w x).time = s.time := rfl
@[simp] theorem State.setWheel_fw (s : State) (w : Fin 4) (x : Wheel) : (s.setWheel w x).fw = s.fw := rfl
@[simp] theorem State.setWheel_flt (s : State) (w : Fin 4) (x : Wheel) : (s.setWheel w x).flt = s.flt := rfl
@[simp] theorem State.setWheel_sec (s : State) (w : Fin 4) (x : Wheel) : (s.setWheel w x).sec = s.sec := rfl
@[simp] theorem State.setWheel_pwr (s : State) (w : Fin 4) (x : Wheel) : (s.setWheel w x).pwr = s.pwr := rfl
@[simp] theorem State.setWheel_chk (s : State) (w : Fin 4) (x : Wheel) : (s.setWheel w x).chk = s.chk := rfl
@[simp] theorem State.setWheel_cpu (s : State) (w : Fin 4) (x : Wheel) : (s.setWheel w x).cpu = s.cpu := rfl
@[simp] theorem State.setWheel_gw (s : State) (w : Fin 4) (x : Wheel) : (s.setWheel w x).gw = s.gw := rfl
@[simp] theorem State.setWheel_media (s : State) (w : Fin 4) (x : Wheel) : (s.setWheel w x).media = s.media := rfl
@[simp] theorem State.setWheel_wde (s : State) (w : Fin 4) (x : Wheel) : (s.setWheel w x).wde = s.wde := rfl
@[simp] theorem State.setWheel_on (s : State) (w : Fin 4) (x : Wheel) : (s.setWheel w x).on = s.on := rfl
@[simp] theorem State.setWheel_busy (s : State) (w : Fin 4) (x : Wheel) : (s.setWheel w x).busy = s.busy := rfl
@[simp] theorem State.setWheel_gated (s : State) (w : Fin 4) (x : Wheel) : (s.setWheel w x).gated = s.gated := rfl
@[simp] theorem State.setWheel_freeCtr (s : State) (w : Fin 4) (x : Wheel) : (s.setWheel w x).freeCtr = s.freeCtr := rfl

/-! `setPart` -/

@[simp] theorem State.setPart_pending (s : State) (p : Fin 32) (x : Part) : (s.setPart p x).pending = s.pending := rfl
@[simp] theorem State.setPart_mem (s : State) (p : Fin 32) (x : Part) : (s.setPart p x).mem = s.mem := rfl
@[simp] theorem State.setPart_regs (s : State) (p : Fin 32) (x : Part) : (s.setPart p x).regs = s.regs := rfl
@[simp] theorem State.setPart_fixed (s : State) (p : Fin 32) (x : Part) : (s.setPart p x).fixed = s.fixed := rfl
@[simp] theorem State.setPart_fab (s : State) (p : Fin 32) (x : Part) : (s.setPart p x).fab = s.fab := rfl
@[simp] theorem State.setPart_cores (s : State) (p : Fin 32) (x : Part) : (s.setPart p x).cores = s.cores := rfl
@[simp] theorem State.setPart_bars (s : State) (p : Fin 32) (x : Part) : (s.setPart p x).bars = s.bars := rfl
@[simp] theorem State.setPart_time (s : State) (p : Fin 32) (x : Part) : (s.setPart p x).time = s.time := rfl
@[simp] theorem State.setPart_fw (s : State) (p : Fin 32) (x : Part) : (s.setPart p x).fw = s.fw := rfl
@[simp] theorem State.setPart_flt (s : State) (p : Fin 32) (x : Part) : (s.setPart p x).flt = s.flt := rfl
@[simp] theorem State.setPart_sec (s : State) (p : Fin 32) (x : Part) : (s.setPart p x).sec = s.sec := rfl
@[simp] theorem State.setPart_pwr (s : State) (p : Fin 32) (x : Part) : (s.setPart p x).pwr = s.pwr := rfl
@[simp] theorem State.setPart_chk (s : State) (p : Fin 32) (x : Part) : (s.setPart p x).chk = s.chk := rfl
@[simp] theorem State.setPart_cpu (s : State) (p : Fin 32) (x : Part) : (s.setPart p x).cpu = s.cpu := rfl
@[simp] theorem State.setPart_gw (s : State) (p : Fin 32) (x : Part) : (s.setPart p x).gw = s.gw := rfl
@[simp] theorem State.setPart_media (s : State) (p : Fin 32) (x : Part) : (s.setPart p x).media = s.media := rfl
@[simp] theorem State.setPart_wde (s : State) (p : Fin 32) (x : Part) : (s.setPart p x).wde = s.wde := rfl
@[simp] theorem State.setPart_on (s : State) (p : Fin 32) (x : Part) : (s.setPart p x).on = s.on := rfl
@[simp] theorem State.setPart_busy (s : State) (p : Fin 32) (x : Part) : (s.setPart p x).busy = s.busy := rfl
@[simp] theorem State.setPart_gated (s : State) (p : Fin 32) (x : Part) : (s.setPart p x).gated = s.gated := rfl
@[simp] theorem State.setPart_freeCtr (s : State) (p : Fin 32) (x : Part) : (s.setPart p x).freeCtr = s.freeCtr := rfl

/-! `setJob` -/

@[simp] theorem State.setJob_pending (s : State) (x : Job) : (s.setJob x).pending = s.pending := rfl
@[simp] theorem State.setJob_mem (s : State) (x : Job) : (s.setJob x).mem = s.mem := rfl
@[simp] theorem State.setJob_regs (s : State) (x : Job) : (s.setJob x).regs = s.regs := rfl
@[simp] theorem State.setJob_fixed (s : State) (x : Job) : (s.setJob x).fixed = s.fixed := rfl
@[simp] theorem State.setJob_fab (s : State) (x : Job) : (s.setJob x).fab = s.fab := rfl
@[simp] theorem State.setJob_cores (s : State) (x : Job) : (s.setJob x).cores = s.cores := rfl
@[simp] theorem State.setJob_bars (s : State) (x : Job) : (s.setJob x).bars = s.bars := rfl
@[simp] theorem State.setJob_time (s : State) (x : Job) : (s.setJob x).time = s.time := rfl
@[simp] theorem State.setJob_fw (s : State) (x : Job) : (s.setJob x).fw = s.fw := rfl
@[simp] theorem State.setJob_flt (s : State) (x : Job) : (s.setJob x).flt = s.flt := rfl
@[simp] theorem State.setJob_sec (s : State) (x : Job) : (s.setJob x).sec = s.sec := rfl
@[simp] theorem State.setJob_pwr (s : State) (x : Job) : (s.setJob x).pwr = s.pwr := rfl
@[simp] theorem State.setJob_chk (s : State) (x : Job) : (s.setJob x).chk = s.chk := rfl
@[simp] theorem State.setJob_cpu (s : State) (x : Job) : (s.setJob x).cpu = s.cpu := rfl
@[simp] theorem State.setJob_gw (s : State) (x : Job) : (s.setJob x).gw = s.gw := rfl
@[simp] theorem State.setJob_media (s : State) (x : Job) : (s.setJob x).media = s.media := rfl
@[simp] theorem State.setJob_wde (s : State) (x : Job) : (s.setJob x).wde = s.wde := rfl
@[simp] theorem State.setJob_on (s : State) (x : Job) : (s.setJob x).on = s.on := rfl
@[simp] theorem State.setJob_busy (s : State) (x : Job) : (s.setJob x).busy = s.busy := rfl
@[simp] theorem State.setJob_gated (s : State) (x : Job) : (s.setJob x).gated = s.gated := rfl
@[simp] theorem State.setJob_freeCtr (s : State) (x : Job) : (s.setJob x).freeCtr = s.freeCtr := rfl

/-! `setGwq` -/

@[simp] theorem State.setGwq_pending (s : State) (i : Fin 32) (x : GwQueue) : (s.setGwq i x).pending = s.pending := rfl
@[simp] theorem State.setGwq_mem (s : State) (i : Fin 32) (x : GwQueue) : (s.setGwq i x).mem = s.mem := rfl
@[simp] theorem State.setGwq_regs (s : State) (i : Fin 32) (x : GwQueue) : (s.setGwq i x).regs = s.regs := rfl
@[simp] theorem State.setGwq_fixed (s : State) (i : Fin 32) (x : GwQueue) : (s.setGwq i x).fixed = s.fixed := rfl
@[simp] theorem State.setGwq_fab (s : State) (i : Fin 32) (x : GwQueue) : (s.setGwq i x).fab = s.fab := rfl
@[simp] theorem State.setGwq_cores (s : State) (i : Fin 32) (x : GwQueue) : (s.setGwq i x).cores = s.cores := rfl
@[simp] theorem State.setGwq_bars (s : State) (i : Fin 32) (x : GwQueue) : (s.setGwq i x).bars = s.bars := rfl
@[simp] theorem State.setGwq_time (s : State) (i : Fin 32) (x : GwQueue) : (s.setGwq i x).time = s.time := rfl
@[simp] theorem State.setGwq_sched (s : State) (i : Fin 32) (x : GwQueue) : (s.setGwq i x).sched = s.sched := rfl
@[simp] theorem State.setGwq_fw (s : State) (i : Fin 32) (x : GwQueue) : (s.setGwq i x).fw = s.fw := rfl
@[simp] theorem State.setGwq_flt (s : State) (i : Fin 32) (x : GwQueue) : (s.setGwq i x).flt = s.flt := rfl
@[simp] theorem State.setGwq_sec (s : State) (i : Fin 32) (x : GwQueue) : (s.setGwq i x).sec = s.sec := rfl
@[simp] theorem State.setGwq_pwr (s : State) (i : Fin 32) (x : GwQueue) : (s.setGwq i x).pwr = s.pwr := rfl
@[simp] theorem State.setGwq_chk (s : State) (i : Fin 32) (x : GwQueue) : (s.setGwq i x).chk = s.chk := rfl
@[simp] theorem State.setGwq_cpu (s : State) (i : Fin 32) (x : GwQueue) : (s.setGwq i x).cpu = s.cpu := rfl
@[simp] theorem State.setGwq_media (s : State) (i : Fin 32) (x : GwQueue) : (s.setGwq i x).media = s.media := rfl
@[simp] theorem State.setGwq_wde (s : State) (i : Fin 32) (x : GwQueue) : (s.setGwq i x).wde = s.wde := rfl
@[simp] theorem State.setGwq_on (s : State) (i : Fin 32) (x : GwQueue) : (s.setGwq i x).on = s.on := rfl
@[simp] theorem State.setGwq_busy (s : State) (i : Fin 32) (x : GwQueue) : (s.setGwq i x).busy = s.busy := rfl
@[simp] theorem State.setGwq_gated (s : State) (i : Fin 32) (x : GwQueue) : (s.setGwq i x).gated = s.gated := rfl
@[simp] theorem State.setGwq_freeCtr (s : State) (i : Fin 32) (x : GwQueue) : (s.setGwq i x).freeCtr = s.freeCtr := rfl

/-! `setPdu` -/

@[simp] theorem State.setPdu_pending (s : State) (n : Fin 8192) (x : Pdu) : (s.setPdu n x).pending = s.pending := rfl
@[simp] theorem State.setPdu_mem (s : State) (n : Fin 8192) (x : Pdu) : (s.setPdu n x).mem = s.mem := rfl
@[simp] theorem State.setPdu_regs (s : State) (n : Fin 8192) (x : Pdu) : (s.setPdu n x).regs = s.regs := rfl
@[simp] theorem State.setPdu_fixed (s : State) (n : Fin 8192) (x : Pdu) : (s.setPdu n x).fixed = s.fixed := rfl
@[simp] theorem State.setPdu_fab (s : State) (n : Fin 8192) (x : Pdu) : (s.setPdu n x).fab = s.fab := rfl
@[simp] theorem State.setPdu_cores (s : State) (n : Fin 8192) (x : Pdu) : (s.setPdu n x).cores = s.cores := rfl
@[simp] theorem State.setPdu_bars (s : State) (n : Fin 8192) (x : Pdu) : (s.setPdu n x).bars = s.bars := rfl
@[simp] theorem State.setPdu_time (s : State) (n : Fin 8192) (x : Pdu) : (s.setPdu n x).time = s.time := rfl
@[simp] theorem State.setPdu_sched (s : State) (n : Fin 8192) (x : Pdu) : (s.setPdu n x).sched = s.sched := rfl
@[simp] theorem State.setPdu_fw (s : State) (n : Fin 8192) (x : Pdu) : (s.setPdu n x).fw = s.fw := rfl
@[simp] theorem State.setPdu_flt (s : State) (n : Fin 8192) (x : Pdu) : (s.setPdu n x).flt = s.flt := rfl
@[simp] theorem State.setPdu_sec (s : State) (n : Fin 8192) (x : Pdu) : (s.setPdu n x).sec = s.sec := rfl
@[simp] theorem State.setPdu_pwr (s : State) (n : Fin 8192) (x : Pdu) : (s.setPdu n x).pwr = s.pwr := rfl
@[simp] theorem State.setPdu_chk (s : State) (n : Fin 8192) (x : Pdu) : (s.setPdu n x).chk = s.chk := rfl
@[simp] theorem State.setPdu_cpu (s : State) (n : Fin 8192) (x : Pdu) : (s.setPdu n x).cpu = s.cpu := rfl
@[simp] theorem State.setPdu_media (s : State) (n : Fin 8192) (x : Pdu) : (s.setPdu n x).media = s.media := rfl
@[simp] theorem State.setPdu_wde (s : State) (n : Fin 8192) (x : Pdu) : (s.setPdu n x).wde = s.wde := rfl
@[simp] theorem State.setPdu_on (s : State) (n : Fin 8192) (x : Pdu) : (s.setPdu n x).on = s.on := rfl
@[simp] theorem State.setPdu_busy (s : State) (n : Fin 8192) (x : Pdu) : (s.setPdu n x).busy = s.busy := rfl
@[simp] theorem State.setPdu_gated (s : State) (n : Fin 8192) (x : Pdu) : (s.setPdu n x).gated = s.gated := rfl
@[simp] theorem State.setPdu_freeCtr (s : State) (n : Fin 8192) (x : Pdu) : (s.setPdu n x).freeCtr = s.freeCtr := rfl

/-! `setCpuPair` -/

@[simp] theorem State.setCpuPair_pending (s : State) (p : Fin 8) (x : CpuPair) : (s.setCpuPair p x).pending = s.pending := rfl
@[simp] theorem State.setCpuPair_mem (s : State) (p : Fin 8) (x : CpuPair) : (s.setCpuPair p x).mem = s.mem := rfl
@[simp] theorem State.setCpuPair_regs (s : State) (p : Fin 8) (x : CpuPair) : (s.setCpuPair p x).regs = s.regs := rfl
@[simp] theorem State.setCpuPair_fixed (s : State) (p : Fin 8) (x : CpuPair) : (s.setCpuPair p x).fixed = s.fixed := rfl
@[simp] theorem State.setCpuPair_fab (s : State) (p : Fin 8) (x : CpuPair) : (s.setCpuPair p x).fab = s.fab := rfl
@[simp] theorem State.setCpuPair_cores (s : State) (p : Fin 8) (x : CpuPair) : (s.setCpuPair p x).cores = s.cores := rfl
@[simp] theorem State.setCpuPair_bars (s : State) (p : Fin 8) (x : CpuPair) : (s.setCpuPair p x).bars = s.bars := rfl
@[simp] theorem State.setCpuPair_time (s : State) (p : Fin 8) (x : CpuPair) : (s.setCpuPair p x).time = s.time := rfl
@[simp] theorem State.setCpuPair_sched (s : State) (p : Fin 8) (x : CpuPair) : (s.setCpuPair p x).sched = s.sched := rfl
@[simp] theorem State.setCpuPair_fw (s : State) (p : Fin 8) (x : CpuPair) : (s.setCpuPair p x).fw = s.fw := rfl
@[simp] theorem State.setCpuPair_flt (s : State) (p : Fin 8) (x : CpuPair) : (s.setCpuPair p x).flt = s.flt := rfl
@[simp] theorem State.setCpuPair_sec (s : State) (p : Fin 8) (x : CpuPair) : (s.setCpuPair p x).sec = s.sec := rfl
@[simp] theorem State.setCpuPair_pwr (s : State) (p : Fin 8) (x : CpuPair) : (s.setCpuPair p x).pwr = s.pwr := rfl
@[simp] theorem State.setCpuPair_chk (s : State) (p : Fin 8) (x : CpuPair) : (s.setCpuPair p x).chk = s.chk := rfl
@[simp] theorem State.setCpuPair_gw (s : State) (p : Fin 8) (x : CpuPair) : (s.setCpuPair p x).gw = s.gw := rfl
@[simp] theorem State.setCpuPair_media (s : State) (p : Fin 8) (x : CpuPair) : (s.setCpuPair p x).media = s.media := rfl
@[simp] theorem State.setCpuPair_wde (s : State) (p : Fin 8) (x : CpuPair) : (s.setCpuPair p x).wde = s.wde := rfl
@[simp] theorem State.setCpuPair_on (s : State) (p : Fin 8) (x : CpuPair) : (s.setCpuPair p x).on = s.on := rfl
@[simp] theorem State.setCpuPair_busy (s : State) (p : Fin 8) (x : CpuPair) : (s.setCpuPair p x).busy = s.busy := rfl
@[simp] theorem State.setCpuPair_gated (s : State) (p : Fin 8) (x : CpuPair) : (s.setCpuPair p x).gated = s.gated := rfl
@[simp] theorem State.setCpuPair_freeCtr (s : State) (p : Fin 8) (x : CpuPair) : (s.setCpuPair p x).freeCtr = s.freeCtr := rfl

/-! `setSlot` -/

@[simp] theorem State.setSlot_pending (s : State) (n : Fin 256) (x : Option Slot) : (s.setSlot n x).pending = s.pending := rfl
@[simp] theorem State.setSlot_mem (s : State) (n : Fin 256) (x : Option Slot) : (s.setSlot n x).mem = s.mem := rfl
@[simp] theorem State.setSlot_regs (s : State) (n : Fin 256) (x : Option Slot) : (s.setSlot n x).regs = s.regs := rfl
@[simp] theorem State.setSlot_fixed (s : State) (n : Fin 256) (x : Option Slot) : (s.setSlot n x).fixed = s.fixed := rfl
@[simp] theorem State.setSlot_fab (s : State) (n : Fin 256) (x : Option Slot) : (s.setSlot n x).fab = s.fab := rfl
@[simp] theorem State.setSlot_cores (s : State) (n : Fin 256) (x : Option Slot) : (s.setSlot n x).cores = s.cores := rfl
@[simp] theorem State.setSlot_bars (s : State) (n : Fin 256) (x : Option Slot) : (s.setSlot n x).bars = s.bars := rfl
@[simp] theorem State.setSlot_time (s : State) (n : Fin 256) (x : Option Slot) : (s.setSlot n x).time = s.time := rfl
@[simp] theorem State.setSlot_sched (s : State) (n : Fin 256) (x : Option Slot) : (s.setSlot n x).sched = s.sched := rfl
@[simp] theorem State.setSlot_fw (s : State) (n : Fin 256) (x : Option Slot) : (s.setSlot n x).fw = s.fw := rfl
@[simp] theorem State.setSlot_flt (s : State) (n : Fin 256) (x : Option Slot) : (s.setSlot n x).flt = s.flt := rfl
@[simp] theorem State.setSlot_pwr (s : State) (n : Fin 256) (x : Option Slot) : (s.setSlot n x).pwr = s.pwr := rfl
@[simp] theorem State.setSlot_chk (s : State) (n : Fin 256) (x : Option Slot) : (s.setSlot n x).chk = s.chk := rfl
@[simp] theorem State.setSlot_cpu (s : State) (n : Fin 256) (x : Option Slot) : (s.setSlot n x).cpu = s.cpu := rfl
@[simp] theorem State.setSlot_gw (s : State) (n : Fin 256) (x : Option Slot) : (s.setSlot n x).gw = s.gw := rfl
@[simp] theorem State.setSlot_media (s : State) (n : Fin 256) (x : Option Slot) : (s.setSlot n x).media = s.media := rfl
@[simp] theorem State.setSlot_wde (s : State) (n : Fin 256) (x : Option Slot) : (s.setSlot n x).wde = s.wde := rfl
@[simp] theorem State.setSlot_on (s : State) (n : Fin 256) (x : Option Slot) : (s.setSlot n x).on = s.on := rfl
@[simp] theorem State.setSlot_busy (s : State) (n : Fin 256) (x : Option Slot) : (s.setSlot n x).busy = s.busy := rfl
@[simp] theorem State.setSlot_gated (s : State) (n : Fin 256) (x : Option Slot) : (s.setSlot n x).gated = s.gated := rfl
@[simp] theorem State.setSlot_freeCtr (s : State) (n : Fin 256) (x : Option Slot) : (s.setSlot n x).freeCtr = s.freeCtr := rfl

/-! `setWde` -/

@[simp] theorem State.setWde_pending (s : State) (x : WoadeState) : (s.setWde x).pending = s.pending := rfl
@[simp] theorem State.setWde_mem (s : State) (x : WoadeState) : (s.setWde x).mem = s.mem := rfl
@[simp] theorem State.setWde_regs (s : State) (x : WoadeState) : (s.setWde x).regs = s.regs := rfl
@[simp] theorem State.setWde_fixed (s : State) (x : WoadeState) : (s.setWde x).fixed = s.fixed := rfl
@[simp] theorem State.setWde_fab (s : State) (x : WoadeState) : (s.setWde x).fab = s.fab := rfl
@[simp] theorem State.setWde_cores (s : State) (x : WoadeState) : (s.setWde x).cores = s.cores := rfl
@[simp] theorem State.setWde_bars (s : State) (x : WoadeState) : (s.setWde x).bars = s.bars := rfl
@[simp] theorem State.setWde_time (s : State) (x : WoadeState) : (s.setWde x).time = s.time := rfl
@[simp] theorem State.setWde_sched (s : State) (x : WoadeState) : (s.setWde x).sched = s.sched := rfl
@[simp] theorem State.setWde_fw (s : State) (x : WoadeState) : (s.setWde x).fw = s.fw := rfl
@[simp] theorem State.setWde_flt (s : State) (x : WoadeState) : (s.setWde x).flt = s.flt := rfl
@[simp] theorem State.setWde_sec (s : State) (x : WoadeState) : (s.setWde x).sec = s.sec := rfl
@[simp] theorem State.setWde_pwr (s : State) (x : WoadeState) : (s.setWde x).pwr = s.pwr := rfl
@[simp] theorem State.setWde_chk (s : State) (x : WoadeState) : (s.setWde x).chk = s.chk := rfl
@[simp] theorem State.setWde_cpu (s : State) (x : WoadeState) : (s.setWde x).cpu = s.cpu := rfl
@[simp] theorem State.setWde_gw (s : State) (x : WoadeState) : (s.setWde x).gw = s.gw := rfl
@[simp] theorem State.setWde_media (s : State) (x : WoadeState) : (s.setWde x).media = s.media := rfl
@[simp] theorem State.setWde_on (s : State) (x : WoadeState) : (s.setWde x).on = s.on := rfl
@[simp] theorem State.setWde_busy (s : State) (x : WoadeState) : (s.setWde x).busy = s.busy := rfl
@[simp] theorem State.setWde_gated (s : State) (x : WoadeState) : (s.setWde x).gated = s.gated := rfl
@[simp] theorem State.setWde_freeCtr (s : State) (x : WoadeState) : (s.setWde x).freeCtr = s.freeCtr := rfl

/-! `setDom` -/

@[simp] theorem State.setDom_pending (s : State) (d : Fin 4) (x : Domain) : (s.setDom d x).pending = s.pending := rfl
@[simp] theorem State.setDom_mem (s : State) (d : Fin 4) (x : Domain) : (s.setDom d x).mem = s.mem := rfl
@[simp] theorem State.setDom_regs (s : State) (d : Fin 4) (x : Domain) : (s.setDom d x).regs = s.regs := rfl
@[simp] theorem State.setDom_fixed (s : State) (d : Fin 4) (x : Domain) : (s.setDom d x).fixed = s.fixed := rfl
@[simp] theorem State.setDom_fab (s : State) (d : Fin 4) (x : Domain) : (s.setDom d x).fab = s.fab := rfl
@[simp] theorem State.setDom_cores (s : State) (d : Fin 4) (x : Domain) : (s.setDom d x).cores = s.cores := rfl
@[simp] theorem State.setDom_bars (s : State) (d : Fin 4) (x : Domain) : (s.setDom d x).bars = s.bars := rfl
@[simp] theorem State.setDom_sched (s : State) (d : Fin 4) (x : Domain) : (s.setDom d x).sched = s.sched := rfl
@[simp] theorem State.setDom_fw (s : State) (d : Fin 4) (x : Domain) : (s.setDom d x).fw = s.fw := rfl
@[simp] theorem State.setDom_flt (s : State) (d : Fin 4) (x : Domain) : (s.setDom d x).flt = s.flt := rfl
@[simp] theorem State.setDom_sec (s : State) (d : Fin 4) (x : Domain) : (s.setDom d x).sec = s.sec := rfl
@[simp] theorem State.setDom_pwr (s : State) (d : Fin 4) (x : Domain) : (s.setDom d x).pwr = s.pwr := rfl
@[simp] theorem State.setDom_chk (s : State) (d : Fin 4) (x : Domain) : (s.setDom d x).chk = s.chk := rfl
@[simp] theorem State.setDom_cpu (s : State) (d : Fin 4) (x : Domain) : (s.setDom d x).cpu = s.cpu := rfl
@[simp] theorem State.setDom_gw (s : State) (d : Fin 4) (x : Domain) : (s.setDom d x).gw = s.gw := rfl
@[simp] theorem State.setDom_media (s : State) (d : Fin 4) (x : Domain) : (s.setDom d x).media = s.media := rfl
@[simp] theorem State.setDom_wde (s : State) (d : Fin 4) (x : Domain) : (s.setDom d x).wde = s.wde := rfl
@[simp] theorem State.setDom_on (s : State) (d : Fin 4) (x : Domain) : (s.setDom d x).on = s.on := rfl
@[simp] theorem State.setDom_busy (s : State) (d : Fin 4) (x : Domain) : (s.setDom d x).busy = s.busy := rfl
@[simp] theorem State.setDom_gated (s : State) (d : Fin 4) (x : Domain) : (s.setDom d x).gated = s.gated := rfl
@[simp] theorem State.setDom_freeCtr (s : State) (d : Fin 4) (x : Domain) : (s.setDom d x).freeCtr = s.freeCtr := rfl

/-! `setTrig` -/

@[simp] theorem State.setTrig_pending (s : State) (n : Fin 32) (x : Trig) : (s.setTrig n x).pending = s.pending := rfl
@[simp] theorem State.setTrig_mem (s : State) (n : Fin 32) (x : Trig) : (s.setTrig n x).mem = s.mem := rfl
@[simp] theorem State.setTrig_regs (s : State) (n : Fin 32) (x : Trig) : (s.setTrig n x).regs = s.regs := rfl
@[simp] theorem State.setTrig_fixed (s : State) (n : Fin 32) (x : Trig) : (s.setTrig n x).fixed = s.fixed := rfl
@[simp] theorem State.setTrig_fab (s : State) (n : Fin 32) (x : Trig) : (s.setTrig n x).fab = s.fab := rfl
@[simp] theorem State.setTrig_cores (s : State) (n : Fin 32) (x : Trig) : (s.setTrig n x).cores = s.cores := rfl
@[simp] theorem State.setTrig_bars (s : State) (n : Fin 32) (x : Trig) : (s.setTrig n x).bars = s.bars := rfl
@[simp] theorem State.setTrig_sched (s : State) (n : Fin 32) (x : Trig) : (s.setTrig n x).sched = s.sched := rfl
@[simp] theorem State.setTrig_fw (s : State) (n : Fin 32) (x : Trig) : (s.setTrig n x).fw = s.fw := rfl
@[simp] theorem State.setTrig_flt (s : State) (n : Fin 32) (x : Trig) : (s.setTrig n x).flt = s.flt := rfl
@[simp] theorem State.setTrig_sec (s : State) (n : Fin 32) (x : Trig) : (s.setTrig n x).sec = s.sec := rfl
@[simp] theorem State.setTrig_pwr (s : State) (n : Fin 32) (x : Trig) : (s.setTrig n x).pwr = s.pwr := rfl
@[simp] theorem State.setTrig_chk (s : State) (n : Fin 32) (x : Trig) : (s.setTrig n x).chk = s.chk := rfl
@[simp] theorem State.setTrig_cpu (s : State) (n : Fin 32) (x : Trig) : (s.setTrig n x).cpu = s.cpu := rfl
@[simp] theorem State.setTrig_gw (s : State) (n : Fin 32) (x : Trig) : (s.setTrig n x).gw = s.gw := rfl
@[simp] theorem State.setTrig_media (s : State) (n : Fin 32) (x : Trig) : (s.setTrig n x).media = s.media := rfl
@[simp] theorem State.setTrig_wde (s : State) (n : Fin 32) (x : Trig) : (s.setTrig n x).wde = s.wde := rfl
@[simp] theorem State.setTrig_on (s : State) (n : Fin 32) (x : Trig) : (s.setTrig n x).on = s.on := rfl
@[simp] theorem State.setTrig_busy (s : State) (n : Fin 32) (x : Trig) : (s.setTrig n x).busy = s.busy := rfl
@[simp] theorem State.setTrig_gated (s : State) (n : Fin 32) (x : Trig) : (s.setTrig n x).gated = s.gated := rfl
@[simp] theorem State.setTrig_freeCtr (s : State) (n : Fin 32) (x : Trig) : (s.setTrig n x).freeCtr = s.freeCtr := rfl

/-! `setCap` -/

@[simp] theorem State.setCap_pending (s : State) (n : Fin 32) (x : Cap) : (s.setCap n x).pending = s.pending := rfl
@[simp] theorem State.setCap_mem (s : State) (n : Fin 32) (x : Cap) : (s.setCap n x).mem = s.mem := rfl
@[simp] theorem State.setCap_regs (s : State) (n : Fin 32) (x : Cap) : (s.setCap n x).regs = s.regs := rfl
@[simp] theorem State.setCap_fixed (s : State) (n : Fin 32) (x : Cap) : (s.setCap n x).fixed = s.fixed := rfl
@[simp] theorem State.setCap_fab (s : State) (n : Fin 32) (x : Cap) : (s.setCap n x).fab = s.fab := rfl
@[simp] theorem State.setCap_cores (s : State) (n : Fin 32) (x : Cap) : (s.setCap n x).cores = s.cores := rfl
@[simp] theorem State.setCap_bars (s : State) (n : Fin 32) (x : Cap) : (s.setCap n x).bars = s.bars := rfl
@[simp] theorem State.setCap_sched (s : State) (n : Fin 32) (x : Cap) : (s.setCap n x).sched = s.sched := rfl
@[simp] theorem State.setCap_fw (s : State) (n : Fin 32) (x : Cap) : (s.setCap n x).fw = s.fw := rfl
@[simp] theorem State.setCap_flt (s : State) (n : Fin 32) (x : Cap) : (s.setCap n x).flt = s.flt := rfl
@[simp] theorem State.setCap_sec (s : State) (n : Fin 32) (x : Cap) : (s.setCap n x).sec = s.sec := rfl
@[simp] theorem State.setCap_pwr (s : State) (n : Fin 32) (x : Cap) : (s.setCap n x).pwr = s.pwr := rfl
@[simp] theorem State.setCap_chk (s : State) (n : Fin 32) (x : Cap) : (s.setCap n x).chk = s.chk := rfl
@[simp] theorem State.setCap_cpu (s : State) (n : Fin 32) (x : Cap) : (s.setCap n x).cpu = s.cpu := rfl
@[simp] theorem State.setCap_gw (s : State) (n : Fin 32) (x : Cap) : (s.setCap n x).gw = s.gw := rfl
@[simp] theorem State.setCap_media (s : State) (n : Fin 32) (x : Cap) : (s.setCap n x).media = s.media := rfl
@[simp] theorem State.setCap_wde (s : State) (n : Fin 32) (x : Cap) : (s.setCap n x).wde = s.wde := rfl
@[simp] theorem State.setCap_on (s : State) (n : Fin 32) (x : Cap) : (s.setCap n x).on = s.on := rfl
@[simp] theorem State.setCap_busy (s : State) (n : Fin 32) (x : Cap) : (s.setCap n x).busy = s.busy := rfl
@[simp] theorem State.setCap_gated (s : State) (n : Fin 32) (x : Cap) : (s.setCap n x).gated = s.gated := rfl
@[simp] theorem State.setCap_freeCtr (s : State) (n : Fin 32) (x : Cap) : (s.setCap n x).freeCtr = s.freeCtr := rfl

/-! `setHart` -/

@[simp] theorem State.setHart_pending (s : State) (h : Fin 16) (x : Hart) : (s.setHart h x).pending = s.pending := rfl
@[simp] theorem State.setHart_mem (s : State) (h : Fin 16) (x : Hart) : (s.setHart h x).mem = s.mem := rfl
@[simp] theorem State.setHart_regs (s : State) (h : Fin 16) (x : Hart) : (s.setHart h x).regs = s.regs := rfl
@[simp] theorem State.setHart_fixed (s : State) (h : Fin 16) (x : Hart) : (s.setHart h x).fixed = s.fixed := rfl
@[simp] theorem State.setHart_fab (s : State) (h : Fin 16) (x : Hart) : (s.setHart h x).fab = s.fab := rfl
@[simp] theorem State.setHart_cores (s : State) (h : Fin 16) (x : Hart) : (s.setHart h x).cores = s.cores := rfl
@[simp] theorem State.setHart_bars (s : State) (h : Fin 16) (x : Hart) : (s.setHart h x).bars = s.bars := rfl
@[simp] theorem State.setHart_time (s : State) (h : Fin 16) (x : Hart) : (s.setHart h x).time = s.time := rfl
@[simp] theorem State.setHart_sched (s : State) (h : Fin 16) (x : Hart) : (s.setHart h x).sched = s.sched := rfl
@[simp] theorem State.setHart_fw (s : State) (h : Fin 16) (x : Hart) : (s.setHart h x).fw = s.fw := rfl
@[simp] theorem State.setHart_flt (s : State) (h : Fin 16) (x : Hart) : (s.setHart h x).flt = s.flt := rfl
@[simp] theorem State.setHart_sec (s : State) (h : Fin 16) (x : Hart) : (s.setHart h x).sec = s.sec := rfl
@[simp] theorem State.setHart_pwr (s : State) (h : Fin 16) (x : Hart) : (s.setHart h x).pwr = s.pwr := rfl
@[simp] theorem State.setHart_chk (s : State) (h : Fin 16) (x : Hart) : (s.setHart h x).chk = s.chk := rfl
@[simp] theorem State.setHart_gw (s : State) (h : Fin 16) (x : Hart) : (s.setHart h x).gw = s.gw := rfl
@[simp] theorem State.setHart_media (s : State) (h : Fin 16) (x : Hart) : (s.setHart h x).media = s.media := rfl
@[simp] theorem State.setHart_wde (s : State) (h : Fin 16) (x : Hart) : (s.setHart h x).wde = s.wde := rfl
@[simp] theorem State.setHart_on (s : State) (h : Fin 16) (x : Hart) : (s.setHart h x).on = s.on := rfl
@[simp] theorem State.setHart_busy (s : State) (h : Fin 16) (x : Hart) : (s.setHart h x).busy = s.busy := rfl
@[simp] theorem State.setHart_gated (s : State) (h : Fin 16) (x : Hart) : (s.setHart h x).gated = s.gated := rfl
@[simp] theorem State.setHart_freeCtr (s : State) (h : Fin 16) (x : Hart) : (s.setHart h x).freeCtr = s.freeCtr := rfl

/-! `setLines` -/

@[simp] theorem State.setLines_pending (s : State) (l : List CLine) : (s.setLines l).pending = s.pending := rfl
@[simp] theorem State.setLines_mem (s : State) (l : List CLine) : (s.setLines l).mem = s.mem := rfl
@[simp] theorem State.setLines_regs (s : State) (l : List CLine) : (s.setLines l).regs = s.regs := rfl
@[simp] theorem State.setLines_fixed (s : State) (l : List CLine) : (s.setLines l).fixed = s.fixed := rfl
@[simp] theorem State.setLines_fab (s : State) (l : List CLine) : (s.setLines l).fab = s.fab := rfl
@[simp] theorem State.setLines_cores (s : State) (l : List CLine) : (s.setLines l).cores = s.cores := rfl
@[simp] theorem State.setLines_bars (s : State) (l : List CLine) : (s.setLines l).bars = s.bars := rfl
@[simp] theorem State.setLines_time (s : State) (l : List CLine) : (s.setLines l).time = s.time := rfl
@[simp] theorem State.setLines_sched (s : State) (l : List CLine) : (s.setLines l).sched = s.sched := rfl
@[simp] theorem State.setLines_fw (s : State) (l : List CLine) : (s.setLines l).fw = s.fw := rfl
@[simp] theorem State.setLines_flt (s : State) (l : List CLine) : (s.setLines l).flt = s.flt := rfl
@[simp] theorem State.setLines_sec (s : State) (l : List CLine) : (s.setLines l).sec = s.sec := rfl
@[simp] theorem State.setLines_pwr (s : State) (l : List CLine) : (s.setLines l).pwr = s.pwr := rfl
@[simp] theorem State.setLines_chk (s : State) (l : List CLine) : (s.setLines l).chk = s.chk := rfl
@[simp] theorem State.setLines_gw (s : State) (l : List CLine) : (s.setLines l).gw = s.gw := rfl
@[simp] theorem State.setLines_media (s : State) (l : List CLine) : (s.setLines l).media = s.media := rfl
@[simp] theorem State.setLines_wde (s : State) (l : List CLine) : (s.setLines l).wde = s.wde := rfl
@[simp] theorem State.setLines_on (s : State) (l : List CLine) : (s.setLines l).on = s.on := rfl
@[simp] theorem State.setLines_busy (s : State) (l : List CLine) : (s.setLines l).busy = s.busy := rfl
@[simp] theorem State.setLines_gated (s : State) (l : List CLine) : (s.setLines l).gated = s.gated := rfl
@[simp] theorem State.setLines_freeCtr (s : State) (l : List CLine) : (s.setLines l).freeCtr = s.freeCtr := rfl

/-! `setCan` -/

@[simp] theorem State.setCan_pending (s : State) (c : Fin 24) (x : Can) : (s.setCan c x).pending = s.pending := rfl
@[simp] theorem State.setCan_mem (s : State) (c : Fin 24) (x : Can) : (s.setCan c x).mem = s.mem := rfl
@[simp] theorem State.setCan_regs (s : State) (c : Fin 24) (x : Can) : (s.setCan c x).regs = s.regs := rfl
@[simp] theorem State.setCan_fixed (s : State) (c : Fin 24) (x : Can) : (s.setCan c x).fixed = s.fixed := rfl
@[simp] theorem State.setCan_fab (s : State) (c : Fin 24) (x : Can) : (s.setCan c x).fab = s.fab := rfl
@[simp] theorem State.setCan_cores (s : State) (c : Fin 24) (x : Can) : (s.setCan c x).cores = s.cores := rfl
@[simp] theorem State.setCan_bars (s : State) (c : Fin 24) (x : Can) : (s.setCan c x).bars = s.bars := rfl
@[simp] theorem State.setCan_time (s : State) (c : Fin 24) (x : Can) : (s.setCan c x).time = s.time := rfl
@[simp] theorem State.setCan_sched (s : State) (c : Fin 24) (x : Can) : (s.setCan c x).sched = s.sched := rfl
@[simp] theorem State.setCan_fw (s : State) (c : Fin 24) (x : Can) : (s.setCan c x).fw = s.fw := rfl
@[simp] theorem State.setCan_flt (s : State) (c : Fin 24) (x : Can) : (s.setCan c x).flt = s.flt := rfl
@[simp] theorem State.setCan_sec (s : State) (c : Fin 24) (x : Can) : (s.setCan c x).sec = s.sec := rfl
@[simp] theorem State.setCan_pwr (s : State) (c : Fin 24) (x : Can) : (s.setCan c x).pwr = s.pwr := rfl
@[simp] theorem State.setCan_chk (s : State) (c : Fin 24) (x : Can) : (s.setCan c x).chk = s.chk := rfl
@[simp] theorem State.setCan_cpu (s : State) (c : Fin 24) (x : Can) : (s.setCan c x).cpu = s.cpu := rfl
@[simp] theorem State.setCan_media (s : State) (c : Fin 24) (x : Can) : (s.setCan c x).media = s.media := rfl
@[simp] theorem State.setCan_wde (s : State) (c : Fin 24) (x : Can) : (s.setCan c x).wde = s.wde := rfl
@[simp] theorem State.setCan_on (s : State) (c : Fin 24) (x : Can) : (s.setCan c x).on = s.on := rfl
@[simp] theorem State.setCan_busy (s : State) (c : Fin 24) (x : Can) : (s.setCan c x).busy = s.busy := rfl
@[simp] theorem State.setCan_gated (s : State) (c : Fin 24) (x : Can) : (s.setCan c x).gated = s.gated := rfl
@[simp] theorem State.setCan_freeCtr (s : State) (c : Fin 24) (x : Can) : (s.setCan c x).freeCtr = s.freeCtr := rfl

/-! `setLin` -/

@[simp] theorem State.setLin_pending (s : State) (c : Fin 8) (x : Lin) : (s.setLin c x).pending = s.pending := rfl
@[simp] theorem State.setLin_mem (s : State) (c : Fin 8) (x : Lin) : (s.setLin c x).mem = s.mem := rfl
@[simp] theorem State.setLin_regs (s : State) (c : Fin 8) (x : Lin) : (s.setLin c x).regs = s.regs := rfl
@[simp] theorem State.setLin_fixed (s : State) (c : Fin 8) (x : Lin) : (s.setLin c x).fixed = s.fixed := rfl
@[simp] theorem State.setLin_fab (s : State) (c : Fin 8) (x : Lin) : (s.setLin c x).fab = s.fab := rfl
@[simp] theorem State.setLin_cores (s : State) (c : Fin 8) (x : Lin) : (s.setLin c x).cores = s.cores := rfl
@[simp] theorem State.setLin_bars (s : State) (c : Fin 8) (x : Lin) : (s.setLin c x).bars = s.bars := rfl
@[simp] theorem State.setLin_time (s : State) (c : Fin 8) (x : Lin) : (s.setLin c x).time = s.time := rfl
@[simp] theorem State.setLin_sched (s : State) (c : Fin 8) (x : Lin) : (s.setLin c x).sched = s.sched := rfl
@[simp] theorem State.setLin_fw (s : State) (c : Fin 8) (x : Lin) : (s.setLin c x).fw = s.fw := rfl
@[simp] theorem State.setLin_flt (s : State) (c : Fin 8) (x : Lin) : (s.setLin c x).flt = s.flt := rfl
@[simp] theorem State.setLin_sec (s : State) (c : Fin 8) (x : Lin) : (s.setLin c x).sec = s.sec := rfl
@[simp] theorem State.setLin_pwr (s : State) (c : Fin 8) (x : Lin) : (s.setLin c x).pwr = s.pwr := rfl
@[simp] theorem State.setLin_chk (s : State) (c : Fin 8) (x : Lin) : (s.setLin c x).chk = s.chk := rfl
@[simp] theorem State.setLin_cpu (s : State) (c : Fin 8) (x : Lin) : (s.setLin c x).cpu = s.cpu := rfl
@[simp] theorem State.setLin_media (s : State) (c : Fin 8) (x : Lin) : (s.setLin c x).media = s.media := rfl
@[simp] theorem State.setLin_wde (s : State) (c : Fin 8) (x : Lin) : (s.setLin c x).wde = s.wde := rfl
@[simp] theorem State.setLin_on (s : State) (c : Fin 8) (x : Lin) : (s.setLin c x).on = s.on := rfl
@[simp] theorem State.setLin_busy (s : State) (c : Fin 8) (x : Lin) : (s.setLin c x).busy = s.busy := rfl
@[simp] theorem State.setLin_gated (s : State) (c : Fin 8) (x : Lin) : (s.setLin c x).gated = s.gated := rfl
@[simp] theorem State.setLin_freeCtr (s : State) (c : Fin 8) (x : Lin) : (s.setLin c x).freeCtr = s.freeCtr := rfl

/-! `setGfx` -/

@[simp] theorem State.setGfx_pending (s : State) (q : Fin 16) (x : GfxQueue) : (s.setGfx q x).pending = s.pending := rfl
@[simp] theorem State.setGfx_mem (s : State) (q : Fin 16) (x : GfxQueue) : (s.setGfx q x).mem = s.mem := rfl
@[simp] theorem State.setGfx_regs (s : State) (q : Fin 16) (x : GfxQueue) : (s.setGfx q x).regs = s.regs := rfl
@[simp] theorem State.setGfx_fixed (s : State) (q : Fin 16) (x : GfxQueue) : (s.setGfx q x).fixed = s.fixed := rfl
@[simp] theorem State.setGfx_fab (s : State) (q : Fin 16) (x : GfxQueue) : (s.setGfx q x).fab = s.fab := rfl
@[simp] theorem State.setGfx_cores (s : State) (q : Fin 16) (x : GfxQueue) : (s.setGfx q x).cores = s.cores := rfl
@[simp] theorem State.setGfx_bars (s : State) (q : Fin 16) (x : GfxQueue) : (s.setGfx q x).bars = s.bars := rfl
@[simp] theorem State.setGfx_time (s : State) (q : Fin 16) (x : GfxQueue) : (s.setGfx q x).time = s.time := rfl
@[simp] theorem State.setGfx_sched (s : State) (q : Fin 16) (x : GfxQueue) : (s.setGfx q x).sched = s.sched := rfl
@[simp] theorem State.setGfx_fw (s : State) (q : Fin 16) (x : GfxQueue) : (s.setGfx q x).fw = s.fw := rfl
@[simp] theorem State.setGfx_flt (s : State) (q : Fin 16) (x : GfxQueue) : (s.setGfx q x).flt = s.flt := rfl
@[simp] theorem State.setGfx_sec (s : State) (q : Fin 16) (x : GfxQueue) : (s.setGfx q x).sec = s.sec := rfl
@[simp] theorem State.setGfx_pwr (s : State) (q : Fin 16) (x : GfxQueue) : (s.setGfx q x).pwr = s.pwr := rfl
@[simp] theorem State.setGfx_chk (s : State) (q : Fin 16) (x : GfxQueue) : (s.setGfx q x).chk = s.chk := rfl
@[simp] theorem State.setGfx_cpu (s : State) (q : Fin 16) (x : GfxQueue) : (s.setGfx q x).cpu = s.cpu := rfl
@[simp] theorem State.setGfx_gw (s : State) (q : Fin 16) (x : GfxQueue) : (s.setGfx q x).gw = s.gw := rfl
@[simp] theorem State.setGfx_wde (s : State) (q : Fin 16) (x : GfxQueue) : (s.setGfx q x).wde = s.wde := rfl
@[simp] theorem State.setGfx_on (s : State) (q : Fin 16) (x : GfxQueue) : (s.setGfx q x).on = s.on := rfl
@[simp] theorem State.setGfx_busy (s : State) (q : Fin 16) (x : GfxQueue) : (s.setGfx q x).busy = s.busy := rfl
@[simp] theorem State.setGfx_gated (s : State) (q : Fin 16) (x : GfxQueue) : (s.setGfx q x).gated = s.gated := rfl
@[simp] theorem State.setGfx_freeCtr (s : State) (q : Fin 16) (x : GfxQueue) : (s.setGfx q x).freeCtr = s.freeCtr := rfl

/-! `setPlane` -/

@[simp] theorem State.setPlane_pending (s : State) (o : Fin 6) (k : Fin 4) (x : Plane) : (s.setPlane o k x).pending = s.pending := rfl
@[simp] theorem State.setPlane_mem (s : State) (o : Fin 6) (k : Fin 4) (x : Plane) : (s.setPlane o k x).mem = s.mem := rfl
@[simp] theorem State.setPlane_regs (s : State) (o : Fin 6) (k : Fin 4) (x : Plane) : (s.setPlane o k x).regs = s.regs := rfl
@[simp] theorem State.setPlane_fixed (s : State) (o : Fin 6) (k : Fin 4) (x : Plane) : (s.setPlane o k x).fixed = s.fixed := rfl
@[simp] theorem State.setPlane_fab (s : State) (o : Fin 6) (k : Fin 4) (x : Plane) : (s.setPlane o k x).fab = s.fab := rfl
@[simp] theorem State.setPlane_cores (s : State) (o : Fin 6) (k : Fin 4) (x : Plane) : (s.setPlane o k x).cores = s.cores := rfl
@[simp] theorem State.setPlane_bars (s : State) (o : Fin 6) (k : Fin 4) (x : Plane) : (s.setPlane o k x).bars = s.bars := rfl
@[simp] theorem State.setPlane_time (s : State) (o : Fin 6) (k : Fin 4) (x : Plane) : (s.setPlane o k x).time = s.time := rfl
@[simp] theorem State.setPlane_sched (s : State) (o : Fin 6) (k : Fin 4) (x : Plane) : (s.setPlane o k x).sched = s.sched := rfl
@[simp] theorem State.setPlane_fw (s : State) (o : Fin 6) (k : Fin 4) (x : Plane) : (s.setPlane o k x).fw = s.fw := rfl
@[simp] theorem State.setPlane_flt (s : State) (o : Fin 6) (k : Fin 4) (x : Plane) : (s.setPlane o k x).flt = s.flt := rfl
@[simp] theorem State.setPlane_sec (s : State) (o : Fin 6) (k : Fin 4) (x : Plane) : (s.setPlane o k x).sec = s.sec := rfl
@[simp] theorem State.setPlane_pwr (s : State) (o : Fin 6) (k : Fin 4) (x : Plane) : (s.setPlane o k x).pwr = s.pwr := rfl
@[simp] theorem State.setPlane_chk (s : State) (o : Fin 6) (k : Fin 4) (x : Plane) : (s.setPlane o k x).chk = s.chk := rfl
@[simp] theorem State.setPlane_cpu (s : State) (o : Fin 6) (k : Fin 4) (x : Plane) : (s.setPlane o k x).cpu = s.cpu := rfl
@[simp] theorem State.setPlane_gw (s : State) (o : Fin 6) (k : Fin 4) (x : Plane) : (s.setPlane o k x).gw = s.gw := rfl
@[simp] theorem State.setPlane_wde (s : State) (o : Fin 6) (k : Fin 4) (x : Plane) : (s.setPlane o k x).wde = s.wde := rfl
@[simp] theorem State.setPlane_on (s : State) (o : Fin 6) (k : Fin 4) (x : Plane) : (s.setPlane o k x).on = s.on := rfl
@[simp] theorem State.setPlane_busy (s : State) (o : Fin 6) (k : Fin 4) (x : Plane) : (s.setPlane o k x).busy = s.busy := rfl
@[simp] theorem State.setPlane_gated (s : State) (o : Fin 6) (k : Fin 4) (x : Plane) : (s.setPlane o k x).gated = s.gated := rfl
@[simp] theorem State.setPlane_freeCtr (s : State) (o : Fin 6) (k : Fin 4) (x : Plane) : (s.setPlane o k x).freeCtr = s.freeCtr := rfl

/-! `setStream` -/

@[simp] theorem State.setStream_pending (s : State) (sid : Fin 64) (x : Stream) : (s.setStream sid x).pending = s.pending := rfl
@[simp] theorem State.setStream_mem (s : State) (sid : Fin 64) (x : Stream) : (s.setStream sid x).mem = s.mem := rfl
@[simp] theorem State.setStream_regs (s : State) (sid : Fin 64) (x : Stream) : (s.setStream sid x).regs = s.regs := rfl
@[simp] theorem State.setStream_fixed (s : State) (sid : Fin 64) (x : Stream) : (s.setStream sid x).fixed = s.fixed := rfl
@[simp] theorem State.setStream_fab (s : State) (sid : Fin 64) (x : Stream) : (s.setStream sid x).fab = s.fab := rfl
@[simp] theorem State.setStream_cores (s : State) (sid : Fin 64) (x : Stream) : (s.setStream sid x).cores = s.cores := rfl
@[simp] theorem State.setStream_bars (s : State) (sid : Fin 64) (x : Stream) : (s.setStream sid x).bars = s.bars := rfl
@[simp] theorem State.setStream_time (s : State) (sid : Fin 64) (x : Stream) : (s.setStream sid x).time = s.time := rfl
@[simp] theorem State.setStream_sched (s : State) (sid : Fin 64) (x : Stream) : (s.setStream sid x).sched = s.sched := rfl
@[simp] theorem State.setStream_fw (s : State) (sid : Fin 64) (x : Stream) : (s.setStream sid x).fw = s.fw := rfl
@[simp] theorem State.setStream_flt (s : State) (sid : Fin 64) (x : Stream) : (s.setStream sid x).flt = s.flt := rfl
@[simp] theorem State.setStream_sec (s : State) (sid : Fin 64) (x : Stream) : (s.setStream sid x).sec = s.sec := rfl
@[simp] theorem State.setStream_pwr (s : State) (sid : Fin 64) (x : Stream) : (s.setStream sid x).pwr = s.pwr := rfl
@[simp] theorem State.setStream_chk (s : State) (sid : Fin 64) (x : Stream) : (s.setStream sid x).chk = s.chk := rfl
@[simp] theorem State.setStream_cpu (s : State) (sid : Fin 64) (x : Stream) : (s.setStream sid x).cpu = s.cpu := rfl
@[simp] theorem State.setStream_gw (s : State) (sid : Fin 64) (x : Stream) : (s.setStream sid x).gw = s.gw := rfl
@[simp] theorem State.setStream_wde (s : State) (sid : Fin 64) (x : Stream) : (s.setStream sid x).wde = s.wde := rfl
@[simp] theorem State.setStream_on (s : State) (sid : Fin 64) (x : Stream) : (s.setStream sid x).on = s.on := rfl
@[simp] theorem State.setStream_busy (s : State) (sid : Fin 64) (x : Stream) : (s.setStream sid x).busy = s.busy := rfl
@[simp] theorem State.setStream_gated (s : State) (sid : Fin 64) (x : Stream) : (s.setStream sid x).gated = s.gated := rfl
@[simp] theorem State.setStream_freeCtr (s : State) (sid : Fin 64) (x : Stream) : (s.setStream sid x).freeCtr = s.freeCtr := rfl

/-! `setWport` -/

@[simp] theorem State.setWport_pending (s : State) (p : Fin 8) (x : WPort) : (s.setWport p x).pending = s.pending := rfl
@[simp] theorem State.setWport_mem (s : State) (p : Fin 8) (x : WPort) : (s.setWport p x).mem = s.mem := rfl
@[simp] theorem State.setWport_regs (s : State) (p : Fin 8) (x : WPort) : (s.setWport p x).regs = s.regs := rfl
@[simp] theorem State.setWport_fixed (s : State) (p : Fin 8) (x : WPort) : (s.setWport p x).fixed = s.fixed := rfl
@[simp] theorem State.setWport_fab (s : State) (p : Fin 8) (x : WPort) : (s.setWport p x).fab = s.fab := rfl
@[simp] theorem State.setWport_cores (s : State) (p : Fin 8) (x : WPort) : (s.setWport p x).cores = s.cores := rfl
@[simp] theorem State.setWport_bars (s : State) (p : Fin 8) (x : WPort) : (s.setWport p x).bars = s.bars := rfl
@[simp] theorem State.setWport_time (s : State) (p : Fin 8) (x : WPort) : (s.setWport p x).time = s.time := rfl
@[simp] theorem State.setWport_sched (s : State) (p : Fin 8) (x : WPort) : (s.setWport p x).sched = s.sched := rfl
@[simp] theorem State.setWport_fw (s : State) (p : Fin 8) (x : WPort) : (s.setWport p x).fw = s.fw := rfl
@[simp] theorem State.setWport_flt (s : State) (p : Fin 8) (x : WPort) : (s.setWport p x).flt = s.flt := rfl
@[simp] theorem State.setWport_sec (s : State) (p : Fin 8) (x : WPort) : (s.setWport p x).sec = s.sec := rfl
@[simp] theorem State.setWport_pwr (s : State) (p : Fin 8) (x : WPort) : (s.setWport p x).pwr = s.pwr := rfl
@[simp] theorem State.setWport_chk (s : State) (p : Fin 8) (x : WPort) : (s.setWport p x).chk = s.chk := rfl
@[simp] theorem State.setWport_cpu (s : State) (p : Fin 8) (x : WPort) : (s.setWport p x).cpu = s.cpu := rfl
@[simp] theorem State.setWport_gw (s : State) (p : Fin 8) (x : WPort) : (s.setWport p x).gw = s.gw := rfl
@[simp] theorem State.setWport_media (s : State) (p : Fin 8) (x : WPort) : (s.setWport p x).media = s.media := rfl
@[simp] theorem State.setWport_on (s : State) (p : Fin 8) (x : WPort) : (s.setWport p x).on = s.on := rfl
@[simp] theorem State.setWport_busy (s : State) (p : Fin 8) (x : WPort) : (s.setWport p x).busy = s.busy := rfl
@[simp] theorem State.setWport_gated (s : State) (p : Fin 8) (x : WPort) : (s.setWport p x).gated = s.gated := rfl
@[simp] theorem State.setWport_freeCtr (s : State) (p : Fin 8) (x : WPort) : (s.setWport p x).freeCtr = s.freeCtr := rfl

/-! `setWsq` -/

@[simp] theorem State.setWsq_pending (s : State) (q : Fin 16) (x : WSq) : (s.setWsq q x).pending = s.pending := rfl
@[simp] theorem State.setWsq_mem (s : State) (q : Fin 16) (x : WSq) : (s.setWsq q x).mem = s.mem := rfl
@[simp] theorem State.setWsq_regs (s : State) (q : Fin 16) (x : WSq) : (s.setWsq q x).regs = s.regs := rfl
@[simp] theorem State.setWsq_fixed (s : State) (q : Fin 16) (x : WSq) : (s.setWsq q x).fixed = s.fixed := rfl
@[simp] theorem State.setWsq_fab (s : State) (q : Fin 16) (x : WSq) : (s.setWsq q x).fab = s.fab := rfl
@[simp] theorem State.setWsq_cores (s : State) (q : Fin 16) (x : WSq) : (s.setWsq q x).cores = s.cores := rfl
@[simp] theorem State.setWsq_bars (s : State) (q : Fin 16) (x : WSq) : (s.setWsq q x).bars = s.bars := rfl
@[simp] theorem State.setWsq_time (s : State) (q : Fin 16) (x : WSq) : (s.setWsq q x).time = s.time := rfl
@[simp] theorem State.setWsq_sched (s : State) (q : Fin 16) (x : WSq) : (s.setWsq q x).sched = s.sched := rfl
@[simp] theorem State.setWsq_fw (s : State) (q : Fin 16) (x : WSq) : (s.setWsq q x).fw = s.fw := rfl
@[simp] theorem State.setWsq_flt (s : State) (q : Fin 16) (x : WSq) : (s.setWsq q x).flt = s.flt := rfl
@[simp] theorem State.setWsq_sec (s : State) (q : Fin 16) (x : WSq) : (s.setWsq q x).sec = s.sec := rfl
@[simp] theorem State.setWsq_pwr (s : State) (q : Fin 16) (x : WSq) : (s.setWsq q x).pwr = s.pwr := rfl
@[simp] theorem State.setWsq_chk (s : State) (q : Fin 16) (x : WSq) : (s.setWsq q x).chk = s.chk := rfl
@[simp] theorem State.setWsq_cpu (s : State) (q : Fin 16) (x : WSq) : (s.setWsq q x).cpu = s.cpu := rfl
@[simp] theorem State.setWsq_gw (s : State) (q : Fin 16) (x : WSq) : (s.setWsq q x).gw = s.gw := rfl
@[simp] theorem State.setWsq_media (s : State) (q : Fin 16) (x : WSq) : (s.setWsq q x).media = s.media := rfl
@[simp] theorem State.setWsq_on (s : State) (q : Fin 16) (x : WSq) : (s.setWsq q x).on = s.on := rfl
@[simp] theorem State.setWsq_busy (s : State) (q : Fin 16) (x : WSq) : (s.setWsq q x).busy = s.busy := rfl
@[simp] theorem State.setWsq_gated (s : State) (q : Fin 16) (x : WSq) : (s.setWsq q x).gated = s.gated := rfl
@[simp] theorem State.setWsq_freeCtr (s : State) (q : Fin 16) (x : WSq) : (s.setWsq q x).freeCtr = s.freeCtr := rfl

/-! `setWrq` -/

@[simp] theorem State.setWrq_pending (s : State) (q : Fin 64) (x : WRq) : (s.setWrq q x).pending = s.pending := rfl
@[simp] theorem State.setWrq_mem (s : State) (q : Fin 64) (x : WRq) : (s.setWrq q x).mem = s.mem := rfl
@[simp] theorem State.setWrq_regs (s : State) (q : Fin 64) (x : WRq) : (s.setWrq q x).regs = s.regs := rfl
@[simp] theorem State.setWrq_fixed (s : State) (q : Fin 64) (x : WRq) : (s.setWrq q x).fixed = s.fixed := rfl
@[simp] theorem State.setWrq_fab (s : State) (q : Fin 64) (x : WRq) : (s.setWrq q x).fab = s.fab := rfl
@[simp] theorem State.setWrq_cores (s : State) (q : Fin 64) (x : WRq) : (s.setWrq q x).cores = s.cores := rfl
@[simp] theorem State.setWrq_bars (s : State) (q : Fin 64) (x : WRq) : (s.setWrq q x).bars = s.bars := rfl
@[simp] theorem State.setWrq_time (s : State) (q : Fin 64) (x : WRq) : (s.setWrq q x).time = s.time := rfl
@[simp] theorem State.setWrq_sched (s : State) (q : Fin 64) (x : WRq) : (s.setWrq q x).sched = s.sched := rfl
@[simp] theorem State.setWrq_fw (s : State) (q : Fin 64) (x : WRq) : (s.setWrq q x).fw = s.fw := rfl
@[simp] theorem State.setWrq_flt (s : State) (q : Fin 64) (x : WRq) : (s.setWrq q x).flt = s.flt := rfl
@[simp] theorem State.setWrq_sec (s : State) (q : Fin 64) (x : WRq) : (s.setWrq q x).sec = s.sec := rfl
@[simp] theorem State.setWrq_pwr (s : State) (q : Fin 64) (x : WRq) : (s.setWrq q x).pwr = s.pwr := rfl
@[simp] theorem State.setWrq_chk (s : State) (q : Fin 64) (x : WRq) : (s.setWrq q x).chk = s.chk := rfl
@[simp] theorem State.setWrq_cpu (s : State) (q : Fin 64) (x : WRq) : (s.setWrq q x).cpu = s.cpu := rfl
@[simp] theorem State.setWrq_gw (s : State) (q : Fin 64) (x : WRq) : (s.setWrq q x).gw = s.gw := rfl
@[simp] theorem State.setWrq_media (s : State) (q : Fin 64) (x : WRq) : (s.setWrq q x).media = s.media := rfl
@[simp] theorem State.setWrq_on (s : State) (q : Fin 64) (x : WRq) : (s.setWrq q x).on = s.on := rfl
@[simp] theorem State.setWrq_busy (s : State) (q : Fin 64) (x : WRq) : (s.setWrq q x).busy = s.busy := rfl
@[simp] theorem State.setWrq_gated (s : State) (q : Fin 64) (x : WRq) : (s.setWrq q x).gated = s.gated := rfl
@[simp] theorem State.setWrq_freeCtr (s : State) (q : Fin 64) (x : WRq) : (s.setWrq q x).freeCtr = s.freeCtr := rfl

/-! `setPairing` -/

@[simp] theorem State.setPairing_pending (s : State) (i : Fin 16) (x : Pairing) : (s.setPairing i x).pending = s.pending := rfl
@[simp] theorem State.setPairing_mem (s : State) (i : Fin 16) (x : Pairing) : (s.setPairing i x).mem = s.mem := rfl
@[simp] theorem State.setPairing_regs (s : State) (i : Fin 16) (x : Pairing) : (s.setPairing i x).regs = s.regs := rfl
@[simp] theorem State.setPairing_fixed (s : State) (i : Fin 16) (x : Pairing) : (s.setPairing i x).fixed = s.fixed := rfl
@[simp] theorem State.setPairing_fab (s : State) (i : Fin 16) (x : Pairing) : (s.setPairing i x).fab = s.fab := rfl
@[simp] theorem State.setPairing_cores (s : State) (i : Fin 16) (x : Pairing) : (s.setPairing i x).cores = s.cores := rfl
@[simp] theorem State.setPairing_bars (s : State) (i : Fin 16) (x : Pairing) : (s.setPairing i x).bars = s.bars := rfl
@[simp] theorem State.setPairing_time (s : State) (i : Fin 16) (x : Pairing) : (s.setPairing i x).time = s.time := rfl
@[simp] theorem State.setPairing_sched (s : State) (i : Fin 16) (x : Pairing) : (s.setPairing i x).sched = s.sched := rfl
@[simp] theorem State.setPairing_fw (s : State) (i : Fin 16) (x : Pairing) : (s.setPairing i x).fw = s.fw := rfl
@[simp] theorem State.setPairing_flt (s : State) (i : Fin 16) (x : Pairing) : (s.setPairing i x).flt = s.flt := rfl
@[simp] theorem State.setPairing_sec (s : State) (i : Fin 16) (x : Pairing) : (s.setPairing i x).sec = s.sec := rfl
@[simp] theorem State.setPairing_pwr (s : State) (i : Fin 16) (x : Pairing) : (s.setPairing i x).pwr = s.pwr := rfl
@[simp] theorem State.setPairing_cpu (s : State) (i : Fin 16) (x : Pairing) : (s.setPairing i x).cpu = s.cpu := rfl
@[simp] theorem State.setPairing_gw (s : State) (i : Fin 16) (x : Pairing) : (s.setPairing i x).gw = s.gw := rfl
@[simp] theorem State.setPairing_media (s : State) (i : Fin 16) (x : Pairing) : (s.setPairing i x).media = s.media := rfl
@[simp] theorem State.setPairing_wde (s : State) (i : Fin 16) (x : Pairing) : (s.setPairing i x).wde = s.wde := rfl
@[simp] theorem State.setPairing_on (s : State) (i : Fin 16) (x : Pairing) : (s.setPairing i x).on = s.on := rfl
@[simp] theorem State.setPairing_busy (s : State) (i : Fin 16) (x : Pairing) : (s.setPairing i x).busy = s.busy := rfl
@[simp] theorem State.setPairing_gated (s : State) (i : Fin 16) (x : Pairing) : (s.setPairing i x).gated = s.gated := rfl
@[simp] theorem State.setPairing_freeCtr (s : State) (i : Fin 16) (x : Pairing) : (s.setPairing i x).freeCtr = s.freeCtr := rfl

/-! `setMon` -/

@[simp] theorem State.setMon_pending (s : State) (m : Fin 16) (x : Monitor) : (s.setMon m x).pending = s.pending := rfl
@[simp] theorem State.setMon_mem (s : State) (m : Fin 16) (x : Monitor) : (s.setMon m x).mem = s.mem := rfl
@[simp] theorem State.setMon_regs (s : State) (m : Fin 16) (x : Monitor) : (s.setMon m x).regs = s.regs := rfl
@[simp] theorem State.setMon_fixed (s : State) (m : Fin 16) (x : Monitor) : (s.setMon m x).fixed = s.fixed := rfl
@[simp] theorem State.setMon_fab (s : State) (m : Fin 16) (x : Monitor) : (s.setMon m x).fab = s.fab := rfl
@[simp] theorem State.setMon_cores (s : State) (m : Fin 16) (x : Monitor) : (s.setMon m x).cores = s.cores := rfl
@[simp] theorem State.setMon_bars (s : State) (m : Fin 16) (x : Monitor) : (s.setMon m x).bars = s.bars := rfl
@[simp] theorem State.setMon_time (s : State) (m : Fin 16) (x : Monitor) : (s.setMon m x).time = s.time := rfl
@[simp] theorem State.setMon_sched (s : State) (m : Fin 16) (x : Monitor) : (s.setMon m x).sched = s.sched := rfl
@[simp] theorem State.setMon_fw (s : State) (m : Fin 16) (x : Monitor) : (s.setMon m x).fw = s.fw := rfl
@[simp] theorem State.setMon_flt (s : State) (m : Fin 16) (x : Monitor) : (s.setMon m x).flt = s.flt := rfl
@[simp] theorem State.setMon_sec (s : State) (m : Fin 16) (x : Monitor) : (s.setMon m x).sec = s.sec := rfl
@[simp] theorem State.setMon_pwr (s : State) (m : Fin 16) (x : Monitor) : (s.setMon m x).pwr = s.pwr := rfl
@[simp] theorem State.setMon_cpu (s : State) (m : Fin 16) (x : Monitor) : (s.setMon m x).cpu = s.cpu := rfl
@[simp] theorem State.setMon_gw (s : State) (m : Fin 16) (x : Monitor) : (s.setMon m x).gw = s.gw := rfl
@[simp] theorem State.setMon_media (s : State) (m : Fin 16) (x : Monitor) : (s.setMon m x).media = s.media := rfl
@[simp] theorem State.setMon_wde (s : State) (m : Fin 16) (x : Monitor) : (s.setMon m x).wde = s.wde := rfl
@[simp] theorem State.setMon_on (s : State) (m : Fin 16) (x : Monitor) : (s.setMon m x).on = s.on := rfl
@[simp] theorem State.setMon_busy (s : State) (m : Fin 16) (x : Monitor) : (s.setMon m x).busy = s.busy := rfl
@[simp] theorem State.setMon_gated (s : State) (m : Fin 16) (x : Monitor) : (s.setMon m x).gated = s.gated := rfl
@[simp] theorem State.setMon_freeCtr (s : State) (m : Fin 16) (x : Monitor) : (s.setMon m x).freeCtr = s.freeCtr := rfl

/-! `setPkg` -/

@[simp] theorem State.setPkg_pending (s : State) (k : Nat) : (s.setPkg k).pending = s.pending := by unfold State.setPkg; split <;> rfl
@[simp] theorem State.setPkg_mem (s : State) (k : Nat) : (s.setPkg k).mem = s.mem := by unfold State.setPkg; split <;> rfl
@[simp] theorem State.setPkg_fixed (s : State) (k : Nat) : (s.setPkg k).fixed = s.fixed := by unfold State.setPkg; split <;> rfl
@[simp] theorem State.setPkg_fab (s : State) (k : Nat) : (s.setPkg k).fab = s.fab := by unfold State.setPkg; split <;> rfl
@[simp] theorem State.setPkg_cores (s : State) (k : Nat) : (s.setPkg k).cores = s.cores := by unfold State.setPkg; split <;> rfl
@[simp] theorem State.setPkg_bars (s : State) (k : Nat) : (s.setPkg k).bars = s.bars := by unfold State.setPkg; split <;> rfl
@[simp] theorem State.setPkg_time (s : State) (k : Nat) : (s.setPkg k).time = s.time := by unfold State.setPkg; split <;> rfl
@[simp] theorem State.setPkg_sched (s : State) (k : Nat) : (s.setPkg k).sched = s.sched := by unfold State.setPkg; split <;> rfl
@[simp] theorem State.setPkg_fw (s : State) (k : Nat) : (s.setPkg k).fw = s.fw := by unfold State.setPkg; split <;> rfl
@[simp] theorem State.setPkg_flt (s : State) (k : Nat) : (s.setPkg k).flt = s.flt := by unfold State.setPkg; split <;> rfl
@[simp] theorem State.setPkg_sec (s : State) (k : Nat) : (s.setPkg k).sec = s.sec := by unfold State.setPkg; split <;> rfl
@[simp] theorem State.setPkg_pwr (s : State) (k : Nat) : (s.setPkg k).pwr = s.pwr := by unfold State.setPkg; split <;> rfl
@[simp] theorem State.setPkg_chk (s : State) (k : Nat) : (s.setPkg k).chk = s.chk := by unfold State.setPkg; split <;> rfl
@[simp] theorem State.setPkg_cpu (s : State) (k : Nat) : (s.setPkg k).cpu = s.cpu := by unfold State.setPkg; split <;> rfl
@[simp] theorem State.setPkg_gw (s : State) (k : Nat) : (s.setPkg k).gw = s.gw := by unfold State.setPkg; split <;> rfl
@[simp] theorem State.setPkg_media (s : State) (k : Nat) : (s.setPkg k).media = s.media := by unfold State.setPkg; split <;> rfl
@[simp] theorem State.setPkg_wde (s : State) (k : Nat) : (s.setPkg k).wde = s.wde := by unfold State.setPkg; split <;> rfl
@[simp] theorem State.setPkg_on (s : State) (k : Nat) : (s.setPkg k).on = s.on := by unfold State.setPkg; split <;> rfl
@[simp] theorem State.setPkg_busy (s : State) (k : Nat) : (s.setPkg k).busy = s.busy := by unfold State.setPkg; split <;> rfl
@[simp] theorem State.setPkg_gated (s : State) (k : Nat) : (s.setPkg k).gated = s.gated := by unfold State.setPkg; split <;> rfl
@[simp] theorem State.setPkg_freeCtr (s : State) (k : Nat) : (s.setPkg k).freeCtr = s.freeCtr := by unfold State.setPkg; split <;> rfl

/-! Reads after a change -/

@[simp] theorem State.reg_setReg_same (s : State) (b : Blk) (i off : Nat) (v : Word) : (s.setReg b i off v).reg b i off = v := by
  simp [State.reg]

theorem State.reg_setReg_other (s : State) (b c : Blk) (i j o q : Nat) (v : Word) (h : (⟨c, j, q⟩ : RegKey) ≠ ⟨b, i, o⟩) :
    (s.setReg b i o v).reg c j q = s.reg c j q := by
  simp [State.reg, h]

@[simp] theorem State.core_setCore_same (s : State) (c : CoreId) (x : CoreState) : (s.setCore c x).core c = x := by
  simp [State.core, State.setCore]

theorem State.core_setCore_other (s : State) {c d : CoreId} (x : CoreState) (h : d ≠ c) : (s.setCore c x).core d = s.core d := by
  simp [State.core, State.setCore, h]

@[simp] theorem State.core_setReg (s : State) (b : Blk) (i off : Nat) (v : Word) (c : CoreId) : (s.setReg b i off v).core c = s.core c := rfl

@[simp] theorem State.reg_setCore (s : State) (c : CoreId) (x : CoreState) (b : Blk) (i off : Nat) :
    (s.setCore c x).reg b i off = s.reg b i off := rfl

@[simp] theorem State.wheel_setWheel_same (s : State) (w : Fin 4) (x : Wheel) : (s.setWheel w x).wheel w = x := by
  simp [State.wheel, State.setWheel]

@[simp] theorem State.part_setPart_same (s : State) (p : Fin 32) (x : Part) : (s.setPart p x).part p = some x := by
  simp [State.part, State.setPart]

@[simp] theorem State.gwq_setGwq_same (s : State) (i : Fin 32) (x : GwQueue) : (s.setGwq i x).gwq i = x := by
  simp [State.gwq, State.setGwq]

@[simp] theorem State.pdu_setPdu_same (s : State) (n : Fin 8192) (x : Pdu) : (s.setPdu n x).pdu n = some x := by
  simp [State.pdu, State.setPdu]

end Sys2Proof.Machine
end

