-- ==== Sys2Proof/Tests/Samples.lean ====
section
/-! SUPPORT. Small states and words that the tests and the witnesses of the statements start from. -/

namespace Sys2Proof.Tests

open Sys2Proof Sys2Proof.Machine

/-- A running package: every domain on, every firmware processor and the management core running, PWR_STAT at READY with coolant. -/
def on : State :=
  let s := State.reset
  let s := { s with
    on := BitVec.allOnes 116,
    fw := { s.fw with
      mcRunning := true,
      fps := (List.finRange 8).map (fun k => (k, ⟨.running, 0, 0, 0, 0, []⟩)) } }
  (s.setPkg pkREADY).setFld .pwr 0 Reg.PWR_STAT 2 2 1

/-- The first core. -/
def c0 : CoreId := ⟨⟨0, 0⟩, 0⟩

/-- A normal-world source outside the tensor cores on the Vehicle die, and a firmware source. -/
def host : Src := { die := 6, agent := 16, world := false, ctx := 0, gen := 0, cls := 0, fw := false }
def firm : Src := { die := 6, agent := 8, world := true, ctx := 0, gen := 0, cls := 0, fw := true }

/-- A ring entry: an opcode and values placed at a byte offset and a bit. -/
def ent (op : Nat) (fields : List (Nat × Nat × Nat)) : BitVec 512 :=
  BitVec.ofNat 512 (op * 2 ^ 24 + (fields.map (fun f => f.2.2 * 2 ^ (f.1 * 8 + f.2.1))).sum)

/-- An open ring pair. -/
def openRing : Ring := { Ring.closed with isOpen := true, sqN := 4, cqN := 4, sqBase := 0xC00000600000, cqBase := 0xC00000601000 }

/-- A state in which a pair has taken an entry. -/
def taken (p : Fin 64) (e : BitVec 512) (s : State) : State :=
  { s with fw := { s.fw with rings := s.fw.rings.set p { openRing with taken := some e, world := decide (p = 1) } } }

/-- A number of zero bytes, and an entry of four words. -/
def zeros (n : Nat) : List Byte := List.replicate n 0
def words128 (ws : List Nat) : BitVec 128 := BitVec.ofNat 128 (ws.reverse.foldl (fun (acc w : Nat) => acc * 2 ^ 32 + w) 0)

/-- A word of an instruction from values placed at their lowest bits. -/
def wd (fields : List (Nat × Nat)) : BitVec 56 := BitVec.ofNat 56 (fields.map (fun f => f.2 * 2 ^ f.1)).sum

/-- A running core, and a state whose first core has these contents. -/
def coreRun : CoreState := { CoreState.reset with run := true, idle := false }
def onCore (x : CoreState) : State := on.putCore c0 x
def coreOn : State := onCore coreRun

/-- A state in which the first pair of cores is in lockstep. -/
def lockstep (s : State) : State := s.setFld .pcmp 0 Reg.PCMP_STAT 0 0 1

/-- A dense INT8 tile, and a stream instruction of one row at the start of the local store. -/
def tile : WBuf := { WBuf.empty with tag := some ⟨0, 0, false⟩ }
def streamOp : StreamOp :=
  { avac := false, pc := 0, xa := BitVec.ofNat 48 (lsBase c0), stride := 64, xb := 0, m := 1, row := 127, bk := 0, wb := 0, ow := true, cv := 0 }

/-- A core that holds an instruction in the queue of a unit, with A[0] at its local store: VMOV to S[d] (R174), and VIAL store (R191). -/
def holding (u : QUnit) (op : Nat) (w : BitVec 56) (x : CoreState) : CoreState :=
  { x with unitQ := [{ unit := u, op := op, w := w, pc := 0, s := [], a := [(0, BitVec.ofNat 48 (lsBase c0))], ahead := 0 }] }
def moving (d : Nat) : CoreState := holding .vector 0xA7 (wd [(51, d), (24, 3)]) coreRun
def saving : CoreState := holding .attention 0xCA 0 (coreRun.setA 15 (BitVec.ofNat 48 (lsBase c0)))

/-- A posted write of the first core whose outcome is still to come. -/
def post : Tx :=
  { id := 1, isRead := false, src := { die := 0, agent := 0, world := false, ctx := 0, gen := 0, cls := 0, fw := false },
    addr := 0x400000000000, len := 4, data := [1, 2, 3, 4], fail := none, target := 2, chan := 8, since := 0, dst := 0,
    signalled := false }
def flying (t : Tx) (s : State) : State := { s with fab := { s.fab with tx := [t] } }
def posting : State := flying post coreOn

/-- A wheel that coreRun. -/
def wheel : Wheel := { Wheel.reset with st := .running, begun := true, frame := 7, phase := 100, period := 1000 }
def turning (x : Wheel) (s : State) : State := s.setWheel 0 x

/-- An open ring pair that has taken nothing. -/
def opened (p : Fin 64) (s : State) : State := s.setRing p openRing

/-- The first core with its channel 0 in a given state, and a one-word copy descriptor of it (bits to add) at the start of its local
store. -/
def chan (x : Chan) : State := onCore { coreRun with chans := [(0, x)] }
def copyDesc (more : List (Nat × Nat × Nat)) : BitVec 512 := ent 0 ([(0x14, 0, 4), (0x18, 0, 1), (0x18, 16, 1)] ++ more)
def placed (a : Nat) (n : Nat) (v : Nat) (s : State) : State := s.store a (leBytes n v)
def headed (more : List (Nat × Nat × Nat)) : State :=
  placed (lsBase c0) 64 (copyDesc more).toNat (chan { Chan.idle with head := some 0 })

/-- A latent error of one bit whose write-back is due. -/
def flipped (g : Nat) : State := { on with fab := { on.fab with ecc := [(g, .single)], eccWb := [g] } }

/-- Words written at offsets from an address. -/
def words (a : Nat) (l : List (Nat × Nat)) (s : State) : State := l.foldl (fun s f => placed (a + f.1) 4 f.2 s) s

/-- A partition of the first cluster with one kind, a descriptor of a job of it and an instance. -/
def desc : JobDesc :=
  { part := 0, kind := 0, tag := 1, arg := 0xC00000700000, res := 0xC00000700100, pri := 0, pair := 0, opcode := 18, cmdid := 5, notify := 1 }
def kind : Kind :=
  { typ := .periodic, num := 0, firstRec := 0, lastRec := 0, launch := 200, deadline := 500, worst := 100, accLen := 10, accPhase := 1000,
    entry := 0x40, qdepth := 0, plead := 0, input := 0, armed := true, armFrame := 0, desc := some desc, staged := none, nextSeq := 1,
    lastFrame := none, hit := none }
def queue : Kind := { kind with typ := .queued, accPhase := 0xFFFF, qdepth := 1, plead := 64 }
def prec : PRec := { cl := ⟨0, 0⟩, cores := 1, pairs := 0, csEnd := 256, csStart := 0 }
def part : Part :=
  { ctx := 0, wheel := 0, cls := 0, paired := false, recs := [prec], yline := 0x1000, argline := 0x2000, kinds := [kind], res := [],
    formula := [], cert := [], wpkg := [], group := 0, unloading := false, failed := false, fenced := false, rearm := [],
    unloadBy := none, code := [] }
def job : Job := newJob 0 part kind desc false 7
def launched : Job := { job with launched := true, running := [c0] }
def scheduled (x : Wheel) (p : Part) (js : List Job) : State :=
  { on with sched := { on.sched with wheels := [(0, x)], parts := [(0, p)], jobs := js } }

/-- A partition descriptor, a certificate of one kind and a formula header at the addresses that the entry of a PART_LOAD names, and a
wheel of 16 ms for it (R268, R272, R634). -/
def loadable : State :=
  let s := (turning { wheel with period := 16000000 } on).setReg .whl 0 (Reg.WHL_CFGw 0) 0x80000000
  let s := words 0xC00000700000 [(0, 0x50445331), (4, 0x280001), (0x10, 0x1000), (0x14, 0x2000), (0x18, 1), (0x20, 0x100), (0x24, 0x1000000)] s
  let s := words 0xC00000701000 [(0, 0x4E5A4331), (4, 0x2000001), (0x48, 16000000), (0x4C, 200000000), (0x50, 77), (0x54, 1), (0x58, 0x14000),
    (0x64, 200), (0x68, 500), (0x6C, 100), (0x70, 0x6203E8), (0x74, 0x40)] s
  let s := placed 0xC00000701008 32 (leNat (sha256 (leBytes 4 0x4E5A4631 ++ leBytes 4 0x400001 ++ leBytes 4 1 ++ zeros 52))) s
  let s := placed 0xC00000701028 32 (leNat (sha256 (leBytes 4 0x100 ++ leBytes 4 0x1000000))) s
  words 0xC00000702000 [(0, 0x4E5A4631), (4, 0x400001), (8, 1)] s

/-- A datagram sealed under a session key: header with an address, encrypted payload and tag (R351, R352). -/
def sealedWith (magic : Nat) (key : List Byte) (op pair : Nat) (seq : BitVec 64) (a : Nat) (pt : List Byte) : List Byte :=
  let h := (tpHeader magic op 0 pt.length 9 pair seq).take 24 ++ leBytes 8 a
  let (ct, tag) := gcmSeal key (tpNonce 9 seq) h pt
  h ++ ct ++ tag

/-- A datagram of the host of pair 2, its request on session 9, and the session. -/
def hostPeer : RapPeer := { port := 0, v6 := false, addr := 0, udp := 0 }
def dgram (bs : List Byte) : RapDgram :=
  let b := State.reset.fixed.board
  { peer := hostPeer, vlan := b.rapVlan, dst := b.rapV4.setWidth 128, udp := b.rapPort, frag := false, bytes := bs }
def rap (op a : Nat) (pt : List Byte) : RapDgram := dgram (sealedWith 0x4852 (rapKey [] [] [] 9) op 2 1 a pt)
def session : Session :=
  { pair := 2, id := 9, established := true, openedLt := 0, lastValid := 0, lastNotify := none, nonceHost := [], nonceDev := [], peer := hostPeer,
    done := [] }
def remote (xs : List Session) (s : State) : State :=
  let s := s.setRing 2 { openRing with remote := true, windows := [(0xC00000700000, 0x100000, true, true)] }
  { s with fw := { s.fw with sessions := xs } }

/-- The first CPU pair in a given state. -/
def cpus (x : CpuPair) (s : State) : State := { s with cpu := { s.cpu with pairs := [(0, x)] } }
def cpuOn : State := cpus { CpuPair.off with st := .running } on

/-- A dirty line of the shared cache with an error, and a wired interrupt source. -/
def cline : CLine := { cache := .shared, addr := 0xC00000700000, way := 0, world := false, dirty := some (zeros 64), err := some .double }
def caching (l : List CLine) : State := { cpuOn with cpu := { cpuOn.cpu with lines := l } }
def wire : AplicSrc := { enable := true, page := 0, eiid := 1, seen := false, pend := false }

/-- A CAN frame, and a controller 0 that runs with a pending buffer. -/
def frame : CanFrame :=
  { id := 5, ide := false, rtr := false, fdf := false, xlf := false, brs := false, esi := false, sdt := 0, vcid := 0, af := 0, data := [1] }
def canOn (x : Can) (more : Nat) : State := (on.setCan 0 x).setReg .can 0 Reg.CAN_CTRL (BitVec.ofNat 32 (4 + more))
def canBuf (q : Option (Fin 32)) : Can := { Can.reset with bufs := [(31, ⟨frame, q⟩)] }
def filtered (dst : Word) : State := ((canOn Can.reset 0).setReg .can 0 (Reg.CAN_FLTIDf 63) 0x80000005).setReg .can 0 (Reg.CAN_FLTDSTf 63) dst

/-- A LIN controller 0: LIN_CTRL and its contents. -/
def linOn (v : Word) (x : Lin) : State := (on.setLin 0 x).setReg .lin 0 Reg.LIN_CTRL v
def lin : Lin := { Lin.reset with sched := [(63, 1)], active := true }

/-- An Ethernet frame of 64 bytes, a switch whose port 0 is enabled with its link up, and the first host queue in a given state. -/
def eth (q : Option (Fin 32)) : EthFrame := { bytes := List.replicate 64 0, ingress := 10, stamp := 0, queue := q }
def switched (s : State) : State := (s.setFld .sw 0 (Reg.SW_PCFGp 0) 31 31 1).setFld .sw 0 (Reg.SW_PSTATp 0) 1 1 1
def gwq : GwQueue := { GwQueue.off with st := 1, n := 4, base := 0xC00000700000 }
def queued (x : GwQueue) (s : State) : State := s.setGwq 0 x

/-- A source PDU on CAN controller 0 and a target PDU. -/
def pdu : Pdu :=
  { bus := 0, ctrl := 0, target := false, len := 8, fdf := false, brs := false, ide := false, id := 5, txmode := 1, period := 100, phase := 0,
    tmpl := 0, slot := 0, buf := List.replicate 64 0, lastRx := 0, timedOut := false, lastSent := none }

/-- A PCI Express link that is up, its first inbound window, and a target behind it. -/
def linkUp (s : State) : State := s.setFld .pci 0 Reg.PCI_STAT 31 28 2
def windowed (attr : Word) : State :=
  ((linkUp on).setReg .pci 0 (Reg.PCI_WINSIZEw 0) 0x1000).setReg .pci 0 (Reg.PCI_WINATTRw 0) attr
def pciAt : Nat := 0xDC0000000000

/-- A stream of receiver 15 (R556) and a frame that it receives. -/
def cam : Machine.Stream :=
  { vc := 15, dt := 0x2A, wheel := 0, ctx := 0, height := 8, width := 16, isp := true, cls := 1, fmt := 0, slots := 2, linetime := 4,
    planes := [0], stride := 64, slotstr := 512, record := 0, due := 100, tune := 0, tuneNext := 0, cur := none, ended := [] }
def rx : FrameRx := { frame := 7, lines := 8, crc := 0, sof := 0, eof := some 5, failed := false, late := false, trunc := false }
def filmed (x : Machine.Stream) (s : State) : State := { s with media := { s.media with streams := [(63, x)] } }

/-- A graphics queue with a pass of no wait. -/
def pass : Pass :=
  { entry := 0, irq := false, wait := none, started := false, desc := ⟨passMagic, 1, 1, 1, true, none, none, []⟩, res := 0, flushes := 0, flushLeft := 0,
    chunks := 0, next := 0, flushed := [], failed := false, before := [], given := [] }
def gfxq : GfxQueue := { GfxQueue.off with st := 1, n := 4, base := 0xE00000700000, pass := some pass }
def drawing (q : Fin 16) (x : GfxQueue) (s : State) : State := { s with media := { s.media with gfx := s.media.gfx.set q x } }

/-- An output 5 that is enabled and trained, of 4 lines with 2 active, at a line. -/
def shown (l : Nat) (s : State) : State :=
  let s := (s.setReg .dsp 5 Reg.DSP_CFG 0x80000000).setReg .dsp 5 Reg.DSP_VTIM 0x40002
  { s with media := { s.media with trained := 0x3F, line := [(5, l)] } }
def plane : PlaneRec :=
  { images := [0, 0], fmt := .argb8888, src := ⟨0, 0, 1, 1⟩, dst := ⟨0, 0, 1, 1⟩, size := (1, 1), stride := 64, flags := none, slot := 0 }
def texture : Texture := { base := 0, width := 1, log := 0, stride := none, flags := none, sparse := some (0xC00000700000, 0xC00000701000) }
def codec : Codec := { ctx := 0, cls := 1, encode := true, rate := 1, ring := 0xE00000700000, next := 0 }

/-- A Woade port 7 in a given state, a flow, a flit and a received message of no payload. -/
def wport (st : Nat) : WPort := { WPort.reset with st := st, since := 0 }
def wired (x : WPort) (s : State) : State := { s with wde := { s.wde with ports := [(7, x)] } }
def flow : WFlow := { ctx := 0, cls := 0, sched := false, dev := 1, rq := 0, seq := 0, buf := [] }
def flit : Flit := { src := 1, dst := 0, flow := 255, sched := false, vc := 0, first := true, last := true, data := [] }
def message : WRx := { bytes := List.replicate 12 0 ++ leBytes 4 (crc32c (List.replicate 12 0)).toNat, port := 7, stamp := 0 }

/-- The package at a given LT. -/
def timed (t : Nat) (s : State) : State := { s with time := { s.time with lt := BitVec.ofNat 64 t } }

/-- A monitor of slice 0 on the sample wheel, a pairing with the sample partition's kind, and a state that holds them. -/
def monitor : Monitor :=
  { slice := 0, wheel := 0, launch := 50, deadline := 300, shares := [], formula := [], cert := [], running := none, final := none }
def pairing : Pairing :=
  { active := true, lasting := false, part := 0, kind := 0, mon := 15, cphase := 600, plist := (0xC00000708000, 1, 64),
    mlist := (0xC00000709000, 1, 64), prog := 0xC00000704000, vtab := 0xC00000705000, marg := 0xC00000706000, firstFrame := 0, compared := none,
    pend := [], by_ := none }
def verdict : Verdict :=
  { frame := 7, verdict := 1, reason := 0, up := 0, um := 0, cm := 0, bv := 0, matched := 0, lt := 0, primary := 1, accord := true, debug := false }
def checked (ms : AMap (Fin 16) Monitor) (ps : AMap (Fin 16) Pairing) (s : State) : State :=
  { s with chk := { s.chk with mons := ms, pairs := ps } }
/-- A monitor certificate and formula header as R401 and R634 have them, and a pairing descriptor with its program (R405, R409). -/
def monitorFiles : State :=
  let s := (turning { wheel with period := 16000000 } on).setReg .whl 0 (Reg.WHL_CFGw 0) 0x80000000
  let s := words 0xC00000701000 [(0, 0x4E5A4331), (4, 0x2000001), (0x48, 16000000), (0x4C, 200000000), (0x50, 194), (0x54, 1), (0x58, 0x14000),
    (0x64, 200), (0x68, 0xFEFF), (0x6C, 100), (0x70, 0xFFFF), (0x74, 0x40)] s
  let s := placed 0xC00000701008 32 (leNat (sha256 (leBytes 4 0x4E5A4D31 ++ leBytes 4 0x400001 ++ leBytes 4 1 ++ zeros 52))) s
  let s := placed 0xC00000701028 32 (leNat (sha256 (leBytes 16 3))) s
  words 0xC00000702000 [(0, 0x4E5A4D31), (4, 0x400001), (8, 1)] s
def pairingFiles (s : State) : State :=
  let s := words 0xC00000700000 [(0, 0x53504131), (4, 0x400001), (8, 0xFF0000), (0xC, 0x14000), (0x14, 0x80_0000), (0x1C, 0x10_0000),
    (0x28, 0x704000), (0x2C, 0xC000), (0x30, 0x705000), (0x34, 0xC000), (0x38, 0x706000), (0x3C, 0xC000)] s
  words 0xC00000704000 [(0, 0x43505231), (4, 0x1400001), (8, 1)] s

/-- Fault state of the package. -/
def faulty (f : FaultState → FaultState) : State := { on with flt := f on.flt }
def event : Ev := { source := 0x42A60100, cls := 1, stamp := 1000000002, scope := .report }

/-- A live context 5 of a slice, and a management session that is established. -/
def ctx5 : Ctx := { world := false, slice := 0, slot := 0, closing := false, blocked := false, discards := 0 }
def secured (s : State) : State := { s with sec := { s.sec with ctxs := [(5, ctx5)] } }
def removal : Removal := { ctx := 5, pair := 0, cmdid := 0, since := 0, advanced := false }
def removing (r : Removal) : State :=
  { on with sec := { on.sec with ctxs := [(5, { ctx5 with closing := true })], removals := [r] } }
def mgmt : Mgmt := { id := 9, cred := 7, ns := [], nd := [], secret := [], established := true, lastValid := 0, done := [] }
def mdgram (bs : List Byte) : MgmtDgram :=
  let b := State.reset.fixed.board
  { v6 := false, addr := 0, src := 0, dst := b.mgmtV4.setWidth 128, udp := b.mgmtPort, frag := false, bytes := bs }
def mreq (op : Nat) (pt : List Byte) : MgmtDgram := mdgram (sealedWith 0x484D (mgmtKey [] [] []) op 0 1 0 pt)
def managed (xs : List Mgmt) : State :=
  { on with sec := { on.sec with mgmt := xs }, fixed := { on.fixed with roles := [(7, (true, true))] } }
def slice1 : Slice := { world := false, slots := 1, parts := 1, ctxs := 1, mcShare := 0, dpShare := 0, clusters := [], dram := [] }
def sliced (n : Fin 64) (x : Slice) (s : State) : State := { s with sec := { s.sec with slices := [(n, x)] } }

/-- A weight package of one line of zeros whose key of zeros is wrapped under a group key (R474), and a state in which group 1 has a key of
zeros, context 5 a region and the package stands in memory. -/
def wpkg (gk formula : List Byte) : List Byte :=
  let h := leBytes 4 0x57504B31 ++ leBytes 4 0x800001 ++ leBytes 4 1 ++ leBytes 4 1 ++ formula
  let (ek, kt) := gcmSeal gk (zeros 12) h (zeros 32)
  let h := h ++ zeros 12 ++ ek ++ kt ++ zeros 20
  let (ct, tag) := gcmSeal (zeros 32) (zeros 12) h (zeros 64)
  h ++ ct ++ tag
def packed (bs : List Byte) : State :=
  placed 0xC00000700000 bs.length (leNat bs)
    { on with sec := { on.sec with ctxs := [(5, ctx5)], groups := [(1, zeros 32)], regions := [⟨6, 256, 1, 5, false⟩] } }

/-- What a clean range is, as one decidable statement. -/
theorem clean_iff (s : State) (a n : Nat) :
    s.clean a n ↔ (∀ g ∈ s.granules a n, s.fab.ecc.get? g = none) ∧
      (s.doubled a = true → ∀ g ∈ s.granules (a + 0x100000) n, s.fab.ecc.get? g = none) ∧
      ∀ l ∈ s.fab.landing, ¬(l.addr < a + n ∧ a < l.addr + l.old.length) :=
  ⟨fun h => ⟨h.own, h.checker, h.landed⟩, fun h => ⟨h.1, h.2.1, h.2.2⟩⟩

end Sys2Proof.Tests
end

