-- ==== Sys2Proof/WellFormed.lean ====
section
/-! DEFINITION. Commands that the package's surroundings can give: the ranges of operands whose type does not say them. The meanings
are total; on an ill-formed command they take the same definitions, and no statement rests on what they give there. -/

namespace Sys2Proof

open Machine

/-- A read or write of a PCIe endpoint has no data, or has its data. -/
def pcieShape (isRead : Bool) (len : Nat) (data : List Byte) : Bool := if isRead then data.isEmpty && decide (0 < len) else len == data.length && decide (0 < len)

/-- Payload lengths of the frame formats (R516). -/
def Machine.CanFrame.wf (f : CanFrame) : Bool :=
  (f.ide || decide (f.id.toNat < 2048)) && decide (f.data.length ≤ (if f.xlf then 2048 else if f.fdf then 64 else 8))

/-- Well-formed commands. -/
def Instr.wf : Instr → Bool
  | .registerWrite _ _ size v => decide (0 < size.val) && decide (size.val ≤ 8) && decide (v.toNat < 2 ^ (8 * size.val))
  | .readRequest _ _ len _ => decide (0 < len)
  | .postedWrite _ _ data => !data.isEmpty
  | .shareWindowStart _ i _ => decide (i < 64)
  | .dramRefresh i | .driftCompensation i | .dramTempRead i _ => decide (i < 64)
  | .dramCeWriteback g | .lsEccWriteback g | .csEccWriteback g => decide (g < 2 ^ 48)
  | .rapOpen _ _ nd => nd.length == 16
  | .fpRunning _ digest => digest.length == 8
  | .groupKeyInstall _ gk => (gk.map (·.length == 32)).getD true
  | .mgmtHello _ _ nd sig => nd.length == 32 && sig.length == 384
  | .mgmtAuth _ secret => (secret.map (·.length == 32)).getD true
  | .pkgAttest _ sig => sig.length == 384
  | .cpuIoLoad _ _ size _ _ => decide (0 < size)
  | .cpuIoStore _ _ data _ _ => !data.isEmpty
  | .canFrameReceive _ f _ _ _ => f.wf
  | .linFrameEnd _ (some (data, _, _)) => decide (data.length ≤ 8)
  | .pcieOutboundRequest _ _ isRead len data _ => pcieShape isRead len data
  | .pcieInboundRequest _ isRead len data _ => pcieShape isRead len data
  | .codecPicture _ _ _ err _ => decide (err.val ≠ 1)
  | .woadeSlotStart back => back.length == 8
  | .resetRelease _ steps => decide (steps.length ≤ 8)
  | _ => true

end Sys2Proof
end

