-- ==== Sys2Proof/Tests/Slice0.lean ====
section
/-! SUPPORT. Small tests: an ill-formed term for each check of Instr.wf, and worked examples of the specification's own text. -/

namespace Sys2Proof.Tests

open Sys2Proof.Machine

set_option Elab.async false

/-! ### Ill-formed commands, each beside a well-formed neighbour -/

theorem test_wf_registerWrite_size : (Instr.registerWrite host 0 0 0).wf = false ∧ (Instr.registerWrite host 0 4 0xFFFFFFFF).wf = true := by decide +kernel
theorem test_wf_registerWrite_value : (Instr.registerWrite host 0 4 0x100000000).wf = false := by decide +kernel
theorem test_wf_readRequest : (Instr.readRequest host 0 0 none).wf = false ∧ (Instr.readRequest host 0 1 none).wf = true := by decide +kernel
theorem test_wf_postedWrite : (Instr.postedWrite host 0 []).wf = false ∧ (Instr.postedWrite host 0 [1]).wf = true := by decide +kernel
theorem test_wf_shareWindowStart : (Instr.shareWindowStart true 64 []).wf = false ∧ (Instr.shareWindowStart true 63 []).wf = true := by decide +kernel
theorem test_wf_dramRefresh : (Instr.dramRefresh 64).wf = false ∧ (Instr.dramRefresh 63).wf = true := by decide +kernel
theorem test_wf_driftCompensation : (Instr.driftCompensation 64).wf = false := by decide +kernel
theorem test_wf_dramTempRead : (Instr.dramTempRead 64 0).wf = false := by decide +kernel
theorem test_wf_dramCeWriteback : (Instr.dramCeWriteback (2 ^ 48)).wf = false ∧ (Instr.dramCeWriteback (2 ^ 48 - 1)).wf = true := by decide +kernel
theorem test_wf_lsEccWriteback : (Instr.lsEccWriteback (2 ^ 48)).wf = false := by decide +kernel
theorem test_wf_csEccWriteback : (Instr.csEccWriteback (2 ^ 48)).wf = false := by decide +kernel
theorem test_wf_rapOpen : (Instr.rapOpen (dgram []) 0 (zeros 17)).wf = false ∧ (Instr.rapOpen (dgram []) 0 (zeros 16)).wf = true := by
  decide +kernel
theorem test_wf_fpRunning : (Instr.fpRunning 0 []).wf = false ∧ (Instr.fpRunning 0 (List.replicate 8 0)).wf = true := by decide +kernel
theorem test_wf_groupKeyInstall : (Instr.groupKeyInstall 0 (some (zeros 31))).wf = false ∧ (Instr.groupKeyInstall 0 (some (zeros 32))).wf = true ∧
    (Instr.groupKeyInstall 0 none).wf = true := by decide +kernel
theorem test_wf_mgmtHello : (Instr.mgmtHello (mdgram []) 0 (zeros 33) (zeros 384)).wf = false ∧
    (Instr.mgmtHello (mdgram []) 0 (zeros 32) (zeros 383)).wf = false ∧ (Instr.mgmtHello (mdgram []) 0 (zeros 32) (zeros 384)).wf = true := by
  decide +kernel
theorem test_wf_mgmtAuth : (Instr.mgmtAuth (mdgram []) (some [])).wf = false ∧ (Instr.mgmtAuth (mdgram []) none).wf = true := by decide +kernel
theorem test_wf_pkgAttest : (Instr.pkgAttest (mdgram []) []).wf = false := by decide +kernel
theorem test_wf_cpuIoLoad : (Instr.cpuIoLoad 0 0 0 true 0).wf = false := by decide +kernel
theorem test_wf_cpuIoStore : (Instr.cpuIoStore 0 0 [] true 0).wf = false := by decide +kernel
theorem test_wf_canFrame_id : (Instr.canFrameReceive 0 { frame with id := 2048 } 0 true 0).wf = false ∧
    (Instr.canFrameReceive 0 { frame with id := 2048, ide := true } 0 true 0).wf = true := by decide +kernel
theorem test_wf_canFrame_length : (Instr.canFrameReceive 0 { frame with data := zeros 9 } 0 true 0).wf = false ∧
    (Instr.canFrameReceive 0 { frame with data := zeros 9, fdf := true } 0 true 0).wf = true ∧
    (Instr.canFrameReceive 0 { frame with data := zeros 65, fdf := true } 0 true 0).wf = false := by decide +kernel
theorem test_wf_linFrameEnd : (Instr.linFrameEnd 0 (some (zeros 9, true, true))).wf = false ∧
    (Instr.linFrameEnd 0 (some (zeros 8, true, true))).wf = true := by decide +kernel
theorem test_wf_pcieOutbound : (Instr.pcieOutboundRequest host 0 true 4 [1] none).wf = false ∧
    (Instr.pcieOutboundRequest host 0 true 4 [] none).wf = true := by decide +kernel
theorem test_wf_pcieInbound : (Instr.pcieInboundRequest 0 false 4 [1] false).wf = false ∧ (Instr.pcieInboundRequest 0 false 1 [1] false).wf = true := by decide +kernel
theorem test_wf_codecPicture : (Instr.codecPicture 0 [] 0 1 none).wf = false ∧ (Instr.codecPicture 0 [] 0 2 none).wf = true := by decide +kernel
theorem test_wf_woadeSlotStart : (Instr.woadeSlotStart []).wf = false ∧ (Instr.woadeSlotStart (List.replicate 8 (0, 0))).wf = true := by decide +kernel
theorem test_wf_resetRelease : (Instr.resetRelease true (List.replicate 9 ⟨1, none⟩)).wf = false := by decide +kernel

/-! ### Worked examples of the specification -/

/-- Decoding addresses (R35 to R38): byte 0x1234 of core 5 of cluster 9 of Tolid 4; channel 1 of Tolid 2. -/
theorem test_address_localStore : on.target 0x900012501234 = .ls ⟨⟨4, 9⟩, 5⟩ 0x1234 := by decide +kernel
theorem test_address_dram : addrDie 0x400200001800 = 2 ∧ mcOf 0x400200001800 % 8 = 1 := by decide +kernel

/-- MXFP4 values at scale byte 0x7C (R61): 0.75, -0.1875, 0.0625 and -0. -/
theorem test_mxfp4_values : [0b0111, 0b1011, 0b0001, 0b1000].map (fun c => (fpack 0 (scaled (elemVal 7 c) (scaleExp 0x7C))).1) =
    [0x3F400000, 0xBE400000, 0x3D800000, 0x80000000] := by decide +kernel

/-- 1.4375 * 2^-9 to E4M3 (R75): 1.5 * 2^-9 at destination precision, then code 2, the even one of two. -/
theorem test_round_twice : (narrowElem false 2 0 false 0x3B380000).1 = 2 := by decide +kernel

/-- Nested loops sharing an end (R137, R138): one back-edge of the inner level; then a back-edge of the outer one in the same evaluation. -/
theorem test_loops_inner : evalLoops [⟨1, 0x1020, 0x1038, 4⟩, ⟨0, 0x1008, 0x1038, 3⟩] 0x1038 =
    ([⟨1, 0x1020, 0x1038, 3⟩, ⟨0, 0x1008, 0x1038, 3⟩], 0x1020, true) := by decide +kernel
theorem test_loops_outer : evalLoops [⟨1, 0x1020, 0x1038, 1⟩, ⟨0, 0x1008, 0x1038, 3⟩] 0x1038 = ([⟨0, 0x1008, 0x1038, 2⟩], 0x1008, true) := by decide +kernel

/-- The budget with every domain on is 553.5 W, in units of 0.25 W (R386). -/
theorem test_budget_all : on.budgetSum = 2214 := by decide +kernel

/-- LSECC_U of core 3 in cluster 5 of Tolid 2 (R437). -/
theorem test_source_id : sourceId .tc (2 * 96 + 5 * 8 + 3) 1 0 = 0x42A60100 := by decide +kernel

/-- Routes 200 and 201 (R536): 8,012 becomes 0x642 and 140 becomes 0x012C; the target then holds 0x20, 0x64, 0x2C, 0x01. -/
theorem test_route_200 : routeValue (words128 [12 * 2 ^ 19 + 23 * 2 ^ 10 + 15 * 32 + 16, 40 * 2 ^ 19 + 4 * 2 ^ 10 + 11 * 32 + 5, 0x3333, 0])
    [0, 0, 0x1F, 0x4C] = 0x642 := by decide +kernel
theorem test_route_201 : routeValue (words128 [13 * 2 ^ 19 + 8 * 2 ^ 10 + 7 * 32, 40 * 2 ^ 19 + 16 * 2 ^ 10 + 15 * 32 + 13, 0x50000, 0xFFFFFE70])
    [0, 0x8C] = 0x012C := by decide +kernel
theorem test_route_target : writeSig (writeSig (List.replicate 8 0) 0x642 (sigBits false 4 12)) 0x12C (sigBits false 16 16) =
    [0x20, 0x64, 0x2C, 0x01, 0, 0, 0, 0] := by decide +kernel

/-- Published vectors of the algorithms that R352, R474 and R477 name: SHA-256 of "abc" (FIPS 180-4), HMAC-SHA-256 of RFC 4231 case 2,
AES-256 of FIPS 197 C.3, AES-256-GCM of a block of zeros under a key and nonce of zeros. -/
theorem test_sha256 : beNat (sha256 [0x61, 0x62, 0x63]) = 0xba7816bf8f01cfea414140de5dae2223b00361a396177a9cb410ff61f20015ad := by decide +kernel
theorem test_hmac : beNat (hmac256 [0x4a, 0x65, 0x66, 0x65] (beBytes 28 0x7768617420646f2079612077616e7420666f72206e6f7468696e673f)) =
    0x5bdcc146bf60754e6a042426089575c75a003f089d2739839dec58b964ec3843 := by decide +kernel
theorem test_aes256 : aesBlock (aesKeys ((List.range 32).map (BitVec.ofNat 8))) 0x00112233445566778899aabbccddeeff =
    0x8ea2b7ca516745bfeafc49904b496089 := by decide +kernel
theorem test_gcm : (gcmSeal (zeros 32) (zeros 12) [] (zeros 16)).map beNat beNat =
    (0xcea7403d4d606b6e074ec5d3baf39d18, 0xd0d1c8a799996bf0265b98b5d48ab919) := by decide +kernel

/-! ### One step -/

theorem test_step_idle : step { State.reset with pending := [] } = .next State.reset := rfl

/-- SOPI ADD S6, S0, 5 writes 5 to S6 and moves the program counter on. -/
theorem test_step_sopi : ∃ t, step { coreOn with pending := [.sopi c0 (wd [(51, 6), (0, 5)])] } = .next t ∧ (t.core c0).getS 6 = 5 ∧
    (t.core c0).pc = 8 ∧ t.pending = [] := ⟨_, rfl, by decide +kernel, by decide +kernel, by decide +kernel⟩

end Sys2Proof.Tests
end

