-- ==== Sys2Proof/Tests/WitnessCores.lean ====
section
/-! SUPPORT. States and operands that meet the hypotheses of the statements about cores and their instructions, clause by clause. -/

namespace Sys2Proof.Tests

open Sys2Proof.Machine

set_option Elab.async false

theorem witness_ScalarAndBranchInstructionsComplete :
    (let c : CoreId := c0
     let w : BitVec 56 := 0
     let s : State := coreOn
     rsvI w = true ∧ s.ready c 1 w = true) ∧
    (let c : CoreId := c0
     let w : BitVec 56 := 0
     let s : State := coreOn
     rsvI w = true ∧ s.ready c 2 w = true) ∧
    (let c : CoreId := c0
     let w : BitVec 56 := wd [(51, 31), (46, 5), (41, 9)]
     let s : State := onCore (coreRun.setS 9 31)
     let v : Word := (scalarFn (fnR w) ((s.core c).getS (iRS1 w)) ((s.core c).getS (iRS2 w))).getD 0
     rsvR w = true ∧ scalarFn (fnR w) ((s.core c).getS (iRS1 w)) ((s.core c).getS (iRS2 w)) = some v ∧ s.ready c 4 w = true) ∧
    (let c : CoreId := c0
     let w : BitVec 56 := wd [(51, 31), (0, 0xFFFFFFFF)]
     let s : State := coreOn
     let v : Word := (scalarFn (fnI w) ((s.core c).getS (iRS1 w)) (iIMM w)).getD 0
     rsvI w = true ∧ fnI w ≠ 1 ∧ scalarFn (fnI w) ((s.core c).getS (iRS1 w)) (iIMM w) = some v ∧ s.ready c 5 w = true) ∧
    (let c : CoreId := c0
     let w : BitVec 56 := wd [(51, 31), (0, 0x14)]
     let s : State := coreOn
     let v : Word := (s.special c (BitVec.toNat (iIMM w))).getD 0
     rsvI w = true ∧ iIMM w ≠ 0 ∧ iIMM w ≠ 21 ∧ s.special c (BitVec.toNat (iIMM w)) = some v ∧ s.ready c 6 w = true) ∧
    (let c : CoreId := c0
     let w : BitVec 56 := wd [(51, 31)]
     let s : State := coreOn
     rsvI w = true ∧ iIMM w = 0 ∧ s.ready c 6 w = true) ∧
    (let c : CoreId := c0
     let w : BitVec 56 := wd [(51, 31), (0, 0x15)]
     let s : State := coreOn
     let v : Word := (s.special c 21).getD 0
     rsvI w = true ∧ iIMM w = 21 ∧ s.special c 21 = some v ∧ (s.locked c.pair = false ∨ iRD w % 32 = 0) ∧ s.ready c 6 w = true) ∧
    (let c : CoreId := c0
     let w : BitVec 56 := wd [(51, 31), (0, 0x15)]
     let s : State := lockstep coreOn
     rsvI w = true ∧ iIMM w = 21 ∧ c.isPrimary = true ∧ s.locked c.pair = true ∧ iRD w % 32 ≠ 0 ∧ s.ready c 6 w = true) ∧
    (let c : CoreId := c0
     let w : BitVec 56 := wd [(51, 15), (46, 15), (41, 31)]
     let s : State := coreOn
     rsvR w = true ∧ iRD w < 16 ∧ iRS1 w < 16 ∧ s.ready c 8 w = true) ∧
    (let c : CoreId := c0
     let w : BitVec 56 := wd [(51, 15), (46, 15), (0, 0xFFFFFFFF)]
     let s : State := coreOn
     rsvI w = true ∧ iRD w < 16 ∧ iRS1 w < 16 ∧ s.ready c 9 w = true) ∧
    (let c : CoreId := c0
     let w : BitVec 56 := wd [(51, 15), (0, 0xFFFFFFFFFFFF)]
     let s : State := coreOn
     rsvX w = true ∧ iRD w < 16 ∧ s.ready c 10 w = true) ∧
    (let c : CoreId := c0
     let w : BitVec 56 := wd [(51, 31), (46, 15)]
     let s : State := coreOn
     rsvR w = true ∧ iRS1 w < 16 ∧ fnR w = 0 ∧ s.ready c 11 w = true) ∧
    (let c : CoreId := c0
     let w : BitVec 56 := wd [(51, 31), (46, 15), (37, 1)]
     let s : State := coreOn
     rsvR w = true ∧ iRS1 w < 16 ∧ fnR w = 1 ∧ s.ready c 11 w = true) ∧
    (let c : CoreId := c0
     let w : BitVec 56 := wd [(51, 15), (46, 31), (41, 31)]
     let s : State := coreOn
     rsvR w = true ∧ iRD w < 16 ∧ s.ready c 12 w = true) ∧
    (let c : CoreId := c0
     let w : BitVec 56 := wd [(0, 0xFFFF8)]
     let s : State := coreOn
     rsvB w = true ∧ tgtOk w = true ∧ condHolds (bitsOf w 45 43) ((s.core c).getS (iRD w)) ((s.core c).getS (iRS1 w)) = some true ∧
       s.ready c 16 w = true) ∧
    (let c : CoreId := c0
     let w : BitVec 56 := wd [(43, 1)]
     let s : State := coreOn
     rsvB w = true ∧ tgtOk w = true ∧ condHolds (bitsOf w 45 43) ((s.core c).getS (iRD w)) ((s.core c).getS (iRS1 w)) = some false ∧
       s.ready c 16 w = true) ∧
    (let c : CoreId := c0
     let w : BitVec 56 := wd [(51, 31), (0, 0xFFFF8)]
     let s : State := coreOn
     rsvB w = true ∧ tgtOk w = true ∧ s.ready c 17 w = true) ∧
    (let c : CoreId := c0
     let w : BitVec 56 := wd [(51, 31), (0, 0xFFFF8)]
     let s : State := coreOn
     rsvB w = true ∧ tgtOk w = true ∧ s.ready c 18 w = true) ∧
    (let c : CoreId := c0
     let w : BitVec 56 := wd [(51, 31)]
     let s : State := onCore (coreRun.setS 31 0xFFFF8)
     rsvB w = true ∧ tgtOk w = true ∧ bitsOf ((s.core c).getS (iRD w)) 2 0 = 0 ∧ bitsOf ((s.core c).getS (iRD w)) 31 20 = 0 ∧ s.ready c 19
       w = true) ∧
    (let c : CoreId := c0
     let w : BitVec 56 := wd [(51, 31), (41, 3), (0, 8)]
     let s : State := onCore (coreRun.setS 31 1)
     rsvB w = true ∧ tgtOk w = true ∧ (s.core c).pc.toNat + 8 ≤ (iTGT w).toNat ∧ (∀ (l : Machine.Loop), l ∈ (s.core c).loops → l.lv.val ≠
       bitsOf w 42 41 ∧ l.start.toNat ≤ (s.core c).pc.toNat + 8 ∧ iTGT w ≤ l.stop) ∧ (s.core c).getS (iRD w) ≠ 0 ∧ s.ready c 20 w = true) ∧
    (let c : CoreId := c0
     let w : BitVec 56 := wd [(51, 31), (41, 3), (0, 8)]
     let s : State := coreOn
     rsvB w = true ∧ tgtOk w = true ∧ (s.core c).pc.toNat + 8 ≤ (iTGT w).toNat ∧ (∀ (l : Machine.Loop), l ∈ (s.core c).loops → l.lv.val ≠
       bitsOf w 42 41 ∧ l.start.toNat ≤ (s.core c).pc.toNat + 8 ∧ iTGT w ≤ l.stop) ∧ (s.core c).getS (iRD w) = 0 ∧ s.ready c 20 w = true) ∧
    (let c : CoreId := c0
     let w : BitVec 56 := wd [(41, 3), (20, 0xFFFFF), (0, 0xFFFF8)]
     let s : State := coreOn
     rsvB w = true ∧ tgtOk w = true ∧ (s.core c).pc.toNat + 8 ≤ (iTGT w).toNat ∧ (∀ (l : Machine.Loop), l ∈ (s.core c).loops → l.lv.val ≠
       bitsOf w 42 41 ∧ l.start.toNat ≤ (s.core c).pc.toNat + 8 ∧ iTGT w ≤ l.stop) ∧ bitsOf w 39 20 ≠ 0 ∧ s.ready c 21 w = true) ∧
    (let c : CoreId := c0
     let w : BitVec 56 := wd [(41, 3), (0, 8)]
     let s : State := coreOn
     rsvB w = true ∧ tgtOk w = true ∧ (s.core c).pc.toNat + 8 ≤ (iTGT w).toNat ∧ (∀ (l : Machine.Loop), l ∈ (s.core c).loops → l.lv.val ≠
       bitsOf w 42 41 ∧ l.start.toNat ≤ (s.core c).pc.toNat + 8 ∧ iTGT w ≤ l.stop) ∧ bitsOf w 39 20 = 0 ∧ s.ready c 21 w = true) ∧
    (let c : CoreId := c0
     let s : State := onCore { coreRun with pc := 0xFC000 }
     s.canIssue c = true ∧ inAccord (s.core c).pc.toNat = true) ∧
    (let c : CoreId := c0
     let w : BitVec 56 := wd [(51, 31), (46, 5), (41, 9)]
     let s : State := onCore (moving 5)
     s.canIssue c = true ∧ inAccord (s.core c).pc.toNat = false ∧ (s.core c).interlocked 4 w = true) ∧
    (let c : CoreId := c0
     let w : BitVec 56 := wd [(51, 31), (46, 15)]
     let s : State := onCore (moving 31)
     s.canIssue c = true ∧ inAccord (s.core c).pc.toNat = false ∧ (s.core c).interlocked 11 w = true) ∧
    (let c : CoreId := c0
     let w : BitVec 56 := wd [(51, 5)]
     let s : State := onCore (moving 5)
     s.canIssue c = true ∧ inAccord (s.core c).pc.toNat = false ∧ (s.core c).interlocked 16 w = true) := by
  refine ⟨?_, ?_, ?_, ?_, ?_, ?_, ?_, ?_, ?_, ?_, ?_, ?_, ?_, ?_, ?_, ?_, ?_, ?_, ?_, ?_, ?_, ?_, ?_, ?_, ?_, ?_, ?_⟩ <;> decide +kernel

/-- A primary in lockstep reads PAIRED. -/
theorem witness_ScalarAndBranchInstructionsComplete_paired :
    let s : State := lockstep coreOn
    let w : BitVec 56 := wd [(51, 31), (0, 0x15)]
    rsvI w = true ∧ iIMM w = 21 ∧ c0.isPrimary = true ∧ s.locked c0.pair = true ∧ iRD w % 32 ≠ 0 ∧ s.ready c0 6 w = true ∧
      ∃ t, exec (.srd c0 w) s = .next t :=
  ⟨by decide +kernel, by decide +kernel, by decide +kernel, by decide +kernel, by decide +kernel, by decide +kernel, ⟨_, rfl⟩⟩

theorem witness_PredicateInstructionsComplete :
    (let c : CoreId := c0
     let w : BitVec 56 := wd [(51, 7), (46, 7), (41, 7)]
     let s : State := coreOn
     rsvR w = true ∧ iRD w < 8 ∧ iRS1 w < 8 ∧ iRS2 w < 8 ∧ fnR w = 0 ∧ s.ready c 24 w = true) ∧
    (let c : CoreId := c0
     let w : BitVec 56 := wd [(51, 7), (46, 7), (41, 7), (37, 1)]
     let s : State := coreOn
     rsvR w = true ∧ iRD w < 8 ∧ iRS1 w < 8 ∧ iRS2 w < 8 ∧ fnR w = 1 ∧ s.ready c 24 w = true) ∧
    (let c : CoreId := c0
     let w : BitVec 56 := wd [(51, 7), (46, 7), (41, 7), (37, 2)]
     let s : State := coreOn
     rsvR w = true ∧ iRD w < 8 ∧ iRS1 w < 8 ∧ iRS2 w < 8 ∧ fnR w = 2 ∧ s.ready c 24 w = true) ∧
    (let c : CoreId := c0
     let w : BitVec 56 := wd [(51, 7), (46, 7), (41, 7), (37, 3)]
     let s : State := coreOn
     rsvR w = true ∧ iRD w < 8 ∧ iRS1 w < 8 ∧ iRS2 w < 8 ∧ fnR w = 3 ∧ s.ready c 24 w = true) ∧
    (let c : CoreId := c0
     let w : BitVec 56 := wd [(51, 7), (46, 7), (41, 7), (37, 4)]
     let s : State := coreOn
     rsvR w = true ∧ iRD w < 8 ∧ iRS1 w < 8 ∧ iRS2 w < 8 ∧ fnR w = 4 ∧ s.ready c 24 w = true) ∧
    (let c : CoreId := c0
     let w : BitVec 56 := wd [(51, 7), (0, 64)]
     let s : State := coreOn
     rsvI w = true ∧ iRD w < 8 ∧ BitVec.toNat (iIMM w) ≤ 64 ∧ fnI w = 0 ∧ s.ready c 25 w = true) ∧
    (let c : CoreId := c0
     let w : BitVec 56 := wd [(51, 7), (42, 1), (0, 64)]
     let s : State := coreOn
     rsvI w = true ∧ iRD w < 8 ∧ BitVec.toNat (iIMM w) ≤ 64 ∧ fnI w = 1 ∧ s.ready c 25 w = true) ∧
    (let c : CoreId := c0
     let w : BitVec 56 := wd [(51, 31), (46, 7)]
     let s : State := coreOn
     rsvR w = true ∧ iRS1 w < 8 ∧ fnR w = 0 ∧ s.ready c 26 w = true) ∧
    (let c : CoreId := c0
     let w : BitVec 56 := wd [(51, 31), (46, 7), (37, 1)]
     let s : State := coreOn
     rsvR w = true ∧ iRS1 w < 8 ∧ fnR w = 1 ∧ s.ready c 26 w = true) ∧
    (let c : CoreId := c0
     let w : BitVec 56 := wd [(51, 31), (46, 7), (37, 2)]
     let s : State := coreOn
     rsvR w = true ∧ iRS1 w < 8 ∧ fnR w = 2 ∧ s.ready c 26 w = true) ∧
    (let c : CoreId := c0
     let w : BitVec 56 := wd [(51, 7), (46, 31), (41, 31)]
     let s : State := coreOn
     rsvR w = true ∧ iRD w < 8 ∧ s.ready c 27 w = true) ∧
    (let n : Nat := 64
     let i : Nat := 63
     n ≤ 64 ∧ i < 64) := by
  refine ⟨?_, ?_, ?_, ?_, ?_, ?_, ?_, ?_, ?_, ?_, ?_, ?_⟩ <;> decide +kernel

theorem witness_HardWiredRegisters :
    (let i : Nat := 31
     let j : Nat := 30
     i < 32 ∧ j < 32) ∧
    (let i : Nat := 31
     let j : Nat := 30
     i < 32 ∧ j < 32) ∧
    (let i : Nat := 31
     let j : Nat := 30
     i < 32 ∧ j < 32) ∧
    (let i : Nat := 31
     let j : Nat := 30
     i < 32 ∧ j < 32 ∧ i ≠ 0) ∧
    (let i : Nat := 31
     let j : Nat := 30
     i < 32 ∧ j < 32 ∧ i ≠ j) ∧
    (let i : Nat := 7
     let j : Nat := 30
     i < 32 ∧ j < 32 ∧ i < 8 ∧ i ≠ 0) ∧
    (let i : Nat := 7
     let j : Nat := 1
     i < 32 ∧ j < 32 ∧ i < 8 ∧ j < 8 ∧ i ≠ j) := by
  refine ⟨?_, ?_, ?_, ?_, ?_, ?_, ?_⟩ <;> decide +kernel

theorem witness_IllFormedWordsRaiseIllegal :
    (let c : CoreId := c0
     let w : BitVec 56 := wd [(32, 1)]
     let s : State := coreOn
     rsvI w = false ∧ s.ready c 1 w = true) ∧
    (let c : CoreId := c0
     let w : BitVec 56 := wd [(32, 1)]
     let s : State := coreOn
     rsvI w = false ∧ s.ready c 2 w = true) ∧
    (let c : CoreId := c0
     let w : BitVec 56 := wd [(32, 1), (0, 6)]
     let s : State := coreOn
     rsvI w = false ∧ s.ready c 6 w = true) ∧
    (let c : CoreId := c0
     let w : BitVec 56 := wd [(32, 1)]
     let s : State := coreOn
     rsvI w = false ∧ s.ready c 5 w = true) ∧
    (let c : CoreId := c0
     let w : BitVec 56 := wd [(32, 1)]
     let s : State := coreOn
     rsvI w = false ∧ s.ready c 9 w = true) ∧
    (let c : CoreId := c0
     let w : BitVec 56 := wd [(32, 1)]
     let s : State := coreOn
     rsvI w = false ∧ s.ready c 25 w = true) ∧
    (let c : CoreId := c0
     let w : BitVec 56 := wd [(0, 1)]
     let s : State := coreOn
     rsvR w = false ∧ s.ready c 4 w = true) ∧
    (let c : CoreId := c0
     let w : BitVec 56 := wd [(0, 1)]
     let s : State := coreOn
     rsvR w = false ∧ s.ready c 8 w = true) ∧
    (let c : CoreId := c0
     let w : BitVec 56 := wd [(0, 1)]
     let s : State := coreOn
     rsvR w = false ∧ s.ready c 24 w = true) ∧
    (let c : CoreId := c0
     let w : BitVec 56 := wd [(0, 1)]
     let s : State := coreOn
     rsvR w = false ∧ s.ready c 12 w = true) ∧
    (let c : CoreId := c0
     let w : BitVec 56 := wd [(0, 4)]
     let s : State := coreOn
     (rsvB w = false ∨ tgtOk w = false) ∧ s.ready c 16 w = true) ∧
    (let c : CoreId := c0
     let w : BitVec 56 := wd [(0, 4)]
     let s : State := coreOn
     (rsvB w = false ∨ tgtOk w = false) ∧ s.ready c 17 w = true) ∧
    (let c : CoreId := c0
     let w : BitVec 56 := wd [(0, 4)]
     let s : State := coreOn
     (rsvB w = false ∨ tgtOk w = false) ∧ s.ready c 20 w = true) ∧
    (let c : CoreId := c0
     let w : BitVec 56 := wd [(37, 15)]
     let s : State := coreOn
     fnR w = 15 ∧ s.ready c 4 w = true) ∧
    (let c : CoreId := c0
     let w : BitVec 56 := wd [(0, 6)]
     let s : State := coreOn
     s.special c (BitVec.toNat (iIMM w)) = none ∧ s.ready c 6 w = true) := by
  refine ⟨?_, ?_, ?_, ?_, ?_, ?_, ?_, ?_, ?_, ?_, ?_, ?_, ?_, ?_, ?_⟩ <;> decide +kernel

theorem witness_LoadsAndStoresComplete :
    (let c : CoreId := c0
     let w : BitVec 56 := wd [(51, 31), (46, 15), (0, 0xFFFFF)]
     let s : State := onCore (coreRun.setA 15 (BitVec.ofNat 48 (lsBase c0)))
     let n : Nat := 1
     rsvM w = true ∧ iRS1 w < 16 ∧ ownRange c (s.ea c w) n = true ∧ (s.core c).unitWrites (s.ea c w) n = false ∧ (s.coreRead (s.ea c w)
       n).2.2 = none ∧ s.ready c 32 w = true) ∧
    (let c : CoreId := c0
     let w : BitVec 56 := wd [(51, 31), (46, 15), (0, 0xFFFFF)]
     let s : State := onCore (coreRun.setA 15 (BitVec.ofNat 48 (lsBase c0)))
     let n : Nat := 1
     rsvM w = true ∧ iRS1 w < 16 ∧ ownRange c (s.ea c w) n = true ∧ (s.core c).unitWrites (s.ea c w) n = false ∧ (s.coreRead (s.ea c w)
       n).2.2 = none ∧ s.ready c 33 w = true) ∧
    (let c : CoreId := c0
     let w : BitVec 56 := wd [(51, 31), (46, 15), (0, 0xFFFFE)]
     let s : State := onCore (coreRun.setA 15 (BitVec.ofNat 48 (lsBase c0)))
     let n : Nat := 2
     rsvM w = true ∧ iRS1 w < 16 ∧ ownRange c (s.ea c w) n = true ∧ (s.core c).unitWrites (s.ea c w) n = false ∧ (s.coreRead (s.ea c w)
       n).2.2 = none ∧ s.ea c w % 2 = 0 ∧ s.ready c 34 w = true) ∧
    (let c : CoreId := c0
     let w : BitVec 56 := wd [(51, 31), (46, 15), (0, 0xFFFFE)]
     let s : State := onCore (coreRun.setA 15 (BitVec.ofNat 48 (lsBase c0)))
     let n : Nat := 2
     rsvM w = true ∧ iRS1 w < 16 ∧ ownRange c (s.ea c w) n = true ∧ (s.core c).unitWrites (s.ea c w) n = false ∧ (s.coreRead (s.ea c w)
       n).2.2 = none ∧ s.ea c w % 2 = 0 ∧ s.ready c 35 w = true) ∧
    (let c : CoreId := c0
     let w : BitVec 56 := wd [(51, 31), (46, 15), (0, 0xFFFFC)]
     let s : State := onCore (coreRun.setA 15 (BitVec.ofNat 48 (lsBase c0)))
     let n : Nat := 4
     rsvM w = true ∧ iRS1 w < 16 ∧ ownRange c (s.ea c w) n = true ∧ (s.core c).unitWrites (s.ea c w) n = false ∧ (s.coreRead (s.ea c w)
       n).2.2 = none ∧ s.ea c w % 4 = 0 ∧ s.ready c 36 w = true) ∧
    (let c : CoreId := c0
     let w : BitVec 56 := wd [(51, 15), (46, 15), (0, 0xFFFF8)]
     let s : State := onCore (coreRun.setA 15 (BitVec.ofNat 48 (lsBase c0)))
     let n : Nat := 8
     rsvM w = true ∧ iRS1 w < 16 ∧ ownRange c (s.ea c w) n = true ∧ (s.core c).unitWrites (s.ea c w) n = false ∧ (s.coreRead (s.ea c w)
       n).2.2 = none ∧ s.ea c w % 8 = 0 ∧ iRD w < 16 ∧ s.ready c 37 w = true) ∧
    (let c : CoreId := c0
     let w : BitVec 56 := wd [(51, 31), (46, 15), (0, 0xFFF00)]
     let s : State := onCore (coreRun.setA 15 (BitVec.ofNat 48 (lsBase c0)))
     let n : Nat := 256
     rsvM w = true ∧ iRS1 w < 16 ∧ ownRange c (s.ea c w) n = true ∧ (s.core c).unitWrites (s.ea c w) n = false ∧ (s.coreRead (s.ea c w)
       n).2.2 = none ∧ s.ea c w % 64 = 0 ∧ s.ready c 44 w = true) ∧
    (let c : CoreId := c0
     let w : BitVec 56 := wd [(51, 31), (46, 15)]
     let s : State := onCore saving
     rsvM w = true ∧ iRS1 w < 16 ∧ s.ea c w % 4 = 0 ∧ ownRange c (s.ea c w) 4 = true ∧ s.ready c 36 w = true ∧ (s.core c).unitWrites (s.ea
       c w) 4 = true) ∧
    (let c : CoreId := c0
     let w : BitVec 56 := wd [(51, 31), (46, 15)]
     let s : State := { onCore (coreRun.setA 15 (BitVec.ofNat 48 (lsBase c0))) with fab := { on.fab with ecc := [(lsBase c0, .double)] } }
     let g : Nat := ((s.coreRead (s.ea c w) 4).2.2).getD 0
     rsvM w = true ∧ iRS1 w < 16 ∧ s.ea c w % 4 = 0 ∧ ownRange c (s.ea c w) 4 = true ∧ s.ready c 36 w = true ∧ (s.core c).unitWrites (s.ea
       c w) 4 = false ∧ (s.coreRead (s.ea c w) 4).2.2 = some g) ∧
    (let s : State := onCore (coreRun.setA 15 (BitVec.ofNat 48 (lsBase c0)))
     let a : Nat := 0
     let n : Nat := 0
     s.clean a n) ∧
    (let c : CoreId := c0
     let w : BitVec 56 := wd [(51, 31), (46, 15), (0, 0xFBFFF)]
     let s : State := onCore (coreRun.setA 15 (BitVec.ofNat 48 (lsBase c0)))
     rsvM w = true ∧ iRS1 w < 16 ∧ s.mayStore c (s.ea c w) 1 1 ∧ s.ready c 40 w = true) ∧
    (let c : CoreId := c0
     let w : BitVec 56 := wd [(51, 31), (46, 15), (0, 0xFBFFE)]
     let s : State := onCore (coreRun.setA 15 (BitVec.ofNat 48 (lsBase c0)))
     rsvM w = true ∧ iRS1 w < 16 ∧ s.mayStore c (s.ea c w) 2 2 ∧ s.ready c 41 w = true) ∧
    (let c : CoreId := c0
     let w : BitVec 56 := wd [(51, 31), (46, 15), (0, 0xFBFFC)]
     let s : State := onCore (coreRun.setA 15 (BitVec.ofNat 48 (lsBase c0)))
     rsvM w = true ∧ iRS1 w < 16 ∧ s.mayStore c (s.ea c w) 4 4 ∧ s.ready c 42 w = true) ∧
    (let c : CoreId := c0
     let w : BitVec 56 := wd [(51, 15), (46, 15), (0, 0xFBFF8)]
     let s : State := onCore (coreRun.setA 15 (BitVec.ofNat 48 (lsBase c0)))
     rsvM w = true ∧ iRS1 w < 16 ∧ iRD w < 16 ∧ s.mayStore c (s.ea c w) 8 8 ∧ s.ready c 43 w = true) ∧
    (let c : CoreId := c0
     let w : BitVec 56 := wd [(41, 7), (46, 15), (0, 0xFBF00)]
     let s : State := onCore (coreRun.setA 15 (BitVec.ofNat 48 (lsBase c0)))
     rsvM w = true ∧ iRS1 w < 16 ∧ iRS2 w < 8 ∧ s.mayStore c (s.ea c w) 64 256 ∧ s.ready c 45 w = true) ∧
    (let c : CoreId := c0
     let w : BitVec 56 := wd [(51, 31), (46, 15)]
     let s : State := onCore saving
     rsvM w = true ∧ iRS1 w < 16 ∧ s.ea c w % 4 = 0 ∧ ownRange c (s.ea c w) 4 = true ∧ (¬(inOwnLs c (s.ea c w) 4 = true ∧ inAccord (s.ea c
       w - lsBase c + 3) = true)) ∧ s.inUse c (s.ea c w) 4 = true ∧ s.ready c 42 w = true) := by
  refine ⟨?_, ?_, ?_, ?_, ?_, ?_, ?_, ?_, ?_, ?_, ?_, ?_, ?_, ?_, ?_, ?_⟩
  · decide +kernel
  · decide +kernel
  · decide +kernel
  · decide +kernel
  · decide +kernel
  · decide +kernel
  · decide +kernel
  · decide +kernel
  · decide +kernel
  · simp -zeta only [clean_iff]; decide +kernel
  · unfold State.mayStore; decide +kernel
  · unfold State.mayStore; decide +kernel
  · unfold State.mayStore; decide +kernel
  · unfold State.mayStore; decide +kernel
  · unfold State.mayStore; decide +kernel
  · decide +kernel

theorem witness_AtomicsComplete :
    (let c : CoreId := c0
     let w : BitVec 56 := wd [(51, 31), (46, 15), (41, 31), (0, 0xFFFFFC)]
     let s : State := onCore (coreRun.setA 15 (BitVec.ofNat 48 (csBase c0.cl)))
     rsvM w = true ∧ iRS1 w < 16 ∧ s.ea c w % 4 = 0 ∧ inOwnCs c (s.ea c w) 4 = true ∧ s.clean (s.ea c w) 4 ∧ (∀ (l : Nat × Fin 32), l ∈
       s.flt.lockWords → l.fst ≠ s.ea c w) ∧ s.ready c 48 w = true) ∧
    (let c : CoreId := c0
     let w : BitVec 56 := wd [(51, 31), (46, 15), (41, 31), (0, 0xFFFFFC)]
     let s : State := onCore (coreRun.setA 15 (BitVec.ofNat 48 (csBase c0.cl)))
     rsvM w = true ∧ iRS1 w < 16 ∧ s.ea c w % 4 = 0 ∧ inOwnCs c (s.ea c w) 4 = true ∧ s.clean (s.ea c w) 4 ∧ (∀ (l : Nat × Fin 32), l ∈
       s.flt.lockWords → l.fst ≠ s.ea c w) ∧ s.ready c 49 w = true) ∧
    (let c : CoreId := c0
     let w : BitVec 56 := wd [(51, 31), (46, 15), (41, 31), (0, 0xFFFFFC)]
     let s : State := onCore (coreRun.setA 15 (BitVec.ofNat 48 (csBase c0.cl)))
     rsvM w = true ∧ iRS1 w < 16 ∧ s.ea c w % 4 = 0 ∧ inOwnCs c (s.ea c w) 4 = true ∧ s.clean (s.ea c w) 4 ∧ (∀ (l : Nat × Fin 32), l ∈
       s.flt.lockWords → l.fst ≠ s.ea c w) ∧ s.load32 (s.ea c w) = (s.core c).getS (iRD w) ∧ s.ready c 50 w = true) ∧
    (let c : CoreId := c0
     let w : BitVec 56 := wd [(51, 31), (46, 15), (41, 31), (0, 0xFFFFFC)]
     let s : State := onCore ((coreRun.setA 15 (BitVec.ofNat 48 (csBase c0.cl))).setS 31 1)
     rsvM w = true ∧ iRS1 w < 16 ∧ s.ea c w % 4 = 0 ∧ inOwnCs c (s.ea c w) 4 = true ∧ s.clean (s.ea c w) 4 ∧ (∀ (l : Nat × Fin 32), l ∈
       s.flt.lockWords → l.fst ≠ s.ea c w) ∧ s.load32 (s.ea c w) ≠ (s.core c).getS (iRD w) ∧ s.ready c 50 w = true) := by
  refine ⟨?_, ?_, ?_, ?_⟩ <;> (simp -zeta only [clean_iff]; decide +kernel)

theorem witness_BadAddressesRaiseAccess :
    (let c : CoreId := c0
     let w : BitVec 56 := wd [(46, 14), (0, 1)]
     let s : State := onCore (coreRun.setA 15 (BitVec.ofNat 48 (lsBase c0)))
     rsvM w = true ∧ iRS1 w < 16 ∧ ownRange c (s.ea c w) 1 = false ∧ s.ready c 32 w = true) ∧
    (let c : CoreId := c0
     let w : BitVec 56 := wd [(46, 14), (0, 1)]
     let s : State := onCore (coreRun.setA 15 (BitVec.ofNat 48 (lsBase c0)))
     rsvM w = true ∧ iRS1 w < 16 ∧ ownRange c (s.ea c w) 1 = false ∧ s.ready c 33 w = true) ∧
    (let c : CoreId := c0
     let w : BitVec 56 := wd [(46, 14), (0, 1)]
     let s : State := onCore (coreRun.setA 15 (BitVec.ofNat 48 (lsBase c0)))
     rsvM w = true ∧ iRS1 w < 16 ∧ ownRange c (s.ea c w) 1 = false ∧ s.ready c 40 w = true) ∧
    (let c : CoreId := c0
     let w : BitVec 56 := wd [(46, 15), (0, 1)]
     let s : State := onCore (coreRun.setA 15 (BitVec.ofNat 48 (lsBase c0)))
     rsvM w = true ∧ iRS1 w < 16 ∧ (s.ea c w % 2 ≠ 0 ∨ ownRange c (s.ea c w) 2 = false) ∧ s.ready c 34 w = true) ∧
    (let c : CoreId := c0
     let w : BitVec 56 := wd [(46, 15), (0, 1)]
     let s : State := onCore (coreRun.setA 15 (BitVec.ofNat 48 (lsBase c0)))
     rsvM w = true ∧ iRS1 w < 16 ∧ (s.ea c w % 2 ≠ 0 ∨ ownRange c (s.ea c w) 2 = false) ∧ s.ready c 35 w = true) ∧
    (let c : CoreId := c0
     let w : BitVec 56 := wd [(46, 15), (0, 1)]
     let s : State := onCore (coreRun.setA 15 (BitVec.ofNat 48 (lsBase c0)))
     rsvM w = true ∧ iRS1 w < 16 ∧ (s.ea c w % 2 ≠ 0 ∨ ownRange c (s.ea c w) 2 = false) ∧ s.ready c 41 w = true) ∧
    (let c : CoreId := c0
     let w : BitVec 56 := wd [(46, 15), (0, 2)]
     let s : State := onCore (coreRun.setA 15 (BitVec.ofNat 48 (lsBase c0)))
     rsvM w = true ∧ iRS1 w < 16 ∧ (s.ea c w % 4 ≠ 0 ∨ ownRange c (s.ea c w) 4 = false) ∧ s.ready c 36 w = true) ∧
    (let c : CoreId := c0
     let w : BitVec 56 := wd [(46, 15), (0, 2)]
     let s : State := onCore (coreRun.setA 15 (BitVec.ofNat 48 (lsBase c0)))
     rsvM w = true ∧ iRS1 w < 16 ∧ (s.ea c w % 4 ≠ 0 ∨ ownRange c (s.ea c w) 4 = false) ∧ s.ready c 42 w = true) ∧
    (let c : CoreId := c0
     let w : BitVec 56 := wd [(46, 15), (0, 1)]
     let s : State := onCore (coreRun.setA 15 (BitVec.ofNat 48 (lsBase c0)))
     rsvM w = true ∧ iRS1 w < 16 ∧ (s.ea c w % 8 ≠ 0 ∨ ownRange c (s.ea c w) 8 = false) ∧ iRD w < 16 ∧ s.ready c 37 w = true) ∧
    (let c : CoreId := c0
     let w : BitVec 56 := wd [(46, 15), (0, 1)]
     let s : State := onCore (coreRun.setA 15 (BitVec.ofNat 48 (lsBase c0)))
     rsvM w = true ∧ iRS1 w < 16 ∧ (s.ea c w % 8 ≠ 0 ∨ ownRange c (s.ea c w) 8 = false) ∧ iRD w < 16 ∧ s.ready c 43 w = true) ∧
    (let c : CoreId := c0
     let w : BitVec 56 := wd [(46, 15), (0, 0xFFF40)]
     let s : State := onCore (coreRun.setA 15 (BitVec.ofNat 48 (lsBase c0)))
     rsvM w = true ∧ iRS1 w < 16 ∧ (s.ea c w % 64 ≠ 0 ∨ ownRange c (s.ea c w) 256 = false) ∧ s.ready c 44 w = true) ∧
    (let c : CoreId := c0
     let w : BitVec 56 := wd [(46, 15), (0, 0xFFF40)]
     let s : State := onCore (coreRun.setA 15 (BitVec.ofNat 48 (lsBase c0)))
     rsvM w = true ∧ iRS1 w < 16 ∧ (s.ea c w % 64 ≠ 0 ∨ ownRange c (s.ea c w) 256 = false) ∧ iRS2 w < 8 ∧ s.ready c 45 w = true) ∧
    (let c : CoreId := c0
     let w : BitVec 56 := wd [(46, 15), (0, 0xFC000)]
     let s : State := onCore (coreRun.setA 15 (BitVec.ofNat 48 (lsBase c0)))
     rsvM w = true ∧ iRS1 w < 16 ∧ inOwnLs c (s.ea c w) 4 = true ∧ inAccord (s.ea c w - lsBase c + 3) = true ∧ s.ready c 42 w = true) ∧
    (let c : CoreId := c0
     let w : BitVec 56 := wd [(46, 15)]
     let s : State := onCore (coreRun.setA 15 (BitVec.ofNat 48 (lsBase c0)))
     rsvM w = true ∧ iRS1 w < 16 ∧ (s.ea c w % 4 ≠ 0 ∨ inOwnCs c (s.ea c w) 4 = false) ∧ s.ready c 48 w = true) ∧
    (let c : CoreId := c0
     let w : BitVec 56 := wd [(46, 15)]
     let s : State := onCore (coreRun.setA 15 (BitVec.ofNat 48 (lsBase c0)))
     rsvM w = true ∧ iRS1 w < 16 ∧ (s.ea c w % 4 ≠ 0 ∨ inOwnCs c (s.ea c w) 4 = false) ∧ s.ready c 49 w = true) ∧
    (let c : CoreId := c0
     let w : BitVec 56 := wd [(46, 15)]
     let s : State := onCore (coreRun.setA 15 (BitVec.ofNat 48 (lsBase c0)))
     rsvM w = true ∧ iRS1 w < 16 ∧ (s.ea c w % 4 ≠ 0 ∨ inOwnCs c (s.ea c w) 4 = false) ∧ s.ready c 50 w = true) := by
  refine ⟨?_, ?_, ?_, ?_, ?_, ?_, ?_, ?_, ?_, ?_, ?_, ?_, ?_, ?_, ?_, ?_⟩ <;> decide +kernel

/-- A running primary core in lockstep stores a word at the start of its local store. -/
theorem witness_StoresTouchOnlyTheirBytes :
    let s : State := lockstep coreOn
    (∃ t, exec (.stw c0 0) s = .next t) ∧ (s.ea c0 0 + 4 ≤ s.ea c0 0 + 4) ∧ (c0.isPrimary = true ∧ s.locked c0.pair = true) ∧
      s.ea c0 0 + 4 < s.ea c0 0 + 0x100000 :=
  ⟨⟨_, rfl⟩, by decide +kernel, by decide +kernel, by decide +kernel⟩

/-- The second core of the first pair adds registers; the third core is neither it nor a checker of its pair. -/
theorem witness_RegisterInstructionsTouchOnlyTheirCore :
    let d : CoreId := { c0 with k := 4 }
    (∃ t, exec (.sop c0 0) coreOn = .next t) ∧ d ≠ c0 ∧ d ≠ c0.pair.checker ∧ RegKey.blk ⟨.pcmp, 0, 0⟩ ≠ .tc :=
  ⟨⟨_, rfl⟩, by decide +kernel, by decide +kernel, by decide +kernel⟩

theorem witness_SynchronisationInstructionsComplete :
    (let c : CoreId := c0
     let w : BitVec 56 := wd [(43, 7), (0, 0xFFFC0)]
     let s : State := coreOn
     let v : Nat := if iF w = true then bitsOf ((s.core c).getS (iRS1 w)) 19 0 else iVAL w
     rsvS w = true ∧ v % 64 = 0 ∧ (Chan.get (s.core c) (iCH w)).queue.length < 4 ∧ s.ready c 56 w = true) ∧
    (let c : CoreId := c0
     let w : BitVec 56 := 0
     let s : State := coreOn
     rsvS w = true ∧ s.ready c 57 w = true) ∧
    (let c : CoreId := c0
     let w : BitVec 56 := wd [(36, 31)]
     let s : State := coreOn
     let n : BitVec 16 := if iF w = true then BitVec.setWidth 16 ((s.core c).getS (iRS1 w)) else BitVec.ofNat 16 (iVAL w)
     rsvS w = true ∧ bitsOf w 19 16 = 0 ∧ n ≤ s.sig c (iSID w).val ∧ iC w = false ∧ s.ready c 58 w = true) ∧
    (let c : CoreId := c0
     let w : BitVec 56 := wd [(36, 31), (26, 1)]
     let s : State := coreOn
     let n : BitVec 16 := if iF w = true then BitVec.setWidth 16 ((s.core c).getS (iRS1 w)) else BitVec.ofNat 16 (iVAL w)
     rsvS w = true ∧ bitsOf w 19 16 = 0 ∧ n ≤ s.sig c (iSID w).val ∧ iC w = true ∧ s.ready c 58 w = true) ∧
    (let c : CoreId := c0
     let w : BitVec 56 := wd [(36, 31), (0, 0xFFFF)]
     let s : State := coreOn
     let n : BitVec 16 := if iF w = true then BitVec.setWidth 16 ((s.core c).getS (iRS1 w)) else BitVec.ofNat 16 (iVAL w)
     rsvS w = true ∧ bitsOf w 19 16 = 0 ∧ s.sig c (iSID w).val < n ∧ s.ready c 58 w = true) ∧
    (let c : CoreId := c0
     let w : BitVec 56 := wd [(43, 7), (36, 31)]
     let s : State := coreOn
     rsvS w = true ∧ s.coreEnabled { cl := c.cl, k := iCH w } = true ∧ s.ready c 59 w = true) ∧
    (let c : CoreId := c0
     let w : BitVec 56 := wd [(51, 31), (28, 0xFF), (0, 15)]
     let s : State := coreOn
     rsvS w = true ∧ bitsOf w 19 4 = 0 ∧ (iMASK w).getLsbD c.k.val = true ∧ s.maskEnabled c.cl (iMASK w) = true ∧ s.bars.get (c.cl,
       Fin.ofNat 16 (iVAL w)) none = none ∧ iMASK w ≠ 1#8 <<< c.k.val ∧ s.ready c 60 w = true) ∧
    (let c : CoreId := c0
     let w : BitVec 56 := wd [(51, 31), (28, 1), (0, 15)]
     let s : State := coreOn
     rsvS w = true ∧ bitsOf w 19 4 = 0 ∧ (iMASK w).getLsbD c.k.val = true ∧ s.maskEnabled c.cl (iMASK w) = true ∧ s.bars.get (c.cl,
       Fin.ofNat 16 (iVAL w)) none = none ∧ iMASK w = 1#8 <<< c.k.val ∧ s.ready c 60 w = true) ∧
    (let c : CoreId := c0
     let w : BitVec 56 := wd [(51, 31), (28, 3), (0, 15)]
     let s : State := { coreOn with bars := [((c0.cl, 15), some ⟨3, 2⟩)] }
     let b : BarSlot := ⟨3, 2⟩
     rsvS w = true ∧ bitsOf w 19 4 = 0 ∧ (iMASK w).getLsbD c.k.val = true ∧ s.maskEnabled c.cl (iMASK w) = true ∧ s.bars.get (c.cl,
       Fin.ofNat 16 (iVAL w)) none = some b ∧ b.mask = iMASK w ∧ b.arrived ||| 1#8 <<< c.k.val = b.mask ∧ s.ready c 60 w = true) ∧
    (let c : CoreId := c0
     let w : BitVec 56 := wd [(0, 1)]
     let s : State := coreOn
     rsvS w = true ∧ bitsOf w 19 2 = 0 ∧ (bitsOf w 1 0 = 1 ∨ 2 ≤ bitsOf w 1 0 ∧ (s.core c).unitsIdle = true) ∧ s.ready c 61 w = true) ∧
    (let c : CoreId := c0
     let w : BitVec 56 := wd [(0, 2)]
     let s : State := onCore { coreRun with streamQ := [streamOp] }
     rsvS w = true ∧ bitsOf w 19 2 = 0 ∧ 2 ≤ bitsOf w 1 0 ∧ (s.core c).unitsIdle = false ∧ s.ready c 61 w = true) ∧
    (let c : CoreId := c0
     let w : BitVec 56 := 0
     let s : State := coreOn
     rsvS w = true ∧ (∀ (t : Tx), t ∈ s.postedOf c → ¬t.id ∈ s.covered c) ∧ s.ready c 62 w = true) ∧
    (let c : CoreId := c0
     let w : BitVec 56 := 0
     let s : State := flying { post with signalled := true } coreOn
     rsvS w = true ∧ (∃ (t : Tx), t ∈ s.postedOf c ∧ t.id ∈ s.covered c) ∧ s.ready c 62 w = true) ∧
    (let c : CoreId := c0
     let w : BitVec 56 := wd [(51, 31), (0, 100)]
     let s : State := turning wheel coreOn
     let t : Nat := if iF w = true then bitsOf ((s.core c).getS (iRS1 w)) 16 0 else bitsOf w 16 0
     let fr : Word := if t < 65536 then (s.core c).jobFrame.get (iWH w) 0 else (s.core c).jobFrame.get (iWH w) 0 + 1
     rsvS w = true ∧ t ≤ 81919 ∧ if iF w = true then bitsOf ((s.core c).getS (iRS1 w)) 31 17 = 0 else bitsOf w 19 17 = 0 ∧ (s.wheel (iWH
       w)).going = true ∧ (s.wheel (iWH w)).passed fr (t % 65536) = true ∧ s.ready c 63 w = true) ∧
    (let c : CoreId := c0
     let w : BitVec 56 := wd [(51, 31), (0, 101)]
     let s : State := turning { wheel with frame := 0 } coreOn
     let t : Nat := if iF w = true then bitsOf ((s.core c).getS (iRS1 w)) 16 0 else bitsOf w 16 0
     let fr : Word := if t < 65536 then (s.core c).jobFrame.get (iWH w) 0 else (s.core c).jobFrame.get (iWH w) 0 + 1
     rsvS w = true ∧ t ≤ 81919 ∧ if iF w = true then bitsOf ((s.core c).getS (iRS1 w)) 31 17 = 0 else bitsOf w 19 17 = 0 ∧ (s.wheel (iWH
       w)).going = true ∧ (s.wheel (iWH w)).passed fr (t % 65536) = false ∧ s.ready c 63 w = true) ∧
    (let c : CoreId := c0
     let w : BitVec 56 := 0
     let s : State := coreOn
     rsvS w = true ∧ (s.core c).unitsIdle = true ∧ s.ready c 64 w = true) ∧
    (let c : CoreId := c0
     let w : BitVec 56 := 0
     let s : State := coreOn
     rsvS w = true ∧ (s.core c).unitsIdle = true ∧ (s.core c).chansSettled = true ∧ s.postedOf c = [] ∧ s.ready c 65 w = true) ∧
    (let c : CoreId := c0
     let w : BitVec 56 := 0
     let s : State := onCore saving
     rsvS w = true ∧ (s.core c).unitsIdle = false ∧ s.ready c 64 w = true) ∧
    (let c : CoreId := c0
     let w : BitVec 56 := 0
     let s : State := onCore saving
     rsvS w = true ∧ (s.core c).unitsIdle = false ∧ s.ready c 65 w = true) ∧
    (let c : CoreId := c0
     let w : BitVec 56 := 0
     let s : State := posting
     rsvS w = true ∧ ((s.core c).chansSettled = false ∨ s.postedOf c ≠ []) ∧ s.ready c 65 w = true) ∧
    (let c : CoreId := c0
     let w : BitVec 56 := wd [(43, 7), (0, 0xFFFC0)]
     let s : State := onCore { coreRun with chans := [(7, { Chan.idle with queue := [0, 64, 128, 192] })] }
     s.ready c 56 w = true ∧ rsvS w = true ∧ iF w = false ∧ iVAL w % 64 = 0 ∧ 4 ≤ (Chan.get (s.core c) (iCH w)).queue.length) := by
  refine ⟨?_, ?_, ?_, ?_, ?_, ?_, ?_, ?_, ?_, ?_, ?_, ?_, ?_, ?_, ?_, ?_, ?_, ?_, ?_, ?_, ?_⟩ <;> decide +kernel

theorem witness_SignalsAndBarriersRelease :
    (let c : CoreId := c0
     let s : State := on
     (s.core c).wait = Wait.none) ∧
    (let c : CoreId := c0
     let s : State := onCore { coreRun with wait := .sig 0 0xFFFF false }
     let sid : Fin 32 := 0
     let n : BitVec 16 := 0xFFFF
     let m : BitVec 16 := 0xFFFF
     (s.core c).wait = Wait.sig sid m false ∧ m ≤ s.sig c sid.val + n) ∧
    (let c : CoreId := c0
     let s : State := onCore { coreRun with wait := .sig 0 0xFFFF false }
     let sid : Fin 32 := 0
     let n : BitVec 16 := 0xFFFE
     let m : BitVec 16 := 0xFFFF
     (s.core c).wait = Wait.sig sid m false ∧ s.sig c sid.val + n < m) ∧
    (let s : State := on
     let cl : ClusterId := ⟨0, 0⟩
     let k : Fin 8 := 0
     s.isChecker { cl := cl, k := k } = false) := by
  refine ⟨?_, ?_, ?_, ?_⟩ <;> decide +kernel

theorem witness_TensorInstructionsComplete :
    (let c : CoreId := c0
     let w : BitVec 56 := wd [(7, 1)]
     let s : State := coreOn
     zf w 50 46 = true ∧ zf w 35 29 = true ∧ zf w 21 21 = true ∧ zf w 19 17 = true ∧ zf w 4 0 = true ∧ (tTag w).valid = true ∧ tXA w < 16
       ∧ tXB w < 16 ∧ tXC w < 16 ∧ bitOf w 7 = true ∧ zf w 28 26 = true ∧ (tTag w).sp = false ∧ zf w 55 51 = true ∧ zf w 45 36 = true ∧
       (tTag w).wf.val = 0 ∧ s.starts c 136 w = true) ∧
    (let c : CoreId := c0
     let w : BitVec 56 := wd [(51, 15), (41, 15), (36, 15)]
     let s : State := onCore (coreRun.setA 15 (BitVec.ofNat 48 (lsBase c0)))
     zf w 50 46 = true ∧ zf w 35 29 = true ∧ zf w 21 21 = true ∧ zf w 19 17 = true ∧ zf w 4 0 = true ∧ (tTag w).valid = true ∧ tXA w < 16
       ∧ tXB w < 16 ∧ tXC w < 16 ∧ bitOf w 7 = false ∧ badPart c (tileParts (tTag w) ((s.core c).getA (tXA w)) ((s.core c).getA (tXB w))
       ((s.core c).getA (tXC w))) = none ∧ (∀ (p : Addr × Nat), p ∈ tileParts (tTag w) ((s.core c).getA (tXA w)) ((s.core c).getA (tXB w))
       ((s.core c).getA (tXC w)) → (s.core c).unitWrites (BitVec.toNat p.fst) (64 * p.snd) = false) ∧ s.clean (BitVec.toNat ((s.core
       c).getA (tXA w))) (64 * (tTag w).dataLines) ∧ s.clean (BitVec.toNat ((s.core c).getA (tXB w))) (64 * (tTag w).scaleLines) ∧ s.clean
       (BitVec.toNat ((s.core c).getA (tXC w))) (64 * (tTag w).metaLines) ∧ s.starts c 136 w = true) ∧
    (let c : CoreId := c0
     let w : BitVec 56 := wd [(51, 15), (46, 1), (41, 15), (29, 127)]
     let s : State := onCore { (coreRun.setA 15 (BitVec.ofNat 48 (lsBase c0))).setS 1 64 with wb := [(0, tile)] }
     let t : WTag := ⟨0, 0, false⟩
     let o : StreamOp :=
       { avac := false, pc := (s.core c).pc, xa := (s.core c).getA (tXA w), stride := (s.core c).getS (tXS w), xb := (s.core c).getA (tXB w), m := tCNT w + 1, row := tROW w, bk := tBK w, wb := tWB w, ow := tOW w, cv := tCV w }
     zf w 40 36 = true ∧ zf w 16 0 = true ∧ tXA w < 16 ∧ tXB w < 16 ∧ tROW w + (tCNT w + 1) ≤ 128 ∧ o =
       { avac := o.avac, pc := (s.core c).pc, xa := (s.core c).getA (tXA w), stride := (s.core c).getS (tXS w), xb := (s.core c).getA (tXB w), m := tCNT w + 1, row := tROW w, bk := tBK w, wb := tWB w, ow := tOW w, cv := tCV w }
       ∧ (s.core c).tagAt (tWB w) = some t ∧ bitsOf o.stride 5 0 = 0 ∧ (∀ (i : Nat), i < tCNT w + 1 → inOwnLs c (BitVec.toNat (o.rowAddr
       i)) (64 * t.rowLines) = true) ∧ (isMX t.af.val = true → inOwnLs c (BitVec.toNat o.xb) ((tCNT w + 1) * (t.kt / 32)) = true) ∧
       (s.core c).streamQ.length < 4 ∧ (∀ (i : Nat), i < tCNT w + 1 → (s.core c).unitWrites (BitVec.toNat (o.rowAddr i)) (64 * t.rowLines)
       = false) ∧ o.avac = false ∧ zf w 18 17 = true ∧ s.ready c 128 w = true) ∧
    (let c : CoreId := c0
     let w : BitVec 56 := wd [(51, 15), (46, 1), (41, 15), (29, 63), (22, 64), (17, 3)]
     let s : State := onCore { (coreRun.setA 15 (BitVec.ofNat 48 (lsBase c0))).setS 1 64 with wb := [(0, tile)] }
     let t : WTag := ⟨0, 0, false⟩
     let o : StreamOp :=
       { avac := true, pc := (s.core c).pc, xa := (s.core c).getA (tXA w), stride := (s.core c).getS (tXS w), xb := (s.core c).getA (tXB w), m := tCNT w + 1, row := tROW w, bk := tBK w, wb := tWB w, ow := tOW w, cv := tCV w }
     zf w 40 36 = true ∧ zf w 16 0 = true ∧ tXA w < 16 ∧ tXB w < 16 ∧ tROW w + (tCNT w + 1) ≤ 128 ∧ o =
       { avac := o.avac, pc := (s.core c).pc, xa := (s.core c).getA (tXA w), stride := (s.core c).getS (tXS w), xb := (s.core c).getA (tXB w), m := tCNT w + 1, row := tROW w, bk := tBK w, wb := tWB w, ow := tOW w, cv := tCV w }
       ∧ (s.core c).tagAt (tWB w) = some t ∧ bitsOf o.stride 5 0 = 0 ∧ (∀ (i : Nat), i < tCNT w + 1 → inOwnLs c (BitVec.toNat (o.rowAddr
       i)) (64 * t.rowLines) = true) ∧ (isMX t.af.val = true → inOwnLs c (BitVec.toNat o.xb) ((tCNT w + 1) * (t.kt / 32)) = true) ∧
       (s.core c).streamQ.length < 4 ∧ (∀ (i : Nat), i < tCNT w + 1 → (s.core c).unitWrites (BitVec.toNat (o.rowAddr i)) (64 * t.rowLines)
       = false) ∧ o.avac = true ∧ tCNT w < 64 ∧ s.ready c 195 w = true) ∧
    (let c : CoreId := c0
     let w : BitVec 56 := wd [(51, 16), (12, 15), (7, 1), (0, 112)]
     let s : State := onCore { coreRun with accMode := [(1, .int)] }
     let bk : Fin 2 := Fin.ofNat 2 (bitsOf w 7 7)
     zf w 11 8 = true ∧ vUnused w true false false false false false false false false false true true = true ∧ vVD w + (vNM w + 1) ≤ 32 ∧
       bitsOf w 6 0 + (vNM w + 1) ≤ 128 ∧ (s.core c).accMode.get bk AccMode.none ≠ AccMode.none ∧ s.starts c 144 w = true) ∧
    (let c : CoreId := c0
     let w : BitVec 56 := wd [(46, 31), (24, 1), (7, 1), (0, 127)]
     let s : State := coreOn
     let bk : Fin 2 := Fin.ofNat 2 (bitsOf w 7 7)
     let m : AccMode := .fp
     zf w 11 8 = true ∧ vUnused w false true false false false false false true false false false true = true ∧ (vFN w = 0 ∧ m =
       AccMode.int ∨ vFN w = 1 ∧ m = AccMode.fp) ∧ ((s.core c).accMode.get bk AccMode.none = AccMode.none ∨ (s.core c).accMode.get bk
       AccMode.none = m) ∧ s.starts c 145 w = true) ∧
    (let c : CoreId := c0
     let w : BitVec 56 := wd [(51, 16), (12, 15), (7, 1), (0, 112)]
     let s : State := onCore { (moving 5) with accMode := [(1, .int)] }
     let q : UOp :=
       { unit := .vector, op := 144, w := w, pc := (s.core c).pc, s := (s.core c).s, a := (s.core c).a, ahead := (s.core c).streamQ.length }
     q =
       { unit := q.unit, op := q.op, w := w, pc := (s.core c).pc, s := (s.core c).s, a := (s.core c).a, ahead := (s.core c).streamQ.length }
       ∧ unitOf q.op = some q.unit ∧ s.ready c q.op w = true ∧ (((s.core c).unitQ.any fun (e : UOp) => e.unit == q.unit) = true ∨
       unitBlocked q.op w (s.core c).streamQ = true) ∧ q.op = 144 ∧ zf w 11 8 = true ∧ vUnused w true false false false false false false
       false false false true true = true ∧ vVD w + (vNM w + 1) ≤ 32 ∧ bitsOf w 6 0 + (vNM w + 1) ≤ 128 ∧ (List.filter (fun (e : UOp) =>
       e.unit == q.unit) (s.core c).unitQ).length < 4) ∧
    (let c : CoreId := c0
     let w : BitVec 56 := wd [(51, 16), (12, 15), (7, 1), (0, 112)]
     let s : State := onCore { coreRun with unitQ := (moving 1).unitQ ++ (moving 2).unitQ ++ (moving 3).unitQ ++ (moving 4).unitQ }
     let q : UOp :=
       { unit := .vector, op := 144, w := w, pc := (s.core c).pc, s := (s.core c).s, a := (s.core c).a, ahead := (s.core c).streamQ.length }
     q =
       { unit := q.unit, op := q.op, w := w, pc := (s.core c).pc, s := (s.core c).s, a := (s.core c).a, ahead := (s.core c).streamQ.length }
       ∧ unitOf q.op = some q.unit ∧ s.ready c q.op w = true ∧ (((s.core c).unitQ.any fun (e : UOp) => e.unit == q.unit) = true ∨
       unitBlocked q.op w (s.core c).streamQ = true) ∧ q.op = 144 ∧ zf w 11 8 = true ∧ vUnused w true false false false false false false
       false false false true true = true ∧ vVD w + (vNM w + 1) ≤ 32 ∧ bitsOf w 6 0 + (vNM w + 1) ≤ 128 ∧ 4 ≤ (List.filter (fun (e : UOp)
       => e.unit == q.unit) (s.core c).unitQ).length) ∧
    (let c : CoreId := c0
     let w : BitVec 56 := wd [(51, 31), (46, 30), (41, 29)]
     let s : State := onCore (moving 5)
     let q : UOp :=
       { unit := .vector, op := 160, w := w, pc := (s.core c).pc, s := (s.core c).s, a := (s.core c).a, ahead := (s.core c).streamQ.length }
     q =
       { unit := q.unit, op := q.op, w := w, pc := (s.core c).pc, s := (s.core c).s, a := (s.core c).a, ahead := (s.core c).streamQ.length }
       ∧ unitOf q.op = some q.unit ∧ s.ready c q.op w = true ∧ (((s.core c).unitQ.any fun (e : UOp) => e.unit == q.unit) = true ∨
       unitBlocked q.op w (s.core c).streamQ = true) ∧ q.op = 160 ∧ vUnused w true true true false true true false true false false false
       false = true ∧ vFN w < 16 ∧ (List.filter (fun (e : UOp) => e.unit == q.unit) (s.core c).unitQ).length < 4) ∧
    (let c : CoreId := c0
     let w : BitVec 56 := wd [(51, 31), (46, 30), (41, 29)]
     let s : State := onCore { coreRun with unitQ := (moving 1).unitQ ++ (moving 2).unitQ ++ (moving 3).unitQ ++ (moving 4).unitQ }
     let q : UOp :=
       { unit := .vector, op := 160, w := w, pc := (s.core c).pc, s := (s.core c).s, a := (s.core c).a, ahead := (s.core c).streamQ.length }
     q =
       { unit := q.unit, op := q.op, w := w, pc := (s.core c).pc, s := (s.core c).s, a := (s.core c).a, ahead := (s.core c).streamQ.length }
       ∧ unitOf q.op = some q.unit ∧ s.ready c q.op w = true ∧ (((s.core c).unitQ.any fun (e : UOp) => e.unit == q.unit) = true ∨
       unitBlocked q.op w (s.core c).streamQ = true) ∧ q.op = 160 ∧ vUnused w true true true false true true false true false false false
       false = true ∧ vFN w < 16 ∧ 4 ≤ (List.filter (fun (e : UOp) => e.unit == q.unit) (s.core c).unitQ).length) ∧
    (let c : CoreId := c0
     let w : BitVec 56 := wd [(24, 63), (0, 64)]
     let s : State := onCore saving
     let q : UOp :=
       { unit := .attention, op := 192, w := w, pc := (s.core c).pc, s := (s.core c).s, a := (s.core c).a, ahead := (s.core c).streamQ.length }
     q =
       { unit := q.unit, op := q.op, w := w, pc := (s.core c).pc, s := (s.core c).s, a := (s.core c).a, ahead := (s.core c).streamQ.length }
       ∧ unitOf q.op = some q.unit ∧ s.ready c q.op w = true ∧ (((s.core c).unitQ.any fun (e : UOp) => e.unit == q.unit) = true ∨
       unitBlocked q.op w (s.core c).streamQ = true) ∧ q.op = 192 ∧ vUnused w false false false false false false false true false false
       false true = true ∧ bitsOf w 6 0 + vFN w ≤ 127 ∧ (List.filter (fun (e : UOp) => e.unit == q.unit) (s.core c).unitQ).length < 4) ∧
    (let c : CoreId := c0
     let s : State := onCore { coreRun with streamQ := [streamOp] }
     s.coreEnabled c = true ∧ s.domOn (domCluster c.cl) = true ∧ s.isChecker c = false) ∧
    (let c : CoreId := c0
     let s : State := onCore saving
     let n : Nat := 1
     (s.core c).unitQ.length ≤ n) ∧
    (let c : CoreId := c0
     let s : State := onCore { coreRun with streamQ := [streamOp], wb := [(0, tile)] }
     let rest : List StreamOp := ((s.core c).streamQ).tail
     let h : State := s.putCore c
       ({ s.core c with streamQ := rest, unitQ := List.map (fun (q : UOp) => { q with ahead := q.ahead - 1 }) (s.core c).unitQ })
     let o : StreamOp := streamOp
     let t : WTag := ⟨0, 0, false⟩
     let b : WBuf := (s.core c).wb.get o.wb WBuf.empty
     (s.core c).streamQ = o :: rest ∧ b.tag = some t ∧ b.bad = false ∧ (o.avac = true → t.mode = AccMode.fp) ∧ o.ow = true ∧ ((h.putCore c
       ({ h.core c with accMode := (h.core c).accMode.set o.bk t.mode })).streamRows c t b o o.m 0 []).2 = none) ∧
    (let c : CoreId := c0
     let s : State :=
       { onCore { coreRun with streamQ := [streamOp], wb := [(0, tile)] } with fab := { on.fab with ecc := [(lsBase c0, .double)] } }
     let rest : List StreamOp := ((s.core c).streamQ).tail
     let h : State := s.putCore c
       ({ s.core c with streamQ := rest, unitQ := List.map (fun (q : UOp) => { q with ahead := q.ahead - 1 }) (s.core c).unitQ })
     let o : StreamOp := streamOp
     let t : WTag := ⟨0, 0, false⟩
     let b : WBuf := (s.core c).wb.get o.wb WBuf.empty
     let g : Nat := (((h.putCore c ({ h.core c with accMode := (h.core c).accMode.set o.bk t.mode })).streamRows c t b o o.m 0 []).2).getD
       0
     (s.core c).streamQ = o :: rest ∧ b.tag = some t ∧ b.bad = false ∧ (o.avac = true → t.mode = AccMode.fp) ∧ o.ow = true ∧ ((h.putCore c
       ({ h.core c with accMode := (h.core c).accMode.set o.bk t.mode })).streamRows c t b o o.m 0 []).2 = some g) ∧
    (let c : CoreId := c0
     let s : State := onCore { coreRun with streamQ := [{ streamOp with ow := false }], wb := [(0, tile)], accMode := [(0, .int)] }
     let rest : List StreamOp := ((s.core c).streamQ).tail
     let h : State := s.putCore c
       ({ s.core c with streamQ := rest, unitQ := List.map (fun (q : UOp) => { q with ahead := q.ahead - 1 }) (s.core c).unitQ })
     let o : StreamOp := { streamOp with ow := false }
     let t : WTag := ⟨0, 0, false⟩
     let b : WBuf := (s.core c).wb.get o.wb WBuf.empty
     (s.core c).streamQ = o :: rest ∧ b.tag = some t ∧ b.bad = false ∧ (o.avac = true → t.mode = AccMode.fp) ∧ o.ow = false ∧ (s.core
       c).accMode.get o.bk AccMode.none = t.mode ∧ (h.streamRows c t b o o.m 0 []).2 = none) ∧
    (let c : CoreId := c0
     let s : State :=
       { onCore { coreRun with streamQ := [{ streamOp with ow := false }], wb := [(0, tile)], accMode := [(0, .int)] } with fab := { on.fab with ecc := [(lsBase c0, .double)] } }
     let rest : List StreamOp := ((s.core c).streamQ).tail
     let h : State := s.putCore c
       ({ s.core c with streamQ := rest, unitQ := List.map (fun (q : UOp) => { q with ahead := q.ahead - 1 }) (s.core c).unitQ })
     let o : StreamOp := { streamOp with ow := false }
     let t : WTag := ⟨0, 0, false⟩
     let b : WBuf := (s.core c).wb.get o.wb WBuf.empty
     let g : Nat := ((h.streamRows c t b o o.m 0 []).2).getD 0
     (s.core c).streamQ = o :: rest ∧ b.tag = some t ∧ b.bad = false ∧ (o.avac = true → t.mode = AccMode.fp) ∧ o.ow = false ∧ (s.core
       c).accMode.get o.bk AccMode.none = t.mode ∧ (h.streamRows c t b o o.m 0 []).2 = some g) ∧
    (let c : CoreId := c0
     let s : State := onCore { coreRun with streamQ := [streamOp], wb := [(0, { tile with bad := true })] }
     let o : StreamOp := streamOp
     let rest : List StreamOp := ((s.core c).streamQ).tail
     let t : WTag := ⟨0, 0, false⟩
     let b : WBuf := (s.core c).wb.get o.wb WBuf.empty
     (s.core c).streamQ = o :: rest ∧ b.tag = some t ∧ b.bad = true) ∧
    (let c : CoreId := c0
     let s : State := onCore { coreRun with streamQ := [{ streamOp with ow := false }], wb := [(0, tile)] }
     let o : StreamOp := { streamOp with ow := false }
     let rest : List StreamOp := ((s.core c).streamQ).tail
     let t : WTag := ⟨0, 0, false⟩
     let b : WBuf := (s.core c).wb.get o.wb WBuf.empty
     (s.core c).streamQ = o :: rest ∧ b.tag = some t ∧ b.bad = false ∧ (o.avac = true ∧ t.mode ≠ AccMode.fp ∨ o.ow = false ∧ (s.core
       c).accMode.get o.bk AccMode.none ≠ t.mode)) ∧
    (let c : CoreId := c0
     let s : State := onCore { coreRun with streamQ := [streamOp] }
     let o : StreamOp := streamOp
     let rest : List StreamOp := ((s.core c).streamQ).tail
     let b : WBuf := (s.core c).wb.get o.wb WBuf.empty
     (s.core c).streamQ = o :: rest ∧ b.tag = none) ∧
    (let c : CoreId := c0
     let s : State := coreOn
     (s.core c).pend = none) ∧
    (let c : CoreId := c0
     let s : State := onCore { coreRun with pend := some ⟨xACCESS, 0⟩ }
     let p : Pend := ⟨xACCESS, 0⟩
     (s.core c).pend = some p) := by
  refine ⟨?_, ?_, ?_, ?_, ?_, ?_, ?_, ?_, ?_, ?_, ?_, ?_, ?_, ?_, ?_, ?_, ?_, ?_, ?_, ?_, ?_, ?_⟩
  · decide +kernel
  · simp -zeta only [clean_iff]; decide +kernel
  · decide +kernel
  · decide +kernel
  · decide +kernel
  · decide +kernel
  · decide +kernel
  · decide +kernel
  · decide +kernel
  · decide +kernel
  · decide +kernel
  · decide +kernel
  · decide +kernel
  · decide +kernel
  · decide +kernel
  · decide +kernel
  · decide +kernel
  · decide +kernel
  · decide +kernel
  · decide +kernel
  · decide +kernel
  · decide +kernel

theorem witness_VectorInstructionsComplete :
    (let c : CoreId := c0
     let w : BitVec 56 := wd [(51, 31), (46, 31), (41, 31), (33, 7), (24, 2)]
     let s : State := coreOn
     vUnused w true true true true true false false true false false false false = true ∧ s.starts c 167 w = true ∧ vFN w = 2) ∧
    (let c : CoreId := c0
     let w : BitVec 56 := wd [(51, 31), (46, 31), (36, 31), (24, 3)]
     let s : State := coreOn
     vUnused w true true true true true false false true false false false false = true ∧ s.starts c 167 w = true ∧ vFN w = 3) ∧
    (let c : CoreId := c0
     let w : BitVec 56 := wd [(51, 31), (24, 4)]
     let s : State := coreOn
     vUnused w true true true true true false false true false false false false = true ∧ s.starts c 167 w = true ∧ vFN w = 4) ∧
    (let c : CoreId := c0
     let w : BitVec 56 := wd [(51, 7), (46, 31), (41, 31), (33, 7), (28, 1), (24, 5)]
     let s : State := coreOn
     vUnused w true true true false true false false true false false false false = true ∧ zf w 55 54 = true ∧ bitsOf w 29 28 ≤ 1 ∧ bitsOf
       w 27 24 ≤ 5 ∧ s.starts c 166 w = true) ∧
    (let c : CoreId := c0
     let w : BitVec 56 := wd [(51, 31), (46, 31), (33, 7), (31, 3), (20, 10), (16, 11)]
     let s : State := coreOn
     let n : Nat := vNM w + 1
     vUnused w true true false false true true true false true true true true = true ∧ vSF w = 10 ∧ vDF w = 11 ∧ n = 1 ∧ s.starts c 168 w
       = true) ∧
    (let c : CoreId := c0
     let w : BitVec 56 := wd [(51, 31), (46, 31), (33, 7), (31, 3), (20, 11), (16, 10)]
     let s : State := coreOn
     let n : Nat := vNM w + 1
     vUnused w true true false false true true true false true true true true = true ∧ vSF w = 11 ∧ vDF w = 10 ∧ n = 1 ∧ s.starts c 168 w
       = true) ∧
    (let c : CoreId := c0
     let w : BitVec 56 := wd [(51, 31), (46, 28), (31, 3), (30, 1), (20, 10), (12, 3)]
     let s : State := coreOn
     let n : Nat := vNM w + 1
     let b : Nat := (vecBits (vDF w)).getD 0
     vUnused w true true false false true true true false true true true true = true ∧ (vSF w = 10 ∧ vDF w ≠ 11 ∨ vSF w = 11 ∧ vDF w < 2)
       ∧ vecBits (vDF w) = some b ∧ 8 * b * n ≤ 256 ∧ vVA w + n ≤ 32 ∧ vPG w = 0 ∧ s.starts c 168 w = true) ∧
    (let c : CoreId := c0
     let w : BitVec 56 := wd [(51, 31), (46, 31), (20, 2), (16, 10), (0, 3)]
     let s : State := coreOn
     let n : Nat := vNM w + 1
     let b : Nat := (vecBits (vSF w)).getD 0
     vUnused w true true false false true true true false true true true true = true ∧ vecBits (vSF w) = some b ∧ (vDF w = if (vecFmt (vSF
       w)).isSome = true then 10 else 11) ∧ n = 1 ∧ vPG w = 0 ∧ vIMM w % 8 * (8 * b) + 8 * b ≤ 256 ∧ s.starts c 168 w = true) ∧
    (let c : CoreId := c0
     let w : BitVec 56 := wd [(51, 31), (46, 24), (41, 31), (36, 31), (16, 1), (12, 7)]
     let s : State := coreOn
     let n : Nat := vNM w + 1
     let b : Nat := 4
     vUnused w true true true true false true true false false true true false = true ∧ vDF w ≤ 1 ∧ (b = if vDF w = 1 then 4 else 8) ∧ 8 *
       b * n ≤ 256 ∧ vVA w + n ≤ 32 ∧ s.starts c 169 w = true) ∧
    (let c : CoreId := c0
     let w : BitVec 56 := wd [(51, 31), (46, 30), (36, 31), (16, 4), (12, 1)]
     let s : State := coreOn
     let n : Nat := vNM w + 1
     vUnused w true true false true false true true true false true true false = true ∧ vFN w = 0 ∧ isMX (vDF w) = true ∧ n ≤ 2 ∧ vVA w +
       n ≤ 32 ∧ s.starts c 170 w = true) ∧
    (let c : CoreId := c0
     let w : BitVec 56 := wd [(51, 31), (46, 31), (36, 31), (24, 1), (20, 4), (0, 1)]
     let s : State := coreOn
     let sc : Nat := BitVec.toNat ((s.core c).getS (vVC w))
     vUnused w true true false true false false false true true false false true = true ∧ vFN w = 1 ∧ isMX (vSF w) = true ∧ (vIMM w % 4 <
       2 → sc % 2 ^ 32 = BitVec.toNat ((s.core c).getS (vVC w))) ∧ (2 ≤ vIMM w % 4 → sc = BitVec.toNat ((s.core c).getS (vVC w)) + 2 ^ 32
       * (Config.mxScales ((s.core c).getV (vVA w)) ((s.core c).getS (vVC w)) (vIMM w % 4)).toNat) ∧ s.starts c 170 w = true) := by
  refine ⟨?_, ?_, ?_, ?_, ?_, ?_, ?_, ?_, ?_, ?_, ?_⟩ <;> decide +kernel

/-- The lanes of VIOP with function 0 at a running core, and the reduction of VRED. -/
theorem witness_VectorInstructionsComplete_lanes :
    let w : BitVec 56 := wd [(51, 31), (46, 30), (41, 29)]
    let f : Nat → Word × AFlags := fun k =>
      (viopFn (vFN w) (vRM w) (lane ((coreOn.core c0).getV (vVA w)) k) (lane ((coreOn.core c0).getV (vVB w)) k)).getD default
    coreOn.starts c0 160 w = true ∧ vUnused w true true true false true true false true false false false false = true ∧ vFN w < 16 ∧
      ∀ k : Nat, viopFn (vFN w) (vRM w) (lane ((coreOn.core c0).getV (vVA w)) k) (lane ((coreOn.core c0).getV (vVB w)) k) = some (f k) :=
  ⟨by decide +kernel, by decide +kernel, by decide +kernel, fun _ => rfl⟩

theorem witness_VectorInstructionsComplete_reduction :
    let w : BitVec 56 := wd [(51, 31), (46, 30)]
    let g : (Word → Word → Word × AFlags) × Word := (redFn (vFN w) (vRM w)).getD (fun a _ => (a, default), 0)
    vUnused w true true false false true true false true false false false false = true ∧ redFn (vFN w) (vRM w) = some (g.1, g.2) ∧
      coreOn.starts c0 171 w = true :=
  ⟨by decide +kernel, rfl, by decide +kernel⟩

theorem witness_VectorInstructionsComplete_dequantise :
    let w : BitVec 56 := wd [(51, 31), (46, 31), (36, 31), (24, 1), (20, 4), (0, 2)]
    let sc : Nat := BitVec.toNat ((coreOn.core c0).getS (vVC w)) +
      2 ^ 32 * (Config.mxScales ((coreOn.core c0).getV (vVA w)) ((coreOn.core c0).getS (vVC w)) (vIMM w % 4)).toNat
    vUnused w true true false true false false false true true false false true = true ∧ vFN w = 1 ∧ isMX (vSF w) = true ∧
      (vIMM w % 4 < 2 → sc % 2 ^ 32 = BitVec.toNat ((coreOn.core c0).getS (vVC w))) ∧ 2 ≤ vIMM w % 4 ∧
      sc = BitVec.toNat ((coreOn.core c0).getS (vVC w)) +
        2 ^ 32 * (Config.mxScales ((coreOn.core c0).getV (vVA w)) ((coreOn.core c0).getS (vVC w)) (vIMM w % 4)).toNat ∧
      coreOn.starts c0 170 w = true :=
  ⟨by decide +kernel, by decide +kernel, by decide +kernel, fun h => absurd h (by decide +kernel), by decide +kernel, rfl, by decide +kernel⟩

theorem witness_PredicatedLanesMerge :
    (let i : Nat := 63
     i < 64) := by
  decide +kernel

theorem witness_AttentionAndVialInstructionsComplete :
    (let c : CoreId := c0
     let w : BitVec 56 := wd [(24, 63), (0, 64)]
     let s : State := coreOn
     vUnused w false false false false false false false true false false false true = true ∧ bitsOf w 6 0 + vFN w ≤ 127 ∧ s.starts c 192
       w = true) ∧
    (let c : CoreId := c0
     let w : BitVec 56 := wd [(51, 31), (0, 64)]
     let s : State := coreOn
     vUnused w true true false false false false false true false false false true = true ∧ (vFN w < 4 → bitsOf w 6 0 ≤ 64) ∧ vFN w = 0 ∧
       s.starts c 194 w = true) ∧
    (let c : CoreId := c0
     let w : BitVec 56 := wd [(51, 31), (24, 1), (0, 64)]
     let s : State := coreOn
     vUnused w true true false false false false false true false false false true = true ∧ (vFN w < 4 → bitsOf w 6 0 ≤ 64) ∧ vFN w = 1 ∧
       s.starts c 194 w = true) ∧
    (let c : CoreId := c0
     let w : BitVec 56 := wd [(51, 31), (24, 2), (0, 64)]
     let s : State := coreOn
     vUnused w true true false false false false false true false false false true = true ∧ (vFN w < 4 → bitsOf w 6 0 ≤ 64) ∧ vFN w = 2 ∧
       s.starts c 194 w = true) ∧
    (let c : CoreId := c0
     let w : BitVec 56 := wd [(51, 31), (24, 3), (0, 64)]
     let s : State := coreOn
     vUnused w true true false false false false false true false false false true = true ∧ (vFN w < 4 → bitsOf w 6 0 ≤ 64) ∧ vFN w = 3 ∧
       s.starts c 194 w = true) ∧
    (let c : CoreId := c0
     let w : BitVec 56 := wd [(51, 31), (24, 4), (0, 64)]
     let s : State := coreOn
     vUnused w true true false false false false false true false false false true = true ∧ (vFN w < 4 → bitsOf w 6 0 ≤ 64) ∧ vFN w = 4 ∧
       s.starts c 194 w = true) ∧
    (let c : CoreId := c0
     let w : BitVec 56 := wd [(46, 31), (36, 31), (31, 3), (30, 1), (16, 3), (4, 1), (0, 15)]
     let s : State := coreOn
     vUnused w false true false true false true true false false true false true = true ∧ (vDF w = 0 ∨ vDF w = 2 ∨ vDF w = 3) ∧ s.starts c
       200 w = true) ∧
    (let c : CoreId := c0
     let w : BitVec 56 := wd [(46, 31), (36, 31), (31, 3), (30, 1), (16, 9), (0, 15)]
     let s : State := coreOn
     vUnused w false true false true false true true false false true false true = true ∧ (vDF w = 8 ∨ vDF w = 9) ∧ bitsOf w 4 4 = 0 ∧
       s.starts c 200 w = true) ∧
    (let c : CoreId := c0
     let w : BitVec 56 := wd [(51, 15), (22, 15)]
     let s : State := onCore (coreRun.setA 15 (BitVec.ofNat 48 (lsBase c0 + 0xFF800)))
     let a : Nat := BitVec.toNat ((s.core c).getA (tXA w))
     vialRsv w = true ∧ vialAddrOk c a = true ∧ s.clean a 2048 ∧ s.starts c 201 w = true) ∧
    (let c : CoreId := c0
     let w : BitVec 56 := wd [(51, 15), (22, 15)]
     let s : State := onCore (coreRun.setA 15 (BitVec.ofNat 48 (lsBase c0 + 0xFB800)))
     let a : Nat := BitVec.toNat ((s.core c).getA (tXA w))
     vialRsv w = true ∧ vialAddrOk c a = true ∧ inAccord (a - lsBase c + 2047) = false ∧ (s.core c).streamReads a 2048 = false ∧ (s.core
       c).unitReads a 2048 = false ∧ s.starts c 202 w = true) := by
  refine ⟨?_, ?_, ?_, ?_, ?_, ?_, ?_, ?_, ?_, ?_⟩
  · decide +kernel
  · decide +kernel
  · decide +kernel
  · decide +kernel
  · decide +kernel
  · decide +kernel
  · decide +kernel
  · decide +kernel
  · simp -zeta only [clean_iff]; decide +kernel
  · decide +kernel

/-- A soft step of one row. -/
theorem witness_AttentionAndVialInstructionsComplete_step :
    let w : BitVec 56 := wd [(51, 31), (46, 31), (33, 7), (8, 3), (0, 127)]
    vUnused w true true false false true false false false false false true true = true ∧ zf w 11 10 = true ∧ vVD w + (vNM w + 1) ≤ 32 ∧
      vVA w + (vNM w + 1) ≤ 32 ∧ bitsOf w 6 0 + (vNM w + 1) ≤ 128 ∧ coreOn.starts c0 193 w = true ∧
      ∃ one : CoreState → Nat → Step, ∀ (x : CoreState) (k : Nat), one x k = softStep (x.getM (bitsOf w 6 0 + k)) (x.getL (bitsOf w 6 0 + k))
        ((List.range 64).map (fun i => if ((coreOn.core c0).getP (vPG w)).getLsbD i then lane (x.getV (vVA w + k)) i else 4286578688)) :=
  ⟨by decide +kernel, by decide +kernel, by decide +kernel, by decide +kernel, by decide +kernel, by decide +kernel, ⟨_, fun _ _ => rfl⟩⟩

theorem witness_CoreCommandsComplete :
    (let cl : ClusterId := ⟨0, 0⟩
     let s : State := on
     s.up (domCluster cl) = true) ∧
    (let src : Src := firm
     let c : CoreId := c0
     let s : State := on
     s.reaches src (tcBase c + Reg.TC_CTRL) = true ∧ s.mayWrite src Blk.tc c.inst = true) ∧
    (let src : Src := firm
     let c : CoreId := c0
     let s : State := on
     s.reaches src (tcBase c + Reg.TC_CTRL) = true ∧ s.mayWrite src Blk.tc c.inst = true ∧ ((((s.endLockstep c).setFld Blk.tc c.inst
       Reg.TC_CTRL 1 1 1).barClear c).core c).halted = false) ∧
    (let src : Src := firm
     let c : CoreId := c0
     let s : State := onCore { coreRun with halted := true }
     s.reaches src (tcBase c + Reg.TC_CTRL) = true ∧ s.mayWrite src Blk.tc c.inst = true ∧ (s.core c).halted = true) ∧
    (let c : CoreId := c0
     let s : State := onCore { coreRun with haltPending := true }
     (s.core c).haltPending = true ∧ (s.core c).unitsIdle = true ∧ (s.core c).wait = Wait.none ∧ (s.core c).stalled = false) ∧
    (let c : CoreId := c0
     let s : State := onCore { coreRun with pend := some ⟨3, 64⟩ }
     let e : Pend := ⟨3, 64⟩
     (s.core c).pend = some e ∧ (s.core c).unitsIdle = true ∧ (s.core c).chansSettled = true ∧ s.isChecker c = false) ∧
    (let src : Src := firm
     let p : PairId := ⟨⟨0, 0⟩, 0⟩
     let s : State := on
     s.reaches src (pcmpBase p + Reg.PCMP_CTRL) = true ∧ s.mayWrite src Blk.pcmp p.inst = true) ∧
    (let src : Src := firm
     let p : PairId := ⟨⟨0, 0⟩, 0⟩
     let s : State := on
     s.reaches src (pcmpBase p + Reg.PCMP_CTRL) = true ∧ s.mayWrite src Blk.pcmp p.inst = true ∧ s.pairUsable p = true ∧ s.fld Blk.pcmp
       p.inst Reg.PCMP_STAT 2 2 = 0 ∧ s.locked p = false) ∧
    (let p : PairId := ⟨⟨0, 0⟩, 0⟩
     let s : State := lockstep coreOn
     s.locked p = true ∧ s.fld Blk.pcmp p.inst Reg.PCMP_STAT 1 1 = 0 ∧ s.jobOf p.primary = none ∧ s.partOf p.primary = none ∧ (∀
       (slot : Fin 16), s.bars.get (p.cl, slot) none = none)) ∧
    (let c : CoreId := c0
     let s : State := onCore { coreRun with wait := .accord 31 }
     let rd : Fin 32 := 31
     (s.core c).wait = Wait.accord rd ∧ s.isChecker c = false ∧ (s.core c).run = true) := by
  refine ⟨?_, ?_, ?_, ?_, ?_, ?_, ?_, ?_, ?_, ?_⟩ <;> decide +kernel

theorem witness_LoadedAndStartedCores :
    (let sid : Nat := 31
     sid < 32) ∧
    (let off : Nat := 0xFBFFF
     off < 1032192) := by
  refine ⟨?_, ?_⟩ <;> decide +kernel

end Sys2Proof.Tests
end

