-- ==== Sys2Proof/Tests/WitnessFirmware.lean ====
section
/-! SUPPORT. States and operands that meet the hypotheses of the statements about ring pairs, jobs, partitions and CPUs, clause by clause. -/

namespace Sys2Proof.Tests

open Sys2Proof.Machine

set_option Elab.async false

theorem witness_RingCommandsComplete :
    (let p : Fin 64 := 0
     let s : State := taken p 0 on
     (s.ring p).isOpen = true ∧ s.fpRuns (ringFp p) = true ∧ s.served p = true) ∧
    (let src : Src := host
     let p : Fin 64 := 0
     let s : State := taken p 0 on
     (s.ring p).isOpen = true ∧ s.fpRuns (ringFp p) = true ∧ s.served p = true ∧ s.reaches src (vehRegs 19922944 + Reg.FW_DBp p.val) =
       true ∧ (src = fp6Src ∨ src.world = (s.ring p).world)) ∧
    (let p : Fin 64 := 0
     let e : BitVec 512 := ent 1 []
     let s : State := taken p e on
     s.accepts p 1 [] [] false e) ∧
    (let p : Fin 64 := 0
     let e : BitVec 512 := ent 2 [(8, 0, 2), (8, 24, 4), (8, 28, 4)]
     let q : Fin 64 := Fin.ofNat 64 (eBits e 8 5 0)
     let s : State := taken p e (opened 2 on)
     let ctx : BitVec 12 := BitVec.ofNat 12 (eBits e 12 11 0)
     let sn : Nat := eBits e 8 27 24
     let cn : Nat := eBits e 8 31 28
     let world : Bool := (eBits e 8 16 16 == 1)
     s.accepts p 2 [] [(8, 5, 0), (8, 16, 16), (8, 17, 17), (8, 27, 24), (8, 31, 28), (12, 11, 0), (16, 47, 0), (24, 47, 0), (32, 47, 0)]
       true e ∧ 4 ≤ sn ∧ sn ≤ 12 ∧ 4 ≤ cn ∧ cn ≤ 12 ∧ eAddr e 16 % 4096 = 0 ∧ eAddr e 24 % 4096 = 0 ∧ s.named ctx = true ∧ (ctx ≠ 0 →
       world = s.ctxWorld ctx) ∧ eBits e 8 17 17 = 0 ∧ eAddr e 32 = 0 ∧ (s.ring q).isOpen = true) ∧
    (let p : Fin 64 := 0
     let e : BitVec 512 := ent 2 [(8, 0, 63), (8, 24, 12), (8, 28, 12), (16, 0, 0xC00000700000), (24, 0, 0xC00000701000)]
     let q : Fin 64 := Fin.ofNat 64 (eBits e 8 5 0)
     let s : State := taken p e on
     let ctx : BitVec 12 := BitVec.ofNat 12 (eBits e 12 11 0)
     let sn : Nat := eBits e 8 27 24
     let cn : Nat := eBits e 8 31 28
     let world : Bool := (eBits e 8 16 16 == 1)
     s.accepts p 2 [] [(8, 5, 0), (8, 16, 16), (8, 17, 17), (8, 27, 24), (8, 31, 28), (12, 11, 0), (16, 47, 0), (24, 47, 0), (32, 47, 0)]
       true e ∧ 4 ≤ sn ∧ sn ≤ 12 ∧ 4 ≤ cn ∧ cn ≤ 12 ∧ eAddr e 16 % 4096 = 0 ∧ eAddr e 24 % 4096 = 0 ∧ s.named ctx = true ∧ (ctx ≠ 0 →
       world = s.ctxWorld ctx) ∧ eBits e 8 17 17 = 0 ∧ eAddr e 32 = 0 ∧ (s.ring q).isOpen = false) ∧
    (let p : Fin 64 := 0
     let e : BitVec 512 := ent 2 [(8, 0, 2), (8, 24, 4), (8, 28, 4), (8, 17, 1), (32, 0, 0xC00000800000)]
     let q : Fin 64 := Fin.ofNat 64 (eBits e 8 5 0)
     let s : State := taken p e on
     let ctx : BitVec 12 := BitVec.ofNat 12 (eBits e 12 11 0)
     let h : List Byte := ((s.fwRead (p.val == 1) (eAddr e 32) 33).2).getD []
     let n : Nat := BitVec.toNat (h.getD 32 0)
     let u : State := (s.fwRead (p.val == 1) (eAddr e 32) 33).1
     let bs : List Byte := ((u.fwRead (p.val == 1) (eAddr e 32) (40 + n * 16)).2).getD []
     let ws : List (Nat × Nat × Bool × Bool) := (allSome (List.map (parseWindow bs) (List.range n))).getD []
     let sn : Nat := eBits e 8 27 24
     let cn : Nat := eBits e 8 31 28
     let world : Bool := (eBits e 8 16 16 == 1)
     let v : State := (u.fwRead (p.val == 1) (eAddr e 32) (40 + n * 16)).1
     s.accepts p 2 [] [(8, 5, 0), (8, 16, 16), (8, 17, 17), (8, 27, 24), (8, 31, 28), (12, 11, 0), (16, 47, 0), (24, 47, 0), (32, 47, 0)]
       true e ∧ 4 ≤ sn ∧ sn ≤ 12 ∧ 4 ≤ cn ∧ cn ≤ 12 ∧ eAddr e 16 % 4096 = 0 ∧ eAddr e 24 % 4096 = 0 ∧ s.named ctx = true ∧ (ctx ≠ 0 →
       world = s.ctxWorld ctx) ∧ eBits e 8 17 17 = 1 ∧ (s.ring q).isOpen = false ∧ s.fpRuns 4 = true ∧ (s.fwRead (p.val == 1) (eAddr e 32)
       33).2 = some h ∧ n ≤ 8 ∧ (u.fwRead (p.val == 1) (eAddr e 32) (40 + n * 16)).2 = some bs ∧ allSome (List.map (parseWindow bs)
       (List.range n)) = some ws ∧ (v.ringSlot q ctx (List.take 32 bs)).isSome = true) ∧
    (let p : Fin 64 := 0
     let e : BitVec 512 := ent 3 [(8, 0, 63)]
     let q : Fin 64 := Fin.ofNat 64 (eBits e 8 5 0)
     let s : State := taken p e (opened 63 on)
     s.accepts p 3 [] [(8, 5, 0)] true e ∧ 2 ≤ q.val ∧ (s.ring q).isOpen = true ∧ (s.ring q).closing = false ∧ (s.ring q).taken = none) ∧
    (let p : Fin 64 := 0
     let e : BitVec 512 := ent 3 [(8, 0, 63)]
     let q : Fin 64 := Fin.ofNat 64 (eBits e 8 5 0)
     let s : State := taken p e (taken 63 0 on)
     s.accepts p 3 [] [(8, 5, 0)] true e ∧ 2 ≤ q.val ∧ (s.ring q).isOpen = true ∧ (s.ring q).closing = false ∧ (s.ring q).taken ≠ none) ∧
    (let p : Fin 64 := 0
     let e : BitVec 512 := ent 34 [(8, 0, 0xFFFF)]
     let s : State := taken p e on
     s.accepts p 34 [7] [(8, 15, 0)] true e) ∧
    (let p : Fin 64 := 0
     let e : BitVec 512 := ent 33 [(8, 0, 0)]
     let s : State := taken p e on
     s.accepts p 33 [2] [(8, 11, 0), (16, 47, 0)] false e ∧ eAddr e 16 % 64 = 0 ∧ s.mayUse p (BitVec.ofNat 12 (eBits e 8 11 0)) = true ∧
       s.named (BitVec.ofNat 12 (eBits e 8 11 0)) = true) ∧
    (let p : Fin 64 := 0
     let e : BitVec 512 := ent 32 [(24, 0, 1), (16, 0, 0x180001500000), (8, 0, 6)]
     let s : State := taken p e on
     let bs : List Byte := ((State.statusWords (p.val == 1) true (eBits e 24 9 0) s (dieBase (eBits e 8 2 0) + eAddr e 16)).2).getD []
     s.accepts p 32 [] [(8, 2, 0), (16, 47, 0), (24, 9, 0), (32, 47, 0)] false e ∧ isControl p = true ∧ 0 < eBits e 24 9 0 ∧ eAddr e 16 %
       4 = 0 ∧ 26388279066624 ≤ eAddr e 16 ∧ eAddr e 16 + 4 * eBits e 24 9 0 ≤ 2 ^ 45 ∧ eAddr e 32 % 64 = 0 ∧ (State.statusWords (p.val ==
       1) true (eBits e 24 9 0) s (dieBase (eBits e 8 2 0) + eAddr e 16)).2 = some bs) := by
  refine ⟨?_, ?_, ?_, ?_, ?_, ?_, ?_, ?_, ?_, ?_, ?_⟩
  · decide +kernel
  · decide +kernel
  · unfold State.accepts; decide +kernel
  · unfold State.accepts; decide +kernel
  · unfold State.accepts; decide +kernel
  · unfold State.accepts; decide +kernel
  · unfold State.accepts; decide +kernel
  · unfold State.accepts; decide +kernel
  · unfold State.accepts; decide +kernel
  · unfold State.accepts; decide +kernel
  · unfold State.accepts; decide +kernel

theorem witness_RingPairsTurnAwayAndPost :
    (let s : State := on
     let p : Fin 64 := 0
     (s.ring p).taken = none) ∧
    (let e : BitVec 512 := ent 1 []
     let s : State := taken 0 e on
     let p : Fin 64 := 0
     let op : Nat := 2
     (s.ring p).taken = some e ∧ eOp e ≠ op) ∧
    (let e : BitVec 512 := ent 1 [(63, 7, 1)]
     let s : State := taken 0 e on
     let p : Fin 64 := 0
     let op : Nat := 1
     let needs : List (Fin 8) := []
     let fields : List (Nat × Nat × Nat) := []
     s.takenCmd p op needs = some e ∧ s.pkg ≠ pkSHUTTING ∧ eClean e fields = false) ∧
    (let e : BitVec 512 := ent 3 []
     let s : State := taken 2 e on
     let p : Fin 64 := 2
     let op : Nat := 3
     let needs : List (Fin 8) := []
     let fields : List (Nat × Nat × Nat) := []
     let ctl : Bool := true
     s.takenCmd p op needs = some e ∧ s.pkg ≠ pkSHUTTING ∧ eClean e fields = true ∧ ctl = true ∧ isControl p = false) ∧
    (let e : BitVec 512 := ent 3 []
     let s : State := (taken 0 e on).setPkg pkSHUTTING
     let p : Fin 64 := 0
     let op : Nat := 3
     let needs : List (Fin 8) := []
     s.takenCmd p op needs = some e ∧ s.pkg = pkSHUTTING ∧ op ≠ 42) ∧
    (let e : BitVec 512 := ent 1 []
     let s : State := taken 0 e on
     let p : Fin 64 := 0
     (s.ring p).isOpen = true ∧ (s.ring p).closing = false ∧ (s.ring p).taken = some e) ∧
    (let e : BitVec 512 := ent 1 []
     let s : State := taken 0 e on
     let p : Fin 64 := 0
     (s.ring p).isOpen = true ∧ (s.ring p).closing = false ∧ (s.ring p).taken = some e ∧ (s.ring p).held = [] ∧ (s.ring p).room = true) ∧
    (let e : BitVec 512 := ent 1 []
     let s : State := on.setRing 0 { openRing with taken := some e, cqTail := 16 }
     let p : Fin 64 := 0
     (s.ring p).isOpen = true ∧ (s.ring p).closing = false ∧ (s.ring p).taken = some e ∧ (s.ring p).room = false) := by
  refine ⟨?_, ?_, ?_, ?_, ?_, ?_, ?_, ?_⟩
  all_goals decide +kernel

theorem witness_JobRingCommandsComplete :
    (let p : Fin 64 := 0
     let e : BitVec 512 := ent 18 [(16, 0, 0xC00000700000), (24, 0, 0xC00000701000), (40, 0, 2)]
     let k : Kind := { kind with armed := false }
     let x : Part := { part with kinds := [k] }
     let s : State := taken p e (scheduled wheel x [])
     let pid : Fin 32 := Fin.ofNat 32 (eBits e 8 4 0)
     let kn : Fin 32 := Fin.ofNat 32 (eBits e 8 12 8)
     s.livePart pid = some x ∧ s.mayUse p x.ctx = true ∧ s.accepts p 18 [] jobFields false e ∧ (entryDesc p e).notify.val ≠ 3 ∧ (entryDesc
       p e).arg % 256 = 0 ∧ (entryDesc p e).res % 64 = 0 ∧ x.kind kn = some k ∧ k.typ ≠ KType.queued ∧ s.headerOk x.ctx (entryDesc p
       e).res = true ∧ x.failed = false ∧ k.armed = false) ∧
    (let p : Fin 64 := 0
     let e : BitVec 512 := ent 18 [(16, 0, 0xC00000700000), (24, 0, 0xC00000701000), (40, 0, 2)]
     let x : Part := part
     let k : Kind := kind
     let s : State := taken p e (scheduled wheel x [])
     let pid : Fin 32 := Fin.ofNat 32 (eBits e 8 4 0)
     let kn : Fin 32 := Fin.ofNat 32 (eBits e 8 12 8)
     s.livePart pid = some x ∧ s.mayUse p x.ctx = true ∧ s.accepts p 18 [] jobFields false e ∧ (entryDesc p e).notify.val ≠ 3 ∧ (entryDesc
       p e).arg % 256 = 0 ∧ (entryDesc p e).res % 64 = 0 ∧ x.kind kn = some k ∧ k.typ ≠ KType.queued ∧ s.headerOk x.ctx (entryDesc p
       e).res = true ∧ x.failed = false ∧ k.armed = true) ∧
    (let p : Fin 64 := 0
     let e : BitVec 512 := ent 19 []
     let x : Part := part
     let k : Kind := kind
     let s : State := taken p e (scheduled wheel x [])
     let pid : Fin 32 := Fin.ofNat 32 (eBits e 8 4 0)
     let kn : Fin 32 := Fin.ofNat 32 (eBits e 8 12 8)
     s.livePart pid = some x ∧ s.mayUse p x.ctx = true ∧ s.accepts p 19 [] [(8, 4, 0), (8, 12, 8)] false e ∧ x.kind kn = some k ∧ k.typ ≠
       KType.queued) ∧
    (let p : Fin 64 := 0
     let e : BitVec 512 := ent 20 [(16, 0, 0xC00000700000), (24, 0, 0xC00000701000), (40, 0, 2)]
     let k : Kind := queue
     let x : Part := { part with kinds := [k] }
     let s : State := taken p e (scheduled wheel x [])
     let pid : Fin 32 := Fin.ofNat 32 (eBits e 8 4 0)
     let kn : Fin 32 := Fin.ofNat 32 (eBits e 8 12 8)
     s.livePart pid = some x ∧ s.mayUse p x.ctx = true ∧ s.accepts p 20 [] jobFields false e ∧ (entryDesc p e).notify.val ≠ 3 ∧ (entryDesc
       p e).arg % 256 = 0 ∧ (entryDesc p e).res % 64 = 0 ∧ x.kind kn = some k ∧ k.typ = KType.queued ∧ s.headerOk x.ctx (entryDesc p
       e).res = true ∧ x.failed = false ∧ (List.filter (fun (j : Job) => j.part == pid && j.kind == kn && j.out == JOut.empty &&
       !j.launched) s.sched.jobs).length < k.qdepth ∧ (s.ring p).held.length < 65536) ∧
    (let p : Fin 64 := 0
     let e : BitVec 512 := ent 21 [(12, 0, 7)]
     let k : Kind := queue
     let x : Part := { part with kinds := [k] }
     let j : Job := job
     let s : State := taken p e (scheduled wheel x [j])
     let pid : Fin 32 := Fin.ofNat 32 (eBits e 8 4 0)
     let kn : Fin 32 := Fin.ofNat 32 (eBits e 8 12 8)
     s.livePart pid = some x ∧ s.mayUse p x.ctx = true ∧ s.accepts p 21 [] [(8, 4, 0), (8, 12, 8), (12, 31, 0)] false e ∧ s.part pid =
       some x ∧ s.findJob pid kn (eWord e 12) = some j ∧ j.out = JOut.empty ∧ j.launched = false) ∧
    (let p : Fin 64 := 0
     let e : BitVec 512 := ent 21 [(12, 0, 7)]
     let k : Kind := queue
     let x : Part := { part with kinds := [k] }
     let j : Job := launched
     let s : State := taken p e (scheduled wheel x [j])
     let pid : Fin 32 := Fin.ofNat 32 (eBits e 8 4 0)
     let kn : Fin 32 := Fin.ofNat 32 (eBits e 8 12 8)
     s.livePart pid = some x ∧ s.mayUse p x.ctx = true ∧ s.accepts p 21 [] [(8, 4, 0), (8, 12, 8), (12, 31, 0)] false e ∧ s.part pid =
       some x ∧ s.findJob pid kn (eWord e 12) = some j ∧ j.out = JOut.empty ∧ j.launched = true) := by
  refine ⟨?_, ?_, ?_, ?_, ?_, ?_⟩
  all_goals (unfold State.accepts; decide +kernel)

theorem witness_TimeRingCommandsComplete :
    (let p : Fin 64 := 0
     let e : BitVec 512 := ent 24 []
     let s : State := taken p e ({ on with time := { on.time with frozen := true } })
     s.accepts p 24 [5] [(8, 1, 0), (8, 2, 2), (8, 3, 3), (8, 8, 4), (8, 15, 12), (12, 31, 0)] true e ∧ s.time.frozen = true) ∧
    (let p : Fin 64 := 0
     let e : BitVec 512 := ent 24 []
     let s : State := taken p e (scheduled wheel part [])
     let w : Fin 4 := Fin.ofNat 4 (eBits e 8 1 0)
     s.accepts p 24 [5] [(8, 1, 0), (8, 2, 2), (8, 3, 3), (8, 8, 4), (8, 15, 12), (12, 31, 0)] true e ∧ s.admitted w = true ∧ eBits e 8 2
       2 = 0) ∧
    (let p : Fin 64 := 0
     let e : BitVec 512 := ent 24 []
     let s : State := taken p e on
     let w : Fin 4 := Fin.ofNat 4 (eBits e 8 1 0)
     s.accepts p 24 [5] [(8, 1, 0), (8, 2, 2), (8, 3, 3), (8, 8, 4), (8, 15, 12), (12, 31, 0)] true e ∧ s.time.frozen = false ∧ s.admitted
       w = false ∧ eBits e 8 2 2 = 0) ∧
    (let p : Fin 64 := 0
     let e : BitVec 512 := ent 24 [(8, 2, 1)]
     let s : State := taken p e (turning wheel on)
     let w : Fin 4 := Fin.ofNat 4 (eBits e 8 1 0)
     s.accepts p 24 [5] [(8, 1, 0), (8, 2, 2), (8, 3, 3), (8, 8, 4), (8, 15, 12), (12, 31, 0)] true e ∧ s.time.frozen = false ∧ s.admitted
       w = false ∧ eBits e 8 2 2 = 1 ∧ (s.wheel w).live = true) ∧
    (let p : Fin 64 := 0
     let e : BitVec 512 := ent 24 [(8, 2, 1), (8, 3, 1), (12, 0, 200000000)]
     let s : State := taken p e on
     let w : Fin 4 := Fin.ofNat 4 (eBits e 8 1 0)
     let c : Word := BitVec.ofNat 32 (eBits e 8 2 2 * 2 ^ 31 + eBits e 8 3 3 * 2 ^ 30 + eBits e 8 8 4 * 2 ^ 21 + eBits e 8 15 12 * 2 ^ 16)
     s.accepts p 24 [5] [(8, 1, 0), (8, 2, 2), (8, 3, 3), (8, 8, 4), (8, 15, 12), (12, 31, 0)] true e ∧ s.time.frozen = false ∧ s.admitted
       w = false ∧ eBits e 8 2 2 = 1 ∧ (s.wheel w).live = false ∧ s.enableOk w c (BitVec.toNat (eWord e 12)) = true) ∧
    (let p : Fin 64 := 0
     let e : BitVec 512 := ent 24 [(8, 2, 1), (8, 3, 1), (12, 0, 200000001)]
     let s : State := taken p e on
     let w : Fin 4 := Fin.ofNat 4 (eBits e 8 1 0)
     let c : Word := BitVec.ofNat 32 (eBits e 8 2 2 * 2 ^ 31 + eBits e 8 3 3 * 2 ^ 30 + eBits e 8 8 4 * 2 ^ 21 + eBits e 8 15 12 * 2 ^ 16)
     s.accepts p 24 [5] [(8, 1, 0), (8, 2, 2), (8, 3, 3), (8, 8, 4), (8, 15, 12), (12, 31, 0)] true e ∧ s.time.frozen = false ∧ s.admitted
       w = false ∧ eBits e 8 2 2 = 1 ∧ (s.wheel w).live = false ∧ s.enableOk w c (BitVec.toNat (eWord e 12)) = false) ∧
    (let p : Fin 64 := 0
     let e : BitVec 512 := ent 25 [(16, 0, 0xFFFFFFFF), (20, 0, 0xFFFFFFFF)]
     let s : State := taken p e on
     s.accepts p 25 [5] [(8, 1, 0), (8, 7, 4), (16, 63, 0)] true e ∧ eBits e 8 7 4 = 0) ∧
    (let p : Fin 64 := 0
     let e : BitVec 512 := ent 25 [(8, 4, 1)]
     let s : State := taken p e on
     let d : Fin 4 := Fin.ofNat 4 (eBits e 8 1 0)
     s.accepts p 25 [5] [(8, 1, 0), (8, 7, 4), (16, 63, 0)] true e ∧ eBits e 8 7 4 = 1 ∧ s.bound d = false) ∧
    (let p : Fin 64 := 0
     let e : BitVec 512 := ent 25 [(8, 4, 1)]
     let s : State := taken p e ((on.setReg .tu 0 (Reg.TU_CAPCFGn 31) 0x80000000).setReg .tu 0 (Reg.TU_DdCTRL 0) 0x80000000)
     let d : Fin 4 := Fin.ofNat 4 (eBits e 8 1 0)
     s.accepts p 25 [5] [(8, 1, 0), (8, 7, 4), (16, 63, 0)] true e ∧ eBits e 8 7 4 = 1 ∧ s.domEnabled d = true ∧ s.bound d = true) ∧
    (let p : Fin 64 := 0
     let e : BitVec 512 := ent 25 [(8, 4, 2), (16, 0, 0x7FFFFFFF)]
     let s : State := taken p e on
     let v : BitVec 64 := BitVec.extractLsb' 128 64 e
     s.accepts p 25 [5] [(8, 1, 0), (8, 7, 4), (16, 63, 0)] true e ∧ eBits e 8 7 4 = 2 ∧ fits32 v = true) ∧
    (let p : Fin 64 := 0
     let e : BitVec 512 := ent 25 [(8, 4, 3), (16, 0, 0xFFFFFFFF), (20, 0, 0xFFFFFFFF)]
     let s : State := taken p e on
     let v : BitVec 64 := BitVec.extractLsb' 128 64 e
     s.accepts p 25 [5] [(8, 1, 0), (8, 7, 4), (16, 63, 0)] true e ∧ eBits e 8 7 4 = 3 ∧ fits32 v = true) ∧
    (let p : Fin 64 := 0
     let e : BitVec 512 := ent 25 [(8, 4, 4)]
     let s : State := taken p e on
     let d : Fin 4 := Fin.ofNat 4 (eBits e 8 1 0)
     s.accepts p 25 [5] [(8, 1, 0), (8, 7, 4), (16, 63, 0)] true e ∧ eBits e 8 7 4 = 4 ∧ s.bound d = false) ∧
    (let p : Fin 64 := 0
     let e : BitVec 512 := ent 25 [(8, 4, 4)]
     let s : State := taken p e (on.setReg .tu 0 (Reg.TU_CAPCFGn 31) 0x80000000)
     let d : Fin 4 := Fin.ofNat 4 (eBits e 8 1 0)
     s.accepts p 25 [5] [(8, 1, 0), (8, 7, 4), (16, 63, 0)] true e ∧ eBits e 8 7 4 = 4 ∧ s.bound d = true) ∧
    (let p : Fin 64 := 0
     let e : BitVec 512 := ent 25 [(8, 4, 5)]
     let s : State := taken p e on
     let d : Fin 4 := Fin.ofNat 4 (eBits e 8 1 0)
     let v : BitVec 64 := BitVec.extractLsb' 128 64 e
     let u : State := s.setReg2 Blk.tu 0 (Reg.TU_DdSETL d.val) (Reg.TU_DdSETH d.val) v.toNat
     s.accepts p 25 [5] [(8, 1, 0), (8, 7, 4), (16, 63, 0)] true e ∧ eBits e 8 7 4 = 5 ∧ u.bound d = false) ∧
    (let p : Fin 64 := 0
     let e : BitVec 512 := ent 25 [(8, 4, 5)]
     let s : State := taken p e (on.setReg .tu 0 (Reg.TU_CAPCFGn 31) 0x80000000)
     let d : Fin 4 := Fin.ofNat 4 (eBits e 8 1 0)
     let v : BitVec 64 := BitVec.extractLsb' 128 64 e
     let u : State := s.setReg2 Blk.tu 0 (Reg.TU_DdSETL d.val) (Reg.TU_DdSETH d.val) v.toNat
     s.accepts p 25 [5] [(8, 1, 0), (8, 7, 4), (16, 63, 0)] true e ∧ eBits e 8 7 4 = 5 ∧ u.bound d = true) ∧
    (let p : Fin 64 := 0
     let e : BitVec 512 := ent 25 [(8, 4, 6), (16, 0, 127)]
     let s : State := taken p e on
     let v : BitVec 64 := BitVec.extractLsb' 128 64 e
     s.accepts p 25 [5] [(8, 1, 0), (8, 7, 4), (16, 63, 0)] true e ∧ eBits e 8 7 4 = 6 ∧ v.toNat < 128) ∧
    (let p : Fin 64 := 0
     let e : BitVec 512 := ent 26 [(8, 0, 31), (12, 31, 1)]
     let s : State := taken p e (on.setReg .tu 0 (Reg.TU_TRGCFGn 31) 0x80000000)
     let n : Fin 32 := Fin.ofNat 32 (eBits e 8 4 0)
     s.accepts p 26 [5] [(8, 4, 0), (12, 31, 22), (12, 15, 0), (16, 31, 0), (20, 31, 0), (24, 31, 0), (28, 31, 0), (32, 15, 0)] true e ∧
       trgEn (s.trgCfg n) = true ∧ trgEn (eWord e 12) = true) ∧
    (let p : Fin 64 := 0
     let e : BitVec 512 := ent 26 [(8, 0, 31)]
     let s : State := taken p e (on.setReg .tu 0 (Reg.TU_TRGCFGn 31) 0x80000000)
     let n : Fin 32 := Fin.ofNat 32 (eBits e 8 4 0)
     s.accepts p 26 [5] [(8, 4, 0), (12, 31, 22), (12, 15, 0), (16, 31, 0), (20, 31, 0), (24, 31, 0), (28, 31, 0), (32, 15, 0)] true e ∧
       trgEn (s.trgCfg n) = true ∧ trgEn (eWord e 12) = false) ∧
    (let p : Fin 64 := 0
     let e : BitVec 512 := ent 26 [(8, 0, 31), (12, 31, 1), (28, 0, 8)]
     let s : State := taken p e on
     let n : Fin 32 := Fin.ofNat 32 (eBits e 8 4 0)
     let u : State := ((((s.setReg Blk.tu 0 (Reg.TU_TRGSTARTLn n.val) (eWord e 16)).setReg Blk.tu 0 (Reg.TU_TRGSTARTHn n.val) (eWord e
       20)).setReg Blk.tu 0 (Reg.TU_TRGPERn n.val) (eWord e 24)).setReg Blk.tu 0 (Reg.TU_TRGWIDn n.val) (eWord e 28)).setReg Blk.tu 0
       (Reg.TU_TRGADVn n.val) (eWord e 32)
     s.accepts p 26 [5] [(8, 4, 0), (12, 31, 22), (12, 15, 0), (16, 31, 0), (20, 31, 0), (24, 31, 0), (28, 31, 0), (32, 15, 0)] true e ∧
       trgEn (s.trgCfg n) = false ∧ trgEn (eWord e 12) = true ∧ u.trigOk n (eWord e 12 &&& 4290838527) = true ∧ u.time.frozen = false) ∧
    (let p : Fin 64 := 0
     let e : BitVec 512 := ent 26 [(8, 0, 31), (12, 31, 1), (28, 0, 7)]
     let s : State := taken p e on
     let n : Fin 32 := Fin.ofNat 32 (eBits e 8 4 0)
     let u : State := ((((s.setReg Blk.tu 0 (Reg.TU_TRGSTARTLn n.val) (eWord e 16)).setReg Blk.tu 0 (Reg.TU_TRGSTARTHn n.val) (eWord e
       20)).setReg Blk.tu 0 (Reg.TU_TRGPERn n.val) (eWord e 24)).setReg Blk.tu 0 (Reg.TU_TRGWIDn n.val) (eWord e 28)).setReg Blk.tu 0
       (Reg.TU_TRGADVn n.val) (eWord e 32)
     s.accepts p 26 [5] [(8, 4, 0), (12, 31, 22), (12, 15, 0), (16, 31, 0), (20, 31, 0), (24, 31, 0), (28, 31, 0), (32, 15, 0)] true e ∧
       trgEn (s.trgCfg n) = false ∧ trgEn (eWord e 12) = true ∧ u.trigOk n (eWord e 12 &&& 4290838527) = false) ∧
    (let p : Fin 64 := 0
     let e : BitVec 512 := ent 26 []
     let s : State := taken p e on
     let n : Fin 32 := Fin.ofNat 32 (eBits e 8 4 0)
     s.accepts p 26 [5] [(8, 4, 0), (12, 31, 22), (12, 15, 0), (16, 31, 0), (20, 31, 0), (24, 31, 0), (28, 31, 0), (32, 15, 0)] true e ∧
       trgEn (s.trgCfg n) = false ∧ trgEn (eWord e 12) = false) ∧
    (let p : Fin 64 := 0
     let e : BitVec 512 := ent 27 []
     let s : State := taken p e on
     s.accepts p 27 [5] [(8, 4, 0), (12, 31, 25), (12, 4, 0)] true e ∧ capOk (eWord e 12) = true) ∧
    (let p : Fin 64 := 0
     let e : BitVec 512 := ent 27 [(8, 0, 31), (12, 31, 1)]
     let s : State := taken p e on
     s.accepts p 27 [5] [(8, 4, 0), (12, 31, 25), (12, 4, 0)] true e ∧ capOk (eWord e 12) = false) ∧
    (let p : Fin 64 := 0
     let e : BitVec 512 := ent 28 []
     let s : State := taken p e on
     s.accepts p 28 [5] [(8, 47, 0)] true e ∧ eAddr e 8 % 64 = 0) ∧
    (let p : Fin 64 := 0
     let e : BitVec 512 := ent 29 [(8, 0, 31), (16, 0, 0xC00000700000)]
     let s : State := taken p e ({ on with time := { on.time with cap := [(31, ⟨[(1, true)], none, false, []⟩)] } })
     let n : Fin 32 := Fin.ofNat 32 (eBits e 8 4 0)
     s.accepts p 29 [5] [(8, 4, 0), (16, 47, 0)] true e ∧ eAddr e 16 % 64 = 0 ∧ (s.fwWrite (p.val == 1) (eAddr e 16) (List.flatMap (fun
       (f : Word × Bool) => leBytes 4 (BitVec.toNat f.fst)) (s.cap n).fifo)).2 = true) := by
  refine ⟨?_, ?_, ?_, ?_, ?_, ?_, ?_, ?_, ?_, ?_, ?_, ?_, ?_, ?_, ?_, ?_, ?_, ?_, ?_, ?_, ?_, ?_, ?_, ?_, ?_⟩
  all_goals (unfold State.accepts; decide +kernel)

theorem witness_RemoteAccessCommandsComplete :
    (let q : RapDgram := dgram (tpHeader 0x4852 1 0 16 0 2 0 ++ zeros 16)
     let p : Fin 64 := tpPair q.bytes
     let s : State := remote (List.replicate 3 { session with established := false }) on
     let id : Word := 1
     s.rapFor q = true ∧ s.fpRuns 6 = true ∧ s.rapPair p = true ∧ tpForm 18514 q.bytes 0 = true ∧ tpOp q.bytes = 1 ∧ tpSession q.bytes = 0
       ∧ tpSeq q.bytes = 0 ∧ tpLen q.bytes = 16 ∧ id ≠ 0 ∧ s.session p id = none ∧ (List.filter (fun (x : Session) => x.pair == p &&
       !x.established) s.fw.sessions).length < 4) ∧
    (let q : RapDgram := rap 6 0 []
     let p : Fin 64 := tpPair q.bytes
     let s : State := remote [] on
     s.rapFor q = true ∧ s.fpRuns 6 = true ∧ s.rapPair p = true ∧ tpForm 18514 q.bytes 16 = true ∧ tpOp q.bytes = 6 ∧ s.session p
       (tpSession q.bytes) = none) ∧
    (let q : RapDgram := dgram (sealedWith 0x4852 (rapKey [] [] [] 8) 6 2 1 0 [])
     let p : Fin 64 := tpPair q.bytes
     let x : Session := session
     let s : State := remote [x] on
     s.rapFor q = true ∧ s.fpRuns 6 = true ∧ s.rapPair p = true ∧ tpForm 18514 q.bytes 16 = true ∧ s.session p (tpSession q.bytes) = some
       x ∧ tpOp q.bytes = 6 ∧ tpOpened (s.sessionKey x) q.bytes = none) ∧
    (let q : RapDgram := rap 6 0 []
     let p : Fin 64 := tpPair q.bytes
     let x : Session := { session with done := [(1, [])] }
     let s : State := remote [x] on
     let pt : List Byte := (tpOpened (s.sessionKey x) q.bytes).getD []
     let y : BitVec 64 × List Byte := (1, [])
     s.rapFor q = true ∧ s.fpRuns 6 = true ∧ s.rapPair p = true ∧ tpForm 18514 q.bytes 16 = true ∧ s.session p (tpSession q.bytes) = some
       x ∧ tpOpened (s.sessionKey x) q.bytes = some pt ∧ tpSeq q.bytes ≠ 0 ∧ (tpSeq q.bytes).toNat ≤ 2 ^ 62 ∧ (x.established = true ∨
       tpSeq q.bytes = 1) ∧ tpOp q.bytes = 6 ∧ List.find? (fun (y : BitVec 64 × List Byte) => y.fst == tpSeq q.bytes) x.done = some y) ∧
    (let q : RapDgram := rap 6 0 []
     let p : Fin 64 := tpPair q.bytes
     let x : Session := session
     let s : State := remote [x] on
     let pt : List Byte := (tpOpened (s.sessionKey x) q.bytes).getD []
     s.rapFor q = true ∧ s.fpRuns 6 = true ∧ s.rapPair p = true ∧ tpForm 18514 q.bytes 16 = true ∧ s.session p (tpSession q.bytes) = some
       x ∧ tpOpened (s.sessionKey x) q.bytes = some pt ∧ tpSeq q.bytes ≠ 0 ∧ (tpSeq q.bytes).toNat ≤ 2 ^ 62 ∧ (x.established = true ∨
       tpSeq q.bytes = 1) ∧ (∀ (y : BitVec 64 × List Byte), y ∈ x.done → y.fst ≠ tpSeq q.bytes) ∧ x.done.length < 64 ∧ tpOp q.bytes = 6) ∧
    (let q : RapDgram := rap 5 0 []
     let p : Fin 64 := tpPair q.bytes
     let x : Session := session
     let s : State := remote [x] on
     let pt : List Byte := (tpOpened (s.sessionKey x) q.bytes).getD []
     s.rapFor q = true ∧ s.fpRuns 6 = true ∧ s.rapPair p = true ∧ tpForm 18514 q.bytes 16 = true ∧ s.session p (tpSession q.bytes) = some
       x ∧ tpOpened (s.sessionKey x) q.bytes = some pt ∧ tpSeq q.bytes ≠ 0 ∧ (tpSeq q.bytes).toNat ≤ 2 ^ 62 ∧ (x.established = true ∨
       tpSeq q.bytes = 1) ∧ (∀ (y : BitVec 64 × List Byte), y ∈ x.done → y.fst ≠ tpSeq q.bytes) ∧ x.done.length < 64 ∧ tpOp q.bytes = 5) ∧
    (let q : RapDgram := rap 4 0 []
     let p : Fin 64 := tpPair q.bytes
     let x : Session := session
     let s : State := remote [x] on
     let pt : List Byte := (tpOpened (s.sessionKey x) q.bytes).getD []
     s.rapFor q = true ∧ s.fpRuns 6 = true ∧ s.rapPair p = true ∧ tpForm 18514 q.bytes 16 = true ∧ s.session p (tpSession q.bytes) = some
       x ∧ tpOpened (s.sessionKey x) q.bytes = some pt ∧ tpSeq q.bytes ≠ 0 ∧ (tpSeq q.bytes).toNat ≤ 2 ^ 62 ∧ (x.established = true ∨
       tpSeq q.bytes = 1) ∧ (∀ (y : BitVec 64 × List Byte), y ∈ x.done → y.fst ≠ tpSeq q.bytes) ∧ x.done.length < 64 ∧ tpOp q.bytes = 4) ∧
    (let q : RapDgram := rap 2 0xC00000700000 (leBytes 4 1024)
     let p : Fin 64 := tpPair q.bytes
     let x : Session := session
     let s : State := remote [x] on
     let pt : List Byte := (tpOpened (s.sessionKey x) q.bytes).getD []
     let u : State := (if x.established = true then s else s.establish q x).putSession
       { x with established := true, lastValid := s.now, peer := q.peer }
     let n : Nat := 1024
     let bs : List Byte := ((u.unitRead fp6Src (tpAddr q.bytes) n).2).getD []
     s.rapFor q = true ∧ s.fpRuns 6 = true ∧ s.rapPair p = true ∧ tpForm 18514 q.bytes 16 = true ∧ s.session p (tpSession q.bytes) = some
       x ∧ tpOpened (s.sessionKey x) q.bytes = some pt ∧ tpSeq q.bytes ≠ 0 ∧ (tpSeq q.bytes).toNat ≤ 2 ^ 62 ∧ (x.established = true ∨
       tpSeq q.bytes = 1) ∧ (∀ (y : BitVec 64 × List Byte), y ∈ x.done → y.fst ≠ tpSeq q.bytes) ∧ x.done.length < 64 ∧ tpOp q.bytes = 2 ∧
       pt = leBytes 4 n ∧ n < 2 ^ 32 ∧ (u.ring p).rapStatus p (tpAddr q.bytes) n false = 0 ∧ (u.unitRead fp6Src (tpAddr q.bytes) n).2 =
       some bs) ∧
    (let q : RapDgram := rap 3 0xC00000700000 [1, 2, 3, 4]
     let p : Fin 64 := tpPair q.bytes
     let x : Session := session
     let s : State := remote [x] on
     let pt : List Byte := (tpOpened (s.sessionKey x) q.bytes).getD []
     let u : State := (if x.established = true then s else s.establish q x).putSession
       { x with established := true, lastValid := s.now, peer := q.peer }
     s.rapFor q = true ∧ s.fpRuns 6 = true ∧ s.rapPair p = true ∧ tpForm 18514 q.bytes 16 = true ∧ s.session p (tpSession q.bytes) = some
       x ∧ tpOpened (s.sessionKey x) q.bytes = some pt ∧ tpSeq q.bytes ≠ 0 ∧ (tpSeq q.bytes).toNat ≤ 2 ^ 62 ∧ (x.established = true ∨
       tpSeq q.bytes = 1) ∧ (∀ (y : BitVec 64 × List Byte), y ∈ x.done → y.fst ≠ tpSeq q.bytes) ∧ x.done.length < 64 ∧ tpOp q.bytes = 3 ∧
       (u.ring p).rapStatus p (tpAddr q.bytes) pt.length true = 0 ∧ (u.rapStore (tpAddr q.bytes) pt).2 = true) ∧
    (let q : RapDgram := rap 9 0 []
     let p : Fin 64 := tpPair q.bytes
     let x : Session := session
     let s : State := remote [x] on
     let pt : List Byte := (tpOpened (s.sessionKey x) q.bytes).getD []
     s.rapFor q = true ∧ s.fpRuns 6 = true ∧ s.rapPair p = true ∧ tpForm 18514 q.bytes 16 = true ∧ s.session p (tpSession q.bytes) = some
       x ∧ tpOpened (s.sessionKey x) q.bytes = some pt ∧ tpSeq q.bytes ≠ 0 ∧ (tpSeq q.bytes).toNat ≤ 2 ^ 62 ∧ (x.established = true ∨
       tpSeq q.bytes = 1) ∧ (∀ (y : BitVec 64 × List Byte), y ∈ x.done → y.fst ≠ tpSeq q.bytes) ∧ x.done.length < 64 ∧ rapOps.contains
       (tpOp q.bytes) = false) ∧
    (let q : RapDgram := rap 6 0 []
     let p : Fin 64 := 2
     let x : Session := session
     let s : State := words (ringCb 2) [(36, 1), (44, 1)] (remote [x] on)
     p = tpPair q.bytes ∧ s.fpRuns 6 = true ∧ s.rapPair p = true ∧ List.find? (fun (x : Session) => x.pair == p && x.established)
       s.fw.sessions = some x ∧ x.lastNotify = none ∧ (s.ring p).cqTail ≠ s.load32 (ringCb p + 36) ∧ bitOf (s.load32 (ringCb p + 44)) 0 =
       true) := by
  refine ⟨?_, ?_, ?_, ?_, ?_, ?_, ?_, ?_, ?_, ?_, ?_⟩
  all_goals decide +kernel

theorem witness_JobInstancesComplete :
    (let pid : Fin 32 := 0
     let kn : Fin 32 := 0
     let p : Part := part
     let k : Kind := kind
     let d : JobDesc := desc
     let s : State := scheduled { wheel with phase := 136 } p []
     let n : Word := (ticksTo (s.wheel p.wheel) k.launch.toNat).snd
     s.part pid = some p ∧ p.kind kn = some k ∧ k.desc = some d ∧ (s.wheel p.wheel).going = true ∧ p.launches k n = true ∧ 0 < (ticksTo
       (s.wheel p.wheel) k.launch.toNat).fst ∧ (ticksTo (s.wheel p.wheel) k.launch.toNat).fst ≤ 64 ∧ (∀ (st : Word × Option (List Byte)),
       k.staged = some st → st.fst ≠ n)) ∧
    (let pid : Fin 32 := 0
     let kn : Fin 32 := 0
     let k : Kind := { kind with staged := some (7, none) }
     let p : Part := { part with kinds := [k] }
     let d : JobDesc := desc
     let n : Word := 7
     let y : Job := { launched with queued := true, kind := 1 }
     let s : State := scheduled { wheel with phase := 200 } p [y]
     let b : Option (List Byte) := none
     s.part pid = some p ∧ p.kind kn = some k ∧ k.desc = some d ∧ k.staged = some (n, b) ∧ (s.wheel p.wheel).going = true ∧ p.launches k n
       = true ∧ (s.wheel p.wheel).passed n k.launch.toNat = true ∧ k.lastFrame ≠ some n ∧ List.find? (fun (j : Job) => j.queued &&
       !j.stopping && j.out == JOut.empty && j.running.any (p.kindCores k).contains) s.sched.jobs = some y) ∧
    (let pid : Fin 32 := 0
     let kn : Fin 32 := 0
     let k : Kind := { kind with staged := some (7, none) }
     let p : Part := { part with kinds := [k] }
     let d : JobDesc := desc
     let n : Word := 7
     let s : State := scheduled { wheel with phase := 200 } p []
     let b : Option (List Byte) := none
     s.part pid = some p ∧ p.kind kn = some k ∧ k.desc = some d ∧ k.staged = some (n, b) ∧ (s.wheel p.wheel).going = true ∧ p.launches k n
       = true ∧ (s.wheel p.wheel).passed n k.launch.toNat = true ∧ k.lastFrame ≠ some n ∧ List.find? (fun (j : Job) => j.queued &&
       !j.stopping && j.out == JOut.empty && j.running.any (p.kindCores k).contains) s.sched.jobs = none ∧ (p.kindCores k).all s.coreFree
       = true ∧ b = none) ∧
    (let pid : Fin 32 := 0
     let kn : Fin 32 := 0
     let k : Kind := { kind with staged := some (7, some [1]) }
     let p : Part := { part with kinds := [k] }
     let d : JobDesc := desc
     let n : Word := 7
     let bs : List Byte := [1]
     let s : State := scheduled { wheel with phase := 200 } p []
     let b : Option (List Byte) := some bs
     s.part pid = some p ∧ p.kind kn = some k ∧ k.desc = some d ∧ k.staged = some (n, b) ∧ (s.wheel p.wheel).going = true ∧ p.launches k n
       = true ∧ (s.wheel p.wheel).passed n k.launch.toNat = true ∧ k.lastFrame ≠ some n ∧ List.find? (fun (j : Job) => j.queued &&
       !j.stopping && j.out == JOut.empty && j.running.any (p.kindCores k).contains) s.sched.jobs = none ∧ (p.kindCores k).all s.coreFree
       = true ∧ b = some bs ∧ (s.wheel p.wheel).frame = n ∧ (s.wheel p.wheel).phase = k.launch ∧ k.hit ≠ some n) ∧
    (let pid : Fin 32 := 0
     let kn : Fin 32 := 0
     let k : Kind := { kind with staged := some (7, some [1]) }
     let p : Part := { part with kinds := [k] }
     let d : JobDesc := desc
     let c : CoreId := c0
     let n : Word := 7
     let bs : List Byte := [1]
     let s : State := scheduled { wheel with phase := 201 } p []
     let b : Option (List Byte) := some bs
     s.part pid = some p ∧ p.kind kn = some k ∧ k.desc = some d ∧ k.staged = some (n, b) ∧ (s.wheel p.wheel).going = true ∧ p.launches k n
       = true ∧ (s.wheel p.wheel).passed n k.launch.toNat = true ∧ k.lastFrame ≠ some n ∧ List.find? (fun (j : Job) => j.queued &&
       !j.stopping && j.out == JOut.empty && j.running.any (p.kindCores k).contains) s.sched.jobs = none ∧ (p.kindCores k).all s.coreFree
       = true ∧ b = some bs ∧ (¬((s.wheel p.wheel).frame = n ∧ (s.wheel p.wheel).phase = k.launch ∧ k.hit ≠ some n)) ∧ (p.kindCores
       k).head? = some c) ∧
    (let c : CoreId := c0
     let cl : ClusterId := c0.cl
     let i : Fin 64 := 63
     let s : State := (turning { wheel with tickLt := 1 } on).setReg .cad 0 (Reg.CAD_LTABi 63) 0x80010064
     s.expertEntry cl i = true ∧ s.up (domCluster cl) = true ∧ s.entryCores cl i = [c] ∧ (s.wheel (s.core c).jobWheel).going = true ∧
       (s.wheel (s.core c).jobWheel).phase.toNat = s.fld Blk.cad cl.inst (Reg.CAD_LTABi i.val) 15 0 ∧ s.coreFree c = true ∧ (s.core
       c).startLt < (s.wheel (s.core c).jobWheel).tickLt) ∧
    (let pid : Fin 32 := 0
     let k : Kind := queue
     let p : Part := { part with kinds := [k] }
     let j : Job := { job with queued := true }
     let s : State := scheduled wheel p [j]
     let bs : List Byte := ((s.argRead pid p k j.desc.arg).2).getD []
     s.queuedReady pid false = some (p, k, j) ∧ (s.argRead pid p k j.desc.arg).2 = some bs) ∧
    (let pid : Fin 32 := 0
     let k : Kind := { queue with plead := 100, num := 1 }
     let p : Part := { part with kinds := [kind, k] }
     let j : Job := { launched with queued := true, kind := 1 }
     let c : CoreId := c0
     let s : State := scheduled wheel p [j]
     s.part pid = some p ∧ p.kind j.kind = some k ∧ (p.kindCores k).head? = some c ∧ List.filter (fun (j : Job) => j.part == pid &&
       j.queued && j.out == JOut.empty && j.launched && !j.yielded && !j.stopping) s.sched.jobs = [j] ∧ s.yieldDue p k = true) ∧
    (let pid : Fin 32 := 0
     let k : Kind := { queue with plead := 99, num := 1 }
     let p : Part := { part with kinds := [kind, k] }
     let j : Job := { launched with queued := true, kind := 1 }
     let c : CoreId := c0
     let s : State := scheduled wheel p [j]
     s.part pid = some p ∧ p.kind j.kind = some k ∧ (p.kindCores k).head? = some c ∧ List.filter (fun (j : Job) => j.part == pid &&
       j.queued && j.out == JOut.empty && j.launched && !j.yielded && !j.stopping) s.sched.jobs = [j] ∧ s.yieldDue p k = false) ∧
    (let pid : Fin 32 := 0
     let k : Kind := queue
     let p : Part := { part with kinds := [k] }
     let j : Job := { job with queued := true, launched := true, yielded := true, resume := [(c0, 64)] }
     let s : State := scheduled wheel p [j]
     s.queuedReady pid true = some (p, k, j)) ∧
    (let p : Part := part
     let k : Kind := kind
     let j : Job := { launched with running := [c0, ⟨⟨0, 0⟩, 1⟩] }
     let c : CoreId := c0
     let s : State := (scheduled { wheel with phase := 500 } p [j]).putCore c0 { coreRun with ended := true, run := false }
     let u : State := (s.putCore c ({ s.core c with ended := false, endFails := 0 })).setCadCore c 3
     let r : Word := u.load32 (lsBase c + p.yline.toNat + 4)
     let y : Job :=
       { j with pwfail := satAdd j.pwfail (BitVec.toNat (s.core c).endFails), running := List.filter (fun (x : CoreId) => x != c) j.running, resume := if r = 0 then j.resume else j.resume ++ [(c, BitVec.setWidth 20 r)] }
     let z : State := (u.setAcct p.ctx fun (a : Acct) =>
       { a with corecyc := satAdd a.corecyc (cyclesOf ((s.core c).endLt - (s.core c).startLt)), arrbusy := satAdd a.arrbusy (if (s.core c).arrBase ≤ u.reg Blk.tc c.inst Reg.TC_ARRBUSY then BitVec.toNat (u.reg Blk.tc c.inst Reg.TC_ARRBUSY - (s.core c).arrBase) else BitVec.toNat (u.reg Blk.tc c.inst Reg.TC_ARRBUSY)) }).setJob
       y
     (s.core c).ended = true ∧ s.isChecker c = false ∧ u.jobOf c = some j ∧ u.part j.part = some p ∧ p.kind j.kind = some k ∧
       z.deadlineDue p k y = true) ∧
    (let p : Part := part
     let k : Kind := kind
     let j : Job := { launched with running := [c0, ⟨⟨0, 0⟩, 1⟩] }
     let c : CoreId := c0
     let s : State := (scheduled wheel p [j]).putCore c0 { coreRun with ended := true, run := false }
     let u : State := (s.putCore c ({ s.core c with ended := false, endFails := 0 })).setCadCore c 3
     let r : Word := u.load32 (lsBase c + p.yline.toNat + 4)
     let y : Job :=
       { j with pwfail := satAdd j.pwfail (BitVec.toNat (s.core c).endFails), running := List.filter (fun (x : CoreId) => x != c) j.running, resume := if r = 0 then j.resume else j.resume ++ [(c, BitVec.setWidth 20 r)] }
     let z : State := (u.setAcct p.ctx fun (a : Acct) =>
       { a with corecyc := satAdd a.corecyc (cyclesOf ((s.core c).endLt - (s.core c).startLt)), arrbusy := satAdd a.arrbusy (if (s.core c).arrBase ≤ u.reg Blk.tc c.inst Reg.TC_ARRBUSY then BitVec.toNat (u.reg Blk.tc c.inst Reg.TC_ARRBUSY - (s.core c).arrBase) else BitVec.toNat (u.reg Blk.tc c.inst Reg.TC_ARRBUSY)) }).setJob
       y
     (s.core c).ended = true ∧ s.isChecker c = false ∧ u.jobOf c = some j ∧ u.part j.part = some p ∧ p.kind j.kind = some k ∧
       z.deadlineDue p k y = false ∧ y.running ≠ []) ∧
    (let p : Part := part
     let k : Kind := kind
     let j : Job := launched
     let c : CoreId := c0
     let s : State := (scheduled wheel p [j]).putCore c0 { coreRun with ended := true, run := false }
     let u : State := (s.putCore c ({ s.core c with ended := false, endFails := 0 })).setCadCore c 3
     let r : Word := u.load32 (lsBase c + p.yline.toNat + 4)
     let y : Job :=
       { j with pwfail := satAdd j.pwfail (BitVec.toNat (s.core c).endFails), running := List.filter (fun (x : CoreId) => x != c) j.running, resume := if r = 0 then j.resume else j.resume ++ [(c, BitVec.setWidth 20 r)] }
     let z : State := (u.setAcct p.ctx fun (a : Acct) =>
       { a with corecyc := satAdd a.corecyc (cyclesOf ((s.core c).endLt - (s.core c).startLt)), arrbusy := satAdd a.arrbusy (if (s.core c).arrBase ≤ u.reg Blk.tc c.inst Reg.TC_ARRBUSY then BitVec.toNat (u.reg Blk.tc c.inst Reg.TC_ARRBUSY - (s.core c).arrBase) else BitVec.toNat (u.reg Blk.tc c.inst Reg.TC_ARRBUSY)) }).setJob
       y
     (s.core c).ended = true ∧ s.isChecker c = false ∧ u.jobOf c = some j ∧ u.part j.part = some p ∧ p.kind j.kind = some k ∧
       z.deadlineDue p k y = false ∧ y.running = [] ∧ y.resume = []) ∧
    (let p : Part := part
     let k : Kind := kind
     let j : Job := launched
     let c : CoreId := c0
     let s : State := words (lsBase c0) [(0x1004, 0x80)] ((scheduled wheel p [j]).putCore c0 { coreRun with ended := true, run := false })
     let u : State := (s.putCore c ({ s.core c with ended := false, endFails := 0 })).setCadCore c 3
     let r : Word := u.load32 (lsBase c + p.yline.toNat + 4)
     let y : Job :=
       { j with pwfail := satAdd j.pwfail (BitVec.toNat (s.core c).endFails), running := List.filter (fun (x : CoreId) => x != c) j.running, resume := if r = 0 then j.resume else j.resume ++ [(c, BitVec.setWidth 20 r)] }
     let z : State := (u.setAcct p.ctx fun (a : Acct) =>
       { a with corecyc := satAdd a.corecyc (cyclesOf ((s.core c).endLt - (s.core c).startLt)), arrbusy := satAdd a.arrbusy (if (s.core c).arrBase ≤ u.reg Blk.tc c.inst Reg.TC_ARRBUSY then BitVec.toNat (u.reg Blk.tc c.inst Reg.TC_ARRBUSY - (s.core c).arrBase) else BitVec.toNat (u.reg Blk.tc c.inst Reg.TC_ARRBUSY)) }).setJob
       y
     (s.core c).ended = true ∧ s.isChecker c = false ∧ u.jobOf c = some j ∧ u.part j.part = some p ∧ p.kind j.kind = some k ∧
       z.deadlineDue p k y = false ∧ y.running = [] ∧ y.resume ≠ []) ∧
    (let pid : Fin 32 := 0
     let kn : Fin 32 := 0
     let p : Part := part
     let k : Kind := kind
     let j : Job := launched
     let s : State := scheduled { wheel with phase := 500 } p [j]
     s.part pid = some p ∧ p.kind kn = some k ∧ List.filter (fun (j : Job) => j.part == pid && j.kind == kn && j.launched && j.out ==
       JOut.empty) s.sched.jobs = [j] ∧ s.deadlineDue p k j = true) ∧
    (let c : CoreId := c0
     let cl : ClusterId := c0.cl
     let i : Fin 64 := 63
     let s : State := ((turning wheel (onCore { coreRun with jobFrame := [(0, 7)], entry := some 63 })).setReg .cad 0 (Reg.CAD_LTABi 63)
       0x80010064).setReg .cad 0 (Reg.CAD_LDLi 63) 100
     let n : Word := (s.core c).jobFrame.get (s.core c).jobWheel 0
     let dl : Nat := s.fld Blk.cad cl.inst (Reg.CAD_LDLi i.val) 16 0
     s.expertEntry cl i = true ∧ dl ≠ 131071 ∧ s.entryCores cl i = [c] ∧ (s.core c).run = true ∧ (s.core c).entry = some i ∧ (s.wheel
       (s.core c).jobWheel).passed (if dl < 65536 then n else n + 1) (dl % 65536) = true) ∧
    (let pid : Fin 32 := 0
     let p : Part := part
     let k : Kind := kind
     let c : CoreId := c0
     let s : State := scheduled { wheel with phase := 1010 } p []
     s.partOf c = some (pid, p) ∧ p.slotKind c = some k ∧ (s.wheel p.wheel).going = true ∧ k.slotLive (s.wheel p.wheel).frame = true ∧
       (s.wheel p.wheel).phase.toNat = k.accPhase.toNat + k.accLen ∧ s.accordIn c (s.wheel p.wheel).frame k.inSlot = false) ∧
    (let c : CoreId := c0
     let v : Word := 0x80000000
     let s : State := (turning wheel on).setReg .cad 0 Reg.CAD_IDLEACC 0x80000000
     s.reg Blk.cad c.cl.inst Reg.CAD_IDLEACC = v ∧ s.partOf c = none ∧ bitOf v 31 = true ∧ s.coreEnabled c = true ∧ (s.wheel (Fin.ofNat 4
       (bitsOf v 17 16))).going = true ∧ bitsOf v 15 0 < (s.wheel (Fin.ofNat 4 (bitsOf v 17 16))).phase.toNat ∧ (s.accordIn c (s.wheel
       (Fin.ofNat 4 (bitsOf v 17 16))).frame fun (ph : BitVec 16) => ph.toNat == bitsOf v 15 0) = false) ∧
    (let cl : ClusterId := c0.cl
     let v : Word := 0x80000064
     let s : State := (turning wheel on).setReg .cad 0 Reg.CAD_IDLEACC 0x80000064
     s.reg Blk.cad cl.inst Reg.CAD_IDLEACC = v ∧ bitOf v 31 = true ∧ s.up (domCluster cl) = true ∧ (s.wheel (Fin.ofNat 4 (bitsOf v 17
       16))).going = true ∧ (s.wheel (Fin.ofNat 4 (bitsOf v 17 16))).phase.toNat = bitsOf v 15 0) ∧
    (let pid : Fin 32 := 0
     let kn : Fin 32 := 0
     let p : Part := part
     let j : Job := { launched with stopping := true }
     let n : Word := 7
     let s : State := scheduled wheel p [j]
     s.findJob pid kn n = some j ∧ j.stopping = true ∧ (∀ (c : CoreId), c ∈ j.running → (s.core c).unitsIdle = true ∧ ∀ (ch : Fin 8),
       (Chan.get (s.core c) ch).st ≠ ChanSt.active)) ∧
    (let v : Word := 0x9F1FFFFF
     let pid : Fin 32 := Fin.ofNat 32 (bitsOf v 28 24)
     let cl : ClusterId := c0.cl
     let src : Src := firm
     let s : State := on
     let u : State := s.setReg Blk.cad cl.inst Reg.CAD_ABORTRES 0
     src.fw = true ∧ s.reaches src (cadBase cl + Reg.CAD_ABORT) = true ∧ bitOf v 31 = true ∧ u.part pid = none) ∧
    (let v : Word := 0x80000000
     let pid : Fin 32 := Fin.ofNat 32 (bitsOf v 28 24)
     let p : Part := part
     let cl : ClusterId := c0.cl
     let src : Src := firm
     let s : State := scheduled wheel p []
     let u : State := s.setReg Blk.cad cl.inst Reg.CAD_ABORTRES 0
     src.fw = true ∧ s.reaches src (cadBase cl + Reg.CAD_ABORT) = true ∧ bitOf v 31 = true ∧ u.part pid = some p ∧ p.lead = cl) ∧
    (let v : Word := 0x80000000
     let pid : Fin 32 := Fin.ofNat 32 (bitsOf v 28 24)
     let p : Part := part
     let cl : ClusterId := ⟨0, 11⟩
     let src : Src := firm
     let s : State := scheduled wheel p []
     let u : State := s.setReg Blk.cad cl.inst Reg.CAD_ABORTRES 0
     src.fw = true ∧ s.reaches src (cadBase cl + Reg.CAD_ABORT) = true ∧ bitOf v 31 = true ∧ u.part pid = some p ∧ p.lead ≠ cl) ∧
    (let cl : ClusterId := c0.cl
     let src : Src := { host with die := 0 }
     let v : Word := 0x80000000
     let s : State := on
     src.fw = false ∧ s.reaches src (cadBase cl + Reg.CAD_ABORT) = true ∧ bitOf v 31 = true) ∧
    (let pid : Fin 32 := 0
     let m : AbortMsg := { unit := ⟨0, 1⟩, part := 0, kind := 0, num := 7, answer := none }
     let s : State := { on with sched := { on.sched with aborts := [m] } }
     List.find? (fun (m : AbortMsg) => m.part == pid && m.answer.isNone) s.sched.aborts = some m) ∧
    (let cl : ClusterId := c0.cl
     let m : AbortMsg := { unit := ⟨0, 0⟩, part := 0, kind := 0, num := 7, answer := some (true, 1) }
     let s : State := { on with sched := { on.sched with aborts := [m] } }
     let r : Bool × Nat := (true, 1)
     List.find? (fun (m : AbortMsg) => m.unit == cl && m.answer.isSome) s.sched.aborts = some m ∧ m.answer = some r) ∧
    (let j : Job := job
     let s : State := { on with sched := { on.sched with mailbox := [j] } }
     let t : List Job := (s.sched.mailbox).tail
     s.sched.mailbox = j :: t ∧ s.fpRuns 2 = true) := by
  refine ⟨?_, ?_, ?_, ?_, ?_, ?_, ?_, ?_, ?_, ?_, ?_, ?_, ?_, ?_, ?_, ?_, ?_, ?_, ?_, ?_, ?_, ?_, ?_, ?_, ?_, ?_, ?_⟩
  all_goals decide +kernel

theorem witness_PartitionAndWatchdogCommandsComplete :
    (let p : Fin 64 := 0
     let e : BitVec 512 := ent 16 [(8, 0, 0xC00000700000), (16, 0, 0xC00000702000), (24, 0, 0xC00000701000)]
     let s : State := taken p e loadable
     let sigOk : Bool := true
     let hdr : List Byte := ((s.fwRead (p.val == 1) (eAddr e 8) 32).2).getD []
     let n : Nat := (descRecs hdr).getD 0
     let s1 : State := (s.fwRead (p.val == 1) (eAddr e 8) 32).1
     let dbs : List Byte := ((s1.fwRead (p.val == 1) (eAddr e 8) (32 + 8 * n)).2).getD []
     let s2 : State := (s1.fwRead (p.val == 1) (eAddr e 8) (32 + 8 * n)).1
     let ch : List Byte := ((s2.fwRead (p.val == 1) (eAddr e 24) 96).2).getD []
     let s3 : State := (s2.fwRead (p.val == 1) (eAddr e 24) 96).1
     let cbs : List Byte := ((s3.fwRead (p.val == 1) (eAddr e 24) (certLen ch)).2).getD []
     let s4 : State := (s3.fwRead (p.val == 1) (eAddr e 24) (certLen ch)).1
     let fh : List Byte := ((s4.fwRead (p.val == 1) (eAddr e 16) 64).2).getD []
     let s5 : State := (s4.fwRead (p.val == 1) (eAddr e 16) 64).1
     let img : List Byte := ((s5.fwRead (p.val == 1) (eAddr e 16) (bWord fh 8 * 64)).2).getD []
     let d : PDesc := (parseDesc dbs).getD ⟨0, 0, 0, false, 0, 0, 0, []⟩
     let c : Cert := (parseCert cbs n).getD ⟨[], [], 0, 0, 0, 0, 0, [], []⟩
     let s6 : State := (s5.fwRead (p.val == 1) (eAddr e 16) (bWord fh 8 * 64)).1
     let r : Nat := s6.admitCode d c sigOk (c.formula == sha256 img && c.placement == sha256 (List.drop 32 dbs) && formulaOk fh 1314539057
       c.toolver)
     s.accepts p 16 [1] [(8, 47, 0), (16, 47, 0), (24, 47, 0)] false e ∧ (s.fwRead (p.val == 1) (eAddr e 8) 32).2 = some hdr ∧ descRecs
       hdr = some n ∧ (s1.fwRead (p.val == 1) (eAddr e 8) (32 + 8 * n)).2 = some dbs ∧ (s2.fwRead (p.val == 1) (eAddr e 24) 96).2 = some
       ch ∧ (s3.fwRead (p.val == 1) (eAddr e 24) (certLen ch)).2 = some cbs ∧ (s4.fwRead (p.val == 1) (eAddr e 16) 64).2 = some fh ∧
       (s5.fwRead (p.val == 1) (eAddr e 16) (bWord fh 8 * 64)).2 = some img ∧ parseDesc dbs = some d ∧ parseCert cbs n = some c ∧
       s6.mayUse p d.ctx = true ∧ (d.ctx ≠ 0 → s6.ctxLive d.ctx = true) ∧ r = 0) ∧
    (let p : Fin 64 := 0
     let e : BitVec 512 := ent 16 [(8, 0, 0xC00000700000), (16, 0, 0xC00000702000), (24, 0, 0xC00000701000)]
     let s : State := taken p e loadable
     let sigOk : Bool := false
     let hdr : List Byte := ((s.fwRead (p.val == 1) (eAddr e 8) 32).2).getD []
     let n : Nat := (descRecs hdr).getD 0
     let s1 : State := (s.fwRead (p.val == 1) (eAddr e 8) 32).1
     let dbs : List Byte := ((s1.fwRead (p.val == 1) (eAddr e 8) (32 + 8 * n)).2).getD []
     let s2 : State := (s1.fwRead (p.val == 1) (eAddr e 8) (32 + 8 * n)).1
     let ch : List Byte := ((s2.fwRead (p.val == 1) (eAddr e 24) 96).2).getD []
     let s3 : State := (s2.fwRead (p.val == 1) (eAddr e 24) 96).1
     let cbs : List Byte := ((s3.fwRead (p.val == 1) (eAddr e 24) (certLen ch)).2).getD []
     let s4 : State := (s3.fwRead (p.val == 1) (eAddr e 24) (certLen ch)).1
     let fh : List Byte := ((s4.fwRead (p.val == 1) (eAddr e 16) 64).2).getD []
     let s5 : State := (s4.fwRead (p.val == 1) (eAddr e 16) 64).1
     let img : List Byte := ((s5.fwRead (p.val == 1) (eAddr e 16) (bWord fh 8 * 64)).2).getD []
     let d : PDesc := (parseDesc dbs).getD ⟨0, 0, 0, false, 0, 0, 0, []⟩
     let c : Cert := (parseCert cbs n).getD ⟨[], [], 0, 0, 0, 0, 0, [], []⟩
     let s6 : State := (s5.fwRead (p.val == 1) (eAddr e 16) (bWord fh 8 * 64)).1
     let r : Nat := s6.admitCode d c sigOk (c.formula == sha256 img && c.placement == sha256 (List.drop 32 dbs) && formulaOk fh 1314539057
       c.toolver)
     s.accepts p 16 [1] [(8, 47, 0), (16, 47, 0), (24, 47, 0)] false e ∧ (s.fwRead (p.val == 1) (eAddr e 8) 32).2 = some hdr ∧ descRecs
       hdr = some n ∧ (s1.fwRead (p.val == 1) (eAddr e 8) (32 + 8 * n)).2 = some dbs ∧ (s2.fwRead (p.val == 1) (eAddr e 24) 96).2 = some
       ch ∧ (s3.fwRead (p.val == 1) (eAddr e 24) (certLen ch)).2 = some cbs ∧ (s4.fwRead (p.val == 1) (eAddr e 16) 64).2 = some fh ∧
       (s5.fwRead (p.val == 1) (eAddr e 16) (bWord fh 8 * 64)).2 = some img ∧ parseDesc dbs = some d ∧ parseCert cbs n = some c ∧
       s6.mayUse p d.ctx = true ∧ (d.ctx ≠ 0 → s6.ctxLive d.ctx = true) ∧ r ≠ 0) ∧
    (let p : Fin 64 := 0
     let e : BitVec 512 := ent 17 []
     let x : Part := part
     let s : State := taken p e (scheduled wheel x [])
     let pid : Fin 32 := Fin.ofNat 32 (eBits e 8 4 0)
     s.accepts p 17 [1] [(8, 4, 0)] false e ∧ s.part pid = some x ∧ x.unloading = false ∧ x.unloadBy = none ∧ s.mayUse p x.ctx = true) ∧
    (let x : Part := { part with unloading := true, unloadBy := some 0 }
     let p : Fin 64 := (x.unloadBy).getD 0
     let s : State := scheduled wheel x []
     let pid : Fin 32 := 0
     s.part pid = some x ∧ x.unloading = true ∧ s.partQuiet pid = true ∧ s.fpRuns 1 = true ∧ x.unloadBy = some p) ∧
    (let x : Part := { part with unloading := true }
     let s : State := scheduled wheel x []
     let pid : Fin 32 := 0
     s.part pid = some x ∧ x.unloading = true ∧ s.partQuiet pid = true ∧ s.fpRuns 1 = true ∧ x.unloadBy = none) ∧
    (let x : Part := { part with unloading := true }
     let s : State := scheduled wheel x []
     let pid : Fin 32 := 0
     s.part pid = some x ∧ x.unloading = true ∧ s.partQuiet pid = true ∧ s.fpRuns 1 = true) ∧
    (let s : State := on
     let k : Fin 8 := 0
     s.fpRuns k = true) ∧
    (let s : State := { on with time := { on.time with lt := 250000 } }
     let k : Fin 8 := 7
     s.fpRuns k = true ∧ (s.fp k).lastKick.max (s.fp k).runAt + 250000 ≤ s.now) ∧
    (let s : State := on
     let k : Fin 8 := 7
     let src : Src := firm
     let v : Word := 1
     s.fpRuns k = true ∧ s.reaches src (vehRegs 19922944 + Reg.FW_FPCTRLk k.val) = true ∧ bitOf v 0 = true ∧ (k = 4 → src.world = true) ∧
       s.mayWrite src Blk.fw 0 = true) ∧
    (let s : State := on
     let k : Fin 8 := 0
     let src : Src := host
     s.reaches src (vehRegs 19922944 + Reg.FW_WDKICKk k.val) = true) ∧
    (let s : State := { on with fw := { on.fw with fps := [(7, ⟨.starting, 0, 0, 0, 0, []⟩)] }, time := { on.time with lt := 2000000 } }
     let k : Fin 8 := 7
     (s.fp k).st = FpSt.starting ∧ s.now ≤ (s.fp k).resetAt + 2000000 ∧ k ≠ 4) ∧
    (let s : State := { on with fw := { on.fw with fps := [(4, ⟨.starting, 0, 0, 0, 0, []⟩)] }, time := { on.time with lt := 2000000 } }
     let k : Fin 8 := 4
     let digest : List Word := []
     (s.fp k).st = FpSt.starting ∧ s.now ≤ (s.fp k).resetAt + 2000000 ∧ k = 4 ∧ List.flatMap (fun (w : Word) => leBytes 4 (BitVec.toNat
       w)) digest = s.fp4Digest) ∧
    (let s : State := { on with fw := { on.fw with fps := [(4, ⟨.starting, 0, 0, 0, 0, []⟩)] }, time := { on.time with lt := 2000000 } }
     let k : Fin 8 := 4
     let digest : List Word := [0]
     (s.fp k).st = FpSt.starting ∧ s.now ≤ (s.fp k).resetAt + 2000000 ∧ k = 4 ∧ List.flatMap (fun (w : Word) => leBytes 4 (BitVec.toNat
       w)) digest ≠ s.fp4Digest) ∧
    (let s : State := { on with fw := { on.fw with fps := [(7, ⟨.starting, 0, 0, 0, 0, []⟩)] }, time := { on.time with lt := 2000000 } }
     let k : Fin 8 := 7
     (s.fp k).st = FpSt.starting ∧ (s.fp k).resetAt + 2000000 ≤ s.now) ∧
    (let s : State := on
     s.fw.mcRunning = true) ∧
    (let s : State := { on with time := { on.time with lt := 1000000 } }
     s.fw.mcRunning = true ∧ s.fw.mcKick + 1000000 ≤ s.now) ∧
    (let s : State := on
     let src : Src := host
     s.reaches src (vehRegs 19922944 + Reg.FW_MCWDKICK) = true) := by
  refine ⟨?_, ?_, ?_, ?_, ?_, ?_, ?_, ?_, ?_, ?_, ?_, ?_, ?_, ?_, ?_, ?_, ?_⟩
  · unfold State.accepts; decide +kernel
  · unfold State.accepts; decide +kernel
  · unfold State.accepts; decide +kernel
  · decide +kernel
  · decide +kernel
  · decide +kernel
  · decide +kernel
  · decide +kernel
  · decide +kernel
  · decide +kernel
  · decide +kernel
  · decide +kernel
  · decide +kernel
  · decide +kernel
  · decide +kernel
  · decide +kernel
  · decide +kernel

theorem witness_CpuCommandsComplete :
    (let h : Fin 16 := 0
     let s : State := cpuOn
     s.hartRuns h = true) ∧
    (let h : Fin 16 := 0
     let s : State := { cpuOn with fixed := { cpuOn.fixed with cpuLock := 1 } }
     s.hartRuns h = true ∧ s.lockPair (hartPair h) = true) ∧
    (let h : Fin 16 := 0
     let s : State := cpuOn
     s.hartRuns h = true ∧ s.lockPair (hartPair h) = false) ∧
    (let h : Fin 16 := 0
     let s : State := cpuOn
     s.hartRuns h = true ∧ h.val % 2 = 0) ∧
    (let h : Fin 16 := 0
     let s : State := cpuOn
     s.hartRuns h = true ∧ s.hartTx h false = 0) ∧
    (let h : Fin 16 := 0
     let a : Addr := 8
     let size : Nat := 8
     let virt : Bool := false
     let vmid : BitVec 12 := 0
     let s : State := cpuOn
     s.hartRuns h = true ∧ addrDie (BitVec.toNat a) ≠ 6 ∧ ioOk (BitVec.toNat a) size = true ∧ s.ctxBit (s.hartSrc h virt vmid).ctx = true
       ∧ s.hartTx h true < 16 ∧ (s.issueRead (s.hartSrc h virt vmid) (BitVec.toNat a) size none).isSome = true) ∧
    (let h : Fin 16 := 0
     let a : Addr := 7
     let data : List Byte := [1]
     let virt : Bool := false
     let vmid : BitVec 12 := 0
     let s : State := cpuOn
     s.hartRuns h = true ∧ addrDie (BitVec.toNat a) ≠ 6 ∧ ioOk (BitVec.toNat a) data.length = true ∧ s.ctxBit (s.hartSrc h virt vmid).ctx
       = true ∧ s.hartTx h false < 64 ∧ (s.issueWrite (s.hartSrc h virt vmid) (BitVec.toNat a) data 8).isSome = true) ∧
    (let h : Fin 16 := 0
     let a : Addr := 0
     let size : Nat := 3
     let s : State := cpuOn
     s.hartRuns h = true ∧ addrDie (BitVec.toNat a) ≠ 6 ∧ ioOk (BitVec.toNat a) size = false) ∧
    (let h : Fin 16 := 0
     let a : Addr := 0
     let data : List Byte := []
     let s : State := cpuOn
     s.hartRuns h = true ∧ addrDie (BitVec.toNat a) ≠ 6 ∧ ioOk (BitVec.toNat a) data.length = false) ∧
    (let p : Fin 8 := 0
     let s : State :=
       { (cpus { CpuPair.off with st := .running } on) with fixed := { on.fixed with cpuTrusted := 1, cpuWd := [(0, 1)] }, time := { on.time with lt := 1000000 } }
     s.trustedPair p = true ∧ s.fixed.cpuWd.get p 0 ≠ 0 ∧ (s.cpuPair p).st = PairSt.running ∧ (s.cpuPair p).lastKick + s.fixed.cpuWd.get p
       0 * 1000000 ≤ s.now) ∧
    (let p : Fin 8 := 0
     let s : State := (let s := cpus { CpuPair.off with st := .halted, reloading := true } on;
       { s with fixed := { s.fixed with cpuImage := [(0, (0xC00000700000, sha256 [1, 2]))] } })
     let image : List Byte := [1, 2]
     (s.cpuPair p).st = PairSt.halted ∧ (s.cpuPair p).reloading = true ∧ sha256 image = (s.fixed.cpuImage.get p (0, [])).snd) ∧
    (let p : Fin 8 := 0
     let s : State := cpus { CpuPair.off with st := .halted, reloading := true } on
     let image : List Byte := []
     (s.cpuPair p).st = PairSt.halted ∧ (s.cpuPair p).reloading = true ∧ sha256 image ≠ (s.fixed.cpuImage.get p (0, [])).snd) ∧
    (let p : Fin 8 := 0
     let src : Src := { firm with world := false }
     let cmd : Word := 2
     let s : State := cpuOn
     s.reaches src (vehRegs 26214400 + Reg.CPU_PAIRCMDp p.val) = true ∧ src.world = s.trustedOwns (cpuDomain p) ∧ s.mayWrite src Blk.cpu 0
       = true ∧ bitOf cmd 1 = true ∧ bitOf cmd 0 = false ∧ (s.cpuPair p).st = PairSt.running) ∧
    (let p : Fin 8 := 0
     let src : Src := { firm with world := false }
     let cmd : Word := 1
     let s : State := cpus { CpuPair.off with st := .stopped } on
     s.reaches src (vehRegs 26214400 + Reg.CPU_PAIRCMDp p.val) = true ∧ src.world = s.trustedOwns (cpuDomain p) ∧ s.mayWrite src Blk.cpu 0
       = true ∧ bitOf cmd 0 = true ∧ bitOf cmd 1 = false ∧ (s.cpuPair p).st = PairSt.stopped) ∧
    (let p : Fin 8 := 0
     let s : State := cpus { CpuPair.off with st := .stopping, parked := 3 } on
     (s.cpuPair p).st = PairSt.stopping ∧ (s.cpuPair p).parked = 3 ∧ (∀ (g : Fin 16), hartPair g = p → s.hartTx g true = 0 ∧ s.hartTx g
       false = 0)) ∧
    (let p : Fin 8 := 0
     let s : State := { cpuOn with fixed := { cpuOn.fixed with cpuLock := 1 } }
     s.lockPair p = true ∧ (s.cpuPair p).st = PairSt.running) ∧
    (let s : State := on.setPkg pkRESET
     s.pkg = pkRESET) ∧
    (let p : Fin 8 := 0
     let s : State := cpuOn
     s.pkg ≠ pkRESET ∧ s.trustedPair p = false ∧ (s.cpuPair p).st = PairSt.running) ∧
    (let s : State := caching [{ cline with addr := 0xC00000800000 }]
     let a : Nat := 0xC00000700000
     let n : Nat := 64
     let y : CLine := { cline with addr := 0xC00000800000 }
     y ∈ (s.invalidate a n).cpu.lines) ∧
    (let x : CLine := cline
     let b : List Byte := zeros 64
     x.err = some EccErr.double ∧ x.dirty = some b) ∧
    (let x : CLine := cline
     let s : State := caching [x, { cline with addr := 0xC00000800000 }]
     let pair : Nat := 0
     let b : List Byte := zeros 64
     let y : CLine := { cline with addr := 0xC00000800000 }
     x.err = some EccErr.double ∧ x.dirty = some b ∧ y ∈ (s.lineError pair x).fst.cpu.lines) ∧
    (let s : State := on.setTrig 0 { Trig.reset with irq := true }
     let k : Bool × Fin 1024 := (false, 1)
     let x : AplicSrc := wire
     s.aplicWorld k.snd.val = k.fst ∧ s.aplicLevel k.snd.val = true ∧ x.seen = false ∧ x.enable = true) ∧
    (let s : State := on.setTrig 0 { Trig.reset with irq := true }
     let k : Bool × Fin 1024 := (false, 1)
     let x : AplicSrc := { wire with enable := false }
     s.aplicWorld k.snd.val = k.fst ∧ s.aplicLevel k.snd.val = true ∧ x.seen = false ∧ x.enable = false) ∧
    (let s : State := on
     let k : Bool × Fin 1024 := (false, 1)
     s.aplicWorld k.snd.val = k.fst ∧ s.aplicLevel k.snd.val = false) := by
  refine ⟨?_, ?_, ?_, ?_, ?_, ?_, ?_, ?_, ?_, ?_, ?_, ?_, ?_, ?_, ?_, ?_, ?_, ?_, ?_, ?_, ?_, ?_, ?_, ?_⟩
  all_goals decide +kernel

theorem witness_BringUpCommandsComplete :
    (let s : State := State.reset
     s.pkg = pkRESET ∧ s.pwr.cut = false) ∧
    (let s : State := (on.setPkg pkBOOTING).setFld .pwr 0 Reg.PWR_STAT 27 24 1
     let k : Nat := s.fld Blk.pwr 0 Reg.PWR_STAT 27 24
     s.pkg = pkBOOTING ∧ k ≤ 8 ∧ k < 2) ∧
    (let s : State := (on.setPkg pkBOOTING).setFld .pwr 0 Reg.PWR_STAT 27 24 2
     let k : Nat := s.fld Blk.pwr 0 Reg.PWR_STAT 27 24
     s.pkg = pkBOOTING ∧ k ≤ 8 ∧ k = 2) ∧
    (let s : State := (on.setPkg pkBOOTING).setFld .pwr 0 Reg.PWR_STAT 27 24 8
     let k : Nat := s.fld Blk.pwr 0 Reg.PWR_STAT 27 24
     s.pkg = pkBOOTING ∧ k ≤ 8 ∧ 2 < k) ∧
    (let s : State := (on.setPkg pkBOOTING).setFld .pwr 0 Reg.PWR_STAT 27 24 8
     let k : Nat := s.fld Blk.pwr 0 Reg.PWR_STAT 27 24
     s.pkg = pkBOOTING ∧ k ≤ 8) ∧
    (let r : BootStep := ⟨1, none⟩
     let s : State := on
     r.fail = none ∧ s.pwr.lateCool = none) ∧
    (let s : State := (on.setPkg pkPARTIAL).setFld .pwr 0 Reg.PWR_STAT 2 2 0
     let u : State := s.setFld Blk.pwr 0 Reg.PWR_STAT 2 2 1
     s.pkg ≠ pkRESET ∧ s.cool = false ∧ u.pkg = pkPARTIAL) ∧
    (let s : State := ((on.setPkg pkBOOTING).setFld .pwr 0 Reg.PWR_STAT 27 24 3).setFld .pwr 0 Reg.PWR_STAT 2 2 0
     let u : State := s.setFld Blk.pwr 0 Reg.PWR_STAT 2 2 1
     s.pkg ≠ pkRESET ∧ s.cool = false ∧ u.pkg = pkBOOTING ∧ 2 < u.fld Blk.pwr 0 Reg.PWR_STAT 27 24) ∧
    (let s : State := on.setFld .pwr 0 Reg.PWR_STAT 2 2 0
     let u : State := s.setFld Blk.pwr 0 Reg.PWR_STAT 2 2 1
     s.pkg ≠ pkRESET ∧ s.cool = false ∧ u.pkg ≠ pkPARTIAL ∧ (¬(u.pkg = pkBOOTING ∧ 2 < u.fld Blk.pwr 0 Reg.PWR_STAT 27 24))) := by
  refine ⟨?_, ?_, ?_, ?_, ?_, ?_, ?_, ?_, ?_⟩
  all_goals decide +kernel

end Sys2Proof.Tests
end

