-- ==== Sys2Proof/Tests/WitnessPackage.lean ====
section
/-! SUPPORT. States and operands that meet the hypotheses of the statements about power, safety, faults, security, management and the package, clause by clause. -/

namespace Sys2Proof.Tests

open Sys2Proof.Machine

set_option Elab.async false

theorem witness_PowerCommandsComplete :
    (let ns : Nat := 1000
     let may : Bool := false
     (1000 ≤ ns ∨ 200 ≤ ns ∧ may = true)) ∧
    (let ns : Nat := 199
     ns < 200) ∧
    (let ns : Nat := 2000
     2000 ≤ ns) ∧
    (let s : State := on
     let u : State :=
       { s.setFld Blk.pwr 0 Reg.PWR_STAT 2 2 0 with pwr := { (s.setFld Blk.pwr 0 Reg.PWR_STAT 2 2 0).pwr with lateCool := none } }
     s.cool = true ∧ u.pkg = pkREADY) ∧
    (let s : State := on.setPkg pkPARTIAL
     let u : State :=
       { s.setFld Blk.pwr 0 Reg.PWR_STAT 2 2 0 with pwr := { (s.setFld Blk.pwr 0 Reg.PWR_STAT 2 2 0).pwr with lateCool := none } }
     s.cool = true ∧ u.pkg ≠ pkREADY) ∧
    (let t : Int := 126
     let s : State := on
     s.pkg ≠ pkRESET ∧ s.pwr.cut = false ∧ 125 < t) ∧
    (let dv : Fin 8 := 7
     let t : Int := 125
     let s : State := on
     let u : State := (s.setReg Blk.pwr 0 Reg.PWR_THERM (BitVec.ofNat 32 (dv.val * 2 ^ 12 + wrapN 9 t))).thermDie dv t
     s.pkg ≠ pkRESET ∧ s.pwr.cut = false ∧ t ≤ 125 ∧ (u.cool = true ∨ u.pkg ≠ pkPARTIAL ∨ u.budgetSum ≤ 160 ∨ dv.val < 6 ∨ t < 100)) ∧
    (let dv : Fin 8 := 7
     let t : Int := 100
     let s : State := (on.setPkg pkPARTIAL).setFld .pwr 0 Reg.PWR_STAT 2 2 0
     let u : State := (s.setReg Blk.pwr 0 Reg.PWR_THERM (BitVec.ofNat 32 (dv.val * 2 ^ 12 + wrapN 9 t))).thermDie dv t
     s.pkg ≠ pkRESET ∧ s.pwr.cut = false ∧ t ≤ 125 ∧ u.cool = false ∧ u.pkg = pkPARTIAL ∧ 160 < u.budgetSum ∧ 6 ≤ dv.val ∧ 100 ≤ t) ∧
    (let n : Nat := 0
     let s : State := on
     s.pkg ≠ pkRESET ∧ s.pwr.cut = false ∧ averages (List.take 100 (n :: s.pwr.samples)) = []) ∧
    (let n : Nat := 150
     let a : Nat := 150
     let s : State := { on with pwr := { on.pwr with samples := List.replicate 99 150 } }
     let l : List Nat := (averages (List.take 100 (n :: s.pwr.samples))).tail
     s.pkg ≠ pkRESET ∧ s.pwr.cut = false ∧ averages (List.take 100 (n :: s.pwr.samples)) = a :: l) ∧
    (let d : Fin 116 := 115
     let x : PwrReq × Nat := (⟨115, true, .expert⟩, 0)
     let s : State := { on with pwr := { on.pwr with switching := [x] } }
     s.switchOf d.val = some x ∧ (x.fst.on = true ∨ (s.fab.tx.any fun (t : Tx) => !t.isRead && !t.src.fw && agentDomain t.src.die
       t.src.agent == d.val) = false)) ∧
    (let d : Fin 116 := 115
     let x : PwrReq × Nat := (⟨115, false, .expert⟩, 0)
     let s : State := timed 50000 { on with pwr := { on.pwr with switching := [x] } }
     s.switchOf d.val = some x ∧ x.fst.on = false ∧ x.snd + 50000 ≤ s.now) ∧
    (let p : Fin 64 := 0
     let e : BitVec 512 := ent 40 [(8, 0, 115), (8, 8, 1)]
     let s : State := taken p e on
     s.accepts p 40 [] [(8, 6, 0), (8, 8, 8)] true e ∧ s.reqPending (PwrBy.ring p) = false ∧ eBits e 8 6 0 ≤ 115 ∧ s.trustedOwns (eBits e
       8 6 0) = decide (p = 1)) ∧
    (let src : Src := { firm with world := false }
     let v : Word := 0x80000073
     let s : State := on
     s.reaches src (vehRegs 22020096 + Reg.PWR_REQ) = true ∧ bitOf v 31 = true ∧ s.mayWrite src Blk.pwr 0 = true ∧ s.reqPending
       PwrBy.expert = false ∧ bitsOf v 6 0 ≤ 115 ∧ s.trustedOwns (bitsOf v 6 0) = src.world) ∧
    (let e : BitVec 512 := ent 41 [(8, 0, 560)]
     let n : Nat := eBits e 8 9 0
     let p : Fin 64 := 0
     let s : State := taken p e ({ on with on := 0 })
     s.accepts p 41 [] [(8, 9, 0)] true e ∧ 120 ≤ n ∧ n ≤ 560 ∧ s.budgetSum ≤ n * 4) ∧
    (let e : BitVec 512 := ent 41 [(8, 0, 120)]
     let n : Nat := eBits e 8 9 0
     let p : Fin 64 := 0
     let s : State := taken p e on
     s.accepts p 41 [] [(8, 9, 0)] true e ∧ 120 ≤ n ∧ n ≤ 560 ∧ n * 4 < s.budgetSum) ∧
    (let v : Word := 560
     let n : Nat := bitsOf v 9 0
     let src : Src := firm
     let s : State := { on with on := BitVec.ofNat 116 (2 ^ 85 + 2 ^ 84) }
     s.reaches src (vehRegs 22020096 + Reg.PWR_CAP) = true ∧ s.mayWrite src Blk.pwr 0 = true ∧ 120 ≤ n ∧ n ≤ 560 ∧ s.budgetSum ≤ n * 4) ∧
    (let p : Fin 64 := 0
     let e : BitVec 512 := ent 42 []
     let s : State := taken p e on
     s.accepts p 42 [] [(16, 47, 0)] true e) ∧
    (let p : Fin 64 := 0
     let e : BitVec 512 := ent 43 []
     let s : State := taken p e on
     s.accepts p 43 [] [] true e) ∧
    (let s : State := { on with pwr := { on.pwr with shutTo := some pkOFF } }
     s.pending = [] ∧ s.pwr.shutTo = some pkOFF) ∧
    (let p : Fin 64 := 0
     let e : BitVec 512 := ent 44 []
     let s : State := taken p e on
     s.accepts p 44 [] [(16, 47, 0)] true e) := by
  refine ⟨?_, ?_, ?_, ?_, ?_, ?_, ?_, ?_, ?_, ?_, ?_, ?_, ?_, ?_, ?_, ?_, ?_, ?_, ?_, ?_, ?_⟩
  · decide +kernel
  · decide +kernel
  · decide +kernel
  · decide +kernel
  · decide +kernel
  · decide +kernel
  · decide +kernel
  · decide +kernel
  · decide +kernel
  · decide +kernel
  · decide +kernel
  · decide +kernel
  · unfold State.accepts; decide +kernel
  · decide +kernel
  · unfold State.accepts; decide +kernel
  · unfold State.accepts; decide +kernel
  · decide +kernel
  · unfold State.accepts; decide +kernel
  · unfold State.accepts; decide +kernel
  · decide +kernel
  · unfold State.accepts; decide +kernel

theorem witness_SafetyCommandsComplete :
    (let p : Fin 64 := 0
     let e : BitVec 512 := ent 48 [(8, 0, 15), (8, 8, 3), (16, 0, 0xC00000702000), (24, 0, 0xC00000701000)]
     let m : Fin 16 := 15
     let sl : Fin 4 := Fin.ofNat 4 (eBits e 8 9 8)
     let wh : Fin 4 := 0
     let s : State := taken p e monitorFiles
     let t0 : State := (s.fwRead (p.val == 1) (eAddr e 24) 96).1
     let ch : List Byte := ((s.fwRead (p.val == 1) (eAddr e 24) 96).2).getD []
     let bs : List Byte := ((t0.fwRead (p.val == 1) (eAddr e 24) (certLen ch)).2).getD []
     let cert : Cert := (parseCert bs 1).getD ⟨[], [], 0, 0, 0, 0, 0, [], []⟩
     let k : Kind := (monCert cert).getD kind
     let u : State := (t0.fwRead (p.val == 1) (eAddr e 24) (certLen ch)).1
     let v : State := (u.fwRead (p.val == 1) (eAddr e 16) 64).1
     let fh : List Byte := ((u.fwRead (p.val == 1) (eAddr e 16) 64).2).getD []
     let w : State := (v.readImage (p.val == 1) (eAddr e 16) fh).1
     let img : List Byte := ((v.readImage (p.val == 1) (eAddr e 16) fh).2).getD []
     s.accepts p 48 [] [(8, 3, 0), (8, 9, 8), (16, 47, 0), (24, 47, 0)] true e ∧ m = Fin.ofNat 16 (eBits e 8 3 0) ∧ (s.fwRead (p.val == 1)
       (eAddr e 24) 96).2 = some ch ∧ (t0.fwRead (p.val == 1) (eAddr e 24) (certLen ch)).2 = some bs ∧ (u.fwRead (p.val == 1) (eAddr e 16)
       64).2 = some fh ∧ (v.readImage (p.val == 1) (eAddr e 16) fh).2 = some img ∧ parseCert bs 1 = some cert ∧ monCert cert = some k ∧
       w.up 100 = true ∧ monWheel sl cert.placement = some wh ∧ cert.formula = sha256 img ∧ formulaOk fh 1314540849 cert.toolver = true ∧
       w.monCode m sl wh cert k true true = 0) ∧
    (let p : Fin 64 := 0
     let e : BitVec 512 := ent 49 [(8, 0, 15)]
     let m : Fin 16 := 15
     let x : Monitor := monitor
     let s : State := taken p e (checked [(15, monitor)] [] on)
     s.accepts p 49 [] [(8, 3, 0)] true e ∧ m = Fin.ofNat 16 (eBits e 8 3 0) ∧ s.mon m = some x ∧ s.namedBy m = []) ∧
    (let m : Fin 16 := 15
     let i : Fin 16 := 15
     let x : Monitor := { monitor with deadline := 101 }
     let y : Pairing := pairing
     let s : State := turning wheel (checked [(15, { monitor with deadline := 101 })] [(15, pairing)] on)
     let bs : List Byte := ((s.unitRead (chkSrc 7) y.marg 256).2).getD []
     let t : List (Fin 16 × Pairing) := []
     s.mon m = some x ∧ s.namedBy m = (i, y) :: t ∧ s.up 100 = true ∧ (s.wheel x.wheel).going = true ∧ (s.wheel x.wheel).begun = true ∧
       x.running = none ∧ (x.final.all fun r => decide (r.fst ≠ (s.wheel x.wheel).frame)) = true ∧ x.launch ≤ (s.wheel
       x.wheel).phase.toNat ∧ (s.wheel x.wheel).phase.toNat < x.deadline ∧ (List.any s.chk.mons fun (e : Fin 16 × Monitor) => e.snd.slice
       == x.slice && e.snd.running.isSome) = false ∧ (s.unitRead (chkSrc 7) y.marg 256).2 = some bs) ∧
    (let m : Fin 16 := 15
     let i : Fin 16 := 15
     let x : Monitor := { monitor with launch := 100 }
     let y : Pairing := { pairing with marg := 0xC00F00000000 }
     let s : State := turning wheel (checked [(15, { monitor with launch := 100 })] [(15, { pairing with marg := 0xC00F00000000 })] on)
     let t : List (Fin 16 × Pairing) := []
     s.mon m = some x ∧ s.namedBy m = (i, y) :: t ∧ s.up 100 = true ∧ (s.wheel x.wheel).going = true ∧ (s.wheel x.wheel).begun = true ∧
       x.running = none ∧ (x.final.all fun r => decide (r.fst ≠ (s.wheel x.wheel).frame)) = true ∧ x.launch ≤ (s.wheel
       x.wheel).phase.toNat ∧ (s.wheel x.wheel).phase.toNat < x.deadline ∧ (List.any s.chk.mons fun (e : Fin 16 × Monitor) => e.snd.slice
       == x.slice && e.snd.running.isSome) = false ∧ (s.unitRead (chkSrc 7) y.marg 256).2 = none) ∧
    (let m : Fin 16 := 15
     let x : Monitor := { monitor with running := some 7 }
     let s : State := checked [(15, { monitor with running := some 7 })] [] on
     let f : Word := 7
     s.mon m = some x ∧ x.running = some f) ∧
    (let m : Fin 16 := 15
     let i : Fin 16 := 15
     let x : Monitor := { monitor with running := some 7 }
     let s : State := checked [(15, { monitor with running := some 7 })] [(15, pairing)] on
     let f : Word := 7
     s.mon m = some x ∧ x.running = some f ∧ i = (Option.map (fun (x : Fin 16 × Pairing) => x.fst) (s.namedBy m).head?).getD 0) ∧
    (let m : Fin 16 := 15
     let x : Monitor := { monitor with running := some 7, deadline := 100 }
     let s : State := turning wheel (checked [(15, { monitor with running := some 7, deadline := 100 })] [] on)
     let f : Word := 7
     s.mon m = some x ∧ x.running = some f ∧ (s.wheel x.wheel).passed f x.deadline = true) ∧
    (let p : Fin 64 := 0
     let e : BitVec 512 := ent 50 [(8, 0, 0xC00000700000)]
     let i : Fin 16 := 15
     let y : Pairing := { pairing with cphase := 0x14000, plist := (0, 8, 0), mlist := (0, 1, 0) }
     let pt : Part := part
     let s : State := taken p e (pairingFiles (checked [(15, monitor)] [] (scheduled wheel part [])))
     let bs : List Byte := ((s.fwRead (p.val == 1) (eAddr e 8) 64).2).getD []
     let u : State := (s.fwRead (p.val == 1) (eAddr e 8) 64).1
     let pb : List Byte := ((u.fwRead (p.val == 1) y.prog 320).2).getD []
     let v : State := (u.fwRead (p.val == 1) y.prog 320).1
     let g : Prog := (parseProg pb).getD ⟨0, 0, 0, 0, 0, 0, 0, 0, 0, 0, 0, 0, 0, 0, 0, 0, []⟩
     let q : Kind := kind
     let r : Monitor := monitor
     s.accepts p 50 [] [(8, 47, 0)] true e ∧ (s.fwRead (p.val == 1) (eAddr e 8) 64).2 = some bs ∧ parsePairing bs = some (i, y) ∧
       (u.fwRead (p.val == 1) y.prog 320).2 = some pb ∧ v.part y.part = some pt ∧ v.mayUse p pt.ctx = true ∧ v.pairingOk i y = some (pt,
       q, r) ∧ parseProg pb = some g) ∧
    (let p : Fin 64 := 0
     let e : BitVec 512 := ent 51 [(8, 0, 15)]
     let i : Fin 16 := 15
     let y : Pairing := pairing
     let s : State := taken p e (checked [] [(15, pairing)] on)
     s.accepts p 51 [] [(8, 3, 0)] true e ∧ i = Fin.ofNat 16 (eBits e 8 3 0) ∧ s.pairing i = some y ∧ y.active = true ∧ y.by_ = none ∧
       y.pend = []) ∧
    (let p : Fin 64 := 0
     let e : BitVec 512 := ent 51 [(8, 0, 15)]
     let i : Fin 16 := 15
     let y : Pairing := { pairing with pend := [verdict] }
     let s : State := taken p e (checked [] [(15, { pairing with pend := [verdict] })] on)
     s.accepts p 51 [] [(8, 3, 0)] true e ∧ i = Fin.ofNat 16 (eBits e 8 3 0) ∧ s.pairing i = some y ∧ y.active = true ∧ y.by_ = none ∧
       y.pend ≠ []) ∧
    (let i : Fin 16 := 15
     let y : Pairing := { pairing with firstFrame := 7, cphase := 100 }
     let pt : Part := part
     let s : State := checked [(15, monitor)] [(15, { pairing with firstFrame := 7, cphase := 100 })] (scheduled wheel part [])
     s.pairing i = some y ∧ s.part y.part = some pt ∧ y.active = true ∧ s.up 100 = true ∧ s.compareDue y pt y.next = true) ∧
    (let i : Fin 16 := 15
     let y : Pairing := { pairing with pend := [verdict] }
     let s : State := checked [] [(15, { pairing with pend := [verdict] })] on
     let vd : Verdict := verdict
     let t : List Verdict := (y.pend).tail
     s.pairing i = some y ∧ y.pend = vd :: t ∧ y.active = true ∧ s.fpRuns 3 = true) ∧
    (let c : CoreId := c0
     let s : State := { on with chk := { on.chk with due := [(c0, 1)] } }
     let r : Nat := 1
     s.chk.due.get? c = some r ∧ s.fpRuns 3 = true) ∧
    (let s : State := timed 1000000000 on
     s.fpRuns 3 = true ∧ s.up 100 = true ∧ s.chk.selfTest + 1000000000 ≤ s.now) ∧
    (let p : Fin 64 := 0
     let e : BitVec 512 := ent 52 [(8, 0, 115)]
     let s : State := taken p e on
     let d : Nat := eBits e 8 6 0
     s.accepts p 52 [] [(8, 6, 0)] true e ∧ d < 116 ∧ [84, 85, 89, 90].contains d = false ∧ s.pkg = pkREADY ∧ s.up d = true ∧
       s.retestInUse d = false) ∧
    (let p : Fin 64 := 0
     let e : BitVec 512 := ent 52 [(8, 0, 115)]
     let s : State := taken p e on
     let d : Nat := eBits e 8 6 0
     s.accepts p 52 [] [(8, 6, 0)] true e ∧ d < 116 ∧ [84, 85, 89, 90].contains d = false ∧ s.pkg = pkREADY ∧ s.up d = true ∧
       s.retestInUse d = false) ∧
    (let p : Fin 64 := 0
     let e : BitVec 512 := ent 53 []
     let s : State := taken p e on
     s.accepts p 53 [] [(16, 47, 0)] true e) ∧
    (let y : Pairing := { pairing with lasting := true }
     y.lasting = true) ∧
    (let s : State := on
     let y : Pairing := pairing
     let f : Word := 0
     y.lasting = false ∧ s.primaryOut y f ≠ JOut.done) ∧
    (let s : State := checked [] [] (scheduled wheel part [{ job with out := .done }])
     let y : Pairing := pairing
     let f : Word := 7
     y.lasting = false ∧ s.primaryOut y f = JOut.done ∧ s.mon y.mon = none) := by
  refine ⟨?_, ?_, ?_, ?_, ?_, ?_, ?_, ?_, ?_, ?_, ?_, ?_, ?_, ?_, ?_, ?_, ?_, ?_, ?_, ?_⟩
  · unfold State.accepts; decide +kernel
  · unfold State.accepts; decide +kernel
  · decide +kernel
  · decide +kernel
  · decide +kernel
  · decide +kernel
  · decide +kernel
  · unfold State.accepts; decide +kernel
  · unfold State.accepts; decide +kernel
  · unfold State.accepts; decide +kernel
  · decide +kernel
  · decide +kernel
  · decide +kernel
  · decide +kernel
  · unfold State.accepts; decide +kernel
  · unfold State.accepts; decide +kernel
  · unfold State.accepts; decide +kernel
  · decide +kernel
  · decide +kernel
  · decide +kernel

theorem witness_FaultCommandsComplete :
    (let b : Blk := .pwr
     let i : Nat := 0
     let s : State := (on.setReg .pwr 0 0x1C 2).raise .pwr 0 1 0 0
     s.fpRuns 7 = true ∧ s.inten b i &&& s.errBits b i ≠ 0) ∧
    (let b : Blk := .pwr
     let s : State := faulty (fun f => { f with ignWr := [(.pwr, 0)] })
     let j : Nat := 0
     let t : List (Blk × Nat) := []
     s.fpRuns 7 = true ∧ s.flt.ignWr = (b, j) :: t) ∧
    (let s : State := faulty (fun f => { f with conds := [{ cond := 1, blk := .pwr, inst := 0, addr := 0, ctx := 0 }] })
     let k : FwCond := { cond := 1, blk := .pwr, inst := 0, addr := 0, ctx := 0 }
     let t : List FwCond := (s.flt.conds).tail
     s.fpRuns 7 = true ∧ s.flt.conds = k :: t) ∧
    (let s : State := on
     s.fpRuns 7 = true) ∧
    (let s : State := faulty (fun f => { f with events := [event] })
     let a : Ev := event
     let t : List Ev := (s.flt.events).tail
     s.flt.events = a :: t ∧ s.fpRuns 3 = true) ∧
    (let s : State := timed 10000 (faulty (fun f => { f with errPulse := some 0 }))
     let x : BitVec 64 := 0
     s.flt.errPulse = some x ∧ x.toNat + 10000 ≤ s.now) ∧
    (let s : State := timed 10000 (faulty (fun f => { f with warnPulse := some 0 }))
     let x : BitVec 64 := 0
     s.flt.warnPulse = some x ∧ x.toNat + 10000 ≤ s.now) ∧
    (let src : Src := firm
     let s : State := on
     src.fw = true ∧ s.reaches src (vehRegs 24117248 + Reg.FLT_PULSE) = true) ∧
    (let src : Src := host
     let v : Word := 3
     let s : State := on
     src.fw = false ∧ s.reaches src (vehRegs 24117248 + Reg.FLT_PULSE) = true ∧ v &&& 3 ≠ 0) ∧
    (let c : CoreId := c0
     let s : State := timed 100000 (faulty (fun f => { f with locks := [(64, c0, 0)] }))
     let l : Nat := 64
     let a : Nat := 64
     let t : Nat := 0
     s.fw.mcRunning = true ∧ List.find? (fun (l : Nat × CoreId × Nat) => l.fst == a) s.flt.locks = some (l, c, t) ∧ t + 100000 ≤ s.now ∧
       (s.sched.jobs.any fun (j : Job) => j.stopping && j.running.contains c) = false) ∧
    (let c : CoreId := c0
     let ch : Fin 8 := 0
     let s : State := timed 100000 { chan { Chan.idle with st := .active } with flt := { on.flt with chanLease := [((c0, 0), (0, 0))] } }
     let l : Nat := 0
     let t : Nat := 0
     s.fw.mcRunning = true ∧ s.flt.chanLease.get? (c, ch) = some (l, t) ∧ t + 100000 ≤ s.now ∧ (Chan.get (s.core c) ch).st = ChanSt.active
       ∧ (s.fab.tx.any fun (x : Tx) => x.isRead && x.src.core == some c && x.chan.val == ch.val) = false ∧ (s.sched.jobs.any fun (j : Job)
       => j.stopping && j.running.contains c) = false) ∧
    (let d : Fin 8 := 7
     let q : Fin 7 := 6
     let cls : Fin 8 := 7
     let s : State := timed 100000 { on with fab := { on.fab with credits := [⟨7, 6, 7, false, 0⟩] } }
     let y : Credit := ⟨7, 6, 7, false, 0⟩
     s.fw.mcRunning = true ∧ List.find? (fun (x : Credit) => x.die == d && x.port == q && x.cls == cls && decide (x.since + 100000 ≤
       s.now)) s.fab.credits = some y) ∧
    (let p : Fin 64 := 0
     let e : BitVec 512 := ent 56 [(12, 0, 64)]
     let s : State := taken p e on
     let n : Nat := eBits e 12 6 0
     s.accepts p 56 [7] [(8, 31, 0), (12, 6, 0), (16, 47, 0)] true e ∧ 0 < n ∧ n ≤ 64) ∧
    (let p : Fin 64 := 0
     let e : BitVec 512 := ent 57 [(8, 0, 63)]
     let s : State := taken p e on
     s.accepts p 57 [3] [(8, 5, 0), (8, 8, 8), (12, 31, 0), (16, 31, 0), (20, 3, 0), (24, 31, 0)] true e ∧ eBits e 8 8 8 = 0) ∧
    (let p : Fin 64 := 0
     let e : BitVec 512 := ent 57 [(8, 0, 63), (8, 8, 1), (20, 0, 15), (24, 0, 60000)]
     let s : State := taken p e on
     let n : Nat := eBits e 20 3 0
     let m : Nat := eBits e 24 31 0
     s.accepts p 57 [3] [(8, 5, 0), (8, 8, 8), (12, 31, 0), (16, 31, 0), (20, 3, 0), (24, 31, 0)] true e ∧ eBits e 8 8 8 = 1 ∧ 0 < n ∧ 0 <
       m ∧ m ≤ 60000) ∧
    (let p : Fin 64 := 0
     let e : BitVec 512 := ent 58 [(8, 1, 1)]
     let s : State := taken p e (on.setPkg pkFAILED)
     s.accepts p 58 [] [(8, 1, 0), (8, 10, 8)] true e ∧ eBits e 8 1 1 = 1 ∧ s.pkg = pkFAILED) ∧
    (let p : Fin 64 := 0
     let e : BitVec 512 := ent 58 [(8, 0, 1)]
     let s : State := taken p e on
     s.accepts p 58 [] [(8, 1, 0), (8, 10, 8)] true e ∧ (eBits e 8 1 1 = 0 ∨ s.pkg ≠ pkFAILED)) ∧
    (let p : Fin 64 := 0
     let e : BitVec 512 := ent 59 []
     let pid : Fin 32 := Fin.ofNat 32 (eBits e 8 4 0)
     let pt : Part := part
     let s : State := taken p e (scheduled wheel part [])
     s.accepts p 59 [] [(8, 4, 0)] true e ∧ s.livePart pid = some pt ∧ s.mayUse p pt.ctx = true ∧ s.flt.drains.get? pid = none ∧ pt.failed
       = false) ∧
    (let p : Fin 64 := 0
     let e : BitVec 512 := ent 59 []
     let pid : Fin 32 := Fin.ofNat 32 (eBits e 8 4 0)
     let pt : Part := { part with failed := true }
     let s : State := taken p e (scheduled wheel { part with failed := true } [])
     s.accepts p 59 [] [(8, 4, 0)] true e ∧ s.livePart pid = some pt ∧ s.mayUse p pt.ctx = true ∧ s.flt.drains.get? pid = none ∧ pt.failed
       = true) ∧
    (let pid : Fin 32 := 0
     let pt : Part := part
     let s : State := { scheduled wheel part [] with flt := { on.flt with drains := [(0, (0, 0))] } }
     let y : Fin 64 := 0
     let t : Nat := 0
     s.flt.drains.get? pid = some (y, t) ∧ s.part pid = some pt ∧ s.partQuiet pid = true ∧ (s.partPosted pt = [] ∨ t + 100000 ≤ s.now)) ∧
    (let p : Fin 64 := 0
     let e : BitVec 512 := ent 60 []
     let s : State := taken p e on
     s.accepts p 60 [] [(8, 2, 0), (16, 47, 0)] true e) ∧
    (let p : Fin 64 := 0
     let e : BitVec 512 := ent 61 []
     let s : State := taken p e on
     s.accepts p 61 [3] [(8, 31, 0), (16, 47, 0)] true e) ∧
    (let p : Fin 64 := 0
     let e : BitVec 512 := ent 62 [(8, 0, 7)]
     let d : Fin 8 := Fin.ofNat 8 (eBits e 8 2 0)
     let s : State := taken p e on
     let off : Nat := Reg.FAB_PWSTICKYw (eBits e 8 12 8)
     s.accepts p 62 [] [(8, 2, 0), (8, 12, 8), (12, 31, 0)] true e ∧ s.up (domFab d) = true ∧ (regFields
       { blk := Blk.fab, inst := d.val, off := off }).isSome = true) := by
  refine ⟨?_, ?_, ?_, ?_, ?_, ?_, ?_, ?_, ?_, ?_, ?_, ?_, ?_, ?_, ?_, ?_, ?_, ?_, ?_, ?_, ?_, ?_, ?_⟩
  · decide +kernel
  · decide +kernel
  · decide +kernel
  · decide +kernel
  · decide +kernel
  · decide +kernel
  · decide +kernel
  · decide +kernel
  · decide +kernel
  · decide +kernel
  · decide +kernel
  · decide +kernel
  · unfold State.accepts; decide +kernel
  · unfold State.accepts; decide +kernel
  · unfold State.accepts; decide +kernel
  · unfold State.accepts; decide +kernel
  · unfold State.accepts; decide +kernel
  · unfold State.accepts; decide +kernel
  · unfold State.accepts; decide +kernel
  · decide +kernel
  · unfold State.accepts; decide +kernel
  · unfold State.accepts; decide +kernel
  · unfold State.accepts; decide +kernel

theorem witness_ThirdEventInTheWindowIsLasting :
    (let e : Ev := { event with cls := 2 }
     e.cls = 2) ∧
    (let s : State := faulty (fun f => { f with hist := [(0x42A60100, [5, 1])] })
     let e : Ev := { event with stamp := 1000000001 }
     let t1 : Nat := 5
     let t2 : Nat := 1
     e.cls = 1 ∧ s.flt.rules = [] ∧ s.isLasting e.source = false ∧ s.flt.hist.get e.source [] = [t1, t2] ∧ t2 ≤ t1 ∧ t1 ≤ e.stamp ∧
       e.stamp - t2 ≤ 1000000000) ∧
    (let s : State := faulty (fun f => { f with hist := [(0x42A60100, [5, 1])] })
     let e : Ev := event
     let t1 : Nat := 5
     let t2 : Nat := 1
     e.cls = 1 ∧ s.flt.rules = [] ∧ s.isLasting e.source = false ∧ s.flt.hist.get e.source [] = [t1, t2] ∧ t2 ≤ t1 ∧ t1 ≤ e.stamp ∧
       1000000000 < e.stamp - t2) := by
  refine ⟨?_, ?_, ?_⟩ <;> decide +kernel

theorem witness_SecurityCommandsComplete :
    (let p : Fin 64 := 0
     let e : BitVec 512 := ent 64 [(8, 0, 4095), (8, 16, 63)]
     let ctx : BitVec 12 := eCtx e
     let sl : Fin 64 := Fin.ofNat 64 (eBits e 8 21 16)
     let s : State := taken p e (sliced 63 slice1 on)
     s.accepts p 64 [4] [(8, 11, 0), (8, 21, 16), (8, 24, 24)] true e ∧ ctx ≠ 0 ∧ s.sec.ctxs.get? ctx = none ∧ (sl ≠ 0 → ∃ (y : Slice),
       s.sec.slices.get? sl = some y ∧ y.world = (p.val == 1)) ∧ ((s.ctxsOf sl).length < s.sliceLimit sl 4095 fun (x : Slice) => x.ctxs) ∧
       eBits e 8 24 24 = 0) ∧
    (let p : Fin 64 := 0
     let e : BitVec 512 := ent 64 [(8, 0, 4095), (8, 16, 63), (8, 24, 1)]
     let ctx : BitVec 12 := eCtx e
     let sl : Fin 64 := Fin.ofNat 64 (eBits e 8 21 16)
     let s : State := taken p e (sliced 63 slice1 on)
     let n : Fin 256 := (s.freeSlot).getD 0
     s.accepts p 64 [4] [(8, 11, 0), (8, 21, 16), (8, 24, 24)] true e ∧ ctx ≠ 0 ∧ s.sec.ctxs.get? ctx = none ∧ (sl ≠ 0 → ∃ (y : Slice),
       s.sec.slices.get? sl = some y ∧ y.world = (p.val == 1)) ∧ ((s.ctxsOf sl).length < s.sliceLimit sl 4095 fun (x : Slice) => x.ctxs) ∧
       eBits e 8 24 24 = 1 ∧ (s.slotsOf sl < s.sliceLimit sl 255 fun (x : Slice) => x.slots) ∧ s.freeSlot = some n) ∧
    (let p : Fin 64 := 0
     let e : BitVec 512 := ent 65 [(8, 0, 5)]
     let ctx : BitVec 12 := eCtx e
     let s : State := taken p e (secured on)
     s.accepts p 65 [1, 4] [(8, 11, 0)] true e ∧ s.secCtx ctx = true ∧ s.mayUse p ctx = true ∧ (s.sec.removals.any fun (r : Removal) =>
       r.ctx == ctx && r.pair == p && r.cmdid == eCmd e) = false) ∧
    (let ctx : BitVec 12 := 5
     let r : Removal := removal
     let s : State := removing removal
     s.removalOf ctx = some r ∧ s.fpRuns 4 = true ∧ r.advanced = false ∧ (s.ctxTx ctx = [] ∨ r.since + 50000 ≤ s.now)) ∧
    (let ctx : BitVec 12 := 5
     let n : Fin 256 := 0
     let r : Removal := { removal with advanced := true }
     let s : State := removing { removal with advanced := true }
     let x : Ctx := { ctx5 with closing := true, slot := 0 }
     s.removalOf ctx = some r ∧ s.fpRuns 4 = true ∧ r.advanced = true ∧ s.sec.ctxs.get? ctx = some x ∧ x.slot = n) ∧
    (let p : Fin 64 := 0
     let e : BitVec 512 := ent 66 [(8, 0, 5), (8, 16, 6), (16, 0, 0x20000000), (24, 0, 0x200000)]
     let ctx : BitVec 12 := eCtx e
     let d : Fin 8 := Fin.ofNat 8 (eBits e 8 18 16)
     let a : Nat := 256
     let b : Nat := 1
     let s : State := taken p e (secured on)
     let c : Nat := s.sliceLimit (s.sliceOfCtx ctx) (s.dramUnits d) fun (x : Slice) => x.dram.get d 0
     s.accepts p 66 [] [(8, 11, 0), (8, 18, 16), (16, 63, 0), (24, 63, 0)] true e ∧ eAddr e 16 = a * unit2M ∧ eAddr e 24 = b * unit2M ∧ 0
       < b ∧ a * unit2M + b * unit2M ≤ s.dramBytes d ∧ s.secCtx ctx = true ∧ s.mayUse p ctx = true ∧ s.unitsOf (s.sliceOfCtx ctx) d + b ≤
       c ∧ (List.filter (fun (r : Region) => r.die == d) s.allRegions).length < 256 ∧ (d.val = 6 → 256 ≤ a) ∧ (∀ (r : Region), r ∈
       s.allRegions → r.die = d → r.base + r.size ≤ a ∨ a + b ≤ r.base)) ∧
    (let p : Fin 64 := 0
     let e : BitVec 512 := ent 66 [(8, 0, 5), (8, 16, 6), (16, 0, 0x20000000), (24, 0, 0x200000)]
     let ctx : BitVec 12 := eCtx e
     let d : Fin 8 := Fin.ofNat 8 (eBits e 8 18 16)
     let a : Nat := 256
     let b : Nat := 1
     let s : State := taken p e (sliced 1 slice1 { on with sec := { on.sec with ctxs := [(5, { ctx5 with slice := 1 })] } })
     let c : Nat := s.sliceLimit (s.sliceOfCtx ctx) (s.dramUnits d) fun (x : Slice) => x.dram.get d 0
     s.accepts p 66 [] [(8, 11, 0), (8, 18, 16), (16, 63, 0), (24, 63, 0)] true e ∧ eAddr e 16 = a * unit2M ∧ eAddr e 24 = b * unit2M ∧ 0
       < b ∧ a * unit2M + b * unit2M ≤ s.dramBytes d ∧ s.secCtx ctx = true ∧ s.mayUse p ctx = true ∧ c < s.unitsOf (s.sliceOfCtx ctx) d +
       b) ∧
    (let p : Fin 64 := 0
     let e : BitVec 512 := ent 68 [(16, 0, 0xC00000700000)]
     let s : State := taken p e (words 0xC00000700000 [(0, 1196114481), (4, 52428801), (8, 1)] on)
     let bs : List Byte := ((s.fwRead true (eAddr e 16) 800).2).getD []
     let g : Word := BitVec.ofNat 32 (bWord bs 8)
     let u : State := (s.fwRead true (eAddr e 16) 800).1
     s.accepts p 68 [4] groupFields true e ∧ eBits e 8 0 0 = 0 ∧ (s.fwRead true (eAddr e 16) 800).2 = some bs ∧ bWord bs 0 = 1196114481 ∧
       bWord bs 4 = 52428801 ∧ g ≠ 0 ∧ bZero bs [(12, 31, 2)] = true ∧ leNat (bBytes bs 16 16) = leNat u.fixed.devid ∧ ((u.sec.groups.get?
       g).isSome = true ∨ List.length u.sec.groups < 16)) ∧
    (let p : Fin 64 := 0
     let e : BitVec 512 := ent 68 [(8, 0, 1), (12, 0, 1)]
     let s : State := taken p e ({ on with sec := { on.sec with groups := [(1, [])] } })
     s.accepts p 68 [4] groupFields true e ∧ eBits e 8 0 0 = 1 ∧ (s.sec.groups.get? (eWord e 12)).isSome = true) ∧
    (let p : Fin 64 := 0
     let e : BitVec 512 := ent 69 [(8, 0, 1), (8, 12, 5), (16, 0, 0xC00000700000), (24, 0, 0xC00000700040)]
     let ctx : BitVec 12 := BitVec.ofNat 12 (eBits e 8 23 12)
     let s : State := taken p e (secured on)
     let bs : List Byte := ((s.fwRead (p.val == 1) (eAddr e 16) 32).2).getD []
     s.accepts p 69 [4] [(8, 0, 0), (8, 23, 12), (16, 47, 0), (24, 47, 0)] true e ∧ eAddr e 24 % 64 = 0 ∧ (eBits e 8 0 0 = 1 → (ctx ≠ 0 →
       s.ctxLive ctx = true) ∧ s.mayUse p ctx = true) ∧ (s.fwRead (p.val == 1) (eAddr e 16) 32).2 = some bs) ∧
    (let p : Fin 64 := 0
     let e : BitVec 512 := ent 70 [(8, 0, 5)]
     let ctx : BitVec 12 := eCtx e
     let s : State := taken p e (secured on)
     s.secCtx ctx = true ∧ s.mayUse p ctx = true ∧ s.accepts p 70 [] [(8, 11, 0)] true e ∧ s.sec.dirty.get? ctx = none ∧ List.length
       s.sec.dirty < 4) ∧
    (let p : Fin 64 := 0
     let e : BitVec 512 := ent 70 [(8, 0, 5)]
     let ctx : BitVec 12 := eCtx e
     let s : State := taken p e ({ on with sec := { on.sec with ctxs := [(5, ctx5)], dirty := [(5, [])] } })
     s.secCtx ctx = true ∧ s.mayUse p ctx = true ∧ s.accepts p 70 [] [(8, 11, 0)] true e ∧ (s.sec.dirty.get? ctx).isSome = true) ∧
    (let p : Fin 64 := 0
     let e : BitVec 512 := ent 71 [(8, 0, 5)]
     let ctx : BitVec 12 := eCtx e
     let s : State := taken p e ({ on with sec := { on.sec with ctxs := [(5, ctx5)], dirty := [(5, [(0, 1)])] } })
     let l : List (Fin 8 × Nat) := [(0, 1)]
     s.secCtx ctx = true ∧ s.mayUse p ctx = true ∧ s.accepts p 71 [] [(8, 11, 0), (8, 18, 16), (16, 47, 0)] true e ∧ eAddr e 16 % 64 = 0 ∧
       s.sec.dirty.get? ctx = some l) ∧
    (let p : Fin 64 := 0
     let e : BitVec 512 := ent 72 [(8, 0, 5)]
     let ctx : BitVec 12 := eCtx e
     let s : State := taken p e (secured on)
     s.secCtx ctx = true ∧ s.mayUse p ctx = true ∧ s.accepts p 72 [] [(8, 11, 0)] true e) ∧
    (let p : Fin 64 := 0
     let e : BitVec 512 := ent 73 [(8, 0, 115), (8, 8, 1)]
     let a : Nat := eBits e 8 6 0
     let s : State := taken p e on
     s.accepts p 73 [] [(8, 6, 0), (8, 8, 8)] true e ∧ a < 116 ∧ s.trustedOwns a = (p.val == 1) ∧ s.pwr.queue = [] ∧ s.busy.getLsbD a =
       false ∧ s.domOn a = true ∧ eBits e 8 8 8 = 1 ∧ s.gated.getLsbD a = false ∧ s.gateCode a true = 0) ∧
    (let p : Fin 64 := 0
     let e : BitVec 512 := ent 73 [(8, 0, 115)]
     let a : Nat := eBits e 8 6 0
     let s : State := taken p e ({ on with gated := BitVec.ofNat 116 (2 ^ 115) })
     s.accepts p 73 [] [(8, 6, 0), (8, 8, 8)] true e ∧ a < 116 ∧ s.trustedOwns a = (p.val == 1) ∧ s.pwr.queue = [] ∧ s.busy.getLsbD a =
       false ∧ s.domOn a = true ∧ eBits e 8 8 8 = 0 ∧ s.gated.getLsbD a = true ∧ s.gateCode a false = 0) ∧
    (let p : Fin 64 := 0
     let e : BitVec 512 := ent 73 [(8, 0, 115)]
     let a : Nat := eBits e 8 6 0
     let s : State := taken p e on
     s.accepts p 73 [] [(8, 6, 0), (8, 8, 8)] true e ∧ a < 116 ∧ s.trustedOwns a = (p.val == 1) ∧ s.pwr.queue = [] ∧ s.busy.getLsbD a =
       false ∧ s.domOn a = true ∧ s.gated.getLsbD a = (eBits e 8 8 8 == 1)) := by
  refine ⟨?_, ?_, ?_, ?_, ?_, ?_, ?_, ?_, ?_, ?_, ?_, ?_, ?_, ?_, ?_, ?_, ?_⟩
  · unfold State.accepts; decide +kernel
  · unfold State.accepts; decide +kernel
  · unfold State.accepts; decide +kernel
  · decide +kernel
  · decide +kernel
  · unfold State.accepts; decide +kernel
  · unfold State.accepts; decide +kernel
  · unfold State.accepts; decide +kernel
  · unfold State.accepts; decide +kernel
  · unfold State.accepts; decide +kernel
  · unfold State.accepts; decide +kernel
  · unfold State.accepts; decide +kernel
  · unfold State.accepts; decide +kernel
  · unfold State.accepts; decide +kernel
  · unfold State.accepts; decide +kernel
  · unfold State.accepts; decide +kernel
  · unfold State.accepts; decide +kernel

theorem witness_SecurityCommandsComplete_7 :
    (let p : Fin 64 := 1
     let e : BitVec 512 := ent 67 [(8, 0, 5), (16, 0, 0xC00000700000), (24, 0, 0xC00020000000)]
     let ctx : BitVec 12 := eCtx e
     let a : Nat := eAddr e 24
     let s : State := taken p e (packed (wpkg (zeros 31 ++ [1]) (zeros 32)))
     let bs : List Byte := ((s.fwRead true (eAddr e 16) 128).2).getD []
     let b : Nat := bWord bs 12
     let gk : List Byte := zeros 32
     let g : Word := BitVec.ofNat 32 (bWord bs 8)
     let u : State := (s.fwRead true (eAddr e 16) 128).1
     s.accepts p 67 [4] [(8, 11, 0), (16, 47, 0), (24, 47, 0)] true e ∧ (s.fwRead true (eAddr e 16) 128).2 = some bs ∧ bWord bs 0 =
       1464879921 ∧ bWord bs 4 = 8388609 ∧ 0 < b ∧ bZero bs [(120, 31, 0), (124, 31, 0)] = true ∧ u.secCtx ctx = true ∧ u.mayUse p ctx =
       true ∧ u.sec.groups.get? g = some gk ∧ u.inRegions ctx a (b * 64) = true ∧ unwrapPk gk bs = none) := by
  unfold State.accepts; decide +kernel

theorem witness_SecurityCommandsComplete_8 :
    (let p : Fin 64 := 1
     let e : BitVec 512 := ent 67 [(8, 0, 5), (16, 0, 0xC00000700000), (24, 0, 0xC00020000000)]
     let ctx : BitVec 12 := eCtx e
     let a : Nat := eAddr e 24
     let s : State := taken p e (packed ((wpkg (zeros 32) (zeros 32)).take 200))
     let bs : List Byte := ((s.fwRead true (eAddr e 16) 128).2).getD []
     let b : Nat := bWord bs 12
     let gk : List Byte := zeros 32
     let g : Word := BitVec.ofNat 32 (bWord bs 8)
     let u : State := (s.fwRead true (eAddr e 16) 128).1
     let pk : List Byte := (unwrapPk gk bs).getD []
     let ps : List Byte := ((u.fwRead true (eAddr e 16 + 128) (b * 64 + 16)).2).getD []
     s.accepts p 67 [4] [(8, 11, 0), (16, 47, 0), (24, 47, 0)] true e ∧ (s.fwRead true (eAddr e 16) 128).2 = some bs ∧ bWord bs 0 =
       1464879921 ∧ bWord bs 4 = 8388609 ∧ 0 < b ∧ bZero bs [(120, 31, 0), (124, 31, 0)] = true ∧ u.secCtx ctx = true ∧ u.mayUse p ctx =
       true ∧ u.sec.groups.get? g = some gk ∧ u.inRegions ctx a (b * 64) = true ∧ unwrapPk gk bs = some pk ∧ (u.fwRead true (eAddr e 16 +
       128) (b * 64 + 16)).2 = some ps ∧ gcmOpen pk (bBytes bs 108 12) bs (List.take (b * 64) ps) (List.drop (b * 64) ps) = none) := by
  unfold State.accepts; decide +kernel

theorem witness_SecurityCommandsComplete_9 :
    (let p : Fin 64 := 1
     let e : BitVec 512 := ent 67 [(8, 0, 5), (16, 0, 0xC00000700000), (24, 0, 0xC00020000000)]
     let ctx : BitVec 12 := eCtx e
     let a : Nat := eAddr e 24
     let s : State := taken p e (packed (wpkg (zeros 32) (zeros 32)))
     let bs : List Byte := ((s.fwRead true (eAddr e 16) 128).2).getD []
     let b : Nat := bWord bs 12
     let gk : List Byte := zeros 32
     let g : Word := BitVec.ofNat 32 (bWord bs 8)
     let u : State := (s.fwRead true (eAddr e 16) 128).1
     let pk : List Byte := (unwrapPk gk bs).getD []
     let ps : List Byte := ((u.fwRead true (eAddr e 16 + 128) (b * 64 + 16)).2).getD []
     let plain : List Byte := (gcmOpen pk (bBytes bs 108 12) bs (List.take (b * 64) ps) (List.drop (b * 64) ps)).getD []
     s.accepts p 67 [4] [(8, 11, 0), (16, 47, 0), (24, 47, 0)] true e ∧ (s.fwRead true (eAddr e 16) 128).2 = some bs ∧ bWord bs 0 =
       1464879921 ∧ bWord bs 4 = 8388609 ∧ 0 < b ∧ bZero bs [(120, 31, 0), (124, 31, 0)] = true ∧ u.secCtx ctx = true ∧ u.mayUse p ctx =
       true ∧ u.sec.groups.get? g = some gk ∧ u.inRegions ctx a (b * 64) = true ∧ unwrapPk gk bs = some pk ∧ (u.fwRead true (eAddr e 16 +
       128) (b * 64 + 16)).2 = some ps ∧ gcmOpen pk (bBytes bs 108 12) bs (List.take (b * 64) ps) (List.drop (b * 64) ps) = some plain ∧
       bBytes bs 16 32 ≠ sha256 plain) := by
  unfold State.accepts; decide +kernel

theorem witness_SecurityCommandsComplete_10 :
    (let p : Fin 64 := 1
     let e : BitVec 512 := ent 67 [(8, 0, 5), (16, 0, 0xC00000700000), (24, 0, 0xC00020000000)]
     let ctx : BitVec 12 := eCtx e
     let a : Nat := eAddr e 24
     let s : State := taken p e (packed (wpkg (zeros 32) (sha256 (zeros 64))))
     let bs : List Byte := ((s.fwRead true (eAddr e 16) 128).2).getD []
     let b : Nat := bWord bs 12
     let gk : List Byte := zeros 32
     let g : Word := BitVec.ofNat 32 (bWord bs 8)
     let u : State := (s.fwRead true (eAddr e 16) 128).1
     let v : State := (u.fwRead true (eAddr e 16 + 128) (b * 64 + 16)).1
     let pk : List Byte := (unwrapPk gk bs).getD []
     let ps : List Byte := ((u.fwRead true (eAddr e 16 + 128) (b * 64 + 16)).2).getD []
     let plain : List Byte := (gcmOpen pk (bBytes bs 108 12) bs (List.take (b * 64) ps) (List.drop (b * 64) ps)).getD []
     s.accepts p 67 [4] [(8, 11, 0), (16, 47, 0), (24, 47, 0)] true e ∧ (s.fwRead true (eAddr e 16) 128).2 = some bs ∧ bWord bs 0 =
       1464879921 ∧ bWord bs 4 = 8388609 ∧ 0 < b ∧ bZero bs [(120, 31, 0), (124, 31, 0)] = true ∧ u.secCtx ctx = true ∧ u.mayUse p ctx =
       true ∧ u.sec.groups.get? g = some gk ∧ u.inRegions ctx a (b * 64) = true ∧ unwrapPk gk bs = some pk ∧ (u.fwRead true (eAddr e 16 +
       128) (b * 64 + 16)).2 = some ps ∧ gcmOpen pk (bBytes bs 108 12) bs (List.take (b * 64) ps) (List.drop (b * 64) ps) = some plain ∧
       bBytes bs 16 32 = sha256 plain ∧ (v.placePlain a plain b).2 = true) := by
  unfold State.accepts; decide +kernel

theorem witness_ManagementCommandsComplete :
    (let q : MgmtDgram := mdgram (tpHeader 0x484D 1 0 36 0 0 0 ++ zeros 32 ++ leBytes 4 7)
     let id : Word := 1
     let pt : List Byte := tpPayload q.bytes
     let s : State := managed [mgmt]
     s.mgmtUp = true ∧ s.mgmtFor q = true ∧ tpOp q.bytes = 1 ∧ tpForm 18509 q.bytes 0 = true ∧ tpSession q.bytes = 0 ∧ pt.length = 36 ∧
       mgWord pt 8 < 8 ∧ s.sec.lockUntil = none ∧ id ≠ 0 ∧ s.mgmtOf id = none) ∧
    (let q : MgmtDgram := mdgram (tpHeader 0x484D 3 0 0 9 0 1)
     let x : Mgmt := { mgmt with established := false }
     let s : State := managed [{ mgmt with established := false }]
     s.mgmtUp = true ∧ s.mgmtFor q = true ∧ tpOp q.bytes = 3 ∧ tpMagic q.bytes = 4738305 ∧ s.mgmtOf (tpSession q.bytes) = some x ∧
       x.established = false) ∧
    (let q : MgmtDgram := mdgram (tpHeader 0x484D 3 0 0 9 0 1)
     let x : Mgmt := { mgmt with established := false }
     let s : State := managed [{ mgmt with established := false }, { mgmt with id := 8, cred := 0 }]
     s.mgmtUp = true ∧ s.mgmtFor q = true ∧ tpOp q.bytes = 3 ∧ tpMagic q.bytes = 4738305 ∧ s.mgmtOf (tpSession q.bytes) = some x ∧
       x.established = false ∧ s.sec.revoked.getLsbD x.cred.val = false ∧ (List.filter (fun (y : Mgmt) => y.established && y.cred !=
       x.cred) s.sec.mgmt).length < 2) ∧
    (let pt : List Byte := leBytes 4 0x534C4331 ++ leBytes 4 63 ++ leBytes 4 1 ++ zeros 68
     let q : MgmtDgram := mreq 16 pt
     let x : Mgmt := mgmt
     let y : Slice :=
       { slice1 with slots := 0, parts := 0, clusters := (List.finRange 6).map (fun d => (d, 0)), dram := (List.finRange 8).map (fun d => (d, 0)) }
     let s : State := managed [mgmt]
     let u : State := s.heard x
     let m : Fin 64 := 63
     s.admits q 16 x pt ∧ parseSlice pt = some (m, y) ∧ u.sliceRole x = true ∧ u.sliceFits m y = true) ∧
    (let q : MgmtDgram := mreq 16 []
     let x : Mgmt := mgmt
     let pt : List Byte := []
     let s : State := managed [mgmt]
     s.admits q 16 x pt ∧ parseSlice pt = none) ∧
    (let pt : List Byte := leBytes 4 63
     let q : MgmtDgram := mreq 17 pt
     let x : Mgmt := mgmt
     let n : Fin 64 := 63
     let s : State := { managed [mgmt] with sec := { (managed [mgmt]).sec with slices := [(63, slice1)] } }
     let u : State := s.heard x
     n = Fin.ofNat 64 (mgWord pt 0) ∧ s.admits q 17 x pt ∧ mgWord pt 0 < 64 ∧ u.sliceRole x = true ∧ (u.sec.slices.get? n).isSome = true ∧
       u.ctxsOf n = []) ∧
    (let pt : List Byte := leBytes 4 63
     let q : MgmtDgram := mreq 18 pt
     let x : Mgmt := mgmt
     let n : Fin 64 := 63
     let y : Slice := slice1
     let s : State := { managed [mgmt] with sec := { (managed [mgmt]).sec with slices := [(63, slice1)] } }
     let u : State := s.heard x
     n = Fin.ofNat 64 (mgWord pt 0) ∧ s.admits q 18 x pt ∧ mgWord pt 0 < 64 ∧ u.sliceRole x = true ∧ u.sec.slices.get? n = some y) ∧
    (let pt : List Byte := leBytes 4 7
     let q : MgmtDgram := mreq 19 pt
     let x : Mgmt := mgmt
     let s : State := managed [mgmt]
     let u : State := s.heard x
     s.admits q 19 x pt ∧ mgWord pt 0 < 8 ∧ u.revokeRole x = true) ∧
    (let pt : List Byte := leBytes 4 7
     let q : MgmtDgram := mreq 19 pt
     let x : Mgmt := mgmt
     let s : State := { managed [mgmt] with fixed := on.fixed }
     let u : State := s.heard x
     s.admits q 19 x pt ∧ u.revokeRole x = false) ∧
    (let pt : List Byte := zeros 32
     let q : MgmtDgram := mreq 20 pt
     let x : Mgmt := mgmt
     let s : State := managed [mgmt]
     s.admits q 20 x pt ∧ s.fpRuns 4 = true ∧ s.sec.report = none) ∧
    (let q : MgmtDgram := mreq 21 []
     let x : Mgmt := mgmt
     let pt : List Byte := []
     let s : State := managed [mgmt]
     s.admits q 21 x pt) ∧
    (let q : MgmtDgram := mreq 22 []
     let x : Mgmt := mgmt
     let pt : List Byte := []
     let s : State := managed [mgmt]
     s.admits q 22 x pt) ∧
    (let s : State := { on with sec := { on.sec with lockUntil := some 0 } }
     let t : Nat := 0
     s.sec.lockUntil = some t ∧ t ≤ s.now) ∧
    (let x : Mgmt := { mgmt with done := [(1, [])] }
     let s : State := managed [x]
     let q : MgmtDgram := mreq 21 []
     let op : Nat := 21
     let pt : List Byte := (tpOpened x.key q.bytes).getD []
     let bs : List Byte := []
     s.mgmtUp = true ∧ s.mgmtFor q = true ∧ tpForm 18509 q.bytes 16 = true ∧ tpOp q.bytes = op ∧ s.mgmtOf (tpSession q.bytes) = some x ∧
       tpOpened x.key q.bytes = some pt ∧ x.established = true ∧ tpSeq q.bytes ≠ 0 ∧ (tpSeq q.bytes).toNat ≤ 2 ^ 62 ∧ List.find? (fun
       (e : BitVec 64 × List Byte) => e.fst == tpSeq q.bytes) x.done = some (tpSeq q.bytes, bs)) := by
  refine ⟨?_, ?_, ?_, ?_, ?_, ?_, ?_, ?_, ?_, ?_, ?_, ?_, ?_, ?_⟩
  · decide +kernel
  · decide +kernel
  · decide +kernel
  · unfold State.admits; decide +kernel
  · unfold State.admits; decide +kernel
  · unfold State.admits; decide +kernel
  · unfold State.admits; decide +kernel
  · unfold State.admits; decide +kernel
  · unfold State.admits; decide +kernel
  · unfold State.admits; decide +kernel
  · unfold State.admits; decide +kernel
  · unfold State.admits; decide +kernel
  · decide +kernel
  · decide +kernel

theorem witness_PairsAreServedAndTheManagementCoreIsWatched :
    (let s : State := on
     s.fw.mcRunning = true) ∧
    (let s : State := timed 999999 on
     s.fw.mcRunning = true ∧ s.now < s.fw.mcKick + 1000000) ∧
    (let s : State := timed 1000000 on
     s.fw.mcRunning = true ∧ s.fw.mcKick + 1000000 ≤ s.now) := by
  refine ⟨?_, ?_, ?_⟩ <;> decide +kernel

theorem witness_PowerCapStaysInItsRange :
    (let p : Fin 64 := 0
     let e : BitVec 512 := ent 41 [(8, 0, 119)]
     let w : Nat := eBits e 8 9 0
     let s : State := taken p e on
     s.accepts p 41 [] [(8, 9, 0)] true e ∧ (w < 120 ∨ 560 < w)) ∧
    (let p : Fin 64 := 0
     let e : BitVec 512 := ent 41 [(8, 0, 120)]
     let w : Nat := eBits e 8 9 0
     let s : State := taken p e on
     s.accepts p 41 [] [(8, 9, 0)] true e ∧ 120 ≤ w ∧ w ≤ 560 ∧ w * 4 < s.budgetSum) ∧
    (let p : Fin 64 := 0
     let e : BitVec 512 := ent 41 [(8, 0, 560)]
     let w : Nat := eBits e 8 9 0
     let s : State := taken p e ({ on with on := BitVec.ofNat 116 (2 ^ 86 + 2 ^ 89) })
     s.accepts p 41 [] [(8, 9, 0)] true e ∧ 120 ≤ w ∧ w ≤ 560 ∧ s.budgetSum ≤ w * 4) := by
  refine ⟨?_, ?_, ?_⟩ <;> (unfold State.accepts; decide +kernel)

theorem witness_NanScaleMakesANanBlock :
    (let x : Nat := 254
     x < 255) := by
  decide +kernel

theorem witness_AdmissionNeedsUsableCores :
    (let s : State := { on with fixed := { on.fixed with coreEn := [(0, 0)] } }
     let p : PairId := ⟨⟨0, 0⟩, 0⟩
     s.pairUsable p = false) ∧
    (let s : State := { on with fixed := { on.fixed with coreEn := [(0, 0)] } }
     let d : PDesc := ⟨0, 0, 0, false, 0, 0, 0, [prec]⟩
     let r : PRec := prec
     r ∈ d.recs ∧ ((∃ (x : CoreId), x ∈ r.coreList ∧ s.coreEnabled x = false) ∨ ∃ (i : Fin 4), r.pairs.getLsbD i.val = true ∧ s.pairUsable
       { cl := r.cl, i := i } = false)) := by
  refine ⟨?_, ?_⟩ <;> decide +kernel

theorem witness_StepRunsTheFrontCommand :
    (let c : Instr := .timeClockLoss
     let s : State := { on with pending := [.timeClockLoss] }
     let t : List Instr := (s.pending).tail
     s.pending = c :: t) := by
  decide +kernel

/-- The state after reset is safe and takes a step. -/
theorem witness_EveryStepKeepsMemoryCanonical : State.reset.safe ∧ ∃ t, step State.reset = .next t :=
  ⟨by unfold State.safe; decide +kernel, ⟨_, rfl⟩⟩

end Sys2Proof.Tests
end

