-- ==== Sys2Proof/Tests/WitnessTime.lean ====
section
/-! SUPPORT. States and operands that meet the hypotheses of the statements about wheels, time, the fabric and registers, clause by clause. -/

namespace Sys2Proof.Tests

open Sys2Proof.Machine

set_option Elab.async false

theorem witness_WheelCommandsComplete :
    (let w : Fin 4 := 0
     let s : State := turning { wheel with anchorPh := 101 } on
     s.time.frozen = false ∧ s.domOn 86 = true ∧ (s.wheel w).going = true ∧ (s.wheel w).startDue = false ∧ s.tickDue w ((s.wheel
       w).phase.toNat + 1) = true ∧ (s.wheel w).phase ≠ 65535) ∧
    (let w : Fin 4 := 0
     let s : State := turning { wheel with startDue := true, anchorPh := 101 } on
     s.time.frozen = false ∧ s.domOn 86 = true ∧ (s.wheel w).going = true ∧ (s.wheel w).startDue = true ∧ ((s.wheel w).st =
       WheelSt.freeRun ∨ (s.wheel w).hold = true ∨ s.tickDue w ((s.wheel w).phase.toNat + 1) = true)) ∧
    (let w : Fin 4 := 0
     let s : State := turning { wheel with st := .armed, event := some 0 } (on.setTrig 0 { Trig.reset with active := true })
     let t : Nat := 0
     s.time.frozen = false ∧ s.domOn 86 = true ∧ (s.wheel w).event = some t ∧ (s.wheel w).st = WheelSt.armed ∧ (((s.setWheel w
       ({ s.wheel w with event := none })).startFrame w t WheelSt.running).trig (whlTrig (((s.setWheel w
       ({ s.wheel w with event := none })).startFrame w t WheelSt.running).whlCfg w))).active = true) ∧
    (let w : Fin 4 := 0
     let s : State := (turning { wheel with hold := true, anchorPh := 65536 + 1024 } on).setReg .whl 0 (Reg.WHL_CFGw 0) 0xC0000000
     s.time.frozen = false ∧ s.domOn 86 = true ∧ (s.wheel w).hold = true ∧ whlCamera (s.whlCfg w) = true ∧ s.tickDue w (65536 + 1024) =
       true ∧ (s.wheel w).st = WheelSt.running) ∧
    (let w : Fin 4 := 0
     let s : State := turning { wheel with st := .freeRun, freeFrames := 4, phase := 0xFFFF, anchorPh := 65536 } on
     s.time.frozen = false ∧ s.domOn 86 = true ∧ (s.wheel w).st = WheelSt.freeRun ∧ (s.wheel w).freeFrames = 4 ∧ (s.wheel w).phase = 65535
       ∧ (s.wheel w).startDue = false ∧ s.tickDue w 65536 = true) ∧
    (let w : Fin 4 := 0
     let s : State := on.setReg .whl 0 (Reg.WHL_PERw 0) 4000000
     let src : Src := firm
     let v : Word := 0xC3EF0000
     s.time.frozen = false ∧ s.domOn 86 = true ∧ s.reaches src (vehRegs 21037056 + Reg.WHL_CFGw w.val) = true ∧ s.mayWrite src Blk.whl 0 =
       true ∧ (s.admitted w = false ∨ src.fw = true) ∧ v &&& 3287220224 = v ∧ whlEnabled v = true ∧ (s.wheel w).live = false ∧ s.enableOk
       w v (BitVec.toNat (s.reg Blk.whl 0 (Reg.WHL_PERw w.val))) = true) := by
  refine ⟨?_, ?_, ?_, ?_, ?_, ?_⟩ <;> decide +kernel

theorem witness_FramesAreNumberedUntilTheClockFails :
    (let s : State := on
     s.time.frozen = false ∧ s.domOn 86 = true) := by
  decide +kernel

theorem witness_ClockCycleAdvancesTime :
    (let s : State := on
     s.pending = []) ∧
    (let s : State := on
     s.pending = [] ∧ s.pwr.shutTo = none ∧ s.gw.pciInQ = [] ∧ s.time.frozen = false ∧ s.domOn 86 = true ∧ (∀ (e : Fin 32 × Cap), e ∈
       s.time.cap → e.snd.edges = [])) ∧
    (let s : State := { on with time := { on.time with frozen := true } }
     s.pending = [] ∧ s.pwr.shutTo = none ∧ s.gw.pciInQ = [] ∧ (s.time.frozen = true ∨ s.domOn 86 = false)) ∧
    (let s : State := on
     let n : Fin 32 := 31
     let e : Word × Nat × Bool := (5, 40, true)
     (s.cap n).fifo.length < 16 ∧ (∀ (l : Nat), (s.cap n).last = some l → l + 40 ≤ e.snd.fst)) ∧
    (let s : State := { on with time := { on.time with cap := [(31, { (⟨[], none, false, []⟩ : Cap) with last := some 0 })] } }
     let n : Fin 32 := 31
     let e : Word × Nat × Bool := (5, 39, true)
     (16 ≤ (s.cap n).fifo.length ∨ ∃ (l : Nat), (s.cap n).last = some l ∧ e.snd.fst < l + 40)) := by
  refine ⟨?_, ?_, ?_, ?_, ?_⟩ <;> decide +kernel

theorem witness_TimeUnitCommandsComplete :
    (let src : Src := firm
     let d : Fin 4 := 3
     let s : State := on
     s.mayWrite src Blk.tu 0 = true ∧ (s.fwDomain d = false ∨ src.fw = true) ∧ s.reaches src (vehRegs 20971520 + Reg.TU_DdSTEP d.val) =
       true ∧ s.bound d = false) ∧
    (let src : Src := firm
     let d : Fin 4 := 0
     let s : State := on.setReg .tu 0 (Reg.TU_TRGCFGn 31) 0x80000000
     s.mayWrite src Blk.tu 0 = true ∧ (s.fwDomain d = false ∨ src.fw = true) ∧ s.reaches src (vehRegs 20971520 + Reg.TU_DdSTEP d.val) =
       true ∧ s.bound d = true) ∧
    (let src : Src := firm
     let d : Fin 4 := 0
     let s : State := on
     s.mayWrite src Blk.tu 0 = true ∧ (s.fwDomain d = false ∨ src.fw = true) ∧ s.reaches src (vehRegs 20971520 + Reg.TU_DdLOAD d.val) =
       true ∧ s.bound d = false) ∧
    (let src : Src := firm
     let d : Fin 4 := 0
     let s : State := on.setReg .tu 0 (Reg.TU_TRGCFGn 31) 0x80000000
     s.mayWrite src Blk.tu 0 = true ∧ (s.fwDomain d = false ∨ src.fw = true) ∧ s.reaches src (vehRegs 20971520 + Reg.TU_DdLOAD d.val) =
       true ∧ s.bound d = true) ∧
    (let src : Src := firm
     let d : Fin 4 := 0
     let s : State := on
     s.mayWrite src Blk.tu 0 = true ∧ (s.fwDomain d = false ∨ src.fw = true) ∧ s.reaches src (vehRegs 20971520 + Reg.TU_DdSLEW d.val) =
       true) ∧
    (let src : Src := firm
     let d : Fin 4 := 0
     let s : State := on
     let en : Bool := false
     s.mayWrite src Blk.tu 0 = true ∧ (s.fwDomain d = false ∨ src.fw = true) ∧ s.reaches src (vehRegs 20971520 + Reg.TU_DdCTRL d.val) =
       true ∧ (en = true ∨ s.domEnabled d = false ∨ s.bound d = false)) ∧
    (let src : Src := firm
     let d : Fin 4 := 0
     let s : State := (on.setReg .tu 0 (Reg.TU_TRGCFGn 31) 0x80000000).setReg .tu 0 (Reg.TU_DdCTRL 0) 0x80000000
     s.mayWrite src Blk.tu 0 = true ∧ (s.fwDomain d = false ∨ src.fw = true) ∧ s.reaches src (vehRegs 20971520 + Reg.TU_DdCTRL d.val) =
       true ∧ s.domEnabled d = true ∧ s.bound d = true) ∧
    (let src : Src := firm
     let d : Fin 4 := 0
     let s : State := on
     s.mayWrite src Blk.tu 0 = true ∧ (s.fwDomain d = false ∨ src.fw = true)) ∧
    (let src : Src := firm
     let n : Fin 32 := 31
     let s : State := on.setReg .tu 0 (Reg.TU_TRGWIDn 31) 8
     let v : Word := 0xC0000000
     s.reaches src (vehRegs 20971520 + Reg.TU_TRGCFGn n.val) = true ∧ s.mayWrite src Blk.tu 0 = true ∧ (s.fwTrig n = false ∨ src.fw =
       true) ∧ v &&& 4290838527 = v ∧ trgEn v = true ∧ trgEn (s.trgCfg n) = false ∧ s.trigOk n v = true ∧ s.time.frozen = false) ∧
    (let src : Src := firm
     let n : Fin 32 := 31
     let s : State := on.setReg .tu 0 (Reg.TU_TRGWIDn 31) 7
     let v : Word := 0xC0000000
     s.reaches src (vehRegs 20971520 + Reg.TU_TRGCFGn n.val) = true ∧ s.mayWrite src Blk.tu 0 = true ∧ (s.fwTrig n = false ∨ src.fw =
       true) ∧ v &&& 4290838527 = v ∧ trgEn v = true ∧ trgEn (s.trgCfg n) = false ∧ s.trigOk n v = false) ∧
    (let n : Fin 32 := 31
     let s : State := (on.setReg .tu 0 (Reg.TU_TRGCFGn 31) 0x80000000).setTrig 31 { Trig.reset with active := true }
     s.time.frozen = false ∧ s.domOn 86 = true ∧ trgEn (s.trgCfg n) = true ∧ (s.trig n).active = true ∧ s.edgeTime n (s.trig n).next ≤
       s.baseTime (trgBase (s.trgCfg n))) ∧
    (let n : Fin 32 := 31
     let s : State := (on.setReg .tu 0 (Reg.TU_TRGCFGn 31) 0x81000000).setTrig 31 { Trig.reset with active := true }
     s.time.frozen = false ∧ s.domOn 86 = true ∧ trgEn (s.trgCfg n) = true ∧ trgPin (s.trgCfg n) = true ∧ (s.trig n).active = true ∧
       (s.trig n).pulsed = (s.trig n).next ∧ (s.trig n).pulse = none ∧ s.edgeTime n (s.trig n).pulsed ≤ s.baseTime (trgBase (s.trgCfg n))
       + s.trgAdv n) ∧
    (let n : Fin 32 := 31
     let s : State := on.setTrig 31 { Trig.reset with pulse := some 0 }
     let k : Nat := 0
     (s.trig n).pulse = some k ∧ s.edgeTime n k + s.trgWid n ≤ s.baseTime (trgBase (s.trgCfg n)) + s.trgAdv n) ∧
    (let n : Fin 32 := 31
     let s : State := on.setReg .tu 0 (Reg.TU_CAPCFGn 31) 0x88000000
     let rising : Bool := false
     s.time.frozen = false ∧ s.domOn 86 = true ∧ bitOf (s.reg Blk.tu 0 (Reg.TU_CAPCFGn n.val)) 31 = true ∧ bitOf (s.reg Blk.tu 0
       (Reg.TU_CAPCFGn n.val)) 25 = false ∧ bitOf (s.reg Blk.tu 0 (Reg.TU_CAPCFGn n.val)) (if rising = true then 26 else 27) = true) ∧
    (let src : Src := firm
     let n : Fin 32 := 31
     let s : State := on
     s.reaches src (vehRegs 20971520 + Reg.TU_CAPPOPn n.val) = true) ∧
    (let s : State := on
     s.time.frozen = false ∧ s.domOn 86 = true ∧ (∀ (w : Fin 4), (s.wheel w).live = false)) ∧
    (let port : Fin 10 := 0
     let s : State := (switched on).setFld .sw 0 (Reg.SW_PCFGp 0) 26 26 1
     s.gptpPort (port.castLE (by decide)) = true ∧ s.fpRuns 5 = true ∧ s.fpRuns 6 = true) ∧
    (let d : Fin 4 := 3
     let port : Fin 10 := 0
     let s : State := (let s := (switched on).setFld .sw 0 (Reg.SW_PCFGp 0) 26 26 1; { s with fw := { s.fw with gptpState := [(3, 1)] } })
     let relayed : Option Word := none
     s.gptpPort (port.castLE (by decide)) = true ∧ s.fpRuns 5 = true ∧ s.fpRuns 6 = true ∧ s.fw.gptpState.get d 0 ≠ 0 ∧ (Option.map
       s.residence relayed).getD 0 ≤ 2000000) ∧
    (let d : Fin 4 := 3
     let s : State := { on with fw := { on.fw with gptpState := [(3, 2)] } }
     s.fw.gptpState.get d 0 = 2 ∧ s.fpRuns 5 = true) := by
  refine ⟨?_, ?_, ?_, ?_, ?_, ?_, ?_, ?_, ?_, ?_, ?_, ?_, ?_, ?_, ?_, ?_, ?_, ?_, ?_⟩ <;> decide +kernel

theorem witness_FabricCommandsComplete :
    (let c : CoreId := c0
     let ch : Fin 8 := 0
     let s : State := chan { Chan.idle with queue := [0] }
     let l : BitVec 20 := 0
     let t : List (BitVec 20) := ((s.chan c ch).queue).tail
     s.dmaReady c = true ∧ (s.chan c ch).queue = l :: t ∧ (s.chan c ch).st = ChanSt.idle ∧ (s.chan c ch).head = none) ∧
    (let c : CoreId := c0
     let ch : Fin 8 := 0
     let s : State := headed []
     let line : BitVec 20 := ((s.chan c ch).head).getD 0
     let t : State := (s.read (lsBase c + line.toNat) 64).1
     let bs : List Byte := (s.read (lsBase c + line.toNat) 64).2.1
     let d : BitVec 512 := BitVec.ofNat 512 (leNat bs)
     s.dmaReady c = true ∧ s.dmaMay c = true ∧ (s.chan c ch).head = some line ∧ (s.chan c ch).st = ChanSt.idle ∧ (s.read (lsBase c +
       line.toNat) 64).2.2 = none ∧ descOk d = true ∧ (dBarrier d = false ∨ t.chanTx c ch false = []) ∧ dPhased d = false) ∧
    (let c : CoreId := c0
     let ch : Fin 8 := 0
     let s : State := (turning wheel (headed [(0, 22, 1), (0x34, 0, 0xFFFF)]))
     let line : BitVec 20 := ((s.chan c ch).head).getD 0
     let t : State := (s.read (lsBase c + line.toNat) 64).1
     let bs : List Byte := (s.read (lsBase c + line.toNat) 64).2.1
     let d : BitVec 512 := BitVec.ofNat 512 (leNat bs)
     s.dmaReady c = true ∧ s.dmaMay c = true ∧ (s.chan c ch).head = some line ∧ (s.chan c ch).st = ChanSt.idle ∧ (s.read (lsBase c +
       line.toNat) 64).2.2 = none ∧ descOk d = true ∧ (dBarrier d = false ∨ t.chanTx c ch false = []) ∧ dPhased d = true ∧ (t.wheel
       (dWheel d)).passed ((s.chan c ch).headFrame.get (dWheel d) 0) (dPhase d) = true) ∧
    (let c : CoreId := c0
     let ch : Fin 8 := 0
     let s : State := headed [(0, 22, 1), (0x34, 0, 0xFFFF)]
     let line : BitVec 20 := ((s.chan c ch).head).getD 0
     let t : State := (s.read (lsBase c + line.toNat) 64).1
     let bs : List Byte := (s.read (lsBase c + line.toNat) 64).2.1
     let d : BitVec 512 := BitVec.ofNat 512 (leNat bs)
     s.dmaReady c = true ∧ s.dmaMay c = true ∧ (s.chan c ch).head = some line ∧ (s.chan c ch).st = ChanSt.idle ∧ (s.read (lsBase c +
       line.toNat) 64).2.2 = none ∧ descOk d = true ∧ (dBarrier d = false ∨ t.chanTx c ch false = []) ∧ dPhased d = true ∧ (t.wheel
       (dWheel d)).passed ((s.chan c ch).headFrame.get (dWheel d) 0) (dPhase d) = false) ∧
    (let c : CoreId := c0
     let ch : Fin 8 := 0
     let s : State := flying { post with chan := 0 } (headed [(0, 21, 1)])
     let line : BitVec 20 := ((s.chan c ch).head).getD 0
     let t : State := (s.read (lsBase c + line.toNat) 64).1
     let bs : List Byte := (s.read (lsBase c + line.toNat) 64).2.1
     let d : BitVec 512 := BitVec.ofNat 512 (leNat bs)
     s.dmaReady c = true ∧ s.dmaMay c = true ∧ (s.chan c ch).head = some line ∧ (s.chan c ch).st = ChanSt.idle ∧ (s.read (lsBase c +
       line.toNat) 64).2.2 = none ∧ descOk d = true ∧ dBarrier d = true ∧ t.chanTx c ch false ≠ []) ∧
    (let c : CoreId := c0
     let ch : Fin 8 := 0
     let s : State := headed [(0, 0, 3)]
     let line : BitVec 20 := ((s.chan c ch).head).getD 0
     let bs : List Byte := (s.read (lsBase c + line.toNat) 64).2.1
     let d : BitVec 512 := BitVec.ofNat 512 (leNat bs)
     s.dmaReady c = true ∧ s.dmaMay c = true ∧ (s.chan c ch).head = some line ∧ (s.chan c ch).st = ChanSt.idle ∧ (s.read (lsBase c +
       line.toNat) 64).2.2 = none ∧ descOk d = false) ∧
    (let c : CoreId := c0
     let ch : Fin 8 := 0
     let s : State := (let s := headed []; { s with fab := { s.fab with ecc := [(lsBase c0, .double)] } })
     let line : BitVec 20 := ((s.chan c ch).head).getD 0
     let g : Nat := ((s.read (lsBase c + line.toNat) 64).2.2).getD 0
     s.dmaReady c = true ∧ s.dmaMay c = true ∧ (s.chan c ch).head = some line ∧ (s.chan c ch).st = ChanSt.idle ∧ (s.read (lsBase c +
       line.toNat) 64).2.2 = some g) ∧
    (let c : CoreId := c0
     let ch : Fin 8 := 0
     let s : State := turning wheel (chan
       { Chan.idle with st := .waitPhase, headFrame := [(0, 7)], desc := copyDesc [(0, 22, 1), (0x34, 0, 100)] })
     s.dmaReady c = true ∧ s.dmaMay c = true ∧ (s.chan c ch).st = ChanSt.waitPhase ∧ (s.wheel (dWheel (s.chan c ch).desc)).passed ((s.chan
       c ch).headFrame.get (dWheel (s.chan c ch).desc) 0) (dPhase (s.chan c ch).desc) = true) ∧
    (let c : CoreId := c0
     let ch : Fin 8 := 0
     let ep : List (Option (List Byte)) := []
     let s : State := chan { Chan.idle with st := .active, desc := copyDesc [], beat := 1 }
     let u : State := s.pumpChan c ch (some ep)
     s.dmaReady c = true ∧ (u.chan c ch).st = ChanSt.active ∧ (u.chan c ch).stopping = none ∧ (u.chan c ch).out = [] ∧ beats (u.chan c
       ch).desc ≤ (u.chan c ch).beat ∧ u.chanTx c ch true = []) ∧
    (let c : CoreId := c0
     let ch : Fin 8 := 0
     let s : State := chan { Chan.idle with stopping := some true }
     let b : Bool := true
     s.dmaReady c = true ∧ (s.chan c ch).stopping = some b ∧ s.chanTx c ch true = []) ∧
    (let src : Src := firm
     let c : CoreId := c0
     let ch : Fin 8 := 7
     let s : State := on
     s.dmaReady c = true ∧ s.mayWrite src Blk.tc c.inst = true ∧ s.reaches src (tcBase c + Reg.TC_DMACTRLc ch.val) = true ∧ ((s.chan c
       ch).st = ChanSt.error ∨ (s.chan c ch).st = ChanSt.stopped ∨ (s.chan c ch).st = ChanSt.idle ∧ (s.chan c ch).head = none)) ∧
    (let src : Src := firm
     let c : CoreId := c0
     let ch : Fin 8 := 0
     let s : State := chan { Chan.idle with st := .active }
     s.dmaReady c = true ∧ s.mayWrite src Blk.tc c.inst = true ∧ s.reaches src (tcBase c + Reg.TC_DMACTRLc ch.val) = true ∧ (s.chan c
       ch).st = ChanSt.active) ∧
    (let src : Src := firm
     let c : CoreId := c0
     let ch : Fin 8 := 0
     let s : State := chan { Chan.idle with st := .error }
     s.dmaReady c = true ∧ s.mayWrite src Blk.tc c.inst = true ∧ s.reaches src (tcBase c + Reg.TC_DMACTRLc ch.val) = true ∧ (s.chan c
       ch).st = ChanSt.error) ∧
    (let src : Src := firm
     let c : CoreId := c0
     let ch : Fin 8 := 0
     let s : State := chan { Chan.idle with st := .waitPhase }
     s.dmaReady c = true ∧ s.mayWrite src Blk.tc c.inst = true ∧ s.reaches src (tcBase c + Reg.TC_DMACTRLc ch.val) = true ∧ (s.chan c
       ch).st = ChanSt.waitPhase) ∧
    (let id : Nat := 1
     let t : Tx := { post with isRead := true, data := [1, 2, 3, 4] }
     let s : State := flying t on
     s.txOf id = some t ∧ t.isRead = true ∧ t.fail = none ∧ t.data.length = t.len) ∧
    (let id : Nat := 1
     let t : Tx := { post with isRead := true, data := [], fail := some 3 }
     let s : State := flying t on
     let code : Nat := 3
     s.txOf id = some t ∧ t.isRead = true ∧ t.fail = some code) ∧
    (let id : Nat := 1
     let t : Tx := post
     let s : State := flying t on
     s.txOf id = some t ∧ t.isRead = false ∧ t.fail = none) ∧
    (let id : Nat := 1
     let t : Tx := { post with fail := some 3 }
     let s : State := flying t on
     let code : Nat := 3
     s.txOf id = some t ∧ t.isRead = false ∧ t.fail = some code) ∧
    (let id : Nat := 1
     let t : Tx := { post with isRead := true }
     let s : State := { (flying t on) with time := { on.time with lt := 100000 } }
     s.txOf id = some t ∧ t.since + 100000 ≤ s.now ∧ t.isRead = true ∧ t.id = id) ∧
    (let id : Nat := 1
     let t : Tx := post
     let s : State := { (flying t on) with time := { on.time with lt := 100000 } }
     s.txOf id = some t ∧ t.since + 100000 ≤ s.now ∧ t.isRead = false) ∧
    (let s : State := { on with fab := { on.fab with credits := [⟨7, 6, 7, false, 0⟩] } }
     let d : Fin 8 := 7
     let p : Fin 7 := 6
     let c : Fin 8 := 7
     (∃ (x : Credit), x ∈ s.fab.credits ∧ x.die = d ∧ x.port = p ∧ x.cls = c) ∧ s.yielding (d, p) = false) ∧
    (let s : State := (let s : State := { on with fab := { on.fab with credits := [⟨7, 6, 7, false, 0⟩] } }; s.setFld .dp (portInst 7 6)
       Reg.DP_STAT 8 8 1)
     let d : Fin 8 := 7
     let p : Fin 7 := 6
     let c : Fin 8 := 7
     (∃ (x : Credit), x ∈ s.fab.credits ∧ x.die = d ∧ x.port = p ∧ x.cls = c) ∧ s.yielding (d, p) = true) ∧
    (let s : State :=
       { timed 400 on with fab := { on.fab with credits := List.replicate 1024 ⟨6, 0, 7, false, 0⟩ ++ List.replicate 1024 ⟨0, 2, 7, false, 0⟩ } }
     let p : Fin 7 := 0
     s.up (domFab 6) = true ∧ s.yielding (6, p) = false ∧ s.stuck (6, p) = true ∧ (∀ (far : Fin 8 × Fin 7), peer 6 p = some far → s.stuck
       far = true)) ∧
    (let s : State := on
     let d : Fin 8 := 0
     s.up (domFab d) = true) ∧
    (let s : State := on
     let d : Fin 8 := 0
     let p : Fin 7 := 0
     s.up (domFab d) = true ∧ (peer d p).isSome = true) ∧
    (let s : State := on
     let src : Src := firm
     let d : Fin 8 := 0
     s.reaches src (fabBase d + Reg.FAB_PWLOGPOP) = true) := by
  refine ⟨?_, ?_, ?_, ?_, ?_, ?_, ?_, ?_, ?_, ?_, ?_, ?_, ?_, ?_, ?_, ?_, ?_, ?_, ?_, ?_, ?_, ?_, ?_, ?_, ?_, ?_⟩ <;> decide +kernel

theorem witness_PostedWriteFailureIsRecorded :
    (let s : State := on
     let src : Src := host
     (s.fab.pwlog.get src.die []).length < 16) ∧
    (let s : State := { on with fab := { on.fab with pwlog := [(6, List.replicate 16 ⟨0, 1, 0, 0, 0⟩)] } }
     let src : Src := host
     16 ≤ (s.fab.pwlog.get src.die []).length) ∧
    (let s : State := on
     let src : Src := post.src
     let c : CoreId := (src.core).getD c0
     src.core = some c ∧ s.locked c.pair = false) ∧
    (let src : Src := host
     let h : Fin 16 := (src.hart).getD 0
     src.core = none ∧ src.hart = some h) := by
  refine ⟨?_, ?_, ?_, ?_⟩ <;> decide +kernel

theorem witness_RequestsComplete :
    (let src : Src := { host with die := 0 }
     let a : Addr := BitVec.ofNat 48 (csBase c0.cl)
     let s : State := on
     let n : Nat := 4
     let cl : ClusterId := c0.cl
     let off : Nat := 0
     s.local_ src (BitVec.toNat a) n false ∧ s.target (BitVec.toNat a) = Target.cs cl off ∧ (s.read (BitVec.toNat a) n).2.2 = none) ∧
    (let src : Src := { host with agent := 40 }
     let a : Addr := 0xC00000700000
     let s : State := on
     let n : Nat := 4
     let d : Fin 8 := 6
     let u : State := ((s.serve src (BitVec.toNat a) n false).cached src (BitVec.toNat a) n false).1
     s.local_ src (BitVec.toNat a) n false ∧ s.target (BitVec.toNat a) = Target.dram d ∧ s.mayServe src (BitVec.toNat a) n false = true ∧
       ((s.serve src (BitVec.toNat a) n false).cached src (BitVec.toNat a) n false).2 = false ∧ (u.read (BitVec.toNat a) n).2.2 = none) ∧
    (let src : Src := { host with die := 0 }
     let a : Addr := BitVec.ofNat 48 (tcBase c0 + Reg.TC_SIGs 31)
     let s : State := on
     let k : RegKey := ⟨.tc, 0, Reg.TC_SIGs 31⟩
     s.local_ src (BitVec.toNat a) 4 false ∧ s.target (BitVec.toNat a) = Target.reg k) ∧
    (let src : Src := { host with die := 0 }
     let a : Addr := BitVec.ofNat 48 (tcBase c0 + Reg.TC_ARRBUSY)
     let s : State := on
     let k : RegKey := ⟨.tc, 0, Reg.TC_ARRBUSY⟩
     s.local_ src (BitVec.toNat a) 4 false ∧ s.target (BitVec.toNat a) = Target.reg k ∧ isRc k = true) ∧
    (let src : Src := { host with die := 0 }
     let a : Addr := BitVec.ofNat 48 (csBase c0.cl)
     let s : State := { on with on := 0 }
     let n : Nat := 4
     let r : Refused := ⟨2, 0⟩
     src.hart = none ∧ addrDie (BitVec.toNat a) = src.die ∧ s.isPci (BitVec.toNat a) = false ∧ s.mayServe src (BitVec.toNat a) n false =
       true ∧ s.refusal src (BitVec.toNat a) n false = some r) ∧
    (let src : Src := { host with agent := 40 }
     let a : Addr := BitVec.ofNat 48 (csBase c0.cl)
     let s : State := on
     let n : Nat := 4
     src.hart = none ∧ addrDie (BitVec.toNat a) ≠ src.die ∧ s.isPci (BitVec.toNat a) = false ∧ s.mayServe src (BitVec.toNat a) n false =
       true ∧ s.trackerFree true src (BitVec.toNat a) = true ∧ (s.takeCredits src (BitVec.toNat a) 1).isSome = true) ∧
    (let src : Src := { host with die := 0 }
     let a : Addr := BitVec.ofNat 48 (csBase c0.cl)
     let s : State := on
     let data : List Byte := [1, 2, 3, 4]
     let cl : ClusterId := c0.cl
     let off : Nat := 0
     s.local_ src (BitVec.toNat a) data.length true ∧ s.target (BitVec.toNat a) = Target.cs cl off) ∧
    (let src : Src := { host with agent := 40 }
     let a : Addr := BitVec.ofNat 48 (csBase c0.cl)
     let s : State := on
     let data : List Byte := [1, 2, 3, 4]
     src.hart = none ∧ addrDie (BitVec.toNat a) ≠ src.die ∧ s.isPci (BitVec.toNat a) = false ∧ s.mayServe src (BitVec.toNat a) data.length
       true = true ∧ s.trackerFree false src (BitVec.toNat a) = true ∧ (s.takeCredits src (BitVec.toNat a) (flits true
       data.length)).isSome = true) ∧
    (let src : Src := { host with die := 0 }
     let a : Addr := BitVec.ofNat 48 (tcBase c0 + Reg.TC_SIGs 31)
     let s : State := on
     let k : RegKey := ⟨.tc, 0, Reg.TC_SIGs 31⟩
     s.local_ src (BitVec.toNat a) 4 true ∧ s.target (BitVec.toNat a) = Target.reg k ∧ inRegs (BitVec.toNat a) = true) ∧
    (let src : Src := { host with die := 0 }
     let a : Addr := BitVec.ofNat 48 (dieRegs 0 + 4)
     let s : State := on
     let k : RegKey := ⟨.die, 0, 4⟩
     s.local_ src (BitVec.toNat a) 4 true ∧ s.target (BitVec.toNat a) = Target.reg k ∧ enOff k.blk = some k.off) := by
  refine ⟨?_, ?_, ?_, ?_, ?_, ?_, ?_, ?_, ?_, ?_⟩
  · unfold State.local_; decide +kernel
  · unfold State.local_; decide +kernel
  · unfold State.local_; decide +kernel
  · unfold State.local_; decide +kernel
  · decide +kernel
  · decide +kernel
  · unfold State.local_; decide +kernel
  · decide +kernel
  · unfold State.local_; decide +kernel
  · unfold State.local_; decide +kernel

theorem witness_RegisterAccessFollowsItsKind :
    (let s : State := on
     let k : RegKey := ⟨.mc, 0, 0x18⟩
     isRc k = true ∧ s.viewOf k = none) ∧
    (let s : State := on
     let src : Src := firm
     let b : Blk := .tc
     let i : Nat := 0
     s.mayWrite src b i = true) ∧
    (let s : State := on
     let src : Src := host
     let b : Blk := .tc
     let i : Nat := 0
     s.mayWrite src b i = false) ∧
    (let s : State := on
     let src : Src := host
     let b : Blk := .pwr
     let i : Nat := 0
     b ∈ [Blk.fab, Blk.mc, Blk.dp, Blk.cad, Blk.tu, Blk.whl, Blk.fw, Blk.pwr] ∧ src.fw = false ∧ bitOf (s.reg b i 0) 0 = false) := by
  refine ⟨?_, ?_, ?_, ?_⟩ <;> decide +kernel

theorem witness_MemoryUpkeepCommandsComplete :
    (let i : Nat := 59
     let isPort : Bool := false
     arbiterOk isPort i = true) ∧
    (let s : State := on.setFld .mc 0 Reg.MC_STAT 3 0 2
     let i : Nat := 0
     mcReady s i = true) ∧
    (let s : State := on.setFld .mc 0 Reg.MC_STAT 3 0 2
     let i : Nat := 0
     mcReady s i = true ∧ s.tempDue i = true) ∧
    (let g : Nat := 0xC00000000000
     let s : State := flipped g
     let t : State :=
       { s with fab := { s.fab with ecc := s.fab.ecc.erase g, eccWb := List.filter (fun (x : Nat) => x != g) s.fab.eccWb } }
     let d : Fin 8 := 6
     g ∈ s.fab.eccWb ∧ s.fab.ecc.get? g = some EccErr.single ∧ t =
       { s with fab := { s.fab with ecc := s.fab.ecc.erase g, eccWb := List.filter (fun (x : Nat) => x != g) s.fab.eccWb } } ∧ s.target g
       = Target.dram d) ∧
    (let g : Nat := lsBase c0
     let s : State := flipped g
     let c : CoreId := c0
     let off : Nat := 0
     g ∈ s.fab.eccWb ∧ s.fab.ecc.get? g = some EccErr.single ∧ s.target g = Target.ls c off) ∧
    (let g : Nat := csBase c0.cl
     let s : State := flipped g
     let cl : ClusterId := c0.cl
     let off : Nat := 0
     g ∈ s.fab.eccWb ∧ s.fab.ecc.get? g = some EccErr.single ∧ s.target g = Target.cs cl off) := by
  refine ⟨?_, ?_, ?_, ?_, ?_, ?_⟩ <;> decide +kernel

end Sys2Proof.Tests
end

