-- ==== Sys2Proof/Tests/WitnessUnits.lean ====
section
/-! SUPPORT. States and operands that meet the hypotheses of the statements about the gateway, PCI Express, cameras, graphics, displays and Woade, clause by clause. -/

namespace Sys2Proof.Tests

open Sys2Proof.Machine

set_option Elab.async false

theorem witness_CanAndLinCommandsComplete :
    (let src : Src := firm
     let c : Fin 24 := 23
     let s : State := on
     s.reaches src (canBase c + Reg.CAN_CTRL) = true ∧ s.mayWrite src Blk.can c.val = true) ∧
    (let c : Fin 24 := 0
     let v : Word := 12
     let s : State := on.setReg .can 0 Reg.CAN_NBT 0x7D4000
     0 < bitsOf v 3 2 ∧ (s.canMode c ≠ bitsOf v 3 2 ∨ (s.can c).busOff = true) ∧ s.canBitsOk c = true) ∧
    (let c : Fin 24 := 0
     let v : Word := 4
     let s : State := on
     0 < bitsOf v 3 2 ∧ (s.canMode c ≠ bitsOf v 3 2 ∨ (s.can c).busOff = true) ∧ s.canBitsOk c = false) ∧
    (let c : Fin 24 := 0
     let s : State := canOn Can.reset 0
     let errs : Nat := 0
     (s.can c).rxErr + errs ≤ 127) ∧
    (let c : Fin 24 := 0
     let s : State := canOn { Can.reset with rxErr := 120 } 0
     let errs : Nat := 8
     127 < (s.can c).rxErr + errs) ∧
    (let c : Fin 24 := 0
     let s : State := canOn Can.reset 0
     s.gwUp = true ∧ s.canMode c ≠ 0 ∧ (s.can c).busOff = false) ∧
    (let c : Fin 24 := 0
     let f : CanFrame := frame
     let s : State := canOn Can.reset 0
     let errs : Nat := 0
     let u : State := (s.canRec c errs).count Blk.can (c.val) Reg.CAN_RXCNT 1
     s.gwUp = true ∧ s.canMode c ≠ 0 ∧ (s.can c).busOff = false ∧ u.canFilter c f = none) ∧
    (let c : Fin 24 := 0
     let f : CanFrame := frame
     let s : State := filtered 0x3001F
     let errs : Nat := 0
     let u : State := (s.canRec c errs).count Blk.can (c.val) Reg.CAN_RXCNT 1
     let i : Fin 64 := 63
     let d : Word := u.reg Blk.can (c.val) (Reg.CAN_FLTDSTf i.val)
     s.gwUp = true ∧ s.canMode c ≠ 0 ∧ (s.can c).busOff = false ∧ u.canFilter c f = some i ∧ bitOf d 16 = true) ∧
    (let c : Fin 24 := 0
     let f : CanFrame := frame
     let s : State := filtered 0x2001F
     let errs : Nat := 0
     let u : State := (s.canRec c errs).count Blk.can (c.val) Reg.CAN_RXCNT 1
     let i : Fin 64 := 63
     let d : Word := u.reg Blk.can (c.val) (Reg.CAN_FLTDSTf i.val)
     s.gwUp = true ∧ s.canMode c ≠ 0 ∧ (s.can c).busOff = false ∧ u.canFilter c f = some i ∧ bitOf d 16 = false) ∧
    (let c : Fin 24 := 0
     let s : State := canOn (canBuf none) 0
     let b : Fin 32 := 31
     let t : CanBuf := ⟨frame, none⟩
     s.gwUp = true ∧ (s.canMode c = 1 ∨ s.canMode c = 3) ∧ (s.can c).busOff = false ∧ firstBuf (s.can c).bufs = some (b, t)) ∧
    (let c : Fin 24 := 0
     let s : State := canOn (canBuf none) 0
     let corrected : Bool := false
     let u : State := if corrected = true then s.raise Blk.can (c.val) 0 0 0 else s
     let b : Fin 32 := 31
     let t : CanBuf := ⟨frame, none⟩
     s.gwUp = true ∧ (s.canMode c = 1 ∨ s.canMode c = 3) ∧ (s.can c).busOff = false ∧ firstBuf (s.can c).bufs = some (b, t) ∧ (u.fld
       Blk.can (c.val) Reg.CAN_CTRL 4 4 = 0 ∨ t.queue = none)) ∧
    (let c : Fin 24 := 0
     let s : State := canOn { canBuf none with txErr := 119 } 0
     let corrected : Bool := false
     let u : State := if corrected = true then s.raise Blk.can (c.val) 0 0 0 else s
     let b : Fin 32 := 31
     let t : CanBuf := ⟨frame, none⟩
     let x : Can := s.can c
     s.gwUp = true ∧ (s.canMode c = 1 ∨ s.canMode c = 3) ∧ (s.can c).busOff = false ∧ firstBuf (s.can c).bufs = some (b, t) ∧ (u.fld
       Blk.can (c.val) Reg.CAN_CTRL 4 4 = 0 ∨ t.queue = none) ∧ (x.txErr + 8 ≤ 127 ∨ 127 < x.txErr ∧ x.txErr + 8 ≤ 255)) ∧
    (let c : Fin 24 := 0
     let s : State := canOn { canBuf none with txErr := 120 } 0
     let corrected : Bool := false
     let u : State := if corrected = true then s.raise Blk.can (c.val) 0 0 0 else s
     let b : Fin 32 := 31
     let t : CanBuf := ⟨frame, none⟩
     let x : Can := s.can c
     s.gwUp = true ∧ (s.canMode c = 1 ∨ s.canMode c = 3) ∧ (s.can c).busOff = false ∧ firstBuf (s.can c).bufs = some (b, t) ∧ (u.fld
       Blk.can (c.val) Reg.CAN_CTRL 4 4 = 0 ∨ t.queue = none) ∧ x.txErr ≤ 127 ∧ 127 < x.txErr + 8) ∧
    (let c : Fin 24 := 0
     let s : State := canOn { canBuf none with txErr := 248 } 0
     let corrected : Bool := false
     let u : State := if corrected = true then s.raise Blk.can (c.val) 0 0 0 else s
     let b : Fin 32 := 31
     let t : CanBuf := ⟨frame, none⟩
     let x : Can := s.can c
     s.gwUp = true ∧ (s.canMode c = 1 ∨ s.canMode c = 3) ∧ (s.can c).busOff = false ∧ firstBuf (s.can c).bufs = some (b, t) ∧ (u.fld
       Blk.can (c.val) Reg.CAN_CTRL 4 4 = 0 ∨ t.queue = none) ∧ 127 < x.txErr ∧ 255 < x.txErr + 8) ∧
    (let c : Fin 24 := 0
     let s : State := canOn (canBuf (some 0)) 16
     let corrected : Bool := false
     let u : State := if corrected = true then s.raise Blk.can (c.val) 0 0 0 else s
     let b : Fin 32 := 31
     let t : CanBuf := ⟨frame, some 0⟩
     s.gwUp = true ∧ (s.canMode c = 1 ∨ s.canMode c = 3) ∧ (s.can c).busOff = false ∧ firstBuf (s.can c).bufs = some (b, t) ∧ u.fld
       Blk.can (c.val) Reg.CAN_CTRL 4 4 = 1 ∧ t.queue ≠ none) ∧
    (let c : Fin 24 := 0
     let s : State := canOn (canBuf (some 0)) 16
     let corrected : Bool := false
     let u : State := if corrected = true then s.raise Blk.can (c.val) 0 0 0 else s
     let b : Fin 32 := 31
     let t : CanBuf := ⟨frame, some 0⟩
     let x : Can := s.can c
     s.gwUp = true ∧ (s.canMode c = 1 ∨ s.canMode c = 3) ∧ (s.can c).busOff = false ∧ firstBuf (s.can c).bufs = some (b, t) ∧ u.fld
       Blk.can (c.val) Reg.CAN_CTRL 4 4 = 1 ∧ t.queue ≠ none ∧ x.txErr + 8 ≤ 127) ∧
    (let c : Fin 24 := 0
     let s : State := canOn { Can.reset with busOff := true } 2
     s.gwUp = true ∧ (s.can c).busOff = true ∧ s.canMode c ≠ 0 ∧ s.fld Blk.can (c.val) Reg.CAN_CTRL 1 1 = 1) ∧
    (let c : Fin 24 := 0
     let p : Fin 64 := 0
     let e : BitVec 512 := ent 80 [(20, 0, 0x7D4000), (36, 0, 4), (12, 2, 1)]
     let s : State := taken p e on
     let u : State := ((((((s.setFld Blk.can (c.val) Reg.CAN_CTRL 3 2 0).setReg Blk.can (c.val) Reg.CAN_INTEN (eWord e 16 &&&
       31)).canTiming c Reg.CAN_NBT (eWord e 20 &&& 4294967292)).canTiming c Reg.CAN_FDBT (eWord e 24 &&& 4294967294)).canTiming c
       Reg.CAN_XLBT (eWord e 28 &&& 4294967294)).canTiming c Reg.CAN_XLPWM (eWord e 32 &&& 16777215)).canTiming c Reg.CAN_TSCFG (eWord e
       36 &&& 7)
     s.accepts p 80 [] canSetFields true e ∧ eBits e 8 4 0 = c.val ∧ eBits e 8 9 8 = 0 ∧ eBits e 36 2 0 ≤ 4 ∧ (u.canCtrl c (eWord e
       12)).snd = true) ∧
    (let c : Fin 24 := 0
     let p : Fin 64 := 0
     let e : BitVec 512 := ent 80 [(8, 8, 1), (12, 0, 63)]
     let s : State := taken p e on
     s.accepts p 80 [] canSetFields true e ∧ eBits e 8 4 0 = c.val ∧ eBits e 8 9 8 = 1 ∧ BitVec.toNat (eWord e 12) ≤ 63) ∧
    (let c : Fin 24 := 0
     let p : Fin 64 := 0
     let e : BitVec 512 := ent 80 [(8, 8, 2), (12, 0, 31)]
     let s : State := taken p e on
     let b : Fin 32 := 31
     s.accepts p 80 [] canSetFields true e ∧ eBits e 8 4 0 = c.val ∧ eBits e 8 9 8 = 2 ∧ eWord e 12 = BitVec.ofNat 32 b.val) ∧
    (let c : Fin 8 := 0
     let s : State := linOn 10 lin
     let h : Fin 64 := 63
     let dl : Nat := 1
     s.gwUp = true ∧ s.linCommander c = true ∧ s.linMode c = 1 ∧ (s.lin c).active = true ∧ (s.lin c).started = none ∧ (s.lin c).sched[0]?
       = some (h, dl)) ∧
    (let c : Fin 8 := 0
     let s : State := { linOn 10 { lin with started := some 0 } with time := { on.time with lt := 100000 } }
     let h : Fin 64 := 63
     let dl : Nat := 1
     let n : Nat := if (s.lin c).entry + 1 < (s.lin c).sched.length then (s.lin c).entry + 1 else 0
     let t0 : Nat := 0
     s.gwUp = true ∧ s.linCommander c = true ∧ s.linMode c = 1 ∧ (s.lin c).active = true ∧ (s.lin c).started = some t0 ∧ t0 + ((s.lin
       c).sched.getD (s.lin c).entry (0, 1)).snd * 100000 ≤ s.now ∧ (s.lin c).sched[n]? = some (h, dl)) ∧
    (let c : Fin 8 := 0
     let s : State := linOn 10 { lin with header := some 60 }
     let id : Fin 64 := 60
     (s.lin c).header = some id ∧ (s.lin c).resp.get? id = none) ∧
    (let c : Fin 8 := 0
     let s : State := linOn 10 { lin with header := some 60 }
     let id : Fin 64 := 60
     let data : List Byte := [1]
     (s.lin c).header = some id ∧ (s.lin c).resp.get? id = none ∧ isSleep id data = false) ∧
    (let c : Fin 8 := 0
     let s : State := linOn 10 { lin with header := some 60 }
     let id : Fin 64 := 60
     let data : List Byte := [0]
     (s.lin c).header = some id ∧ (s.lin c).resp.get? id = none ∧ isSleep id data = true) ∧
    (let c : Fin 8 := 0
     let s : State := linOn 10 { lin with header := some 63, resp := [(63, (none, [1]))] }
     let id : Fin 64 := 63
     let own : Option Bool × List Byte := (none, [1])
     (s.lin c).header = some id ∧ (s.lin c).resp.get? id = some own ∧ isSleep id own.snd = false) ∧
    (let c : Fin 8 := 0
     let s : State := linOn 2 lin
     s.gwUp = true ∧ s.linCommander c = false ∧ s.linMode c = 1) ∧
    (let c : Fin 8 := 0
     let s : State := linOn 4 lin
     s.gwUp = true ∧ s.linMode c = 2) ∧
    (let c : Fin 8 := 0
     let p : Fin 64 := 0
     let e : BitVec 512 := ent 81 [(12, 1, 1), (16, 0, 20000)]
     let s : State := taken p e on
     s.accepts p 81 [] linSetFields true e ∧ eBits e 8 2 0 = c.val ∧ eBits e 8 9 8 = 0 ∧ ((s.setReg Blk.lin (c.val) Reg.LIN_BAUD (eWord e
       16 &&& 32767)).linCtrl c (eWord e 12)).snd = true) ∧
    (let c : Fin 8 := 0
     let p : Fin 64 := 0
     let e : BitVec 512 := ent 81 [(8, 8, 1), (16, 0, 0xC00000700000)]
     let s : State := taken p e on
     let data : List Byte := ((s.fwRead (p.val == 1) (eAddr e 16) 256).2).getD []
     s.accepts p 81 [] linSetFields true e ∧ eBits e 8 2 0 = c.val ∧ eBits e 8 9 8 = 1 ∧ (s.fwRead (p.val == 1) (eAddr e 16) 256).2 = some
       data) ∧
    (let c : Fin 8 := 0
     let p : Fin 64 := 0
     let e : BitVec 512 := ent 81 [(8, 8, 2)]
     let s : State := taken p e (linOn 10 lin)
     s.accepts p 81 [] linSetFields true e ∧ eBits e 8 2 0 = c.val ∧ eBits e 8 9 8 = 2 ∧ s.linCommander c = true ∧ s.linMode c = 1 ∧
       (s.lin c).sched ≠ []) ∧
    (let c : Fin 8 := 0
     let p : Fin 64 := 0
     let e : BitVec 512 := ent 81 [(8, 8, 3)]
     let s : State := taken p e on
     s.accepts p 81 [] linSetFields true e ∧ eBits e 8 2 0 = c.val ∧ eBits e 8 9 8 = 3) := by
  refine ⟨?_, ?_, ?_, ?_, ?_, ?_, ?_, ?_, ?_, ?_, ?_, ?_, ?_, ?_, ?_, ?_, ?_, ?_, ?_, ?_, ?_, ?_, ?_, ?_, ?_, ?_, ?_, ?_, ?_, ?_, ?_, ?_⟩
  · decide +kernel
  · decide +kernel
  · decide +kernel
  · decide +kernel
  · decide +kernel
  · decide +kernel
  · decide +kernel
  · decide +kernel
  · decide +kernel
  · decide +kernel
  · decide +kernel
  · decide +kernel
  · decide +kernel
  · decide +kernel
  · decide +kernel
  · decide +kernel
  · decide +kernel
  · unfold State.accepts; decide +kernel
  · unfold State.accepts; decide +kernel
  · unfold State.accepts; decide +kernel
  · decide +kernel
  · decide +kernel
  · decide +kernel
  · decide +kernel
  · decide +kernel
  · decide +kernel
  · decide +kernel
  · decide +kernel
  · unfold State.accepts; decide +kernel
  · unfold State.accepts; decide +kernel
  · unfold State.accepts; decide +kernel
  · unfold State.accepts; decide +kernel

theorem witness_SwitchCommandsComplete :
    (let p : Fin 14 := 0
     let bytes : List Byte := List.replicate 9212 0
     let s : State := switched on
     s.gwUp = true ∧ s.portEnabled p = true ∧ s.portLink p = true ∧ 60 ≤ bytes.length ∧ bytes.length ≤ 9212 ∧ ethType bytes ≠ 34824) ∧
    (let p : Fin 14 := 0
     let bytes : List Byte := List.replicate 59 0
     let s : State := switched on
     s.gwUp = true ∧ s.portEnabled p = true ∧ s.portLink p = true ∧ (bytes.length < 60 ∨ 9212 < bytes.length ∨ ethType bytes = 34824)) ∧
    (let p : Fin 14 := 13
     let q : Fin 8 := 7
     let f : EthFrame := eth none
     let s : State := { on with gw := { on.gw with egress := [((13, 7), [eth none])] } }
     let t : List EthFrame := (s.egressQ p q).tail
     s.gwUp = true ∧ s.egressQ p q = f :: t ∧ f.queue = none) ∧
    (let p : Fin 14 := 13
     let q : Fin 8 := 7
     let f : EthFrame := eth (some 31)
     let s : State := { on with gw := { on.gw with egress := [((13, 7), [eth (some 31)])] } }
     let t : List EthFrame := (s.egressQ p q).tail
     let i : Fin 32 := 31
     s.gwUp = true ∧ s.egressQ p q = f :: t ∧ f.queue = some i) ∧
    (let s : State := on
     s.gwUp = true) ∧
    (let src : Src := firm
     let v : Word := 0x80000000
     let s : State := on
     s.reaches src (vehRegs 28311552 + Reg.SW_MDIOCMD) = true ∧ s.mayWrite src Blk.sw 0 = true ∧ bitOf v 31 = true ∧ s.gw.mdio = none) ∧
    (let m : Mdio := { master := 0, op := 0, phy := 0, dev := 0, data := 0 }
     let s : State := { on with gw := { on.gw with mdio := some m } }
     s.gw.mdio = some m) ∧
    (let src : Src := firm
     let i : Fin 32 := 31
     let s : State := on
     s.reaches src (vehRegs 29360128 + Reg.GW_QDBi i.val) = true) ∧
    (let i : Fin 32 := 0
     let s : State := queued { gwq with done := some (0, 5, 6) } on
     let err : Nat := 0
     let stamp : Word := 5
     let ctrl : Word := 6
     (s.gwq i).done = some (err, stamp, ctrl) ∧ (s.gwq i).st = 1) ∧
    (let i : Fin 32 := 0
     let r : RxDone := { ctrl := 0, len := 64, err := 0, port := 0, stamp := 0 }
     let s : State := queued { gwq with rx := [r] } on
     let t1 : List RxDone := ((s.gwq i).rx).tail
     (s.gwq i).rx = r :: t1 ∧ (s.gwq i).st = 1) ∧
    (let n : Fin 8192 := 8191
     let y : Pdu := pdu
     let s : State := { on with time := { on.time with lt := 10000000 } }.setPdu 8191 y
     s.pdu n = some y ∧ s.gwUp = true ∧ y.period ≠ 0 ∧ y.target = false ∧ y.timedOut = false ∧ y.lastRx + y.period * 100000 ≤ s.now) ∧
    (let n : Fin 8192 := 8191
     let y : Pdu := { pdu with target := true }
     let s : State := on.setPdu 8191 y
     s.pdu n = some y ∧ s.gwUp = true ∧ y.period ≠ 0 ∧ y.target = true ∧ y.txmode = 1 ∧ s.now / 100000 % y.period = y.phase % y.period ∧
       y.lastSent ≠ some (s.now / 100000)) ∧
    (let i : Fin 32 := 0
     let s : State := queued gwq on
     let d : List Byte := ((s.unitRead (s.queueSrc i) ((s.gwq i).descAt (s.gwq i).next) 16).2).getD []
     s.gwUp = true ∧ (s.gwq i).st = 1 ∧ isTxQueue i = true ∧ (s.gwq i).fly = none ∧ (s.gwq i).done = none ∧ (s.unitRead (s.queueSrc i)
       ((s.gwq i).descAt (s.gwq i).next) 16).2 = some d ∧ bitOf (dCtrl d) 31 = false) ∧
    (let i : Fin 32 := 0
     let s : State := words 0xC00000700000 [(0, 0x800000), (4, 0x10C000), (8, 0x80000000)] (queued gwq on)
     let d : List Byte := ((s.unitRead (s.queueSrc i) ((s.gwq i).descAt (s.gwq i).next) 16).2).getD []
     let u : State := (s.unitRead (s.queueSrc i) ((s.gwq i).descAt (s.gwq i).next) 16).1
     let bs : List Byte := ((u.unitRead (u.queueSrc i) (dBuf d) (dLen d)).2).getD []
     s.gwUp = true ∧ (s.gwq i).st = 1 ∧ isTxQueue i = true ∧ (s.gwq i).fly = none ∧ (s.gwq i).done = none ∧ (s.unitRead (s.queueSrc i)
       ((s.gwq i).descAt (s.gwq i).next) 16).2 = some d ∧ bitOf (dCtrl d) 31 = true ∧ (u.unitRead (u.queueSrc i) (dBuf d) (dLen d)).2 =
       some bs ∧ (s.gwq i).kind = 0) ∧
    (let i : Fin 32 := 0
     let s : State := words 0xC00000700000 [(0, 0x800000), (4, 0x10C000), (8, 0x80000000)] (queued { gwq with kind := 1 } on)
     let d : List Byte := ((s.unitRead (s.queueSrc i) ((s.gwq i).descAt (s.gwq i).next) 16).2).getD []
     let u : State := (s.unitRead (s.queueSrc i) ((s.gwq i).descAt (s.gwq i).next) 16).1
     let bs : List Byte := ((u.unitRead (u.queueSrc i) (dBuf d) (dLen d)).2).getD []
     s.gwUp = true ∧ (s.gwq i).st = 1 ∧ isTxQueue i = true ∧ (s.gwq i).fly = none ∧ (s.gwq i).done = none ∧ (s.unitRead (s.queueSrc i)
       ((s.gwq i).descAt (s.gwq i).next) 16).2 = some d ∧ bitOf (dCtrl d) 31 = true ∧ (u.unitRead (u.queueSrc i) (dBuf d) (dLen d)).2 =
       some bs ∧ (s.gwq i).kind = 1) ∧
    (let i : Fin 32 := 0
     let s : State := words 0xC00000700000 [(0, 0x800000), (4, 0x10C000), (8, 0x80000000)] (queued { gwq with kind := 2 } on)
     let d : List Byte := ((s.unitRead (s.queueSrc i) ((s.gwq i).descAt (s.gwq i).next) 16).2).getD []
     let u : State := (s.unitRead (s.queueSrc i) ((s.gwq i).descAt (s.gwq i).next) 16).1
     let bs : List Byte := ((u.unitRead (u.queueSrc i) (dBuf d) (dLen d)).2).getD []
     s.gwUp = true ∧ (s.gwq i).st = 1 ∧ isTxQueue i = true ∧ (s.gwq i).fly = none ∧ (s.gwq i).done = none ∧ (s.unitRead (s.queueSrc i)
       ((s.gwq i).descAt (s.gwq i).next) 16).2 = some d ∧ bitOf (dCtrl d) 31 = true ∧ (u.unitRead (u.queueSrc i) (dBuf d) (dLen d)).2 =
       some bs ∧ (s.gwq i).kind ≠ 0 ∧ (s.gwq i).kind ≠ 1) := by
  refine ⟨?_, ?_, ?_, ?_, ?_, ?_, ?_, ?_, ?_, ?_, ?_, ?_, ?_, ?_, ?_, ?_⟩
  all_goals decide +kernel

theorem witness_GatewayRingCommandsComplete :
    (let p : Fin 64 := 0
     let e : BitVec 512 := ent 82 [(8, 0, 13), (12, 28, 4)]
     let n : Nat := eBits e 8 3 0
     let s : State := taken p e on
     s.accepts p 82 [] [(8, 3, 0), (12, 31, 25), (12, 11, 0), (16, 23, 0), (20, 7, 0), (24, 47, 0)] true e ∧ n ≤ 13 ∧ (n < 8 → bitsOf
       (eWord e 12) 30 28 ≤ 4) ∧ (8 ≤ n → n < 10 → bitsOf (eWord e 12) 30 28 ≤ 1)) ∧
    (let p : Fin 64 := 0
     let e : BitVec 512 := ent 83 [(8, 0, 4094), (8, 30, 1)]
     let s : State := taken p e on
     let vid : BitVec 12 := BitVec.ofNat 12 (eBits e 8 11 0)
     s.accepts p 83 [] [(8, 11, 0), (8, 30, 16)] true e ∧ vid ≠ 0 ∧ vid ≠ 4095 ∧ eBits e 8 30 30 = 1) ∧
    (let p : Fin 64 := 0
     let e : BitVec 512 := ent 83 [(8, 0, 1)]
     let s : State := taken p e on
     let vid : BitVec 12 := BitVec.ofNat 12 (eBits e 8 11 0)
     s.accepts p 83 [] [(8, 11, 0), (8, 30, 16)] true e ∧ vid ≠ 0 ∧ vid ≠ 4095 ∧ eBits e 8 30 30 = 0) ∧
    (let p : Fin 64 := 0
     let e : BitVec 512 := ent 84 [(8, 0, 4), (16, 0, 0xC00000700000)]
     let k : Nat := eBits e 8 8 0
     let s : State := taken p e on
     let bs : List Byte := ((s.fwRead (p.val == 1) (eAddr e 16) (16 * k)).2).getD []
     let es : List (BitVec 128) := List.map (BitVec.ofNat 128) (unpack 16 k bs)
     let u : State := (s.fwRead (p.val == 1) (eAddr e 16) (16 * k)).1
     0 < k ∧ k ≤ 256 ∧ (s.fwRead (p.val == 1) (eAddr e 16) (16 * k)).2 = some bs ∧ s.accepts p 84 [] flowFields true e ∧ es.all flowOk =
       true ∧ (State.flowPlaceAll es u 0).2.2 = true) ∧
    (let p : Fin 64 := 0
     let e : BitVec 512 := ent 85 [(8, 0, 1), (16, 0, 0xC00000700000)]
     let k : Nat := eBits e 8 8 0
     let s : State := taken p e on
     let bs : List Byte := ((s.fwRead (p.val == 1) (eAddr e 16) (16 * k)).2).getD []
     0 < k ∧ k ≤ 256 ∧ (s.fwRead (p.val == 1) (eAddr e 16) (16 * k)).2 = some bs ∧ s.accepts p 85 [] flowFields true e) ∧
    (let p : Fin 64 := 0
     let e : BitVec 512 := ent 86 [(16, 0, 0xC00000700000), (24, 0, 0xC00000700040)]
     let s : State := taken p e ({ on with gw := { on.gw with flows := [(3, 0)] } })
     let bs : List Byte := ((s.fwRead (p.val == 1) (eAddr e 16) 16).2).getD []
     let u : State := (s.fwRead (p.val == 1) (eAddr e 16) 16).1
     let w : Nat := 3
     let x : BitVec 128 := 0
     s.accepts p 86 [] [(16, 47, 0), (24, 47, 0)] true e ∧ eAddr e 24 % 64 = 0 ∧ (s.fwRead (p.val == 1) (eAddr e 16) 16).2 = some bs ∧
       u.flowFind (flowKey (BitVec.ofNat 128 (leNat bs))) = some (w, x)) ∧
    (let p : Fin 64 := 0
     let e : BitVec 512 := ent 87 [(8, 0, 8191), (8, 16, 1)]
     let s : State := taken p e on
     let i : Fin 8192 := Fin.ofNat 8192 (eBits e 8 12 0)
     s.accepts p 87 [] [(8, 12, 0), (8, 25, 16), (16, 47, 0)] true e ∧ eBits e 8 17 17 = 0 ∧ eBits e 8 16 16 = 1 ∧ s.pduInUse i = false) ∧
    (let p : Fin 64 := 0
     let e : BitVec 512 := ent 87 [(8, 0, 8191), (16, 0, 0xC00000700000)]
     let s : State := taken p e (words 0xC00000700000 [(0, 8)] on)
     let bs : List Byte := ((s.fwRead (p.val == 1) (eAddr e 16) 16).2).getD []
     let u : State := (s.fwRead (p.val == 1) (eAddr e 16) 16).1
     let i : Fin 8192 := Fin.ofNat 8192 (eBits e 8 12 0)
     let y : Pdu := (parsePdu bs 0 u.now).getD pdu
     s.accepts p 87 [] [(8, 12, 0), (8, 25, 16), (16, 47, 0)] true e ∧ eBits e 8 17 17 = 0 ∧ eBits e 8 16 16 = 0 ∧ (s.fwRead (p.val == 1)
       (eAddr e 16) 16).2 = some bs ∧ parsePdu bs 0 u.now = some y ∧ u.pduInUse i = false ∧ (¬(y.target = true ∧ y.bus = 0))) ∧
    (let p : Fin 64 := 0
     let e : BitVec 512 := ent 87 [(8, 0, 8191), (16, 0, 0xC00000700000)]
     let s : State := taken p e (words 0xC00000700000 [(0, 0x1000008)] on)
     let u : State := (s.fwRead (p.val == 1) (eAddr e 16) 16).1
     let i : Fin 8192 := Fin.ofNat 8192 (eBits e 8 12 0)
     let bs : List Byte := ((s.fwRead (p.val == 1) (eAddr e 16) 16).2).getD []
     let y : Pdu := (parsePdu bs 0 u.now).getD pdu
     let k : Nat := (u.freeCanSlot y.ctrl i).getD 0
     s.accepts p 87 [] [(8, 12, 0), (8, 25, 16), (16, 47, 0)] true e ∧ eBits e 8 17 17 = 0 ∧ eBits e 8 16 16 = 0 ∧ (s.fwRead (p.val == 1)
       (eAddr e 16) 16).2 = some bs ∧ parsePdu bs 0 u.now = some y ∧ u.pduInUse i = false ∧ y.target = true ∧ y.bus = 0 ∧ u.freeCanSlot
       y.ctrl i = some k) ∧
    (let p : Fin 64 := 0
     let e : BitVec 512 := ent 87 [(8, 0, 255), (8, 16, 3)]
     let s : State := taken p e on
     s.accepts p 87 [] [(8, 12, 0), (8, 25, 16), (16, 47, 0)] true e ∧ eBits e 8 17 17 = 1 ∧ eBits e 8 16 16 = 1) ∧
    (let p : Fin 64 := 0
     let e : BitVec 512 := ent 87 [(8, 17, 1), (16, 0, 0xC00000700000)]
     let s : State := taken p e on
     let bs : List Byte := ((s.fwRead (p.val == 1) (eAddr e 16) 62).2).getD []
     s.accepts p 87 [] [(8, 12, 0), (8, 25, 16), (16, 47, 0)] true e ∧ eBits e 8 17 17 = 1 ∧ eBits e 8 16 16 = 0 ∧ (s.fwRead (p.val == 1)
       (eAddr e 16) 62).2 = some bs ∧ headerLen bs ≤ 62) ∧
    (let p : Fin 64 := 0
     let e : BitVec 512 := ent 88 [(8, 0, 65535), (8, 16, 1), (16, 0, 0xC00000700000)]
     let k : Nat := eBits e 8 26 16
     let n : Nat := eBits e 8 15 0
     let s : State := taken p e on
     let bs : List Byte := ((s.fwRead (p.val == 1) (eAddr e 16) (16 * k)).2).getD []
     let es : List (BitVec 128) := List.map (BitVec.ofNat 128) (unpack 16 k bs)
     let u : State := (s.fwRead (p.val == 1) (eAddr e 16) (16 * k)).1
     let t : State := installRoutes u es n
     s.accepts p 88 [] [(8, 26, 0), (16, 47, 0)] true e ∧ 0 < k ∧ k ≤ 1024 ∧ n + k ≤ 65536 ∧ (s.fwRead (p.val == 1) (eAddr e 16) (16 *
       k)).2 = some bs ∧ firstBad u es n = none ∧ overFull t es n = none) ∧
    (let p : Fin 64 := 0
     let e : BitVec 512 := ent 88 [(8, 16, 1), (16, 0, 0xC00000700000)]
     let k : Nat := eBits e 8 26 16
     let n : Nat := eBits e 8 15 0
     let s : State := taken p e (words 0xC00000700000 [(4, 1)] on)
     let bs : List Byte := ((s.fwRead (p.val == 1) (eAddr e 16) (16 * k)).2).getD []
     let es : List (BitVec 128) := List.map (BitVec.ofNat 128) (unpack 16 k bs)
     let u : State := (s.fwRead (p.val == 1) (eAddr e 16) (16 * k)).1
     let i : Nat := 0
     s.accepts p 88 [] [(8, 26, 0), (16, 47, 0)] true e ∧ 0 < k ∧ k ≤ 1024 ∧ n + k ≤ 65536 ∧ (s.fwRead (p.val == 1) (eAddr e 16) (16 *
       k)).2 = some bs ∧ firstBad u es n = some i) ∧
    (let p : Fin 64 := 0
     let e : BitVec 512 := ent 89 []
     let s : State := taken p e on
     s.accepts p 89 [] [(8, 4, 0), (8, 18, 8), (12, 11, 0), (12, 19, 16), (16, 47, 0)] true e ∧ eBits e 8 8 8 = 0) ∧
    (let p : Fin 64 := 0
     let e : BitVec 512 := ent 89 [(8, 8, 1), (8, 16, 6), (12, 16, 12)]
     let s : State := taken p e on
     let i : Fin 32 := Fin.ofNat 32 (eBits e 8 4 0)
     s.accepts p 89 [] [(8, 4, 0), (8, 18, 8), (12, 11, 0), (12, 19, 16), (16, 47, 0)] true e ∧ eBits e 8 8 8 = 1 ∧ eBits e 8 10 9 ≠ 3 ∧
       (eBits e 8 10 9 = 1 → eBits e 8 15 11 ≤ 23) ∧ (eBits e 8 10 9 = 2 → eBits e 8 15 11 ≤ 7) ∧ eBits e 8 18 16 ≠ 0 ∧ eBits e 8 18 16 ≠
       7 ∧ 4 ≤ eBits e 12 19 16 ∧ eBits e 12 19 16 ≤ 12 ∧ eAddr e 16 % 16 = 0 ∧ (eBits e 12 11 0 ≠ 0 → s.ctxLive (BitVec.ofNat 12 (eBits e
       12 11 0)) = true ∧ s.ctxWorld (BitVec.ofNat 12 (eBits e 12 11 0)) = decide (i.val / 16 = 1))) := by
  refine ⟨?_, ?_, ?_, ?_, ?_, ?_, ?_, ?_, ?_, ?_, ?_, ?_, ?_, ?_, ?_⟩
  all_goals (unfold State.accepts; decide +kernel)

theorem witness_PcieCommandsComplete :
    (let src : Src := host
     let a : Addr := BitVec.ofNat 48 pciAt
     let len : Nat := 4
     let s : State := on
     s.isPci (BitVec.toNat a) = true ∧ s.gw.pciYield = false ∧ s.refusal src (BitVec.toNat a) len false = none ∧ (s.pciTx true).length <
       256 ∧ s.trackerFree true src (BitVec.toNat a) = true ∧ s.mayCross src (BitVec.toNat a) len false = true ∧ (s.takeCredits src
       (BitVec.toNat a) (flits false len)).isSome = true) ∧
    (let src : Src := host
     let a : Addr := BitVec.ofNat 48 pciAt
     let data : List Byte := [1, 2, 3, 4]
     let s : State := linkUp on
     s.isPci (BitVec.toNat a) = true ∧ s.gw.pciYield = false ∧ s.refusal src (BitVec.toNat a) data.length true = none ∧ s.pciUp = true ∧
       (s.pciTx false).length < 64 ∧ s.trackerFree false src (BitVec.toNat a) = true ∧ s.mayCross src (BitVec.toNat a) data.length true =
       true ∧ (s.takeCredits src (BitVec.toNat a) (flits true data.length)).isSome = true) ∧
    (let src : Src := host
     let a : Addr := BitVec.ofNat 48 pciAt
     let data : List Byte := [1, 2, 3, 4]
     let s : State := on
     s.isPci (BitVec.toNat a) = true ∧ s.gw.pciYield = false ∧ s.refusal src (BitVec.toNat a) data.length true = none ∧ s.pciUp = false) ∧
    (let id : Nat := 1
     let t : Tx := { post with isRead := true, addr := pciAt }
     let s : State := { (flying t on) with time := { on.time with lt := 50000 } }
     s.txOf id = some t ∧ t.isRead = true ∧ s.isPci t.addr = true ∧ t.since + 50000 ≤ s.now) ∧
    (let s : State := linkUp on
     s.up 103 = true ∧ s.fld Blk.pci 0 Reg.PCI_STAT 31 28 ≠ 0) ∧
    (let a : Addr := 0
     let len : Nat := 0
     let s : State := linkUp on
     s.pciUp = true ∧ s.gw.pciInQ = [] ∧ s.pciWindow (BitVec.toNat a) len = none) ∧
    (let a : Addr := 0
     let data : List Byte := []
     let s : State := linkUp on
     s.pciUp = true ∧ s.gw.pciInQ = [] ∧ s.pciWindow (BitVec.toNat a) data.length = none) ∧
    (let a : Addr := 0
     let len : Nat := 4
     let w : Fin 8 := 0
     let s : State := windowed 0x80000000
     s.pciUp = true ∧ s.gw.pciInQ = [] ∧ s.pciWindow (BitVec.toNat a) len = some w) ∧
    (let a : Addr := 0
     let data : List Byte := [1, 2, 3, 4]
     let w : Fin 8 := 0
     let s : State := windowed 0x80000000
     s.pciUp = true ∧ s.gw.pciInQ = [] ∧ s.pciWindow (BitVec.toNat a) data.length = some w ∧ bitOf (s.winAttr w) 30 = false ∧ s.mayCross
       (s.winSrc w) (BitVec.toNat a) data.length true = true) ∧
    (let a : Addr := 0
     let data : List Byte := [1, 2, 3, 4]
     let w : Fin 8 := 0
     let s : State := windowed 0xC0000000
     s.pciUp = true ∧ s.pciWindow (BitVec.toNat a) data.length = some w ∧ s.gw.pciInQ.length < 64 ∧ bitOf (s.winAttr w) 30 = true) ∧
    (let a : Addr := 0
     let data : List Byte := [1, 2, 3, 4]
     let w : Fin 8 := 0
     let s : State := (let s := windowed 0x80000000; { s with gw := { s.gw with pciInQ := [(host, 0, [])] } })
     s.pciUp = true ∧ s.pciWindow (BitVec.toNat a) data.length = some w ∧ s.gw.pciInQ.length < 64 ∧ bitOf (s.winAttr w) 30 = false ∧
       (s.gw.pciInQ ≠ [] ∨ s.mayCross (s.winSrc w) (BitVec.toNat a) data.length true = false)) ∧
    (let s : State :=
       { timed 400 (linkUp on) with fab := { on.fab with tx := List.replicate 64 { post with addr := pciAt } }, gw := { (linkUp on).gw with pciInQ := List.replicate 64 (host, 0, []) } }
     s.pciUp = true ∧ s.gw.pciYield = false ∧ 64 ≤ (s.pciTx false).length ∧ 64 ≤ s.gw.pciInQ.length ∧ s.gw.pciCredAt + 400 ≤ s.now) ∧
    (let p : Fin 64 := 0
     let e : BitVec 512 := ent 90 []
     let w : Fin 8 := Fin.ofNat 8 (eBits e 8 2 0)
     let s : State := taken p e on
     let ctx : BitVec 12 := BitVec.ofNat 12 (eBits e 8 27 16)
     s.accepts p 90 [] [(8, 2, 0), (8, 13, 8), (8, 27, 16), (16, 47, 0), (24, 63, 0)] true e ∧ (eBits e 8 8 8 = 0 ∨ eAddr e 16 % 4096 = 0
       ∧ eAddr e 24 % 4096 = 0 ∧ eAddr e 24 ≠ 0 ∧ eAddr e 16 + eAddr e 24 ≤ 2 ^ 48 ∧ (ctx ≠ 0 → s.ctxLive ctx = true ∧ s.ctxWorld ctx =
       (eBits e 8 10 10 == 1)) ∧ ∀ (x : Fin 8), x ≠ w → bitOf (s.winAttr x) 31 = true → s.winBase x + s.winSize x ≤ eAddr e 16 ∨ eAddr e
       16 + eAddr e 24 ≤ s.winBase x)) ∧
    (let p : Fin 64 := 0
     let e : BitVec 512 := ent 91 []
     let s : State := taken p e (on.setFld .pci 0 Reg.PCI_CTRL 1 1 0)
     s.accepts p 91 [] [(8, 1, 0)] true e ∧ eBits e 8 1 0 = 0 ∧ s.perst = false ∧ s.up 103 = true) ∧
    (let p : Fin 64 := 0
     let e : BitVec 512 := ent 91 []
     let s : State := taken p e on
     s.accepts p 91 [] [(8, 1, 0)] true e ∧ eBits e 8 1 0 = 0) ∧
    (let p : Fin 64 := 0
     let e : BitVec 512 := ent 91 [(8, 0, 1)]
     let s : State := taken p e on
     s.accepts p 91 [] [(8, 1, 0)] true e ∧ eBits e 8 1 0 = 1) ∧
    (let p : Fin 64 := 0
     let e : BitVec 512 := ent 91 [(8, 0, 2)]
     let s : State := taken p e on
     s.accepts p 91 [] [(8, 1, 0)] true e ∧ eBits e 8 1 0 = 2) := by
  refine ⟨?_, ?_, ?_, ?_, ?_, ?_, ?_, ?_, ?_, ?_, ?_, ?_, ?_, ?_, ?_, ?_, ?_⟩
  · decide +kernel
  · decide +kernel
  · decide +kernel
  · decide +kernel
  · decide +kernel
  · decide +kernel
  · decide +kernel
  · decide +kernel
  · decide +kernel
  · decide +kernel
  · decide +kernel
  · decide +kernel
  · unfold State.accepts; decide +kernel
  · unfold State.accepts; decide +kernel
  · unfold State.accepts; decide +kernel
  · unfold State.accepts; decide +kernel
  · unfold State.accepts; decide +kernel

theorem witness_CameraCommandsComplete :
    (let r : Fin 16 := 0
     let s : State := on
     s.up (camDomain r) = true) ∧
    (let r : Fin 16 := 15
     let vc : Fin 16 := 15
     let sid : Fin 64 := 63
     let s : State := filmed cam on
     s.up (camDomain r) = true ∧ s.streamsOf r vc = [sid]) ∧
    (let sid : Fin 64 := 63
     let x : Machine.Stream := { cam with ended := [rx] }
     let s : State := filmed x on
     let f : FrameRx := rx
     let t : List FrameRx := (x.ended).tail
     s.stream sid = some x ∧ x.ended = f :: t) ∧
    (let sid : Fin 64 := 63
     let x : Machine.Stream := { cam with cur := some rx }
     let s : State := turning wheel (filmed x on)
     let f : FrameRx := rx
     s.stream sid = some x ∧ x.cur = some f ∧ x.ended = [] ∧ f.late = false ∧ s.dueBegun x f = true) ∧
    (let p : Fin 64 := 0
     let e : BitVec 512 := ent 104 [(8, 0, 63)]
     let s : State := taken p e on
     s.accepts p 104 [] [(8, 5, 0), (8, 8, 8), (12, 7, 0), (16, 47, 0)] true e ∧ eBits e 8 8 8 = 0) ∧
    (let e : BitVec 512 := ent 104 [(8, 0, 63), (8, 8, 1), (12, 0, 4), (16, 0, 0xC00000700000)]
     let sid : Fin 64 := Fin.ofNat 64 (eBits e 8 5 0)
     let p : Fin 64 := 0
     let s : State := taken p e (words 0xC00000700000 [(0, 0x43535431), (4, 0x3FEA0000), (8, 0x80010), (12, 0x90020004), (16, 0x700000),
       (20, 0xE000), (40, 64), (44, 512), (48, 0x800000), (52, 0xE000), (56, 0x14000)] on)
     let bs : List Byte := ((s.fwRead (p.val == 1) (eAddr e 16) 64).2).getD []
     let x : Machine.Stream := (parseStream sid bs).getD cam
     let u : State := (s.fwRead (p.val == 1) (eAddr e 16) 64).1
     s.accepts p 104 [] [(8, 5, 0), (8, 8, 8), (12, 7, 0), (16, 47, 0)] true e ∧ eBits e 8 8 8 = 1 ∧ (s.fwRead (p.val == 1) (eAddr e 16)
       64).2 = some bs ∧ parseStream sid bs = some x ∧ (eBits e 12 2 0 = 1 ∨ eBits e 12 2 0 = 2 ∨ eBits e 12 2 0 = 4) ∧ u.stream sid =
       none ∧ (List.any u.media.streams fun (o : Fin 64 × Machine.Stream) => sidRecv o.fst == sidRecv sid && o.snd.vc == x.vc && o.snd.dt
       == x.dt) = false ∧ (x.ctx ≠ 0 → u.ctxLive x.ctx = true) ∧ ispFits (x :: List.map (fun (x : Fin 64 × Machine.Stream) => x.snd)
       u.media.streams) = true) ∧
    (let e : BitVec 512 := ent 105 [(8, 0, 63)]
     let sid : Fin 64 := Fin.ofNat 64 (eBits e 8 5 0)
     let x : Machine.Stream := cam
     let p : Fin 64 := 0
     let s : State := taken p e (filmed cam on)
     s.accepts p 105 [] [(8, 5, 0), (16, 47, 0)] true e ∧ s.stream sid = some x ∧ x.isp = true) ∧
    (let sid : Fin 64 := 63
     let x : Machine.Stream := cam
     let s : State := filmed cam on
     s.stream sid = some x ∧ (s.wheel x.wheel).going = false) ∧
    (let sid : Fin 64 := 63
     let x : Machine.Stream := cam
     let s : State := turning wheel (filmed cam on)
     s.stream sid = some x ∧ (s.wheel x.wheel).going = true) := by
  refine ⟨?_, ?_, ?_, ?_, ?_, ?_, ?_, ?_, ?_⟩
  · decide +kernel
  · decide +kernel
  · decide +kernel
  · decide +kernel
  · unfold State.accepts; decide +kernel
  · unfold State.accepts; decide +kernel
  · unfold State.accepts; decide +kernel
  · decide +kernel
  · decide +kernel

theorem witness_GraphicsCommandsComplete :
    (let src : Src := firm
     let q : Fin 16 := 15
     let s : State := on
     s.reaches src (mediaRegs 17825792 + Reg.GFX_QDBq q.val) = true) ∧
    (let q : Fin 16 := 15
     let s : State := words 0xE00000700000 [(4, 0x80000000)] (drawing 15 { gfxq with pass := none } on)
     let bs : List Byte := ((s.unitRead (s.gfxSrc q 56) (s.gfx q).entryAt 32).2).getD []
     s.rasterUp = true ∧ (s.gfx q).st ≠ 0 ∧ (s.gfx q).pass = none ∧ (s.unitRead (s.gfxSrc q 56) (s.gfx q).entryAt 32).2 = some bs ∧ bitOf
       (BitVec.ofNat 32 (leNat (List.take 4 (List.drop 4 bs)))) 31 = true) ∧
    (let q : Fin 16 := 15
     let ps : Pass := pass
     let s : State := drawing 15 gfxq on
     (s.gfx q).pass = some ps ∧ s.rasterUp = true ∧ ps.started = false ∧ (s.gfx q).st = 1 ∧ s.gfxRunning = none ∧ s.waitMet ps = true) ∧
    (let q : Fin 16 := 15
     let ps : Pass := pass
     let d : PassDesc := pass.desc
     let po : Pool := ⟨0, 4, 0⟩
     let s : State := { drawing 15 gfxq on with media := { (drawing 15 gfxq on).media with pools := [(0, ⟨0, 4, 0⟩)] } }
     (s.gfx q).pass = some ps ∧ s.rasterUp = true ∧ ps.started = false ∧ (s.gfx q).st = 1 ∧ s.gfxRunning = none ∧ s.waitMet ps = true ∧
       d.ok = true ∧ s.pool (s.gfx q).ctx = some po) ∧
    (let q : Fin 16 := 15
     let ps : Pass := { pass with started := true }
     let acts : List GfxAct := []
     let s : State := drawing 15 { gfxq with st := 2, pass := some ps } on
     let pt : Pass := (s.renderRest q ps acts).2
     (s.gfx q).pass = some ps ∧ s.rasterUp = true ∧ ps.started = true ∧ (s.gfx q).st = 2 ∧ s.heldPass ps = false ∧ ps.desc.present = none
       ∧ ps.res = 0 ∧ pt.desc = ps.desc) ∧
    (let q : Fin 16 := 15
     let ps : Pass := { pass with started := true, desc := { pass.desc with present := some (5, 3, 3) } }
     let acts : List GfxAct := []
     let s : State := drawing 15 { gfxq with st := 2, pass := some ps } on
     let pt : Pass := (s.renderRest q ps acts).2
     let pr : Fin 6 × Fin 4 × Fin 4 := (5, 3, 3)
     (s.gfx q).pass = some ps ∧ s.rasterUp = true ∧ ps.started = true ∧ (s.gfx q).st = 2 ∧ s.heldPass ps = false ∧ ps.desc.present = some
       pr ∧ ps.res = 0 ∧ pt.desc = ps.desc) ∧
    (let q : Fin 16 := 15
     let ps : Pass := { pass with started := true, res := 1 }
     let s : State := drawing 15 { gfxq with st := 2, pass := some ps } on
     let pt : Pass := (s.spoil q ps).2
     (s.gfx q).pass = some ps ∧ s.rasterUp = true ∧ ps.started = true ∧ (s.gfx q).st = 2 ∧ s.heldPass ps = false ∧ ps.desc.present = none
       ∧ ps.res = 1 ∧ pt.desc = ps.desc) ∧
    (let q : Fin 16 := 15
     let ps : Pass := { pass with started := true, res := 2 }
     let s : State := drawing 15 { gfxq with st := 2, pass := some ps } on
     (s.gfx q).pass = some ps ∧ s.rasterUp = true ∧ ps.started = true ∧ (s.gfx q).st = 2 ∧ s.heldPass ps = false ∧ ps.desc.present = none
       ∧ ps.res = 2) ∧
    (let c : Fin 16 := 0
     let ps : Pass := { pass with started := true }
     let s : State := drawing 15 { gfxq with compositor := true } (drawing 0 { gfxq with st := 2, pass := some ps } on)
     let x : Fin 16 × GfxQueue := (15, { gfxq with compositor := true })
     List.find? (fun (e : Fin 16 × GfxQueue) => e.snd.compositor && e.snd.st == 1 && (Option.map (fun (ps : Pass) => !ps.started &&
       s.waitMet ps) e.snd.pass).getD false) s.media.gfx = some x ∧ s.gfxRunning = some c ∧ (s.gfx c).pass = some ps ∧ ps.res = 0 ∧
       ps.desc.draws = true) ∧
    (let c : Fin 16 := 0
     let ps : Pass := { pass with started := true, desc := { pass.desc with draws := false } }
     let s : State := drawing 15 { gfxq with compositor := true } (drawing 0 { gfxq with st := 2, pass := some ps } on)
     let x : Fin 16 × GfxQueue := (15, { gfxq with compositor := true })
     List.find? (fun (e : Fin 16 × GfxQueue) => e.snd.compositor && e.snd.st == 1 && (Option.map (fun (ps : Pass) => !ps.started &&
       s.waitMet ps) e.snd.pass).getD false) s.media.gfx = some x ∧ s.gfxRunning = some c ∧ (s.gfx c).pass = some ps ∧ ps.desc.draws =
       false) ∧
    (let p : Fin 64 := 0
     let e : BitVec 512 := ent 106 [(8, 0, 15)]
     let s : State := taken p e on
     s.accepts p 106 [] [(8, 3, 0), (8, 9, 8), (8, 18, 16), (8, 27, 24), (12, 11, 0), (16, 47, 0)] true e ∧ eBits e 8 8 8 = 0) ∧
    (let e : BitVec 512 := ent 106 [(8, 0, 15), (8, 8, 1), (8, 16, 4), (8, 24, 12)]
     let q : Fin 16 := Fin.ofNat 16 (eBits e 8 3 0)
     let p : Fin 64 := 0
     let ctx : BitVec 12 := BitVec.ofNat 12 (eBits e 12 11 0)
     let s : State := taken p e on
     s.accepts p 106 [] [(8, 3, 0), (8, 9, 8), (8, 18, 16), (8, 27, 24), (12, 11, 0), (16, 47, 0)] true e ∧ eBits e 8 8 8 = 1 ∧ (eBits e 8
       18 16 = 3 ∨ eBits e 8 18 16 = 4) ∧ 4 ≤ eBits e 8 27 24 ∧ eBits e 8 27 24 ≤ 12 ∧ eAddr e 16 % 32 = 0 ∧ (eBits e 8 9 9 = 1 →
       (List.any s.media.gfx fun (o : Fin 16 × GfxQueue) => o.fst != q && o.snd.compositor && o.snd.st != 0) = false) ∧ (ctx ≠ 0 →
       s.ctxLive ctx = true) ∧ s.mayUse p ctx = true) ∧
    (let p : Fin 64 := 0
     let e : BitVec 512 := ent 107 [(16, 0, 0)]
     let ctx : BitVec 12 := BitVec.ofNat 12 (eBits e 8 11 0)
     let s : State := taken p e on
     s.accepts p 107 [] [(8, 11, 0), (16, 47, 0), (24, 31, 0)] true e ∧ (ctx ≠ 0 → s.ctxLive ctx = true) ∧ s.mayUse p ctx = true ∧
       s.ctxPass ctx = false) ∧
    (let q : Fin 16 := 15
     let s : State := on
     (s.gfx q).compositor = false) := by
  refine ⟨?_, ?_, ?_, ?_, ?_, ?_, ?_, ?_, ?_, ?_, ?_, ?_, ?_, ?_⟩
  · decide +kernel
  · decide +kernel
  · decide +kernel
  · decide +kernel
  · decide +kernel
  · decide +kernel
  · decide +kernel
  · decide +kernel
  · decide +kernel
  · decide +kernel
  · unfold State.accepts; decide +kernel
  · unfold State.accepts; decide +kernel
  · unfold State.accepts; decide +kernel
  · decide +kernel

theorem witness_TilesAndTexturesFollowTheirLayout :
    (let log : Fin 5 := 0
     let i : Nat := 0
     i < pageW log) ∧
    (let log : Fin 5 := 0
     let i : Nat := 0
     i < pageH log) ∧
    (let s : State := words 0xC00000700000 [(0, 1)] on
     let src : Src := host
     let ps : Pass := pass
     let t : Nat := 0
     let a : Attach := { base := 0, stride := 64, bpp := 4, op := .load, store := true, flags := some 0xC00000700000, clear := [] }
     ps.flushed.contains t = false ∧ a.op = LoadOp.load ∧ (s.flagged src a t).2 = true) ∧
    (let s : State := on
     let src : Src := host
     let t : Texture := texture
     let res : Addr := 0xC00000700000
     let fb : Addr := 0xC00000701000
     let x : Nat := 0
     let y : Nat := 0
     let bs : List Byte := (s.passRead src (BitVec.toNat res + t.page x y / 8) 1).2
     t.sparse = some (res, fb) ∧ mapBit bs (t.page x y) = false) := by
  refine ⟨?_, ?_, ?_, ?_⟩
  all_goals decide +kernel

theorem witness_DisplayAndCodecCommandsComplete :
    (let o : Fin 6 := 5
     let s : State := (shown 3 on).setReg .dsp 5 Reg.DSP_LATCH 1
     s.dspUp o = true ∧ s.curLine o = s.latchLine o) ∧
    (let o : Fin 6 := 5
     let s : State := shown 2 on
     s.dspUp o = true ∧ s.curLine o = s.vActive o) ∧
    (let o : Fin 6 := 5
     let s : State := shown 0 on
     s.dspUp o = true) ∧
    (let o : Fin 6 := 5
     let arrived : Bool := false
     let s : State := shown 3 on
     let l : Nat := s.curLine o
     let v : State := s
     let ok : Bool := true
     s.dspUp o = true ∧ 0 < l ∧ (s.vActive o ≤ l ∧ (v, ok) = (s, true) ∨ l < s.vActive o ∧ s.composeLine o arrived l = (v, ok))) ∧
    (let o : Fin 6 := 5
     let p : Fin 64 := 0
     let e : BitVec 512 := ent 108 [(8, 0, 5)]
     let s : State := taken p e on
     s.accepts p 108 [] [(8, 2, 0), (8, 8, 8), (12, 31, 0), (16, 2, 0), (20, 31, 0), (24, 31, 0), (28, 7, 0)] true e ∧ eBits e 8 2 0 =
       o.val ∧ eBits e 8 8 8 = 0) ∧
    (let o : Fin 6 := 5
     let p : Fin 64 := 0
     let e : BitVec 512 := ent 108 [(8, 0, 5), (8, 8, 1), (12, 0, 1), (12, 26, 4), (12, 29, 2), (20, 0, 1), (20, 16, 1), (24, 0, 1), (24,
       16, 2)]
     let s : State := taken p e on
     s.accepts p 108 [] [(8, 2, 0), (8, 8, 8), (12, 31, 0), (16, 2, 0), (20, 31, 0), (24, 31, 0), (28, 7, 0)] true e ∧ eBits e 8 2 0 =
       o.val ∧ eBits e 8 8 8 = 1 ∧ dspCfgOk (o.val) (eWord e 12) (eWord e 20) (eWord e 24) = true) ∧
    (let o : Fin 6 := 5
     let p : Fin 64 := 0
     let e : BitVec 512 := ent 109 [(8, 0, 5), (8, 4, 3)]
     let s : State := taken p e on
     s.accepts p 109 [] [(8, 2, 0), (8, 5, 4), (8, 9, 8), (12, 11, 0), (16, 47, 0)] true e ∧ eBits e 8 2 0 = o.val ∧ eBits e 8 8 8 = 0) ∧
    (let o : Fin 6 := 5
     let p : Fin 64 := 0
     let e : BitVec 512 := ent 109 [(8, 0, 5), (8, 4, 3), (8, 8, 3)]
     let r : PlaneRec := plane
     let ctx : BitVec 12 := BitVec.ofNat 12 (eBits e 12 11 0)
     let s : State := taken p e on
     s.accepts p 109 [] [(8, 2, 0), (8, 5, 4), (8, 9, 8), (12, 11, 0), (16, 47, 0)] true e ∧ eBits e 8 2 0 = o.val ∧ eBits e 8 8 8 = 1 ∧
       r.ok (decide (eBits e 8 9 9 = 1)) = true ∧ (ctx ≠ 0 → s.ctxLive ctx = true) ∧ s.mayUse p ctx = true) ∧
    (let p : Fin 64 := 0
     let e : BitVec 512 := ent 110 [(8, 0, 15)]
     let s : State := taken p e on
     s.accepts p 110 [] [(8, 3, 0), (8, 12, 8), (12, 11, 0), (16, 31, 0), (24, 47, 0)] true e ∧ eBits e 8 8 8 = 0) ∧
    (let p : Fin 64 := 0
     let e : BitVec 512 := ent 110 [(8, 0, 15), (8, 8, 1), (8, 10, 6), (16, 0, 1000)]
     let j : Fin 16 := Fin.ofNat 16 (eBits e 8 3 0)
     let ctx : BitVec 12 := BitVec.ofNat 12 (eBits e 12 11 0)
     let s : State := taken p e on
     s.accepts p 110 [] [(8, 3, 0), (8, 12, 8), (12, 11, 0), (16, 31, 0), (24, 47, 0)] true e ∧ eBits e 8 8 8 = 1 ∧ eBits e 8 12 10 ≠ 0 ∧
       eBits e 8 12 10 ≠ 7 ∧ eAddr e 24 % 16 = 0 ∧ BitVec.toNat (eWord e 16) + List.foldl (fun (x1 x2 : Nat) => x1 + x2) 0 (List.map (fun
       (o : Fin 16 × Codec) => o.snd.rate) (List.filter (fun (o : Fin 16 × Codec) => o.fst != j && o.snd.encode == decide (eBits e 8 9 9 =
       1)) s.media.codecs)) ≤ codecMax (decide (eBits e 8 9 9 = 1)) ∧ (ctx ≠ 0 → s.ctxLive ctx = true) ∧ s.mayUse p ctx = true) ∧
    (let j : Fin 16 := 15
     let x : Codec := codec
     let s : State := { on with media := { on.media with codecs := [(15, codec)] } }
     let src : Src := { die := 7, agent := 80, world := s.ctxWorld x.ctx, ctx := x.ctx, gen := s.gen x.ctx, cls := x.cls, fw := false }
     let a : Nat := x.ring + x.next % (Config.codecLast + 1) * 16
     let d : List Byte := ((s.unitRead src a 16).2).getD []
     let c : Word := BitVec.ofNat 32 (leNat (List.take 4 (List.drop 8 d)))
     s.media.codecs.get? j = some x ∧ s.up 115 = true ∧ (s.unitRead src a 16).2 = some d ∧ bitOf c 31 = false) ∧
    (let j : Fin 16 := 15
     let x : Codec := codec
     let s : State := words 0xE00000700000 [(0, 0x800000), (4, 0xE000), (8, 0x80000000)]
       { on with media := { on.media with codecs := [(15, codec)] } }
     let src : Src := { die := 7, agent := 80, world := s.ctxWorld x.ctx, ctx := x.ctx, gen := s.gen x.ctx, cls := x.cls, fw := false }
     let a : Nat := x.ring + x.next % (Config.codecLast + 1) * 16
     let d : List Byte := ((s.unitRead src a 16).2).getD []
     let c : Word := BitVec.ofNat 32 (leNat (List.take 4 (List.drop 8 d)))
     let out : List Byte := [1]
     let err : Fin 4 := 0
     s.media.codecs.get? j = some x ∧ s.up 115 = true ∧ (s.unitRead src a 16).2 = some d ∧ bitOf c 31 = true ∧ err ≠ 3 ∧ out ≠ []) := by
  refine ⟨?_, ?_, ?_, ?_, ?_, ?_, ?_, ?_, ?_, ?_, ?_, ?_⟩
  · decide +kernel
  · decide +kernel
  · decide +kernel
  · decide +kernel
  · unfold State.accepts; decide +kernel
  · unfold State.accepts; decide +kernel
  · unfold State.accepts; decide +kernel
  · unfold State.accepts; decide +kernel
  · unfold State.accepts; decide +kernel
  · unfold State.accepts; decide +kernel
  · decide +kernel
  · decide +kernel

theorem witness_WoadeLinkCommandsComplete :
    (let s : State := { on with wde := { on.wde with round := 5 } }
     s.wdeUp = true ∧ s.roundNow ≠ s.wde.round) ∧
    (let s : State := { on with wde := { on.wde with slot := 5 } }
     let j : Nat := s.slotNow
     s.wdeUp = true ∧ s.roundNow = s.wde.round ∧ j ≠ s.wde.slot) ∧
    (let p : Fin 8 := 7
     let mt : Maint := { stamp := 0, echo := some (0, 0), hb := none }
     let s : State := wired (wport 2) on
     let u : State := (s.setWport p ({ s.wport p with got := some (mt.stamp, s.slotTime) })).count Blk.wdp (p.val) Reg.WDP_RXFLITp 1
     let sent : Nat := 0
     let echoed : Nat := 0
     let offset : Int := linkOffset sent echoed mt.stamp u.slotTime
     s.wportUp p = true ∧ mt.echo = some (sent, echoed) ∧ mt.hb = none ∧ offset.natAbs ≤ 30) ∧
    (let p : Fin 8 := 7
     let mt : Maint := { stamp := 1000, echo := some (0, 0), hb := none }
     let s : State := wired (wport 2) on
     let u : State := (s.setWport p ({ s.wport p with got := some (mt.stamp, s.slotTime) })).count Blk.wdp (p.val) Reg.WDP_RXFLITp 1
     let sent : Nat := 0
     let echoed : Nat := 0
     let offset : Int := linkOffset sent echoed mt.stamp u.slotTime
     s.wportUp p = true ∧ mt.echo = some (sent, echoed) ∧ mt.hb = none ∧ 30 < offset.natAbs) ∧
    (let p : Fin 8 := 7
     let h : Heartbeat := { dev := 1, pkg := 3, ready := true, word := 0 }
     let mt : Maint := { stamp := 0, echo := none, hb := some h }
     let s : State :=
       { (wired (wport 2) on) with wde := { (wired (wport 2) on).wde with pair := { on.wde.pair with enabled := true, partner := 1 } } }
     s.wportUp p = true ∧ 6 ≤ p.val ∧ mt.echo = none ∧ mt.hb = some h ∧ s.wde.pair.enabled = true ∧ h.dev = s.wde.pair.partner ∧ h.ready =
       true ∧ h.pkg.toNat = pkREADY) ∧
    (let p : Fin 8 := 7
     let s : State := wired (wport 2) on
     let u : State := (s.count Blk.wdp (p.val) Reg.WDP_FECUEp 1).wdeRaise 1 (p.val) 0
     let l : List Nat := List.take 16 (u.now :: (u.wport p).lostAt)
     s.wportUp p = true ∧ l.length < 16) ∧
    (let p : Fin 8 := 7
     let s : State := wired { wport 2 with lostAt := List.replicate 15 0 } on
     let u : State := (s.count Blk.wdp (p.val) Reg.WDP_FECUEp 1).wdeRaise 1 (p.val) 0
     let l : List Nat := List.take 16 (u.now :: (u.wport p).lostAt)
     let w : State := u.setWport p ({ u.wport p with lostAt := l })
     let t1 : Nat := 0
     s.wportUp p = true ∧ l[15]? = some t1 ∧ w.now ≤ t1 + 10000) ∧
    (let p : Fin 8 := 7
     let x : Flit := flit
     let s : State := wired { wport 2 with replay := [flit] } on
     let k : Fin 256 := 0
     s.wportUp p = true ∧ (s.wport p).replay[k.val]? = some x) ∧
    (let p : Fin 8 := 7
     let even : Fin 5 := 0
     let odd : Fin 5 := 0
     let n : Nat := even.val + odd.val
     let x : Flit := flit
     let s : State := wired (wport 2) on
     let u : State := if n = 0 then s.count Blk.wdp (p.val) Reg.WDP_RXFLITp 1 else ((s.count Blk.wdp (p.val) Reg.WDP_RXFLITp 1).count
       Blk.wdp (p.val) Reg.WDP_FECCp n).wdeRaise 0 (p.val) 0
     s.wportUp p = true ∧ x.dst = u.wdeId) ∧
    (let p : Fin 8 := 7
     let even : Fin 5 := 1
     let odd : Fin 5 := 0
     let n : Nat := even.val + odd.val
     let x : Flit := { flit with dst := 1, sched := true }
     let s : State := wired (wport 2) on
     let u : State := if n = 0 then s.count Blk.wdp (p.val) Reg.WDP_RXFLITp 1 else ((s.count Blk.wdp (p.val) Reg.WDP_RXFLITp 1).count
       Blk.wdp (p.val) Reg.WDP_FECCp n).wdeRaise 0 (p.val) 0
     s.wportUp p = true ∧ x.dst ≠ u.wdeId ∧ x.sched = true) ∧
    (let p : Fin 8 := 7
     let even : Fin 5 := 0
     let odd : Fin 5 := 1
     let n : Nat := even.val + odd.val
     let x : Flit := { flit with dst := 512 }
     let s : State := { (on.setReg .wde 0 Reg.WDE_TOPO 0x3000000) with wde := { on.wde with ports := [(7, wport 2), (0, wport 2)] } }
     let u : State := if n = 0 then s.count Blk.wdp (p.val) Reg.WDP_RXFLITp 1 else ((s.count Blk.wdp (p.val) Reg.WDP_RXFLITp 1).count
       Blk.wdp (p.val) Reg.WDP_FECCp n).wdeRaise 0 (p.val) 0
     let o : Fin 8 := 0
     s.wportUp p = true ∧ x.dst ≠ u.wdeId ∧ x.sched = false ∧ u.wdeRoute x.dst = WHop.port o ∧ u.wportUp o = true) ∧
    (let p : Fin 8 := 7
     let s : State := wired (wport 2) on
     s.wportUp p = true) ∧
    (let p : Fin 8 := 7
     let s : State := wired (wport 2) on
     s.wportUp p = true) ∧
    (let m : WRx := { message with bytes := [] }
     let s : State := { on with wde := { on.wde with ready := [m] } }
     let t : List WRx := (s.wde.ready).tail
     s.wde.ready = m :: t ∧ m.bytes.length < 16) ∧
    (let m : WRx := { message with bytes := leBytes 4 0 ++ leBytes 4 1 ++ zeros 8 }
     let s : State := { on with wde := { on.wde with ready := [m] } }
     let t : List WRx := (s.wde.ready).tail
     s.wde.ready = m :: t ∧ 16 ≤ m.bytes.length ∧ m.bytes.length < 16 + bitsOf (BitVec.ofNat 32 (leNat (List.take 4 (List.drop 4
       m.bytes)))) 12 0) ∧
    (let m : WRx := message
     let s : State := { on with wde := { on.wde with ready := [m] } }
     let t : List WRx := (s.wde.ready).tail
     let u : State := s.setWde ({ s.wde with ready := t })
     let len : Nat := bitsOf (BitVec.ofNat 32 (leNat (List.take 4 (List.drop 4 m.bytes)))) 12 0
     let data : List Byte := List.take len (List.drop 16 m.bytes)
     s.wde.ready = m :: t ∧ 16 ≤ m.bytes.length ∧ 16 + len ≤ m.bytes.length ∧ crc32c (List.take 12 m.bytes ++ data) = BitVec.ofNat 32
       (leNat (List.take 4 (List.drop 12 m.bytes))) ∧ (u.seqCheck (BitVec.ofNat 14 (bitsOf (BitVec.ofNat 32 (leNat (List.take 4 (List.drop
       0 m.bytes)))) 29 16)) (Fin.ofNat 256 (bitsOf (BitVec.ofNat 32 (leNat (List.take 4 (List.drop 4 m.bytes)))) 31 24)) (BitVec.ofNat 16
       (bitsOf (BitVec.ofNat 32 (leNat (List.take 4 (List.drop 8 m.bytes)))) 15 0))).2 = 0) ∧
    (let q : Fin 16 := 15
     let src : Src := firm
     let s : State := on
     s.reaches src (vehRegs 31457280 + Reg.WDE_SQDBq q.val) = true) ∧
    (let q : Fin 16 := 15
     let fl : WFlow := flow
     let y : WSq := { st := 1, flow := 0, n := 4, base := 0xC00000700000, next := 1, wb := 0, done := [(0, 5)] }
     let s : State := { on with wde := { on.wde with sqs := [(15, y)], flows := [(0, flow)] } }
     let a : Nat := y.base + y.wb % 2 ^ y.n * 16
     let u : State := (s.unitRead (s.wdeSrc fl.ctx fl.cls) a 16).1
     let err : Nat := 0
     let stamp : Word := 5
     let t1 : List (Nat × Word) := []
     let d : List Byte := ((s.unitRead (s.wdeSrc fl.ctx fl.cls) a 16).2).getD []
     s.wde.sqs.get? q = some y ∧ y.done = (err, stamp) :: t1 ∧ s.wflow y.flow = some fl ∧ (s.unitRead (s.wdeSrc fl.ctx fl.cls) a 16).2 =
       some d ∧ (u.unitWriteOk (s.wdeSrc fl.ctx fl.cls) a (List.take 8 d ++ leBytes 4 (bitsOf (BitVec.ofNat 32 (leNat (List.take 4
       (List.drop 8 d)))) 29 29 * 2 ^ 29 + bitsOf (BitVec.ofNat 32 (leNat (List.take 4 (List.drop 8 d)))) 30 30 * 2 ^ 30 + if err = 0 then
       0 else 2 ^ 28 + err * 2 ^ 24) ++ leBytes 4 (if err = 0 then BitVec.toNat stamp else 0))).2 = true) ∧
    (let p : Fin 8 := 7
     let s : State := wired (wport 1) on
     s.wdeUp = true ∧ (s.wport p).st = 1) ∧
    (let p : Fin 8 := 7
     let s : State := timed 30000000 (wired (wport 1) on)
     s.wdeUp = true ∧ (s.wport p).st = 1 ∧ (s.wport p).since + 30000000 ≤ s.now) ∧
    (let p : Fin 8 := 7
     let s : State := timed 1000000000 (wired (wport 3) on)
     s.wdeUp = true ∧ (s.wport p).st = 3 ∧ (s.wport p).since + 1000000000 ≤ s.now) ∧
    (let p : Fin 8 := 0
     let f : Fin 256 := 254
     let g : WMsg := { bytes := zeros 16, off := 0, sq := none, wait := 0 }
     let fl : WFlow := { flow with dev := 512, buf := [g] }
     let s : State := timed 1000000 ({ on with wde := { on.wde with flows := [(254, fl)] } }.setReg .wde 0 Reg.WDE_TOPO 0x3000000)
     let t1 : List WMsg := (fl.buf).tail
     s.wdeUp = true ∧ s.wflow f = some fl ∧ s.wdeRoute fl.dev = WHop.port p ∧ fl.buf = g :: t1 ∧ g.wait + 1000000 ≤ s.now ∧ (s.wportUp p =
       false ∨ fl.sched = false)) ∧
    (let f : Fin 256 := 254
     let g : WMsg := { bytes := zeros 16, off := 0, sq := none, wait := 0 }
     let fl : WFlow := { flow with dev := 512, buf := [g] }
     let s : State := timed 1000000 { on with wde := { on.wde with flows := [(254, fl)] } }
     let t1 : List WMsg := (fl.buf).tail
     s.wdeUp = true ∧ s.wflow f = some fl ∧ s.wdeRoute fl.dev = WHop.nowhere ∧ fl.buf = g :: t1) ∧
    (let s : State := timed 100000 { on with wde := { on.wde with pair := { on.wde.pair with enabled := true } } }
     s.wdeUp = true ∧ (∀ (r : Fin 8), 6 ≤ r.val → (s.wport r).st ≠ 2 ∧ (s.wport r).downAt + 100000 ≤ s.now) ∧ s.wde.pair.enabled = true ∧
       s.wde.pair.lost = false) := by
  refine ⟨?_, ?_, ?_, ?_, ?_, ?_, ?_, ?_, ?_, ?_, ?_, ?_, ?_, ?_, ?_, ?_, ?_, ?_, ?_, ?_, ?_, ?_, ?_, ?_⟩
  all_goals decide +kernel

theorem witness_WoadeRingCommandsComplete :
    (let p : Fin 64 := 0
     let e : BitVec 512 := ent 96 []
     let s : State := taken p e (on.setReg .tu 0 (Reg.TU_DdCTRL 0) 0x80000000)
     s.accepts p 96 [] [(8, 13, 0), (12, 4, 0), (12, 12, 8), (12, 19, 16), (12, 25, 24)] true e ∧ s.domEnabled (Fin.ofNat 4 (eBits e 12 25
       24)) = true ∧ s.wdeBound = false) ∧
    (let p : Fin 64 := 0
     let e : BitVec 512 := ent 97 [(8, 0, 7)]
     let n : Fin 8 := Fin.ofNat 8 (eBits e 8 2 0)
     let s : State := taken p e (wired (wport 2) on)
     s.accepts p 97 [] [(8, 2, 0), (8, 8, 8)] true e ∧ eBits e 8 8 8 = 0 ∧ (s.wport n).st = 2) ∧
    (let p : Fin 64 := 0
     let e : BitVec 512 := ent 97 [(8, 0, 7)]
     let n : Fin 8 := Fin.ofNat 8 (eBits e 8 2 0)
     let s : State := taken p e on
     s.accepts p 97 [] [(8, 2, 0), (8, 8, 8)] true e ∧ eBits e 8 8 8 = 0 ∧ (s.wport n).st ≠ 2) ∧
    (let p : Fin 64 := 0
     let e : BitVec 512 := ent 97 [(8, 0, 7), (8, 8, 1)]
     let n : Fin 8 := Fin.ofNat 8 (eBits e 8 2 0)
     let s : State := taken p e on
     s.accepts p 97 [] [(8, 2, 0), (8, 8, 8)] true e ∧ eBits e 8 8 8 = 1 ∧ s.wdeUp = true ∧ (s.wport n).st = 0) ∧
    (let p : Fin 64 := 0
     let e : BitVec 512 := ent 97 [(8, 0, 7), (8, 8, 1)]
     let n : Fin 8 := Fin.ofNat 8 (eBits e 8 2 0)
     let s : State := taken p e (wired (wport 2) on)
     s.accepts p 97 [] [(8, 2, 0), (8, 8, 8)] true e ∧ eBits e 8 8 8 = 1 ∧ (s.wport n).st = 2) ∧
    (let p : Fin 64 := 0
     let e : BitVec 512 := ent 98 [(8, 0, 254)]
     let f : Fin 256 := Fin.ofNat 256 (eBits e 8 7 0)
     let s : State := taken p e on
     s.accepts p 98 [] [(8, 9, 0), (8, 18, 16), (12, 11, 0), (16, 13, 0), (16, 21, 16)] true e ∧ f ≠ 255 ∧ eBits e 8 8 8 = 0 ∧ (List.any
       s.wde.sqs fun (q : Fin 16 × WSq) => q.snd.flow == f) = false) ∧
    (let p : Fin 64 := 0
     let e : BitVec 512 := ent 98 [(8, 0, 254), (8, 8, 1)]
     let f : Fin 256 := Fin.ofNat 256 (eBits e 8 7 0)
     let ctx : BitVec 12 := BitVec.ofNat 12 (eBits e 12 11 0)
     let s : State := taken p e on
     s.accepts p 98 [] [(8, 9, 0), (8, 18, 16), (12, 11, 0), (16, 13, 0), (16, 21, 16)] true e ∧ f ≠ 255 ∧ eBits e 8 8 8 = 1 ∧ (ctx ≠ 0 →
       s.ctxLive ctx = true) ∧ s.mayUse p ctx = true) ∧
    (let p : Fin 64 := 0
     let e : BitVec 512 := ent 100 [(8, 0, 15)]
     let s : State := taken p e on
     s.accepts p 100 [] [(8, 3, 0), (8, 8, 8), (8, 23, 16), (12, 3, 0), (16, 47, 0)] true e ∧ eBits e 8 8 8 = 0) ∧
    (let p : Fin 64 := 0
     let e : BitVec 512 := ent 100 [(8, 0, 15), (8, 8, 1), (12, 0, 12)]
     let f : Fin 256 := Fin.ofNat 256 (eBits e 8 23 16)
     let y : WFlow := flow
     let s : State := taken p e ({ on with wde := { on.wde with flows := [(0, flow)] } })
     s.accepts p 100 [] [(8, 3, 0), (8, 8, 8), (8, 23, 16), (12, 3, 0), (16, 47, 0)] true e ∧ eBits e 8 8 8 = 1 ∧ 4 ≤ eBits e 12 3 0 ∧
       eBits e 12 3 0 ≤ 12 ∧ eAddr e 16 % 16 = 0 ∧ s.wflow f = some y) ∧
    (let p : Fin 64 := 0
     let e : BitVec 512 := ent 101 [(8, 0, 63)]
     let s : State := taken p e on
     s.accepts p 101 [] [(8, 5, 0), (8, 8, 8), (8, 18, 16), (8, 27, 24), (12, 11, 0), (16, 47, 0), (24, 13, 0), (24, 29, 16)] true e ∧
       eBits e 8 8 8 = 0) ∧
    (let p : Fin 64 := 0
     let e : BitVec 512 := ent 101 [(8, 0, 63), (8, 8, 1), (8, 24, 12)]
     let ctx : BitVec 12 := BitVec.ofNat 12 (eBits e 12 11 0)
     let s : State := taken p e on
     s.accepts p 101 [] [(8, 5, 0), (8, 8, 8), (8, 18, 16), (8, 27, 24), (12, 11, 0), (16, 47, 0), (24, 13, 0), (24, 29, 16)] true e ∧
       eBits e 8 8 8 = 1 ∧ 4 ≤ eBits e 8 27 24 ∧ eBits e 8 27 24 ≤ 12 ∧ eAddr e 16 % 16 = 0 ∧ (ctx ≠ 0 → s.ctxLive ctx = true) ∧ s.mayUse
       p ctx = true) ∧
    (let p : Fin 64 := 0
     let e : BitVec 512 := ent 102 [(8, 0, 0)]
     let s : State := taken p e on
     s.accepts p 102 [] [(8, 8, 8), (8, 3, 0), (12, 13, 0)] true e ∧ eBits e 8 8 8 = 0) ∧
    (let p : Fin 64 := 0
     let e : BitVec 512 := ent 102 [(8, 8, 1), (8, 0, 15), (12, 0, 1)]
     let s : State := taken p e on
     s.accepts p 102 [] [(8, 8, 8), (8, 3, 0), (12, 13, 0)] true e ∧ eBits e 8 8 8 = 1 ∧ eBits e 8 3 0 ≠ 0 ∧ BitVec.ofNat 14 (eBits e 12
       13 0) ≠ s.wdeId) := by
  refine ⟨?_, ?_, ?_, ?_, ?_, ?_, ?_, ?_, ?_, ?_, ?_, ?_, ?_⟩
  all_goals (unfold State.accepts; decide +kernel)

/-- What serving a request leaves alone. -/
def rest (s : State) := (s.mem, s.fab.ecc, s.cpu)
theorem foldl_keep {α β γ : Type} (f : α → γ → α) (g : α → β) (h : ∀ x y, g (f x y) = g x) (l : List γ) (x : α) : g (l.foldl f x) = g x := by
  induction l generalizing x with
  | nil => rfl
  | cons y l ih => rw [List.foldl_cons, ih, h]
theorem shareSlot_rest (s : State) (b : Blk) (i : Nat) (l : List (Fin 32)) : rest (s.shareSlot b i l).1 = rest s := by
  simp only [State.shareSlot]
  split
  · rfl
  · split <;> exact foldl_keep _ rest (fun x y => by split; rfl; split <;> rfl) _ s
theorem serveAt_rest (s : State) (b : Blk) (i : Nat) (src : Src) (n k : Nat) : rest (s.serveAt b i src n k) = rest s := by
  rw [← foldl_keep (fun (t : State) (_ : Nat) => (t.shareSlot b i [s.shEntry b i src]).1) rest (fun _ _ => shareSlot_rest _ _ _ _) (List.range k) s]
  rfl

theorem memRead_empty (a n : Nat) : memRead [] a n = List.replicate n 0 := by
  induction n generalizing a with
  | zero => rfl
  | succ n ih => rw [memRead, ih]; rfl

theorem schedEntry_zero (k : Fin 8192) : schedBad (schedEntry (List.replicate 16384 0) k) = false := by
  have h : (((List.replicate 16384 (0 : Byte)).drop (2 * k.val)).take 2) = [0, 0] := by
    rw [List.drop_replicate, List.take_replicate, Nat.min_eq_left (by omega)]; rfl
  simp only [schedEntry, h]; rw [show BitVec.ofNat 32 (leNat [(0 : Byte), 0]) = 0 from rfl]; simp [schedBad, bitsOf, bitOf, nbits]

/-- A read of firmware from its own die, no cache holding a line, no error in a word. -/
theorem fwRead_zero (s : State) (world : Bool) (a n : Nat) (d : Fin 8) (hh : s.hops (fwSrc world) a = []) (ht : s.target a = .dram d)
    (hr : s.refusal (fwSrc world) a n false = none) (hm : s.mem = []) (he : s.fab.ecc = []) (hc : s.cpu.lines = []) :
    (s.fwRead world a n).2 = some (List.replicate n 0) := by
  have hx : s.cross (fwSrc world) a n false = s := by simp only [State.cross, hh, List.foldl_nil]
  have hs : rest (s.serve (fwSrc world) a n false) = rest s := by
    simp only [State.serve, ht]; exact foldl_keep _ rest (fun _ _ => serveAt_rest _ _ _ _ _ _) _ s
  simp only [rest, Prod.mk.injEq, hm, he] at hs
  have hu : (s.serve (fwSrc world) a n false).cached (fwSrc world) a n false = (s.serve (fwSrc world) a n false, false) := by
    unfold State.cached; rw [hs.2.2, hc]; simp [Src.hart, fwSrc]
  simp only [State.fwRead, State.unitRead, hx, hr, State.landRead, hu, State.read, hs.2.1, State.load, hs.1, memRead_empty]
  rw [show ∀ l : List Nat, l.filterMap (fun g => Option.map (fun e : EccErr => (g, e)) (AMap.get? [] g)) = [] from
    fun l => List.filterMap_eq_nil_iff.2 (fun _ _ => rfl)]
  rfl

/-- A schedule of zeros, taken from a memory that holds nothing. -/
theorem witness_WoadeRingCommandsComplete_schedule :
    let p : Fin 64 := 0
    let e : BitVec 512 := ent 99 [(8, 0, 2), (16, 0, 0xC00000700000)]
    let s : State := taken p e on
    let bs : List Byte := List.replicate 16384 0
    s.accepts p 99 [] [(8, 31, 0), (16, 47, 0)] true e ∧ eAddr e 16 % 64 = 0 ∧ (s.fwRead (p.val == 1) (eAddr e 16) 16384).2 = some bs ∧
      ((List.finRange 8192).map (schedEntry bs)).any schedBad = false ∧ 2 ≤ BitVec.toNat (eWord e 8 - BitVec.ofNat 32 s.roundNow) ∧
      BitVec.toNat (eWord e 8 - BitVec.ofNat 32 s.roundNow) < 2 ^ 31 := by
  intro p e s bs
  refine ⟨by unfold State.accepts; decide +kernel, by decide +kernel, ?_, ?_, by decide +kernel, by decide +kernel⟩
  · exact fwRead_zero _ _ _ _ 6 (by decide +kernel) (by decide +kernel) (by decide +kernel) rfl rfl rfl
  · simp only [List.any_map, List.any_eq_false]
    intro k _
    simp only [Function.comp_apply, bs, schedEntry_zero]
    decide

end Sys2Proof.Tests
end

section
/-! PROOFS. Bit fields of words and the stored registers that hold them: what is read after a write of the same field, of another field of
the same register, and of another register. -/

namespace Sys2Proof

/-- Bits of a field, one by one. -/
theorem testBit_bitsOf {w : Nat} (v : BitVec w) (hi lo i : Nat) :
    (bitsOf v hi lo).testBit i = (decide (i < hi + 1 - lo) && v.getLsbD (lo + i)) := by
  simp [bitsOf, nbits, BitVec.getLsbD]

/-- Bits of a word after a field was replaced: those of the field from the new number, the others as before. -/
theorem getLsbD_putBits (v : Word) {hi lo i : Nat} (x : Nat) (h : i < 32) :
    (putBits v hi lo x).getLsbD i = if lo ≤ i ∧ i < hi + 1 then x.testBit (i - lo) else v.getLsbD i := by
  simp only [putBits, BitVec.getLsbD_or, BitVec.getLsbD_and, BitVec.getLsbD_not, BitVec.getLsbD_ofNat, Nat.testBit_and,
    Nat.testBit_shiftLeft, Nat.testBit_two_pow_sub_one, h, decide_true, Bool.true_and]
  by_cases hl : lo ≤ i
  · by_cases hh : i < hi + 1
    · simp [hl, hh, show i - lo < hi + 1 - lo by omega]
    · simp [hl, hh, show ¬ i - lo < hi + 1 - lo by omega]
  · simp [hl]

/-- A field that was replaced holds the new number, cut to its width. -/
theorem bitsOf_putBits_same (v : Word) {hi lo : Nat} (x : Nat) (h : hi < 32) :
    bitsOf (putBits v hi lo x) hi lo = x % 2 ^ (hi + 1 - lo) := by
  refine Nat.eq_of_testBit_eq fun i => ?_
  rw [testBit_bitsOf, Nat.testBit_mod_two_pow]
  by_cases hi' : i < hi + 1 - lo
  · rw [getLsbD_putBits _ _ (by omega), if_pos (by omega), Nat.add_sub_cancel_left]
  · simp [hi']

/-- A field that lies apart from the one that was replaced is as before. -/
theorem bitsOf_putBits_apart (v : Word) {hi lo hi' lo' : Nat} (x : Nat) (h : hi' < 32) (ha : hi < lo' ∨ hi' < lo) :
    bitsOf (putBits v hi lo x) hi' lo' = bitsOf v hi' lo' := by
  refine Nat.eq_of_testBit_eq fun i => ?_
  simp only [testBit_bitsOf]
  by_cases hi' : i < hi' + 1 - lo'
  · rw [getLsbD_putBits _ _ (by omega), if_neg (by omega)]
  · simp [hi']

end Sys2Proof

namespace Sys2Proof.Machine

theorem State.reg_setFld_same (s : State) (b : Blk) (i off hi lo v : Nat) :
    (s.setFld b i off hi lo v).reg b i off = putBits (s.reg b i off) hi lo v :=
  State.reg_setReg_same ..

/-- A write of a field leaves every other register of its block. -/
theorem State.reg_setFld_off (s : State) (b : Blk) (i hi lo v : Nat) {off off' : Nat} (h : off' ≠ off) :
    (s.setFld b i off hi lo v).reg b i off' = s.reg b i off' :=
  State.reg_setReg_other _ _ _ _ _ _ _ _ fun e => h (congrArg RegKey.off e)

theorem State.fld_setFld_same (s : State) (b : Blk) (i off : Nat) {hi lo : Nat} (v : Nat) (h : hi < 32) :
    (s.setFld b i off hi lo v).fld b i off hi lo = v % 2 ^ (hi + 1 - lo) := by
  rw [State.fld, State.reg_setFld_same, bitsOf_putBits_same _ _ h]

theorem State.fld_setFld_apart (s : State) (b : Blk) (i off : Nat) {hi lo hi' lo' : Nat} (v : Nat) (h : hi' < 32)
    (ha : hi < lo' ∨ hi' < lo) : (s.setFld b i off hi lo v).fld b i off hi' lo' = s.fld b i off hi' lo' := by
  rw [State.fld, State.reg_setFld_same, bitsOf_putBits_apart _ _ h ha, State.fld]

theorem State.fld_setFld_off (s : State) (b : Blk) (i hi lo hi' lo' v : Nat) {off off' : Nat} (h : off' ≠ off) :
    (s.setFld b i off hi lo v).fld b i off' hi' lo' = s.fld b i off' hi' lo' := by
  rw [State.fld, State.reg_setFld_off _ _ _ _ _ _ h, State.fld]

/-! ### Register commands and refusals -/

/-- A register command that reaches its register is performed (R13, R466). -/
theorem State.regCommand_reaches {s : State} {src : Src} {off base : Nat} (h : s.reaches src (base + off) = true) (b : Blk) (i : Nat)
    (f : State → State) : s.regCommand src b i off base f = f s := by
  unfold State.reaches at h
  unfold State.regCommand
  cases hr : s.refusal src (base + off) 4 true with
  | none => simp only [hr]
  | some r => rw [hr] at h; simp only [hr]; exact if_pos h

/-- A guarded write that expert control allows takes effect (R14). -/
theorem State.guarded_mayWrite {s : State} {src : Src} {b : Blk} {i : Nat} (h : s.mayWrite src b i = true) (would : Bool)
    (f : State → State) : s.guarded src b i would f = f s := by
  simp [State.guarded, h]

/-! ### Error bits -/

@[simp] theorem State.count_sched (s : State) (b : Blk) (i off n : Nat) : (s.count b i off n).sched = s.sched := rfl
@[simp] theorem State.setReg2_sched (s : State) (b : Blk) (i offL offH v : Nat) : (s.setReg2 b i offL offH v).sched = s.sched := rfl

@[simp] theorem State.pulse_sched (s : State) (isErr : Bool) : (s.pulse isErr).sched = s.sched := by
  cases isErr <;> simp [State.pulse, apply_ite State.sched]

@[simp] theorem State.noteEvent_sched (s : State) (b : Blk) (i bit info : Nat) : (s.noteEvent b i bit info).sched = s.sched := by
  simp [State.noteEvent, apply_ite State.sched]

/-- An error bit leaves the schedule as it is. -/
@[simp] theorem State.raise_sched (s : State) (b : Blk) (i bit addr info : Nat) : (s.raise b i bit addr info).sched = s.sched := by
  unfold State.raise
  cases errClass b bit <;> simp [apply_ite State.sched]

end Sys2Proof.Machine
end

section
/-! PROOFS. Core commands: what reads of a core, of a register and of a barrier slot give after the updates that these commands use, and
the completion of each command (O16). -/

namespace Sys2Proof.Machine

/-! ### Cores after an update -/

theorem CoreId.ne_checker_of_isPrimary (c : CoreId) (h : c.isPrimary = true) : c ≠ c.pair.checker := by
  intro e
  have hk : c.k.val = 2 * (c.k.val / 2) + 1 := congrArg (fun d : CoreId => d.k.val) e
  simp only [CoreId.isPrimary, beq_iff_eq] at h
  omega

/-- Contents put into a core are read back, in lockstep too. -/
@[simp] theorem State.core_putCore_same (s : State) (c : CoreId) (x : CoreState) : (s.putCore c x).core c = x := by
  unfold State.putCore State.mirrored
  split
  · next h =>
    simp only [Bool.and_eq_true] at h
    simp [State.core_setCore_other _ _ (CoreId.ne_checker_of_isPrimary c h.1)]
  · simp

@[simp] theorem State.fld_setCore (s : State) (c : CoreId) (x : CoreState) (b : Blk) (i off hi lo : Nat) :
    (s.setCore c x).fld b i off hi lo = s.fld b i off hi lo := rfl

/-! ### Barriers and jobs -/

/-- A cluster without a barrier in use has no slot to clear (R149). -/
theorem State.barClear_idle {s : State} {c : CoreId} (h : ∀ slot, s.bars.get (c.cl, slot) none = none) : s.barClear c = s := by
  unfold State.barClear
  induction List.finRange 16 with
  | nil => rfl
  | cons slot l ih => rw [List.foldl_cons, h slot]; exact ih

/-- No job fails with a core that runs none (R284). -/
theorem State.coreFailed_noJob {s : State} {c : CoreId} (h : s.jobOf c = none) : s.coreFailed c = s := by
  simp only [State.coreFailed, h]

theorem State.jobOf_congr {s t : State} (h : t.sched = s.sched) (c : CoreId) : t.jobOf c = s.jobOf c := by
  simp only [State.jobOf, h]

theorem State.partOf_congr {s t : State} (h : t.sched = s.sched) (c : CoreId) : t.partOf c = s.partOf c := by
  simp only [State.partOf, h]

/-! ### Operands of a core -/

/-- An S register other than S0 is read back (R125). -/
theorem CoreState.getS_setS_same (x : CoreState) {i : Fin 32} (h : i ≠ 0) (v : Word) : (x.setS i v).getS i = v := by
  have hi : i.val % 32 ≠ 0 := by simpa [Nat.mod_eq_of_lt i.isLt, Fin.val_eq_zero_iff] using h
  simp [CoreState.setS, CoreState.getS, hi]

@[simp] theorem CoreState.setS_wait (x : CoreState) (i : Nat) (v : Word) : (x.setS i v).wait = x.wait := by
  unfold CoreState.setS; split <;> rfl
@[simp] theorem CoreState.setS_accMode (x : CoreState) (i : Nat) (v : Word) : (x.setS i v).accMode = x.accMode := by
  unfold CoreState.setS; split <;> rfl
@[simp] theorem CoreState.setS_wb (x : CoreState) (i : Nat) (v : Word) : (x.setS i v).wb = x.wb := by
  unfold CoreState.setS; split <;> rfl

/-- Completion of an instruction moves the program counter and the loops only (R137). -/
@[simp] theorem CoreState.complete_wait (x : CoreState) (pc : BitVec 20) : (x.complete pc).wait = x.wait := by
  unfold CoreState.complete; dsimp only; split <;> rfl
@[simp] theorem CoreState.complete_accMode (x : CoreState) (pc : BitVec 20) : (x.complete pc).accMode = x.accMode := by
  unfold CoreState.complete; dsimp only; split <;> rfl
@[simp] theorem CoreState.complete_wb (x : CoreState) (pc : BitVec 20) : (x.complete pc).wb = x.wb := by
  unfold CoreState.complete; dsimp only; split <;> rfl
@[simp] theorem CoreState.complete_getS (x : CoreState) (pc : BitVec 20) (i : Nat) : (x.complete pc).getS i = x.getS i := by
  unfold CoreState.complete; dsimp only; split <;> rfl

/-! A waiting core that goes on (R144, R148, R157). -/

@[simp] theorem State.release_wait (s : State) (c : CoreId) (rd : Nat) (v : Word) : ((s.release c rd v).core c).wait = .none := by
  simp [State.release]
@[simp] theorem State.release_accMode (s : State) (c : CoreId) (rd : Nat) (v : Word) :
    ((s.release c rd v).core c).accMode = (s.core c).accMode := by
  simp [State.release]
@[simp] theorem State.release_wb (s : State) (c : CoreId) (rd : Nat) (v : Word) : ((s.release c rd v).core c).wb = (s.core c).wb := by
  simp [State.release]

theorem State.release_getS (s : State) (c : CoreId) {rd : Fin 32} (h : rd ≠ 0) (v : Word) : ((s.release c rd v).core c).getS rd = v := by
  simp [State.release, CoreState.getS_setS_same _ h]

/-- The free values of V16 to V31 leave what no V register is (R157). -/
theorem freeV_keeps {β : Type} (g : CoreState → β) (hg : ∀ (x : CoreState) (m : AMap (Fin 32) VReg), g { x with v := m } = g x)
    (x : CoreState) (n : Nat) : g (freeV x n) = g x := by
  unfold freeV upTo
  induction List.range 16 generalizing x with
  | nil => rfl
  | cons i l ih => rw [List.foldl_cons, ih]; exact hg _ _

/-- Weight buffers whose tags are cleared have none. -/
theorem tag_get_cleared (m : AMap (Fin 2) WBuf) (b : Fin 2) :
    (AMap.get (m.map fun e => (e.1, { e.2 with tag := none })) b WBuf.empty).tag = none := by
  induction m with
  | nil => rfl
  | cons e m ih =>
    simp only [List.map_cons, AMap.get]
    split
    · rfl
    · exact ih

/-! ### Completion -/

/-- A register command of a block under expert control is performed (R13, R14). -/
theorem State.expertCommand {s : State} {src : Src} {b : Blk} {i off base : Nat} (hr : s.reaches src (base + off) = true)
    (hw : s.mayWrite src b i = true) (would : State → Bool) (f : State → State) :
    s.regCommand src b i off base (fun s => s.guarded src b i (would s) f) = f s := by
  rw [State.regCommand_reaches hr, State.guarded_mayWrite hw]

/-- A HALT request of a core that is not halted waits for the units to finish (R122). -/
theorem State.haltRequest_running {s : State} {c : CoreId}
    (h : ((((s.endLockstep c).setFld .tc c.inst Reg.TC_CTRL 1 1 1).barClear c).core c).halted = false) :
    s.haltRequest c = (((s.endLockstep c).setFld .tc c.inst Reg.TC_CTRL 1 1 1).barClear c).modCore c
      (fun x => { x with haltPending := true }) := by
  simp only [State.haltRequest, State.modCore]
  generalize ((s.endLockstep c).setFld .tc c.inst Reg.TC_CTRL 1 1 1).barClear c = u at h ⊢
  simp only [h, Bool.false_eq_true, if_false]

/-- A halted core issues one instruction and is halted again (R118). -/
theorem State.expertStep_halted {s : State} {c : CoreId} (h : (s.core c).halted = true) :
    s.expertStep c = (((s.endLockstep c).modCore c (fun x => { x with halted := false })).issueNext c).modCore c
      (fun x => { x with halted := true }) :=
  if_pos h

theorem execHaltComplete_pending {s : State} {c : CoreId} (hp : (s.core c).haltPending = true) (hu : (s.core c).unitsIdle = true)
    (hw : (s.core c).wait = .none) (hs : (s.core c).stalled = false) :
    execHaltComplete c s = .next ((s.modCore c (fun x => { x with halted := true, haltPending := false })).barClear c) := by
  simp [execHaltComplete, State.modCore, hp, hu, hw, hs]

theorem execErrstop_pending {s : State} {c : CoreId} {e : Pend} (he : (s.core c).pend = some e) (hu : (s.core c).unitsIdle = true)
    (hc : (s.core c).chansSettled = true) (hk : s.isChecker c = false) (u : State)
    (h : u = (e :: (s.core c).more).foldl (fun (s : State) p => s.recordPend c p) s) :
    execErrstop c s = .next (((u.putCore c { u.core c with errstop := true, run := false, pend := none, more := [] }).barClear
      c).coreFailed c) := by
  subst h
  simp [execErrstop, he, hu, hc, hk]

/-- A usable pair that is out of lockstep, and not in debug, takes up lockstep with its primary's contents (R114, R117, R120). -/
theorem State.pairEnable_locks {s : State} {p : PairId} (hu : s.pairUsable p = true) (hd : s.fld .pcmp p.inst Reg.PCMP_STAT 2 2 = 0)
    (hl : s.locked p = false) :
    (s.pairEnable p true).core p.checker = s.core p.primary ∧ (s.pairEnable p true).mem = s.mem ∧
      (s.pairEnable p true).fld .pcmp p.inst Reg.PCMP_CTRL 1 1 = 1 ∧ (s.pairEnable p true).locked p = true := by
  have e : s.pairEnable p true = (((s.setFld .pcmp p.inst Reg.PCMP_CTRL 1 1 1).setFld .pcmp p.inst Reg.PCMP_STAT 2 2 0).setFld .pcmp
      p.inst Reg.PCMP_STAT 0 0 1).setCore p.checker (s.core p.primary) := by
    simp only [State.pairEnable, hu, hd, hl]; rfl
  rw [e]
  refine ⟨State.core_setCore_same _ _ _, rfl, ?_, ?_⟩
  · rw [State.fld_setCore, State.fld_setFld_off _ _ _ _ _ _ _ _ (by decide), State.fld_setFld_off _ _ _ _ _ _ _ _ (by decide)]
    exact State.fld_setFld_same (hi := 1) (lo := 1) _ .pcmp p.inst Reg.PCMP_CTRL 1 (by decide)
  · exact beq_iff_eq.2 (State.fld_setFld_same (hi := 0) (lo := 0) _ .pcmp p.inst Reg.PCMP_STAT 1 (by decide))

/-- The first mismatch of a pair that holds no job and no partition halts both cores and records its cycle and its kind (R116, R120). -/
theorem execPairMismatch_first {s : State} {p : PairId} (kind : Fin 8) (hl : s.locked p = true)
    (hm : s.fld .pcmp p.inst Reg.PCMP_STAT 1 1 = 0) (hj : s.jobOf p.primary = none) (hp : s.partOf p.primary = none)
    (hb : ∀ slot, s.bars.get (p.cl, slot) none = none) :
    execPairMismatch p kind s = .next ((((((s.setFld .pcmp p.inst Reg.PCMP_STAT 1 1 1).setReg .pcmp p.inst Reg.PCMP_MISCYC
      (BitVec.ofNat 32 (cyclesOf (s.now - (s.core p.primary).startLt)))).setReg .pcmp p.inst Reg.PCMP_MISKIND
        (BitVec.ofNat 32 kind.val)).modCore p.primary (fun x => { x with halted := true })).modCore p.checker
          (fun x => { x with halted := true })).raise .tc p.primary.inst 8 0 0) := by
  have bars (t : State) (h : t.bars = s.bars) : t.barClear p.primary = t := State.barClear_idle (by rw [h]; exact hb)
  have failed (t : State) (h : t.sched = s.sched) : t.coreFailed p.primary = t :=
    State.coreFailed_noJob ((State.jobOf_congr h _).trans hj)
  have part (t : State) (h : t.sched = s.sched) : t.partOf p.primary = none := (State.partOf_congr h _).trans hp
  simp only [execPairMismatch, hl, hm, Bool.not_true, Bool.false_eq_true, if_false, beq_self_eq_true, if_true]
  rw [bars, failed, part]
  case h => rw [State.raise_sched]; rfl
  case h => rw [State.raise_sched]; rfl
  all_goals rfl

/-- The end of the reference program: its core goes on with the signature in S[RD], no accumulator mode and no tag of a weight buffer
(R157). -/
theorem execAccordDone_running {s : State} {c : CoreId} {rd : Fin 32} (wrong : Option Word) (hw : (s.core c).wait = .accord rd)
    (hk : s.isChecker c = false) (hr : (s.core c).run = true) :
    ∃ t, execAccordDone c wrong s = .next t ∧ (t.core c).wait = .none ∧
      (rd ≠ 0 → (t.core c).getS rd = wrong.getD (crc32c ((List.range 0x1000).map (Config.accordOutput (s.core c).accInput)))) ∧
      (∀ bk, (t.core c).accMode.get bk .none = .none) ∧ (∀ b, ((t.core c).wb.get b WBuf.empty).tag = none) := by
  simp only [execAccordDone, hw, hk, Bool.false_eq_true, if_false]
  rw [if_pos (by rw [freeV_keeps CoreState.run (fun _ _ => rfl)]; exact hr)]
  refine ⟨_, rfl, State.release_wait .., fun h => State.release_getS _ _ h _, fun bk => ?_, fun b => ?_⟩
  · rw [State.release_accMode, State.core_putCore_same, freeV_keeps CoreState.accMode (fun _ _ => rfl)]
    rfl
  · rw [State.release_wb, State.core_putCore_same, freeV_keeps CoreState.wb (fun _ _ => rfl)]
    exact tag_get_cleared _ b

/-- Settles O16: each clause is the completion of one command, stated above for it. -/
theorem coreCommandsComplete : Obligations.CoreCommandsComplete := by
  unfold Obligations.CoreCommandsComplete
  intro src c p cl s
  refine ⟨?contextLoad, ?startAndHalt, ?coreStep, ?haltComplete, ?errstop, ?pairEnable, ?pairMismatch, ?accordDone⟩
  case contextLoad =>
    intro mask hu
    exact congrArg Host.Outcome.next (if_pos hu)
  case startAndHalt =>
    intro hr hw
    exact ⟨congrArg Host.Outcome.next (State.expertCommand hr hw _ _), fun hh =>
      congrArg Host.Outcome.next ((State.expertCommand hr hw _ _).trans (State.haltRequest_running hh))⟩
  case coreStep =>
    intro hr hw hh
    exact congrArg Host.Outcome.next ((State.expertCommand hr hw _ _).trans (State.expertStep_halted hh))
  case haltComplete => exact execHaltComplete_pending
  case errstop => exact fun e u he hu hc hk h => execErrstop_pending he hu hc hk u h
  case pairEnable =>
    intro hr hw
    refine ⟨congrArg Host.Outcome.next (State.expertCommand hr hw _ _), fun hu hd hl => ?_⟩
    exact ⟨s.pairEnable p true, congrArg Host.Outcome.next (State.expertCommand hr hw _ _), State.pairEnable_locks hu hd hl⟩
  case pairMismatch => exact fun kind hl hm hj hp hb => execPairMismatch_first kind hl hm hj hp hb
  case accordDone => exact fun rd wrong hw hk hr => execAccordDone_running wrong hw hk hr

end Sys2Proof.Machine
end

section
/-! PROOFS. Requests: what a read and a posted write of a source that is no hart come to, inside a die and across dies, and their
completion (O24). -/

namespace Sys2Proof.Machine

/-! ### At the target -/

/-- Only DRAM and the Vehicle-die SRAM are cached (R24, R503). -/
theorem State.cached_cs {s : State} {a off : Nat} {cl : ClusterId} (h : s.target a = .cs cl off) (src : Src) (n : Nat) (write : Bool) :
    s.cached src a n write = (s, false) := by
  simp [State.cached, State.cacheable, h]

/-- No memory controller serves a cluster store. -/
theorem State.serve_cs {s : State} {a off : Nat} {cl : ClusterId} (h : s.target a = .cs cl off) (src : Src) (n : Nat) (write : Bool) :
    s.serve src a n write = s := by
  simp only [State.serve, h]

/-- A read of memory whose line and whose words are good gives its data. -/
theorem State.landRead_ok {s u v : State} {src : Src} {a n : Nat} {bs : List Byte} (hc : (s.serve src a n false).cached src a n false = (u, false))
    (hr : u.read a n = (v, bs, none)) : s.landRead src a n = (v, some bs) := by
  simp [State.landRead, hc, hr]

/-- A read that is turned away is recorded and answered with its code (R13). -/
theorem State.readAt_refused {s : State} {src : Src} {a n : Nat} {r : Refused} (h : s.refusal src a n false = some r) :
    s.readAt src a n = (s.recordRefusal src a r, [], some r.code) := by
  simp only [State.readAt, h]

/-- An accepted read of a register gives its value and has its effect (R10). -/
theorem State.readAt_reg {s : State} {src : Src} {a n : Nat} {k : RegKey} (h : s.refusal src a n false = none) (ht : s.target a = .reg k) :
    s.readAt src a n = (s.readEffect k, leBytes 4 (s.view k).toNat, none) := by
  simp only [State.readAt, h, ht, State.readReg]

/-- An accepted read of memory gives what memory holds. -/
theorem State.readAt_memory {s t : State} {src : Src} {a n : Nat} {bs : List Byte} (h : s.refusal src a n false = none)
    (ht : ∀ k, s.target a ≠ .reg k) (hl : s.landRead src a n = (t, some bs)) : s.readAt src a n = (t, bs, none) := by
  simp only [State.readAt, h, hl]

/-- An accepted write of a register reaches it (R13). -/
theorem State.writeAt_reg {s : State} {src : Src} {a : Nat} {bs : List Byte} {k : RegKey} (h : s.refusal src a bs.length true = none)
    (ht : s.target a = .reg k) : s.writeAt src a bs = (s.writeReg src k (BitVec.ofNat 32 (leNat bs)), none) := by
  simp only [State.writeAt, h, ht]

/-- An accepted write of a cluster store lands there. -/
theorem State.writeAt_cs {s : State} {src : Src} {a off : Nat} {bs : List Byte} {cl : ClusterId}
    (h : s.refusal src a bs.length true = none) (ht : s.target a = .cs cl off) : s.writeAt src a bs = (s.store a bs, none) := by
  simp [State.writeAt, h, ht, State.landWrite, State.serve_cs ht, State.cached_cs ht]

/-- A control register takes a write under the rules of its expert bit (R14, R121). -/
theorem State.writeReg_ctrl (s : State) (src : Src) {k : RegKey} (h : enOff k.blk = some k.off) (v : Word) :
    s.writeReg src k v = s.writeCtrl src k v := if_pos h

/-- The word that four bytes of a number make is the number's low half. -/
theorem ofNat_leNat_leBytes (v : Nat) : BitVec.ofNat 32 (leNat (leBytes 4 v)) = BitVec.ofNat 32 v := by
  apply BitVec.eq_of_toNat_eq
  simp [leNat_leBytes]

/-! ### From the source -/

/-- A requester that is no hart passes no bridge (R508). -/
theorem State.bridge_noHart (s : State) {src : Src} (h : src.hart = none) (a : Nat) (f : State → State) : s.bridge src a f = f s := by
  simp only [State.bridge, h]

/-- A request inside a die crosses no port (R30). -/
theorem State.hops_local (s : State) {src : Src} {a : Nat} (h : addrDie a = src.die) : s.hops src a = [] := by
  simp [State.hops, h, route]

/-- A request inside a die that meets no memory controller waits for no window (R214). -/
theorem State.mayServe_local {s : State} {src : Src} {a : Nat} (h : addrDie a = src.die) (ht : ∀ d, s.target a ≠ .dram d) (n : Nat)
    (write : Bool) : s.mayServe src a n write = true := by
  simp only [State.mayServe, State.mayCross, State.hops_local s h, List.all_nil, Bool.true_and]

/-- A read inside a die is answered at once (R25). -/
theorem State.readReq_local {s t : State} {src : Src} {a n : Nat} {bs : List Byte} {fail : Option Nat} (hh : src.hart = none)
    (hd : addrDie a = src.die) (hp : s.isPci a = false) (hs : s.mayServe src a n false = true) (hr : s.readAt src a n = (t, bs, fail)) :
    s.readReq src a n none = t.deliver src a bs fail := by
  simp [State.readReq, State.bridge_noHart s hh, State.issueRead, hd, hp, hs, hr]

/-- A read across dies takes a tracker and its credits, and its outcome comes with the response (R25, R219, R221). -/
theorem State.readReq_remote {s u v : State} {src : Src} {a n : Nat} {bs : List Byte} {fail : Option Nat} (hh : src.hart = none)
    (hd : addrDie a ≠ src.die) (hp : s.isPci a = false) (hs : s.mayServe src a n false = true) (ht : s.trackerFree true src a = true)
    (hc : s.takeCredits src a 1 = some u) (hr : (u.cross src a n false).readAt src a n = (v, bs, fail)) :
    s.readReq src a n none = v.addTx true src a n bs fail 8 := by
  simp [State.readReq, State.bridge_noHart s hh, State.issueRead, hd, hp, hs, ht, flits, hc, hr]

/-- A posted write of a source that is no hart leaves that source (R25). -/
theorem State.postWrite_noHart (s : State) {src : Src} (h : src.hart = none) (a : Nat) (bs : List Byte) :
    s.postWrite src a bs = (s.issueWrite src a bs 8).getD s := by
  simp only [State.postWrite, State.bridge_noHart s h, h]

/-- A posted write inside a die lands at once (R25). -/
theorem State.postWrite_local {s t : State} {src : Src} {a : Nat} {bs : List Byte} (hh : src.hart = none) (hd : addrDie a = src.die)
    (hp : s.isPci a = false) (hs : s.mayServe src a bs.length true = true) (hw : s.writeAt src a bs = (t, none)) :
    s.postWrite src a bs = t := by
  simp [State.postWrite_noHart s hh, State.issueWrite, hd, hp, hs, hw]

/-- A posted write across dies takes a tracker and a credit for each flit; its acknowledgement or its failure notice follows (R25, R219,
R221). -/
theorem State.postWrite_remote {s u v : State} {src : Src} {a : Nat} {bs : List Byte} {fail : Option Nat} (hh : src.hart = none)
    (hd : addrDie a ≠ src.die) (hp : s.isPci a = false) (hs : s.mayServe src a bs.length true = true) (ht : s.trackerFree false src a = true)
    (hc : s.takeCredits src a (flits true bs.length) = some u) (hr : (u.cross src a bs.length true).writeAt src a bs = (v, fail)) :
    s.postWrite src a bs = v.addTx false src a bs.length bs fail 8 := by
  simp [State.postWrite_noHart s hh, State.issueWrite, hd, hp, hs, ht, hc, hr]

/-! ### Inside a die -/

/-- An accepted read inside a die of a register (R10, R25). -/
theorem State.readReq_reg {s : State} {src : Src} {a : Nat} {k : RegKey} (hl : s.local_ src a 4 false) (ht : s.target a = .reg k) :
    s.readReq src a 4 none = (s.readEffect k).deliver src a (leBytes 4 (s.view k).toNat) none := by
  obtain ⟨hh, hd, hp, hr⟩ := hl
  exact State.readReq_local hh hd hp (State.mayServe_local hd (by simp [ht]) _ _) (State.readAt_reg hr ht)

/-- An accepted write inside a die of a register (R10, R25). -/
theorem State.postWrite_reg {s : State} {src : Src} {a : Nat} {k : RegKey} (hl : s.local_ src a 4 true) (ht : s.target a = .reg k) (v : Nat) :
    s.postWrite src a (leBytes 4 v) = s.writeReg src k (BitVec.ofNat 32 v) := by
  obtain ⟨hh, hd, hp, hr⟩ := hl
  refine State.postWrite_local hh hd hp (State.mayServe_local hd (by simp [ht]) _ _) ?_
  rw [State.writeAt_reg (by rwa [leBytes_length]) ht, ofNat_leNat_leBytes]

/-- Settles O24: each clause is a read or a posted write inside a die or across dies, whose outcome at its target is stated above. -/
theorem requestsComplete : Obligations.RequestsComplete := by
  unfold Obligations.RequestsComplete
  intro src a s
  refine ⟨?readStore, ?readDram, ?readReg, ?readRefused, ?readRemote, ?writeStore, ?writeRemote, ?writeReg⟩
  case readStore =>
    rintro n cl off bs t ⟨hh, hd, hp, hr⟩ ht hb
    have hland : s.landRead src a.toNat n = (t, some bs) :=
      State.landRead_ok (by rw [State.serve_cs ht, State.cached_cs ht]) hb
    exact congrArg Host.Outcome.next (State.readReq_local hh hd hp (State.mayServe_local hd (by simp [ht]) _ _)
      (State.readAt_memory hr (by simp [ht]) hland))
  case readDram =>
    rintro n d u v bs ⟨hh, hd, hp, hr⟩ ht hs hc hb
    exact congrArg Host.Outcome.next (State.readReq_local hh hd hp hs (State.readAt_memory hr (by simp [ht]) (State.landRead_ok hc hb)))
  case readReg =>
    intro k hl ht
    have hread := State.readReq_reg hl ht
    refine ⟨congrArg Host.Outcome.next hread, fun hrc => congrArg Host.Outcome.next ?_⟩
    rw [if_pos (by simp only [State.isRcAt, ht, hrc]), hread]
  case readRefused =>
    intro n r hh hd hp hs hr
    exact congrArg Host.Outcome.next (State.readReq_local hh hd hp hs (State.readAt_refused hr))
  case readRemote =>
    intro n u v bs fail hh hd hp hs ht hc hr
    exact congrArg Host.Outcome.next (State.readReq_remote hh hd hp hs ht hc hr)
  case writeStore =>
    rintro data cl off ⟨hh, hd, hp, hr⟩ ht
    exact congrArg Host.Outcome.next (State.postWrite_local hh hd hp (State.mayServe_local hd (by simp [ht]) _ _) (State.writeAt_cs hr ht))
  case writeRemote =>
    intro data u v fail hh hd hp hs ht hc hr
    exact congrArg Host.Outcome.next (State.postWrite_remote hh hd hp hs ht hc hr)
  case writeReg =>
    intro k hl ht
    refine ⟨fun v hin => congrArg Host.Outcome.next ?_, fun v hen => congrArg Host.Outcome.next ?_⟩
    · rw [if_pos hin]
      exact (State.postWrite_reg hl ht _).trans (by rw [BitVec.ofNat_toNat])
    · rw [if_pos (by simp [State.isCtrl, ht, hen]), State.postWrite_reg hl ht, State.writeReg_ctrl s src hen, BitVec.ofNat_toNat,
        BitVec.setWidth_eq]

end Sys2Proof.Machine
end

section
/-! PROOFS. CAN controllers: their registers and counters after an update, and the completion of their commands (O36). -/

namespace Sys2Proof.Machine

/-! ### A controller after an update -/

@[simp] theorem State.can_setCan_same (s : State) (c : Fin 24) (x : Can) : (s.setCan c x).can c = x := by
  simp [State.can, State.setCan]

/-- A field of CAN_CTRL that lies apart from MODE leaves the mode as it is. -/
theorem State.canMode_setFld_apart (s : State) (c : Fin 24) {hi lo : Nat} (v : Nat) (h : hi < 2 ∨ 3 < lo) :
    (s.setFld .can c Reg.CAN_CTRL hi lo v).canMode c = s.canMode c :=
  State.fld_setFld_apart _ _ _ _ _ (by decide) h

/-- No write of CAN_CTRL changes the bit timing (R515). -/
theorem State.canBitsOk_setFld_ctrl (s : State) (c : Fin 24) (hi lo v : Nat) :
    (s.setFld .can c Reg.CAN_CTRL hi lo v).canBitsOk c = s.canBitsOk c := by
  unfold State.canBitsOk
  rw [State.reg_setFld_off _ _ _ _ _ _ (by decide : Reg.CAN_NBT ≠ Reg.CAN_CTRL),
    State.reg_setFld_off _ _ _ _ _ _ (by decide : Reg.CAN_FDBT ≠ Reg.CAN_CTRL),
    State.reg_setFld_off _ _ _ _ _ _ (by decide : Reg.CAN_XLBT ≠ Reg.CAN_CTRL)]

/-! ### MODE (R515, R518) -/

/-- The fields of CAN_CTRL beside MODE, as a write of the register puts them. -/
def State.canFlags (s : State) (c : Fin 24) (v : Word) : State :=
  (s.setFld .can c Reg.CAN_CTRL 4 4 (bitsOf v 4 4)).setFld .can c Reg.CAN_CTRL 1 1 (bitsOf v 1 1)

theorem State.canCtrl_eq (s : State) (c : Fin 24) (v : Word) : s.canCtrl c v = (s.canFlags c v).canSetMode c (bitsOf v 3 2) := rfl

@[simp] theorem State.can_canFlags (s : State) (c : Fin 24) (v : Word) : (s.canFlags c v).can c = s.can c := rfl

@[simp] theorem State.canMode_canFlags (s : State) (c : Fin 24) (v : Word) : (s.canFlags c v).canMode c = s.canMode c := by
  rw [State.canFlags, State.canMode_setFld_apart _ _ _ (by decide), State.canMode_setFld_apart _ _ _ (by decide)]

@[simp] theorem State.canBitsOk_canFlags (s : State) (c : Fin 24) (v : Word) : (s.canFlags c v).canBitsOk c = s.canBitsOk c := by
  rw [State.canFlags, State.canBitsOk_setFld_ctrl, State.canBitsOk_setFld_ctrl]

/-- A new mode, or any mode in bus-off, starts the controller with clear counters when the bit timing allows it, and is refused with BADCFG
otherwise. -/
theorem State.canSetMode_start {s : State} {c : Fin 24} {m : Nat} (hm : 0 < m) (hn : s.canMode c ≠ m ∨ (s.can c).busOff = true) :
    s.canSetMode c m = if s.canBitsOk c then
        ((s.setFld .can c Reg.CAN_CTRL 3 2 m).setCan c { s.can c with txErr := 0, rxErr := 0, busOff := false }, true)
      else ((s.setFld .can c Reg.CAN_CTRL 3 2 0).raise .can c 4 0 0, false) := by
  have hs : ¬(s.canMode c = m ∧ (!(s.can c).busOff) = true) := fun ⟨h1, h2⟩ => hn.elim (· h1) fun h => by simp [h] at h2
  rw [State.canSetMode, if_neg (by omega), if_neg hs]
  cases s.canBitsOk c <;> rfl

/-- What a write of CAN_CTRL that starts the controller answers. -/
theorem State.canCtrl_start {s : State} {c : Fin 24} {v : Word} (hm : 0 < bitsOf v 3 2)
    (hn : s.canMode c ≠ bitsOf v 3 2 ∨ (s.can c).busOff = true) :
    s.canCtrl c v = if s.canBitsOk c then (((s.canFlags c v).setFld .can c Reg.CAN_CTRL 3 2 (bitsOf v 3 2)).setCan c
        { (s.canFlags c v).can c with txErr := 0, rxErr := 0, busOff := false }, true)
      else (((s.canFlags c v).setFld .can c Reg.CAN_CTRL 3 2 0).raise .can c 4 0 0, false) := by
  rw [State.canCtrl_eq, State.canSetMode_start hm (by simpa using hn), State.canBitsOk_canFlags]

theorem execCanModeWrite_expert {s : State} {src : Src} {c : Fin 24} (hr : s.reaches src (canBase c + Reg.CAN_CTRL) = true)
    (hw : s.mayWrite src .can c = true) (v : Word) : execCanModeWrite src c v s = .next (s.canCtrl c v).1 :=
  congrArg Host.Outcome.next (State.expertCommand hr hw _ _)

/-! ### REC (R518) -/

/-- REC after a frame received without error. -/
theorem State.canRec_rxErr (s : State) (c : Fin 24) (errs : Nat) : ∃ v : Word, ((s.canRec c errs).can c).rxErr =
    if 127 < (s.can c).rxErr + errs then 119 + v.toNat % 9 else (s.can c).rxErr + errs - 1 := by
  simp only [State.canRec, State.can_setCan_same]
  exact ⟨_, rfl⟩

theorem State.canRec_rxErr_low {s : State} {c : Fin 24} {errs : Nat} (h : (s.can c).rxErr + errs ≤ 127) :
    ((s.canRec c errs).can c).rxErr = (s.can c).rxErr + errs - 1 := by
  obtain ⟨v, e⟩ := s.canRec_rxErr c errs
  rw [e, if_neg (by omega)]

theorem State.canRec_rxErr_high {s : State} {c : Fin 24} {errs : Nat} (h : 127 < (s.can c).rxErr + errs) :
    119 ≤ ((s.canRec c errs).can c).rxErr ∧ ((s.canRec c errs).can c).rxErr ≤ 127 := by
  obtain ⟨v, e⟩ := s.canRec_rxErr c errs
  rw [e, if_pos h]
  omega

/-! ### Frames received (R516) -/

section Receive
variable {s : State} {c : Fin 24} (hg : s.gwUp = true) (hm : s.canMode c ≠ 0) (hb : (s.can c).busOff = false)
include hg hm hb

/-- A frame without room in the receive buffer is lost. -/
theorem execCanFrameReceive_full (f : CanFrame) (ago errs : Nat) :
    execCanFrameReceive c f ago false errs s = .next ((s.canRec c errs).raise .can c 3 0 0) := by
  simp [execCanFrameReceive, hg, hm, hb]

/-- A frame that no filter matches counts, and goes nowhere. -/
theorem execCanFrameReceive_noMatch {f : CanFrame} {errs : Nat} {u : State} (hu : u = (s.canRec c errs).count .can c Reg.CAN_RXCNT 1)
    (hf : u.canFilter c f = none) (ago : Nat) : execCanFrameReceive c f ago true errs s = .next (u.count .can c Reg.CAN_NOMATCH 1) := by
  subst hu
  simp [execCanFrameReceive, hg, hm, hb, hf]

/-- A frame goes where the first filter that it matches sends it: to a queue, to the PDUs, or to both. -/
theorem execCanFrameReceive_match {f : CanFrame} {errs ago : Nat} {u x : State} {i : Fin 64} {d : Word}
    (hu : u = (s.canRec c errs).count .can c Reg.CAN_RXCNT 1) (hf : u.canFilter c f = some i) (hd : u.reg .can c (Reg.CAN_FLTDSTf i) = d)
    (hx : x = (if bitOf d 17 then u.qDeliver (Fin.ofNat 32 (bitsOf d 4 0)) 1 (canRecord f i) 0
      (BitVec.ofNat 32 (u.timeBase (u.fld .can c Reg.CAN_TSCFG 2 0) - ago)) else u)) :
    execCanFrameReceive c f ago true errs s = .next (if bitOf d 16 then
      x.pdusReceive (fun p => p.bus == 0 && p.ctrl == c.val && p.id == f.id && p.ide == f.ide && p.fdf == f.fdf) f.data else x) := by
  subst hx hd
  subst hu
  simp [execCanFrameReceive, hg, hm, hb, hf]

end Receive

/-! ### Frames sent (R517, R518) -/

/-- The frame of a controller goes once: it is not tried again after an error or a lost arbitration (R517). -/
def State.canOnce (s : State) (c : Fin 24) (t : CanBuf) : Bool := s.fld .can c Reg.CAN_CTRL 4 4 == 1 && t.queue.isSome

/-- The events that a rise of TEC by 8 passes: error passive above 127, bus-off above 255. -/
def State.canTec (s : State) (c : Fin 24) (x : Can) : State :=
  let n := x.txErr + 8
  let s := s.setCan c { x with txErr := n, busOff := decide (255 < n) }
  let s := if x.txErr ≤ 127 ∧ 127 < n then s.raise .can c 1 0 0 else s
  if 255 < n then s.raise .can c 2 0 0 else s

section Sent
variable {s u : State} {c : Fin 24} {b : Fin 32} {t : CanBuf} {corrected : Bool} (hg : s.gwUp = true)
  (hm : (s.canMode c == 1 || s.canMode c == 3) = true) (hb : (s.can c).busOff = false) (hf : firstBuf (s.can c).bufs = some (b, t))
  (hu : u = if corrected then s.raise .can c 0 0 0 else s)
include hg hm hb hf hu

theorem execCanFrameSent_sent : execCanFrameSent c .sent corrected s =
    .next (((u.setCan c { s.can c with txErr := (s.can c).txErr - 1 }).count .can c Reg.CAN_TXCNT 1).canFree c b false) := by
  subst hu
  simp only [execCanFrameSent, hg, hm, hb, hf, Bool.not_true, Bool.or_self, Bool.false_eq_true, if_false]

theorem execCanFrameSent_lost : execCanFrameSent c .lost corrected s = .next (if u.canOnce c t then u.canFree c b true else u) := by
  subst hu
  simp only [execCanFrameSent, hg, hm, hb, hf, Bool.not_true, Bool.or_self, Bool.false_eq_true, if_false]
  rfl

theorem execCanFrameSent_error : execCanFrameSent c .error corrected s =
    .next (if u.canOnce c t then (u.canTec c (s.can c)).canFree c b true else u.canTec c (s.can c)) := by
  subst hu
  simp only [execCanFrameSent, hg, hm, hb, hf, Bool.not_true, Bool.or_self, Bool.false_eq_true, if_false]
  rfl

end Sent

/-- TEC stays on its side of 127 and below 256: no event. -/
theorem State.canTec_quiet (u : State) (c : Fin 24) {x : Can} (h : x.txErr + 8 ≤ 127 ∨ (127 < x.txErr ∧ x.txErr + 8 ≤ 255)) :
    u.canTec c x = u.setCan c { x with txErr := x.txErr + 8, busOff := false } := by
  simp only [State.canTec]
  rw [if_neg (by omega), if_neg (by omega), decide_eq_false (by omega)]

/-- TEC passes 127: error passive. -/
theorem State.canTec_passive (u : State) (c : Fin 24) {x : Can} (h : x.txErr ≤ 127) (hp : 127 < x.txErr + 8) :
    u.canTec c x = (u.setCan c { x with txErr := x.txErr + 8, busOff := false }).raise .can c 1 0 0 := by
  simp only [State.canTec]
  rw [if_neg (by omega : ¬ 255 < x.txErr + 8), if_pos ⟨h, hp⟩, decide_eq_false (by omega)]

/-- TEC passes 255: bus-off. -/
theorem State.canTec_busOff (u : State) (c : Fin 24) {x : Can} (ho : 255 < x.txErr + 8) :
    u.canTec c x = (u.setCan c { x with txErr := x.txErr + 8, busOff := true }).raise .can c 2 0 0 := by
  simp only [State.canTec]
  rw [if_pos ho, if_neg (by omega), decide_eq_true ho]

theorem State.canOnce_eq_false {u : State} {c : Fin 24} {t : CanBuf} (h : u.fld .can c Reg.CAN_CTRL 4 4 = 0 ∨ t.queue = none) :
    u.canOnce c t = false := by
  rcases h with h | h <;> simp [State.canOnce, h]

theorem State.canOnce_eq_true {u : State} {c : Fin 24} {t : CanBuf} (h : u.fld .can c Reg.CAN_CTRL 4 4 = 1) (hq : t.queue ≠ none) :
    u.canOnce c t = true := by
  simp [State.canOnce, h, Option.isSome_iff_ne_none, hq]

theorem execCanBusoffRecovery_allowed {s : State} {c : Fin 24} (hg : s.gwUp = true) (hb : (s.can c).busOff = true) (hm : s.canMode c ≠ 0)
    (hr : s.fld .can c Reg.CAN_CTRL 1 1 = 1) :
    execCanBusoffRecovery c s = .next (s.setCan c { s.can c with busOff := false, txErr := 0, rxErr := 0 }) := by
  simp [execCanBusoffRecovery, hg, hb, hm, hr]

/-! ### CAN_SET (R543) -/

section Set
variable {s : State} {p : Fin 64} {e : BitVec 512} {c : Fin 24} (h : s.accepts p 0x50 [] canSetFields true e) (hc : eBits e 8 4 0 = c.val)
include h hc

/-- An accepted CAN_SET of a controller that there is performs its action. -/
theorem State.canSet_accepts {action : Nat} (ha : eBits e 8 9 8 = action) (h3 : action ≠ 3) (k : Fin 24 → BitVec 512 → State) :
    s.canSet p action k = k c e := by
  subst ha
  rw [State.canSet, State.command_accepts h, if_neg (by omega), if_pos rfl, hc, Fin.ofNat_val_eq_self]

theorem execCanSetConfigure_accepts {u : State} (ha : eBits e 8 9 8 = 0) (ht : eBits e 0x24 2 0 ≤ 4)
    (hu : u = ((((((s.setFld .can c Reg.CAN_CTRL 3 2 0).setReg .can c Reg.CAN_INTEN (eWord e 0x10 &&& 0x1F)).canTiming c Reg.CAN_NBT
      (eWord e 0x14 &&& 0xFFFFFFFC)).canTiming c Reg.CAN_FDBT (eWord e 0x18 &&& 0xFFFFFFFE)).canTiming c Reg.CAN_XLBT
      (eWord e 0x1C &&& 0xFFFFFFFE)).canTiming c Reg.CAN_XLPWM (eWord e 0x20 &&& 0xFFFFFF)).canTiming c Reg.CAN_TSCFG (eWord e 0x24 &&& 7))
    (hk : (u.canCtrl c (eWord e 0xC)).2 = true) :
    execCanSetConfigure p s = .next ((u.canCtrl c (eWord e 0xC)).1.complete p 0 0 0 0) := by
  rw [execCanSetConfigure, State.canSet_accepts h hc ha (by decide), if_neg (by omega)]
  subst hu
  dsimp only
  split
  · next e1 => rw [e1]; rfl
  · next e1 => rw [e1] at hk; exact absurd hk Bool.false_ne_true

theorem execCanSetFilter_accepts (ha : eBits e 8 9 8 = 1) (hf : (eWord e 0xC).toNat ≤ 63) :
    execCanSetFilter p s = .next ((((s.setReg .can c (Reg.CAN_FLTIDf (eWord e 0xC).toNat) (eWord e 0x10 &&& 0xDFFFFFFF)).setReg .can c
      (Reg.CAN_FLTMSKf (eWord e 0xC).toNat) (eWord e 0x14 &&& 0x1FFFFFFF)).setReg .can c (Reg.CAN_FLTDSTf (eWord e 0xC).toNat)
      (eWord e 0x18 &&& 0x3001F)).complete p 0 0 0 0) := by
  rw [execCanSetFilter, State.canSet_accepts h hc ha (by decide)]
  exact congrArg Host.Outcome.next (if_neg (by omega))

theorem execCanSetAbortBuffer_accepts {b : Fin 32} (ha : eBits e 8 9 8 = 2) (hb : eWord e 0xC = BitVec.ofNat 32 b.val) :
    execCanSetAbortBuffer p s = .next ((if ((s.can c).bufs.get? b).isSome then s.canFree c b true else s).complete p 0 0 0 0) := by
  have hn : (eWord e 0xC).toNat = b.val := by rw [hb, BitVec.toNat_ofNat]; omega
  rw [execCanSetAbortBuffer, State.canSet_accepts h hc ha (by decide)]
  dsimp only
  rw [hn, if_neg (by omega), Fin.ofNat_val_eq_self]
  rfl

end Set

end Sys2Proof.Machine
end

section
/-! PROOFS. LIN controllers: the completion of their commands, and with the CAN commands above of their family (O36). -/

namespace Sys2Proof.Machine

/-! ### Schedule and frames (R520, R521) -/

section Schedule
variable {s : State} {c : Fin 8} {h : Fin 64} {dl : Nat} (hg : s.gwUp = true) (hc : s.linCommander c = true) (hm : s.linMode c = 1)
  (ha : (s.lin c).active = true)
include hg hc hm ha

/-- A schedule that starts sends the header of its first entry. -/
theorem execLinScheduleEntry_first (hs : (s.lin c).started = none) (he : (s.lin c).sched[0]? = some (h, dl)) :
    execLinScheduleEntry c s = .next ((s.setLin c { s.lin c with
      entry := 0, started := some s.now, header := some h }).setFld .lin c Reg.LIN_STAT 5 0 0) := by
  simp [execLinScheduleEntry, hg, hc, hm, ha, hs, he]

/-- Once the delay of the entry in progress is over, the header of the next one goes out; the first follows the last. -/
theorem execLinScheduleEntry_next {t0 n : Nat} (hs : (s.lin c).started = some t0)
    (hd : t0 + ((s.lin c).sched.getD (s.lin c).entry (0, 1)).2 * 100000 ≤ s.now)
    (hn : n = (if (s.lin c).entry + 1 < (s.lin c).sched.length then (s.lin c).entry + 1 else 0)) (he : (s.lin c).sched[n]? = some (h, dl)) :
    execLinScheduleEntry c s = .next ((s.setLin c { s.lin c with
      entry := n, started := some s.now, header := some h }).setFld .lin c Reg.LIN_STAT 5 0 n) := by
  simp only [execLinScheduleEntry, hg, hc, hm, ha, hs, hd, ← hn, he, beq_self_eq_true, decide_true, Bool.and_self, if_true]

end Schedule

/-- The receive queues that take frames of a controller. -/
def State.linQueues (s : State) (c : Fin 8) : List (Fin 32) :=
  (List.finRange 32).filter (fun i => !isTxQueue i && (s.gwq i).st == 1 && (s.gwq i).kind == 2 && (s.gwq i).ctrl == c.val)

/-- A received frame reaches the queues and the PDUs. -/
def State.linTake (s : State) (c : Fin 8) (id : Fin 64) (data : List Byte) (enh : Bool) : State :=
  ((s.linQueues c).foldl (fun (s : State) i => s.qDeliver i 2 (linRecord id enh data) 0 s.now32) s).pdusReceive
    (fun p => p.bus == 1 && p.ctrl == c.val && p.id.toNat == id.val) data

section Frame
variable {s u : State} {c : Fin 8} {id : Fin 64} (hh : (s.lin c).header = some id) (hu : u = s.setLin c { s.lin c with header := none })
include hh hu

/-- The slot of another node's frame ends without a response. -/
theorem execLinFrameEnd_silent (hr : (s.lin c).resp.get? id = none) : execLinFrameEnd c none s = .next (u.raise .lin c 1 0 0) := by
  subst hu
  simp only [execLinFrameEnd, hh, hr]

/-- The slot of another node's frame ends with a wrong checksum. -/
theorem execLinFrameEnd_checksum (hr : (s.lin c).resp.get? id = none) (data : List Byte) (enh : Bool) :
    execLinFrameEnd c (some (data, enh, false)) s = .next (u.raise .lin c 0 0 0) := by
  subst hu
  simp only [execLinFrameEnd, hh, hr]

/-- Another node's frame is taken, and puts the controller to sleep when it is the go-to-sleep command. -/
theorem execLinFrameEnd_frame (hr : (s.lin c).resp.get? id = none) (data : List Byte) (enh : Bool) :
    execLinFrameEnd c (some (data, enh, true)) s = .next (if isSleep id data then
      (u.linTake c id data enh).setFld .lin c Reg.LIN_CTRL 2 1 2 else u.linTake c id data enh) := by
  subst hu
  simp only [execLinFrameEnd, hh, hr]
  rfl

/-- The slot of the node's own frame ends with nothing more, unless it is the go-to-sleep command. -/
theorem execLinFrameEnd_own {own : Option Bool × List Byte} (hr : (s.lin c).resp.get? id = some own) (hs : isSleep id own.2 = false)
    (resp : Option (List Byte × Bool × Bool)) : execLinFrameEnd c resp s = .next u := by
  subst hu
  simp only [execLinFrameEnd, hh, hr, hs, Bool.false_eq_true, if_false]

end Frame

/-- A controller whose MODE is set to 2 sleeps (R520). -/
theorem State.linMode_sleep (s : State) (c : Fin 8) : (s.setFld .lin c Reg.LIN_CTRL 2 1 2).linMode c = 2 :=
  State.fld_setFld_same (hi := 2) (lo := 1) _ _ _ _ 2 (by decide)

theorem execLinHeaderReceive_responder {s : State} {c : Fin 8} (hg : s.gwUp = true) (hc : s.linCommander c = false) (hm : s.linMode c = 1)
    (id : Fin 64) : execLinHeaderReceive c id s = .next (s.setLin c { s.lin c with header := some id }) := by
  simp [execLinHeaderReceive, hg, hc, hm]

theorem execLinWakeup_asleep {s : State} {c : Fin 8} (hg : s.gwUp = true) (hm : s.linMode c = 2) :
    execLinWakeup c s = .next (s.setFld .lin c Reg.LIN_CTRL 2 1 1) := by
  simp [execLinWakeup, hg, hm]

/-! ### LIN_SET (R543) -/

section Set
variable {s : State} {p : Fin 64} {e : BitVec 512} {c : Fin 8} (h : s.accepts p 0x51 [] linSetFields true e) (hc : eBits e 8 2 0 = c.val)
include h hc

/-- An accepted LIN_SET performs its action. -/
theorem State.linSet_accepts {action : Nat} (ha : eBits e 8 9 8 = action) (k : Fin 8 → BitVec 512 → State) :
    s.linSet p action k = k c e := by
  rw [State.linSet, State.command_accepts h, if_pos ha, hc, Fin.ofNat_val_eq_self]

theorem execLinSetConfigure_accepts (ha : eBits e 8 9 8 = 0)
    (hk : ((s.setReg .lin c Reg.LIN_BAUD (eWord e 0x10 &&& 0x7FFF)).linCtrl c (eWord e 0xC)).2 = true) :
    execLinSetConfigure p s =
      .next (((s.setReg .lin c Reg.LIN_BAUD (eWord e 0x10 &&& 0x7FFF)).linCtrl c (eWord e 0xC)).1.complete p 0 0 0 0) := by
  rw [execLinSetConfigure, State.linSet_accepts h hc ha]
  dsimp only
  split
  · next e1 => rw [e1]; rfl
  · next e1 => rw [e1] at hk; exact absurd hk Bool.false_ne_true

theorem execLinSetLoadSchedule_accepts {u : State} {data : List Byte} (ha : eBits e 8 9 8 = 1)
    (hr : s.fwRead (p.val == 1) (eAddr e 0x10) 256 = (u, some data)) :
    execLinSetLoadSchedule p s =
      .next ((u.setLin c { u.lin c with sched := parseSched data, entry := 0, started := none }).complete p 0 0 0 0) := by
  rw [execLinSetLoadSchedule, State.linSet_accepts h hc ha, hr]
  rfl

theorem execLinSetStart_accepts (ha : eBits e 8 9 8 = 2) (hl : s.linCommander c = true) (hm : s.linMode c = 1)
    (hs : (s.lin c).sched ≠ []) :
    execLinSetStart p s = .next ((s.setLin c { s.lin c with active := true, started := none }).complete p 0 0 0 0) := by
  rw [execLinSetStart, State.linSet_accepts h hc ha]
  exact congrArg Host.Outcome.next (if_neg (by simp [hl, hm, hs]))

theorem execLinSetStop_accepts (ha : eBits e 8 9 8 = 3) :
    execLinSetStop p s = .next ((s.setLin c { s.lin c with active := false }).complete p 0 0 0 0) := by
  rw [execLinSetStop, State.linSet_accepts h hc ha]
  rfl

end Set

/-! ### CAN and LIN commands -/

/-- Settles O36: each clause is the completion of one command in one case, stated above for it. -/
theorem canAndLinCommandsComplete : Obligations.CanAndLinCommandsComplete := by
  unfold Obligations.CanAndLinCommandsComplete
  constructor
  · intro src c v f ago p e s u b t
    refine ⟨?modeWrite, ?canCtrl, ?canRec, ?receive, ?sent, ?recovery, ?canSet⟩
    case modeWrite => exact fun hr hw => execCanModeWrite_expert hr hw v
    case canCtrl =>
      rintro hm hn rfl
      refine ⟨fun hk => ?_, fun hk => ?_⟩ <;> rw [State.canCtrl_start hm hn, hk] <;> rfl
    case canRec => exact fun errs => ⟨State.canRec_rxErr_low, State.canRec_rxErr_high⟩
    case receive =>
      intro errs hg hm hb hu
      refine ⟨execCanFrameReceive_full hg hm hb f ago errs, fun hf => execCanFrameReceive_noMatch hg hm hb hu hf ago, ?_⟩
      intro i d x hf hd hx
      have key := execCanFrameReceive_match hg hm hb hu hf hd hx
      exact ⟨fun h => key.trans (by rw [if_pos h]), fun h => key.trans (by rw [h]; rfl)⟩
    case sent =>
      rintro corrected x hg hm hb hf hu rfl
      have hm' : (s.canMode c == 1 || s.canMode c == 3) = true := by simpa using hm
      have lost := execCanFrameSent_lost hg hm' hb hf hu
      have error := execCanFrameSent_error hg hm' hb hf hu
      refine ⟨execCanFrameSent_sent hg hm' hb hf hu, fun hr => ?again, fun hs hq => ?once⟩
      case again =>
        rw [State.canOnce_eq_false hr, if_neg Bool.false_ne_true] at lost error
        exact ⟨lost, fun h => error.trans (by rw [State.canTec_quiet _ _ h]), fun h hp => error.trans (by rw [State.canTec_passive _ _ h hp]),
          fun _ ho => error.trans (by rw [State.canTec_busOff _ _ ho])⟩
      case once =>
        rw [State.canOnce_eq_true hs hq, if_pos rfl] at lost error
        exact ⟨lost, fun h => error.trans (by rw [State.canTec_quiet _ _ (.inl h)])⟩
    case recovery => exact execCanBusoffRecovery_allowed
    case canSet =>
      exact fun h hc => ⟨fun ha ht hu hk => execCanSetConfigure_accepts h hc ha ht hu hk, execCanSetFilter_accepts h hc,
        execCanSetAbortBuffer_accepts h hc⟩
  · intro c p e s u id data enh h dl n t0
    refine ⟨?schedule, ?frameEnd, execLinHeaderReceive_responder (id := id), execLinWakeup_asleep, ?linSet⟩
    case schedule =>
      exact fun hg hc hm ha => ⟨execLinScheduleEntry_first hg hc hm ha, execLinScheduleEntry_next hg hc hm ha⟩
    case frameEnd =>
      refine fun hh hu => ⟨fun hr => ?_, fun own hr hs => execLinFrameEnd_own hh hu hr hs none⟩
      have key := execLinFrameEnd_frame hh hu hr data enh
      refine ⟨execLinFrameEnd_silent hh hu hr, execLinFrameEnd_checksum hh hu hr data enh, fun hs => ?_, fun hs => ?_⟩
      · exact key.trans (congrArg Host.Outcome.next (if_neg (by rw [hs]; decide)))
      · exact ⟨_, key, by rw [if_pos hs]; exact State.linMode_sleep _ _⟩
    case linSet =>
      exact fun hx hc => ⟨execLinSetConfigure_accepts hx hc, execLinSetLoadSchedule_accepts hx hc, execLinSetStart_accepts hx hc,
        execLinSetStop_accepts hx hc⟩

end Sys2Proof.Machine
end

section
/-! PROOFS. Every command keeps the queue, the fixed data and the canonical form of memory, and so does every step (O60). A proof walks back
from a command's answer to the state it was given, by the rule of each operation on the way. -/

namespace Sys2Proof.Machine

/-! ### Ports, share windows and DRAM upkeep -/

theorem execPortYield_keeps {r s : State} {p n} (h : Keeps r s) : KeepsOut r (execPortYield p n s) :=
  .next (.ite (State.count_keeps (State.setFld_keeps (.upd h))) h)

theorem execFlitCrcError_keeps {r s : State} {d p} (h : Keeps r s) : KeepsOut r (execFlitCrcError d p s) :=
  .next (.ite (State.raise_keeps (State.count_keeps h)) h)

theorem execDiePortLinkFail_keeps {r s : State} {d p} (h : Keeps r s) : KeepsOut r (execDiePortLinkFail d p s) :=
  .ite (.next h) (.next (State.revokeLink_keeps (State.raise_keeps (State.setFld_keeps (State.setFld_keeps h)))))

theorem execShareWindowStart_keeps {r s : State} {isPort i ended} (h : Keeps r s) : KeepsOut r (execShareWindowStart isPort i ended s) := by
  unfold execShareWindowStart
  repeat' with_reducible first
    | assumption | intro _ | apply KeepsOut.next | apply Keeps.foldl | apply State.count_keeps | apply State.raise_keeps
    | apply State.ignoredWrite_keeps | apply State.setReg_keeps | apply State.setShUse_keeps | split | simp only [Keeps.upd_iff]

theorem execDramRefresh_keeps {r s : State} {i} (h : Keeps r s) : KeepsOut r (execDramRefresh i s) :=
  .next (.ite (.upd h) h)

theorem execDriftCompensation_keeps {r s : State} {i} (h : Keeps r s) : KeepsOut r (execDriftCompensation i s) :=
  .next (.ite (.upd h) h)

theorem execDramTempRead_keeps {r s : State} {i temp} (h : Keeps r s) : KeepsOut r (execDramTempRead i temp s) :=
  .next (.ite (.upd (State.freeWord_keeps h)) h)

theorem execDramCeWriteback_keeps {r s : State} {g} (h : Keeps r s) : KeepsOut r (execDramCeWriteback g s) := by
  unfold execDramCeWriteback
  refine .next ?_
  split
  · exact State.writeBack_keeps h
  · exact h

theorem execLsEccWriteback_keeps {r s : State} {g} (h : Keeps r s) : KeepsOut r (execLsEccWriteback g s) := by
  unfold execLsEccWriteback
  refine .next ?_
  split
  · exact State.writeBack_keeps h
  · exact h

theorem execCsEccWriteback_keeps {r s : State} {g} (h : Keeps r s) : KeepsOut r (execCsEccWriteback g s) := by
  unfold execCsEccWriteback
  refine .next ?_
  split
  · exact State.writeBack_keeps h
  · exact h

theorem execPwlogPop_keeps {r s : State} {src d} (h : Keeps r s) : KeepsOut r (execPwlogPop src d s) :=
  .next (State.regCommand_keeps h (fun _ k => State.pwlogPop_keeps k))

/-! ### Time domains, triggers and captures -/

theorem execDomainStep_keeps {r s : State} {src d v} (h : Keeps r s) : KeepsOut r (execDomainStep src d v s) :=
  .next (State.tuWrite_keeps h (fun _ k => State.domStep_keeps k))

theorem execDomainLoad_keeps {r s : State} {src d} (h : Keeps r s) : KeepsOut r (execDomainLoad src d s) :=
  .next (State.tuWrite_keeps h (fun _ k => State.domLoad_keeps k))

theorem execDomainSlew_keeps {r s : State} {src d v} (h : Keeps r s) : KeepsOut r (execDomainSlew src d v s) :=
  .next (State.tuWrite_keeps h (fun _ k => State.domSlew_keeps k))

theorem execDomainEnable_keeps {r s : State} {src d en} (h : Keeps r s) : KeepsOut r (execDomainEnable src d en s) :=
  .next (State.tuWrite_keeps h (fun _ k => State.domEnable_keeps k))

theorem execSlewComplete_keeps {r s : State} {d} (h : Keeps r s) : KeepsOut r (execSlewComplete d s) :=
  .next h

theorem execTriggerConfig_keeps {r s : State} {src n v} (h : Keeps r s) : KeepsOut r (execTriggerConfig src n v s) :=
  .next (State.tuWrite_keeps h (fun _ k => State.writeTrig_keeps k))

theorem execTriggerEdge_keeps {r s : State} {n} (h : Keeps r s) : KeepsOut r (execTriggerEdge n s) :=
  .ite (.next h) (.next (.ite (.foldl (fun _ _ k => State.setWheel_keeps k) (State.setTrig_keeps h)) (State.setTrig_keeps h)))

theorem execTriggerPulseStart_keeps {r s : State} {n} (h : Keeps r s) : KeepsOut r (execTriggerPulseStart n s) :=
  .next (.ite (State.setTrig_keeps h) h)

theorem execTriggerPulseEnd_keeps {r s : State} {n} (h : Keeps r s) : KeepsOut r (execTriggerPulseEnd n s) := by
  unfold execTriggerPulseEnd
  dsimp only
  split
  · exact .next (.ite (State.setTrig_keeps h) h)
  · exact .next h

theorem execCaptureEdge_keeps {r s : State} {n rising} (h : Keeps r s) : KeepsOut r (execCaptureEdge n rising s) :=
  .next (.ite h (State.captureEdge_keeps h))

theorem execCapturePop_keeps {r s : State} {src n} (h : Keeps r s) : KeepsOut r (execCapturePop src n s) :=
  .next (State.regCommand_keeps h (fun _ k => State.capPop_keeps k))

theorem execTimeClockLoss_keeps {r s : State} (h : Keeps r s) : KeepsOut r (execTimeClockLoss s) :=
  .ite (.next h) (.next (.foldl (fun _ _ k => .ite (State.wheelStop_keeps k) k) (State.raise_keeps (.upd h))))

theorem execGptpFrameReceive_keeps {r s : State} {port d sync st gm} (h : Keeps r s) :
    KeepsOut r (execGptpFrameReceive port d sync st gm s) :=
  .next (.ite (State.setGptp_keeps (.ite (.upd (State.setDom_keeps (.upd h))) (State.setDom_keeps (.upd h)))) h)

theorem execGptpReceiptTimeout_keeps {r s : State} {d} (h : Keeps r s) : KeepsOut r (execGptpReceiptTimeout d s) :=
  .next (.ite (State.setGptp_keeps (State.setDom_keeps h)) h)

theorem execGptpSyncSend_keeps {r s : State} {port d relayed} (h : Keeps r s) : KeepsOut r (execGptpSyncSend port d relayed s) :=
  .next (.ite (.upd h) h)

/-! ### Wheels -/

theorem execPhaseTick_keeps {r s : State} {w} (h : Keeps r s) : KeepsOut r (execPhaseTick w s) :=
  .next (State.phaseTick_keeps h)

theorem execWheelStartEvent_keeps {r s : State} {w} (h : Keeps r s) : KeepsOut r (execWheelStartEvent w s) := by
  unfold execWheelStartEvent
  dsimp only
  split
  · exact .next h
  · exact .next (.ite (State.sourceEvent_keeps (State.setWheel_keeps h)) (State.loseSource_keeps (State.sourceEvent_keeps
      (State.setWheel_keeps h))))

theorem execSourceHoldTimeout_keeps {r s : State} {w} (h : Keeps r s) : KeepsOut r (execSourceHoldTimeout w s) :=
  .next (.ite (State.loseSource_keeps h) h)

theorem execFreeRunExpire_keeps {r s : State} {w} (h : Keeps r s) : KeepsOut r (execFreeRunExpire w s) :=
  .next (.ite (State.wheelStop_keeps h) h)

/-! ### Jobs -/

theorem execArgumentRead_keeps {r s : State} {p k} (h : Keeps r s) : KeepsOut r (execArgumentRead p k s) :=
  .next (State.argumentRead_keeps h)

theorem execPeriodicLaunch_keeps {r s : State} {i} (h : Keeps r s) : KeepsOut r (execPeriodicLaunch i s) := by
  unfold execPeriodicLaunch
  refine .next ?_
  split
  · exact State.periodicLaunch_keeps h
  · exact State.entryLaunch_keeps h

theorem execQueuedLaunch_keeps {r s : State} {pid} (h : Keeps r s) : KeepsOut r (execQueuedLaunch pid s) := by
  unfold execQueuedLaunch
  split
  · exact .next h
  · split
    · exact .next (State.finalize_keeps (.of_fst ‹_› (State.argRead_keeps h)))
    · exact .next (State.launch_keeps (State.touch_keeps (State.setAcct_keeps (.of_fst ‹_› (State.argRead_keeps h)))))

theorem execYieldRequest_keeps {r s : State} {pid} (h : Keeps r s) : KeepsOut r (execYieldRequest pid s) := by
  unfold execYieldRequest
  refine .next ?_
  split
  · exact h
  · refine .foldl (fun _ _ k => ?_) h
    split
    · exact k
    · split
      · exact .ite (State.store32_keeps k) k
      · exact k

theorem execYieldRelaunch_keeps {r s : State} {pid} (h : Keeps r s) : KeepsOut r (execYieldRelaunch pid s) := by
  unfold execYieldRelaunch
  split
  · exact .next h
  · exact .next (.foldl (fun _ _ k => State.startCore_keeps (State.setReg_keeps k)) (State.setJob_keeps (State.setAcct_keeps h)))

theorem execEndNotice_keeps {r s : State} {c} (h : Keeps r s) : KeepsOut r (execEndNotice c s) :=
  .next (State.endNotice_keeps h)

theorem execDeadlineCheck_keeps {r s : State} {i} (h : Keeps r s) : KeepsOut r (execDeadlineCheck i s) := by
  unfold execDeadlineCheck
  refine .next ?_
  split
  · exact State.deadlineCheck_keeps h
  · exact State.entryDeadline_keeps h

theorem execAccordSlotCheck_keeps {r s : State} {c} (h : Keeps r s) : KeepsOut r (execAccordSlotCheck c s) := by
  unfold execAccordSlotCheck
  refine .next ?_
  split
  · dsimp only
    split
    · exact .ite (State.accslip_keeps h) h
    · exact h
  · exact .ite (State.accslip_keeps h) h

theorem execIdleAccordStart_keeps {r s : State} {cl} (h : Keeps r s) : KeepsOut r (execIdleAccordStart cl s) :=
  .next (.ite (.foldl (fun _ _ k => .ite (State.accordBegin_keeps (State.putCore_keeps k)) k) h) h)

theorem execJobStopComplete_keeps {r s : State} {p k num} (h : Keeps r s) : KeepsOut r (execJobStopComplete p k num s) := by
  unfold execJobStopComplete
  refine .next ?_
  split
  · exact State.stopComplete_keeps h
  · exact h

theorem execAbortForward_keeps {r s : State} {p} (h : Keeps r s) : KeepsOut r (execAbortForward p s) := by
  unfold execAbortForward
  dsimp only
  split
  · exact .next h
  · exact .next (.upd (State.abortJob_keeps h))

theorem execAbortResult_keeps {r s : State} {cl} (h : Keeps r s) : KeepsOut r (execAbortResult cl s) := by
  unfold execAbortResult
  dsimp only
  split
  · exact .next h
  · refine .next ?_
    split
    · exact State.abortResult_keeps (.upd h)
    · exact .upd h

theorem execJobRecordPost_keeps {r s : State} (h : Keeps r s) : KeepsOut r (execJobRecordPost s) := by
  unfold execJobRecordPost
  split
  · exact .next h
  · exact .next (.ite (State.postRecord_keeps h) h)

/-! ### Cores -/

theorem execContextLoad_keeps {r s : State} {cl mask} (h : Keeps r s) : KeepsOut r (execContextLoad cl mask s) :=
  .next (.ite (State.loadCores_keeps h) h)

theorem execCoreStart_keeps {r s : State} {src c} (h : Keeps r s) : KeepsOut r (execCoreStart src c s) :=
  .next (State.regCommand_keeps h (fun _ k => State.guarded_keeps k (fun _ k' => State.expertStart_keeps k')))

theorem execHaltRequest_keeps {r s : State} {src c} (h : Keeps r s) : KeepsOut r (execHaltRequest src c s) :=
  .next (State.regCommand_keeps h (fun _ k => State.guarded_keeps k (fun _ k' => State.haltRequest_keeps k')))

theorem execHaltComplete_keeps {r s : State} {c} (h : Keeps r s) : KeepsOut r (execHaltComplete c s) :=
  .next (.ite (State.barClear_keeps (State.setCore_keeps h)) h)

theorem execStreamStart_keeps {r s : State} {c} (h : Keeps r s) : KeepsOut r (execStreamStart c s) :=
  .next (.ite (State.drainUnits_keeps (State.streamHead_keeps h)) h)

theorem execCoreStep_keeps {r s : State} {src c} (h : Keeps r s) : KeepsOut r (execCoreStep src c s) :=
  .next (State.regCommand_keeps h (fun _ k => State.guarded_keeps k (fun _ k' => State.expertStep_keeps k')))

theorem execErrstop_keeps {r s : State} {c} (h : Keeps r s) : KeepsOut r (execErrstop c s) := by
  unfold execErrstop
  dsimp only
  split
  · exact .next h
  · exact .ite (.next h) (.next (State.coreFailed_keeps (State.barClear_keeps (State.putCore_keeps (.foldl
      (fun _ _ k => State.recordPend_keeps k) h)))))

theorem execPairMismatch_keeps {r s : State} {p kind} (h : Keeps r s) : KeepsOut r (execPairMismatch p kind s) := by
  unfold execPairMismatch
  refine .ite (.next h) (.next ?_)
  split
  · exact .ite (State.failPart_keeps (State.coreFailed_keeps (State.raise_keeps (State.barClear_keeps (State.setCore_keeps
      (State.setCore_keeps (.ite (State.setReg_keeps (State.setReg_keeps (State.setFld_keeps h))) (State.setFld_keeps h))))))))
      (State.coreFailed_keeps (State.raise_keeps (State.barClear_keeps (State.setCore_keeps (State.setCore_keeps (.ite (State.setReg_keeps
      (State.setReg_keeps (State.setFld_keeps h))) (State.setFld_keeps h)))))))
  · exact State.coreFailed_keeps (State.raise_keeps (State.barClear_keeps (State.setCore_keeps (State.setCore_keeps (.ite
      (State.setReg_keeps (State.setReg_keeps (State.setFld_keeps h))) (State.setFld_keeps h))))))

theorem execPairEnable_keeps {r s : State} {src p en} (h : Keeps r s) : KeepsOut r (execPairEnable src p en s) :=
  .next (State.regCommand_keeps h (fun _ k => State.guarded_keeps k (fun _ k' => State.pairEnable_keeps k')))

theorem execAccordDone_keeps {r s : State} {c wrong} (h : Keeps r s) : KeepsOut r (execAccordDone c wrong s) := by
  unfold execAccordDone
  dsimp only
  split
  · exact .ite (.next h) (.next (.ite (State.release_keeps (State.putCore_keeps (.foldl (fun _ _ k => State.setReg_keeps k) (.upd
      (State.store_keeps h))))) (State.putCore_keeps (State.putCore_keeps (.foldl (fun _ _ k => State.setReg_keeps k) (.upd
      (State.store_keeps h)))))))
  · exact .next h

/-! ### Partitions -/

theorem execPartLoad_keeps {r s : State} {p sigOk code locks} (h : Keeps r s) : KeepsOut r (execPartLoad p sigOk code locks s) := by
  unfold execPartLoad
  repeat' with_reducible first
    | assumption | intro _ | apply KeepsOut.next | apply State.command_keeps | apply State.fwRead_keeps | apply State.complete_keeps
    | apply State.readImage_keeps | apply State.trace_keeps | apply State.refuse_keeps | apply State.admitPart_keeps | apply State.ok_keeps
    | split | refine Keeps.of_fst (by assumption) ?_ | dsimp only

theorem execPartUnload_keeps {r s : State} {p} (h : Keeps r s) : KeepsOut r (execPartUnload p s) := by
  unfold execPartUnload
  refine .next (State.command_keeps h (fun _ => ?_))
  dsimp only
  split
  · exact State.complete_keeps h
  · exact .ite h (.ite (State.complete_keeps h) (.ite (State.complete_keeps h) (State.beginUnload_keeps h)))

theorem execUnloadFinish_keeps {r s : State} {pid} (h : Keeps r s) : KeepsOut r (execUnloadFinish pid s) := by
  unfold execUnloadFinish
  refine .next ?_
  split
  · exact h
  · refine .ite h ?_
    dsimp only
    split
    · exact State.ok_keeps (State.removePart_keeps h)
    · exact State.removePart_keeps h

/-! ### Cameras -/

theorem execCsiPacketReceive_keeps {r s : State} {i hdr vc k} (h : Keeps r s) : KeepsOut r (execCsiPacketReceive i hdr vc k s) := by
  unfold execCsiPacketReceive
  refine .next (.ite h ?_)
  split
  · exact h
  · dsimp only
    split
    · exact .ite (State.raise_keeps h) h
    · exact State.frameStart_keeps (.ite (State.raise_keeps h) h)
    · exact .foldl (fun _ _ k => State.endFrame_keeps k) (.ite (State.raise_keeps h) h)
    · exact .foldl (fun _ _ k => State.camLine_keeps k) (.ite (State.raise_keeps h) h)

theorem execFrameRecordFinal_keeps {r s : State} {sid} (h : Keeps r s) : KeepsOut r (execFrameRecordFinal sid s) := by
  unfold execFrameRecordFinal
  refine .next ?_
  split
  · exact h
  · split
    · exact h
    · refine State.setReg_keeps (State.setStream_keeps (State.unitWrite_keeps ?_))
      split
      · exact h
      · exact State.freeWord_keeps h

theorem execStreamDueCheck_keeps {r s : State} {sid} (h : Keeps r s) : KeepsOut r (execStreamDueCheck sid s) := by
  unfold execStreamDueCheck
  refine .next ?_
  split
  · exact h
  · exact .ite (State.setStream_keeps (State.camRaise_keeps h)) h

theorem execCsiPhySync_keeps {r s : State} {i sync} (h : Keeps r s) : KeepsOut r (execCsiPhySync i sync s) :=
  .next (.ite (State.setFld_keeps h) h)

theorem execCamStream_keeps {r s : State} {p} (h : Keeps r s) : KeepsOut r (execCamStream p s) := by
  unfold execCamStream
  refine .next (State.command_keeps h (fun _ => .ite (State.ok_keeps (.upd h)) ?_))
  split
  · exact State.complete_keeps (.of_fst ‹_› (State.fwRead_keeps h))
  · split
    · exact State.refuse_keeps (.of_fst ‹_› (State.fwRead_keeps h))
    · exact .ite (State.refuse_keeps (.of_fst ‹_› (State.fwRead_keeps h))) (.ite (State.refuse_keeps (.of_fst ‹_› (State.fwRead_keeps h)))
        (.ite (State.complete_keeps (.of_fst ‹_› (State.fwRead_keeps h))) (.ite (State.refuse_keeps (.of_fst ‹_› (State.fwRead_keeps h)))
        (State.ok_keeps (State.setStream_keeps (State.setReg_keeps (.of_fst ‹_› (State.fwRead_keeps h))))))))

theorem execIspTune_keeps {r s : State} {p good} (h : Keeps r s) : KeepsOut r (execIspTune p good s) := by
  unfold execIspTune
  refine .next (State.command_keeps h (fun _ => ?_))
  dsimp only
  split
  · exact State.complete_keeps h
  · exact .ite (State.refuse_keeps (State.raise_keeps h)) (State.ok_keeps (.upd (State.setStream_keeps h)))

/-! ### Application CPUs -/

theorem execHxattrWrite_keeps {r s : State} {hart v} (h : Keeps r s) : KeepsOut r (execHxattrWrite hart v s) :=
  .next (.ite (State.setHart_keeps h) h)

theorem execHxwayWrite_keeps {r s : State} {hart v} (h : Keeps r s) : KeepsOut r (execHxwayWrite hart v s) :=
  .next (.ite (State.setHart_keeps h) h)

theorem execMxpark_keeps {r s : State} {hart} (h : Keeps r s) : KeepsOut r (execMxpark hart s) :=
  .next (.ite (State.setCpuPair_keeps h) h)

theorem execMxwdkick_keeps {r s : State} {hart} (h : Keeps r s) : KeepsOut r (execMxwdkick hart s) :=
  .next (.ite (State.setCpuPair_keeps h) h)

theorem execCpuPwb_keeps {r s : State} {hart} (h : Keeps r s) : KeepsOut r (execCpuPwb hart s) :=
  .next (.ite (State.setHart_keeps h) h)

theorem execCpuWatchdogExpire_keeps {r s : State} {p} (h : Keeps r s) : KeepsOut r (execCpuWatchdogExpire p s) :=
  .next (.ite (State.setCpuPair_keeps (State.raise_keeps h)) h)

theorem execTrustedPairRelease_keeps {r s : State} {p image} (h : Keeps r s) : KeepsOut r (execTrustedPairRelease p image s) :=
  .next (.ite (.ite (State.setFld_keeps (State.releasePair_keeps (State.store_keeps h))) (State.setCpuPair_keeps (State.raise_keeps
    (State.store_keeps h)))) h)

theorem execCpuPairStopped_keeps {r s : State} {p} (h : Keeps r s) : KeepsOut r (execCpuPairStopped p s) :=
  .next (.ite (State.setCpuPair_keeps (State.flushPair_keeps h)) h)

theorem execCpuLockstepMismatch_keeps {r s : State} {p kind a} (h : Keeps r s) : KeepsOut r (execCpuLockstepMismatch p kind a s) :=
  .next (.ite (State.haltPair_keeps (State.raise_keeps (State.setReg2_keeps (State.setReg_keeps (State.setReg_keeps
    (State.freeWord_keeps h)))))) h)

theorem execJtagAccess_keeps {r s : State} {scan p enter} (h : Keeps r s) : KeepsOut r (execJtagAccess scan p enter s) := by
  unfold execJtagAccess
  refine .next ?_
  split
  · exact .ite (.upd h) h
  · exact .ite (State.setCpuPair_keeps h) h

/-! ### Graphics -/

theorem execGfxQueuePoll_keeps {r s : State} {q} (h : Keeps r s) : KeepsOut r (execGfxQueuePoll q s) :=
  .next (State.gfxCheck_keeps h)

theorem execRenderPassStart_keeps {r s : State} {q d need stalls acts} (h : Keeps r s) :
    KeepsOut r (execRenderPassStart q d need stalls acts s) := by
  unfold execRenderPassStart
  refine .next ?_
  split
  · exact h
  · refine .ite h ?_
    split
    · exact State.raise_keeps (State.setGfx_keeps (State.emptyTex_keeps h))
    · refine State.setGfx_keeps (State.gfxActs_keeps (State.fastClears_keeps (.ite (State.count_keeps (State.count_keeps ?_))
        (State.raise_keeps (State.count_keeps (State.count_keeps ?_))))))
      all_goals
        dsimp only
        split
        · exact .upd (State.emptyTex_keeps h)
        · exact State.emptyTex_keeps h

theorem execPassWriteback_keeps {r s : State} {q acts} (h : Keeps r s) : KeepsOut r (execPassWriteback q acts s) := by
  unfold execPassWriteback
  refine .next ?_
  split
  · exact h
  · refine .ite h ?_
    split
    · dsimp only
      split
      · exact State.present_keeps (State.passEnd_keeps (.of_fst ‹_› (.ite_fst (State.renderRest_keeps h) (.ite_fst
          (State.spoil_keeps h) h))))
      · exact State.passEnd_keeps (.of_fst ‹_› (.ite_fst (State.renderRest_keeps h) (.ite_fst (State.spoil_keeps h) h)))

theorem execCompositorPreempt_keeps {r s : State} {acts} (h : Keeps r s) : KeepsOut r (execCompositorPreempt acts s) := by
  unfold execCompositorPreempt
  refine .next ?_
  split
  · split
    · exact h
    · exact State.count_keeps (State.setGfx_keeps (.ite_fst (State.gfxActs_keeps h) h))
  · exact h

theorem execGfxQueue_keeps {r s : State} {p} (h : Keeps r s) : KeepsOut r (execGfxQueue p s) :=
  .next (State.command_keeps h (fun _ => .ite (State.ok_keeps (State.setGfx_keeps h)) (.ite (State.complete_keeps h) (.ite
    (State.refuse_keeps h) (State.withCtx_keeps h (fun _ k => State.ok_keeps (State.setGfx_keeps k)))))))

theorem execGfxPool_keeps {r s : State} {p} (h : Keeps r s) : KeepsOut r (execGfxPool p s) :=
  .next (State.command_keeps h (fun _ => State.withCtx_keeps h (fun _ k => .ite (State.refuse_keeps k) (State.ok_keeps (.upd k)))))

/-! ### Displays and codecs -/

theorem execDisplayLatch_keeps {r s : State} {o} (h : Keeps r s) : KeepsOut r (execDisplayLatch o s) :=
  .next (.ite (.foldl (fun _ _ k => State.latchPlane_keeps k) h) h)

theorem execImageRelease_keeps {r s : State} {o} (h : Keeps r s) : KeepsOut r (execImageRelease o s) := by
  unfold execImageRelease
  refine .next (.ite (.foldl (fun _ _ k => ?_) h) h)
  split
  · exact State.setPlane_keeps k
  · exact k

theorem execScanOutLine_keeps {r s : State} {o arrived} (h : Keeps r s) : KeepsOut r (execScanOutLine o arrived s) := by
  unfold execScanOutLine
  repeat' with_reducible first
    | assumption | apply KeepsOut.next | apply State.applyPlanes_keeps | apply State.composeLine_keeps | apply State.raise_keeps
    | apply State.count_keeps | apply State.setFld_keeps | apply State.internalEvent_keeps | split | simp only [Keeps.upd_iff]

theorem execDisplayLinkLoss_keeps {r s : State} {o} (h : Keeps r s) : KeepsOut r (execDisplayLinkLoss o s) :=
  .next (.ite (State.raise_keeps (.upd h)) h)

theorem execDspOut_keeps {r s : State} {p trained} (h : Keeps r s) : KeepsOut r (execDspOut p trained s) := by
  unfold execDspOut
  repeat' with_reducible first
    | assumption | intro _ | apply KeepsOut.next | apply State.command_keeps | apply State.complete_keeps | apply State.setFld_keeps
    | apply State.ok_keeps | apply State.raise_keeps | apply State.refuse_keeps | apply State.setReg_keeps | split
    | simp only [Keeps.upd_iff]

theorem execDspPlane_keeps {r s : State} {p i} (h : Keeps r s) : KeepsOut r (execDspPlane p i s) := by
  unfold execDspPlane
  refine .next (State.command_keeps h (fun _ => .ite (State.complete_keeps h) (.ite (State.ok_keeps (.upd h)) ?_)))
  split
  · exact State.refuse_keeps (State.raise_keeps h)
  · exact State.withCtx_keeps h (fun _ k => State.ok_keeps (.upd h))

theorem execCodecSession_keeps {r s : State} {p} (h : Keeps r s) : KeepsOut r (execCodecSession p s) :=
  .next (State.command_keeps h (fun _ => .ite (State.ok_keeps (.upd h)) (.ite (State.complete_keeps h) (.ite (State.refuse_keeps h)
    (State.withCtx_keeps h (fun _ k => State.ok_keeps (.upd k)))))))

theorem execCodecPicture_keeps {r s : State} {k out len err ref} (h : Keeps r s) : KeepsOut r (execCodecPicture k out len err ref s) := by
  unfold execCodecPicture
  repeat' with_reducible first
    | assumption | apply KeepsOut.next | apply State.unitRead_keeps | apply State.raise_keeps | apply State.freeWord_keeps
    | apply State.unitWriteOk_keeps | apply State.unitWrite_keeps | split | refine Keeps.of_fst (by assumption) ?_
    | simp only [Keeps.upd_iff]

/-! ### Ring pairs and job commands -/

theorem execRingPoll_keeps {r s : State} {p} (h : Keeps r s) : KeepsOut r (execRingPoll p s) :=
  .next (State.inspect_keeps h)

theorem execCmdNop_keeps {r s : State} {p} (h : Keeps r s) : KeepsOut r (execCmdNop p s) :=
  .next (State.command_keeps h (fun _ => State.ok_keeps h))

theorem execRingOpen_keeps {r s : State} {p} (h : Keeps r s) : KeepsOut r (execRingOpen p s) := by
  unfold execRingOpen
  with_reducible refine .next (State.command_keeps h (fun _ => .ite (State.complete_keeps h) (.ite (State.complete_keeps h) (.ite
    (State.complete_keeps h) (.ite (State.refuseFree_keeps h) (.ite (State.ok_keeps (State.openRing_keeps h)) (.ite h ?_)))))))
  split
  · with_reducible exact State.complete_keeps (.of_fst ‹_› (State.fwRead_keeps h))
  · with_reducible refine .ite (State.complete_keeps (.of_fst ‹_› (State.fwRead_keeps h))) ?_
    split
    · with_reducible exact State.complete_keeps (.of_fst ‹_› (State.fwRead_keeps (.of_fst ‹_› (State.fwRead_keeps h))))
    · split
      · with_reducible exact State.complete_keeps (.of_fst ‹_› (State.fwRead_keeps (.of_fst ‹_› (State.fwRead_keeps h))))
      · split
        · with_reducible exact State.refuse_keeps (.of_fst ‹_› (State.fwRead_keeps (.of_fst ‹_› (State.fwRead_keeps h))))
        · with_reducible exact State.ok_keeps (State.openRing_keeps (.of_some ‹_› (State.ringSlot_keeps (.of_fst ‹_› (State.fwRead_keeps
            (.of_fst ‹_› (State.fwRead_keeps h)))))))

theorem execRingClose_keeps {r s : State} {p} (h : Keeps r s) : KeepsOut r (execRingClose p s) :=
  .next (State.command_keeps h (fun _ => .ite (State.complete_keeps h) (.ite (State.complete_keeps h) (.ite (.ite h
    (State.complete_keeps h)) (.ite (State.ok_keeps (State.closeRing_keeps h)) (State.setRing_keeps h))))))

theorem execJobArm_keeps {r s : State} {p} (h : Keeps r s) : KeepsOut r (execJobArm p s) :=
  .next (State.command_keeps h (fun _ => .ite (State.complete_keeps h) (State.withKind_keeps h (fun _ _ => .ite (State.complete_keeps h)
    (.ite (State.refuse_keeps h) (.ite (State.complete_keeps h) (State.complete_keeps (State.setPart_keeps h))))))))

theorem execJobDisarm_keeps {r s : State} {p} (h : Keeps r s) : KeepsOut r (execJobDisarm p s) :=
  .next (State.command_keeps h (fun _ => State.withKind_keeps h (fun _ _ => State.ok_keeps (State.setPart_keeps (State.unstage_keeps h)))))

theorem execJobSubmit_keeps {r s : State} {p} (h : Keeps r s) : KeepsOut r (execJobSubmit p s) :=
  .next (State.command_keeps h (fun _ => .ite (State.complete_keeps h) (State.withKind_keeps h (fun _ _ => .ite (State.complete_keeps h)
    (.ite (State.refuse_keeps h) (.ite (State.complete_keeps h) (State.complete_keeps (State.addJob_keeps (State.setPart_keeps h)))))))))

theorem execJobAbort_keeps {r s : State} {p} (h : Keeps r s) : KeepsOut r (execJobAbort p s) := by
  unfold execJobAbort
  refine .next (State.command_keeps h (fun _ => ?_))
  dsimp only
  split
  · exact State.complete_keeps h
  · refine .ite (State.complete_keeps h) ?_
    split
    · exact State.complete_keeps h
    · exact .ite (State.complete_keeps h) (State.complete_keeps (.ite (State.stopJob_keeps (State.finalize_keeps h))
        (State.finalize_keeps h)))

/-! ### Time commands of ring pairs -/

theorem execWheelSet_keeps {r s : State} {p} (h : Keeps r s) : KeepsOut r (execWheelSet p s) :=
  .next (State.command_keeps h (fun _ => .ite (State.refuseFree_keeps h) (.ite (State.ok_keeps (State.writeWhlCfg_keeps
    (State.setReg_keeps h))) (.ite (State.ok_keeps h) (.ite (State.refuseFree_keeps h) (State.ok_keeps (State.armWheel_keeps
    (State.setReg_keeps h))))))))

theorem execTimeSetEnable_keeps {r s : State} {p} (h : Keeps r s) : KeepsOut r (execTimeSetEnable p s) :=
  .next (State.timeSet_keeps h (fun _ _ => State.ok_keeps (State.domEnable_keeps h)))

theorem execTimeSetDisable_keeps {r s : State} {p} (h : Keeps r s) : KeepsOut r (execTimeSetDisable p s) :=
  .next (State.timeSet_keeps h (fun _ _ => .ite (State.refuseFree_keeps (State.domEnable_keeps h)) (State.ok_keeps
    (State.domEnable_keeps h))))

theorem execTimeSetRate_keeps {r s : State} {p} (h : Keeps r s) : KeepsOut r (execTimeSetRate p s) :=
  .next (State.timeSet_keeps h (fun _ _ => .ite (State.ok_keeps (State.setReg_keeps h)) (State.complete_keeps h)))

theorem execTimeSetSlew_keeps {r s : State} {p} (h : Keeps r s) : KeepsOut r (execTimeSetSlew p s) :=
  .next (State.timeSet_keeps h (fun _ _ => .ite (State.ok_keeps (State.domSlew_keeps h)) (State.complete_keeps h)))

theorem execTimeSetStep_keeps {r s : State} {p} (h : Keeps r s) : KeepsOut r (execTimeSetStep p s) :=
  .next (State.timeSet_keeps h (fun _ _ => .ite (State.refuseFree_keeps (State.domStep_keeps h)) (State.ok_keeps (State.trace_keeps
    (State.domStep_keeps h)))))

theorem execTimeSetLoad_keeps {r s : State} {p} (h : Keeps r s) : KeepsOut r (execTimeSetLoad p s) :=
  .next (State.timeSet_keeps h (fun _ _ => .ite (State.refuseFree_keeps (State.domLoad_keeps (State.setReg2_keeps h))) (State.ok_keeps
    (State.domLoad_keeps (State.setReg2_keeps h)))))

theorem execTimeSetDomainNumber_keeps {r s : State} {p} (h : Keeps r s) : KeepsOut r (execTimeSetDomainNumber p s) :=
  .next (State.timeSet_keeps h (fun _ _ => .ite (State.ok_keeps (State.setFld_keeps h)) (State.complete_keeps h)))

theorem execTrigSet_keeps {r s : State} {p} (h : Keeps r s) : KeepsOut r (execTrigSet p s) :=
  .next (State.command_keeps h (fun _ => .ite (State.complete_keeps (.ite h (State.trigDisable_keeps h))) (.ite (State.ok_keeps
    (State.writeTrig_keeps (State.setReg_keeps (State.setReg_keeps (State.setReg_keeps (State.setReg_keeps (State.setReg_keeps h)))))))
    (State.refuseFree_keeps (State.writeTrig_keeps (State.setReg_keeps (State.setReg_keeps (State.setReg_keeps (State.setReg_keeps
    (State.setReg_keeps h))))))))))

theorem execCapSet_keeps {r s : State} {p} (h : Keeps r s) : KeepsOut r (execCapSet p s) :=
  .next (State.command_keeps h (fun _ => .ite (State.ok_keeps (State.writeCap_keeps h)) (State.refuseFree_keeps (State.writeCap_keeps h))))

theorem execTimeRead_keeps {r s : State} {p} (h : Keeps r s) : KeepsOut r (execTimeRead p s) :=
  .next (State.command_keeps h (fun _ => .ite (State.complete_keeps h) (State.copyOut_keeps h)))

theorem execCapRead_keeps {r s : State} {p} (h : Keeps r s) : KeepsOut r (execCapRead p s) := by
  unfold execCapRead
  refine .next (State.command_keeps h (fun _ => .ite (State.complete_keeps h) ?_))
  split
  · exact State.complete_keeps (State.setCap_keeps (.of_fst ‹_› (State.fwWrite_keeps h)))
  · exact .ite (State.ok_keeps h) (State.complete_keeps (.of_fst ‹_› (State.fwWrite_keeps h)))

theorem execAcctRead_keeps {r s : State} {p} (h : Keeps r s) : KeepsOut r (execAcctRead p s) :=
  .next (State.command_keeps h (fun _ => .ite (State.complete_keeps h) (.ite (State.complete_keeps h) (.ite (State.complete_keeps h)
    (State.copyOut_keeps h)))))

theorem execLogCfg_keeps {r s : State} {p} (h : Keeps r s) : KeepsOut r (execLogCfg p s) :=
  .next (State.command_keeps h (fun _ => State.ok_keeps (State.store32_keeps (.upd h))))

/-! ### Firmware processors and the management core -/

theorem execWatchdogExpire_keeps {r s : State} {k} (h : Keeps r s) : KeepsOut r (execWatchdogExpire k s) :=
  .next (.ite (State.restartFp_keeps h) h)

theorem execFpException_keeps {r s : State} {k} (h : Keeps r s) : KeepsOut r (execFpException k s) :=
  .next (.ite (State.restartFp_keeps h) h)

theorem execFpRunning_keeps {r s : State} {k digest} (h : Keeps r s) : KeepsOut r (execFpRunning k digest s) :=
  .next (.ite h (.ite (.ite (State.fpBack_keeps (State.measureFp4_keeps h)) (State.packageFail_keeps (State.setFp_keeps (State.raise_keeps
    (State.measureFp4_keeps h))))) (State.fpBack_keeps h)))

theorem execFpStartTimeout_keeps {r s : State} {k} (h : Keeps r s) : KeepsOut r (execFpStartTimeout k s) :=
  .next (.ite (State.packageFail_keeps (State.raise_keeps (State.setFp_keeps h))) h)

theorem execMcWatchdogExpire_keeps {r s : State} (h : Keeps r s) : KeepsOut r (execMcWatchdogExpire s) :=
  .next (.ite (State.mcFail_keeps h) h)

theorem execMcShadowMismatch_keeps {r s : State} (h : Keeps r s) : KeepsOut r (execMcShadowMismatch s) :=
  .next (.ite (State.mcFail_keeps h) h)

/-! ### Woade links -/

theorem execWoadeRoundStart_keeps {r s : State} (h : Keeps r s) : KeepsOut r (execWoadeRoundStart s) := by
  unfold execWoadeRoundStart
  refine .next (.ite h (State.setReg_keeps (State.setWde_keeps ?_)))
  split
  · exact .ite (State.setReg_keeps (State.setWde_keeps h)) h
  · exact h

theorem execWoadeSlotStart_keeps {r s : State} {back} (h : Keeps r s) : KeepsOut r (execWoadeSlotStart back s) :=
  .next (.ite h (.foldl (fun _ _ k => State.portSlot_keeps k) (.foldl (fun _ _ k => State.sortArrival_keeps k) (.ite
    (State.heartbeatRound_keeps (State.setWde_keeps h)) (State.setWde_keeps h)))))

theorem execMaintenanceFlit_keeps {r s : State} {p m} (h : Keeps r s) : KeepsOut r (execMaintenanceFlit p m s) := by
  unfold execMaintenanceFlit
  refine .next (.ite h ?_)
  dsimp only
  split
  · split
    · exact State.linkCheck_keeps (State.count_keeps (State.setWport_keeps h))
    · exact State.count_keeps (State.setWport_keeps h)
  · refine .ite ?_ (.ite (State.setReg_keeps (State.setWde_keeps ?_)) (State.partnerLoss_keeps (State.setReg_keeps
      (State.setWde_keeps ?_))))
    all_goals
      split
      · exact State.linkCheck_keeps (State.count_keeps (State.setWport_keeps h))
      · exact State.count_keeps (State.setWport_keeps h)

theorem execWoadeFlitReceive_keeps {r s : State} {p f} (h : Keeps r s) : KeepsOut r (execWoadeFlitReceive p f s) := by
  unfold execWoadeFlitReceive
  refine .next (.ite h ?_)
  split
  · exact State.frameLost_keeps h
  · split
    · exact State.countTx_keeps (State.count_keeps (State.setWport_keeps h))
    · exact h
  · refine .ite (State.joinFlit_keeps (.ite (State.count_keeps h) (State.wdeRaise_keeps (State.count_keeps (State.count_keeps h))))) (.ite
      (State.setWde_keeps (.ite (State.count_keeps h) (State.wdeRaise_keeps (State.count_keeps (State.count_keeps h))))) ?_)
    split
    · exact .ite (State.setWde_keeps (.ite (State.count_keeps h) (State.wdeRaise_keeps (State.count_keeps (State.count_keeps h))))) (.ite
        (State.count_keeps h) (State.wdeRaise_keeps (State.count_keeps (State.count_keeps h))))
    · exact State.wdeRaise_keeps (.ite (State.count_keeps h) (State.wdeRaise_keeps (State.count_keeps (State.count_keeps h))))

theorem execWoadeMessageReceive_keeps {r s : State} (h : Keeps r s) : KeepsOut r (execWoadeMessageReceive s) := by
  unfold execWoadeMessageReceive
  refine .next ?_
  split
  · exact h
  · exact .ite (State.setWde_keeps h) (.ite (State.seqSkip_keeps (State.msgLost_keeps (State.setWde_keeps h))) (State.rqDeliver_keeps (.ite
      (State.seqCheck_keeps (State.setWde_keeps h)) (State.msgLost_keeps (State.seqCheck_keeps (State.setWde_keeps h))))))

theorem execWoadeSqPoll_keeps {r s : State} {q} (h : Keeps r s) : KeepsOut r (execWoadeSqPoll q s) :=
  .next (State.sqCheck_keeps h)

theorem execWoadeSendWriteback_keeps {r s : State} {q} (h : Keeps r s) : KeepsOut r (execWoadeSendWriteback q s) := by
  unfold execWoadeSendWriteback
  refine .next ?_
  split
  · exact h
  · split
    · dsimp only
      split
      · exact State.setWsq_keeps (.of_fst ‹_› (State.unitRead_keeps h))
      · split
        · exact .ite (State.setFld_keeps (State.setWsq_keeps (.of_fst ‹_› (State.unitWriteOk_keeps (.of_fst ‹_›
            (State.unitRead_keeps h)))))) (State.setWsq_keeps (.of_fst ‹_› (State.unitWriteOk_keeps (.of_fst ‹_›
            (State.unitRead_keeps h)))))
        · exact State.setWsq_keeps (.of_fst ‹_› (State.unitWriteOk_keeps (.of_fst ‹_› (State.unitRead_keeps h))))
    · exact h

theorem execWoadePortDown_keeps {r s : State} {p} (h : Keeps r s) : KeepsOut r (execWoadePortDown p s) :=
  .next (.ite (State.wportDown_keeps h) h)

theorem execWoadePortUp_keeps {r s : State} {p} (h : Keeps r s) : KeepsOut r (execWoadePortUp p s) :=
  .next (.ite (State.setWport_keeps h) h)

theorem execWoadeTrainTimeout_keeps {r s : State} {p} (h : Keeps r s) : KeepsOut r (execWoadeTrainTimeout p s) :=
  .next (.ite (State.wdeRaise_keeps (State.setWport_keeps h)) h)

theorem execWoadeTrainRetry_keeps {r s : State} {p} (h : Keeps r s) : KeepsOut r (execWoadeTrainRetry p s) :=
  .next (.ite (State.setWport_keeps h) h)

theorem execWoadeMessageDiscard_keeps {r s : State} {f} (h : Keeps r s) : KeepsOut r (execWoadeMessageDiscard f s) := by
  unfold execWoadeMessageDiscard
  refine .next ?_
  split
  · exact h
  · split
    · exact .ite (State.sqEnd_keeps (State.count_keeps (State.setWflow_keeps h))) h
    · exact .ite (State.sqEnd_keeps (State.setWflow_keeps h)) h
    · exact h

theorem execPartnerLoss_keeps {r s : State} (h : Keeps r s) : KeepsOut r (execPartnerLoss s) :=
  .next (.ite (State.partnerLoss_keeps h) h)

theorem execWdeTopo_keeps {r s : State} {p} (h : Keeps r s) : KeepsOut r (execWdeTopo p s) :=
  .next (State.command_keeps h (fun _ => .ite (State.refuse_keeps h) (.ite (State.refuse_keeps h) (State.ok_keeps (State.setReg_keeps
    (State.setReg_keeps h))))))

theorem execWdePort_keeps {r s : State} {p} (h : Keeps r s) : KeepsOut r (execWdePort p s) :=
  .next (State.command_keeps h (fun _ => .ite (State.ok_keeps (.ite (State.wportOff_keeps h) (State.setWport_keeps h))) (.ite
    (State.complete_keeps h) (.ite (State.setWport_keeps h) h))))

theorem execWdeFlow_keeps {r s : State} {p} (h : Keeps r s) : KeepsOut r (execWdeFlow p s) :=
  .next (State.command_keeps h (fun _ => .ite (State.refuse_keeps h) (.ite (.ite (State.refuse_keeps h) (State.ok_keeps
    (State.setWde_keeps h))) (State.withCtx_keeps h (fun _ k => State.ok_keeps (State.setWflow_keeps k))))))

theorem execWdeSched_keeps {r s : State} {p} (h : Keeps r s) : KeepsOut r (execWdeSched p s) := by
  unfold execWdeSched
  refine .next (State.command_keeps h (fun _ => .ite (State.complete_keeps h) ?_))
  split
  · exact State.complete_keeps (.of_fst ‹_› (State.fwRead_keeps h))
  · exact .ite (State.refuse_keeps (.of_fst ‹_› (State.fwRead_keeps h))) (.ite (State.refuse_keeps (.of_fst ‹_› (State.fwRead_keeps h)))
      (State.ok_keeps (State.setReg_keeps (State.setWde_keeps (.of_fst ‹_› (State.fwRead_keeps h))))))

theorem execWdeSqueue_keeps {r s : State} {p} (h : Keeps r s) : KeepsOut r (execWdeSqueue p s) := by
  unfold execWdeSqueue
  refine .next (State.command_keeps h (fun _ => .ite (State.ok_keeps (State.setWde_keeps h)) (.ite (State.complete_keeps h) ?_)))
  split
  · exact State.refuse_keeps h
  · exact State.ok_keeps (State.setWsq_keeps h)

theorem execWdeRqueue_keeps {r s : State} {p} (h : Keeps r s) : KeepsOut r (execWdeRqueue p s) :=
  .next (State.command_keeps h (fun _ => .ite (State.ok_keeps (State.setWde_keeps h)) (.ite (State.complete_keeps h) (State.withCtx_keeps h
    (fun _ k => State.ok_keeps (State.setWrq_keeps k))))))

theorem execWdePair_keeps {r s : State} {p} (h : Keeps r s) : KeepsOut r (execWdePair p s) :=
  .next (State.command_keeps h (fun _ => .ite (State.ok_keeps (State.setWde_keeps h)) (.ite (State.refuse_keeps h) (State.ok_keeps
    (State.setWde_keeps h)))))

/-! ### Bring-up -/

theorem execResetRelease_keeps {r s : State} {cool steps} (h : Keeps r s) : KeepsOut r (execResetRelease cool steps s) :=
  .next (.ite (State.bootSteps_keeps (State.setFld_keeps (State.setPkg_keeps h))) (.ite (State.bootSteps_keeps h) h))

theorem execBringupTimeout_keeps {r s : State} {die} (h : Keeps r s) : KeepsOut r (execBringupTimeout die s) :=
  .next (.ite (State.bootFail_keeps h) h)

theorem execCoolOkAssert_keeps {r s : State} {fail} (h : Keeps r s) : KeepsOut r (execCoolOkAssert fail s) :=
  .next (.ite h (.ite (State.tolidStart_keeps (State.setFld_keeps h)) (.ite (.upd (State.setFld_keeps h)) (State.setFld_keeps h))))

/-! ### CAN and LIN -/

theorem execCanModeWrite_keeps {r s : State} {src c v} (h : Keeps r s) : KeepsOut r (execCanModeWrite src c v s) :=
  .next (State.regCommand_keeps h (fun _ k => State.guarded_keeps k (fun _ k' => State.canCtrl_keeps k')))

theorem execCanFrameReceive_keeps {r s : State} {c f ago room errs} (h : Keeps r s) :
    KeepsOut r (execCanFrameReceive c f ago room errs s) := by
  unfold execCanFrameReceive
  refine .next (.ite h (.ite (State.raise_keeps (State.canRec_keeps h)) ?_))
  dsimp only
  split
  · exact State.count_keeps (State.count_keeps (State.canRec_keeps h))
  · exact .ite (State.pdusReceive_keeps (.ite (State.qDeliver_keeps (State.count_keeps (State.canRec_keeps h))) (State.count_keeps
      (State.canRec_keeps h)))) (.ite (State.qDeliver_keeps (State.count_keeps (State.canRec_keeps h))) (State.count_keeps
      (State.canRec_keeps h)))

theorem execCanFrameSent_keeps {r s : State} {c i corrected} (h : Keeps r s) : KeepsOut r (execCanFrameSent c i corrected s) := by
  unfold execCanFrameSent
  refine .next (.ite h ?_)
  split
  · exact h
  · dsimp only
    split
    · exact State.canFree_keeps (State.count_keeps (State.setCan_keeps (.ite (State.raise_keeps h) h)))
    · exact .ite (State.canFree_keeps (.ite (State.raise_keeps h) h)) (.ite (State.raise_keeps h) h)
    · exact .ite (State.canFree_keeps (.ite (State.raise_keeps (.ite (State.raise_keeps (State.setCan_keeps (.ite
        (State.raise_keeps h) h))) (State.setCan_keeps (.ite (State.raise_keeps h) h)))) (.ite (State.raise_keeps (State.setCan_keeps (.ite
        (State.raise_keeps h) h))) (State.setCan_keeps (.ite (State.raise_keeps h) h))))) (.ite (State.raise_keeps (.ite (State.raise_keeps
        (State.setCan_keeps (.ite (State.raise_keeps h) h))) (State.setCan_keeps (.ite (State.raise_keeps h) h)))) (.ite (State.raise_keeps
        (State.setCan_keeps (.ite (State.raise_keeps h) h))) (State.setCan_keeps (.ite (State.raise_keeps h) h))))

theorem execCanBusoffRecovery_keeps {r s : State} {c} (h : Keeps r s) : KeepsOut r (execCanBusoffRecovery c s) :=
  .next (.ite (State.setCan_keeps h) h)

theorem execCanSetConfigure_keeps {r s : State} {p} (h : Keeps r s) : KeepsOut r (execCanSetConfigure p s) := by
  unfold execCanSetConfigure
  refine .next (State.canSet_keeps h (fun _ _ => .ite (State.refuse_keeps (State.raise_keeps h)) ?_))
  dsimp only
  split
  · exact State.ok_keeps (.of_fst ‹_› (State.canCtrl_keeps (State.canTiming_keeps (State.canTiming_keeps (State.canTiming_keeps
      (State.canTiming_keeps (State.canTiming_keeps (State.setReg_keeps (State.setFld_keeps h)))))))))
  · exact State.refuse_keeps (.of_fst ‹_› (State.canCtrl_keeps (State.canTiming_keeps (State.canTiming_keeps (State.canTiming_keeps
      (State.canTiming_keeps (State.canTiming_keeps (State.setReg_keeps (State.setFld_keeps h)))))))))

theorem execCanSetFilter_keeps {r s : State} {p} (h : Keeps r s) : KeepsOut r (execCanSetFilter p s) :=
  .next (State.canSet_keeps h (fun _ _ => .ite (State.complete_keeps h) (State.ok_keeps (State.setReg_keeps (State.setReg_keeps
    (State.setReg_keeps h))))))

theorem execCanSetAbortBuffer_keeps {r s : State} {p} (h : Keeps r s) : KeepsOut r (execCanSetAbortBuffer p s) :=
  .next (State.canSet_keeps h (fun _ _ => .ite (State.complete_keeps h) (State.ok_keeps (.ite (State.canFree_keeps h) h))))

theorem execLinScheduleEntry_keeps {r s : State} {c} (h : Keeps r s) : KeepsOut r (execLinScheduleEntry c s) := by
  unfold execLinScheduleEntry
  refine .next (.ite ?_ h)
  split
  · exact State.setFld_keeps (State.setLin_keeps h)
  · exact h

theorem execLinFrameEnd_keeps {r s : State} {c resp} (h : Keeps r s) : KeepsOut r (execLinFrameEnd c resp s) := by
  unfold execLinFrameEnd
  refine .next ?_
  split
  · exact h
  · dsimp only
    split
    · exact .ite (State.setFld_keeps (State.setLin_keeps h)) (State.setLin_keeps h)
    · split
      · exact State.raise_keeps (State.setLin_keeps h)
      · exact State.raise_keeps (State.setLin_keeps h)
      · exact .ite (State.setFld_keeps (State.pdusReceive_keeps (.foldl (fun _ _ k => State.qDeliver_keeps k) (State.setLin_keeps h))))
          (State.pdusReceive_keeps (.foldl (fun _ _ k => State.qDeliver_keeps k) (State.setLin_keeps h)))

theorem execLinHeaderReceive_keeps {r s : State} {c id} (h : Keeps r s) : KeepsOut r (execLinHeaderReceive c id s) :=
  .next (.ite (State.setLin_keeps h) h)

theorem execLinWakeup_keeps {r s : State} {c} (h : Keeps r s) : KeepsOut r (execLinWakeup c s) :=
  .next (.ite (State.setFld_keeps h) h)

theorem execLinSetConfigure_keeps {r s : State} {p} (h : Keeps r s) : KeepsOut r (execLinSetConfigure p s) := by
  unfold execLinSetConfigure
  refine .next (State.linSet_keeps h (fun _ _ => ?_))
  dsimp only
  split
  · exact State.ok_keeps (.of_fst ‹_› (State.linCtrl_keeps (State.setReg_keeps h)))
  · exact State.refuse_keeps (.of_fst ‹_› (State.linCtrl_keeps (State.setReg_keeps h)))

theorem execLinSetLoadSchedule_keeps {r s : State} {p} (h : Keeps r s) : KeepsOut r (execLinSetLoadSchedule p s) := by
  unfold execLinSetLoadSchedule
  refine .next (State.linSet_keeps h (fun _ _ => ?_))
  split
  · exact State.complete_keeps (.of_fst ‹_› (State.fwRead_keeps h))
  · exact State.ok_keeps (State.setLin_keeps (.of_fst ‹_› (State.fwRead_keeps h)))

theorem execLinSetStart_keeps {r s : State} {p} (h : Keeps r s) : KeepsOut r (execLinSetStart p s) :=
  .next (State.linSet_keeps h (fun _ _ => .ite (State.refuse_keeps h) (State.ok_keeps (State.setLin_keeps h))))

theorem execLinSetStop_keeps {r s : State} {p} (h : Keeps r s) : KeepsOut r (execLinSetStop p s) :=
  .next (State.linSet_keeps h (fun _ _ => State.ok_keeps (State.setLin_keeps h)))

/-! ### Start and stop of DMA channels -/

theorem execDmaChainStart_keeps {r s : State} {c ch} (h : Keeps r s) : KeepsOut r (execDmaChainStart c ch s) := by
  unfold execDmaChainStart
  refine .next ?_
  split
  · exact .ite (State.startChain_keeps (State.modChan_keeps h)) h
  · exact h

theorem execDmaChannelGo_keeps {r s : State} {src c ch} (h : Keeps r s) : KeepsOut r (execDmaChannelGo src c ch s) :=
  .next (State.regCommand_keeps h (fun _ k => State.guarded_keeps k (fun _ k' => State.dmaGo_keeps k')))

theorem execDmaChannelStop_keeps {r s : State} {src c ch} (h : Keeps r s) : KeepsOut r (execDmaChannelStop src c ch s) :=
  .next (State.regCommand_keeps h (fun _ k => State.guarded_keeps k (fun _ k' => State.dmaStop_keeps k')))

/-! ### PCI Express -/

theorem execPcieOutboundRequest_keeps {r s : State} {src a isRead len data reply} (h : Keeps r s) :
    KeepsOut r (execPcieOutboundRequest src a isRead len data reply s) :=
  .next (State.pciOutbound_keeps h)

theorem execPcieCompletionTimeout_keeps {r s : State} {id} (h : Keeps r s) : KeepsOut r (execPcieCompletionTimeout id s) := by
  unfold execPcieCompletionTimeout
  refine .next ?_
  split
  · exact .ite (State.readFailed_keeps (State.raise_keeps (State.dropTx_keeps h))) h
  · exact h

theorem execPcieLinkDown_keeps {r s : State} (h : Keeps r s) : KeepsOut r (execPcieLinkDown s) :=
  .next (.ite (State.pciDown_keeps h) h)

theorem execPcieInboundRequest_keeps {r s : State} {a isRead len data aer} (h : Keeps r s) :
    KeepsOut r (execPcieInboundRequest a isRead len data aer s) := by
  unfold execPcieInboundRequest
  refine .next (.ite h ?_)
  dsimp only
  split
  · exact .ite (.upd (State.raise_keeps (.ite (State.raise_keeps h) h))) (State.raise_keeps (.ite (State.raise_keeps h) h))
  · exact .ite (.upd (State.unitRead_keeps (.ite (State.raise_keeps h) h))) (.ite (State.msi_keeps (.ite (State.raise_keeps h) h)) (.ite
      (State.pciProgress_keeps (State.unitWrite_keeps (.ite (State.raise_keeps h) h))) (.upd (.ite (State.raise_keeps h) h))))

theorem execPcieYield_keeps {r s : State} {n} (h : Keeps r s) : KeepsOut r (execPcieYield n s) :=
  .next (.ite (.upTo (fun _ _ k => State.pciPop_keeps k) (.upd (State.count_keeps h))) h)

theorem execPciWindow_keeps {r s : State} {p} (h : Keeps r s) : KeepsOut r (execPciWindow p s) :=
  .next (State.command_keeps h (fun _ => .ite (State.complete_keeps h) (.ite (State.complete_keeps h) (.ite (State.refuse_keeps h) (.ite
    (State.refuse_keeps h) (State.ok_keeps (State.setReg_keeps (State.setReg_keeps (State.setReg2_keeps h)))))))))

theorem execPciLinkTrain_keeps {r s : State} {p result} (h : Keeps r s) : KeepsOut r (execPciLinkTrain p result s) := by
  unfold execPciLinkTrain
  refine .next (State.pciLink_keeps h (fun _ k => ?_))
  split
  · exact .ite (State.setReg_keeps k) (State.setReg_keeps k)
  · exact State.setReg_keeps k

theorem execPciLinkPerstAssert_keeps {r s : State} {p} (h : Keeps r s) : KeepsOut r (execPciLinkPerstAssert p s) :=
  .next (State.pciLink_keeps h (fun _ k => .ite (State.setFld_keeps k) (State.pciDown_keeps (State.setFld_keeps k))))

theorem execPciLinkPerstRelease_keeps {r s : State} {p} (h : Keeps r s) : KeepsOut r (execPciLinkPerstRelease p s) :=
  .next (State.pciLink_keeps h (fun _ k => State.setFld_keeps k))

/-! ### Power, coolant and temperature -/

theorem execResetAssert_keeps {r s : State} {ns may} (h : Keeps r s) : KeepsOut r (execResetAssert ns may s) :=
  .next (.ite (State.powerLost_keeps h) h)

theorem execSupplyFault_keeps {r s : State} {ns} (h : Keeps r s) : KeepsOut r (execSupplyFault ns s) :=
  .next (.ite (State.powerLost_keeps h) h)

theorem execRefclkLoss_keeps {r s : State} (h : Keeps r s) : KeepsOut r (execRefclkLoss s) :=
  .next (State.powerLost_keeps h)

theorem execPowerRemoval_keeps {r s : State} (h : Keeps r s) : KeepsOut r (execPowerRemoval s) :=
  .next (State.powerLost_keeps h)

theorem execCoolOkDeassert_keeps {r s : State} (h : Keeps r s) : KeepsOut r (execCoolOkDeassert s) :=
  .next (.ite h (.ite (State.toPartial_keeps (State.raise_keeps (.upd (State.setFld_keeps h)))) (State.tolidDrop_keeps (.upd
    (State.setFld_keeps h)))))

theorem execThermalSample_keeps {r s : State} {readings} (h : Keeps r s) : KeepsOut r (execThermalSample readings s) := by
  unfold execThermalSample
  refine .next (.ite h ?_)
  split
  · exact h
  · refine .ite (State.hardCut_keeps h) (.ite (State.shed_keeps (.foldl (fun _ _ k => ?_) (State.setReg_keeps h))) (.foldl
      (fun _ _ k => ?_) (State.setReg_keeps h)))
    all_goals
      split
      · exact State.thermDie_keeps k
      · exact k

theorem execPowerSample_keeps {r s : State} {quarters} (h : Keeps r s) : KeepsOut r (execPowerSample quarters s) := by
  unfold execPowerSample
  refine .next (.ite h ?_)
  dsimp only
  split
  · exact .upd h
  · exact .ite (State.raise_keeps (State.setReg_keeps (.upd h))) (State.setReg_keeps (.upd h))

theorem execDomainSwitchDone_keeps {r s : State} {d silent} (h : Keeps r s) : KeepsOut r (execDomainSwitchDone d silent s) := by
  unfold execDomainSwitchDone
  refine .next ?_
  split
  · exact h
  · exact .ite h (State.switchDone_keeps h)

theorem execDomainDrainEnd_keeps {r s : State} {d} (h : Keeps r s) : KeepsOut r (execDomainDrainEnd d s) := by
  unfold execDomainDrainEnd
  refine .next ?_
  split
  · exact h
  · exact .ite (State.drainDomain_keeps h) h

theorem execPwrDomain_keeps {r s : State} {p} (h : Keeps r s) : KeepsOut r (execPwrDomain p s) :=
  .next (State.command_keeps h (fun _ => .ite h (.ite (State.complete_keeps h) (.ite (State.complete_keeps (State.wrongWorld_keeps h))
    (State.request_keeps h)))))

theorem execPwrCap_keeps {r s : State} {p} (h : Keeps r s) : KeepsOut r (execPwrCap p s) :=
  .next (State.command_keeps h (fun _ => .ite (State.complete_keeps h) (.ite (State.refuse_keeps h) (State.ok_keeps
    (State.setReg_keeps h)))))

theorem execPwrRead_keeps {r s : State} {p} (h : Keeps r s) : KeepsOut r (execPwrRead p s) :=
  .next (State.command_keeps h (fun _ => State.copyBuf_keeps h))

theorem execShutdown_keeps {r s : State} {p} (h : Keeps r s) : KeepsOut r (execShutdown p s) :=
  .next (State.command_keeps h (fun _ => State.shutDown_keeps (State.ok_keeps (State.endAllWork_keeps h))))

theorem execBootReport_keeps {r s : State} {p} (h : Keeps r s) : KeepsOut r (execBootReport p s) :=
  .next (State.command_keeps h (fun _ => State.copyBuf_keeps h))

/-! ### Switch, host queues and signal gateway -/

theorem execSwitchFrameReceive_keeps {r s : State} {p bytes pass ecc} (h : Keeps r s) :
    KeepsOut r (execSwitchFrameReceive p bytes pass ecc s) :=
  .next (.ite h (.ite (State.swDrop_keeps (State.count_keeps h)) (State.swForward_keeps (State.count_keeps h))))

theorem execSwitchFrameEgress_keeps {r s : State} {p q sent ecc} (h : Keeps r s) : KeepsOut r (execSwitchFrameEgress p q sent ecc s) := by
  unfold execSwitchFrameEgress
  refine .next (.ite h ?_)
  split
  · exact h
  · dsimp only
    split
    · refine State.txCopyEnds_keeps (.ite (State.swDeliver_keeps (State.count_keeps ?_)) ?_)
      all_goals
        split
        · exact State.raise_keeps (.upd h)
        · exact State.swDrop_keeps (State.raise_keeps (.upd h))
        · exact .upd h
    · refine .ite (State.swDeliver_keeps (State.count_keeps ?_)) ?_
      all_goals
        split
        · exact State.raise_keeps (.upd h)
        · exact State.swDrop_keeps (State.raise_keeps (.upd h))
        · exact .upd h

theorem execPcsLinkChange_keeps {r s : State} {p linked verified} (h : Keeps r s) : KeepsOut r (execPcsLinkChange p linked verified s) :=
  .next (.ite (State.setFld_keeps (State.setFld_keeps h)) h)

theorem execMdioDone_keeps {r s : State} {data} (h : Keeps r s) : KeepsOut r (execMdioDone data s) := by
  unfold execMdioDone
  refine .next ?_
  split
  · exact h
  · exact .upd (State.setReg_keeps h)

theorem execGwQueuePoll_keeps {r s : State} {i} (h : Keeps r s) : KeepsOut r (execGwQueuePoll i s) :=
  .next (State.qCheck_keeps h)

theorem execQueueTxWriteback_keeps {r s : State} {i} (h : Keeps r s) : KeepsOut r (execQueueTxWriteback i s) := by
  unfold execQueueTxWriteback
  refine .next ?_
  split
  · exact .ite (State.qWriteBack_keeps (State.setGwq_keeps h)) h
  · exact h

theorem execQueueRxWriteback_keeps {r s : State} {i} (h : Keeps r s) : KeepsOut r (execQueueRxWriteback i s) := by
  unfold execQueueRxWriteback
  refine .next ?_
  split
  · exact .ite (State.qWriteBack_keeps (State.setGwq_keeps h)) h
  · exact h

theorem execPduSourceTimeout_keeps {r s : State} {n} (h : Keeps r s) : KeepsOut r (execPduSourceTimeout n s) := by
  unfold execPduSourceTimeout
  refine .next ?_
  split
  · exact .ite (State.raise_keeps (State.runGroup_keeps (State.setPdu_keeps h))) h
  · exact h

theorem execPduPeriodicSend_keeps {r s : State} {n} (h : Keeps r s) : KeepsOut r (execPduPeriodicSend n s) := by
  unfold execPduPeriodicSend
  refine .next ?_
  split
  · exact .ite (State.pduSend_keeps (State.setPdu_keeps h)) h
  · exact h

theorem execFlowAdd_keeps {r s : State} {p} (h : Keeps r s) : KeepsOut r (execFlowAdd p s) := by
  unfold execFlowAdd
  refine .next (State.withFlows_keeps h (fun _ _ k => .ite (State.complete_keeps k) ?_))
  split
  · exact State.complete_keeps (.of_fst ‹_› (State.flowPlaceAll_keeps k))
  · exact State.complete_keeps (.of_fst ‹_› (State.flowPlaceAll_keeps k))

theorem execFlowDel_keeps {r s : State} {p} (h : Keeps r s) : KeepsOut r (execFlowDel p s) := by
  unfold execFlowDel
  refine .next (State.withFlows_keeps h (fun _ _ k => State.complete_keeps (.foldl_fst (fun _ _ k' => ?_) k)))
  split
  · exact .upd k'
  · exact k'

theorem execFlowRead_keeps {r s : State} {p} (h : Keeps r s) : KeepsOut r (execFlowRead p s) := by
  unfold execFlowRead
  refine .next (State.command_keeps h (fun _ => .ite (State.complete_keeps h) ?_))
  split
  · exact State.complete_keeps (.of_fst ‹_› (State.fwRead_keeps h))
  · split
    · exact State.complete_keeps (.of_fst ‹_› (State.fwRead_keeps h))
    · exact State.copyOut_keeps (.of_fst ‹_› (State.fwRead_keeps h))

theorem execSwPort_keeps {r s : State} {p} (h : Keeps r s) : KeepsOut r (execSwPort p s) :=
  .next (State.command_keeps h (fun _ => .ite (State.complete_keeps h) (.ite (State.refuse_keeps h) (State.ok_keeps (.upd
    (State.setReg_keeps (State.setReg_keeps (State.setReg_keeps h))))))))

theorem execSwVlan_keeps {r s : State} {p} (h : Keeps r s) : KeepsOut r (execSwVlan p s) :=
  .next (State.command_keeps h (fun _ => .ite (State.complete_keeps h) (State.ok_keeps (.upd h))))

theorem execGwPdu_keeps {r s : State} {p} (h : Keeps r s) : KeepsOut r (execGwPdu p s) := by
  unfold execGwPdu
  refine .next (State.command_keeps h (fun _ => .ite (.ite (State.ok_keeps (.upd h)) ?_) (.ite (.ite (State.refuse_keeps h) (State.ok_keeps
    (.upd h))) ?_)))
  · split
    · exact State.complete_keeps (.of_fst ‹_› (State.fwRead_keeps h))
    · exact .ite (State.refuse_keeps (.of_fst ‹_› (State.fwRead_keeps h))) (State.ok_keeps (.upd (.of_fst ‹_› (State.fwRead_keeps h))))
  · split
    · exact State.complete_keeps (.of_fst ‹_› (State.fwRead_keeps h))
    · split
      · exact State.refuse_keeps (.of_fst ‹_› (State.fwRead_keeps h))
      · refine .ite (State.refuse_keeps (.of_fst ‹_› (State.fwRead_keeps h))) (.ite ?_ (State.ok_keeps (State.setPdu_keeps (.of_fst ‹_›
          (State.fwRead_keeps h)))))
        split
        · exact State.refuse_keeps (.of_fst ‹_› (State.fwRead_keeps h))
        · exact State.ok_keeps (State.setPdu_keeps (.of_fst ‹_› (State.fwRead_keeps h)))

theorem execGwRoute_keeps {r s : State} {p} (h : Keeps r s) : KeepsOut r (execGwRoute p s) := by
  unfold execGwRoute
  refine .next (State.command_keeps h (fun _ => .ite (State.complete_keeps h) ?_))
  split
  · exact State.complete_keeps (.of_fst ‹_› (State.fwRead_keeps h))
  · dsimp only
    split
    · exact State.complete_keeps (.of_fst ‹_› (State.fwRead_keeps h))
    · exact State.complete_keeps (.of_fst ‹_› (State.fwRead_keeps h))
    · exact State.ok_keeps (installRoutes_keeps (.of_fst ‹_› (State.fwRead_keeps h)))

theorem execGwQueue_keeps {r s : State} {p} (h : Keeps r s) : KeepsOut r (execGwQueue p s) :=
  .next (State.command_keeps h (fun _ => .ite (State.ok_keeps (State.setGwq_keeps h)) (.ite (State.complete_keeps h) (.ite
    (State.complete_keeps h) (.ite (State.refuse_keeps h) (State.ok_keeps (State.setGwq_keeps h)))))))

/-! ### Checker engine and comparator -/

theorem execSafeMonLoad_keeps {r s : State} {p sigOk} (h : Keeps r s) : KeepsOut r (execSafeMonLoad p sigOk s) := by
  unfold execSafeMonLoad
  repeat' with_reducible first
    | assumption | intro _ | apply KeepsOut.next | apply State.command_keeps | apply State.fwRead_keeps | apply State.complete_keeps
    | apply State.readImage_keeps | apply State.refuse_keeps | apply State.installAll_keeps | apply State.setMon_keeps
    | apply State.ok_keeps | split | refine Keeps.of_fst (by assumption) ?_ | dsimp only

theorem execSafeMonUnload_keeps {r s : State} {p} (h : Keeps r s) : KeepsOut r (execSafeMonUnload p s) := by
  unfold execSafeMonUnload
  refine .next (State.command_keeps h (fun _ => ?_))
  dsimp only
  split
  · exact State.complete_keeps h
  · exact .ite (State.refuse_keeps h) (State.ok_keeps (.upd (.foldl (fun _ _ k => State.removeRes_keeps k) h)))

theorem execMonitorLaunch_keeps {r s : State} {m} (h : Keeps r s) : KeepsOut r (execMonitorLaunch m s) := by
  unfold execMonitorLaunch
  refine .next ?_
  split
  · refine .ite h ?_
    split
    · exact State.setMon_keeps (.of_fst ‹_› (State.unitRead_keeps h))
    · exact State.setMon_keeps (.of_fst ‹_› (State.unitRead_keeps h))
  · exact h

theorem execMonitorComplete_keeps {r s : State} {m writes ecc} (h : Keeps r s) : KeepsOut r (execMonitorComplete m writes ecc s) := by
  unfold execMonitorComplete
  refine .next ?_
  split
  · exact h
  · split
    · exact h
    · exact .ite (State.setMon_keeps (State.chkRaise_keeps h)) (State.setMon_keeps (.foldl (fun _ _ k => State.unitWrite_keeps k) (.ite
        (State.chkRaise_keeps h) h)))

theorem execMonitorDeadline_keeps {r s : State} {m} (h : Keeps r s) : KeepsOut r (execMonitorDeadline m s) := by
  unfold execMonitorDeadline
  refine .next ?_
  split
  · exact h
  · split
    · exact h
    · exact .ite h (.foldl (fun _ _ k => State.chkRaise_keeps k) (State.setMon_keeps h))

theorem execSafePair_keeps {r s : State} {p} (h : Keeps r s) : KeepsOut r (execSafePair p s) := by
  unfold execSafePair
  repeat' with_reducible first
    | assumption | intro _ | apply KeepsOut.next | apply State.command_keeps | apply State.fwRead_keeps | apply State.complete_keeps
    | apply State.setPairing_keeps | apply State.ok_keeps | apply State.refuseFree_keeps | split | refine Keeps.of_fst (by assumption) ?_

theorem execSafeUnpair_keeps {r s : State} {p} (h : Keeps r s) : KeepsOut r (execSafeUnpair p s) := by
  unfold execSafeUnpair
  refine .next (State.command_keeps h (fun _ => ?_))
  dsimp only
  split
  · exact State.complete_keeps h
  · exact .ite h (.ite (State.complete_keeps h) (.ite (State.ok_keeps (.upd h)) (State.setPairing_keeps h)))

theorem execComparisonStart_keeps {r s : State} {i} (h : Keeps r s) : KeepsOut r (execComparisonStart i s) := by
  unfold execComparisonStart
  refine .next ?_
  split
  · exact h
  · split
    · exact h
    · exact .ite h (State.setPairing_keeps (.ite (State.count_keeps (State.compareFrame_keeps h)) (.ite (State.chkRaise_keeps
        (State.count_keeps (State.compareFrame_keeps h))) (State.chkRaise_keeps (State.count_keeps (State.compareFrame_keeps h))))))

theorem execVerdictWrite_keeps {r s : State} {i} (h : Keeps r s) : KeepsOut r (execVerdictWrite i s) := by
  unfold execVerdictWrite
  refine .next ?_
  split
  · exact h
  · split
    · exact h
    · refine .ite h (.ite (State.setPairing_keeps (State.trace_keeps (State.fwWrite_keeps h))) ?_)
      dsimp only
      split
      · exact State.ok_keeps (.upd (State.trace_keeps (State.fwWrite_keeps h)))
      · exact .upd (State.trace_keeps (State.fwWrite_keeps h))

theorem execAccordSignatureCheck_keeps {r s : State} {c} (h : Keeps r s) : KeepsOut r (execAccordSignatureCheck c s) := by
  unfold execAccordSignatureCheck
  refine .next ?_
  split
  · exact h
  · exact .ite h (.ite (.upd h) (State.accmis_keeps (.upd h)))

theorem execComparatorSelfTest_keeps {r s : State} {pass} (h : Keeps r s) : KeepsOut r (execComparatorSelfTest pass s) :=
  .next (.ite h (.ite (.upd h) (State.chkRaise_keeps (.upd h))))

theorem execSafeRetest_keeps {r s : State} {p silent} (h : Keeps r s) : KeepsOut r (execSafeRetest p silent s) := by
  unfold execSafeRetest
  refine .next (State.command_keeps h (fun _ => .ite (State.complete_keeps h) (.ite (State.refuse_keeps h) (.ite (State.refuseFree_keeps h)
    (.ite (State.refuse_keeps h) ?_)))))
  dsimp only
  split
  · exact State.ok_keeps (State.blotter_keeps h)
  · exact State.ok_keeps (State.powerOff_keeps (State.raise_keeps (State.blotter_keeps h)))

theorem execSafeStatus_keeps {r s : State} {p} (h : Keeps r s) : KeepsOut r (execSafeStatus p s) :=
  .next (State.command_keeps h (fun _ => State.copyBuf_keeps h))

/-! ### Fault collection -/

theorem execFaultService_keeps {r s : State} {i} (h : Keeps r s) : KeepsOut r (execFaultService i s) := by
  unfold execFaultService
  refine .next (.ite h ?_)
  split
  · exact .ite h (State.serviceBits_keeps h)
  · split
    · exact h
    · exact State.faultRecord_keeps (State.fwPulse_keeps (.upd h))
  · split
    · exact h
    · exact State.faultRecord_keeps (.upd h)

theorem execFaultSweep_keeps {r s : State} (h : Keeps r s) : KeepsOut r (execFaultSweep s) :=
  .next (.ite h (.foldl (fun _ _ k => .ite k (State.drainLog_keeps k)) (.foldl (fun _ _ k => State.serviceBits_keeps k) h)))

theorem execWindowEvent_keeps {r s : State} (h : Keeps r s) : KeepsOut r (execWindowEvent s) := by
  unfold execWindowEvent
  refine .next ?_
  split
  · exact h
  · exact .ite (State.countEvent_keeps (.upd h)) h

theorem execPinPulseEnd_keeps {r s : State} {isErr} (h : Keeps r s) : KeepsOut r (execPinPulseEnd isErr s) := by
  unfold execPinPulseEnd
  refine .next ?_
  split
  · exact .ite h (.ite (.upd h) (.upd h))
  · exact h

theorem execLeaseExpire_keeps {r s : State} {i} (h : Keeps r s) : KeepsOut r (execLeaseExpire i s) := by
  unfold execLeaseExpire
  refine .next ?_
  split
  · split
    · exact .ite h (State.holderFaulted_keeps h)
    · exact h
  · split
    · exact .ite h (State.holderFaulted_keeps h)
    · exact h
  · split
    · exact .ite (State.creditExpired_keeps h) h
    · exact h

theorem execFltRead_keeps {r s : State} {p} (h : Keeps r s) : KeepsOut r (execFltRead p s) :=
  .next (State.command_keeps h (fun _ => .ite (State.complete_keeps h) (State.copyBuf_keeps h)))

theorem execFltWindow_keeps {r s : State} {p} (h : Keeps r s) : KeepsOut r (execFltWindow p s) :=
  .next (State.command_keeps h (fun _ => .ite (State.ok_keeps (.upd h)) (.ite (State.complete_keeps h) (State.ok_keeps (.upd h)))))

theorem execFltPin_keeps {r s : State} {p} (h : Keeps r s) : KeepsOut r (execFltPin p s) :=
  .next (State.command_keeps h (fun _ => .ite (State.refuse_keeps h) (State.ok_keeps (.ite (.ite h (.ite (State.setFld_keeps
    (State.setFld_keeps h)) (State.setFld_keeps h))) (.ite (State.setFld_keeps (State.setFld_keeps (.ite h (.ite (State.setFld_keeps
    (State.setFld_keeps h)) (State.setFld_keeps h))))) (State.setFld_keeps (.ite h (.ite (State.setFld_keeps (State.setFld_keeps h))
    (State.setFld_keeps h)))))))))

theorem execFltPartreset_keeps {r s : State} {p} (h : Keeps r s) : KeepsOut r (execFltPartreset p s) := by
  unfold execFltPartreset
  refine .next (State.command_keeps h (fun _ => ?_))
  dsimp only
  split
  · exact State.complete_keeps h
  · exact .ite (State.complete_keeps h) (.ite h (.ite (State.refuse_keeps h) (State.beginReset_keeps h)))

theorem execPartresetDrainEnd_keeps {r s : State} {pid} (h : Keeps r s) : KeepsOut r (execPartresetDrainEnd pid s) := by
  unfold execPartresetDrainEnd
  refine .next ?_
  split
  · exact .ite h (State.ok_keeps (State.endReset_keeps (.upd h)))
  · exact h

theorem execFltLeases_keeps {r s : State} {p} (h : Keeps r s) : KeepsOut r (execFltLeases p s) :=
  .next (State.command_keeps h (fun _ => State.copyBuf_keeps (.upd h)))

theorem execFltSource_keeps {r s : State} {p} (h : Keeps r s) : KeepsOut r (execFltSource p s) :=
  .next (State.command_keeps h (fun _ => State.copyBuf_keeps h))

theorem execFltPwsticky_keeps {r s : State} {p} (h : Keeps r s) : KeepsOut r (execFltPwsticky p s) :=
  .next (State.command_keeps h (fun _ => .ite (State.complete_keeps h) (.ite (State.complete_keeps h) (State.complete_keeps
    (State.setReg_keeps h)))))

/-! ### Remote access -/

theorem execRapOpen_keeps {r s : State} {q id nd} (h : Keeps r s) : KeepsOut r (execRapOpen q id nd s) := by
  unfold execRapOpen
  refine .next (.ite h (State.rapTake_keeps h (fun _ => .ite (State.rapDrop_keeps h) (.ite h (State.rapSend_keeps (.upd ?_))))))
  split
  · exact .ite (State.dropSession_keeps h) h
  · exact h

theorem execRapRead_keeps {r s : State} {q} (h : Keeps r s) : KeepsOut r (execRapRead q s) := by
  unfold execRapRead
  refine .next (State.rapRequest_keeps h (fun _ _ _ => fun k => .ite (State.rapRespond_keeps k) ?_))
  split
  · exact State.rapRespond_keeps (.of_fst ‹_› (State.unitRead_keeps k))
  · exact State.rapRespond_keeps (.of_fst ‹_› (State.unitRead_keeps k))

theorem execRapWrite_keeps {r s : State} {q} (h : Keeps r s) : KeepsOut r (execRapWrite q s) := by
  unfold execRapWrite
  refine .next (State.rapRequest_keeps h (fun _ _ _ => fun k => .ite (State.rapRespond_keeps k) ?_))
  split
  · exact State.rapRespond_keeps (.of_fst ‹_› (State.rapStore_keeps k))
  · exact State.rapRespond_keeps (.of_fst ‹_› (State.rapStore_keeps k))

theorem execRapDoorbell_keeps {r s : State} {q} (h : Keeps r s) : KeepsOut r (execRapDoorbell q s) :=
  .next (State.rapRequest_keeps h (fun _ _ _ => fun k => State.rapRespond_keeps (State.doorbell_keeps k)))

theorem execRapClose_keeps {r s : State} {q} (h : Keeps r s) : KeepsOut r (execRapClose q s) :=
  .next (State.rapRequest_keeps h (fun _ _ _ => fun k => State.dropSession_keeps (State.rapRespond_keeps k)))

theorem execRapKeepalive_keeps {r s : State} {q} (h : Keeps r s) : KeepsOut r (execRapKeepalive q s) :=
  .next (State.rapRequest_keeps h (fun _ _ _ => fun k => State.rapRespond_keeps k))

theorem execRapNotify_keeps {r s : State} {p} (h : Keeps r s) : KeepsOut r (execRapNotify p s) := by
  unfold execRapNotify
  refine .next ?_
  split
  · exact h
  · exact .ite (State.rapSend_keeps (State.putSession_keeps (State.freeWord_keeps h))) h

theorem execRapSessionTimeout_keeps {r s : State} {p} (h : Keeps r s) : KeepsOut r (execRapSessionTimeout p s) :=
  .next (.upd h)

theorem execRapHalfopenTimeout_keeps {r s : State} {p} (h : Keeps r s) : KeepsOut r (execRapHalfopenTimeout p s) :=
  .next (.upd h)

/-! ### Contexts, keys and packages -/

theorem execCtxCreate_keeps {r s : State} {p} (h : Keeps r s) : KeepsOut r (execCtxCreate p s) := by
  unfold execCtxCreate
  refine .next (State.command_keeps h (fun _ => .ite (State.refuse_keeps h) (.ite (State.complete_keeps h) (.ite
    (State.refuse_keeps h) ?_))))
  dsimp only
  split
  · exact State.refuse_keeps h
  · exact .ite (State.refuse_keeps h) (State.ok_keeps (.ite (State.drawKey_keeps (State.setSlot_keeps (State.setAcct_keeps (.upd h))))
      (State.setAcct_keeps (.upd h))))

theorem execCtxDestroy_keeps {r s : State} {p} (h : Keeps r s) : KeepsOut r (execCtxDestroy p s) :=
  .next (State.command_keeps h (fun _ => .ite h (State.withSecCtx_keeps h (fun _ k => .upd (State.fenceCtx_keeps k)))))

theorem execCtxDestroyDrainEnd_keeps {r s : State} {ctx keyErr} (h : Keeps r s) : KeepsOut r (execCtxDestroyDrainEnd ctx keyErr s) := by
  unfold execCtxDestroyDrainEnd
  refine .next ?_
  split
  · exact h
  · exact .ite h (.upd (.ite (State.raise_keeps (State.advanceGen_keeps h)) (State.advanceGen_keeps h)))

theorem execCtxDestroyRelease_keeps {r s : State} {ctx} (h : Keeps r s) : KeepsOut r (execCtxDestroyRelease ctx s) := by
  unfold execCtxDestroyRelease
  refine .next ?_
  split
  · exact h
  · refine .ite h (State.complete_keeps (.upd ?_))
    split
    · exact .ite h (.upd (State.setSlot_keeps h))
    · exact h

theorem execMemMap_keeps {r s : State} {p} (h : Keeps r s) : KeepsOut r (execMemMap p s) :=
  .next (State.command_keeps h (fun _ => .ite (State.complete_keeps h) (State.withSecCtx_keeps h (fun _ k => .ite (State.refuse_keeps k)
    (.ite (State.refuse_keeps k) (.ite (State.refuse_keeps k) (State.ok_keeps (.upd k))))))))

theorem execWpkgLoad_keeps {r s : State} {p} (h : Keeps r s) : KeepsOut r (execWpkgLoad p s) := by
  unfold execWpkgLoad
  repeat' with_reducible first
    | assumption | intro _ | apply KeepsOut.next | apply State.command_keeps | apply State.fwRead_keeps | apply State.complete_keeps
    | apply State.withSecCtx_keeps | apply State.refuse_keeps | apply State.zero_keeps | apply State.ok_keeps | apply State.placePlain_keeps
    | split | refine Keeps.of_fst (by assumption) ?_ | simp only [Keeps.upd_iff]

theorem execGroupKeyInstall_keeps {r s : State} {p gk} (h : Keeps r s) : KeepsOut r (execGroupKeyInstall p gk s) := by
  unfold execGroupKeyInstall
  refine .next (State.command_keeps h (fun _ => .ite h ?_))
  split
  · exact State.complete_keeps (.of_fst ‹_› (State.fwRead_keeps h))
  · refine .ite (State.refuse_keeps (.of_fst ‹_› (State.fwRead_keeps h))) ?_
    split
    · exact State.refuse_keeps (.of_fst ‹_› (State.fwRead_keeps h))
    · exact .ite (State.refuse_keeps (.of_fst ‹_› (State.fwRead_keeps h))) (State.ok_keeps (.upd (.of_fst ‹_› (State.fwRead_keeps h))))

theorem execGroupKeyRemove_keeps {r s : State} {p} (h : Keeps r s) : KeepsOut r (execGroupKeyRemove p s) :=
  .next (State.command_keeps h (fun _ => .ite h (.ite (State.complete_keeps h) (State.ok_keeps (.upd h)))))

theorem execAttest_keeps {r s : State} {p sig} (h : Keeps r s) : KeepsOut r (execAttest p sig s) := by
  unfold execAttest
  refine .next (State.command_keeps h (fun _ => .ite (State.complete_keeps h) (.ite (State.refuse_keeps h) (.ite
    (State.refuse_keeps h) ?_))))
  split
  · exact State.complete_keeps (.of_fst ‹_› (State.fwRead_keeps h))
  · exact State.copyOut_keeps (.of_fst ‹_› (State.fwRead_keeps h))

theorem execDirtyStart_keeps {r s : State} {p} (h : Keeps r s) : KeepsOut r (execDirtyStart p s) :=
  .next (State.command_keeps h (fun _ => State.withSecCtx_keeps h (fun _ k => .ite (State.ok_keeps k) (.ite (State.refuse_keeps k)
    (State.ok_keeps (.upd k))))))

theorem execDirtyRead_keeps {r s : State} {p} (h : Keeps r s) : KeepsOut r (execDirtyRead p s) := by
  unfold execDirtyRead
  refine .next (State.command_keeps h (fun _ => .ite (State.complete_keeps h) (State.withSecCtx_keeps h (fun _ k => ?_))))
  split
  · exact State.complete_keeps k
  · exact State.copyOut_keeps (.upd k)

theorem execDirtyStop_keeps {r s : State} {p} (h : Keeps r s) : KeepsOut r (execDirtyStop p s) :=
  .next (State.command_keeps h (fun _ => State.withSecCtx_keeps h (fun _ k => State.ok_keeps (.upd k))))

theorem execDomClock_keeps {r s : State} {p} (h : Keeps r s) : KeepsOut r (execDomClock p s) :=
  .next (State.command_keeps h (fun _ => .ite (State.complete_keeps h) (.ite (State.complete_keeps (State.wrongWorld_keeps h)) (.ite h
    (.ite (State.refuseFree_keeps h) (.ite (State.ok_keeps h) (.ite (State.refuse_keeps h) (State.ok_keeps (.upd h)))))))))

/-! ### Requests -/

theorem execCpuIoLoad_keeps {r s : State} {hart a size v vmid} (h : Keeps r s) : KeepsOut r (execCpuIoLoad hart a size v vmid s) :=
  .next (.ite h (.ite (State.accessFault_keeps h) (.ite (State.ctxBlocked_keeps h) (.ite h (.getD (State.issueRead_keeps h) h)))))

theorem execCpuIoStore_keeps {r s : State} {hart a data v vmid} (h : Keeps r s) : KeepsOut r (execCpuIoStore hart a data v vmid s) :=
  .next (.ite h (.ite (State.accessFault_keeps h) (.ite (State.ctxBlocked_keeps h) (.ite h (.getD (State.issueWrite_keeps h) h)))))

theorem execReadRequest_keeps {r s : State} {src a len reply} (h : Keeps r s) : KeepsOut r (execReadRequest src a len reply s) :=
  .next (State.readReq_keeps h)

theorem execPostedWrite_keeps {r s : State} {src a data} (h : Keeps r s) : KeepsOut r (execPostedWrite src a data s) :=
  .next (State.postWrite_keeps h)

theorem execRegisterWrite_keeps {r s : State} {src a size v} (h : Keeps r s) : KeepsOut r (execRegisterWrite src a size v s) :=
  .next (.ite (State.postWrite_keeps h) h)

theorem execExpertEnWrite_keeps {r s : State} {src a v} (h : Keeps r s) : KeepsOut r (execExpertEnWrite src a v s) :=
  .next (.ite (State.postWrite_keeps h) h)

theorem execReadClear_keeps {r s : State} {src a} (h : Keeps r s) : KeepsOut r (execReadClear src a s) :=
  .next (.ite (State.readReq_keeps h) h)

theorem execStatusRead_keeps {r s : State} {p} (h : Keeps r s) : KeepsOut r (execStatusRead p s) := by
  unfold execStatusRead
  refine .next (State.command_keeps h (fun _ => .ite (State.complete_keeps h) (.ite (State.complete_keeps h) ?_)))
  split
  · exact State.complete_keeps (.of_fst ‹_› (State.statusWords_keeps h))
  · exact State.copyBuf_keeps (.of_fst ‹_› (State.statusWords_keeps h))

/-! ### DMA channels at work and outcomes of transactions -/

theorem execDmaDescriptorLaunch_keeps {r s : State} {c ch ep} (h : Keeps r s) : KeepsOut r (execDmaDescriptorLaunch c ch ep s) := by
  unfold execDmaDescriptorLaunch
  refine .next ?_
  split
  · exact h
  · exact .ite h (.ite (State.descError_keeps (State.read_keeps h)) (.ite (State.chanRenew_keeps (State.read_keeps h)) (.ite
      (State.launchDesc_keeps (State.read_keeps h)) (.ite (State.launchDesc_keeps (State.lateEvent_keeps (State.modChan_keeps
      (State.read_keeps h)))) (State.chanRenew_keeps (State.modChan_keeps (State.read_keeps h)))))))

theorem execDmaPhasedLaunch_keeps {r s : State} {c ch ep} (h : Keeps r s) : KeepsOut r (execDmaPhasedLaunch c ch ep s) :=
  .next (.ite (State.launchDesc_keeps h) h)

theorem execDmaCompletion_keeps {r s : State} {c ch ep} (h : Keeps r s) : KeepsOut r (execDmaCompletion c ch ep s) :=
  .next (.ite h (.ite (State.endDesc_keeps (State.pumpChan_keeps h)) (State.pumpChan_keeps h)))

theorem execDmaStopSettle_keeps {r s : State} {c ch} (h : Keeps r s) : KeepsOut r (execDmaStopSettle c ch s) := by
  unfold execDmaStopSettle
  refine .next ?_
  split
  · exact .ite (State.chanRelease_keeps (State.modChan_keeps h)) h
  · exact h

theorem execReadResponse_keeps {r s : State} {id} (h : Keeps r s) : KeepsOut r (execReadResponse id s) := by
  unfold execReadResponse
  split
  · refine .next (.ite (State.pumpAll_keeps (State.pciCredit_keeps ?_)) h)
    split
    · exact State.readFailed_keeps (State.dropTx_keeps h)
    · exact State.chanData_keeps (State.deliver_keeps (State.dropTx_keeps h))
  · exact .next h

theorem execWriteAck_keeps {r s : State} {id} (h : Keeps r s) : KeepsOut r (execWriteAck id s) := by
  unfold execWriteAck
  split
  · exact .next (.ite (State.pumpAll_keeps (State.pciCredit_keeps (State.dropTx_keeps h))) h)
  · exact .next h

theorem execFailureNotice_keeps {r s : State} {id} (h : Keeps r s) : KeepsOut r (execFailureNotice id s) := by
  unfold execFailureNotice
  split
  · refine .next ?_
    split
    · exact State.pumpAll_keeps (State.pwFail_keeps (State.dropTx_keeps h))
    · exact h
  · exact .next h

theorem execSplitReadTimeout_keeps {r s : State} {id} (h : Keeps r s) : KeepsOut r (execSplitReadTimeout id s) := by
  unfold execSplitReadTimeout
  split
  · exact .next (.ite (State.pumpAll_keeps (State.readTimeout_keeps h)) h)
  · exact .next h

theorem execPostedWriteTimeout_keeps {r s : State} {id} (h : Keeps r s) : KeepsOut r (execPostedWriteTimeout id s) := by
  unfold execPostedWriteTimeout
  split
  · exact .next (.ite (State.pumpAll_keeps (State.pwFail_keeps (State.dropTx_keeps h))) h)
  · exact .next h

theorem execCreditReturn_keeps {r s : State} {d p c} (h : Keeps r s) : KeepsOut r (execCreditReturn d p c s) :=
  .ite (.next (State.pumpAll_keeps (.ite (.upd (State.setFld_keeps (.upd h))) (.upd h)))) (.next h)

/-! ### Management sessions -/

theorem execMgmtHello_keeps {r s : State} {q id nd sig} (h : Keeps r s) : KeepsOut r (execMgmtHello q id nd sig s) :=
  .next (.ite h (State.mgmtSend_keeps (.upd h)))

theorem execMgmtAuth_keeps {r s : State} {q secret} (h : Keeps r s) : KeepsOut r (execMgmtAuth q secret s) := by
  unfold execMgmtAuth
  refine .next (.ite h ?_)
  split
  · exact h
  · refine .ite h ?_
    split
    · exact State.authFail_keeps (State.dropMgmt_keeps h)
    · exact .ite (State.authFail_keeps (State.dropMgmt_keeps h)) (.ite h (State.mgmtSend_keeps (State.putMgmt_keeps (.upd h))))

theorem execSliceCreate_keeps {r s : State} {q} (h : Keeps r s) : KeepsOut r (execSliceCreate q s) := by
  unfold execSliceCreate
  refine .next (State.mgmtRequest_keeps h (fun _ _ _ => fun k => ?_))
  split
  · exact .ite_fst (.upd k) k
  · exact k

theorem execSliceDestroy_keeps {r s : State} {q} (h : Keeps r s) : KeepsOut r (execSliceDestroy q s) :=
  .next (State.mgmtRequest_keeps h (fun _ _ _ => fun k => .ite_fst (.upd k) k))

theorem execSliceRead_keeps {r s : State} {q} (h : Keeps r s) : KeepsOut r (execSliceRead q s) := by
  unfold execSliceRead
  refine .next (State.mgmtRequest_keeps h (fun _ _ _ => fun k => ?_))
  dsimp only
  split
  · exact .ite_fst k k
  · exact k

theorem execCredRevoke_keeps {r s : State} {q} (h : Keeps r s) : KeepsOut r (execCredRevoke q s) :=
  .next (State.mgmtRequest_keeps h (fun _ _ _ => fun k => .ite_fst (.upd k) k))

theorem execPkgAttest_keeps {r s : State} {q sig} (h : Keeps r s) : KeepsOut r (execPkgAttest q sig s) :=
  .next (.ite h (State.mgmtRequest_keeps h (fun _ _ _ => fun k => .upd k)))

theorem execLogRead_keeps {r s : State} {q} (h : Keeps r s) : KeepsOut r (execLogRead q s) :=
  .next (State.mgmtRequest_keeps h (fun _ _ _ => fun k => k))

theorem execMgmtClose_keeps {r s : State} {q} (h : Keeps r s) : KeepsOut r (execMgmtClose q s) :=
  .next (State.mgmtRequest_keeps h (fun _ _ _ => fun k => State.dropMgmt_keeps k))

theorem execMgmtSessionTimeout_keeps {r s : State} (h : Keeps r s) : KeepsOut r (execMgmtSessionTimeout s) :=
  .next (.upd h)

theorem execMgmtLockoutEnd_keeps {r s : State} (h : Keeps r s) : KeepsOut r (execMgmtLockoutEnd s) := by
  unfold execMgmtLockoutEnd
  refine .next ?_
  split
  · exact .ite (.upd h) h
  · exact h

/-! ### Every command and every step -/

/-- Every command keeps the queue, the fixed data and the canonical form of memory. -/
theorem exec_keeps {r s : State} (h : Keeps r s) : ∀ i : Instr, KeepsOut r (exec i s)
  | .registerWrite .. => execRegisterWrite_keeps h
  | .expertEnWrite .. => execExpertEnWrite_keeps h
  | .readClear .. => execReadClear_keeps h
  | .readRequest .. => execReadRequest_keeps h
  | .postedWrite .. => execPostedWrite_keeps h
  | .readResponse .. => execReadResponse_keeps h
  | .writeAck .. => execWriteAck_keeps h
  | .failureNotice .. => execFailureNotice_keeps h
  | .splitReadTimeout .. => execSplitReadTimeout_keeps h
  | .postedWriteTimeout .. => execPostedWriteTimeout_keeps h
  | .creditReturn .. => execCreditReturn_keeps h
  | .portYield .. => execPortYield_keeps h
  | .flitCrcError .. => execFlitCrcError_keeps h
  | .diePortLinkFail .. => execDiePortLinkFail_keeps h
  | .shareWindowStart .. => execShareWindowStart_keeps h
  | .dramRefresh .. => execDramRefresh_keeps h
  | .driftCompensation .. => execDriftCompensation_keeps h
  | .dramTempRead .. => execDramTempRead_keeps h
  | .dramCeWriteback .. => execDramCeWriteback_keeps h
  | .lsEccWriteback .. => execLsEccWriteback_keeps h
  | .csEccWriteback .. => execCsEccWriteback_keeps h
  | .pwlogPop .. => execPwlogPop_keeps h
  | .domainSwitchDone .. => execDomainSwitchDone_keeps h
  | .domainDrainEnd .. => execDomainDrainEnd_keeps h
  | .contextLoad .. => execContextLoad_keeps h
  | .coreStart .. => execCoreStart_keeps h
  | .coreStep .. => execCoreStep_keeps h
  | .haltRequest .. => execHaltRequest_keeps h
  | .haltComplete .. => execHaltComplete_keeps h
  | .dmaChannelGo .. => execDmaChannelGo_keeps h
  | .dmaChannelStop .. => execDmaChannelStop_keeps h
  | .dmaChainStart .. => execDmaChainStart_keeps h
  | .dmaDescriptorLaunch .. => execDmaDescriptorLaunch_keeps h
  | .dmaPhasedLaunch .. => execDmaPhasedLaunch_keeps h
  | .dmaCompletion .. => execDmaCompletion_keeps h
  | .dmaStopSettle .. => execDmaStopSettle_keeps h
  | .errstop .. => execErrstop_keeps h
  | .pairMismatch .. => execPairMismatch_keeps h
  | .pairEnable .. => execPairEnable_keeps h
  | .streamStart .. => execStreamStart_keeps h
  | .accordDone .. => execAccordDone_keeps h
  | .nop .. => execNop_keeps h
  | .waitc .. => execWaitc_keeps h
  | .sop .. => execSop_keeps h
  | .sopi .. => execSopi_keeps h
  | .srd .. => execSrd_keeps h
  | .aadd .. => execAadd_keeps h
  | .aaddi .. => execAaddi_keeps h
  | .ali .. => execAli_keeps h
  | .amovs .. => execAmovs_keeps h
  | .asets .. => execAsets_keeps h
  | .br .. => execBr_keeps h
  | .jmp .. => execJmp_keeps h
  | .jal .. => execJal_keeps h
  | .jr .. => execJr_keeps h
  | .loop .. => execLoop_keeps h
  | .loopi .. => execLoopi_keeps h
  | .pop .. => execPop_keeps h
  | .plane .. => execPlane_keeps h
  | .pmovs .. => execPmovs_keeps h
  | .pfroms .. => execPfroms_keeps h
  | .ldb .. => execLdb_keeps h
  | .ldbu .. => execLdbu_keeps h
  | .ldh .. => execLdh_keeps h
  | .ldhu .. => execLdhu_keeps h
  | .ldw .. => execLdw_keeps h
  | .lda .. => execLda_keeps h
  | .stb .. => execStb_keeps h
  | .sth .. => execSth_keeps h
  | .stw .. => execStw_keeps h
  | .sta .. => execSta_keeps h
  | .vld .. => execVld_keeps h
  | .vst .. => execVst_keeps h
  | .amoadd .. => execAmoadd_keeps h
  | .amoswap .. => execAmoswap_keeps h
  | .amocas .. => execAmocas_keeps h
  | .dmago .. => execDmago_keeps h
  | .dmastop .. => execDmastop_keeps h
  | .sigwait .. => execSigwait_keeps h
  | .sigpost .. => execSigpost_keeps h
  | .bar .. => execBar_keeps h
  | .fence .. => execFence_keeps h
  | .pwb .. => execPwb_keeps h
  | .pwait .. => execPwait_keeps h
  | .accord .. => execAccord_keeps h
  | .endProgram .. => execEnd_keeps h
  | .mma .. => execMma_keeps h
  | .wld .. => execWld_keeps h
  | .amv .. => execAmv_keeps h
  | .amvw .. => execAmvw_keeps h
  | .viop .. => execViop_keeps h
  | .vsop .. => execVsop_keeps h
  | .vfop .. => execVfop_keeps h
  | .vfma .. => execVfma_keeps h
  | .vfds .. => execVfds_keeps h
  | .vfapx .. => execVfapx_keeps h
  | .vcmp .. => execVcmp_keeps h
  | .vmov .. => execVmov_keeps h
  | .vcvt .. => execVcvt_keeps h
  | .vreq .. => execVreq_keeps h
  | .vmxqQuantise .. => execVmxqQuantise_keeps h
  | .vmxqDequantise .. => execVmxqDequantise_keeps h
  | .vred .. => execVred_keeps h
  | .aopen .. => execAopen_keeps h
  | .astep .. => execAstep_keeps h
  | .astate .. => execAstate_keeps h
  | .avac .. => execAvac_keeps h
  | .aexp2 .. => execAexp2_keeps h
  | .vapp .. => execVapp_keeps h
  | .vfil .. => execVfil_keeps h
  | .vfls .. => execVfls_keeps h
  | .phaseTick .. => execPhaseTick_keeps h
  | .wheelStartEvent .. => execWheelStartEvent_keeps h
  | .sourceHoldTimeout .. => execSourceHoldTimeout_keeps h
  | .freeRunExpire .. => execFreeRunExpire_keeps h
  | .wheelEnable .. => execWheelEnable_keeps h
  | .argumentRead .. => execArgumentRead_keeps h
  | .periodicLaunch .. => execPeriodicLaunch_keeps h
  | .queuedLaunch .. => execQueuedLaunch_keeps h
  | .yieldRequest .. => execYieldRequest_keeps h
  | .endNotice .. => execEndNotice_keeps h
  | .yieldRelaunch .. => execYieldRelaunch_keeps h
  | .deadlineCheck .. => execDeadlineCheck_keeps h
  | .accordSlotCheck .. => execAccordSlotCheck_keeps h
  | .idleAccordStart .. => execIdleAccordStart_keeps h
  | .jobStopComplete .. => execJobStopComplete_keeps h
  | .cadAbort .. => execCadAbort_keeps h
  | .abortForward .. => execAbortForward_keeps h
  | .abortResult .. => execAbortResult_keeps h
  | .jobRecordPost => execJobRecordPost_keeps h
  | .domainStep .. => execDomainStep_keeps h
  | .domainLoad .. => execDomainLoad_keeps h
  | .domainSlew .. => execDomainSlew_keeps h
  | .domainEnable .. => execDomainEnable_keeps h
  | .triggerConfig .. => execTriggerConfig_keeps h
  | .triggerEdge .. => execTriggerEdge_keeps h
  | .triggerPulseStart .. => execTriggerPulseStart_keeps h
  | .triggerPulseEnd .. => execTriggerPulseEnd_keeps h
  | .captureEdge .. => execCaptureEdge_keeps h
  | .capturePop .. => execCapturePop_keeps h
  | .timeClockLoss => execTimeClockLoss_keeps h
  | .gptpFrameReceive .. => execGptpFrameReceive_keeps h
  | .gptpReceiptTimeout .. => execGptpReceiptTimeout_keeps h
  | .doorbell .. => execDoorbell_keeps h
  | .ringPoll .. => execRingPoll_keeps h
  | .cmdNop .. => execCmdNop_keeps h
  | .ringOpen .. => execRingOpen_keeps h
  | .ringClose .. => execRingClose_keeps h
  | .partLoad .. => execPartLoad_keeps h
  | .partUnload .. => execPartUnload_keeps h
  | .unloadFinish .. => execUnloadFinish_keeps h
  | .jobArm .. => execJobArm_keeps h
  | .jobDisarm .. => execJobDisarm_keeps h
  | .jobSubmit .. => execJobSubmit_keeps h
  | .jobAbort .. => execJobAbort_keeps h
  | .wheelSet .. => execWheelSet_keeps h
  | .timeSetEnable .. => execTimeSetEnable_keeps h
  | .timeSetDisable .. => execTimeSetDisable_keeps h
  | .timeSetRate .. => execTimeSetRate_keeps h
  | .timeSetSlew .. => execTimeSetSlew_keeps h
  | .timeSetStep .. => execTimeSetStep_keeps h
  | .timeSetLoad .. => execTimeSetLoad_keeps h
  | .timeSetDomainNumber .. => execTimeSetDomainNumber_keeps h
  | .trigSet .. => execTrigSet_keeps h
  | .capSet .. => execCapSet_keeps h
  | .timeRead .. => execTimeRead_keeps h
  | .capRead .. => execCapRead_keeps h
  | .statusRead .. => execStatusRead_keeps h
  | .acctRead .. => execAcctRead_keeps h
  | .logCfg .. => execLogCfg_keeps h
  | .rapOpen .. => execRapOpen_keeps h
  | .rapRead .. => execRapRead_keeps h
  | .rapWrite .. => execRapWrite_keeps h
  | .rapDoorbell .. => execRapDoorbell_keeps h
  | .rapClose .. => execRapClose_keeps h
  | .rapKeepalive .. => execRapKeepalive_keeps h
  | .rapNotify .. => execRapNotify_keeps h
  | .rapSessionTimeout .. => execRapSessionTimeout_keeps h
  | .rapHalfopenTimeout .. => execRapHalfopenTimeout_keeps h
  | .watchdogKick .. => execWatchdogKick_keeps h
  | .watchdogExpire .. => execWatchdogExpire_keeps h
  | .fpException .. => execFpException_keeps h
  | .fpRunning .. => execFpRunning_keeps h
  | .fpStartTimeout .. => execFpStartTimeout_keeps h
  | .mcWatchdogKick .. => execMcWatchdogKick_keeps h
  | .mcWatchdogExpire => execMcWatchdogExpire_keeps h
  | .fpRestart .. => execFpRestart_keeps h
  | .resetAssert .. => execResetAssert_keeps h
  | .resetRelease .. => execResetRelease_keeps h
  | .bringupTimeout .. => execBringupTimeout_keeps h
  | .coolOkAssert .. => execCoolOkAssert_keeps h
  | .coolOkDeassert => execCoolOkDeassert_keeps h
  | .thermalSample .. => execThermalSample_keeps h
  | .powerSample .. => execPowerSample_keeps h
  | .supplyFault .. => execSupplyFault_keeps h
  | .refclkLoss => execRefclkLoss_keeps h
  | .powerRemoval => execPowerRemoval_keeps h
  | .pwrDomain .. => execPwrDomain_keeps h
  | .pwrCap .. => execPwrCap_keeps h
  | .pwrRead .. => execPwrRead_keeps h
  | .shutdown .. => execShutdown_keeps h
  | .bootReport .. => execBootReport_keeps h
  | .pwrReq .. => execPwrReq_keeps h
  | .pwrCapWrite .. => execPwrCapWrite_keeps h
  | .safeMonLoad .. => execSafeMonLoad_keeps h
  | .safeMonUnload .. => execSafeMonUnload_keeps h
  | .safePair .. => execSafePair_keeps h
  | .safeUnpair .. => execSafeUnpair_keeps h
  | .safeRetest .. => execSafeRetest_keeps h
  | .safeStatus .. => execSafeStatus_keeps h
  | .monitorLaunch .. => execMonitorLaunch_keeps h
  | .monitorDeadline .. => execMonitorDeadline_keeps h
  | .comparisonStart .. => execComparisonStart_keeps h
  | .verdictWrite .. => execVerdictWrite_keeps h
  | .accordSignatureCheck .. => execAccordSignatureCheck_keeps h
  | .comparatorSelfTest .. => execComparatorSelfTest_keeps h
  | .cpuLockstepMismatch .. => execCpuLockstepMismatch_keeps h
  | .faultService .. => execFaultService_keeps h
  | .faultSweep => execFaultSweep_keeps h
  | .windowEvent => execWindowEvent_keeps h
  | .pinPulseEnd .. => execPinPulseEnd_keeps h
  | .fltPulse .. => execFltPulse_keeps h
  | .leaseExpire .. => execLeaseExpire_keeps h
  | .fltRead .. => execFltRead_keeps h
  | .fltWindow .. => execFltWindow_keeps h
  | .fltPin .. => execFltPin_keeps h
  | .fltPartreset .. => execFltPartreset_keeps h
  | .partresetDrainEnd .. => execPartresetDrainEnd_keeps h
  | .fltLeases .. => execFltLeases_keeps h
  | .fltSource .. => execFltSource_keeps h
  | .fltPwsticky .. => execFltPwsticky_keeps h
  | .ctxCreate .. => execCtxCreate_keeps h
  | .ctxDestroy .. => execCtxDestroy_keeps h
  | .ctxDestroyDrainEnd .. => execCtxDestroyDrainEnd_keeps h
  | .ctxDestroyRelease .. => execCtxDestroyRelease_keeps h
  | .memMap .. => execMemMap_keeps h
  | .wpkgLoad .. => execWpkgLoad_keeps h
  | .groupKeyInstall .. => execGroupKeyInstall_keeps h
  | .groupKeyRemove .. => execGroupKeyRemove_keeps h
  | .attest .. => execAttest_keeps h
  | .dirtyStart .. => execDirtyStart_keeps h
  | .dirtyRead .. => execDirtyRead_keeps h
  | .dirtyStop .. => execDirtyStop_keeps h
  | .domClock .. => execDomClock_keeps h
  | .mgmtHello .. => execMgmtHello_keeps h
  | .mgmtAuth .. => execMgmtAuth_keeps h
  | .sliceCreate .. => execSliceCreate_keeps h
  | .sliceDestroy .. => execSliceDestroy_keeps h
  | .sliceRead .. => execSliceRead_keeps h
  | .credRevoke .. => execCredRevoke_keeps h
  | .pkgAttest .. => execPkgAttest_keeps h
  | .logRead .. => execLogRead_keeps h
  | .mgmtClose .. => execMgmtClose_keeps h
  | .mgmtSessionTimeout => execMgmtSessionTimeout_keeps h
  | .mgmtLockoutEnd => execMgmtLockoutEnd_keeps h
  | .hxattrWrite .. => execHxattrWrite_keeps h
  | .hxwayWrite .. => execHxwayWrite_keeps h
  | .mxpark .. => execMxpark_keeps h
  | .mxwdkick .. => execMxwdkick_keeps h
  | .cpuPwb .. => execCpuPwb_keeps h
  | .cpuWatchdogExpire .. => execCpuWatchdogExpire_keeps h
  | .cpuPairStop .. => execCpuPairStop_keeps h
  | .cpuPairStart .. => execCpuPairStart_keeps h
  | .cpuPairStopped .. => execCpuPairStopped_keeps h
  | .cpuIoLoad .. => execCpuIoLoad_keeps h
  | .cpuIoStore .. => execCpuIoStore_keeps h
  | .canModeWrite .. => execCanModeWrite_keeps h
  | .canFrameReceive .. => execCanFrameReceive_keeps h
  | .canFrameSent .. => execCanFrameSent_keeps h
  | .canBusoffRecovery .. => execCanBusoffRecovery_keeps h
  | .linScheduleEntry .. => execLinScheduleEntry_keeps h
  | .linFrameEnd .. => execLinFrameEnd_keeps h
  | .linWakeup .. => execLinWakeup_keeps h
  | .switchFrameReceive .. => execSwitchFrameReceive_keeps h
  | .gwQueueDoorbell .. => execGwQueueDoorbell_keeps h
  | .gwQueuePoll .. => execGwQueuePoll_keeps h
  | .queueTxWriteback .. => execQueueTxWriteback_keeps h
  | .queueRxWriteback .. => execQueueRxWriteback_keeps h
  | .pduSourceTimeout .. => execPduSourceTimeout_keeps h
  | .pduPeriodicSend .. => execPduPeriodicSend_keeps h
  | .mdioCommand .. => execMdioCommand_keeps h
  | .mdioDone .. => execMdioDone_keeps h
  | .pcieOutboundRequest .. => execPcieOutboundRequest_keeps h
  | .pcieCompletionTimeout .. => execPcieCompletionTimeout_keeps h
  | .pcieLinkDown => execPcieLinkDown_keeps h
  | .pcieInboundRequest .. => execPcieInboundRequest_keeps h
  | .pcieYield .. => execPcieYield_keeps h
  | .canSetConfigure .. => execCanSetConfigure_keeps h
  | .canSetFilter .. => execCanSetFilter_keeps h
  | .canSetAbortBuffer .. => execCanSetAbortBuffer_keeps h
  | .linSetConfigure .. => execLinSetConfigure_keeps h
  | .linSetLoadSchedule .. => execLinSetLoadSchedule_keeps h
  | .linSetStart .. => execLinSetStart_keeps h
  | .linSetStop .. => execLinSetStop_keeps h
  | .swPort .. => execSwPort_keeps h
  | .swVlan .. => execSwVlan_keeps h
  | .flowAdd .. => execFlowAdd_keeps h
  | .flowDel .. => execFlowDel_keeps h
  | .flowRead .. => execFlowRead_keeps h
  | .gwPdu .. => execGwPdu_keeps h
  | .gwRoute .. => execGwRoute_keeps h
  | .gwQueue .. => execGwQueue_keeps h
  | .pciWindow .. => execPciWindow_keeps h
  | .pciLinkTrain .. => execPciLinkTrain_keeps h
  | .pciLinkPerstAssert .. => execPciLinkPerstAssert_keeps h
  | .pciLinkPerstRelease .. => execPciLinkPerstRelease_keeps h
  | .csiPacketReceive .. => execCsiPacketReceive_keeps h
  | .frameRecordFinal .. => execFrameRecordFinal_keeps h
  | .streamDueCheck .. => execStreamDueCheck_keeps h
  | .gfxDoorbell .. => execGfxDoorbell_keeps h
  | .gfxQueuePoll .. => execGfxQueuePoll_keeps h
  | .renderPassStart .. => execRenderPassStart_keeps h
  | .passWriteback .. => execPassWriteback_keeps h
  | .compositorPreempt .. => execCompositorPreempt_keeps h
  | .displayLatch .. => execDisplayLatch_keeps h
  | .imageRelease .. => execImageRelease_keeps h
  | .codecPicture .. => execCodecPicture_keeps h
  | .camStream .. => execCamStream_keeps h
  | .ispTune .. => execIspTune_keeps h
  | .gfxQueue .. => execGfxQueue_keeps h
  | .gfxPool .. => execGfxPool_keeps h
  | .dspOut .. => execDspOut_keeps h
  | .dspPlane .. => execDspPlane_keeps h
  | .codecSession .. => execCodecSession_keeps h
  | .woadeRoundStart => execWoadeRoundStart_keeps h
  | .woadeSlotStart .. => execWoadeSlotStart_keeps h
  | .maintenanceFlit .. => execMaintenanceFlit_keeps h
  | .woadeFlitReceive .. => execWoadeFlitReceive_keeps h
  | .woadeMessageReceive => execWoadeMessageReceive_keeps h
  | .woadeSqDoorbell .. => execWoadeSqDoorbell_keeps h
  | .woadeSendWriteback .. => execWoadeSendWriteback_keeps h
  | .woadePortDown .. => execWoadePortDown_keeps h
  | .woadePortUp .. => execWoadePortUp_keeps h
  | .woadeTrainTimeout .. => execWoadeTrainTimeout_keeps h
  | .woadeTrainRetry .. => execWoadeTrainRetry_keeps h
  | .woadeMessageDiscard .. => execWoadeMessageDiscard_keeps h
  | .partnerLoss => execPartnerLoss_keeps h
  | .wdeTopo .. => execWdeTopo_keeps h
  | .wdePort .. => execWdePort_keeps h
  | .wdeFlow .. => execWdeFlow_keeps h
  | .wdeSched .. => execWdeSched_keeps h
  | .wdeSqueue .. => execWdeSqueue_keeps h
  | .wdeRqueue .. => execWdeRqueue_keeps h
  | .wdePair .. => execWdePair_keeps h
  | .monitorComplete .. => execMonitorComplete_keeps h
  | .mcShadowMismatch => execMcShadowMismatch_keeps h
  | .jtagAccess .. => execJtagAccess_keeps h
  | .pcsLinkChange .. => execPcsLinkChange_keeps h
  | .displayLinkLoss .. => execDisplayLinkLoss_keeps h
  | .scanOutLine .. => execScanOutLine_keeps h
  | .csiPhySync .. => execCsiPhySync_keeps h
  | .woadeSqPoll .. => execWoadeSqPoll_keeps h
  | .trustedPairRelease .. => execTrustedPairRelease_keeps h
  | .slewComplete d => execSlewComplete_keeps (d := d) h
  | .gptpSyncSend .. => execGptpSyncSend_keeps h
  | .switchFrameEgress .. => execSwitchFrameEgress_keeps h
  | .linHeaderReceive .. => execLinHeaderReceive_keeps h

/-- A step answers a state with the rest of the queue, the fixed data as they were and memory as canonical as it was. -/
theorem step_keeps (s : State) : ∃ t, step s = .next t ∧ Keeps { s with pending := s.pending.tail } t := by
  unfold step
  split
  · next hq => exact ⟨s.idle, rfl, State.idle_keeps ⟨by rw [hq]; rfl, rfl, id⟩⟩
  · next c q hq =>
    obtain ⟨t, ht, k⟩ := exec_keeps (Keeps.refl { s with pending := q }) c
    exact ⟨t, ht, by rw [hq]; exact k⟩

/-- Settles O60: the memory that a step leaves is canonical, since no operation on the way puts it out of that form. -/
theorem everyStepKeepsMemoryCanonical : Obligations.EveryStepKeepsMemoryCanonical := by
  unfold Obligations.EveryStepKeepsMemoryCanonical
  intro s t hs ht
  obtain ⟨u, hu, k⟩ := step_keeps s
  obtain rfl : u = t := by simpa [hu] using ht
  exact k.mem hs

end Sys2Proof.Machine
end

section
/-! PROOFS. DMA channels and the fabric: what a channel, a port and the records of a transaction are after the updates that these commands
use, and the completion of each command (O22). -/

namespace Sys2Proof.Machine

/-! ### A channel after an update -/

@[simp] theorem CoreState.get_modChan_same (x : CoreState) (ch : Fin 8) (f : Chan → Chan) :
    Chan.get (x.modChan ch f) ch = f (Chan.get x ch) := AMap.get_set_same ..

@[simp] theorem State.chan_modChan_same (s : State) (c : CoreId) (ch : Fin 8) (f : Chan → Chan) :
    (s.modChan c ch f).chan c ch = f (s.chan c ch) := by
  simp [State.chan, State.modChan]

/-- Two updates that agree on the channel as it stands are one. -/
theorem State.modChan_congr {s : State} {c : CoreId} {ch : Fin 8} {f g : Chan → Chan} (h : f (s.chan c ch) = g (s.chan c ch)) :
    s.modChan c ch f = s.modChan c ch g :=
  congrArg (fun x => s.putCore c { s.core c with chans := (s.core c).chans.set ch x }) h

/-! ### The fabric after an update of a core -/

@[simp] theorem State.putCore_fab (s : State) (c : CoreId) (x : CoreState) : (s.putCore c x).fab = s.fab := by
  unfold State.putCore State.mirrored
  split <;> rfl

@[simp] theorem State.modChan_fab (s : State) (c : CoreId) (ch : Fin 8) (f : Chan → Chan) : (s.modChan c ch f).fab = s.fab :=
  State.putCore_fab ..

@[simp] theorem State.chanRelease_fab (s : State) (c : CoreId) (ch : Fin 8) : (s.chanRelease c ch).fab = s.fab := rfl

@[simp] theorem State.release_fab (s : State) (c : CoreId) (rd : Nat) (v : Word) : (s.release c rd v).fab = s.fab :=
  State.putCore_fab ..

@[simp] theorem State.setSig_fab (s : State) (c : CoreId) (sid : Nat) (v : BitVec 16) : (s.setSig c sid v).fab = s.fab := by
  unfold State.setSig State.mirrored
  split <;> rfl

@[simp] theorem State.sigCheck_fab (s : State) (c : CoreId) : (s.sigCheck c).fab = s.fab := by
  unfold State.sigCheck
  split
  · dsimp only
    split
    · rw [State.release_fab]
      split
      · exact State.setSig_fab ..
      · rfl
    · rfl
  · rfl

@[simp] theorem State.sigAdd_fab (s : State) (c : CoreId) (sid : Nat) (n : BitVec 16) : (s.sigAdd c sid n).fab = s.fab := by
  rw [State.sigAdd, State.sigCheck_fab, State.setSig_fab]

/-- The end of a descriptor touches the fabric only by its signal (R20, R152). -/
theorem State.endDesc_fab (s : State) (c : CoreId) (ch : Fin 8) : (s.endDesc c ch).fab = (s.chanSignalled c ch).fab := by
  unfold State.endDesc
  dsimp only
  split <;> split <;> simp

/-- A signalled completion makes the channel's bytes defined (R20). -/
theorem State.chanSignalled_landing {s : State} {c : CoreId} {ch : Fin 8} {l : Landing} (h : l ∈ (s.chanSignalled c ch).fab.landing) :
    ¬(l.core = c ∧ l.chan = ch) := by
  simp only [State.chanSignalled, List.mem_filter] at h
  rintro ⟨rfl, rfl⟩
  simp at h

/-- A signalled completion makes the channel's posted writes count (R152). -/
theorem State.chanSignalled_tx {s : State} {c : CoreId} {ch : Fin 8} {x : Tx} (h : x ∈ (s.chanSignalled c ch).fab.tx)
    (hx : x.channel = some (c, ch)) : x.signalled = true := by
  simp only [State.chanSignalled, List.mem_map] at h
  obtain ⟨t, _, rfl⟩ := h
  split at hx
  · next e => simp [e]
  · next e => exact absurd hx e

/-! ### Chains, GO and STOP (R110, R118, R144) -/

section Channel
variable {s : State} {c : CoreId} {ch : Fin 8}

theorem execDmaChainStart_idle {l : BitVec 20} {t : List (BitVec 20)} (hr : s.dmaReady c = true) (hq : (s.chan c ch).queue = l :: t)
    (hs : (s.chan c ch).st = .idle) (hh : (s.chan c ch).head = none) :
    execDmaChainStart c ch s = .next ((s.modChan c ch (fun h => { h with queue := t })).startChain c ch l) := by
  simp [execDmaChainStart, hq, hr, hs, hh]

/-- GO starts a channel that neither works nor waits (R110). -/
theorem State.dmaGo_starts (h : (s.chan c ch).st = .error ∨ (s.chan c ch).st = .stopped ∨ (s.chan c ch).st = .idle ∧ (s.chan c ch).head = none) :
    s.dmaGo c ch = s.startChain c ch ((s.reg .tc c.inst (Reg.TC_DMAHEADc ch)).setWidth 20) := by
  obtain h | h | ⟨h, hh⟩ := h
  · simp [State.dmaGo, h]
  · simp [State.dmaGo, h]
  · simp [State.dmaGo, h, hh]

/-- STOP lets an active channel finish its beat. -/
theorem State.dmaStop_active (h : (s.chan c ch).st = .active) :
    s.dmaStop c ch = s.modChan c ch (fun h => { h with queue := [], stopping := some true }) := by
  rw [State.dmaStop, State.modChan_congr (g := fun h => { h with queue := [], stopping := some true }) (by simp [Chan.stop, h])]
  simp [h]

/-- STOP of a channel that is not active ends its lease at once. -/
theorem State.dmaStop_inactive {f : Chan → Chan} (e : (s.chan c ch).stop true = f (s.chan c ch)) (h : (f (s.chan c ch)).st ≠ .active) :
    s.dmaStop c ch = (s.modChan c ch f).chanRelease c ch := by
  rw [State.dmaStop, State.modChan_congr e]
  simp [h]

theorem State.dmaStop_error (h : (s.chan c ch).st = .error) :
    s.dmaStop c ch = (s.modChan c ch (fun h => { h with queue := [], st := .stopped })).chanRelease c ch :=
  State.dmaStop_inactive (by simp [Chan.stop, h]) (by simp)

theorem State.dmaStop_waitPhase (h : (s.chan c ch).st = .waitPhase) :
    s.dmaStop c ch = (s.modChan c ch (fun h => { h with queue := [], st := .stopped, head := none })).chanRelease c ch :=
  State.dmaStop_inactive (by simp [Chan.stop, h]) (by simp)

theorem execDmaStopSettle_settled {b : Bool} (hr : s.dmaReady c = true) (hs : (s.chan c ch).stopping = some b) (ht : s.chanTx c ch true = []) :
    execDmaStopSettle c ch s = .next ((s.modChan c ch (fun h => { h with
      st := if b then .stopped else .idle, head := none, stopping := none, out := [] })).chanRelease c ch) := by
  simp only [State.dmaReady, Bool.and_eq_true, Bool.not_eq_true'] at hr
  simp [execDmaStopSettle, hs, ht, hr.2]

/-! ### Descriptors (R109 to R112) -/

/-- A channel in its turn reads its head descriptor (R109): what it does then, by what the line holds. -/
theorem execDmaDescriptorLaunch_head {line : BitVec 20} {t : State} {bs : List Byte} {bad : Option Nat} (hm : s.dmaMay c = true)
    (hh : (s.chan c ch).head = some line) (hs : (s.chan c ch).st = .idle) (hr : s.read (lsBase c + line.toNat) 64 = (t, bs, bad))
    {d : BitVec 512} (hd : d = BitVec.ofNat 512 (leNat bs)) (ep : List (Option (List Byte))) :
    execDmaDescriptorLaunch c ch ep s = .next (
      if bad.isSome || !descOk d then t.descError c ch line bad.isSome
      else if dBarrier d && t.chanTx c ch false != [] then t.chanRenew c ch
      else if !dPhased d then t.launchDesc c ch d ep
      else if (t.wheel (dWheel d)).passed ((s.chan c ch).headFrame.get (dWheel d) 0) (dPhase d) then
        ((t.modChan c ch (fun h => { h with late := true })).lateEvent c).launchDesc c ch d ep
      else (t.modChan c ch (fun h => { h with st := .waitPhase, desc := d, rem := totalBytes d })).chanRenew c ch) := by
  subst hd
  simp only [execDmaDescriptorLaunch, hh, hm, hs, hr]
  rfl

theorem execDmaPhasedLaunch_reached (hm : s.dmaMay c = true) (hs : (s.chan c ch).st = .waitPhase)
    (hp : (s.wheel (dWheel (s.chan c ch).desc)).passed ((s.chan c ch).headFrame.get (dWheel (s.chan c ch).desc) 0)
      (dPhase (s.chan c ch).desc) = true) (ep : List (Option (List Byte))) :
    execDmaPhasedLaunch c ch ep s = .next (s.launchDesc c ch (s.chan c ch).desc ep) :=
  congrArg Host.Outcome.next (if_pos (by rw [hm, hs, hp]; rfl))

/-- A descriptor whose beats have all been moved ends (R112). -/
theorem execDmaCompletion_done {u : State} {ep : List (Option (List Byte))} (hr : s.dmaReady c = true) (hu : u = s.pumpChan c ch (some ep))
    (hs : (u.chan c ch).st = .active) (hstop : (u.chan c ch).stopping = none) (hout : (u.chan c ch).out = [])
    (hb : beats (u.chan c ch).desc ≤ (u.chan c ch).beat) (ht : u.chanTx c ch true = []) :
    execDmaCompletion c ch ep s = .next (u.endDesc c ch) := by
  subst hu
  simp [execDmaCompletion, hr, hs, hstop, hout, hb, ht]

end Channel

/-! ### Outcomes of transactions (R25, R222, R223) -/

section Outcome
variable {s : State} {id : Nat} {t : Tx} (ht : s.txOf id = some t)
include ht

theorem execReadResponse_data (hr : t.isRead = true) (hf : t.fail = none) (hl : t.data.length = t.len) : execReadResponse id s =
    .next (((((s.dropTx id).deliver t.src t.addr t.data none).chanData t).pciCredit t.addr).pumpAll) := by
  simp [execReadResponse, ht, hr, hf, hl]

theorem execReadResponse_error {code : Nat} (hr : t.isRead = true) (hf : t.fail = some code) : execReadResponse id s =
    .next (((((s.dropTx id).chanFails t).deliver t.src t.addr [] (some code)).pciCredit t.addr).pumpAll) := by
  simp [execReadResponse, ht, hr, hf, State.readFailed]

theorem execWriteAck_landed (hr : t.isRead = false) (hf : t.fail = none) :
    execWriteAck id s = .next ((s.dropTx id).pciCredit t.addr).pumpAll := by
  simp [execWriteAck, ht, hr, hf]

theorem execFailureNotice_failed {code : Nat} (hr : t.isRead = false) (hf : t.fail = some code) :
    execFailureNotice id s = .next ((s.dropTx id).pwFail t.src t.addr code t.target).pumpAll := by
  simp [execFailureNotice, ht, hr, hf]

theorem execSplitReadTimeout_expired (he : t.since + 100000 ≤ s.now) (hr : t.isRead = true) (hi : t.id = id) :
    execSplitReadTimeout id s = .next
      ((((s.dropTx id).raise .fab t.src.die 2 t.addr t.src.info).chanFails t).deliver t.src t.addr [] (some 6)).pumpAll := by
  subst hi
  simp [execSplitReadTimeout, ht, hr, State.txExpired, he, State.readTimeout, State.readFailed]

theorem execPostedWriteTimeout_expired (he : t.since + 100000 ≤ s.now) (hr : t.isRead = false) :
    execPostedWriteTimeout id s = .next ((s.dropTx id).pwFail t.src t.addr 6 t.target).pumpAll := by
  simp [execPostedWriteTimeout, ht, hr, State.txExpired, he]

end Outcome

/-! ### Ports (R219, R227, R229, R457) -/

/-- A returned credit leaves the receive buffer; a port that yields sends again (R219, R227). -/
theorem execCreditReturn_held {s u : State} {d : Fin 8} {p : Fin 7} {c : Fin 8}
    (h : ∃ x ∈ s.fab.credits, x.die = d ∧ x.port = p ∧ x.cls = c) (hu : u = { s with fab := { s.fab with
      credits := removeFirst (fun x => x.die == d && x.port == p && x.cls == c) s.fab.credits, credAt := s.fab.credAt.set (d, p) s.now } }) :
    execCreditReturn d p c s = .next (if s.yielding (d, p) then
      { u.setFld .dp (portInst d p) Reg.DP_STAT 8 8 0 with fab := { u.fab with escape := u.fab.escape.set p 0 } } else u).pumpAll := by
  subst hu
  refine if_pos ?_
  obtain ⟨x, hx, rfl, rfl, rfl⟩ := h
  exact List.any_eq_true.mpr ⟨x, hx, by simp⟩

/-- Every port of the Vehicle die has a far end (R29). -/
theorem peer_vehicle_isSome : ∀ p : Fin 7, (peer 6 p).isSome = true := by decide

/-- A port that yields stops sending, grants escape credits and counts the yield (R227). -/
theorem execPortYield_stuck {s : State} {p : Fin 7} (hu : s.up (domFab 6) = true) (hy : s.yielding (6, p) = false)
    (hs : s.stuck (6, p) = true) (hf : ∀ far, peer 6 p = some far → s.stuck far = true) (n : Fin 33) :
    ∃ u, execPortYield p n s = .next u ∧ u.yielding (6, p) = true ∧ u.fab.escape.get p 0 = 32 - n.val ∧
      u.reg .dp (portInst 6 p) Reg.DP_YIELDCNT = s.reg .dp (portInst 6 p) Reg.DP_YIELDCNT + 1 ∧ u.mem = s.mem := by
  obtain ⟨far, hpeer⟩ := Option.isSome_iff_exists.mp (peer_vehicle_isSome p)
  refine ⟨_, congrArg Host.Outcome.next (if_pos ?_), ?_, ?_, ?_, rfl⟩
  · rw [hpeer, hu, hy, hs, Option.getD_some, hf far hpeer]; rfl
  · rw [State.yielding, State.fld, State.count, State.reg_setReg_other _ _ _ _ _ _ _ _ (by simp [Reg.DP_STAT, Reg.DP_YIELDCNT])]
    exact beq_iff_eq.mpr (State.fld_setFld_same (hi := 8) (lo := 8) _ .dp (portInst 6 p) Reg.DP_STAT 1 (by decide))
  · exact AMap.get_set_same ..
  · rw [State.count, State.reg_setReg_same, State.reg_setFld_off _ _ _ _ _ _ (by decide)]
    rfl

theorem execDiePortLinkFail_up {s : State} {d : Fin 8} {p : Fin 7} (hu : s.up (domFab d) = true) (hp : (peer d p).isSome = true) :
    execDiePortLinkFail d p s = .next
      ((((s.setFld .dp (portInst d p) Reg.DP_STAT 3 0 3).setFld .die d Reg.DIE_PORTSTAT p p 0).raise .dp (portInst d p) 2 0 0).revokeLink d p) :=
  if_neg (by simp [hu, Option.isNone_eq_false_iff.mpr hp])

theorem execPwlogPop_reaches {s : State} {src : Src} {d : Fin 8} (h : s.reaches src (fabBase d + Reg.FAB_PWLOGPOP) = true) :
    execPwlogPop src d s = .next { s with fab := { s.fab with pwlog := s.fab.pwlog.set d (s.fab.pwlog.get d []).tail } } := by
  rw [execPwlogPop, State.regCommand_reaches h, State.pwlogPop, List.drop_one]

/-! ### Every command -/

/-- Settles O22: each clause is the completion of one command, stated above for it. -/
theorem fabricCommandsComplete : Obligations.FabricCommandsComplete := by
  unfold Obligations.FabricCommandsComplete
  refine ⟨fun src c ch ep s hready => ⟨?chainStart, ?launch, ?phased, ?completion, ?settle, ?goStop⟩,
    fun id t s => ⟨fun ht => ⟨?read, ?readError, ?ack, ?notice, ?timeouts⟩, ?credit, ?yield, ?port, ?pop⟩⟩
  case chainStart => exact fun l t => execDmaChainStart_idle hready
  case launch =>
    intro line t bs d hm hh hs
    refine ⟨fun hr hd => ?_, fun g hr => ?_⟩
    · have hl := execDmaDescriptorLaunch_head hm hh hs hr hd ep
      refine ⟨fun hok hbar => ?_, fun hok hb ht => ?_, fun hok => ?_⟩
      · have hgo : (dBarrier d && t.chanTx c ch false != []) = false := by
          obtain h | h := hbar <;> simp [h]
        refine ⟨fun hp => hl.trans ?_, fun hp hpass => hl.trans ?_, fun hp hpass => hl.trans ?_⟩
        · simp only [hok, hgo, hp]; rfl
        · simp only [hok, hgo, hp, hpass]; rfl
        · simp only [hok, hgo, hp, hpass]; rfl
      · refine hl.trans ?_
        simp [hok, hb, ht]
      · refine hl.trans ?_
        simp [hok, State.descError]
    · refine (execDmaDescriptorLaunch_head hm hh hs hr rfl ep).trans ?_
      simp [State.descError]
  case phased => exact fun hm hs hp => execDmaPhasedLaunch_reached hm hs hp ep
  case completion =>
    intro u hu hs hstop hout hb ht
    refine ⟨_, execDmaCompletion_done hready hu hs hstop hout hb ht, rfl, ?_, ?_⟩ <;> rw [State.endDesc_fab]
    · exact fun l => State.chanSignalled_landing
    · exact fun x => State.chanSignalled_tx
  case settle => exact fun b => execDmaStopSettle_settled hready
  case goStop =>
    intro hw hr
    have stop : execDmaChannelStop src c ch s = .next (s.dmaStop c ch) :=
      congrArg Host.Outcome.next (State.expertCommand hr hw (fun _ => true) _)
    refine ⟨fun h => ?_, fun h => ?_, fun h => ?_, fun h => ?_⟩
    · rw [← State.dmaGo_starts h]
      exact congrArg Host.Outcome.next (State.expertCommand hr hw (fun _ => true) _)
    · rw [← State.dmaStop_active h]; exact stop
    · rw [← State.dmaStop_error h]; exact stop
    · rw [← State.dmaStop_waitPhase h]; exact stop
  case read => exact execReadResponse_data ht
  case readError => exact fun code => execReadResponse_error ht
  case ack => exact execWriteAck_landed ht
  case notice => exact fun code => execFailureNotice_failed ht
  case timeouts => exact fun he => ⟨execSplitReadTimeout_expired ht he, execPostedWriteTimeout_expired ht he⟩
  case credit =>
    intro d p c h u hu
    exact ⟨fun hy => (execCreditReturn_held h hu).trans (by rw [if_neg (by simp [hy])]),
      fun hy => (execCreditReturn_held h hu).trans (by rw [if_pos hy])⟩
  case yield => exact fun p n hu hy hs hf => execPortYield_stuck hu hy hs hf n
  case port => exact fun d p hu => ⟨congrArg Host.Outcome.next (if_pos hu), execDiePortLinkFail_up hu⟩
  case pop => exact fun src d => execPwlogPop_reaches

end Sys2Proof.Machine
end

section
/-! PROOFS. Power, coolant and temperature: the completion of each command (O46). -/

namespace Sys2Proof.Machine

/-! ### Resets and coolant (R384, R622, R626) -/

theorem execResetAssert_resets {ns : Nat} {may : Bool} (h : 1000 ≤ ns ∨ (200 ≤ ns ∧ may = true)) (s : State) :
    execResetAssert ns may s = .next s.powerLost := congrArg Host.Outcome.next (if_pos h)

theorem execResetAssert_short {ns : Nat} (h : ns < 200) (may : Bool) (s : State) : execResetAssert ns may s = .next s :=
  congrArg Host.Outcome.next (if_neg (by omega))

/-- COOL_OK that falls takes the Tolid dies off, and a package in READY to PARTIAL (R381, R384). -/
theorem execCoolOkDeassert_cool {s u : State} (h : s.cool = true) (hu : u = { s.setFld .pwr 0 Reg.PWR_STAT 2 2 0 with
      pwr := { (s.setFld .pwr 0 Reg.PWR_STAT 2 2 0).pwr with lateCool := none } }) :
    execCoolOkDeassert s = .next (if u.pkg = pkREADY then (u.raise .pwr 0 3 0 0).toPartial (List.range 6) else u.tolidDrop (List.range 6)) := by
  subst hu
  exact congrArg Host.Outcome.next (if_neg (by simp [h]))

/-! ### Samples (R385, R392, R393) -/

/-- A fold in which no element but `a` acts is the action of `a`, where `a` stands in the list. -/
theorem foldl_acts_once {α β : Type} [DecidableEq α] {f : β → α → β} {a : α} (hf : ∀ s x, x ≠ a → f s x = s) {l : List α} (hl : l.Nodup)
    (s : β) : l.foldl f s = if a ∈ l then f s a else s := by
  induction l generalizing s with
  | nil => rfl
  | cons x l ih =>
    obtain ⟨hx, hl⟩ := List.nodup_cons.mp hl
    rw [List.foldl_cons, ih hl]
    by_cases h : x = a
    · subst h; simp [hx]
    · simp [hf s x h, Ne.symm h]

section Sample
variable {s : State} (hp : s.pkg ≠ pkRESET) (hc : s.pwr.cut = false)
include hp hc

/-- A junction above 125 degrees cuts the package off (R393). -/
theorem execThermalSample_above {t : Int} (h : 125 < t) (d : Fin 8) : execThermalSample [(d, t)] s = .next s.hardCut := by
  simp [execThermalSample, hp, hc, hottest, h]

/-- A reading of one die up to 125 degrees is that die's, and sheds domains of a package that is hot without coolant (R385, R393). -/
theorem execThermalSample_within {u : State} {t : Int} {d : Fin 8} (h : t ≤ 125)
    (hu : u = (s.setReg .pwr 0 Reg.PWR_THERM (BitVec.ofNat 32 (d.val * 2 ^ 12 + wrapN 9 t))).thermDie d t) :
    execThermalSample [(d, t)] s =
      .next (if u.cool = false ∧ u.pkg = pkPARTIAL ∧ 160 < u.budgetSum ∧ 6 ≤ d.val ∧ 100 ≤ t then u.shed else u) := by
  subst hu
  simp only [execThermalSample, hp, hc, hottest, show ¬ 125 < t by omega, Bool.false_eq_true, or_self, if_false]
  rw [foldl_acts_once (a := d) (fun v x hx => by simp [hottest, Ne.symm hx]) (List.nodup_finRange 8), if_pos (List.mem_finRange d)]
  simp [hottest, and_assoc]

theorem execPowerSample_few {n : Nat} (h : averages ((n :: s.pwr.samples).take 100) = []) :
    execPowerSample n s = .next { s with pwr := { s.pwr with samples := (n :: s.pwr.samples).take 100 } } := by
  simp only [execPowerSample, hp, hc, h, Bool.false_eq_true, or_self, if_false]

/-- Ten samples make an average, which the cap is compared with (R392). -/
theorem execPowerSample_average {u : State} {n a : Nat} {l : List Nat} (h : averages ((n :: s.pwr.samples).take 100) = a :: l)
    (hu : u = State.setReg { s with pwr := { s.pwr with samples := (n :: s.pwr.samples).take 100 } } .pwr 0 Reg.PWR_MEAS
      (BitVec.ofNat 32 ((a :: l).foldl Nat.max 0 % 4096 * 2 ^ 16 + a % 4096))) :
    execPowerSample n s = .next (if u.effCap < a then u.raise .pwr 0 4 0 0 else u) := by
  subst hu
  simp only [execPowerSample, hp, hc, h, Bool.false_eq_true, or_self, if_false]

end Sample

/-! ### Switches of domains (R54, R223, R387 to R390) -/

section Switch
variable {s : State} {d : Fin 116} {x : PwrReq × Nat} (hx : s.switchOf d = some x)
include hx

theorem execDomainSwitchDone_drained (h : x.1.on = true ∨
      s.fab.tx.any (fun t => !t.isRead && !t.src.fw && agentDomain t.src.die t.src.agent == d.val) = false) (silent : Option (Fin 11 × Nat)) :
    execDomainSwitchDone d silent s = .next (s.switchDone x (silent.map (fun y => (y.1.val, y.2)))) := by
  simp only [execDomainSwitchDone, hx]
  refine congrArg Host.Outcome.next (if_neg ?_)
  obtain h | h := h <;> simp only [h] <;> simp

theorem execDomainDrainEnd_due (ho : x.1.on = false) (ht : x.2 + 50000 ≤ s.now) : execDomainDrainEnd d s = .next (s.drainDomain d) := by
  simp [execDomainDrainEnd, hx, ho, ht]

end Switch

theorem execPwrReq_go {s : State} {src : Src} {v : Word} (hr : s.reaches src (vehRegs 0x1500000 + Reg.PWR_REQ) = true)
    (hg : bitOf v 31 = true) (hw : s.mayWrite src .pwr 0 = true) (hq : s.reqPending .expert = false) (hd : bitsOf v 6 0 ≤ 115)
    (ho : s.trustedOwns (bitsOf v 6 0) = src.world) :
    execPwrReq src v s = .next ((s.setReg .pwr 0 Reg.PWR_REQRES 0).request ⟨bitsOf v 6 0, bitOf v 30, .expert⟩) := by
  rw [execPwrReq, State.regCommand_reaches hr]
  simp [hg, hw, hq, ho, show ¬ 115 < bitsOf v 6 0 by omega]

/-! ### The cap (R391, R396, R398) -/

theorem execPwrCapWrite_taken {s : State} {src : Src} {v : Word} {n : Nat} (hr : s.reaches src (vehRegs 0x1500000 + Reg.PWR_CAP) = true)
    (hw : s.mayWrite src .pwr 0 = true) (hn : n = bitsOf v 9 0) (h1 : 120 ≤ n) (h2 : n ≤ 560) (hb : s.budgetSum ≤ n * 4) :
    execPwrCapWrite src v s = .next (s.setReg .pwr 0 Reg.PWR_CAP (BitVec.ofNat 32 n)) := by
  subst hn
  rw [execPwrCapWrite, State.regCommand_reaches hr, State.guarded_mayWrite hw]
  exact congrArg Host.Outcome.next (if_neg (by omega))

/-! ### Commands of ring pairs -/

section Ring
variable {s : State} {p : Fin 64} {e : BitVec 512}

theorem execPwrDomain_accepts (ha : s.accepts p 0x28 [] [(8, 6, 0), (8, 8, 8)] true e) (hq : s.reqPending (.ring p) = false)
    (hd : eBits e 8 6 0 ≤ 115) (ho : s.trustedOwns (eBits e 8 6 0) = decide (p = 1)) :
    execPwrDomain p s = .next (s.request ⟨eBits e 8 6 0, decide (eBits e 8 8 8 = 1), .ring p⟩) := by
  rw [execPwrDomain, State.command_accepts ha]
  simp [hq, ho, show ¬ 115 < eBits e 8 6 0 by omega]

/-- A cap in its range is taken when it covers the budgets that are on, else refused with BUDGET. -/
theorem execPwrCap_accepts (ha : s.accepts p 0x29 [] [(8, 9, 0)] true e) {n : Nat} (hn : n = eBits e 8 9 0) (h1 : 120 ≤ n) (h2 : n ≤ 560) :
    execPwrCap p s = .next (if n * 4 < s.budgetSum then s.complete p 3 6 0 0
      else (s.setReg .pwr 0 Reg.PWR_CAP (BitVec.ofNat 32 n)).complete p 0 0 0 0) := by
  subst hn
  rw [execPwrCap, State.command_accepts ha]
  exact congrArg Host.Outcome.next (if_neg (by omega))

end Ring

/-! ### The cycle that ends a shutdown, and the state of reset (R394, R626) -/

/-- A step on an empty queue is a cycle of the clock. -/
theorem step_idle {s : State} (h : s.pending = []) : step s = .next s.idle := by
  simp only [step, h]

theorem State.reset_pkg : State.reset.pkg = pkRESET := by decide +kernel

theorem State.idle_shutOff {s : State} (h : s.pwr.shutTo = some pkOFF) :
    s.idle = (State.powerDown { s with pwr := { s.pwr with shutTo := none } } pkOFF).clockTick.aplicTick.pciDrain := by
  simp only [State.idle, h]
  rw [if_neg (by decide)]

/-! ### Every command -/

/-- Settles O46: each clause is the completion of one command, stated above for it, and what a power loss leaves is the state of reset. -/
theorem powerCommandsComplete : Obligations.PowerCommandsComplete := by
  unfold Obligations.PowerCommandsComplete
  refine ⟨fun d silent ns n a may src v p e x dv t s u => ⟨?reset, ?short, ?supply, rfl, rfl, ?coolant, ?samples, ?switches, ?pwrDomain,
    ?pwrReq, ?pwrCap, ?capWrite, ?pwrRead, ?shutdown, ?shutOff, ?bootReport⟩, fun s => ?powerLost⟩
  case reset => exact fun h => execResetAssert_resets h s
  case short => exact fun h => execResetAssert_short h may s
  case supply => exact fun h => congrArg Host.Outcome.next (if_pos h)
  case coolant =>
    intro hc hu
    exact ⟨fun h => (execCoolOkDeassert_cool hc hu).trans (by rw [if_pos h]), fun h => (execCoolOkDeassert_cool hc hu).trans (by rw [if_neg h])⟩
  case samples =>
    intro hp hc
    refine ⟨fun h => execThermalSample_above hp hc h dv, fun h hu => ?_, execPowerSample_few hp hc, fun l => execPowerSample_average hp hc⟩
    have hw := execThermalSample_within hp hc h hu
    exact ⟨fun hcold => hw.trans (by rw [if_neg (by grind)]), fun h1 h2 h3 h4 h5 => hw.trans (by rw [if_pos ⟨h1, h2, h3, h4, h5⟩])⟩
  case switches => exact fun hx => ⟨fun h => execDomainSwitchDone_drained hx h silent, execDomainDrainEnd_due hx⟩
  case pwrDomain => exact execPwrDomain_accepts
  case pwrReq => exact execPwrReq_go
  case pwrCap =>
    intro ha hn h1 h2
    have hcap := execPwrCap_accepts ha hn h1 h2
    exact ⟨fun h => hcap.trans (by rw [if_neg (by omega)]), fun h => hcap.trans (by rw [if_pos h])⟩
  case capWrite => exact execPwrCapWrite_taken
  case pwrRead => exact fun ha => congrArg Host.Outcome.next (State.command_accepts ha _)
  case shutdown => exact fun ha => congrArg Host.Outcome.next (State.command_accepts ha _)
  case shutOff =>
    rintro hq hs rfl
    rw [step_idle hq, State.idle_shutOff hs]
  case bootReport => exact fun ha => congrArg Host.Outcome.next (State.command_accepts ha _)
  case powerLost => exact ⟨rfl, rfl, rfl, rfl, rfl, rfl, rfl, rfl, rfl, State.reset_pkg, rfl⟩

end Sys2Proof.Machine
end

section
/-! PROOFS. Usable cores: what admission asks of a placement, and the descriptor for which the statement about it fails (O56). -/

namespace Sys2Proof.Machine

/-! ### What admission refuses (R43, R46) -/

/-- Admission without a code means that the placement passed the floorplan check (R275). -/
theorem State.floorplanOk_of_admitCode_eq_zero {s : State} {d : PDesc} {c : Cert} {sigOk digestOk : Bool}
    (h : s.admitCode d c sigOk digestOk = 0) : s.floorplanOk d c.res = true := by
  cases hf : s.floorplanOk d c.res with
  | true => rfl
  | false => cases sigOk <;> cases digestOk <;> simp [State.admitCode, hf] at h

/-- A core that the floorplan check lets a placement name is enabled (R43). -/
theorem State.coreEnabled_of_floorplanOk {s : State} {d : PDesc} {res : List ResRec} (h : s.floorplanOk d res = true) {r : PRec}
    (hr : r ∈ d.recs) {x : CoreId} (hx : x ∈ r.coreList) : s.coreEnabled x = true := by
  simp only [State.floorplanOk, Bool.and_eq_true, List.all_eq_true] at h
  obtain ⟨⟨_, hrecs⟩, _⟩ := h
  have hbar := (hrecs r hr).1 x hx
  simp only [State.coreBarred, Bool.not_eq_true', Bool.or_eq_false_iff, Bool.not_eq_false'] at hbar
  exact hbar.1.1.1

/-- Where a descriptor keeps its pairs inside its core masks, as R268 asks, admission refuses a disabled core and a pair that is not
usable, PAIRED or not: an unusable pair has a disabled core, which the placement then names. -/
theorem State.admitCode_ne_zero_of_pairs_in_cores {s : State} {d : PDesc} {c : Cert} {sigOk digestOk : Bool} {r : PRec} (hr : r ∈ d.recs)
    (hin : ∀ i : Fin 4, r.pairs.getLsbD i = true → PairId.primary ⟨r.cl, i⟩ ∈ r.coreList ∧ PairId.checker ⟨r.cl, i⟩ ∈ r.coreList)
    (hbad : (∃ x ∈ r.coreList, s.coreEnabled x = false) ∨ ∃ i : Fin 4, r.pairs.getLsbD i = true ∧ s.pairUsable ⟨r.cl, i⟩ = false) :
    s.admitCode d c sigOk digestOk ≠ 0 := by
  intro h0
  have hall : ∀ x ∈ r.coreList, s.coreEnabled x = true :=
    fun x hx => State.coreEnabled_of_floorplanOk (State.floorplanOk_of_admitCode_eq_zero h0) hr hx
  obtain ⟨x, hx, hdis⟩ | ⟨i, hi, hu⟩ := hbad
  · exact absurd (hall x hx) (by simp [hdis])
  · obtain ⟨hp, hc⟩ := hin i hi
    exact absurd hu (by simp [State.pairUsable, hall _ hp, hall _ hc])

/-! ### A pair that is named, not asked for and not usable -/

/-- A package in READY with every domain on and wheel 0 enabled at 16 ms, in which cores 2 and 3 of the first cluster are fused off. -/
def pairFusedOff : State :=
  let s : State := { State.reset with
    on := BitVec.allOnes 116
    fixed := { State.reset.fixed with coreEn := [(0, BitVec.allOnes 96 - 12)] } }
  ((s.setPkg pkREADY).setWheel 0 { Wheel.reset with period := 16000000 }).setReg .whl 0 (Reg.WHL_CFGw 0) 0x80000000

/-- A placement on core 0 alone whose pair mask names pair 1, against R268, which asks for both cores of a pair in the core mask. -/
def recOfFusedPair : PRec := { cl := ⟨0, 0⟩, cores := 1, pairs := 2, csEnd := 256, csStart := 0 }

/-- Its descriptor, with PAIRED 0. -/
def descOfFusedPair : PDesc := ⟨0, 0, 0, false, 0, 0x1000, 0x2000, [recOfFusedPair]⟩

/-- A periodic kind with an accord slot, and a certificate of it for a wheel of 16 ms. -/
def kindOf16ms : Kind :=
  { typ := .periodic, num := 0, firstRec := 0, lastRec := 0, launch := 200, deadline := 500, worst := 100, accLen := 98, accPhase := 1000,
    entry := 0x40, qdepth := 0, plead := 0, input := 0, armed := false, armFrame := 0, desc := none, staged := none, nextSeq := 1,
    lastFrame := none, hit := none }
def certOf16ms : Cert := ⟨[], [], 16000000, 16000000, 77, 0x14000, 0, [kindOf16ms], []⟩

theorem fusedPair_not_usable : pairFusedOff.pairUsable ⟨recOfFusedPair.cl, 1⟩ = false := by decide +kernel

theorem fusedPair_admitted : pairFusedOff.admitCode descOfFusedPair certOf16ms true true = 0 := by decide +kernel

/-- Refutes O56: with PAIRED 0 admission reads no pair mask, so a record that names an unusable pair outside its core mask is admitted. The
statement takes such records, which no descriptor that parses holds (R268); for the others `State.admitCode_ne_zero_of_pairs_in_cores` gives
the refusal. -/
theorem not_admissionNeedsUsableCores : ¬ Obligations.AdmissionNeedsUsableCores := by
  unfold Obligations.AdmissionNeedsUsableCores
  intro h
  obtain ⟨_, hrefuse⟩ := h pairFusedOff
  exact hrefuse descOfFusedPair certOf16ms true true recOfFusedPair (List.mem_singleton.mpr rfl)
    (.inr ⟨1, by decide, fusedPair_not_usable⟩) fusedPair_admitted

end Sys2Proof.Machine
end

section
/-! PROOFS. Number formats: a block under its scale (O55), and the completion of each vector instruction (O13). -/

namespace Sys2Proof.Machine

/-! ### Block scales (R57, R61, R62) -/

theorem scaleExp_nan : scaleExp 0xFF = none := if_pos rfl

theorem scaleExp_of_lt {x : Nat} (h : x < 0xFF) : scaleExp x = some ((x : Int) - 127) := if_neg (by omega)

@[simp] theorem scaled_none (v : FVal) : scaled v none = .nan := by cases v <;> rfl

@[simp] theorem scaled_fin (n : Bool) (m : Nat) (ev e : Int) : scaled (.fin n m ev) (some e) = .fin n m (ev + e) := rfl

/-- Settles O55: the scale 0xFF has no exponent, which makes any element a NaN; every other scale adds its exponent. -/
theorem nanScaleMakesANanBlock : Obligations.NanScaleMakesANanBlock := by
  unfold Obligations.NanScaleMakesANanBlock
  refine ⟨fun f e => ?_, fun x m n ev hx => ?_⟩
  · rw [scaleExp_nan, scaled_none]
  · rw [scaleExp_of_lt hx, scaled_fin, Int.add_sub_assoc]

/-! ### Instructions of the vector unit that start -/

/-- The state with a vector result in V[VD] and its flags in TC_FLAGS. -/
def State.vectored (s : State) (c : CoreId) (w : BitVec 56) (r : VReg × AFlags) : State :=
  (s.putCore c ((s.core c).setV (vVD w) r.1)).orFlags c r.2

/-- The state with the lanes of V[VD] that the predicate picks replaced (R174). -/
def State.laned (s : State) (c : CoreId) (w : BitVec 56) (f : Nat → Word × AFlags) : State :=
  s.vectored c w (predLanes ((s.core c).getP (vPG w)) ((s.core c).getV (vVD w)) f)

section Start
variable {s : State} {c : CoreId} {op : Nat} {w : BitVec 56} (h : s.starts c op w = true)
include h

/-- A well-formed instruction of a unit that starts completes with the state it answers (R101, R160, R164). -/
theorem State.issue_unit_ok {ok : Bool} (hok : ok = true) (t : State) :
    s.issue c op w (s.unit c op w ok (.ok t)) = s.completed c t := by
  rw [State.unit_starts h, State.legal_eq, if_pos hok, State.issue_ok (State.ready_of_starts h)]

theorem State.issue_unit_putV {ok : Bool} (hok : ok = true) (v : VReg) (f : AFlags) :
    s.issue c op w (s.unit c op w ok (s.putV c w v f)) = s.completed c (s.vectored c w (v, f)) := State.issue_unit_ok h hok _

theorem State.issue_unit_toV {ok : Bool} (hok : ok = true) {f g : Nat → Word × AFlags} (hf : ∀ k, g k = f k) :
    s.issue c op w (s.unit c op w ok (s.toV c w g)) = s.completed c (s.laned c w f) := by
  rw [funext hf]
  exact State.issue_unit_ok h hok _

end Start

/-! ### Lane functions under a predicate (R174, R175, R187) -/

theorem viopFn_isSome {fn : Nat} (h : fn < 16) (rm : Nat) (a b : Word) : (viopFn fn rm a b).isSome = true :=
  match fn, h with
  | 0, _ | 1, _ | 2, _ | 3, _ | 4, _ | 5, _ | 6, _ | 7, _ => rfl
  | 8, _ | 9, _ | 10, _ | 11, _ | 12, _ | 13, _ | 14, _ | 15, _ => rfl
  | n + 16, h => absurd h (by omega)

section Lanes
variable {s : State} {c : CoreId} {w : BitVec 56} {f : Nat → Word × AFlags}

theorem execViop_starts (h : s.starts c 0xA0 w = true) (hu : vUnused w true true true false true true false true false false false false = true)
    (hn : vFN w < 16)
    (hf : ∀ k, viopFn (vFN w) (vRM w) (lane ((s.core c).getV (vVA w)) k) (lane ((s.core c).getV (vVB w)) k) = some (f k)) :
    execViop c w s = .next (s.completed c (s.laned c w f)) :=
  congrArg Host.Outcome.next (State.issue_unit_toV h (by simp only [hu, viopFn_isSome hn, Bool.and_self]) fun k => congrArg orZero (hf k))

theorem execVsop_starts (h : s.starts c 0xA1 w = true) (hu : vUnused w true true false true true true false true false false false false = true)
    (hn : vFN w < 16) (hf : ∀ k, viopFn (vFN w) (vRM w) (lane ((s.core c).getV (vVA w)) k) ((s.core c).getS (vVC w)) = some (f k)) :
    execVsop c w s = .next (s.completed c (s.laned c w f)) :=
  congrArg Host.Outcome.next (State.issue_unit_toV h (by simp only [hu, viopFn_isSome hn, Bool.and_self]) fun k => congrArg orZero (hf k))

theorem execVfop_starts (h : s.starts c 0xA2 w = true) (hu : vUnused w true true true false true true false true false false false false = true)
    (hn : vFN w ≤ 6) (hf : ∀ k, f k = vfopFn (vFN w) (vRM w) (lane ((s.core c).getV (vVA w)) k) (lane ((s.core c).getV (vVB w)) k)) :
    execVfop c w s = .next (s.completed c (s.laned c w f)) :=
  congrArg Host.Outcome.next (State.issue_unit_toV h (by simp [hu, hn]) fun k => (hf k).symm)

theorem execVfma_starts (h : s.starts c 0xA3 w = true) (hu : vUnused w true true true true true true false true false false false false = true)
    (hn : vFN w ≤ 3) (hf : ∀ k, f k = ffma (vRM w) (decide (2 ≤ vFN w)) (vFN w % 2 == 1) (lane ((s.core c).getV (vVA w)) k)
      (lane ((s.core c).getV (vVB w)) k) (lane ((s.core c).getV (vVC w)) k)) :
    execVfma c w s = .next (s.completed c (s.laned c w f)) :=
  congrArg Host.Outcome.next (State.issue_unit_toV h (by simp [hu, hn]) fun k => (hf k).symm)

theorem execVfds_starts (h : s.starts c 0xA4 w = true) (hu : vUnused w true true true false true true false true false false false false = true)
    (hn : vFN w ≤ 1) (hf : ∀ k, f k = if vFN w = 0 then fdiv (vRM w) (lane ((s.core c).getV (vVA w)) k) (lane ((s.core c).getV (vVB w)) k)
      else fsqrt (vRM w) (lane ((s.core c).getV (vVA w)) k)) :
    execVfds c w s = .next (s.completed c (s.laned c w f)) :=
  congrArg Host.Outcome.next (State.issue_unit_toV h (by simp [hu, hn]) fun k => (hf k).symm)

theorem execVfapx_starts (h : s.starts c 0xA5 w = true)
    (hu : vUnused w true true false false true false false true false false false false = true)
    (hn : vFN w ≤ 1) (hf : ∀ k, f k = (if vFN w = 0 then frcp else frsqrt) (lane ((s.core c).getV (vVA w)) k)) :
    execVfapx c w s = .next (s.completed c (s.laned c w f)) :=
  congrArg Host.Outcome.next (State.issue_unit_toV h (by simp [hu, hn]) fun k => (hf k).symm)

theorem execAexp2_starts (h : s.starts c 0xC4 w = true)
    (hu : vUnused w true true false false true false false false false false false false = true)
    (hf : ∀ k, f k = fexp2 (lane ((s.core c).getV (vVA w)) k)) :
    execAexp2 c w s = .next (s.completed c (s.laned c w f)) :=
  congrArg Host.Outcome.next (State.issue_unit_toV h hu fun k => (hf k).symm)

end Lanes

section Vector
variable {s : State} {c : CoreId} {w : BitVec 56}

/-! ### Moves, comparisons and reductions (R175, R176, R181) -/

section Vmov
variable (h : s.starts c 0xA7 w = true) (hu : vUnused w true true true true true false false true false false false false = true)
include h hu

/-- FN 0 and 1 move a lane, or a scalar, to the lanes under the predicate. -/
theorem execVmov_lanes {f : Nat → Word × AFlags} (hn : vFN w ≤ 1)
    (hf : ∀ k, f k = (if vFN w = 0 then lane ((s.core c).getV (vVA w)) k else (s.core c).getS (vVC w), 0)) :
    execVmov c w s = .next (s.completed c (s.laned c w f)) := by
  obtain hfn | hfn : vFN w = 0 ∨ vFN w = 1 := by omega
  all_goals
    simp only [hfn] at hf
    simp only [execVmov, hfn]
    exact congrArg Host.Outcome.next (State.issue_unit_toV h (by simp [hu]) fun k => (hf k).symm)

theorem execVmov_select (hn : vFN w = 2) :
    execVmov c w s = .next (s.completed c (s.vectored c w (ofLanes (fun i =>
      if ((s.core c).getP (vPG w)).getLsbD i then lane ((s.core c).getV (vVA w)) i else lane ((s.core c).getV (vVB w)) i), 0))) := by
  simp only [execVmov, hn]
  exact congrArg Host.Outcome.next (State.issue_unit_putV h (by simp [hu]) _ _)

theorem execVmov_extract (hn : vFN w = 3) :
    execVmov c w s = .next (s.retire c
      ((s.core c).setS (vVD w) (lane ((s.core c).getV (vVA w)) (((s.core c).getS (vVC w)).toNat % 64)))) := by
  simp only [execVmov, hn]
  exact congrArg Host.Outcome.next (State.issue_unit_ok h (by simp [hu]) _)

theorem execVmov_index (hn : vFN w = 4) :
    execVmov c w s = .next (s.completed c (s.vectored c w (ofLanes (fun i => BitVec.ofNat 32 i), 0))) := by
  simp only [execVmov, hn]
  exact congrArg Host.Outcome.next (State.issue_unit_putV h (by simp [hu]) _ _)

end Vmov

theorem execVcmp_starts (h : s.starts c 0xA6 w = true) (hu : vUnused w true true true false true false false true false false false false = true)
    (hz : zf w 55 54 = true) (ht : bitsOf w 29 28 ≤ 1) (ho : bitsOf w 27 24 ≤ 5) :
    execVcmp c w s = .next (s.retire c ((s.core c).setP (vVD w) (predOf (fun i => ((s.core c).getP (vPG w)).getLsbD i &&
      vcmpFn (bitsOf w 29 28 == 1) (bitsOf w 27 24) (lane ((s.core c).getV (vVA w)) i) (lane ((s.core c).getV (vVB w)) i))))) :=
  congrArg Host.Outcome.next (State.issue_unit_ok h (by simp [hu, hz, ht, ho]) _)

theorem execVred_starts (h : s.starts c 0xAB w = true) (hu : vUnused w true true false false true true false true false false false false = true)
    {f : Word → Word → Word × AFlags} {e : Word} (hr : redFn (vFN w) (vRM w) = some (f, e)) {r : Word × AFlags}
    (hv : r = treeRed f 6 ((List.range 64).map (fun i =>
      if ((s.core c).getP (vPG w)).getLsbD i then lane ((s.core c).getV (vVA w)) i else e))) :
    execVred c w s = .next (s.completed c (s.vectored c w (ofLanes (fun _ => r.1), r.2))) := by
  subst hv
  simp only [execVred, hr]
  exact congrArg Host.Outcome.next (State.issue_unit_putV h hu _ _)

/-! ### Conversions (R75 to R78, R177) -/

theorem vecBits_pos {f b : Nat} (h : vecBits f = some b) : 0 < b := by
  unfold vecBits at h
  split at h <;> grind

/-- Registers whose packed elements fit 256 bytes are no more than those that VCVT and VREQ take (R177, R178). -/
theorem le_div_of_bits_fit {b n : Nat} (hb : 0 < b) (h : 8 * b * n ≤ 256) : n ≤ 256 / (8 * b) :=
  (Nat.le_div_iff_mul_le (by omega)).mpr (by rwa [Nat.mul_comm])

section Vcvt
variable (h : s.starts c 0xA8 w = true) (hu : vUnused w true true false false true true true false true true true true = true)
include h hu

theorem execVcvt_floatToInt (hs : vSF w = 10) (hd : vDF w = 11) (hn : vNM w + 1 = 1) :
    execVcvt c w s = .next (s.completed c (s.laned c w fun i =>
      (BitVec.ofNat 32 (floatToInt 32 (vRM w) (fval (lane ((s.core c).getV (vVA w)) i))).1,
        (floatToInt 32 (vRM w) (fval (lane ((s.core c).getV (vVA w)) i))).2))) := by
  simp only [execVcvt, hs, hd, hn, and_self, if_true]
  exact congrArg Host.Outcome.next (State.issue_unit_toV h hu fun _ => rfl)

theorem execVcvt_intToFloat (hs : vSF w = 11) (hd : vDF w = 10) (hn : vNM w + 1 = 1) :
    execVcvt c w s = .next (s.completed c (s.laned c w fun i =>
      fpack (vRM w) (.fin (decide ((lane ((s.core c).getV (vVA w)) i).toInt < 0)) (lane ((s.core c).getV (vVA w)) i).toInt.natAbs 0))) := by
  simp only [execVcvt, hs, hd, hn, and_self, if_true, reduceIte, Nat.reduceEqDiff]
  exact congrArg Host.Outcome.next (State.issue_unit_toV h hu fun _ => rfl)

/-- FP32 or INT32 narrowed: the elements of N registers, packed. -/
theorem execVcvt_narrow {b : Nat} {r : VReg × AFlags} (hf : vSF w = 10 ∧ vDF w ≠ 11 ∨ vSF w = 11 ∧ vDF w < 2)
    (hb : vecBits (vDF w) = some b) (hfit : 8 * b * (vNM w + 1) ≤ 256) (hlast : vVA w + (vNM w + 1) ≤ 32) (hp : vPG w = 0)
    (hr : r = packRegs b (vNM w + 1)
      (fun k i => narrowElem (vSF w == 11) (vDF w) (vRM w) (vSAT w) (lane ((s.core c).getV (vVA w + k)) i))) :
    execVcvt c w s = .next (s.completed c (s.vectored c w r)) := by
  subst hr
  have hfew : vNM w + 1 ≤ 256 / (8 * b) := le_div_of_bits_fit (vecBits_pos hb) hfit
  have hok : ¬ ((vSF w = 11 ∧ 2 ≤ vDF w) ∨ 256 / (8 * b) < vNM w + 1 ∨ 32 < vVA w + (vNM w + 1) ∨ vPG w ≠ 0) := by omega
  simp only [execVcvt]
  rw [if_neg (by omega), if_neg (by omega), if_pos (by omega)]
  simp only [hb]
  rw [if_neg hok]
  exact congrArg Host.Outcome.next (State.issue_unit_putV h hu _ _)

/-- The 64 elements from the offset widened. -/
theorem execVcvt_widen {b : Nat} (hb : vecBits (vSF w) = some b) (hd : vDF w = if (vecFmt (vSF w)).isSome then 10 else 11)
    (hn : vNM w + 1 = 1) (hp : vPG w = 0) (hin : vIMM w % 8 * (8 * b) + 8 * b ≤ 256) :
    execVcvt c w s = .next (s.completed c (s.vectored c w (ofLanes (fun i =>
      widenElem (vSF w) (elemAt (((s.core c).getV (vVA w)).toNat >>> (8 * (vIMM w % 8 * (8 * b)))) b i)), 0))) := by
  have hs : vSF w ≠ 10 ∧ vSF w ≠ 11 := by
    constructor <;> (intro e; rw [e] at hb; cases hb)
  simp only [execVcvt]
  rw [if_neg (by omega), if_neg (by omega), if_neg (by omega)]
  simp only [hb]
  rw [if_neg (not_or.mpr ⟨fun hne => hne hd, by omega⟩)]
  exact congrArg Host.Outcome.next (State.issue_unit_putV h hu _ _)

end Vcvt

/-! ### Requantisation and block scaling (R79, R178 to R180) -/

theorem execVreq_starts (h : s.starts c 0xA9 w = true) (hu : vUnused w true true true true false true true false false true true false = true)
    (hd : vDF w ≤ 1) {b : Nat} (hb : b = if vDF w = 1 then 4 else 8) (hfit : 8 * b * (vNM w + 1) ≤ 256) (hlast : vVA w + (vNM w + 1) ≤ 32)
    {r : VReg × AFlags} (hr : r = packRegs b (vNM w + 1) (fun k i =>
      requant b (vRM w) (vSAT w) (lane ((s.core c).getV (vVA w + k)) i) (lane ((s.core c).getV (vVB w)) i)
        (bitsOf (lane ((s.core c).getV (vVC w)) i) 21 16) (sval 16 (bitsOf (lane ((s.core c).getV (vVC w)) i) 15 0)))) :
    execVreq c w s = .next (s.completed c (s.vectored c w r)) := by
  have hfew : vNM w + 1 ≤ 256 / (8 * b) := le_div_of_bits_fit (by split at hb <;> omega) hfit
  subst hr hb
  exact congrArg Host.Outcome.next (State.issue_unit_putV h (by simp only [hu, hd, hfew, hlast, decide_true, Bool.and_self]) _ _)

theorem execVmxqQuantise_starts (h : s.starts c 0xAA w = true)
    (hu : vUnused w true true false true false true true true false true true false = true) (hn : vFN w = 0) (hd : isMX (vDF w) = true)
    (h2 : vNM w + 1 ≤ 2) (hlast : vVA w + (vNM w + 1) ≤ 32) {blocks : List (Nat × List (Nat × AFlags))}
    (hb : blocks = (List.range (2 * (vNM w + 1))).map (fun j =>
      mxBlock (vDF w) (vRM w) ((List.range 32).map (fun i => lane ((s.core c).getV (vVA w + j / 2)) (32 * (j % 2) + i))))) :
    execVmxqQuantise c w s = .next (s.completed c ((s.putCore c
      (((s.core c).setV (vVD w) (BitVec.ofNat 2048 (packElems (fmtBits (vDF w)) ((blocks.flatMap (·.2)).map (·.1))))).setS (vVC w)
        (BitVec.ofNat 32 (packElems 8 (blocks.map (·.1)))))).orFlags c ((blocks.flatMap (·.2)).foldl (fun a e => a ||| e.2) 0))) := by
  subst hb
  exact congrArg Host.Outcome.next (State.issue_unit_ok h (by simp only [hu, hn, hd, h2, hlast, beq_self_eq_true, decide_true, Bool.and_self]) _)

/-- The low four bytes of a number are those of its residue modulo 2^32. -/
theorem elemAt_eq_of_mod_eq {a b j : Nat} (h : a % 2 ^ 32 = b % 2 ^ 32) (hj : j < 4) : elemAt a 8 j = elemAt b 8 j := by
  simp only [elemAt, Nat.shiftRight_eq_div_pow]
  obtain rfl | rfl | rfl | rfl : j = 0 ∨ j = 1 ∨ j = 2 ∨ j = 3 := by omega
  all_goals omega

/-- The 64 elements of format `f` from element `64 * i₀`, each under the scale byte of its block (R180). -/
def mxLanes (f i₀ : Nat) (v : VReg) (sc : Nat) : List (Word × AFlags) :=
  (List.range 64).map (fun i => fpack 0 (scaled (elemVal f (elemAt (v.toNat >>> (64 * i₀ * fmtBits f)) (fmtBits f) i))
    (scaleExp (elemAt sc 8 (2 * i₀ + i / 32)))))

/-- The first two pairs of blocks read scale bytes of S[VC] alone, the others also the free ones above them (R180, log entry 13). -/
theorem mxLanes_scales {f i₀ sc m : Nat} {v : VReg} {a : Word} (hlow : i₀ < 2 → sc % 2 ^ 32 = a.toNat)
    (hhigh : 2 ≤ i₀ → sc = a.toNat + 2 ^ 32 * m) : mxLanes f i₀ v sc = mxLanes f i₀ v (a.toNat + 2 ^ 32 * m) := by
  obtain h | h := Nat.lt_or_ge i₀ 2
  · have hmod : sc % 2 ^ 32 = (a.toNat + 2 ^ 32 * m) % 2 ^ 32 := by
      rw [hlow h, Nat.add_mul_mod_self_left, Nat.mod_eq_of_lt a.isLt]
    refine List.map_congr_left fun i hi => ?_
    have hi := List.mem_range.mp hi
    rw [elemAt_eq_of_mod_eq hmod (by omega)]
  · rw [hhigh h]

theorem execVmxqDequantise_starts (h : s.starts c 0xAA w = true)
    (hu : vUnused w true true false true false false false true true false false true = true) (hn : vFN w = 1) (hf : isMX (vSF w) = true)
    {sc : Nat} (hlow : vIMM w % 4 < 2 → sc % 2 ^ 32 = ((s.core c).getS (vVC w)).toNat)
    (hhigh : 2 ≤ vIMM w % 4 → sc = ((s.core c).getS (vVC w)).toNat +
      2 ^ 32 * (Config.mxScales ((s.core c).getV (vVA w)) ((s.core c).getS (vVC w)) (vIMM w % 4)).toNat) {r : List (Word × AFlags)}
    (hr : r = mxLanes (vSF w) (vIMM w % 4) ((s.core c).getV (vVA w)) sc) :
    execVmxqDequantise c w s = .next (s.completed c
      (s.vectored c w (ofLanes (fun i => ((r[i]?).map (·.1)).getD 0), r.foldl (fun a e => a ||| e.2 &&& ~~~fUF) 0))) := by
  rw [mxLanes_scales hlow hhigh] at hr
  subst hr
  exact congrArg Host.Outcome.next (State.issue_unit_putV h (by simp only [hu, hn, hf, beq_self_eq_true, Bool.and_self]) _ _)

end Vector

/-! ### Every vector instruction -/

/-- Settles O13: the instructions under a predicate are lane functions, the others have one completion each, stated above for it. -/
theorem vectorInstructionsComplete : Obligations.VectorInstructionsComplete := by
  unfold Obligations.VectorInstructionsComplete
  refine ⟨fun c w s => ⟨?lanes, ?vmov, ?vcmp, ?vred⟩, fun c w s n b hn => ?packed⟩
  case lanes =>
    rintro f i t rfl (⟨rfl, hs, hu, hn, hf⟩ | ⟨rfl, hs, hu, hn, hf⟩ | ⟨rfl, hs, hu, hn, hf⟩ | ⟨rfl, hs, hu, hn, hf⟩ |
      ⟨rfl, hs, hu, hn, hf⟩ | ⟨rfl, hs, hu, hn, hf⟩ | ⟨rfl, hs, hu, hn, hf⟩ | ⟨rfl, hs, hu, hf⟩)
    · exact execViop_starts hs hu hn hf
    · exact execVsop_starts hs hu hn hf
    · exact execVfop_starts hs hu hn hf
    · exact execVfma_starts hs hu hn hf
    · exact execVfds_starts hs hu hn hf
    · exact execVfapx_starts hs hu hn hf
    · exact execVmov_lanes hs hu hn hf
    · exact execAexp2_starts hs hu hf
  case vmov => exact fun hu hs => ⟨execVmov_select hs hu, execVmov_extract hs hu, execVmov_index hs hu⟩
  case vcmp => exact fun hu hz ht ho hs => execVcmp_starts hs hu hz ht ho
  case vred => exact fun f e r hu hf hr hs => execVred_starts hs hu hf hr
  case packed =>
    subst hn
    refine ⟨?floatToInt, ?intToFloat, ?narrow, ?widen, ?vreq, ?quantise, ?dequantise⟩
    case floatToInt => exact fun hu hsf hdf hn hs => execVcvt_floatToInt hs hu hsf hdf hn
    case intToFloat => exact fun hu hsf hdf hn hs => execVcvt_intToFloat hs hu hsf hdf hn
    case narrow => exact fun r hu hf hb hfit hlast hp hr hs => execVcvt_narrow hs hu hf hb hfit hlast hp hr
    case widen => exact fun hu hb hd hn hp hin hs => execVcvt_widen hs hu hb hd hn hp hin
    case vreq => exact fun r hu hd hb hfit hlast hr hs => execVreq_starts hs hu hd hb hfit hlast hr
    case quantise => exact fun blocks hu hn hd h2 hlast hb hs => execVmxqQuantise_starts hs hu hn hd h2 hlast hb
    case dequantise => exact fun r sc hu hn hf hlow hhigh hr hs => execVmxqDequantise_starts hs hu hn hf hlow hhigh hr

end Sys2Proof.Machine
end

section
/-! PROOFS. Instructions that issue at once: how a well-formed one ends, and the completion of each scalar and branch instruction (O1). -/

namespace Sys2Proof.Machine

/-! ### A well-formed instruction of a ready core -/

section Legal
variable {s : State} {c : CoreId} {op : Nat} {w : BitVec 56} {ok : Bool}

/-- A well-formed word goes on (R129). -/
theorem State.legal_ok (s : State) (c : CoreId) (hok : ok = true) (r : Issue) : s.legal c ok r = r := if_pos hok

variable (h : s.ready c op w = true)
include h

theorem State.issue_legal_ok (hok : ok = true) (t : State) : s.issue c op w (s.legal c ok (.ok t)) = s.completed c t := by
  rw [State.legal_ok _ _ hok, State.issue_ok h]

theorem State.issue_legal_jump (hok : ok = true) (t : State) (a : BitVec 20) :
    s.issue c op w (s.legal c ok (.jump t a)) = t.transferred c a := by
  rw [State.legal_ok _ _ hok, State.issue_jump h]

theorem State.issue_legal_own (hok : ok = true) (t : State) : s.issue c op w (s.legal c ok (.own t)) = t := by
  rw [State.legal_ok _ _ hok, State.issue_own h]

theorem State.issue_legal_stay (hok : ok = true) (t : State) : s.issue c op w (s.legal c ok (.stay t)) = t := by
  rw [State.legal_ok _ _ hok, State.issue_stay h]

theorem State.issue_legal_stall (hok : ok = true) (t : State) :
    s.issue c op w (s.legal c ok (.stall t)) = t.putCore c { t.core c with stalled := true } := by
  rw [State.legal_ok _ _ hok, State.issue_stall h]

end Legal

/-! ### Scalar and address instructions (R126, R134, R135) -/

section Scalar
variable {s : State} {c : CoreId} {w : BitVec 56} {v : Word}

theorem execSop_value (hr : rsvR w = true) (hv : scalarFn (fnR w) ((s.core c).getS (iRS1 w)) ((s.core c).getS (iRS2 w)) = some v)
    (h : s.ready c 0x04 w = true) : execSop c w s = .next (s.retire c ((s.core c).setS (iRD w) v)) := by
  simp only [execSop, hv]
  exact congrArg Host.Outcome.next (State.issue_legal_ok h hr _)

theorem execSopi_value (hr : rsvI w = true) (hn : fnI w ≠ 1)
    (hv : scalarFn (fnI w) ((s.core c).getS (iRS1 w)) (iIMM w) = some v) (h : s.ready c 0x05 w = true) :
    execSopi c w s = .next (s.retire c ((s.core c).setS (iRD w) v)) := by
  simp only [execSopi, hv]
  exact congrArg Host.Outcome.next (State.issue_legal_ok h (by simp [hr, hn]) _)

/-- A core after SRD wrote a special value: reads of CYCLO latch the high half, and a register that holds PAIRED in lockstep is noted
(R126, R127). -/
def State.srdCore (s : State) (c : CoreId) (w : BitVec 56) (v : Word) : CoreState :=
  let x := (s.core c).setS (iRD w) v
  let x := if (iIMM w).toNat = 0 then { x with cychi := BitVec.ofNat 32 (s.cycles c / 2 ^ 32) } else x
  if (iIMM w).toNat = 0x15 ∧ s.locked c.pair ∧ iRD w % 32 ≠ 0 then { x with pairedS := x.pairedS ++ [Fin.ofNat 32 (iRD w)] } else x

@[simp] theorem CoreState.setS_pc (x : CoreState) (i : Nat) (v : Word) : (x.setS i v).pc = x.pc := by
  unfold CoreState.setS; split <;> rfl

@[simp] theorem State.srdCore_pc (s : State) (c : CoreId) (w : BitVec 56) (v : Word) : (s.srdCore c w v).pc = (s.core c).pc := by
  simp [State.srdCore, apply_ite CoreState.pc]

theorem execSrd_value (hr : rsvI w = true) (hv : s.special c (iIMM w).toNat = some v) (h : s.ready c 0x06 w = true) :
    execSrd c w s = .next (s.putCore c ((s.srdCore c w v).complete (s.core c).pc)) := by
  simp only [execSrd, hv]
  rw [State.issue_legal_own h hr, ← State.srdCore, State.srdCore_pc]

/-- A special value other than CYCLO and PAIRED writes the register alone. -/
theorem State.srdCore_plain (h0 : iIMM w ≠ 0) (hp : iIMM w ≠ 0x15) (v : Word) : s.srdCore c w v = (s.core c).setS (iRD w) v := by
  have n0 : (iIMM w).toNat ≠ 0 := fun e => h0 (BitVec.eq_of_toNat_eq e)
  have np : (iIMM w).toNat ≠ 0x15 := fun e => hp (BitVec.eq_of_toNat_eq e)
  simp [State.srdCore, n0, np]

theorem State.srdCore_cyclo (h0 : iIMM w = 0) (v : Word) :
    s.srdCore c w v = { (s.core c).setS (iRD w) v with cychi := BitVec.ofNat 32 (s.cycles c / 2 ^ 32) } := by
  simp [State.srdCore, h0]

theorem State.srdCore_unpaired (hi : iIMM w = 0x15) (hl : s.locked c.pair = false ∨ iRD w % 32 = 0) (v : Word) :
    s.srdCore c w v = (s.core c).setS (iRD w) v := by
  obtain h | h := hl <;> simp [State.srdCore, hi, h]

theorem State.srdCore_paired (hi : iIMM w = 0x15) (hl : s.locked c.pair = true) (hd : iRD w % 32 ≠ 0) (v : Word) :
    s.srdCore c w v = { (s.core c).setS (iRD w) v with
      pairedS := ((s.core c).setS (iRD w) v).pairedS ++ [Fin.ofNat 32 (iRD w)] } := by
  simp [State.srdCore, hi, hl, hd]

/-- PAIRED of the primary of a pair in lockstep is 1 (R127). -/
theorem State.special_paired (hp : c.isPrimary = true) (hl : s.locked c.pair = true) : s.special c 0x15 = some 1 := by
  simp [State.special, hp, hl]

theorem execSrd_paired (hr : rsvI w = true) (hi : iIMM w = 0x15) (hp : c.isPrimary = true) (hl : s.locked c.pair = true)
    (hd : iRD w % 32 ≠ 0) (h : s.ready c 0x06 w = true) :
    execSrd c w s = .next (s.putCore c ({ (s.core c).setS (iRD w) 1 with
      pairedS := ((s.core c).setS (iRD w) 1).pairedS ++ [Fin.ofNat 32 (iRD w)] }.complete (s.core c).pc)) := by
  rw [← State.srdCore_paired hi hl hd]
  exact execSrd_value hr (by rw [hi]; exact State.special_paired hp hl) h

theorem execAmovs_low (hr : rsvR w = true) (ha : iRS1 w < 16) (hn : fnR w = 0) (h : s.ready c 0x0B w = true) :
    execAmovs c w s = .next (s.retire c ((s.core c).setS (iRD w) (((s.core c).getA (iRS1 w)).extractLsb' 0 32))) := by
  simp only [execAmovs, hn, if_true, ← BitVec.setWidth_eq_extractLsb' (show 32 ≤ 48 by decide)]
  exact congrArg Host.Outcome.next (State.issue_legal_ok h (by simp [hr, ha]) _)

/-- The high word of an A register is its bits from 32 up. -/
theorem setWidth_ushiftRight_32 (a : Addr) : (a >>> 32).setWidth 32 = (a.extractLsb' 32 16).setWidth 32 := by
  ext i hi
  simp only [BitVec.getElem_setWidth, BitVec.getLsbD_ushiftRight, BitVec.getLsbD_extractLsb']
  by_cases h : i < 16
  · simp [h]
  · simp [h, BitVec.getLsbD_of_ge a (32 + i) (by omega)]

theorem execAmovs_high (hr : rsvR w = true) (ha : iRS1 w < 16) (hn : fnR w = 1) (h : s.ready c 0x0B w = true) :
    execAmovs c w s = .next (s.retire c ((s.core c).setS (iRD w) ((((s.core c).getA (iRS1 w)).extractLsb' 32 16).setWidth 32))) := by
  rw [← setWidth_ushiftRight_32]
  simp only [execAmovs, hn]
  exact congrArg Host.Outcome.next (State.issue_legal_ok h (by simp [hr, ha]) _)

/-- An address of two words: 16 bits above a low word. -/
theorem append_words_eq_or (hi lo : Word) : hi.extractLsb' 0 16 ++ lo = (hi.setWidth 48 <<< 32) ||| lo.setWidth 48 := by
  ext i h
  simp only [BitVec.getElem_append, BitVec.getElem_or, BitVec.getElem_shiftLeft, BitVec.getElem_setWidth]
  by_cases hl : i < 32
  · simp [hl, BitVec.getLsbD_eq_getElem]
  · simp [hl, BitVec.getLsbD_of_ge lo i (by omega)]

theorem execAsets_words (hr : rsvR w = true) (hd : iRD w < 16) (h : s.ready c 0x0C w = true) :
    execAsets c w s = .next (s.retire c ((s.core c).setA (iRD w)
      (((s.core c).getS (iRS2 w)).extractLsb' 0 16 ++ (s.core c).getS (iRS1 w)))) := by
  rw [append_words_eq_or]
  exact congrArg Host.Outcome.next (State.issue_legal_ok h (by simp [hr, hd]) _)

end Scalar

/-! ### Branches and loops (R136 to R139) -/

theorem bitsOf_lt {w : Nat} (v : BitVec w) (hi lo : Nat) : bitsOf v hi lo < 2 ^ (hi + 1 - lo) := Nat.mod_lt _ (Nat.two_pow_pos _)

section Branch
variable {s : State} {c : CoreId} {w : BitVec 56} (hb : rsvB w = true) (ht : tgtOk w = true)
include hb ht

theorem execBr_cond {taken : Bool}
    (hc : condHolds (bitsOf w 45 43) ((s.core c).getS (iRD w)) ((s.core c).getS (iRS1 w)) = some taken) (h : s.ready c 0x10 w = true) :
    execBr c w s = .next (if taken then s.transferred c (iTGT w) else s.completed c s) := by
  simp only [execBr, hc]
  cases taken with
  | true => exact congrArg Host.Outcome.next (State.issue_legal_jump h (by simp [hb, ht]) _ _)
  | false => exact congrArg Host.Outcome.next (State.issue_legal_ok h (by simp [hb, ht]) _)

theorem execJmp_target (h : s.ready c 0x11 w = true) : execJmp c w s = .next (s.transferred c (iTGT w)) :=
  congrArg Host.Outcome.next (State.issue_legal_jump h (by simp [hb, ht]) _ _)

theorem execJal_target (h : s.ready c 0x12 w = true) : execJal c w s =
    .next ((s.putCore c ((s.core c).setS (iRD w) (((s.core c).pc + 8).setWidth 32))).transferred c (iTGT w)) :=
  congrArg Host.Outcome.next (State.issue_legal_jump h (by simp [hb, ht]) _ _)

/-- JR to an aligned offset of 20 bits is taken. -/
theorem execJr_target (ha : bitsOf ((s.core c).getS (iRD w)) 2 0 = 0) (hr : bitsOf ((s.core c).getS (iRD w)) 31 20 = 0)
    (h : s.ready c 0x13 w = true) : execJr c w s = .next (s.transferred c (((s.core c).getS (iRD w)).setWidth 20)) := by
  have hin : ¬(bitsOf ((s.core c).getS (iRD w)) 2 0 ≠ 0 ∨ bitsOf ((s.core c).getS (iRD w)) 31 20 ≠ 0) := by simp [ha, hr]
  simp only [execJr, if_neg hin]
  exact congrArg Host.Outcome.next (State.issue_legal_jump h (by simp [hb, ht]) _ _)

section Loop
variable (hend : (s.core c).pc.toNat + 8 ≤ (iTGT w).toNat)
  (hl : ∀ l ∈ (s.core c).loops, l.lv.val ≠ bitsOf w 42 41 ∧ l.start.toNat ≤ (s.core c).pc.toNat + 8 ∧ iTGT w ≤ l.stop)
include hend hl

/-- A loop of a free level that lies within every active one starts, or is skipped with count 0 (R137, R138). -/
theorem State.loopStart_nested (count : Word) :
    s.loopStart c w count = if count = 0 then .own (s.putCore c ((s.core c).complete (iTGT w)))
      else .own (s.putCore c { (s.core c).leave with
        loops := ⟨Fin.ofNat 4 (bitsOf w 42 41), (s.core c).pc + 8, iTGT w, count⟩ :: (s.core c).loops, pc := (s.core c).pc + 8 }) := by
  have hlv : (bitsOf w 42 41) % 4 = bitsOf w 42 41 := Nat.mod_eq_of_lt (bitsOf_lt w 42 41)
  have free : (s.core c).loops.any (fun l => l.lv == Fin.ofNat 4 (bitsOf w 42 41)) = false := by
    rw [List.any_eq_false]
    intro l hm e
    exact (hl l hm).1 (by rw [beq_iff_eq.mp e, Fin.val_ofNat, hlv])
  have nested : (s.core c).loops.all (fun l => decide (l.start.toNat ≤ (s.core c).pc.toNat + 8) && decide (iTGT w ≤ l.stop)) = true := by
    rw [List.all_eq_true]
    intro l hm
    simp [(hl l hm).2.1, (hl l hm).2.2]
  simp only [State.loopStart, hb, ht, free, nested, decide_eq_false (Nat.not_lt.mpr hend)]
  rfl

theorem State.issue_loopStart {op : Nat} (h : s.ready c op w = true) {count : Word} (hc : count ≠ 0) :
    s.issue c op w (s.loopStart c w count) = s.putCore c { (s.core c).leave with
      loops := ⟨Fin.ofNat 4 (bitsOf w 42 41), (s.core c).pc + 8, iTGT w, count⟩ :: (s.core c).loops, pc := (s.core c).pc + 8 } := by
  rw [State.loopStart_nested hb ht hend hl, if_neg hc, State.issue_own h]

theorem State.issue_loopStart_zero {op : Nat} (h : s.ready c op w = true) {count : Word} (hc : count = 0) :
    s.issue c op w (s.loopStart c w count) = s.putCore c ((s.core c).complete (iTGT w)) := by
  rw [State.loopStart_nested hb ht hend hl, if_pos hc, State.issue_own h]

end Loop
end Branch

/-- The count of LOOPI is 0 when its field is. -/
theorem loopiCount_eq_zero_iff (w : BitVec 56) : BitVec.ofNat 32 (bitsOf w 39 20) = 0 ↔ bitsOf w 39 20 = 0 := by
  have hlt := bitsOf_lt w 39 20
  rw [← BitVec.toNat_inj, BitVec.toNat_ofNat, Nat.mod_eq_of_lt (by omega)]
  rfl

/-! ### What the checker of a pair reads (R127) -/

/-- In lockstep the checker's contents are its primary's but for PAIRED (R114). -/
theorem State.core_putCore_checker {s : State} {c : CoreId} (hp : c.isPrimary = true) (hl : s.locked c.pair = true) (x : CoreState) :
    (s.putCore c x).core c.pair.checker = x.asChecker := by
  simp [State.putCore, State.mirrored, hp, hl, (CoreId.ne_checker_of_isPrimary c hp).symm]

@[simp] theorem CoreState.complete_asChecker_getS (x : CoreState) (pc : BitVec 20) (i : Nat) :
    (x.complete pc).asChecker.getS i = x.asChecker.getS i := by
  unfold CoreState.complete; dsimp only; split <;> rfl

/-- The register noted last reads 3 on the checker. -/
theorem CoreState.asChecker_getS_noted (x : CoreState) {i : Nat} (h : i % 32 ≠ 0) (l : List (Fin 32)) :
    ({ x with pairedS := l ++ [Fin.ofNat 32 i] }.asChecker).getS i = 3 := by
  simp [CoreState.asChecker, CoreState.getS, h]

theorem CoreState.getS_setS_of_ne_zero (x : CoreState) {i : Nat} (h : i % 32 ≠ 0) (v : Word) : (x.setS i v).getS i = v := by
  simp [CoreState.setS, CoreState.getS, h]

/-! ### Every scalar and branch instruction -/

/-- Settles O1: each clause is the completion of one instruction, stated above for it or at hand from its equation. -/
theorem scalarAndBranchInstructionsComplete : Obligations.ScalarAndBranchInstructionsComplete := by
  unfold Obligations.ScalarAndBranchInstructionsComplete
  refine ⟨fun c w s => ⟨?nop, ?sop, ?sopi, ?special, ?cyclo, ?unpaired, ?paired, ?aadd, ?aaddi, ?ali, ?low, ?high, ?asets⟩,
    fun c w s hb ht => ⟨?taken, ?notTaken, ?jmp, ?jal, ?jr, ?loops⟩, fun c w s hi => ⟨?accord, ?interlock⟩, ?checker⟩
  case nop => exact fun hr => ⟨fun h => congrArg Host.Outcome.next (State.issue_legal_ok h hr _),
    fun h => congrArg Host.Outcome.next (State.issue_legal_ok h hr _)⟩
  case sop => exact fun v => execSop_value
  case sopi => exact fun v => execSopi_value
  case special => exact fun v hr h0 hp hv h => State.srdCore_plain (s := s) (c := c) h0 hp v ▸ execSrd_value hr hv h
  case cyclo =>
    exact fun hr h0 h => State.srdCore_cyclo (s := s) (c := c) h0 _ ▸ execSrd_value hr (by rw [h0]; rfl) h
  case unpaired =>
    exact fun v hr hi hv hl h => State.srdCore_unpaired (s := s) (c := c) hi hl v ▸ execSrd_value hr (by rw [hi]; exact hv) h
  case paired => exact execSrd_paired
  case aadd => exact fun hr hd ha h => congrArg Host.Outcome.next (State.issue_legal_ok h (by simp [hr, hd, ha]) _)
  case aaddi => exact fun hr hd ha h => congrArg Host.Outcome.next (State.issue_legal_ok h (by simp [hr, hd, ha]) _)
  case ali => exact fun hr hd h => congrArg Host.Outcome.next (State.issue_legal_ok h (by simp [hr, hd]) _)
  case low => exact execAmovs_low
  case high => exact execAmovs_high
  case asets => exact execAsets_words
  case taken => exact execBr_cond hb ht
  case notTaken => exact execBr_cond hb ht
  case jmp => exact execJmp_target hb ht
  case jal => exact execJal_target hb ht
  case jr => exact execJr_target hb ht
  case loops =>
    intro hend hl
    have hz := loopiCount_eq_zero_iff w
    exact ⟨fun hc h => congrArg Host.Outcome.next (State.issue_loopStart hb ht hend hl h hc),
      fun hc h => congrArg Host.Outcome.next (State.issue_loopStart_zero hb ht hend hl h hc),
      fun hc h => congrArg Host.Outcome.next (State.issue_loopStart hb ht hend hl h (mt hz.mp hc)),
      fun hc h => congrArg Host.Outcome.next (State.issue_loopStart_zero hb ht hend hl h (hz.mpr hc))⟩
  case accord =>
    intro ha
    exact ⟨congrArg Host.Outcome.next (State.issue_accord _ _ _ hi ha), congrArg Host.Outcome.next (State.issue_accord _ _ _ hi ha),
      congrArg Host.Outcome.next (State.issue_accord _ _ _ hi ha), congrArg Host.Outcome.next (State.issue_accord _ _ _ hi ha)⟩
  case interlock =>
    intro ha
    exact ⟨fun h => congrArg Host.Outcome.next (State.issue_interlocked _ hi ha h),
      fun h => congrArg Host.Outcome.next (State.issue_interlocked _ hi ha h),
      fun h => congrArg Host.Outcome.next (State.issue_interlocked _ hi ha h)⟩
  case checker =>
    intro c w s t hr hi hp hl hd h e
    obtain rfl := Host.Outcome.next.inj ((execSrd_paired hr hi hp hl hd h).symm.trans e)
    rw [State.core_putCore_same, State.core_putCore_checker hp hl, CoreState.complete_getS, CoreState.complete_asChecker_getS]
    exact ⟨CoreState.getS_setS_of_ne_zero _ hd 1, CoreState.asChecker_getS_noted _ hd _⟩

end Sys2Proof.Machine
end

section
/-! PROOFS. Stores of a core: where the own stores lie, what a store leaves of memory, and the frame of every storing form (O8). -/

namespace Sys2Proof.Machine

/-! ### The own stores of a core (R36, R37) -/

/-- What lies at an offset of a cluster. -/
theorem State.target_cluster (s : State) (cl : ClusterId) {y : Nat} (hy : y < 0x2000000) :
    s.target (clusterBase cl + y) = if y < 0x800000 then .ls ⟨cl, Fin.ofNat 8 (y / 0x100000)⟩ (y % 0x100000)
      else if y < 0x1000000 then .unmapped else .cs cl (y - 0x1000000) := by
  obtain ⟨d, n⟩ := cl
  have hd := d.isLt
  have hn := n.isLt
  have e : clusterBase ⟨d, n⟩ + y = 2 ^ 45 * d.val + (0x100000000000 + 0x2000000 * n.val + y) := by
    simp only [clusterBase, dieBase]; omega
  have hmod : (clusterBase ⟨d, n⟩ + y) % 2 ^ 45 = 0x100000000000 + 0x2000000 * n.val + y := by
    rw [e, Nat.mul_add_mod, Nat.mod_eq_of_lt (by omega)]
  have hdie : (addrDie (clusterBase ⟨d, n⟩ + y)).val = d.val := by
    rw [addrDie, Nat.shiftRight_eq_div_pow, e, Nat.mul_add_div (by decide), Nat.div_eq_of_lt (by omega), Fin.val_ofNat]
    omega
  have hoff : 0x100000000000 + 0x2000000 * n.val + y - 0x100000000000 = 0x2000000 * n.val + y := by omega
  have hdiv : (0x2000000 * n.val + y) / 0x2000000 = n.val := by omega
  have hrem : (0x2000000 * n.val + y) % 0x2000000 = y := by omega
  unfold State.target
  simp only [hmod, hdie, hoff, hdiv, hrem]
  rw [if_neg (by omega), if_pos (by omega), if_neg (by omega), if_neg (by omega), if_pos (by omega)]
  rw [show Fin.ofNat 6 d.val = d from Fin.ext (Nat.mod_eq_of_lt hd), show Fin.ofNat 12 n.val = n from Fin.ext (Nat.mod_eq_of_lt hn)]

theorem State.target_ls (s : State) (c : CoreId) {off : Nat} (h : off < 0x100000) : s.target (lsBase c + off) = .ls c off := by
  obtain ⟨cl, k⟩ := c
  have hk := k.isLt
  have hdiv : (0x100000 * k.val + off) / 0x100000 = k.val := by omega
  have hmod : (0x100000 * k.val + off) % 0x100000 = off := by omega
  rw [lsBase, Nat.add_assoc, s.target_cluster cl (by omega), if_pos (by omega), hdiv, hmod,
    show Fin.ofNat 8 k.val = k from Fin.ext (Nat.mod_eq_of_lt hk)]

theorem State.target_cs (s : State) (cl : ClusterId) {off : Nat} (h : off < 0x1000000) : s.target (csBase cl + off) = .cs cl off := by
  rw [csBase, Nat.add_comm 0x1000000, Nat.add_assoc, s.target_cluster cl (by omega), if_neg (by omega), if_neg (by omega),
    Nat.add_sub_cancel_left]

/-- A cluster store has no mirror (R114). -/
theorem State.doubled_ownCs (s : State) {c : CoreId} {a n : Nat} (hn : 0 < n) (h : inOwnCs c a n = true) : s.doubled a = false := by
  simp only [inOwnCs, Bool.and_eq_true, decide_eq_true_eq] at h
  obtain ⟨off, rfl⟩ := Nat.exists_eq_add_of_le h.1
  rw [State.doubled, s.target_cs c.cl (by omega)]

/-- Of the own stores of a core only the local store of a primary in lockstep has a mirror (R114). -/
theorem State.doubled_ownRange {s : State} {c : CoreId} {a n : Nat} (hn : 0 < n) (h : ownRange c a n = true) (hd : s.doubled a = true) :
    (c.isPrimary && s.locked c.pair) = true := by
  obtain h | h := Bool.or_eq_true_iff.mp h
  · simp only [inOwnLs, Bool.and_eq_true, decide_eq_true_eq] at h
    obtain ⟨off, rfl⟩ := Nat.exists_eq_add_of_le h.1
    rwa [State.doubled, s.target_ls c (by omega)] at hd
  · rw [s.doubled_ownCs hn h] at hd
    cases hd

/-- Part of an own range is one. -/
theorem ownRange_mono {c : CoreId} {a n b m : Nat} (h : ownRange c a n = true) (ha : a ≤ b) (hb : b + m ≤ a + n) : ownRange c b m = true := by
  simp only [ownRange, inOwnLs, inOwnCs, Bool.or_eq_true, Bool.and_eq_true, decide_eq_true_eq] at h ⊢
  omega

/-! ### Memory outside a range, canonical or not -/

theorem memGet_memSet_of_ne (m : List Host.Cell) {a x : Nat} (b : Byte) (h : x ≠ a) : memGet (memSet m a b) x = memGet m x := by
  induction m with
  | nil => simp only [memSet]; split <;> simp [memGet, h.symm]
  | cons c t ih => simp only [memSet]; grind [memGet]

theorem memGet_memWrite_outside (m : List Host.Cell) {a x : Nat} {bs : List Byte} (h : x < a ∨ a + bs.length ≤ x) :
    memGet (memWrite m a bs) x = memGet m x := by
  induction bs generalizing m a with
  | nil => rfl
  | cons b t ih =>
    rw [List.length_cons] at h
    rw [memWrite, ih _ (by omega), memGet_memSet_of_ne _ _ (by omega)]

/-- From one memory to another no byte changes outside `n` bytes at `a` and, with a mirror, the same range of the next core's local store. -/
def sameOutside (a n : Nat) (two : Bool) (m m' : List Host.Cell) : Prop :=
  ∀ x, x < a ∨ a + n ≤ x → (two = true → x < a + 0x100000 ∨ a + 0x100000 + n ≤ x) → memGet m' x = memGet m x

theorem sameOutside_of_eq (a n : Nat) (two : Bool) {m m' : List Host.Cell} (h : m' = m) : sameOutside a n two m m' := fun _ _ _ => by rw [h]

theorem sameOutside.trans {a n : Nat} {two : Bool} {m m' m'' : List Host.Cell} (h : sameOutside a n two m m')
    (k : sameOutside a n two m' m'') : sameOutside a n two m m'' := fun x hx hm => (k x hx hm).trans (h x hx hm)

/-- A store within a range of the own stores changes nothing outside that range and its mirror (R114). -/
theorem State.store_sameOutside (s : State) {c : CoreId} {a n b : Nat} {bs : List Byte} (hbs : 0 < bs.length) (h : ownRange c a n = true)
    (ha : a ≤ b) (hb : b + bs.length ≤ a + n) : sameOutside a n (c.isPrimary && s.locked c.pair) s.mem (s.store b bs).mem := by
  intro x hx hm
  simp only [State.store]
  split
  · next hd =>
    have hm := hm (State.doubled_ownRange hbs (ownRange_mono h ha hb) hd)
    rw [memGet_memWrite_outside _ (by omega), memGet_memWrite_outside _ (by omega)]
  · exact memGet_memWrite_outside _ (by omega)

/-! ### What an instruction that issues leaves -/

/-- The state in which an instruction leaves the machine before its core goes on. -/
def Issue.after (r : Issue) (s : State) : State :=
  match r with
  | .ok t | .jump t _ | .own t | .stay t | .stall t | .fail t _ _ => t
  | .exc _ _ => s

theorem Issue.after_ite {p : Prop} [Decidable p] (r q : Issue) (s : State) :
    (if p then r else q).after s = if p then r.after s else q.after s := apply_ite (fun r => Issue.after r s) p r q

theorem State.legal_after (s : State) (c : CoreId) (ok : Bool) (r : Issue) :
    (s.legal c ok r).after s = if ok then r.after s else s := Issue.after_ite ..

/-- What holds before an instruction and after what it does, and is kept when contents are put into its core, holds after it. -/
theorem State.issue_of_after {P : State → Prop} {s : State} {c : CoreId} {op : Nat} {w : BitVec 56} {r : Issue}
    (put : ∀ t x, P t → P (t.putCore c x)) (hs : P s) (hr : P (r.after s)) : P (s.issue c op w r) := by
  unfold State.issue
  split
  · exact hs
  · split
    · exact put _ _ hs
    · split
      · exact put _ _ hs
      · cases r with
        | ok t => exact put _ _ hr
        | jump t a => exact put _ _ hr
        | own t => exact hr
        | stay t => exact hr
        | stall t => exact put _ _ hr
        | exc b a => exact put _ _ hs
        | fail t b a => exact put _ _ hr

@[simp] theorem State.putCore_mem (s : State) (c : CoreId) (x : CoreState) : (s.putCore c x).mem = s.mem := by
  unfold State.putCore State.mirrored
  split <;> rfl

/-- An instruction changes memory only as its action does. -/
theorem State.issue_mem (s : State) (c : CoreId) (op : Nat) (w : BitVec 56) (r : Issue) {a n : Nat} {two : Bool}
    (h : sameOutside a n two s.mem (r.after s).mem) : sameOutside a n two s.mem (s.issue c op w r).mem :=
  State.issue_of_after (P := fun t => sameOutside a n two s.mem t.mem) (fun t x ht => by rwa [State.putCore_mem])
    (sameOutside_of_eq _ _ _ rfl) h

theorem State.legal_mem {s : State} {c : CoreId} {ok : Bool} {r : Issue} {a n : Nat} {two : Bool}
    (h : sameOutside a n two s.mem (r.after s).mem) : sameOutside a n two s.mem ((s.legal c ok r).after s).mem := by
  rw [State.legal_after]
  split
  · exact h
  · exact sameOutside_of_eq _ _ _ rfl

/-! ### Checked reads leave memory as it is (R106, R197, R206) -/

@[simp] theorem State.count_mem (s : State) (b : Blk) (i off n : Nat) : (s.count b i off n).mem = s.mem := rfl

@[simp] theorem State.setReg2_mem (s : State) (b : Blk) (i offL offH v : Nat) : (s.setReg2 b i offL offH v).mem = s.mem := rfl

@[simp] theorem State.pulse_mem (s : State) (isErr : Bool) : (s.pulse isErr).mem = s.mem := by
  cases isErr <;> simp [State.pulse, apply_ite State.mem]

@[simp] theorem State.noteEvent_mem (s : State) (b : Blk) (i bit info : Nat) : (s.noteEvent b i bit info).mem = s.mem := by
  simp [State.noteEvent, apply_ite State.mem]

@[simp] theorem State.raise_mem (s : State) (b : Blk) (i bit addr info : Nat) : (s.raise b i bit addr info).mem = s.mem := by
  unfold State.raise
  cases errClass b bit <;> simp [apply_ite State.mem]

@[simp] theorem State.recordEcc_mem (s : State) (g : Nat) (e : EccErr) : (s.recordEcc g e).mem = s.mem := by
  unfold State.recordEcc
  split <;> simp [apply_ite State.mem]

@[simp] theorem State.read_mem (s : State) (a n : Nat) : (s.read a n).1.mem = s.mem := by
  simp only [State.read]
  generalize (s.granules a n).filterMap _ = gs
  induction gs generalizing s with
  | nil => rfl
  | cons g gs ih => rw [List.foldl_cons, ih, State.recordEcc_mem]

@[simp] theorem State.landed_mem (s : State) (a : Nat) (bs : List Byte) : (s.landed a bs).1.mem = s.mem := by
  unfold State.landed
  induction s.fab.landing with
  | nil => rfl
  | cons l ls ih =>
    rw [List.foldr_cons, ← ih]
    dsimp only
    split <;> rfl

@[simp] theorem State.coreRead_mem (s : State) (a n : Nat) : (s.coreRead a n).1.mem = s.mem := by
  simp only [State.coreRead]
  split <;> simp

/-! ### Every storing form -/

/-- A store of a core raises ACCESS, stalls, or stores into the own stores (R142). -/
theorem State.coreStore_cases (s : State) (c : CoreId) (a align : Nat) (bs : List Byte) :
    s.coreStore c a align bs = .exc xACCESS a ∨ s.coreStore c a align bs = .stall s ∨
      ownRange c a bs.length = true ∧ s.coreStore c a align bs = .ok (s.store a bs) := by
  unfold State.coreStore
  dsimp only
  split
  · exact .inl rfl
  · next h =>
    simp only [not_or, Bool.not_eq_true', Bool.not_eq_false] at h
    split
    · exact .inr (.inl rfl)
    · exact .inr (.inr ⟨h.2.1, rfl⟩)

section Forms
variable (s : State) (c : CoreId) (w : BitVec 56)

theorem State.coreStore_mem (a align : Nat) {bs : List Byte} (hbs : 0 < bs.length) :
    sameOutside a bs.length (c.isPrimary && s.locked c.pair) s.mem ((s.coreStore c a align bs).after s).mem := by
  obtain h | h | ⟨ho, h⟩ := s.coreStore_cases c a align bs <;> rw [h]
  · exact sameOutside_of_eq _ _ _ rfl
  · exact sameOutside_of_eq _ _ _ rfl
  · exact s.store_sameOutside hbs ho (Nat.le_refl _) (Nat.le_refl _)

theorem State.storeV_mem {n : Nat} (hn : 0 < n) (v : Nat) :
    sameOutside (s.ea c w) n (c.isPrimary && s.locked c.pair) s.mem ((s.storeV c w n v).after s).mem := by
  have h := s.coreStore_mem c (s.ea c w) n (bs := leBytes n v) (by rwa [leBytes_length])
  rw [leBytes_length] at h
  exact State.legal_mem h

theorem State.issue_storeV_mem {op n v : Nat} (hn : 0 < n) {t : State} (e : Host.Outcome.next (s.issue c op w (s.storeV c w n v)) = (.next t : Out)) :
    sameOutside (s.ea c w) n (c.isPrimary && s.locked c.pair) s.mem t.mem := by
  obtain rfl := Host.Outcome.next.inj e
  exact State.issue_mem _ _ _ _ _ (s.storeV_mem c w hn v)

/-- The lanes of a vector are stored within its 256 bytes. -/
theorem State.storeLanes_mem {a : Nat} (h : ownRange c a 256 = true) (p : BitVec 64) (v : VReg) :
    sameOutside a 256 (c.isPrimary && s.locked c.pair) s.mem (s.storeLanes a p v).mem := by
  have lanes : ∀ l : List Nat, (∀ i ∈ l, i < 64) → ∀ t : State, t.regs = s.regs →
      sameOutside a 256 (c.isPrimary && s.locked c.pair) t.mem
        (l.foldl (fun t i => if p.getLsbD i then t.store32 (a + 4 * i) (lane v i) else t) t).mem := by
    intro l
    induction l with
    | nil => exact fun _ t _ => sameOutside_of_eq _ _ _ rfl
    | cons i l ih =>
      intro hl t ht
      have hi := hl i List.mem_cons_self
      have ih := ih fun j hj => hl j (List.mem_cons_of_mem _ hj)
      have hlock : t.locked c.pair = s.locked c.pair := by simp only [State.locked, State.fld, State.reg, ht]
      rw [List.foldl_cons]
      split
      · refine sameOutside.trans ?_ (ih _ ht)
        rw [← hlock]
        exact t.store_sameOutside (by simp) h (by omega) (by simp only [leBytes_length]; omega)
      · exact ih t ht
  exact lanes (List.range 64) (fun i hi => List.mem_range.mp hi) s rfl

theorem execVst_mem {t : State} (h : execVst c w s = .next t) :
    sameOutside (s.ea c w) 256 (c.isPrimary && s.locked c.pair) s.mem t.mem := by
  obtain rfl := Host.Outcome.next.inj h
  refine State.issue_mem _ _ _ _ _ (State.legal_mem ?_)
  obtain h | h | ⟨ho, h⟩ := s.coreStore_cases c (s.ea c w) 64 (List.replicate 256 0) <;> rw [h]
  · exact sameOutside_of_eq _ _ _ rfl
  · exact sameOutside_of_eq _ _ _ rfl
  · rw [List.length_replicate] at ho
    exact s.storeLanes_mem c ho _ _

/-- An atomic raises ACCESS or LSECC_U, or stores its word, in a cluster store (R141 to R143). -/
theorem State.amo_mem (f : Word → Option Word) (two : Bool) : sameOutside (s.ea c w) 4 two s.mem ((s.amo c w f).after s).mem := by
  refine State.legal_mem ?_
  rw [Issue.after_ite]
  split
  · exact sameOutside_of_eq _ _ _ rfl
  · next ha =>
    simp only [not_or, Bool.not_eq_true', Bool.not_eq_false] at ha
    have hr := s.coreRead_mem (s.ea c w) 4
    generalize s.coreRead (s.ea c w) 4 = r at hr
    obtain ⟨t, bs, _ | g⟩ := r
    · simp only [Issue.after, State.toS, State.putCore_mem]
      cases f (BitVec.ofNat 32 (leNat bs)) with
      | none => exact sameOutside_of_eq _ _ _ hr
      | some v =>
        have hs : (t.store32 (s.ea c w) v).mem = memWrite t.mem (s.ea c w) (leBytes 4 v.toNat) :=
          State.store_mem_of_not_doubled (t.doubled_ownCs (by decide) ha.2)
        intro x hx _
        simp only [apply_ite State.mem, ite_self, hs]
        rw [memGet_memWrite_outside _ (by rwa [leBytes_length])]
        exact congrArg (memGet · x) hr
    · exact sameOutside_of_eq _ _ _ hr

end Forms

/-- Settles O8: a store, a vector store and an atomic each leave memory outside their bytes. -/
theorem storesTouchOnlyTheirBytes : Obligations.StoresTouchOnlyTheirBytes := by
  unfold Obligations.StoresTouchOnlyTheirBytes
  intro c w s t i n hi e x hx hm
  suffices h : sameOutside (s.ea c w) n (c.isPrimary && s.locked c.pair) s.mem t.mem from
    h x hx fun hp => hm (Bool.and_eq_true_iff.mp hp).1 (Bool.and_eq_true_iff.mp hp).2
  obtain ⟨rfl, rfl⟩ | ⟨rfl, rfl⟩ | ⟨rfl, rfl⟩ | ⟨rfl, rfl⟩ | ⟨rfl, rfl⟩ | ⟨hi, rfl⟩ := hi
  · exact s.issue_storeV_mem c w (by decide) e
  · exact s.issue_storeV_mem c w (by decide) e
  · exact s.issue_storeV_mem c w (by decide) e
  · obtain rfl := Host.Outcome.next.inj e
    exact State.issue_mem _ _ _ _ _ (State.legal_mem (s.storeV_mem c w (by decide) _))
  · exact execVst_mem s c w e
  · simp only [List.mem_cons, List.not_mem_nil, or_false] at hi
    obtain rfl | rfl | rfl := hi
    all_goals
      obtain rfl := Host.Outcome.next.inj e
      exact State.issue_mem _ _ _ _ _ (s.amo_mem c w _ _)

end Sys2Proof.Machine
end

section
/-! PROOFS. Instructions that store nothing: what acts on a core alone, and the frame of every such instruction (O9). -/

namespace Sys2Proof.Machine

/-! ### Acting on a core alone -/

/-- From `s` to `t` no more has changed than core `c`, its checker, and registers of cores. -/
structure OnlyCore (c : CoreId) (s t : State) : Prop where
  mem : t.mem = s.mem
  core : ∀ d, d ≠ c → d ≠ c.pair.checker → t.core d = s.core d
  sched : t.sched = s.sched
  time : t.time = s.time
  fab : t.fab = s.fab
  flt : t.flt = s.flt
  on : t.on = s.on
  regs : ∀ k : RegKey, k.blk ≠ .tc → t.regs.get? k = s.regs.get? k

namespace OnlyCore
variable {c : CoreId} {s t : State}

theorem refl : OnlyCore c s s := ⟨rfl, fun _ _ _ => rfl, rfl, rfl, rfl, rfl, rfl, fun _ _ => rfl⟩

theorem setCore (h : OnlyCore c s t) {d : CoreId} (hd : d = c ∨ d = c.pair.checker) (x : CoreState) : OnlyCore c s (t.setCore d x) where
  mem := h.mem
  core e hc hk := by
    rw [State.core_setCore_other _ _ (by obtain rfl | rfl := hd <;> assumption), h.core e hc hk]
  sched := h.sched
  time := h.time
  fab := h.fab
  flt := h.flt
  on := h.on
  regs := h.regs

theorem setReg (h : OnlyCore c s t) (i off : Nat) (v : Word) : OnlyCore c s (t.setReg .tc i off v) where
  mem := h.mem
  core := h.core
  sched := h.sched
  time := h.time
  fab := h.fab
  flt := h.flt
  on := h.on
  regs k hk := by
    rw [State.setReg_regs, AMap.get?_set_other _ _ (fun e => hk (congrArg RegKey.blk e)), h.regs k hk]

/-- What is done to a core is done to its checker in lockstep, and to no other core (R114). -/
theorem foldl_mirrored {f : State → CoreId → State}
    (hf : ∀ u d, (d = c ∨ d = c.pair.checker) → OnlyCore c s u → OnlyCore c s (f u d)) (r : State) (h : OnlyCore c s t) :
    OnlyCore c s ((r.mirrored c).foldl f t) := by
  unfold State.mirrored
  split
  · exact hf _ _ (.inr rfl) (hf _ _ (.inl rfl) h)
  · exact hf _ _ (.inl rfl) h

theorem putCore (h : OnlyCore c s t) (x : CoreState) : OnlyCore c s (t.putCore c x) :=
  foldl_mirrored (fun _ _ hd hu => hu.setCore hd _) t h

theorem orFlags (h : OnlyCore c s t) (f : AFlags) : OnlyCore c s (t.orFlags c f) := by
  unfold State.orFlags
  split
  · exact h
  · exact foldl_mirrored (fun _ _ _ hu => hu.setReg _ _ _) t h

/-! ### What an instruction does when it issues -/

theorem put {x : CoreState} : OnlyCore c s (s.putCore c x) := refl.putCore x

theorem ite {p : Prop} [Decidable p] {r q : Issue} (hr : OnlyCore c s (r.after s)) (hq : OnlyCore c s (q.after s)) :
    OnlyCore c s ((if p then r else q).after s) := by
  split <;> assumption

theorem legal {ok : Bool} {r : Issue} (h : OnlyCore c s (r.after s)) : OnlyCore c s ((s.legal c ok r).after s) := ite h refl

/-- An instruction of a unit starts, joins its queue, or stalls. -/
theorem unit {op : Nat} {w : BitVec 56} {ok : Bool} {r : Issue} (h : OnlyCore c s (r.after s)) :
    OnlyCore c s ((s.unit c op w ok r).after s) := by
  refine legal ?_
  unfold State.queued
  cases unitOf op with
  | none => exact h
  | some u => exact ite h (ite refl put)

theorem toV {w : BitVec 56} {f : Nat → Word × AFlags} : OnlyCore c s ((s.toV c w f).after s) := put.orFlags _

theorem putV {w : BitVec 56} {v : VReg} {f : AFlags} : OnlyCore c s ((s.putV c w v f).after s) := put.orFlags _

theorem exceptAfter {bit addr : Nat} : OnlyCore c s ((s.exceptAfter c bit addr).after s) := put.putCore _

end OnlyCore

/-- An instruction whose answer acts on its core alone. -/
def OutOnlyCore (c : CoreId) (s : State) (o : Out) : Prop := ∀ t, o = .next t → OnlyCore c s t

section Forms
variable {c : CoreId} {s : State} {op : Nat} {w : BitVec 56} {ok : Bool}

theorem OutOnlyCore.issue {r : Issue} (h : OnlyCore c s (r.after s)) : OutOnlyCore c s (.next (s.issue c op w r)) := by
  intro t e
  obtain rfl := Host.Outcome.next.inj e
  exact State.issue_of_after (P := OnlyCore c s) (fun _ x hu => hu.putCore x) .refl h

theorem OutOnlyCore.legal {r : Issue} (h : OnlyCore c s (r.after s)) : OutOnlyCore c s (.next (s.issue c op w (s.legal c ok r))) :=
  .issue (.legal h)

theorem OutOnlyCore.unit {r : Issue} (h : OnlyCore c s (r.after s)) : OutOnlyCore c s (.next (s.issue c op w (s.unit c op w ok r))) :=
  .issue (.unit h)

/-! ### Instructions with a choice of their own -/

theorem execSop_onlyCore : OutOnlyCore c s (execSop c w s) := by
  simp only [execSop]
  cases scalarFn (fnR w) ((s.core c).getS (iRS1 w)) ((s.core c).getS (iRS2 w)) with
  | none => exact .issue .refl
  | some v => exact .legal .put

theorem execSopi_onlyCore : OutOnlyCore c s (execSopi c w s) := by
  simp only [execSopi]
  cases scalarFn (fnI w) ((s.core c).getS (iRS1 w)) (iIMM w) with
  | none => exact .issue .refl
  | some v => exact .legal .put

theorem execSrd_onlyCore : OutOnlyCore c s (execSrd c w s) := by
  simp only [execSrd]
  cases s.special c (iIMM w).toNat with
  | none => exact .issue .refl
  | some v => exact .legal .put

theorem execBr_onlyCore : OutOnlyCore c s (execBr c w s) := by
  simp only [execBr]
  cases condHolds (bitsOf w 45 43) ((s.core c).getS (iRD w)) ((s.core c).getS (iRS1 w)) with
  | none => exact .issue .refl
  | some taken => exact .legal (.ite .refl .refl)

theorem State.loopStart_onlyCore (count : Word) : OnlyCore c s ((s.loopStart c w count).after s) := .ite .refl (.ite .put .put)

theorem execVmov_onlyCore : OutOnlyCore c s (execVmov c w s) := by
  refine .unit ?_
  split
  · exact .toV
  · exact .toV
  · exact .putV
  · exact .put
  · exact .putV

theorem execVcvt_onlyCore : OutOnlyCore c s (execVcvt c w s) := by
  refine .issue ?_
  split
  · next i hi =>
    refine .unit ?_
    split at hi
    · obtain rfl := Option.some.inj (Option.ite_none_right_eq_some.mp hi).2
      exact .toV
    · split at hi
      · obtain rfl := Option.some.inj (Option.ite_none_right_eq_some.mp hi).2
        exact .toV
      · split at hi
        · split at hi
          · cases hi
          · obtain rfl := Option.some.inj (Option.ite_none_left_eq_some.mp hi).2
            exact .putV
        · split at hi
          · cases hi
          · obtain rfl := Option.some.inj (Option.ite_none_left_eq_some.mp hi).2
            exact .putV
  · exact .refl

theorem execVred_onlyCore : OutOnlyCore c s (execVred c w s) := by
  simp only [execVred]
  cases redFn (vFN w) (vRM w) with
  | none => exact .issue .refl
  | some r => exact .unit .putV

theorem execAstate_onlyCore : OutOnlyCore c s (execAstate c w s) := by
  refine .unit ?_
  split
  · exact .putV
  · exact .putV
  · exact .put
  · exact .put
  · exact .putV

theorem State.streamIssue_onlyCore (avac : Bool) : OnlyCore c s ((s.streamIssue c w avac).after s) := by
  refine .legal (.ite .refl ?_)
  split
  · exact .refl
  · exact .ite .refl (.ite .refl .put)

end Forms

/-! ### Every instruction that stores nothing -/

section Every
variable (c : CoreId) (w : BitVec 56) (s : State)

theorem scalar_onlyCore : ∀ i ∈ [Instr.nop c w, .waitc c w, .sop c w, .sopi c w, .srd c w, .aadd c w, .aaddi c w, .ali c w, .amovs c w,
    .asets c w, .br c w, .jmp c w, .jal c w, .jr c w, .loop c w, .loopi c w, .pop c w, .plane c w, .pmovs c w, .pfroms c w],
    OutOnlyCore c s (exec i s) := by
  simp only [List.forall_mem_cons]
  refine ⟨?nop, ?waitc, ?sop, ?sopi, ?srd, ?aadd, ?aaddi, ?ali, ?amovs, ?asets, ?br, ?jmp, ?jal, ?jr, ?loop, ?loopi, ?pop, ?plane,
    ?pmovs, ?pfroms, List.forall_mem_nil _⟩
  case sop => exact execSop_onlyCore
  case sopi => exact execSopi_onlyCore
  case srd => exact execSrd_onlyCore
  case br => exact execBr_onlyCore
  case jr => exact .legal (.ite .refl .refl)
  case nop | waitc | jmp => exact .legal .refl
  case loop | loopi => exact .issue (State.loopStart_onlyCore _)
  case aadd | aaddi | ali | amovs | asets | jal | pop | plane | pmovs | pfroms => exact .legal .put

theorem vector_onlyCore : ∀ i ∈ [Instr.viop c w, .vsop c w, .vfop c w, .vfma c w, .vfds c w, .vfapx c w, .vcmp c w, .vmov c w, .vcvt c w,
    .vreq c w, .vred c w, .vmxqQuantise c w, .vmxqDequantise c w], OutOnlyCore c s (exec i s) := by
  simp only [List.forall_mem_cons]
  refine ⟨?viop, ?vsop, ?vfop, ?vfma, ?vfds, ?vfapx, ?vcmp, ?vmov, ?vcvt, ?vreq, ?vred, ?quantise, ?dequantise, List.forall_mem_nil _⟩
  case viop | vsop | vfop | vfma | vfds | vfapx => exact .unit .toV
  case vcmp => exact .unit .put
  case vmov => exact execVmov_onlyCore
  case vcvt => exact execVcvt_onlyCore
  case vreq | dequantise => exact .unit .putV
  case vred => exact execVred_onlyCore
  case quantise => exact .unit (.orFlags .put _)

theorem attention_onlyCore : ∀ i ∈ [Instr.aexp2 c w, .aopen c w, .astep c w, .astate c w, .vapp c w], OutOnlyCore c s (exec i s) := by
  simp only [List.forall_mem_cons]
  refine ⟨?aexp2, ?aopen, ?astep, ?astate, ?vapp, List.forall_mem_nil _⟩
  case aexp2 => exact .unit .toV
  case aopen => exact .unit .put
  case astep | vapp => exact .unit (.orFlags .put _)
  case astate => exact execAstate_onlyCore

theorem tensor_onlyCore : ∀ i ∈ [Instr.amv c w, .amvw c w, .mma c w, .avac c w], OutOnlyCore c s (exec i s) := by
  simp only [List.forall_mem_cons]
  refine ⟨?amv, ?amvw, ?mma, ?avac, List.forall_mem_nil _⟩
  case amv | amvw => exact .unit (.ite .exceptAfter .put)
  case mma | avac => exact .issue (State.streamIssue_onlyCore _)

theorem sync_onlyCore : ∀ i ∈ [Instr.dmago c w, .dmastop c w, .pwb c w, .fence c w], OutOnlyCore c s (exec i s) := by
  simp only [List.forall_mem_cons]
  refine ⟨?dmago, ?dmastop, ?pwb, ?fence, List.forall_mem_nil _⟩
  case dmago => exact .legal (.ite .put .refl)
  case dmastop => exact .legal .put
  case pwb => exact .legal (.ite .put .put)
  case fence => exact .legal (.ite .refl .refl)

end Every

/-- Settles O9: each of these instructions acts on its core alone. -/
theorem registerInstructionsTouchOnlyTheirCore : Obligations.RegisterInstructionsTouchOnlyTheirCore := by
  unfold Obligations.RegisterInstructionsTouchOnlyTheirCore
  intro c d w s t i hi e hc hk
  have every : OutOnlyCore c s (exec i s) := by
    have all := List.forall_mem_append.mpr ⟨scalar_onlyCore c w s, List.forall_mem_append.mpr ⟨vector_onlyCore c w s,
      List.forall_mem_append.mpr ⟨attention_onlyCore c w s, List.forall_mem_append.mpr ⟨tensor_onlyCore c w s, sync_onlyCore c w s⟩⟩⟩⟩
    exact all i hi
  have h := every t e
  exact ⟨h.mem, h.core d hc hk, h.sched, h.time, h.fab, h.flt, h.on, h.regs⟩

end Sys2Proof.Machine
end

section
/-! PROOFS. Synchronisation: the completion of DMA, signal, barrier, fence, phase, accord and end instructions, and where each of them
waits or stalls (O10). -/

namespace Sys2Proof.Machine

section Sync
variable {s : State} {c : CoreId} {w : BitVec 56} (hr : rsvS w = true)
include hr

/-! ### DMA channels and signals (R144 to R147) -/

theorem execDmago_queued {v : Nat} (hv : v = (if iF w then bitsOf ((s.core c).getS (iRS1 w)) 19 0 else iVAL w)) (ha : v % 64 = 0)
    (hq : (Chan.get (s.core c) (iCH w)).queue.length < 4) (h : s.ready c 0x38 w = true) :
    execDmago c w s = .next (s.retire c ((s.core c).modChan (iCH w) (fun h =>
      { h with queue := h.queue ++ [BitVec.ofNat 20 v], st := if h.st = .stopped then .idle else h.st }))) := by
  subst hv
  simp only [execDmago, if_pos hq]
  exact congrArg Host.Outcome.next (State.issue_legal_ok h (by simp [hr, ha]) _)

theorem execDmago_full (hf : iF w = false) (ha : iVAL w % 64 = 0) (hq : 4 ≤ (Chan.get (s.core c) (iCH w)).queue.length)
    (h : s.ready c 0x38 w = true) : execDmago c w s = .next (s.putCore c { s.core c with stalled := true }) := by
  simp only [execDmago, if_neg (Nat.not_lt.mpr hq)]
  exact congrArg Host.Outcome.next (State.issue_legal_stall h (by simp [hr, hf, ha]) _)

theorem execDmastop_asks (h : s.ready c 0x39 w = true) :
    execDmastop c w s = .next (s.retire c ((s.core c).modChan (iCH w) (fun h => h.stop true))) :=
  congrArg Host.Outcome.next (State.issue_legal_ok h hr _)

section Sigwait
variable {n : BitVec 16} (hn : n = (if iF w then ((s.core c).getS (iRS1 w)).setWidth 16 else BitVec.ofNat 16 (iVAL w)))
  (hz : bitsOf w 19 16 = 0) (h : s.ready c 0x3A w = true)
include hn hz h

/-- A count that is reached: the instruction completes, and a consuming wait subtracts it (R146). -/
theorem execSigwait_reached (hs : n ≤ s.sig c (iSID w)) :
    execSigwait c w s = .next (s.completed c (if iC w then s.setSig c (iSID w) (s.sig c (iSID w) - n) else s)) := by
  subst hn
  simp only [execSigwait, if_pos hs]
  exact congrArg Host.Outcome.next (State.issue_legal_ok h (by simp [hr, hz]) _)

theorem execSigwait_short (hs : s.sig c (iSID w) < n) :
    execSigwait c w s = .next (s.putCore c ((s.core c).waits (.sig (iSID w) n (iC w)))) := by
  subst hn
  simp only [execSigwait, if_neg (BitVec.not_le.mpr hs)]
  exact congrArg Host.Outcome.next (State.issue_legal_stay h (by simp [hr, hz]) _)

end Sigwait

theorem execSigpost_enabled {n : BitVec 16} (hn : n = (if iF w then ((s.core c).getS (iRS1 w)).setWidth 16 else BitVec.ofNat 16 (iVAL w)))
    (he : s.coreEnabled ⟨c.cl, iCH w⟩ = true) (h : s.ready c 0x3B w = true) :
    execSigpost c w s = .next (s.completed c (s.sigAdd ⟨c.cl, iCH w⟩ (iSID w) n)) := by
  subst hn
  simp only [execSigpost, he, Bool.not_true, Bool.false_eq_true, if_false]
  exact congrArg Host.Outcome.next (State.issue_legal_ok h hr _)

/-! ### Barriers (R148) -/

/-- A core that has arrived at its slot, which holds `b` now, and waits there. -/
def State.arrived (s : State) (c : CoreId) (w : BitVec 56) (b : BarSlot) : State :=
  ({ s with bars := s.bars.set (c.cl, Fin.ofNat 16 (iVAL w)) (some b) }).putCore c
    ((s.core c).waits (.bar (Fin.ofNat 16 (iVAL w)) (Fin.ofNat 32 (iRD w))))

section Bar
variable (hz : bitsOf w 19 4 = 0) (hk : (iMASK w).getLsbD c.k = true) (hm : s.maskEnabled c.cl (iMASK w) = true)
  (h : s.ready c 0x3C w = true)
include hz hk hm h

section First
variable (hb : s.bars.get (c.cl, Fin.ofNat 16 (iVAL w)) none = none)
include hb

theorem execBar_first (ho : iMASK w ≠ 1#8 <<< c.k.val) :
    execBar c w s = .next (s.arrived c w ⟨iMASK w, 1#8 <<< c.k.val⟩) := by
  simp only [execBar, hb, if_neg (Ne.symm ho)]
  exact congrArg Host.Outcome.next (State.issue_legal_stay h (by simp [hr, hz, hk, hm]) _)

/-- A mask that names one core alone: the first arrival is the last. -/
theorem execBar_alone (ho : iMASK w = 1#8 <<< c.k.val) :
    execBar c w s = .next ((s.arrived c w ⟨iMASK w, 1#8 <<< c.k.val⟩).barRelease c.cl (Fin.ofNat 16 (iVAL w)) 0) := by
  simp only [execBar, hb, if_pos ho.symm]
  exact congrArg Host.Outcome.next (State.issue_legal_own h (by simp [hr, hz, hk, hm]) _)

end First

theorem execBar_last {b : BarSlot} (hb : s.bars.get (c.cl, Fin.ofNat 16 (iVAL w)) none = some b) (hmask : b.mask = iMASK w)
    (hall : b.arrived ||| (1#8 <<< c.k.val) = b.mask) :
    execBar c w s = .next ((s.arrived c w { b with arrived := b.mask }).barRelease c.cl (Fin.ofNat 16 (iVAL w)) 0) := by
  simp only [execBar, hb, hall, if_true]
  exact congrArg Host.Outcome.next (State.issue_legal_own h (by simp [hr, hz, hk, hm, hmask]) _)

end Bar

/-! ### Fences and posted writes (R151 to R153) -/

theorem execFence_passes (hz : bitsOf w 19 2 = 0) (hf : bitsOf w 1 0 = 1 ∨ (2 ≤ bitsOf w 1 0 ∧ (s.core c).unitsIdle = true))
    (h : s.ready c 0x3D w = true) : execFence c w s = .next (s.completed c s) := by
  have hgo : ¬(2 ≤ bitsOf w 1 0 ∧ (!(s.core c).unitsIdle) = true) := by
    obtain hf | ⟨-, hf⟩ := hf <;> simp [hf]
  have hk : bitsOf w 1 0 ≠ 0 := by omega
  simp only [execFence, if_neg hgo]
  exact congrArg Host.Outcome.next (State.issue_legal_ok h (by simp [hr, hz, hk]) _)

theorem execFence_stalls (hz : bitsOf w 19 2 = 0) (hf : 2 ≤ bitsOf w 1 0) (hu : (s.core c).unitsIdle = false) (h : s.ready c 0x3D w = true) :
    execFence c w s = .next (s.putCore c { s.core c with stalled := true }) := by
  have hk : bitsOf w 1 0 ≠ 0 := by omega
  simp only [execFence, if_pos (show 2 ≤ bitsOf w 1 0 ∧ (!(s.core c).unitsIdle) = true from ⟨hf, by rw [hu]; rfl⟩)]
  exact congrArg Host.Outcome.next (State.issue_legal_stall h (by simp [hr, hz, hk]) _)

theorem execPwb_takes (ht : ∀ t ∈ s.postedOf c, t.id ∉ s.covered c) (h : s.ready c 0x3E w = true) :
    execPwb c w s = .next (s.retire c ({ s.core c with failCount := 0 }.setS (iRD w) (s.core c).failCount)) := by
  have hno : ¬ (s.postedOf c).any (fun t => (s.covered c).contains t.id) = true := by simpa using ht
  simp only [execPwb, if_neg hno]
  exact congrArg Host.Outcome.next (State.issue_legal_ok h hr _)

theorem execPwb_stalls (ht : ∃ t ∈ s.postedOf c, t.id ∈ s.covered c) (h : s.ready c 0x3E w = true) :
    execPwb c w s = .next ((s.putCore c { s.core c with pwb := some (s.covered c) }).putCore c
      { (s.putCore c { s.core c with pwb := some (s.covered c) }).core c with stalled := true }) := by
  have hsome : (s.postedOf c).any (fun t => (s.covered c).contains t.id) = true := by simpa using ht
  simp only [execPwb, if_pos hsome]
  exact congrArg Host.Outcome.next (State.issue_legal_stall h hr _)

/-! ### Phases (R154, R155) -/

section Pwait
variable {t : Nat} (ht : t = (if iF w then bitsOf ((s.core c).getS (iRS1 w)) 16 0 else bitsOf w 16 0)) (hlast : t ≤ 0x13FFF)
  (hz : if iF w then bitsOf ((s.core c).getS (iRS1 w)) 31 17 = 0 else bitsOf w 19 17 = 0)
  {fr : Word} (hfr : fr = (if t < 0x10000 then (s.core c).jobFrame.get (iWH w) 0 else (s.core c).jobFrame.get (iWH w) 0 + 1))
  (hg : (s.wheel (iWH w)).going = true)
include ht hlast hz hfr hg

/-- A well-formed PWAIT on a going wheel asks whether its phase has passed. -/
theorem execPwait_eq : execPwait c w s = .next (s.issue c 0x3F w
    (if (s.wheel (iWH w)).passed fr (t % 0x10000) then .ok ((s.lateEvent c).putCore c ((s.core c).setS (iRD w) 1))
     else .stay (s.putCore c ((s.core c).waits (.phase (iWH w) fr (BitVec.ofNat 16 t) (Fin.ofNat 32 (iRD w))))))) := by
  subst ht hfr
  have hok : (rsvS w && (if iF w then bitsOf ((s.core c).getS (iRS1 w)) 31 17 == 0 else bitsOf w 19 17 == 0) &&
      decide ((if iF w then bitsOf ((s.core c).getS (iRS1 w)) 16 0 else bitsOf w 16 0) ≤ 0x13FFF) && (s.wheel (iWH w)).going) = true := by
    cases hi : iF w <;> simp_all
  simp only [execPwait]
  rw [State.legal_ok _ _ hok]

theorem execPwait_passed (hp : (s.wheel (iWH w)).passed fr (t % 0x10000) = true) (h : s.ready c 0x3F w = true) :
    execPwait c w s = .next (s.completed c ((s.lateEvent c).putCore c ((s.core c).setS (iRD w) 1))) := by
  rw [execPwait_eq hr ht hlast hz hfr hg, if_pos hp, State.issue_ok h]

theorem execPwait_waits (hp : (s.wheel (iWH w)).passed fr (t % 0x10000) = false) (h : s.ready c 0x3F w = true) : execPwait c w s =
    .next (s.putCore c ((s.core c).waits (.phase (iWH w) fr (BitVec.ofNat 16 t) (Fin.ofNat 32 (iRD w))))) := by
  rw [execPwait_eq hr ht hlast hz hfr hg, if_neg (by simp [hp]), State.issue_stay h]

end Pwait

/-! ### ACCORD and END (R157, R158) -/

theorem execAccord_begins (hu : (s.core c).unitsIdle = true) (h : s.ready c 0x40 w = true) :
    execAccord c w s = .next ((s.putCore c ((s.core c).waits (.accord (Fin.ofNat 32 (iRD w))))).accordBegin c) := by
  simp only [execAccord, hu, Bool.not_true, Bool.false_eq_true, if_false]
  exact congrArg Host.Outcome.next (State.issue_legal_stay h hr _)

theorem execAccord_stalls (hu : (s.core c).unitsIdle = false) (h : s.ready c 0x40 w = true) :
    execAccord c w s = .next (s.putCore c { s.core c with stalled := true }) := by
  simp only [execAccord, hu, Bool.not_false, if_true]
  exact congrArg Host.Outcome.next (State.issue_legal_stall h hr _)

theorem execEnd_ends (hu : (s.core c).unitsIdle = true) (hc : (s.core c).chansSettled = true) (hp : s.postedOf c = [])
    (h : s.ready c 0x41 w = true) : execEnd c w s = .next ((s.putCore c { (s.core c).leave with
      run := false, ended := true, endLt := s.now, endFails := (s.core c).failCount, failCount := 0,
      pc := (s.reg .tc c.inst Reg.TC_ENTRY).setWidth 20 }).setReg .cad c.cl.inst (Reg.CAD_ENDPHk c.k)
        (((s.wheel (s.core c).jobWheel).encode ((s.core c).jobFrame.get (s.core c).jobWheel 0)).setWidth 32)) := by
  have hgo : ¬((!(s.core c).unitsIdle) = true ∨ (!(s.core c).chansSettled) = true ∨ s.postedOf c ≠ []) := by simp [hu, hc, hp]
  simp only [execEnd, if_neg hgo]
  exact congrArg Host.Outcome.next (State.issue_legal_own h hr _)

theorem execEnd_stalls (hb : (s.core c).unitsIdle = false ∨ (s.core c).chansSettled = false ∨ s.postedOf c ≠ [])
    (h : s.ready c 0x41 w = true) : execEnd c w s = .next (s.putCore c { s.core c with stalled := true }) := by
  have hst : (!(s.core c).unitsIdle) = true ∨ (!(s.core c).chansSettled) = true ∨ s.postedOf c ≠ [] := by simpa using hb
  simp only [execEnd, if_pos hst]
  exact congrArg Host.Outcome.next (State.issue_legal_stall h hr _)

end Sync

/-! ### Every synchronisation instruction -/

/-- Settles O10: each clause is the completion, the wait or the stall of one instruction, stated above for it. -/
theorem synchronisationInstructionsComplete : Obligations.SynchronisationInstructionsComplete := by
  unfold Obligations.SynchronisationInstructionsComplete
  refine ⟨fun c w s hr => ⟨?dmago, ?dmastop, ?sigwait, ?sigpost, ?barFirst, ?barLast⟩,
    fun c w s hr => ⟨?fence, ?fenceStalls, ?pwb, ?pwbStalls, ?pwait, ?accord, ?endProgram, ?unitsBusy, ?endStalls⟩, ?dmagoFull⟩
  case dmago => exact fun v => execDmago_queued hr
  case dmastop => exact execDmastop_asks hr
  case sigwait =>
    refine fun n hn hz => ⟨fun hs hc h => ?_, fun hs hc h => ?_, fun hs h => execSigwait_short hr hn hz h hs⟩
    · exact (execSigwait_reached hr hn hz h hs).trans (by simp [hc])
    · exact (execSigwait_reached hr hn hz h hs).trans (by simp [hc])
  case sigpost => exact fun n => execSigpost_enabled hr
  case barFirst => exact fun hz hk hm hb => ⟨fun ho h => execBar_first hr hz hk hm h hb ho, fun ho h => execBar_alone hr hz hk hm h hb ho⟩
  case barLast => exact fun b hz hk hm hb hmask hall h => execBar_last hr hz hk hm h hb hmask hall
  case fence => exact execFence_passes hr
  case fenceStalls => exact execFence_stalls hr
  case pwb => exact execPwb_takes hr
  case pwbStalls => exact execPwb_stalls hr
  case pwait =>
    exact fun t fr ht hlast hz hfr hg => ⟨execPwait_passed hr ht hlast hz hfr hg, execPwait_waits hr ht hlast hz hfr hg⟩
  case accord => exact execAccord_begins hr
  case endProgram => exact execEnd_ends hr
  case unitsBusy => exact fun hu => ⟨execAccord_stalls hr hu, execEnd_stalls hr (.inl hu)⟩
  case endStalls => exact fun hb => execEnd_stalls hr (.inr hb)
  case dmagoFull => exact fun c w s h hr hf ha hq => execDmago_full hr hf ha hq h

end Sys2Proof.Machine
end

section
/-! PROOFS. Tensor instructions: weight tiles, matrix-multiplies, accumulator moves, the queues of the units, and the start of a stream
instruction (O12). -/

namespace Sys2Proof.Machine

/-! ### Weight tiles (R90, R166, R167, R189) -/

/-- Lines of a clean range are read as they stand (R197). -/
theorem State.readLines_clean {s : State} {a : Addr} {n : Nat} (h : s.clean a.toNat (64 * n)) :
    s.readLines a n = (s, natLines (s.loadNat a.toNat (64 * n)) n, none) := by
  simp only [State.readLines, State.coreRead_clean h, State.loadNat]

section Wld
variable {s : State} {c : CoreId} {w : BitVec 56} (h1 : zf w 50 46 = true) (h2 : zf w 35 29 = true) (h3 : zf w 21 21 = true)
  (h4 : zf w 19 17 = true) (h5 : zf w 4 0 = true) (hv : (tTag w).valid = true) (ha : tXA w < 16) (hb : tXB w < 16) (hc : tXC w < 16)
  (h : s.starts c 0x88 w = true)
include h1 h2 h3 h4 h5 hv ha hb hc h

theorem execWld_vial (hs : bitOf w 7 = true) (hz : zf w 28 26 = true) (hsp : (tTag w).sp = false) (hz2 : zf w 55 51 = true)
    (hz3 : zf w 45 36 = true) (hwf : (tTag w).wf.val = 0) : execWld c w s = .next (s.retire c { s.core c with
      wb := (s.core c).wb.set (tWB w)
        ⟨some (tTag w), false, (s.core c).vialTile (tTag w) (bitsOf w 25 22) (bitOf w 6) (bitOf w 5), [], []⟩ }) := by
  have hnarrow : fmtBits 0 ≠ 16 := by decide
  simp only [execWld, hs, if_true]
  rw [State.queued_starts h]
  exact congrArg Host.Outcome.next
    (State.issue_legal_ok (State.ready_of_starts h) (by simp [h1, h2, h3, h4, h5, hv, ha, hb, hc, hz, hsp, hz2, hz3, hwf, hnarrow]) _)

/-- A tile of the local store whose parts are in place, at rest and clean becomes the weight buffer. -/
theorem execWld_tile (hs : bitOf w 7 = false)
    (hp : badPart c (tileParts (tTag w) ((s.core c).getA (tXA w)) ((s.core c).getA (tXB w)) ((s.core c).getA (tXC w))) = none)
    (hu : ∀ p ∈ tileParts (tTag w) ((s.core c).getA (tXA w)) ((s.core c).getA (tXB w)) ((s.core c).getA (tXC w)),
      (s.core c).unitWrites p.1.toNat (64 * p.2) = false)
    (hd : s.clean ((s.core c).getA (tXA w)).toNat (64 * (tTag w).dataLines))
    (hsc : s.clean ((s.core c).getA (tXB w)).toNat (64 * (tTag w).scaleLines))
    (hm : s.clean ((s.core c).getA (tXC w)).toNat (64 * (tTag w).metaLines)) : execWld c w s = .next (s.retire c { s.core c with
      wb := (s.core c).wb.set (tWB w) ⟨some (tTag w),
        (tTag w).sp && badMeta (tTag w)
          (linesNat (natLines (s.loadNat ((s.core c).getA (tXC w)).toNat (64 * (tTag w).metaLines)) (tTag w).metaLines)),
        natLines (s.loadNat ((s.core c).getA (tXA w)).toNat (64 * (tTag w).dataLines)) (tTag w).dataLines,
        natLines (s.loadNat ((s.core c).getA (tXB w)).toNat (64 * (tTag w).scaleLines)) (tTag w).scaleLines,
        natLines (s.loadNat ((s.core c).getA (tXC w)).toNat (64 * (tTag w).metaLines)) (tTag w).metaLines⟩ }) := by
  have hfree := List.any_eq_false.mpr fun p hp => Bool.not_eq_true _ ▸ hu p hp
  simp only [execWld, hs, hp, hfree, Bool.false_eq_true, if_false, State.readLines_clean hd, State.readLines_clean hsc,
    State.readLines_clean hm, Option.or_none]
  rw [State.queued_starts h]
  exact congrArg Host.Outcome.next
    (State.issue_legal_ok (State.ready_of_starts h) (by simp [h1, h2, h3, h4, h5, hv, ha, hb, hc]) _)

end Wld

/-! ### Matrix-multiplies at issue (R169, R170) -/

/-- The entry of the stream queue that MMA or AVAC makes, its register operands read at issue (R160, R169). -/
def State.streamOp (s : State) (c : CoreId) (w : BitVec 56) (avac : Bool) : StreamOp :=
  ⟨avac, (s.core c).pc, (s.core c).getA (tXA w), (s.core c).getS (tXS w), (s.core c).getA (tXB w), tCNT w + 1, tROW w, tBK w, tWB w, tOW w,
    tCV w⟩

section Stream
variable {s : State} {c : CoreId} {w : BitVec 56} {t : WTag} {avac : Bool} (hz : zf w 40 36 = true) (hz2 : zf w 16 0 = true)
  (ha : tXA w < 16) (hb : tXB w < 16) (hrow : tROW w + (tCNT w + 1) ≤ 128)
  (ht : (s.core c).tagAt (tWB w) = some t) (hst : bitsOf (s.streamOp c w avac).stride 5 0 = 0)
  (hin : ∀ i < tCNT w + 1, inOwnLs c ((s.streamOp c w avac).rowAddr i).toNat (64 * t.rowLines) = true)
  (hsc : isMX t.af = true → inOwnLs c (s.streamOp c w avac).xb.toNat ((tCNT w + 1) * (t.kt / 32)) = true)
  (hq : (s.core c).streamQ.length < 4)
  (hu : ∀ i < tCNT w + 1, (s.core c).unitWrites ((s.streamOp c w avac).rowAddr i).toNat (64 * t.rowLines) = false)
include hz hz2 ha hb hrow ht hst hin hsc hq hu

/-- A matrix-multiply whose rows and scales lie in the own local store joins the stream queue. -/
theorem State.issue_streamIssue {op : Nat} (h : s.ready c op w = true)
    (hform : avac = false ∧ zf w 18 17 = true ∨ avac = true ∧ tCNT w < 64) :
    s.issue c op w (s.streamIssue c w avac) = s.retire c { s.core c with streamQ := (s.core c).streamQ ++ [s.streamOp c w avac] } := by
  have hout : (List.range (tCNT w + 1)).find? (fun i => !inOwnLs c ((s.streamOp c w avac).rowAddr i).toNat (64 * t.rowLines)) = none := by
    rw [List.find?_eq_none]
    intro i hi
    simp [hin i (List.mem_range.mp hi)]
  have hscale : (isMX t.af && !inOwnLs c (s.streamOp c w avac).xb.toNat ((tCNT w + 1) * (t.kt / 32))) = false := by
    cases hmx : isMX t.af with
    | false => rfl
    | true => rw [hsc hmx]; rfl
  have hgo : ¬(4 ≤ (s.core c).streamQ.length ∨ (List.range (tCNT w + 1)).any
      (fun i => (s.core c).unitWrites ((s.streamOp c w avac).rowAddr i).toNat (64 * t.rowLines)) = true) := by
    rw [not_or, List.any_eq_true]
    refine ⟨Nat.not_le.mpr hq, ?_⟩
    rintro ⟨i, hi, e⟩
    rw [hu i (List.mem_range.mp hi)] at e
    cases e
  simp only [State.streamOp] at hst hout hscale hgo
  simp only [State.streamIssue, ht, hst, ne_eq, not_true_eq_false, if_false, hout, hscale, Bool.false_eq_true, hgo]
  refine State.issue_legal_ok h ?_ _
  obtain ⟨rfl, hf⟩ | ⟨rfl, hf⟩ := hform
  · simp only [hz, hz2, ha, hb, hrow, hf, decide_true, Bool.false_or, Bool.not_false, Bool.true_or, Bool.and_self]
  · have hcnt : tCNT w + 1 ≤ 64 := hf
    simp only [hz, hz2, ha, hb, hrow, hcnt, decide_true, Bool.true_or, Bool.or_true, Bool.and_self]

end Stream

/-! ### Accumulator moves (R96, R172, R173) -/

section Moves
variable {s : State} {c : CoreId} {w : BitVec 56} {bk : Fin 2} (hbk : bk = Fin.ofNat 2 (bitsOf w 7 7)) (hz : zf w 11 8 = true)
include hbk hz

theorem execAmv_rows (hu : vUnused w true false false false false false false false false false true true = true)
    (hvd : vVD w + (vNM w + 1) ≤ 32) (hr : bitsOf w 6 0 + (vNM w + 1) ≤ 128) (hm : (s.core c).accMode.get bk .none ≠ .none)
    (h : s.starts c 0x90 w = true) : execAmv c w s = .next (s.retire c (upTo (vNM w + 1)
      (fun i x => x.setV (vVD w + i) (x.acc.get (bk, Fin.ofNat 128 (bitsOf w 6 0 + i)) 0)) (s.core c))) := by
  subst hbk
  simp only [execAmv, if_neg hm]
  exact congrArg Host.Outcome.next (State.issue_unit_ok h (by simp [hu, hz, hvd, hr]) _)

theorem execAmvw_row {m : AccMode} (hu : vUnused w false true false false false false false true false false false true = true)
    (hf : vFN w = 0 ∧ m = .int ∨ vFN w = 1 ∧ m = .fp)
    (hm : (s.core c).accMode.get bk .none = .none ∨ (s.core c).accMode.get bk .none = m) (h : s.starts c 0x91 w = true) :
    execAmvw c w s = .next (s.retire c { s.core c with
      accMode := (s.core c).accMode.set bk m, acc := (s.core c).acc.set (bk, Fin.ofNat 128 (bitsOf w 6 0)) ((s.core c).getV (vVA w)) }) := by
  subst hbk
  have hmode : (if vFN w = 0 then AccMode.int else AccMode.fp) = m := by
    obtain ⟨hf, rfl⟩ | ⟨hf, rfl⟩ := hf <;> simp [hf]
  have hfn : vFN w < 2 := by omega
  have hgo : ¬((s.core c).accMode.get (Fin.ofNat 2 (bitsOf w 7 7)) .none ≠ .none ∧
      (s.core c).accMode.get (Fin.ofNat 2 (bitsOf w 7 7)) .none ≠ m) := by
    rintro ⟨h0, h1⟩
    exact hm.elim h0 h1
  simp only [execAmvw, hmode, if_neg hgo]
  exact congrArg Host.Outcome.next (State.issue_unit_ok h (by simp [hu, hz, hfn]) _)

end Moves

/-! ### Queues of the units (R101, R160) -/

section Queue
variable {s : State} {c : CoreId} {w : BitVec 56} {q : UOp}
  (hw : (s.core c).unitQ.any (fun e => e.unit == q.unit) = true ∨ unitBlocked q.op w (s.core c).streamQ = true)
include hw

/-- An instruction that waits does not start. -/
theorem State.not_starts_of_waits :
    ¬((((s.core c).unitQ.filter (fun e => e.unit == q.unit)).isEmpty && !unitBlocked q.op w (s.core c).streamQ) = true) := by
  rintro e
  simp only [Bool.and_eq_true, List.isEmpty_iff, List.filter_eq_nil_iff, Bool.not_eq_true'] at e
  obtain ⟨hnone, hfree⟩ := e
  obtain hw | hw := hw
  · obtain ⟨x, hx, hxu⟩ := List.any_eq_true.mp hw
    exact hnone x hx hxu
  · rw [hfree] at hw
    cases hw

variable (hu : unitOf q.op = some q.unit) (h : s.ready c q.op w = true) {ok : Bool} (hok : ok = true) (r : Issue)
include hu h hok

/-- With room in its unit's queue an instruction that has to wait joins it. -/
theorem State.issue_unit_joins
    (hq : q = ⟨q.unit, q.op, w, (s.core c).pc, (s.core c).s, (s.core c).a, (s.core c).streamQ.length⟩)
    (hroom : ((s.core c).unitQ.filter (fun e => e.unit == q.unit)).length < 4) :
    s.issue c q.op w (s.unit c q.op w ok r) = s.retire c { s.core c with unitQ := (s.core c).unitQ ++ [q] } := by
  rw [State.unit, State.queued, hu]
  dsimp only
  rw [if_neg (State.not_starts_of_waits hw), if_neg (Nat.not_le.mpr hroom), ← hq]
  exact State.issue_legal_ok h hok _

/-- With its unit's queue full it stalls in issue. -/
theorem State.issue_unit_stalls (hfull : 4 ≤ ((s.core c).unitQ.filter (fun e => e.unit == q.unit)).length) :
    s.issue c q.op w (s.unit c q.op w ok r) = s.putCore c { s.core c with stalled := true } := by
  rw [State.unit, State.queued, hu]
  dsimp only
  rw [if_neg (State.not_starts_of_waits hw), if_pos hfull]
  exact State.issue_legal_stall h hok _

end Queue

/-! ### Start of a stream instruction (R90, R91, R169, R171) -/

/-- A queued instruction that starts leaves the rest of the queue (R101, R160). -/
theorem State.runUOp_unitQ (s : State) (c : CoreId) (q : UOp) (rest : List UOp) : ((s.runUOp c q rest).core c).unitQ = rest := by
  unfold State.runUOp
  rw [State.core_putCore_same]
  rfl

/-- The instruction that starts next is one of the queue; the rest is shorter by one. -/
theorem nextUOp_length {streams : List StreamOp} {held : List QUnit} {us rest : List UOp} {q : UOp}
    (h : nextUOp streams held us = some (q, rest)) : us.length = rest.length + 1 := by
  induction us generalizing held rest with
  | nil => cases h
  | cons u us ih =>
    unfold nextUOp at h
    split at h
    · obtain ⟨⟨q', r⟩, e, hr⟩ := Option.map_eq_some_iff.mp h
      obtain ⟨rfl, rfl⟩ := Prod.mk.inj hr
      rw [List.length_cons, ih e, List.length_cons]
    · obtain ⟨rfl, rfl⟩ := Prod.mk.inj (Option.some.inj h)
      rfl

/-- Draining as often as there are queued instructions leaves none that nothing holds up. -/
theorem State.drainUnits_done (c : CoreId) (n : Nat) (s : State) (h : (s.core c).unitQ.length ≤ n) :
    nextUOp ((State.drainUnits c n s).core c).streamQ [] ((State.drainUnits c n s).core c).unitQ = none := by
  induction n generalizing s with
  | zero =>
    rw [State.drainUnits, List.length_eq_zero_iff.mp (Nat.le_zero.mp h)]
    rfl
  | succ n ih =>
    cases hn : nextUOp (s.core c).streamQ [] (s.core c).unitQ with
    | none => simp only [State.drainUnits, hn]
    | some r =>
      obtain ⟨q, rest⟩ := r
      have hlen := nextUOp_length hn
      simp only [State.drainUnits, hn]
      exact ih _ (by rw [State.runUOp_unitQ]; omega)

/-- The state once the head of the stream queue has left it. -/
def State.popStream (s : State) (c : CoreId) (rest : List StreamOp) : State :=
  s.putCore c { s.core c with streamQ := rest, unitQ := (s.core c).unitQ.map (fun q => { q with ahead := q.ahead - 1 }) }

/-- The state in which the rows of a stream instruction enter the array: an OW instruction has set the mode tag of its bank (R94, R169). -/
def State.tagged (s : State) (c : CoreId) (o : StreamOp) (m : AccMode) : State :=
  if o.ow then s.putCore c { s.core c with accMode := (s.core c).accMode.set o.bk m } else s

section Head
variable {s : State} {c : CoreId} {o : StreamOp} {rest : List StreamOp} (hq : (s.core c).streamQ = o :: rest)
include hq

theorem State.streamHead_untagged (hb : ((s.core c).wb.get o.wb WBuf.empty).tag = none) :
    s.streamHead c = (s.popStream c rest).exceptQueued c xACCMODE (lsBase c + o.pc.toNat) := by
  simp only [State.streamHead, hq, hb]; rfl

section Tagged
variable {t : WTag} (ht : ((s.core c).wb.get o.wb WBuf.empty).tag = some t)
include ht

theorem State.streamHead_badMeta (hb : ((s.core c).wb.get o.wb WBuf.empty).bad = true) :
    s.streamHead c = (s.popStream c rest).exceptQueued c xSPMETA (lsBase c + o.pc.toNat) := by
  simp only [State.streamHead, hq, ht, hb, if_true]; rfl

variable (hb : ((s.core c).wb.get o.wb WBuf.empty).bad = false)
include hb

theorem State.streamHead_wrongMode
    (hm : (o.avac = true ∧ t.mode ≠ .fp) ∨ (o.ow = false ∧ (s.core c).accMode.get o.bk .none ≠ t.mode)) :
    s.streamHead c = (s.popStream c rest).exceptQueued c xACCMODE (lsBase c + o.pc.toNat) := by
  have hbad : ((!o.ow && (s.core c).accMode.get o.bk .none != t.mode) || (o.avac && t.mode != .fp)) = true := by
    obtain ⟨h1, h2⟩ | ⟨h1, h2⟩ := hm <;> simp [h1, h2]
  simp only [State.streamHead, hq, ht, hb, hbad, Bool.false_eq_true, if_false, if_true]; rfl

/-- With a usable tile and the right mode the rows stream from the first on, up to an uncorrectable read. -/
theorem State.streamHead_streams (hfp : o.avac = true → t.mode = .fp)
    (hm : o.ow = false → (s.core c).accMode.get o.bk .none = t.mode) {s' : State} {e : Option Nat}
    (hr : ((s.popStream c rest).tagged c o t.mode).streamRows c t ((s.core c).wb.get o.wb WBuf.empty) o o.m 0 [] = (s', e)) :
    s.streamHead c = match e with
      | some g => s'.exceptQueued c xLSECC g
      | none => s' := by
  have hgood : ((!o.ow && (s.core c).accMode.get o.bk .none != t.mode) || (o.avac && t.mode != .fp)) = false := by
    cases hw : o.ow <;> cases ha : o.avac <;> simp_all
  simp only [State.tagged, State.popStream] at hr
  simp only [State.streamHead, hq, ht, hb, hgood, Bool.false_eq_true, if_false, hr]
  cases e <;> rfl

end Tagged
end Head

/-- An exception of a queued instruction is pending after the ones before it (R119, R130). -/
theorem State.exceptQueued_first {s : State} {c : CoreId} (h : (s.core c).pend = none) (bit a : Nat) :
    ((s.exceptQueued c bit a).core c).pend = some ⟨bit, BitVec.ofNat 48 a⟩ := by
  simp [State.exceptQueued, h]

theorem State.exceptQueued_later {s : State} {c : CoreId} {p : Pend} (h : (s.core c).pend = some p) (bit a : Nat) :
    ((s.exceptQueued c bit a).core c).pend = some p ∧
      ((s.exceptQueued c bit a).core c).more = (s.core c).more ++ [⟨bit, BitVec.ofNat 48 a⟩] := by
  simp [State.exceptQueued, h]

/-! ### Every tensor instruction -/

/-- Settles O12: each clause is the completion of one instruction or one branch of the start of a stream, stated above for it. -/
theorem tensorInstructionsComplete : Obligations.TensorInstructionsComplete := by
  unfold Obligations.TensorInstructionsComplete
  refine ⟨fun c w s => ⟨?wld, ?stream, ?moves⟩, ?queues, ?start, ?drain, ?head, ?pending⟩
  case wld =>
    exact fun h1 h2 h3 h4 h5 hv ha hb hc => ⟨fun hs hz hsp hz2 hz3 hwf h => execWld_vial h1 h2 h3 h4 h5 hv ha hb hc h hs hz hsp hz2 hz3 hwf,
      fun hs hp hu hd hsc hm h => execWld_tile h1 h2 h3 h4 h5 hv ha hb hc h hs hp hu hd hsc hm⟩
  case stream =>
    intro t o hz hz2 ha hb hrow ho ht hst hin hsc hq hu
    refine ⟨fun hm hz3 h => ?_, fun hm hn h => ?_⟩ <;> rw [hm] at ho <;> subst ho
    · exact congrArg Host.Outcome.next (State.issue_streamIssue hz hz2 ha hb hrow ht hst hin hsc hq hu h (.inl ⟨rfl, hz3⟩))
    · exact congrArg Host.Outcome.next (State.issue_streamIssue hz hz2 ha hb hrow ht hst hin hsc hq hu h (.inr ⟨rfl, hn⟩))
  case moves => exact fun bk hbk hz => ⟨execAmv_rows hbk hz, fun m => execAmvw_row hbk hz⟩
  case queues =>
    intro c w s q hq hu h hw
    refine ⟨fun e => ?amv, fun e => ?viop, fun e => ?aopen⟩
    case amv =>
      intro hz hun hvd hr
      have hok : (vUnused w true false false false false false false false false false true true && zf w 11 8 &&
        decide (vVD w + (vNM w + 1) ≤ 32) && decide (bitsOf w 6 0 + (vNM w + 1) ≤ 128)) = true := by simp [hz, hun, hvd, hr]
      have joins := fun r => State.issue_unit_joins hw hu h hok r hq
      have stalls := State.issue_unit_stalls hw hu h hok
      rw [e] at joins stalls
      exact ⟨fun hroom => congrArg Host.Outcome.next (joins _ hroom), fun hfull => congrArg Host.Outcome.next (stalls _ hfull)⟩
    case viop =>
      intro hun hn
      have hok : (vUnused w true true true false true true false true false false false false && (viopFn (vFN w) 0 0 0).isSome) = true := by
        simp [hun, viopFn_isSome hn]
      have joins := fun r => State.issue_unit_joins hw hu h hok r hq
      have stalls := State.issue_unit_stalls hw hu h hok
      rw [e] at joins stalls
      exact ⟨fun hroom => congrArg Host.Outcome.next (joins _ hroom), fun hfull => congrArg Host.Outcome.next (stalls _ hfull)⟩
    case aopen =>
      intro hun hr hroom
      have hok : (vUnused w false false false false false false false true false false false true && decide (bitsOf w 6 0 + vFN w ≤ 127)) =
        true := by simp [hun, hr]
      have joins := fun r => State.issue_unit_joins hw hu h hok r hq
      rw [e] at joins
      exact congrArg Host.Outcome.next (joins _ hroom)
  case start => exact fun c s he hd hk => congrArg Host.Outcome.next (if_pos (by simp [he, hd, hk]))
  case drain => exact fun c s n => State.drainUnits_done c n s
  case head =>
    intro c s u s' o rest t b g hq hb hu
    subst hb hu
    refine ⟨fun ht hbad hfp => ⟨fun how => ?ow, fun how hm => ?keep⟩, ?badMeta, ?wrongMode, ?untagged⟩
    case ow =>
      have streams {e : Option Nat} := State.streamHead_streams hq ht hbad hfp (by simp [how]) (s' := s') (e := e)
      simp only [State.tagged, how, if_true] at streams
      exact ⟨streams, streams⟩
    case keep =>
      have streams {e : Option Nat} := State.streamHead_streams hq ht hbad hfp (fun _ => hm) (s' := s') (e := e)
      simp only [State.tagged, how, Bool.false_eq_true, if_false] at streams
      exact ⟨streams, streams⟩
    case badMeta => exact State.streamHead_badMeta hq
    case wrongMode => exact State.streamHead_wrongMode hq
    case untagged => exact State.streamHead_untagged hq
  case pending => exact fun c s bit a => ⟨fun h => State.exceptQueued_first h bit a, fun p h => State.exceptQueued_later h bit a⟩

end Sys2Proof.Machine
end

section
/-! PROOFS. What a context load leaves of a core, its registers and its local store, and what a core that starts runs with (O17). -/

namespace Sys2Proof.Machine

/-! ### Context load (R107, R159) -/

/-- Every byte of a zeroed range reads 0. -/
theorem memGet_memZero_inside (m : List Host.Cell) {a n x : Nat} (h : a ≤ x ∧ x < a + n) : memGet (memZero m a n) x = 0 := by
  induction m with
  | nil => rfl
  | cons c t ih =>
    simp only [memZero] at ih
    simp only [memZero, List.filter_cons]
    split
    · next hc =>
      simp only [Bool.or_eq_true, decide_eq_true_eq] at hc
      rw [memGet, if_neg (by omega), ih]
    · exact ih

/-- A store in the local store of a core changes no byte below it. -/
theorem State.memGet_store_below (s : State) {a x : Nat} {bs : List Byte} (h : x < a) : memGet (s.store a bs).mem x = memGet s.mem x := by
  simp only [State.store]
  split
  · rw [memGet_memWrite_outside _ (by omega), memGet_memWrite_outside _ (by omega)]
  · exact memGet_memWrite_outside _ (by omega)

/-- A register that holds 0 still does after registers of its block were set to 0. -/
theorem State.reg_setReg_zero {s : State} {b : Blk} {i off : Nat} (h : s.reg b i off = 0) (j o : Nat) : (s.setReg b j o 0).reg b i off = 0 := by
  by_cases e : (⟨b, i, off⟩ : RegKey) = ⟨b, j, o⟩
  · obtain ⟨-, rfl, rfl⟩ := RegKey.mk.inj e
    exact State.reg_setReg_same ..
  · rw [State.reg_setReg_other _ _ _ _ _ _ _ _ e, h]

section ZeroRegs
variable (b : Blk) (j : Nat) (f : Nat → Nat)

/-- Registers set to 0 one after another. -/
def State.zeroRegs (s : State) (l : List Nat) : State := l.foldl (fun s i => s.setReg b j (f i) 0) s

theorem State.zeroRegs_core (s : State) (l : List Nat) (c : CoreId) : (s.zeroRegs b j f l).core c = s.core c := by
  induction l generalizing s with
  | nil => rfl
  | cons i l ih => exact ih _

theorem State.zeroRegs_mem (s : State) (l : List Nat) : (s.zeroRegs b j f l).mem = s.mem := by
  induction l generalizing s with
  | nil => rfl
  | cons i l ih => exact ih _

theorem State.reg_zeroRegs_zero {s : State} {off : Nat} (l : List Nat) (h : s.reg b j off = 0) : (s.zeroRegs b j f l).reg b j off = 0 := by
  induction l generalizing s with
  | nil => exact h
  | cons i l ih => exact ih (State.reg_setReg_zero h j (f i))

theorem State.reg_zeroRegs_mem (s : State) {l : List Nat} {i : Nat} (h : i ∈ l) : (s.zeroRegs b j f l).reg b j (f i) = 0 := by
  induction l generalizing s with
  | nil => cases h
  | cons k l ih =>
    obtain rfl | h := List.mem_cons.mp h
    · exact State.reg_zeroRegs_zero _ _ _ l (State.reg_setReg_same ..)
    · exact ih _ h

end ZeroRegs

section Load
variable (s : State) (c : CoreId)

/-- The local store of a core zeroed, with a reference input in its accord area. -/
def State.loadedStore : State :=
  ((s.barClear c).zero (lsBase c) 0x100000).store (lsBase c + 0xFC000) (accordBytes (((s.barClear c).core c).loads % 8))

/-- A core as a context load leaves it (R107, R159). -/
def State.loadedCore : CoreState :=
  { CoreState.reset with
    loadLt := (s.loadedStore c).now, moved := true, accInput := ((s.barClear c).core c).loads % 8, loads := ((s.barClear c).core c).loads + 1,
    jobWheel := ((s.loadedStore c).core c).jobWheel }

/-- The state before a context load clears the sticky bit of its agent. -/
def State.loadedRegs : State :=
  (((s.loadedStore c).setCore c (s.loadedCore c)).setReg .tc c.inst Reg.TC_FLAGS 0).zeroRegs .tc c.inst Reg.TC_SIGs (List.range 32)

theorem State.loadCore_eq : s.loadCore c = (s.loadedRegs c).setReg .fab c.die8 (Reg.FAB_PWSTICKYw (c.agent.toNat / 32))
    ((s.loadedRegs c).reg .fab c.die8 (Reg.FAB_PWSTICKYw (c.agent.toNat / 32)) &&& ~~~(BitVec.ofNat 32 (1 <<< (c.agent.toNat % 32)))) := rfl

theorem State.loadCore_core : (s.loadCore c).core c = s.loadedCore c := by
  rw [State.loadCore_eq, State.core_setReg, State.loadedRegs, State.zeroRegs_core, State.core_setReg, State.core_setCore_same]

/-- A context load changes no register of a core after its flags and counters. -/
theorem State.loadCore_reg_tc (off : Nat) : (s.loadCore c).reg .tc c.inst off = (s.loadedRegs c).reg .tc c.inst off := by
  rw [State.loadCore_eq, State.reg_setReg_other _ _ _ _ _ _ _ _ (by simp)]

theorem State.loadCore_flags : (s.loadCore c).reg .tc c.inst Reg.TC_FLAGS = 0 :=
  (s.loadCore_reg_tc c _).trans (State.reg_zeroRegs_zero _ _ _ _ (State.reg_setReg_same ..))

theorem State.loadCore_sig {sid : Nat} (h : sid < 32) : (s.loadCore c).sig c sid = 0 := by
  rw [State.sig, State.loadCore_reg_tc, State.loadedRegs, State.reg_zeroRegs_mem _ _ _ _ (List.mem_range.mpr h)]
  rfl

theorem State.loadedStore_below {off : Nat} (h : off < 0xFC000) : memGet (s.loadedStore c).mem (lsBase c + off) = 0 := by
  have hz : ∀ t : State, (t.zero (lsBase c) 0x100000).mem = memZero t.mem (lsBase c) 0x100000 := fun _ => rfl
  rw [State.loadedStore, State.memGet_store_below _ (Nat.add_lt_add_left h _), hz]
  exact memGet_memZero_inside _ (by omega)

theorem State.loadCore_localStore {off : Nat} (h : off < 0xFC000) : memGet (s.loadCore c).mem (lsBase c + off) = 0 := by
  rw [State.loadCore_eq, State.setReg_mem, State.loadedRegs, State.zeroRegs_mem, State.setReg_mem, State.setCore_mem,
    s.loadedStore_below c h]

end Load

/-! ### Start (R110, R118, R154, R279) -/

/-- Channels in error or stopped start afresh: no more of a core changes. -/
theorem CoreState.foldl_modChan_keeps {β : Type} (g : CoreState → β)
    (hg : ∀ (x : CoreState) (m : AMap (Fin 8) Chan), g { x with chans := m } = g x)
    (f : Fin 8 → Chan → Chan) (l : List (Fin 8)) (x : CoreState) : g (l.foldl (fun x ch => x.modChan ch (f ch)) x) = g x := by
  induction l generalizing x with
  | nil => rfl
  | cons ch l ih => rw [List.foldl_cons, ih]; exact hg _ _

/-- The frames current on the wheels, listed by wheel. -/
theorem get_map_finRange {n : Nat} {α : Type} (f : Fin n → α) (i : Fin n) (d : α) :
    AMap.get ((List.finRange n).map (fun i => (i, f i))) i d = f i := by
  have key : ∀ l : List (Fin n), i ∈ l → AMap.get (l.map (fun i => (i, f i))) i d = f i := by
    intro l
    induction l with
    | nil => exact fun h => nomatch h
    | cons j l ih =>
      intro h
      rw [List.map_cons, AMap.get]
      split
      · next e => rw [← e]
      · next e => exact ih ((List.mem_cons.mp h).resolve_left (Ne.symm e))
  exact key _ (List.mem_finRange i)

section Start
variable (s : State) (c : CoreId) (e : BitVec 20) (w : Fin 4)

/-- A core as a start leaves it but for its channels and its program counter. -/
def State.startedCore : CoreState :=
  { (s.core c).leave with
    run := true, halted := false, haltPending := false, idle := false, entry := none, errstop := false, ended := false, pend := none, more := [],
    ran := true, wait := .none, jobWheel := w, jobFrame := (List.finRange 4).map (fun i => (i, (s.wheel i).frame)), startLt := s.now,
    endFails := 0, arrBase := s.reg .tc c.inst Reg.TC_ARRBUSY }

/-- A channel as a start leaves it (R110). -/
def Chan.restarted (h : Chan) : Chan := if h.st == .error || h.st == .stopped then { Chan.idle with late := h.late } else h

theorem State.core_foldl_setReg (f : CoreId → Nat) (off : Nat) (v : Word) (l : List CoreId) (d : CoreId) :
    (l.foldl (fun s d => s.setReg .tc (f d) off v) s).core d = s.core d := by
  induction l generalizing s with
  | nil => rfl
  | cons x l ih => exact ih _

/-- A core that starts runs from its entry (R118, R279). -/
theorem State.startCore_core : (s.startCore c e w).core c =
    ((List.finRange 8).foldl (fun (x : CoreState) ch => x.modChan ch Chan.restarted) (s.startedCore c w)).transfer e := by
  unfold State.startCore
  rw [State.setCadCore, State.setFld, State.core_setReg, State.core_foldl_setReg, State.core_putCore_same]
  rfl

/-- What a start sets, outside the channels, the loops and the fetch lines, is what the core holds then. -/
theorem State.startCore_of_started {β : Type} (g : CoreState → β)
    (hc : ∀ (x : CoreState) (m : AMap (Fin 8) Chan), g { x with chans := m } = g x)
    (ht : ∀ x : CoreState, g (x.transfer e) = g x) : g ((s.startCore c e w).core c) = g (s.startedCore c w) := by
  rw [State.startCore_core, ht, CoreState.foldl_modChan_keeps g hc]

end Start

/-- Settles O17: the contents that a load and a start leave, read field by field. -/
theorem loadedAndStartedCores : Obligations.LoadedAndStartedCores := by
  unfold Obligations.LoadedAndStartedCores
  refine ⟨fun c s => ?loaded, fun c s e w v => ?started⟩
  case loaded =>
    rw [State.loadCore_core]
    exact ⟨rfl, rfl, rfl, rfl, rfl, rfl, rfl, rfl, fun _ => s.loadCore_sig c, s.loadCore_flags c, fun _ => s.loadCore_localStore c⟩
  case started =>
    have keeps {β : Type} (g : CoreState → β) := s.startCore_of_started c e w g
    refine ⟨keeps (·.run) (fun _ _ => rfl) (fun _ => rfl), keeps (·.halted) (fun _ _ => rfl) (fun _ => rfl),
      keeps (·.errstop) (fun _ _ => rfl) (fun _ => rfl), keeps (·.pend) (fun _ _ => rfl) (fun _ => rfl), ?_,
      keeps (·.jobWheel) (fun _ _ => rfl) (fun _ => rfl), ?_⟩
    · rw [State.startCore_core]
      rfl
    · exact (keeps (·.jobFrame.get v 0) (fun _ _ => rfl) (fun _ => rfl)).trans (get_map_finRange _ v 0)

end Sys2Proof.Machine
end

section
/-! PROOFS. Upkeep of memory: share windows, refresh, drift, temperature and write-backs (O26). -/

namespace Sys2Proof.Machine

/-! ### Share windows (R214 to R216, R232) -/

section Window
variable (b : Blk) (i : Nat)

/-- The used counts of an arbiter start again from 0. -/
def State.restartUse (s : State) (l : List (Fin 32)) : State :=
  l.foldl (fun (s : State) e => s.setShUse b i e { s.shUse b i e with used := 0 }) s

@[simp] theorem State.shUse_setShUse_same (s : State) (e : Fin 32) (u : ShareUse) : (s.setShUse b i e u).shUse b i e = u :=
  AMap.get_set_same ..

theorem State.shUse_setShUse_other (s : State) {e f : Fin 32} (u : ShareUse) (h : f ≠ e) :
    (s.setShUse b i e u).shUse b i f = s.shUse b i f :=
  AMap.get_set_other _ _ _ fun k => h (congrArg (fun t : Bool × Nat × Fin 32 => t.2.2) k)

theorem State.restartUse_regs (s : State) (l : List (Fin 32)) : (s.restartUse b i l).regs = s.regs := by
  induction l generalizing s with
  | nil => rfl
  | cons e l ih => exact ih _

theorem State.restartUse_mem (s : State) (l : List (Fin 32)) : (s.restartUse b i l).mem = s.mem := by
  induction l generalizing s with
  | nil => rfl
  | cons e l ih => exact ih _

/-- A restart leaves an entry's credit, and its used count when that is 0. -/
theorem State.restartUse_credit (s : State) (l : List (Fin 32)) (e : Fin 32) :
    ((s.restartUse b i l).shUse b i e).credit = (s.shUse b i e).credit ∧
      (e ∈ l ∨ (s.shUse b i e).used = 0 → ((s.restartUse b i l).shUse b i e).used = 0) := by
  induction l generalizing s with
  | nil => exact ⟨rfl, fun h => h.resolve_left List.not_mem_nil⟩
  | cons f l ih =>
    obtain ⟨hc, hu⟩ := ih (s.setShUse b i f { s.shUse b i f with used := 0 })
    by_cases he : e = f
    · subst he
      rw [State.shUse_setShUse_same] at hc hu
      exact ⟨hc, fun _ => hu (.inr rfl)⟩
    · rw [State.shUse_setShUse_other b i _ _ he] at hc hu
      exact ⟨hc, fun h => hu (h.imp_left fun hm => (List.mem_cons.mp hm).resolve_left he)⟩

/-- Expert writes of share entries that waited for the window to end take effect, but where firmware holds the entry (R232). -/
def State.applyShares (s : State) (l : List (Blk × Nat × Nat × Word)) : State :=
  l.foldl (fun (s : State) x => if s.resHeld b i x.2.2.1 then s.ignoredWrite b i else s.setReg b i x.2.2.1 x.2.2.2) s

theorem State.applyShares_keeps {β : Type} (g : State → β) (hi : ∀ s : State, g (s.ignoredWrite b i) = g s)
    (hs : ∀ (s : State) (off : Nat) (v : Word), g (s.setReg b i off v) = g s) (s : State) (l : List (Blk × Nat × Nat × Word)) :
    g (s.applyShares b i l) = g s := by
  induction l generalizing s with
  | nil => rfl
  | cons x l ih =>
    refine (ih _).trans ?_
    dsimp only
    split
    · exact hi s
    · exact hs s _ _

theorem State.shSum_congr {s t : State} (h : t.regs = s.regs) : t.shSum b i = s.shSum b i := by
  have hr (off : Nat) : t.reg b i off = s.reg b i off := by unfold State.reg; rw [h]
  have hsrc (e : Fin 32) : t.shSrc b i e = s.shSrc b i e := hr _
  have hmin (e : Fin 32) : t.minShare b i e = s.minShare b i e := congrArg (bitsOf · 15 8) (hr _)
  simp only [State.shSum, hsrc, hmin]

end Window

/-! ### Error bits (R432) -/

@[simp] theorem State.count_fab (s : State) (b : Blk) (i off n : Nat) : (s.count b i off n).fab = s.fab := rfl
@[simp] theorem State.setReg2_fab (s : State) (b : Blk) (i offL offH v : Nat) : (s.setReg2 b i offL offH v).fab = s.fab := rfl

@[simp] theorem State.pulse_fab (s : State) (isErr : Bool) : (s.pulse isErr).fab = s.fab := by
  cases isErr <;> simp [State.pulse, apply_ite State.fab]

@[simp] theorem State.noteEvent_fab (s : State) (b : Blk) (i bit info : Nat) : (s.noteEvent b i bit info).fab = s.fab := by
  simp [State.noteEvent, apply_ite State.fab]

/-- An error bit leaves the fabric as it is. -/
@[simp] theorem State.raise_fab (s : State) (b : Blk) (i bit addr info : Nat) : (s.raise b i bit addr info).fab = s.fab := by
  unfold State.raise
  cases errClass b bit <;> simp [apply_ite State.fab]

theorem State.reg_setReg_off (s : State) (b : Blk) (i : Nat) {off off' : Nat} (v : Word) (h : off' ≠ off) :
    (s.setReg b i off v).reg b i off' = s.reg b i off' :=
  State.reg_setReg_other _ _ _ _ _ _ _ _ fun e => h (congrArg RegKey.off e)

theorem bitOf_or_shiftLeft (v : Word) {n : Nat} (h : n < 32) : bitOf (v ||| BitVec.ofNat 32 (1 <<< n)) n = true := by
  rw [bitOf, BitVec.getLsbD_or, BitVec.getLsbD_ofNat]
  simp [h]

/-- An error of a memory controller or a port stands in its error register; the record of the first error is in others. -/
theorem State.raise_stat (s : State) {b : Blk} (hb : b = .mc ∨ b = .dp) (i : Nat) {bit : Nat} (h : bit < 32) (addr info : Nat) :
    bitOf ((s.raise b i bit addr info).reg b i 8) bit = true := by
  unfold State.raise
  dsimp only
  generalize (if bitOf (s.reg b i (errRegs b).stat) bit = true then _ else _ : State) = u
  have hset : bitOf ((u.setReg b i 8 (u.reg b i 8 ||| BitVec.ofNat 32 (1 <<< bit))).reg b i 8) bit = true := by
    rw [State.reg_setReg_same, bitOf_or_shiftLeft _ h]
  obtain rfl | rfl := hb
  all_goals
    simp only [errRegs]
    generalize u.setReg _ i 8 _ = t at hset ⊢
    split
    · exact hset
    · simpa [State.setReg2, State.reg_setReg_off] using hset

/-! ### The end of a share window -/

section Ended
variable (s : State) (isPort : Bool) (i : Nat)

/-- The state in which a window without missed shares has ended, before the sum of the shares is looked at. -/
def State.windowEnded : State :=
  let t := s.applyShares (arbBlk isPort) i (s.fab.shPend.filter (fun x => x.1 == arbBlk isPort && x.2.1 == i))
  ({ t with fab := { t.fab with shPend := t.fab.shPend.filter (fun x => !(x.1 == arbBlk isPort && x.2.1 == i)) } } : State).restartUse
    (arbBlk isPort) i (List.finRange 32)

theorem execShareWindowStart_none (h : arbiterOk isPort i = true) : execShareWindowStart isPort i [] s =
    .next (if 256 < (s.windowEnded isPort i).shSum (arbBlk isPort) i then (s.windowEnded isPort i).raise (arbBlk isPort) i 3 0 0
      else s.windowEnded isPort i) :=
  if_neg (by simp [h])

theorem State.windowEnded_mem : (s.windowEnded isPort i).mem = s.mem :=
  (State.restartUse_mem _ _ _ _).trans (State.applyShares_keeps _ _ State.mem (fun _ => rfl) (fun _ _ _ => rfl) _ _)

theorem State.windowEnded_shUse (e : Fin 32) : ((s.windowEnded isPort i).shUse (arbBlk isPort) i e).used = 0 ∧
    ((s.windowEnded isPort i).shUse (arbBlk isPort) i e).credit = (s.shUse (arbBlk isPort) i e).credit := by
  obtain ⟨hc, hu⟩ := State.restartUse_credit (arbBlk isPort) i _ (List.finRange 32) e
  refine ⟨hu (.inl (List.mem_finRange e)), hc.trans ?_⟩
  exact congrArg ShareUse.credit
    (State.applyShares_keeps _ _ (fun t => t.shUse (arbBlk isPort) i e) (fun _ => rfl) (fun _ _ _ => rfl) s _)

/-- With no expert write waiting the registers stand. -/
theorem State.windowEnded_regs (h : s.fab.shPend = []) : (s.windowEnded isPort i).regs = s.regs := by
  simp only [State.windowEnded, State.restartUse_regs, h]
  rfl

/-- SHARE_WINDOW_START without missed shares: the used counts are 0 and the credits stand; with no write waiting, an excess of the
guarantees is recorded, and otherwise no register changes. -/
theorem execShareWindowStart_ended (h : arbiterOk isPort i = true) : ∃ t, execShareWindowStart isPort i [] s = .next t ∧
    (∀ e, (t.shUse (arbBlk isPort) i e).used = 0 ∧ (t.shUse (arbBlk isPort) i e).credit = (s.shUse (arbBlk isPort) i e).credit) ∧
    (s.fab.shPend = [] → (256 < s.shSum (arbBlk isPort) i → bitOf (t.reg (arbBlk isPort) i 8) 3 = true) ∧
      (s.shSum (arbBlk isPort) i ≤ 256 → t.regs = s.regs)) ∧ t.mem = s.mem := by
  have hb : arbBlk isPort = .mc ∨ arbBlk isPort = .dp := by cases isPort <;> simp [arbBlk]
  have hsum (hp : s.fab.shPend = []) : (s.windowEnded isPort i).shSum (arbBlk isPort) i = s.shSum (arbBlk isPort) i :=
    State.shSum_congr _ _ (s.windowEnded_regs isPort i hp)
  refine ⟨_, execShareWindowStart_none s isPort i h, ?_⟩
  split
  · next hx =>
    refine ⟨fun e => ?_, fun hp => ⟨fun _ => State.raise_stat _ hb _ (by decide) _ _, fun hle => ?_⟩, ?_⟩
    · rw [State.shUse, State.raise_fab]
      exact s.windowEnded_shUse isPort i e
    · rw [hsum hp] at hx
      omega
    · rw [State.raise_mem, State.windowEnded_mem]
  · next hx =>
    refine ⟨s.windowEnded_shUse isPort i, fun hp => ⟨fun hlt => ?_, fun _ => s.windowEnded_regs isPort i hp⟩, s.windowEnded_mem isPort i⟩
    rw [hsum hp] at hx
    exact absurd hlt hx

end Ended

/-! ### Controllers and write-backs (R106, R197, R201 to R206) -/

/-- A corrected word that is due loses its latent error. -/
theorem State.writeBack_due {s : State} {g : Nat} (hg : g ∈ s.fab.eccWb) (he : s.fab.ecc.get? g = some .single) :
    s.writeBack g = { s with fab := { s.fab with eccWb := s.fab.eccWb.filter (· != g), ecc := s.fab.ecc.erase g } } := by
  rw [State.writeBack, if_pos (by simpa using hg), if_pos he]

/-- Settles O26: each clause is the completion of one command, stated above for it or at hand from its equation. -/
theorem memoryUpkeepCommandsComplete : Obligations.MemoryUpkeepCommandsComplete := by
  unfold Obligations.MemoryUpkeepCommandsComplete
  refine fun s i => ⟨fun isPort h => execShareWindowStart_ended s isPort i h, fun hm => ⟨?refresh, ?drift, ?temp⟩, ?writeBack⟩
  case refresh => exact congrArg Host.Outcome.next (if_pos hm)
  case drift => exact congrArg Host.Outcome.next (if_pos hm)
  case temp => exact fun temp ht => congrArg Host.Outcome.next (if_pos (by rw [hm, ht]; rfl))
  case writeBack =>
    intro g hg he t ht
    subst ht
    rw [← State.writeBack_due hg he]
    refine ⟨fun d h => ?_, fun c off h => ?_, fun cl off h => ?_⟩
    · show execDramCeWriteback g s = _
      simp only [execDramCeWriteback, h]
    · show execLsEccWriteback g s = _
      simp only [execLsEccWriteback, h]
    · show execCsEccWriteback g s = _
      simp only [execCsEccWriteback, h]

end Sys2Proof.Machine
end

section
/-! PROOFS. The package right after reset (O59). -/

namespace Sys2Proof.Machine

/-- A register right after reset holds the reset value of its table. -/
theorem State.reg_reset (b : Blk) (i off : Nat) : State.reset.reg b i off = regReset ⟨b, i, off⟩ := rfl

/-- READY is low in the reset value of PWR_STAT (R397). -/
theorem fld_pwrStat_reset : State.reset.fld .pwr 0 Reg.PWR_STAT 0 0 = 0 := by
  rw [State.fld, State.reg_reset]
  decide

/-! No core, no wheel and no pair is listed right after reset, so each is in its own reset state. -/

theorem State.core_reset (c : CoreId) : State.reset.core c = CoreState.reset := rfl
theorem State.wheel_reset (w : Fin 4) : State.reset.wheel w = Wheel.reset := rfl
theorem State.ring_reset (p : Fin 64) : State.reset.ring p = Ring.closed := rfl

/-- The memory right after reset lists no byte, which is canonical. -/
theorem State.safe_reset : State.reset.safe := rfl

/-- Settles O59: nothing is listed right after reset but what the part itself fixes. -/
theorem resetLeavesThePackageOff : Obligations.ResetLeavesThePackageOff := by
  unfold Obligations.ResetLeavesThePackageOff
  refine ⟨State.safe_reset, rfl, rfl, fld_pwrStat_reset, rfl, rfl, rfl, rfl, rfl, fun _ => rfl, fun c => ?core, fun w => ?wheel, fun p => ?ring⟩
  case core => rw [State.core_reset]; rfl
  case wheel => rw [State.wheel_reset]; rfl
  case ring => rw [State.ring_reset]; rfl

end Sys2Proof.Machine
end

section
/-! PROOFS. The register files: what a write to an S or P register leaves to read (O3). -/

namespace Sys2Proof.Machine

section Registers
variable (x : CoreState)

theorem CoreState.setS_zero (v : Word) : x.setS 0 v = x := rfl

theorem CoreState.getS_zero : x.getS 0 = 0 := rfl

theorem CoreState.setP_zero (v : BitVec 64) : x.setP 0 v = x := rfl

theorem CoreState.getP_zero : x.getP 0 = BitVec.allOnes 64 := rfl

/-- A write to an S register changes no other. -/
theorem CoreState.getS_setS_other {i j : Nat} (h : i % 32 ≠ j % 32) (v : Word) : (x.setS i v).getS j = x.getS j := by
  have hk : Fin.ofNat 32 j ≠ Fin.ofNat 32 i := fun e => h (congrArg Fin.val e).symm
  unfold CoreState.setS
  split
  · rfl
  · simp only [CoreState.getS, AMap.get_set_other _ _ _ hk]

theorem CoreState.getP_setP_same {i : Nat} (h : i % 8 ≠ 0) (v : BitVec 64) : (x.setP i v).getP i = v := by
  simp [CoreState.setP, CoreState.getP, h]

/-- A write to a P register changes no other. -/
theorem CoreState.getP_setP_other {i j : Nat} (h : i % 8 ≠ j % 8) (v : BitVec 64) : (x.setP i v).getP j = x.getP j := by
  have hk : Fin.ofNat 8 j ≠ Fin.ofNat 8 i := fun e => h (congrArg Fin.val e).symm
  unfold CoreState.setP
  split
  · rfl
  · simp only [CoreState.getP, AMap.get_set_other _ _ _ hk]

end Registers

/-- Settles O3: register numbers below the size of their file are distinct keys of it. -/
theorem hardWiredRegisters : Obligations.HardWiredRegisters := by
  unfold Obligations.HardWiredRegisters
  refine fun x i j hi hj => ⟨x.setS_zero, x.getS_zero, x.setP_zero, x.getP_zero, ?sSame, ?sOther, ?pSame, ?pOther⟩
  case sSame => exact fun h => x.getS_setS_of_ne_zero (by omega)
  case sOther => exact fun h => x.getS_setS_other (by omega)
  case pSame => exact fun h8 h => x.getP_setP_same (by omega)
  case pOther => exact fun hi8 hj8 h => x.getP_setP_other (by omega)

end Sys2Proof.Machine
end

section
/-! PROOFS. Predicate instructions: the completion of each, and which lanes a predicate of first lanes has (O2). -/

namespace Sys2Proof.Machine

section Predicates
variable {s : State} {c : CoreId} {w : BitVec 56}

/-- The functions of POP by their code (R140). -/
def popFn (fn : Nat) (a b : BitVec 64) : BitVec 64 :=
  match fn with
  | 0 => a &&& b
  | 1 => a ||| b
  | 2 => a ^^^ b
  | 3 => a &&& ~~~b
  | _ => ~~~a

theorem execPop_value (hr : rsvR w = true) (hd : iRD w < 8) (ha : iRS1 w < 8) (hb : iRS2 w < 8) {fn : Nat} (hn : fnR w = fn) (hfn : fn < 5)
    (h : s.ready c 0x18 w = true) : execPop c w s =
      .next (s.retire c ((s.core c).setP (iRD w) (popFn fn ((s.core c).getP (iRS1 w)) ((s.core c).getP (iRS2 w))))) := by
  subst hn
  exact congrArg Host.Outcome.next (State.issue_legal_ok h (by simp [hr, hd, ha, hb, hfn]) _)

section Plane
variable (hr : rsvI w = true) (hd : iRD w < 8) (hi : (iIMM w).toNat ≤ 64) (h : s.ready c 0x19 w = true)
include hr hd hi h

theorem execPlane_immediate (hn : fnI w = 0) :
    execPlane c w s = .next (s.retire c ((s.core c).setP (iRD w) (firstLanes (iIMM w).toNat))) := by
  simp only [execPlane, hn, if_true]
  exact congrArg Host.Outcome.next (State.issue_legal_ok h (by simp [hr, hd, hi]) _)

theorem execPlane_register (hn : fnI w = 1) :
    execPlane c w s = .next (s.retire c ((s.core c).setP (iRD w) (firstLanes (Nat.min ((s.core c).getS (iRS1 w)).toNat 64)))) := by
  simp only [execPlane, hn, Nat.one_ne_zero, if_false]
  exact congrArg Host.Outcome.next (State.issue_legal_ok h (by simp [hr, hd, hi]) _)

end Plane

section Pmovs
variable (hr : rsvR w = true) (ha : iRS1 w < 8)
include hr ha

theorem execPmovs_low (hn : fnR w = 0) (h : s.ready c 0x1A w = true) :
    execPmovs c w s = .next (s.retire c ((s.core c).setS (iRD w) (((s.core c).getP (iRS1 w)).extractLsb' 0 32))) := by
  rw [← BitVec.setWidth_eq_extractLsb' (show 32 ≤ 64 by decide)]
  simp only [execPmovs, hn]
  exact congrArg Host.Outcome.next (State.issue_legal_ok h (by simp [hr, ha]) _)

theorem execPmovs_high (hn : fnR w = 1) (h : s.ready c 0x1A w = true) :
    execPmovs c w s = .next (s.retire c ((s.core c).setS (iRD w) (((s.core c).getP (iRS1 w)).extractLsb' 32 32))) := by
  rw [show ((s.core c).getP (iRS1 w)).extractLsb' 32 32 = ((s.core c).getP (iRS1 w) >>> 32).setWidth 32 from
    BitVec.setWidth_ushiftRight_eq_extractLsb.symm]
  simp only [execPmovs, hn]
  exact congrArg Host.Outcome.next (State.issue_legal_ok h (by simp [hr, ha]) _)

theorem execPmovs_popcount (hn : fnR w = 2) (h : s.ready c 0x1A w = true) :
    execPmovs c w s = .next (s.retire c ((s.core c).setS (iRD w) (BitVec.ofNat 32 (popcount ((s.core c).getP (iRS1 w)))))) := by
  simp only [execPmovs, hn]
  exact congrArg Host.Outcome.next (State.issue_legal_ok h (by simp [hr, ha]) _)

end Pmovs

/-- Two words side by side are their bits in a double word. -/
theorem append_word_eq_or (hi lo : Word) : hi ++ lo = (hi.setWidth 64 <<< 32) ||| lo.setWidth 64 := by
  ext i h
  simp only [BitVec.getElem_append, BitVec.getElem_or, BitVec.getElem_shiftLeft, BitVec.getElem_setWidth]
  by_cases hl : i < 32
  · simp [hl, BitVec.getLsbD_eq_getElem]
  · simp [hl, BitVec.getLsbD_of_ge lo i (by omega), BitVec.getLsbD_eq_getElem (show i - 32 < 32 by omega)]

theorem execPfroms_words (hr : rsvR w = true) (hd : iRD w < 8) (h : s.ready c 0x1B w = true) :
    execPfroms c w s = .next (s.retire c ((s.core c).setP (iRD w) ((s.core c).getS (iRS2 w) ++ (s.core c).getS (iRS1 w)))) := by
  rw [append_word_eq_or]
  exact congrArg Host.Outcome.next (State.issue_legal_ok h (by simp [hr, hd]) _)

end Predicates

theorem firstLanes_getLsbD (n : Nat) {i : Nat} (h : i < 64) : (firstLanes n).getLsbD i = decide (i < n) := by
  rw [firstLanes, BitVec.getLsbD_ofNat, Nat.testBit_two_pow_sub_one, decide_eq_true h, Bool.true_and]

/-- Settles O2: each clause is the completion of one instruction, stated above for it. -/
theorem predicateInstructionsComplete : Obligations.PredicateInstructionsComplete := by
  unfold Obligations.PredicateInstructionsComplete
  refine ⟨fun c w s => ⟨?pop, ?plane, ?pmovs, ?pfroms⟩, fun n i _ hi => firstLanes_getLsbD n hi⟩
  case pop =>
    intro hr hd ha hb
    have pop {fn : Nat} (hfn : fn < 5) (hn : fnR w = fn) := execPop_value (s := s) (c := c) hr hd ha hb hn hfn
    exact ⟨pop (by decide), pop (by decide), pop (by decide), pop (by decide), pop (by decide)⟩
  case plane =>
    exact fun hr hd hi => ⟨fun hn h => execPlane_immediate hr hd hi h hn, fun hn h => execPlane_register hr hd hi h hn⟩
  case pmovs => exact fun hr ha => ⟨execPmovs_low hr ha, execPmovs_high hr ha, execPmovs_popcount hr ha⟩
  case pfroms => exact execPfroms_words

end Sys2Proof.Machine
end

section
/-! PROOFS. Ill-formed scalar, branch and predicate words raise ILLEGAL (O4). -/

namespace Sys2Proof.Machine

/-- An ill-formed word has no effect of its own (R129, R163). -/
theorem State.legal_illegal (s : State) (c : CoreId) {ok : Bool} (hok : ok = false) (r : Issue) :
    s.legal c ok r = .exc xILLEGAL (s.pcAddr c) := by
  rw [State.legal_eq, hok]; rfl

section Illegal
variable {s : State} {c : CoreId} {w : BitVec 56}

theorem State.issue_illegal {op : Nat} (h : s.ready c op w = true) {ok : Bool} (hok : ok = false) (r : Issue) :
    s.issue c op w (s.legal c ok r) = s.except c 3 (s.pcAddr c) := by
  rw [State.legal_illegal _ _ hok, State.issue_exc h]

/-! Where a code may be reserved besides, both ways to be ill-formed come to the same. -/

theorem execSop_illFormed (hr : rsvR w = false) (h : s.ready c 0x04 w = true) : execSop c w s = .next (s.except c 3 (s.pcAddr c)) := by
  simp only [execSop, State.legal_illegal _ _ hr]
  split <;> exact congrArg Host.Outcome.next (State.issue_exc h _ _)

theorem execSop_reserved (hn : fnR w = 15) (h : s.ready c 0x04 w = true) : execSop c w s = .next (s.except c 3 (s.pcAddr c)) := by
  simp only [execSop, hn, scalarFn]
  exact congrArg Host.Outcome.next (State.issue_exc h _ _)

theorem execSopi_illFormed (hr : rsvI w = false) (h : s.ready c 0x05 w = true) : execSopi c w s = .next (s.except c 3 (s.pcAddr c)) := by
  have hok : (rsvI w && fnI w != 1) = false := by rw [hr, Bool.false_and]
  simp only [execSopi, State.legal_illegal _ _ hok]
  split <;> exact congrArg Host.Outcome.next (State.issue_exc h _ _)

theorem execSrd_illFormed (hr : rsvI w = false) (h : s.ready c 0x06 w = true) : execSrd c w s = .next (s.except c 3 (s.pcAddr c)) := by
  simp only [execSrd, State.legal_illegal _ _ hr]
  split <;> exact congrArg Host.Outcome.next (State.issue_exc h _ _)

theorem execSrd_undefined (hv : s.special c (iIMM w).toNat = none) (h : s.ready c 0x06 w = true) :
    execSrd c w s = .next (s.except c 3 (s.pcAddr c)) := by
  simp only [execSrd, hv]
  exact congrArg Host.Outcome.next (State.issue_exc h _ _)

section Branch
variable (hw : (rsvB w && tgtOk w) = false)
include hw

theorem execBr_illFormed (h : s.ready c 0x10 w = true) : execBr c w s = .next (s.except c 3 (s.pcAddr c)) := by
  simp only [execBr, State.legal_illegal _ _ hw]
  split <;> exact congrArg Host.Outcome.next (State.issue_exc h _ _)

theorem State.loopStart_illFormed (count : Word) : s.loopStart c w count = .exc xILLEGAL (s.pcAddr c) := by
  simp [State.loopStart, hw]

theorem execLoop_illFormed (h : s.ready c 0x14 w = true) : execLoop c w s = .next (s.except c 3 (s.pcAddr c)) := by
  rw [execLoop, State.loopStart_illFormed hw, State.issue_exc h]

end Branch
end Illegal

/-- Settles O4: each clause is one instruction whose word is ill-formed. -/
theorem illFormedWordsRaiseIllegal : Obligations.IllFormedWordsRaiseIllegal := by
  unfold Obligations.IllFormedWordsRaiseIllegal
  refine fun c w s => ⟨fun hr => ⟨?nop, ?waitc, execSrd_illFormed hr, execSopi_illFormed hr, ?aaddi, ?plane⟩,
    fun hr => ⟨execSop_illFormed hr, ?aadd, ?pop, ?asets⟩, fun hw => ?branch, execSop_reserved, execSrd_undefined⟩
  case nop | waitc => exact fun h => congrArg Host.Outcome.next (State.issue_illegal h hr _)
  case aaddi | plane | aadd | pop | asets => exact fun h => congrArg Host.Outcome.next (State.issue_illegal h (by simp [hr]) _)
  case branch =>
    have hw := Bool.and_eq_false_iff.mpr hw
    exact ⟨execBr_illFormed hw, fun h => congrArg Host.Outcome.next (State.issue_illegal h hw _), execLoop_illFormed hw⟩

end Sys2Proof.Machine
end

section
/-! PROOFS. Loads and stores of a core: when each completes, waits or fails, and the completion of every form (O5). -/

namespace Sys2Proof.Machine

section Forms
variable {s t : State} {c : CoreId} {op : Nat} {w : BitVec 56} {ok : Bool} {a : Nat} {bs : List Byte}

/-! ### Loads (R132, R142, R197) -/

/-- A load waits for a queued instruction that still has to write the bytes (R132). -/
theorem State.coreLoad_stall {n : Nat} (ha : a % (if n = 256 then 64 else n) = 0) (ho : ownRange c a n = true)
    (hu : (s.core c).unitWrites a n = true) (k : State → Nat → Issue) : s.coreLoad c a n k = .stall s := by
  simp only [ownRange] at ho
  simp [State.coreLoad, ha, ho, hu]

/-- A load that meets an uncorrectable word fails with its address (R197). -/
theorem State.coreLoad_fail {n g : Nat} (ha : a % (if n = 256 then 64 else n) = 0) (ho : ownRange c a n = true)
    (hu : (s.core c).unitWrites a n = false) (h : s.coreRead a n = (t, bs, some g)) (k : State → Nat → Issue) :
    s.coreLoad c a n k = .fail t xLSECC g := by
  simp only [ownRange] at ho
  simp [State.coreLoad, ha, ho, hu, h]

section Load
variable {n : Nat} (ha : s.ea c w % (if n = 256 then 64 else n) = 0) (ho : ownRange c (s.ea c w) n = true)
  (hu : (s.core c).unitWrites (s.ea c w) n = false) (hb : s.coreRead (s.ea c w) n = (t, bs, none)) (h : s.ready c op w = true)
include ha ho hu hb h

theorem State.issue_coreLoad (hok : ok = true) (k : State → Nat → State) :
    s.issue c op w (s.legal c ok (s.coreLoad c (s.ea c w) n fun u v => .ok (k u v))) = s.completed c (k t (leNat bs)) := by
  rw [State.legal_ok _ _ hok, State.coreLoad_read ha ho hu hb, State.issue_ok h]

variable (hr : rsvM w = true) (hs : iRS1 w < 16)
include hr hs

theorem State.issue_loadS_signed : s.issue c op w (s.loadS c w n true) =
    s.completed c (t.putCore c ((t.core c).setS (iRD w) (BitVec.ofInt 32 (sval (8 * n) (leNat bs))))) :=
  State.issue_coreLoad ha ho hu hb h (by simp [hr, hs]) fun u v => u.putCore c ((u.core c).setS (iRD w) (BitVec.ofInt 32 (sval (8 * n) v)))

theorem State.issue_loadS_unsigned : s.issue c op w (s.loadS c w n false) =
    s.completed c (t.putCore c ((t.core c).setS (iRD w) (BitVec.ofNat 32 (leNat bs)))) := by
  rw [← BitVec.ofInt_natCast]
  exact State.issue_coreLoad ha ho hu hb h (by simp [hr, hs]) fun u v => u.putCore c ((u.core c).setS (iRD w) (BitVec.ofInt 32 (v : Int)))

end Load

/-! ### Stores (R132, R142) -/

/-- A store waits for a queued instruction that still touches the bytes (R132). -/
theorem State.coreStore_stall {align : Nat} (ha : a % align = 0) (ho : ownRange c a bs.length = true)
    (hacc : ¬(inOwnLs c a bs.length = true ∧ inAccord (a - lsBase c + bs.length - 1) = true)) (hu : s.inUse c a bs.length = true) :
    s.coreStore c a align bs = .stall s := by
  simp only [ownRange] at ho
  simp only [State.inUse] at hu
  simp [State.coreStore, ha, ho, hacc, hu]

theorem State.storeV_ok {n : Nat} (hr : rsvM w = true) (hs : iRS1 w < 16) (hm : s.mayStore c (s.ea c w) n n) (v : Nat) :
    s.storeV c w n v = .ok (s.store (s.ea c w) (leBytes n v)) := by
  rw [State.storeV, State.legal_ok _ _ (by simp [hr, hs]), State.coreStore_ok (by rwa [leBytes_length])]

theorem State.issue_storeV {n : Nat} (hr : rsvM w = true) (hs : iRS1 w < 16) (hm : s.mayStore c (s.ea c w) n n)
    (h : s.ready c op w = true) (v : Nat) : s.issue c op w (s.storeV c w n v) = s.completed c (s.store (s.ea c w) (leBytes n v)) := by
  rw [State.storeV_ok hr hs hm, State.issue_ok h]

theorem execSta_stores (hr : rsvM w = true) (hs : iRS1 w < 16) (hd : iRD w < 16) (hm : s.mayStore c (s.ea c w) 8 8)
    (h : s.ready c 0x2B w = true) :
    execSta c w s = .next (s.completed c (s.store (s.ea c w) (leBytes 8 ((s.core c).getA (iRD w)).toNat))) := by
  rw [execSta, State.legal_ok _ _ (decide_eq_true hd), State.issue_storeV hr hs hm h]

/-- VST stores its lanes where 256 bytes may be stored. -/
theorem execVst_stores (hr : rsvM w = true) (hs : iRS1 w < 16) (hp : iRS2 w < 8) (hm : s.mayStore c (s.ea c w) 64 256)
    (h : s.ready c 0x2D w = true) : execVst c w s =
      .next (s.completed c (s.storeLanes (s.ea c w) ((s.core c).getP (iRS2 w)) ((s.core c).getV (iRD w)))) := by
  have hst : s.coreStore c (s.ea c w) 64 (List.replicate 256 0) = .ok (s.store (s.ea c w) (List.replicate 256 0)) :=
    State.coreStore_ok (by rwa [List.length_replicate])
  simp only [execVst, hst]
  exact congrArg Host.Outcome.next (State.issue_legal_ok h (by simp [hr, hs, hp]) _)

theorem execStw_stalls (hr : rsvM w = true) (hs : iRS1 w < 16) (ha : s.ea c w % 4 = 0) (ho : ownRange c (s.ea c w) 4 = true)
    (hacc : ¬(inOwnLs c (s.ea c w) 4 = true ∧ inAccord (s.ea c w - lsBase c + 3) = true)) (hu : s.inUse c (s.ea c w) 4 = true)
    (h : s.ready c 0x2A w = true) : execStw c w s = .next (s.putCore c { s.core c with stalled := true }) := by
  have hlast : s.ea c w - lsBase c + 4 - 1 = s.ea c w - lsBase c + 3 := by omega
  rw [execStw, State.storeV, State.coreStore_stall ha (by rwa [leBytes_length]) (by rwa [leBytes_length, hlast]) (by rwa [leBytes_length]),
    State.issue_legal_stall h (by simp [hr, hs])]

end Forms

/-- Settles O5: each clause is the completion, the wait or the failure of one form, stated above for it. -/
theorem loadsAndStoresComplete : Obligations.LoadsAndStoresComplete := by
  unfold Obligations.LoadsAndStoresComplete
  refine ⟨fun c w s t n bs hr hs ho hu hb => ⟨?byte, ?half, ?word, ?address, ?vector⟩,
    fun c w s t bs g hr hs ha ho h => ⟨?stalls, ?fails⟩, fun s a n => State.coreRead_clean, fun c w s hr hs => ⟨?stb, ?sth, ?stw, ?sta, ?vst⟩,
    fun c w s hr hs ha ho hacc hu h => execStw_stalls hr hs ha ho hacc hu h⟩
  case byte =>
    rintro rfl
    have ha := Nat.mod_one (s.ea c w)
    exact ⟨fun h => congrArg Host.Outcome.next (State.issue_loadS_signed ha ho hu hb h hr hs),
      fun h => congrArg Host.Outcome.next (State.issue_loadS_unsigned ha ho hu hb h hr hs)⟩
  case half =>
    rintro rfl ha
    exact ⟨fun h => congrArg Host.Outcome.next (State.issue_loadS_signed ha ho hu hb h hr hs),
      fun h => congrArg Host.Outcome.next (State.issue_loadS_unsigned ha ho hu hb h hr hs)⟩
  case word =>
    rintro rfl ha h
    exact congrArg Host.Outcome.next (State.issue_loadS_unsigned ha ho hu hb h hr hs)
  case address =>
    rintro rfl ha hd h
    exact congrArg Host.Outcome.next (State.issue_coreLoad ha ho hu hb h (by simp [hr, hs, hd])
      fun u v => u.putCore c ((u.core c).setA (iRD w) (BitVec.ofNat 48 v)))
  case vector =>
    rintro rfl ha h
    exact congrArg Host.Outcome.next (State.issue_coreLoad ha ho hu hb h (by simp [hr, hs])
      fun u v => u.putCore c ((u.core c).setV (iRD w) (BitVec.ofNat 2048 v)))
  case stalls =>
    intro hu
    show execLdw c w s = _
    rw [execLdw, State.loadS, State.coreLoad_stall ha ho hu, State.issue_legal_stall h (by simp [hr, hs])]
  case fails =>
    intro hu hb
    show execLdw c w s = _
    rw [execLdw, State.loadS, State.coreLoad_fail ha ho hu hb, State.legal_ok _ _ (by simp [hr, hs]), State.issue_fail h]
  case stb | sth | stw => exact fun hm h => congrArg Host.Outcome.next (State.issue_storeV hr hs hm h _)
  case sta => exact execSta_stores hr hs
  case vst => exact execVst_stores hr hs

end Sys2Proof.Machine
end

section
/-! PROOFS. Atomics on a clean word of the own cluster store (O6). -/

namespace Sys2Proof.Machine

section Atomic
variable {s : State} {c : CoreId} {w : BitVec 56} (hr : rsvM w = true) (hs : iRS1 w < 16) (ha : s.ea c w % 4 = 0)
  (ho : inOwnCs c (s.ea c w) 4 = true) (hc : s.clean (s.ea c w) 4)
include hr hs ha ho hc

/-- An atomic that stores: the old word goes to S[RD], and no lease starts on a word that is no lock word (R141, R453). -/
theorem State.amo_stores (hl : ∀ l ∈ s.flt.lockWords, l.1 ≠ s.ea c w) {f : Word → Option Word} {v : Word}
    (hf : f (s.load32 (s.ea c w)) = some v) : s.amo c w f =
      .ok ((s.store32 (s.ea c w) v).putCore c ((s.core c).setS (iRD w) (s.load32 (s.ea c w)))) := by
  have hgo : ¬(s.ea c w % 4 ≠ 0 ∨ (!inOwnCs c (s.ea c w) 4) = true) := by simp [ha, ho]
  have plain : ¬(s.store32 (s.ea c w) v).flt.lockWords.any (fun l => l.1 == s.ea c w) = true := by
    rw [List.any_eq_true]
    exact fun ⟨l, hm, e⟩ => hl l hm (beq_iff_eq.mp e)
  rw [State.load32, State.loadNat] at hf ⊢
  rw [State.amo, State.legal_ok _ _ (by simp [hr, hs]), if_neg hgo, State.coreRead_clean hc]
  simp only [hf]
  rw [if_neg fun h => plain h.2.2]
  rfl

/-- An atomic that stores nothing only reads (R141). -/
theorem State.amo_reads {f : Word → Option Word} (hf : f (s.load32 (s.ea c w)) = none) :
    s.amo c w f = .ok (s.putCore c ((s.core c).setS (iRD w) (s.load32 (s.ea c w)))) := by
  have hgo : ¬(s.ea c w % 4 ≠ 0 ∨ (!inOwnCs c (s.ea c w) 4) = true) := by simp [ha, ho]
  rw [State.load32, State.loadNat] at hf ⊢
  rw [State.amo, State.legal_ok _ _ (by simp [hr, hs]), if_neg hgo, State.coreRead_clean hc]
  simp only [hf]
  rfl

end Atomic

/-- Settles O6: AMOADD and AMOSWAP always store, AMOCAS when the old word is the comparand. -/
theorem atomicsComplete : Obligations.AtomicsComplete := by
  unfold Obligations.AtomicsComplete
  intro c w s hr hs ha ho hc hl
  have stores {op : Nat} {f : Word → Option Word} {v : Word} (hf : f (s.load32 (s.ea c w)) = some v) (h : s.ready c op w = true) :
      s.issue c op w (s.amo c w f) =
        s.completed c ((s.store32 (s.ea c w) v).putCore c ((s.core c).setS (iRD w) (s.load32 (s.ea c w)))) := by
    rw [State.amo_stores hr hs ha ho hc hl hf, State.issue_ok h]
  refine ⟨fun h => congrArg Host.Outcome.next (stores rfl h), fun h => congrArg Host.Outcome.next (stores rfl h),
    fun e h => congrArg Host.Outcome.next (stores (if_pos e) h), fun e h => congrArg Host.Outcome.next ?_⟩
  rw [State.amo_reads hr hs ha ho hc (if_neg e), State.issue_ok h, State.retire]

end Sys2Proof.Machine
end

section
/-! PROOFS. Loads, stores and atomics at bad addresses raise ACCESS (O7). -/

namespace Sys2Proof.Machine

section Access
variable {s : State} {c : CoreId} {op : Nat} {w : BitVec 56} {ok : Bool} {a : Nat}

theorem State.issue_legal_exc (h : s.ready c op w = true) (hok : ok = true) (b : Nat) :
    s.issue c op w (s.legal c ok (.exc b a)) = s.except c b a := by
  rw [State.legal_ok _ _ hok, State.issue_exc h]

theorem State.coreLoad_bad {n : Nat} (hbad : a % (if n = 256 then 64 else n) ≠ 0 ∨ ownRange c a n = false) (k : State → Nat → Issue) :
    s.coreLoad c a n k = .exc xACCESS a :=
  if_pos (by simpa only [ownRange, Bool.not_eq_true'] using hbad)

theorem State.coreStore_bad {align : Nat} {bs : List Byte} (hbad : a % align ≠ 0 ∨ ownRange c a bs.length = false) :
    s.coreStore c a align bs = .exc xACCESS a :=
  if_pos (by rw [← or_assoc]; exact .inl (by simpa only [ownRange, Bool.not_eq_true'] using hbad))

/-- A store into the accord area is refused (R156). -/
theorem State.coreStore_accord {align : Nat} {bs : List Byte} (hls : inOwnLs c a bs.length = true)
    (hacc : inAccord (a - lsBase c + bs.length - 1) = true) : s.coreStore c a align bs = .exc xACCESS a :=
  if_pos (.inr (.inr ⟨hls, hacc⟩))

variable (hr : rsvM w = true) (hs : iRS1 w < 16)
include hr hs

theorem State.issue_load_bad {n : Nat} (hbad : s.ea c w % (if n = 256 then 64 else n) ≠ 0 ∨ ownRange c (s.ea c w) n = false)
    (h : s.ready c op w = true) (signed : Bool) : s.issue c op w (s.loadS c w n signed) = s.except c 2 (s.ea c w) := by
  rw [State.loadS, State.coreLoad_bad hbad, State.issue_legal_exc h (by simp [hr, hs])]

theorem State.storeV_bad {n : Nat} (hbad : s.ea c w % n ≠ 0 ∨ ownRange c (s.ea c w) n = false) (v : Nat) :
    s.storeV c w n v = .exc xACCESS (s.ea c w) := by
  rw [State.storeV, State.coreStore_bad (by rwa [leBytes_length]), State.legal_ok _ _ (by simp [hr, hs])]

theorem State.issue_store_bad {n : Nat} (hbad : s.ea c w % n ≠ 0 ∨ ownRange c (s.ea c w) n = false) (h : s.ready c op w = true) (v : Nat) :
    s.issue c op w (s.storeV c w n v) = s.except c 2 (s.ea c w) := by
  rw [State.storeV_bad hr hs hbad, State.issue_exc h]

theorem State.issue_amo_bad (hbad : s.ea c w % 4 ≠ 0 ∨ inOwnCs c (s.ea c w) 4 = false) (h : s.ready c op w = true)
    (f : Word → Option Word) : s.issue c op w (s.amo c w f) = s.except c 2 (s.ea c w) := by
  rw [State.amo, if_pos (by simpa only [Bool.not_eq_true'] using hbad), State.issue_legal_exc h (by simp [hr, hs])]

theorem execLda_bad (hbad : s.ea c w % 8 ≠ 0 ∨ ownRange c (s.ea c w) 8 = false) (hd : iRD w < 16) (h : s.ready c 0x25 w = true) :
    execLda c w s = .next (s.except c 2 (s.ea c w)) := by
  rw [execLda, State.coreLoad_bad hbad, State.issue_legal_exc h (by simp [hr, hs, hd])]

theorem execSta_bad (hbad : s.ea c w % 8 ≠ 0 ∨ ownRange c (s.ea c w) 8 = false) (hd : iRD w < 16) (h : s.ready c 0x2B w = true) :
    execSta c w s = .next (s.except c 2 (s.ea c w)) := by
  rw [execSta, State.storeV_bad hr hs hbad, State.issue_legal_exc h (decide_eq_true hd)]

theorem execVld_bad (hbad : s.ea c w % 64 ≠ 0 ∨ ownRange c (s.ea c w) 256 = false) (h : s.ready c 0x2C w = true) :
    execVld c w s = .next (s.except c 2 (s.ea c w)) := by
  rw [execVld, State.coreLoad_bad hbad, State.issue_legal_exc h (by simp [hr, hs])]

theorem execVst_bad (hbad : s.ea c w % 64 ≠ 0 ∨ ownRange c (s.ea c w) 256 = false) (hp : iRS2 w < 8) (h : s.ready c 0x2D w = true) :
    execVst c w s = .next (s.except c 2 (s.ea c w)) := by
  have hst : s.coreStore c (s.ea c w) 64 (List.replicate 256 0) = .exc xACCESS (s.ea c w) :=
    State.coreStore_bad (by rwa [List.length_replicate])
  simp only [execVst, hst]
  exact congrArg Host.Outcome.next (State.issue_legal_exc h (by simp [hr, hs, hp]) _)

theorem execStw_accord (hls : inOwnLs c (s.ea c w) 4 = true) (hacc : inAccord (s.ea c w - lsBase c + 3) = true)
    (h : s.ready c 0x2A w = true) : execStw c w s = .next (s.except c 2 (s.ea c w)) := by
  have hlast : s.ea c w - lsBase c + 4 - 1 = s.ea c w - lsBase c + 3 := by omega
  rw [execStw, State.storeV, State.coreStore_accord (by rwa [leBytes_length]) (by rwa [leBytes_length, hlast]),
    State.issue_legal_exc h (by simp [hr, hs])]

end Access

/-- Settles O7: each clause is one form at a bad address, stated above for it. -/
theorem badAddressesRaiseAccess : Obligations.BadAddressesRaiseAccess := by
  unfold Obligations.BadAddressesRaiseAccess
  refine fun c w s hr hs => ⟨fun ho => ?byte, fun hbad => ?half, fun hbad => ?word, fun hbad hd => ⟨execLda_bad hr hs hbad hd,
    execSta_bad hr hs hbad hd⟩, fun hbad => ⟨execVld_bad hr hs hbad, execVst_bad hr hs hbad⟩, execStw_accord hr hs, fun hbad => ?atomic⟩
  case byte =>
    exact ⟨fun h => congrArg Host.Outcome.next (State.issue_load_bad hr hs (.inr ho) h _),
      fun h => congrArg Host.Outcome.next (State.issue_load_bad hr hs (.inr ho) h _),
      fun h => congrArg Host.Outcome.next (State.issue_store_bad hr hs (.inr ho) h _)⟩
  case half =>
    exact ⟨fun h => congrArg Host.Outcome.next (State.issue_load_bad hr hs hbad h _),
      fun h => congrArg Host.Outcome.next (State.issue_load_bad hr hs hbad h _),
      fun h => congrArg Host.Outcome.next (State.issue_store_bad hr hs hbad h _)⟩
  case word =>
    exact ⟨fun h => congrArg Host.Outcome.next (State.issue_load_bad hr hs hbad h _),
      fun h => congrArg Host.Outcome.next (State.issue_store_bad hr hs hbad h _)⟩
  case atomic =>
    exact ⟨fun h => congrArg Host.Outcome.next (State.issue_amo_bad hr hs hbad h _),
      fun h => congrArg Host.Outcome.next (State.issue_amo_bad hr hs hbad h _),
      fun h => congrArg Host.Outcome.next (State.issue_amo_bad hr hs hbad h _)⟩

end Sys2Proof.Machine
end

section
/-! PROOFS. Releases: the signal counters of a core and its wait for one, and the cores that wait at a barrier slot (O11). -/

namespace Sys2Proof.Machine

/-! ### Signals (R144, R146) -/

section Signals
variable (s : State) (c : CoreId) (sid : Nat)

@[simp] theorem State.setSig_core (v : BitVec 16) (d : CoreId) : (s.setSig c sid v).core d = s.core d := by
  unfold State.setSig State.mirrored
  split <;> rfl

theorem CoreId.inst_ne_checker {c : CoreId} (h : c.isPrimary = true) : c.inst ≠ c.pair.checker.inst := by
  simp only [CoreId.isPrimary, beq_iff_eq] at h
  simp only [CoreId.inst, CoreId.pair, PairId.checker]
  omega

/-- A counter is read back, in lockstep too. -/
@[simp] theorem State.sig_setSig_same (v : BitVec 16) : (s.setSig c sid v).sig c sid = v := by
  have low : (v.setWidth 32).setWidth 16 = v := BitVec.setWidth_setWidth_of_le v (by decide)
  unfold State.setSig State.mirrored State.sig
  split
  · next h =>
    have hne : (⟨.tc, c.inst, Reg.TC_SIGs sid⟩ : RegKey) ≠ ⟨.tc, c.pair.checker.inst, Reg.TC_SIGs sid⟩ :=
      fun e => CoreId.inst_ne_checker (Bool.and_eq_true_iff.mp h).1 (congrArg RegKey.inst e)
    rw [List.foldl_cons, List.foldl_cons, List.foldl_nil, State.reg_setReg_other _ _ _ _ _ _ _ _ hne, State.reg_setReg_same, low]
  · rw [List.foldl_cons, List.foldl_nil, State.reg_setReg_same, low]

end Signals

section SigCheck
variable {s : State} {c : CoreId} {sid : Fin 32} {m : BitVec 16}

theorem State.sigCheck_none (h : (s.core c).wait = .none) : s.sigCheck c = s := by
  simp only [State.sigCheck, h]

/-- A wait that does not consume ends when its counter holds the count. -/
theorem State.sigCheck_reached (h : (s.core c).wait = .sig sid m false) (hm : m ≤ s.sig c sid) : s.sigCheck c = s.release c 0 0 := by
  simp only [State.sigCheck, h, if_pos hm, Bool.false_eq_true, if_false]

theorem State.sigCheck_short {consume : Bool} (h : (s.core c).wait = .sig sid m consume) (hm : s.sig c sid < m) : s.sigCheck c = s := by
  simp only [State.sigCheck, h, if_neg (BitVec.not_le.mpr hm)]

end SigCheck

/-! ### What a release reaches (R114, R148) -/

namespace OnlyCore
variable {c : CoreId} {s t : State}

theorem locked (h : OnlyCore c s t) (p : PairId) : t.locked p = s.locked p := by
  simp only [State.locked, State.fld, State.reg, h.regs ⟨.pcmp, p.inst, Reg.PCMP_STAT⟩ (show Blk.pcmp ≠ Blk.tc by decide)]

theorem isChecker (h : OnlyCore c s t) (d : CoreId) : t.isChecker d = s.isChecker d := by
  simp only [State.isChecker, h.locked]

end OnlyCore

section Barriers
variable {s : State} {c d : CoreId}

/-- Contents put into a core reach no other core but a checker in lockstep (R114). -/
theorem State.core_putCore_other (hk : s.isChecker d = false) (hne : d ≠ c) (x : CoreState) : (s.putCore c x).core d = s.core d := by
  unfold State.putCore State.mirrored
  split
  · next h =>
    have hl := (Bool.and_eq_true_iff.mp h).2
    have hd : d ≠ c.pair.checker := by
      rintro rfl
      have hp : c.pair.checker.pair = c.pair := by
        simp only [CoreId.pair, PairId.checker, PairId.mk.injEq, Fin.mk.injEq, true_and]
        omega
      have hn : c.pair.checker.isPrimary = false := by
        simp only [CoreId.isPrimary, PairId.checker, beq_eq_false_iff_ne]
        omega
      simp [State.isChecker, hp, hn, hl] at hk
    rw [List.foldl_cons, List.foldl_cons, List.foldl_nil, State.core_setCore_other _ _ hd, State.core_setCore_other _ _ hne]
  · rw [List.foldl_cons, List.foldl_nil, State.core_setCore_other _ _ hne]

@[simp] theorem State.release_bars (s : State) (c : CoreId) (rd : Nat) (v : Word) : (s.release c rd v).bars = s.bars := by
  unfold State.release State.putCore State.mirrored
  split <;> rfl

/-! ### Barriers (R148) -/

variable (slot : Fin 16) (v : Word)

/-- What a release of a slot does to one core of the cluster. -/
def State.freeFrom (s : State) (c : CoreId) : State :=
  match (s.core c).wait with
  | .bar sl rd => if sl = slot && !s.isChecker c then s.release c rd v else s
  | _ => s

theorem State.barRelease_eq (s : State) (cl : ClusterId) :
    s.barRelease cl slot v = cl.cores.foldl (State.freeFrom slot v) { s with bars := s.bars.set (cl, slot) none } := rfl

/-- A core is released, or stands: then it does not wait at the slot unless it is a checker. -/
theorem State.freeFrom_cases (s : State) (c : CoreId) : (∃ rd : Nat, s.freeFrom slot v c = s.release c rd v) ∨
    s.freeFrom slot v c = s ∧ (s.isChecker c = false → ∀ rd, (s.core c).wait ≠ .bar slot rd) := by
  unfold State.freeFrom
  split
  · next sl rd hw =>
    split
    · exact .inl ⟨rd, rfl⟩
    · next hn =>
      refine .inr ⟨rfl, fun hk rd' e => hn ?_⟩
      rw [hw] at e
      cases e
      simp [hk]
  · next hw => exact .inr ⟨rfl, fun _ rd e => hw _ _ e⟩

theorem State.freeFrom_bars (s : State) (c : CoreId) : (s.freeFrom slot v c).bars = s.bars := by
  obtain ⟨rd, e⟩ | ⟨e, -⟩ := s.freeFrom_cases slot v c <;> simp [e]

theorem State.freeFrom_isChecker (s : State) (c d : CoreId) : (s.freeFrom slot v c).isChecker d = s.isChecker d := by
  obtain ⟨rd, e⟩ | ⟨e, -⟩ := s.freeFrom_cases slot v c <;> rw [e]
  exact OnlyCore.put.isChecker d

/-- The core itself does not wait at the slot afterwards. -/
theorem State.freeFrom_self (hk : s.isChecker d = false) (rd : Fin 32) : ((s.freeFrom slot v d).core d).wait ≠ .bar slot rd := by
  obtain ⟨rd', e⟩ | ⟨e, hw⟩ := s.freeFrom_cases slot v d <;> rw [e]
  · simp
  · exact hw hk rd

theorem State.freeFrom_other (hk : s.isChecker d = false) (hne : d ≠ c) : (s.freeFrom slot v c).core d = s.core d := by
  obtain ⟨rd, e⟩ | ⟨e, -⟩ := s.freeFrom_cases slot v c <;> rw [e]
  exact State.core_putCore_other hk hne _

theorem State.foldl_freeFrom_bars (l : List CoreId) (s : State) : (l.foldl (State.freeFrom slot v) s).bars = s.bars := by
  induction l generalizing s with
  | nil => rfl
  | cons c l ih => rw [List.foldl_cons, ih, State.freeFrom_bars]

/-- A core among those that are released, or one that did not wait at the slot, does not wait there afterwards. -/
theorem State.foldl_freeFrom_wait (l : List CoreId) (hk : s.isChecker d = false) (rd : Fin 32)
    (h : d ∈ l ∨ (s.core d).wait ≠ .bar slot rd) : ((l.foldl (State.freeFrom slot v) s).core d).wait ≠ .bar slot rd := by
  induction l generalizing s with
  | nil => exact h.resolve_left List.not_mem_nil
  | cons c l ih =>
    refine ih ((State.freeFrom_isChecker slot v s c d).trans hk) ?_
    by_cases hc : d = c
    · subst hc
      exact .inr (State.freeFrom_self slot v hk rd)
    · rw [State.freeFrom_other slot v hk hc]
      exact h.imp_left fun hm => (List.mem_cons.mp hm).resolve_left hc

end Barriers

/-- Settles O11: a post is followed by the check of the wait, and a release visits every core of the cluster. -/
theorem signalsAndBarriersRelease : Obligations.SignalsAndBarriersRelease := by
  unfold Obligations.SignalsAndBarriersRelease
  refine ⟨fun c s sid n m => ⟨?sum, ?reached, ?short⟩, fun s cl slot v k rd => ⟨?idle, ?freed⟩⟩
  case sum =>
    intro hw
    rw [State.sigAdd, State.sigCheck_none (by rwa [State.setSig_core]), State.sig_setSig_same]
  case reached =>
    intro hw hm
    rw [State.sigAdd, State.sigCheck_reached (by rwa [State.setSig_core]) (by rwa [State.sig_setSig_same]), State.release_wait]
  case short =>
    intro hw hm
    rw [State.sigAdd, State.sigCheck_short (by rwa [State.setSig_core]) (by rwa [State.sig_setSig_same]), State.setSig_core, hw]
  case idle => rw [State.barRelease_eq, State.foldl_freeFrom_bars, AMap.get_set_same]
  case freed =>
    intro hk
    have hm : (⟨cl, k⟩ : CoreId) ∈ cl.cores := List.mem_map.mpr ⟨k, List.mem_finRange k, rfl⟩
    have hk' : ({ s with bars := s.bars.set (cl, slot) none } : State).isChecker ⟨cl, k⟩ = false := hk
    rw [State.barRelease_eq]
    exact State.foldl_freeFrom_wait slot v cl.cores hk' rd (.inl hm)

end Sys2Proof.Machine
end

section
/-! PROOFS. Lanes of vector registers: what is read back of lanes that were written, and the merge under a predicate (O14). -/

namespace Sys2Proof

/-! ### Lanes (R124) -/

theorem lane_zero (i : Nat) : lane 0 i = 0 := BitVec.extractLsb'_zero

theorem lane_or (v u : VReg) (i : Nat) : lane (v ||| u) i = lane v i ||| lane u i := BitVec.extractLsb'_or

/-- A word shifted to lane `n` is that lane, and every other lane is 0. -/
theorem lane_word_shiftLeft (x : Word) {n : Nat} (h : n < 64) (i : Nat) :
    lane (x.setWidth 2048 <<< (32 * n)) i = if i = n then x else 0 := by
  refine BitVec.eq_of_getLsbD_eq fun j hj => ?_
  simp only [lane, BitVec.getLsbD_extractLsb', BitVec.getLsbD_shiftLeft, BitVec.getLsbD_setWidth, hj, decide_true, Bool.true_and]
  split
  · next e =>
    subst e
    simp [show 32 * i + j < 2048 by omega, show j < 2048 by omega]
  · next e =>
    obtain hlt | hgt := Nat.lt_or_gt_of_ne e
    · simp [show 32 * i + j < 32 * n by omega]
    · simp [BitVec.getLsbD_of_ge x _ (show 32 ≤ 32 * i + j - 32 * n by omega)]

theorem lane_lanesUpTo (f : Nat → Word) {n : Nat} (h : n ≤ 64) (i : Nat) : lane (lanesUpTo f n) i = if i < n then f i else 0 := by
  induction n with
  | zero => exact lane_zero i
  | succ n ih =>
    rw [lanesUpTo, lane_or, ih (by omega), lane_word_shiftLeft _ h]
    obtain hlt | rfl | hgt := Nat.lt_trichotomy i n
    · simp [hlt, Nat.ne_of_lt hlt, Nat.lt_succ_of_lt hlt]
    · simp
    · simp [Nat.not_lt_of_gt hgt, Nat.ne_of_gt hgt, show ¬i < n + 1 by omega]

@[simp] theorem lane_ofLanes (f : Nat → Word) {i : Nat} (h : i < 64) : lane (ofLanes f) i = f i :=
  (lane_lanesUpTo f (Nat.le_refl 64) i).trans (if_pos h)

end Sys2Proof

namespace Sys2Proof.Machine

/-! ### The merge (R174) -/

/-- Settles O14: the lane is read back from the vector that the chosen lanes make up. -/
theorem predicatedLanesMerge : Obligations.PredicatedLanesMerge := by
  unfold Obligations.PredicatedLanesMerge
  intro p old f i hi
  rw [predLanes, lane_ofLanes _ hi, List.getElem?_map, List.getElem?_range hi]
  exact apply_ite Prod.fst _ _ _

end Sys2Proof.Machine
end

section
/-! PROOFS. Attention and the vial: the correction lanes after a context load (O54), and the completion of each instruction (O15). -/

namespace Sys2Proof.Machine

/-- Settles O54: a loaded core lists no correction vector. -/
theorem contextLoadClearsTheCorrectionLanes : Obligations.ContextLoadClearsTheCorrectionLanes := by
  unfold Obligations.ContextLoadClearsTheCorrectionLanes
  intro c s i
  rw [State.loadCore_core]
  rfl

@[simp] theorem State.orFlags_zero (s : State) (c : CoreId) : s.orFlags c 0 = s := if_pos rfl

/-- A whole vector result that raises no flag changes the core alone. -/
theorem State.vectored_noFlags (s : State) (c : CoreId) (w : BitVec 56) (v : VReg) :
    s.vectored c w (v, 0) = s.putCore c ((s.core c).setV (vVD w) v) := State.orFlags_zero _ c

section Attention
variable {s : State} {c : CoreId} {w : BitVec 56}

/-! ### Row state and online steps (R99, R183 to R185) -/

theorem execAopen_opens (hu : vUnused w false false false false false false false true false false false true = true)
    (hr : bitsOf w 6 0 + vFN w ≤ 127) (h : s.starts c 0xC0 w = true) :
    execAopen c w s = .next (s.retire c (upTo (vFN w + 1) (fun i x => x.setRow (bitsOf w 6 0 + i) 0xFF800000 0) (s.core c))) :=
  congrArg Host.Outcome.next (State.issue_unit_ok h (by simp [hu, hr]) _)

/-- Step `k` of ASTEP on the core as the steps before left it: a lane outside the predicate enters as −∞ (R184). -/
def State.onlineStep (s : State) (c : CoreId) (w : BitVec 56) (x : CoreState) (k : Nat) : Step :=
  softStep (x.getM (bitsOf w 6 0 + k)) (x.getL (bitsOf w 6 0 + k))
    ((List.range 64).map (fun i => if ((s.core c).getP (vPG w)).getLsbD i then lane (x.getV (vVA w + k)) i else 0xFF800000))

/-- What step `k` of ASTEP writes: V[VD + k], the row state, its lane of the correction vector and the flags (R184). -/
def stepRow (w : BitVec 56) (k : Nat) (st : Step) (a : CoreState × AFlags) : CoreState × AFlags :=
  ({ (a.1.setV (vVD w + k) st.p).setRow (bitsOf w 6 0 + k) st.m st.l with
      cv := a.1.cv.set (Fin.ofNat 4 (bitsOf w 9 8))
        (ofLanes (fun i => if i = (bitsOf w 6 0 + k) % 64 then st.c else lane (a.1.cv.get (Fin.ofNat 4 (bitsOf w 9 8)) 0) i)) },
    a.2 ||| st.fl)

theorem execAstep_steps (hu : vUnused w true true false false true false false false false false true true = true)
    (hz : zf w 11 10 = true) (hvd : vVD w + (vNM w + 1) ≤ 32) (hva : vVA w + (vNM w + 1) ≤ 32) (hq : bitsOf w 6 0 + (vNM w + 1) ≤ 128)
    {r : CoreState × AFlags} (hr : r = upTo (vNM w + 1) (fun k a => stepRow w k (s.onlineStep c w a.1 k) a) (s.core c, 0))
    (h : s.starts c 0xC1 w = true) : execAstep c w s = .next (s.completed c ((s.putCore c r.1).orFlags c r.2)) := by
  subst hr
  exact congrArg Host.Outcome.next (State.issue_unit_ok h (by simp [hu, hz, hvd, hva, hq]) _)

/-! ### Row state moved (R186) -/

section Astate
variable (hu : vUnused w true true false false false false false true false false false true = true) (h : s.starts c 0xC2 w = true)
include hu h

/-- FN 0, 1 and 4 gather row states in a vector. -/
theorem execAstate_gathers {f : Nat → Word}
    (hf : vFN w = 0 ∧ bitsOf w 6 0 ≤ 64 ∧ f = (fun i => (s.core c).getL (bitsOf w 6 0 + i)) ∨
      vFN w = 1 ∧ bitsOf w 6 0 ≤ 64 ∧ f = (fun i => (s.core c).getM (bitsOf w 6 0 + i)) ∨
      vFN w = 4 ∧ f = fun _ => (s.core c).getL (bitsOf w 6 0)) :
    execAstate c w s = .next (s.retire c ((s.core c).setV (vVD w) (ofLanes f))) := by
  rw [State.retire, ← State.vectored_noFlags]
  obtain ⟨hn, hr, rfl⟩ | ⟨hn, hr, rfl⟩ | ⟨hn, rfl⟩ := hf
  all_goals simp only [execAstate, hn]
  · exact congrArg Host.Outcome.next (State.issue_unit_putV h (by simp [hu, hr]) _ _)
  · exact congrArg Host.Outcome.next (State.issue_unit_putV h (by simp [hu, hr]) _ _)
  · exact congrArg Host.Outcome.next (State.issue_unit_putV h (by simp [hu]) _ _)

/-- FN 2 and 3 set one value of 64 rows from the lanes of a vector. -/
theorem execAstate_scatters (hr : bitsOf w 6 0 ≤ 64) {f : Nat → CoreState → CoreState}
    (hf : vFN w = 2 ∧ f = (fun i x => x.setRow (bitsOf w 6 0 + i) (x.getM (bitsOf w 6 0 + i)) (lane ((s.core c).getV (vVA w)) i)) ∨
      vFN w = 3 ∧ f = fun i x => x.setRow (bitsOf w 6 0 + i) (lane ((s.core c).getV (vVA w)) i) (x.getL (bitsOf w 6 0 + i))) :
    execAstate c w s = .next (s.retire c (upTo 64 f (s.core c))) := by
  obtain ⟨hn, rfl⟩ | ⟨hn, rfl⟩ := hf
  all_goals
    simp only [execAstate, hn]
    exact congrArg Host.Outcome.next (State.issue_unit_ok h (by simp [hu, hr]) _)

end Astate

/-! ### Token rows of the vial (R190) -/

section Vapp
variable {p : VReg × AFlags} {l : Nat} (hu : vUnused w false true false true false true true false false true false true = true)
  (h : s.starts c 0xC8 w = true)
include hu h

/-- An 8-bit format fills the half of the token row that IMM[4] names. -/
theorem execVapp_half (hd : vDF w = 0 ∨ vDF w = 2 ∨ vDF w = 3)
    (hp : p = packRegs 8 1 (fun _ i => narrowElem false (vDF w) (vRM w) (vSAT w) (lane ((s.core c).getV (vVA w)) i)))
    (hl : l = 32 * (vIMM w % 16) + 2 * (((s.core c).getS (vVC w)).toNat % 16) + bitsOf w 4 4) :
    execVapp c w s = .next (s.completed c ((s.putCore c { s.core c with
      vial := (s.core c).vial.set (Fin.ofNat 512 l) (p.1.extractLsb' 0 512) }).orFlags c p.2)) := by
  have hwide : (vDF w == 8 || vDF w == 9) = false := by
    obtain hd | hd | hd := hd <;> simp [hd]
  have hformat : (vDF w == 0 || vDF w == 2 || vDF w == 3) = true := by
    obtain hd | hd | hd := hd <;> simp [hd]
  subst hp hl
  rw [← BitVec.setWidth_eq_extractLsb' (by decide)]
  simp only [execVapp, hwide, Bool.false_eq_true, if_false]
  exact congrArg Host.Outcome.next (State.issue_unit_ok h (by simp [hu, hformat]) _)

/-- A 16-bit format fills both lines of the token row. -/
theorem execVapp_row (hd : vDF w = 8 ∨ vDF w = 9) (hz : bitsOf w 4 4 = 0)
    (hp : p = packRegs 16 1 (fun _ i => narrowElem false (vDF w) (vRM w) (vSAT w) (lane ((s.core c).getV (vVA w)) i)))
    (hl : l = 32 * (vIMM w % 16) + 2 * (((s.core c).getS (vVC w)).toNat % 16)) :
    execVapp c w s = .next (s.completed c ((s.putCore c { s.core c with
      vial := ((s.core c).vial.set (Fin.ofNat 512 l) (p.1.extractLsb' 0 512)).set (Fin.ofNat 512 (l + 1))
        (p.1.extractLsb' 512 512) }).orFlags c p.2)) := by
  have hwide : (vDF w == 8 || vDF w == 9) = true := by
    obtain hd | hd := hd <;> simp [hd]
  subst hp hl
  rw [← BitVec.setWidth_eq_extractLsb' (by decide), ← BitVec.setWidth_ushiftRight_eq_extractLsb]
  simp only [execVapp, hwide, if_true]
  exact congrArg Host.Outcome.next (State.issue_unit_ok h (by simp [hu, hz]) _)

end Vapp

/-! ### Slots of the vial filled and flushed (R191) -/

section Slot
variable {a : Nat} (ha : a = ((s.core c).getA (tXA w)).toNat) (hr : vialRsv w = true) (hok : vialAddrOk c a = true)
include ha hr hok

/-- The 32 lines of a clean range go to the slot as they stand. -/
theorem execVfil_fills (hc : s.clean a 2048) (h : s.starts c 0xC9 w = true) : execVfil c w s = .next (s.retire c { s.core c with
    vial := upTo 32 (fun i v => v.set (Fin.ofNat 512 (32 * bitsOf w 25 22 + i)) ((natLines (s.loadNat a 2048) 32)[i]?.getD 0))
      (s.core c).vial }) := by
  subst ha
  simp only [execVfil, hok, Bool.not_true, Bool.false_eq_true, if_false]
  rw [State.queued_starts h, State.readLines_clean hc]
  exact congrArg Host.Outcome.next (State.issue_legal_ok (State.ready_of_starts h) hr _)

/-- The slot goes to a range outside the accord area that no queued instruction reads. -/
theorem execVfls_flushes (hacc : inAccord (a - lsBase c + 2047) = false) (hst : (s.core c).streamReads a 2048 = false)
    (hun : (s.core c).unitReads a 2048 = false) (h : s.starts c 0xCA w = true) :
    execVfls c w s = .next (s.completed c (s.store a (leBytes 2048 (linesNat ((List.range 32).map (fun i =>
      (s.core c).vial.get (Fin.ofNat 512 (32 * bitsOf w 25 22 + i)) 0)))))) := by
  have hfree : ((s.core c).unitQ.filter (fun q => q.unit != .attention)).any
      (fun q => q.memReads.any (fun m => overlaps m.1 m.2 a 2048)) = false := by
    rw [CoreState.unitReads, List.any_eq_false] at hun
    exact List.any_eq_false.mpr fun q hq => hun q (List.mem_filter.mp hq).1
  subst ha
  simp only [execVfls, hok, hacc, hst, hfree, Bool.not_true, Bool.false_eq_true, or_self, Bool.or_self, if_false]
  rw [State.queued_starts h]
  exact congrArg Host.Outcome.next (State.issue_legal_ok (State.ready_of_starts h) hr _)

end Slot
end Attention

/-- Settles O15: each clause is the completion of one instruction, stated above for it. -/
theorem attentionAndVialInstructionsComplete : Obligations.AttentionAndVialInstructionsComplete := by
  unfold Obligations.AttentionAndVialInstructionsComplete
  refine fun c w s => ⟨?aopen, ?astep, ?astate, ?vappHalf, ?vappRow, ?vial⟩
  case aopen => exact execAopen_opens
  case astep =>
    intro one r hu hz hvd hva hq hone hr h
    obtain rfl : one = s.onlineStep c w := funext fun x => funext (hone x)
    exact execAstep_steps hu hz hvd hva hq hr h
  case astate =>
    refine fun hu hr => ⟨fun hn h => ?l, fun hn h => ?m, fun hn h => ?setL, fun hn h => ?setM, fun hn h => ?broadcast⟩
    case l => exact execAstate_gathers hu h (.inl ⟨hn, hr (by omega), rfl⟩)
    case m => exact execAstate_gathers hu h (.inr (.inl ⟨hn, hr (by omega), rfl⟩))
    case setL => exact execAstate_scatters hu h (hr (by omega)) (.inl ⟨hn, rfl⟩)
    case setM => exact execAstate_scatters hu h (hr (by omega)) (.inr ⟨hn, rfl⟩)
    case broadcast => exact execAstate_gathers hu h (.inr (.inr ⟨hn, rfl⟩))
  case vappHalf => exact fun p l hu hd hp hl h => execVapp_half hu h hd hp hl
  case vappRow => exact fun p l hu hd hz hp hl h => execVapp_row hu h hd hz hp hl
  case vial => exact fun a ha hr hok => ⟨execVfil_fills ha hr hok, execVfls_flushes ha hr hok⟩

end Sys2Proof.Machine
end

section
/-! PROOFS. Failures of posted writes: what an error bit leaves unchanged, and the record at the initiator's die (O23). -/

namespace Sys2Proof.Machine

/-! ### What an error bit leaves unchanged (R432, R436, R440) -/

/-- The error registers of a block: the bits, and the record of the first error. -/
def errorOffsets (b : Blk) : List Nat := [(errRegs b).stat, (errRegs b).first, (errRegs b).addr, (errRegs b).addr + 4, (errRegs b).info]

/-- A block that records its first error does so apart from its error bits. -/
theorem stat_notMem_firstError (b : Blk) (h : (errRegs b).first ≠ 0) :
    (errRegs b).stat ∉ [(errRegs b).first, (errRegs b).addr, (errRegs b).addr + 4, (errRegs b).info] := by
  revert h
  cases b <;> decide

section Leaves
variable {β : Type} {g : State → β} (hflt : ∀ (s : State) f, g { s with flt := f } = g s)
include hflt

theorem State.pulse_leaves (hreg : ∀ (s : State) j off v, g (s.setReg .flt j off v) = g s) (s : State) (isErr : Bool) :
    g (s.pulse isErr) = g s := by
  cases isErr <;> simp [State.pulse, State.setFld, State.count, apply_ite g, hreg, hflt]

theorem State.noteEvent_leaves (s : State) (b : Blk) (i bit info : Nat) : g (s.noteEvent b i bit info) = g s := by
  simp [State.noteEvent, apply_ite g, hflt]

/-- An error bit reaches the fault state, its counters and the error registers of its block, and nothing else. -/
theorem State.raise_leaves {b : Blk}
    (hreg : ∀ (s : State) c j off v, c = .flt ∨ c = b ∧ off ∈ errorOffsets b → g (s.setReg c j off v) = g s)
    (s : State) (i bit addr info : Nat) : g (s.raise b i bit addr info) = g s := by
  have hpulse (s : State) (isErr : Bool) : g (s.pulse isErr) = g s :=
    State.pulse_leaves hflt (fun s j off v => hreg s _ j off v (.inl rfl)) s isErr
  have hown : ∀ off ∈ errorOffsets b, ∀ s v, g (State.setReg s b i off v) = g s :=
    fun off h s v => hreg s b i off v (.inr ⟨rfl, h⟩)
  simp only [errorOffsets, List.forall_mem_cons] at hown
  obtain ⟨hstat, hfirst, haddr, haddr4, hinfo, -⟩ := hown
  unfold State.raise
  dsimp only
  generalize hu : (if bitOf (s.reg b i (errRegs b).stat) bit = true then _ else _ : State) = u
  have hgu : g u = g s := by
    subst hu
    split
    · exact hflt _ _
    · rw [State.noteEvent_leaves hflt]
      cases errClass b bit with
      | c => rfl
      | u => exact hpulse s false
      | f => exact hpulse s true
  split
  · rw [hstat, hgu]
  · split <;> split <;> simp only [State.setReg2, hinfo, haddr4, haddr, hfirst, hstat, hgu]

end Leaves

/-- An error bit stands in the error register of its block; the record of the first error is in others. -/
theorem State.raise_sets (s : State) (b : Blk) (i : Nat) {bit : Nat} (h : bit < 32) (addr info : Nat) :
    bitOf ((s.raise b i bit addr info).reg b i (errRegs b).stat) bit = true := by
  unfold State.raise
  dsimp only
  generalize (if bitOf (s.reg b i (errRegs b).stat) bit = true then _ else _ : State) = u
  have hset : bitOf ((u.setReg b i (errRegs b).stat (u.reg b i (errRegs b).stat ||| BitVec.ofNat 32 (1 <<< bit))).reg b i
      (errRegs b).stat) bit = true := by
    rw [State.reg_setReg_same, bitOf_or_shiftLeft _ h]
  generalize u.setReg b i (errRegs b).stat _ = t at hset ⊢
  split
  · exact hset
  · next hfirst =>
    have hapart := stat_notMem_firstError b (fun h0 => hfirst (by simp [h0]))
    simp only [List.mem_cons, List.not_mem_nil, or_false, not_or] at hapart
    obtain ⟨hf, ha, ha4, hi⟩ := hapart
    split <;> split <;> simpa [State.setReg2, State.reg_setReg_off, hf, ha, ha4, hi] using hset

/-- An error of the fabric leaves the fabric's registers past its error record. -/
theorem State.raise_fab_reg (s : State) (i bit addr info j : Nat) {off : Nat} (h : 0x1C ≤ off) :
    (s.raise .fab i bit addr info).reg .fab j off = s.reg .fab j off := by
  refine State.raise_leaves (g := fun s => s.reg .fab j off) (fun _ _ => rfl) (fun t c k q v hk => ?_) s i bit addr info
  refine State.reg_setReg_other _ _ _ _ _ _ _ _ fun e => ?_
  injection e with hc _ hq
  obtain rfl | ⟨-, hmem⟩ := hk
  · cases hc
  · simp only [errorOffsets, errRegs, List.mem_cons, List.not_mem_nil, or_false] at hmem
    omega

/-! ### Recording and counting the failure (R224, R509) -/

section Failure
variable (s : State) (src : Src) (a code : Nat) (target : Fin 8)

/-- The register of the initiator's sticky bit. -/
def Src.stickyOff : Nat := Reg.FAB_PWSTICKYw (src.agent.toNat / 32)

theorem Src.stickyOff_bounds : 0x100 ≤ src.stickyOff ∧ src.stickyOff < Reg.FAB_PWLOGCNT := by
  have := src.agent.isLt
  unfold Src.stickyOff Reg.FAB_PWSTICKYw Reg.FAB_PWLOGCNT
  omega

/-- The sticky bit of the initiator. -/
def State.pwStick : State :=
  s.setReg .fab src.die src.stickyOff (s.reg .fab src.die src.stickyOff ||| BitVec.ofNat 32 (1 <<< (src.agent.toNat % 32)))

/-- The entry of the log, or its overflow. -/
def State.pwLog : State :=
  if (s.fab.pwlog.get src.die []).length < 16 then { s with fab := { s.fab with
    pwlog := s.fab.pwlog.set src.die (s.fab.pwlog.get src.die [] ++ [⟨a, code, src.cls, target, src.agent⟩]) } }
  else s.setFld .fab src.die Reg.FAB_PWLOGCNT 31 31 1

/-- The record of a failure: the sticky bit, the log and PWFAIL. -/
def State.pwRecord : State := ((s.pwStick src).pwLog src a code target).raise .fab src.die 1 a src.info

/-- The failure count of the initiator. -/
def State.pwCount : State :=
  match src.core, src.hart with
  | some c, _ => s.putCore c { s.core c with failCount := satAdd (s.core c).failCount 1 }
  | none, some h => s.setHart h { s.hart h with fails := satAdd (s.hart h).fails 1 }
  | none, none => s

theorem State.pwFail_eq : s.pwFail src a code target = (s.pwRecord src a code target).pwCount src := rfl

/-! Counting -/

@[simp] theorem State.hart_setHart_same (h : Fin 16) (x : Hart) : (s.setHart h x).hart h = x := AMap.get_set_same ..

theorem State.pwCount_core {c : CoreId} (h : src.core = some c) :
    ((s.pwCount src).core c).failCount = satAdd (s.core c).failCount 1 := by
  simp [State.pwCount, h]

theorem State.pwCount_hart {h : Fin 16} (hc : src.core = none) (hh : src.hart = some h) :
    ((s.pwCount src).hart h).fails = satAdd (s.hart h).fails 1 := by
  simp [State.pwCount, hc, hh]

/-- Counting changes a core or a hart alone. -/
theorem State.pwCount_frame : (s.pwCount src).fab = s.fab ∧ (s.pwCount src).mem = s.mem ∧
    ∀ i off, (s.pwCount src).reg .fab i off = s.reg .fab i off := by
  unfold State.pwCount
  split
  · next c _ _ =>
    refine ⟨State.putCore_fab .., State.putCore_mem .., fun i off => ?_⟩
    simp only [State.reg, OnlyCore.put.regs ⟨.fab, i, off⟩ (show Blk.fab ≠ Blk.tc by decide)]
  · exact ⟨rfl, rfl, fun _ _ => rfl⟩
  · exact ⟨rfl, rfl, fun _ _ => rfl⟩

/-! Recording -/

/-- The record reaches the fabric, the fault state and their registers, and nothing else. -/
theorem State.pwRecord_leaves {β : Type} {g : State → β} (hfab : ∀ (s : State) f, g { s with fab := f } = g s)
    (hflt : ∀ (s : State) f, g { s with flt := f } = g s) (hreg : ∀ (s : State) b i off v, g (s.setReg b i off v) = g s) :
    g (s.pwRecord src a code target) = g s := by
  have hlog (t : State) : g (t.pwLog src a code target) = g t := by
    unfold State.pwLog
    split
    · exact hfab _ _
    · exact hreg _ _ _ _ _
  rw [State.pwRecord, State.raise_leaves hflt (fun s c j off v _ => hreg s c j off v), hlog, State.pwStick, hreg]

theorem State.pwRecord_pwfail : bitOf ((s.pwRecord src a code target).reg .fab src.die 8) 1 = true :=
  State.raise_sets _ .fab _ (by decide) _ _

theorem State.pwRecord_sticky :
    bitOf ((s.pwRecord src a code target).reg .fab src.die src.stickyOff) (src.agent.toNat % 32) = true := by
  obtain ⟨hlo, hhi⟩ := src.stickyOff_bounds
  have hlog (t : State) : (t.pwLog src a code target).reg .fab src.die src.stickyOff = t.reg .fab src.die src.stickyOff := by
    unfold State.pwLog
    split
    · rfl
    · exact State.reg_setFld_off _ _ _ _ _ _ (Nat.ne_of_lt hhi)
  rw [State.pwRecord, State.raise_fab_reg _ _ _ _ _ _ (by omega), hlog, State.pwStick, State.reg_setReg_same]
  exact bitOf_or_shiftLeft _ (Nat.mod_lt _ (by decide))

theorem State.pwRecord_log (h : (s.fab.pwlog.get src.die []).length < 16) :
    (s.pwRecord src a code target).fab.pwlog.get src.die [] = s.fab.pwlog.get src.die [] ++ [⟨a, code, src.cls, target, src.agent⟩] := by
  simp [State.pwRecord, State.pwLog, State.pwStick, h]

theorem State.pwRecord_overflow (h : 16 ≤ (s.fab.pwlog.get src.die []).length) :
    (s.pwRecord src a code target).fab.pwlog = s.fab.pwlog ∧
      bitOf ((s.pwRecord src a code target).reg .fab src.die Reg.FAB_PWLOGCNT) 31 = true := by
  have hlog : (s.pwStick src).pwLog src a code target = (s.pwStick src).setFld .fab src.die Reg.FAB_PWLOGCNT 31 31 1 :=
    if_neg (Nat.not_lt.mpr h)
  rw [State.pwRecord, hlog, State.raise_fab_reg _ _ _ _ _ _ (by decide), State.reg_setFld_same, bitOf, getLsbD_putBits _ _ (by decide)]
  exact ⟨by simp [State.pwStick], rfl⟩

end Failure

/-- Settles O23: the record stands, the count leaves it, and the count adds to what the record left. -/
theorem postedWriteFailureIsRecorded : Obligations.PostedWriteFailureIsRecorded := by
  unfold Obligations.PostedWriteFailureIsRecorded
  intro s src a code target
  rw [State.pwFail_eq]
  obtain ⟨hfab, hmem, hreg⟩ := (s.pwRecord src a code target).pwCount_frame src
  rw [hfab, hmem, hreg, hreg, hreg]
  refine ⟨s.pwRecord_sticky src a code target, s.pwRecord_log src a code target, s.pwRecord_overflow src a code target,
    s.pwRecord_pwfail src a code target, fun c hc _ => ?core, fun h hc hh => ?hart, ?mem⟩
  case core =>
    rw [State.pwCount_core _ _ hc, s.pwRecord_leaves src a code target (g := fun t => t.core c)
      (fun _ _ => rfl) (fun _ _ => rfl) (fun _ _ _ _ _ => rfl)]
  case hart =>
    rw [State.pwCount_hart _ _ hc hh, s.pwRecord_leaves src a code target (g := fun t => t.hart h)
      (fun _ _ => rfl) (fun _ _ => rfl) (fun _ _ _ _ _ => rfl)]
  case mem =>
    exact s.pwRecord_leaves src a code target (g := State.mem) (fun _ _ => rfl) (fun _ _ => rfl) (fun _ _ _ _ _ => rfl)

end Sys2Proof.Machine
end

section
/-! PROOFS. The clock cycle: what it makes of each domain, and what a step on an empty queue leaves as it is (O20). -/

namespace Sys2Proof.Machine

/-! ### A domain in one cycle (R234, R235) -/

/-- A number in 2^-40 parts is its whole part beside its fraction. -/
theorem ofInt_append_ofInt (t : Int) : BitVec.ofInt 64 (t / 2 ^ 40) ++ BitVec.ofInt 40 t = BitVec.ofInt 104 t := by
  apply BitVec.eq_of_toNat_eq
  have hlow : (BitVec.ofInt 40 t).toNat < 2 ^ 40 := BitVec.isLt _
  rw [BitVec.toNat_append, ← Nat.shiftLeft_add_eq_or_of_lt hlow, Nat.shiftLeft_eq]
  simp only [BitVec.toNat_ofInt]
  omega

/-- A tick adds the increment of R234 to the 104 bits of time and fraction. -/
theorem Domain.tick_count (x : Domain) (rate : Int) : (x.tick rate).time ++ (x.tick rate).frac = x.time ++ x.frac +
    BitVec.ofInt 104 (2 ^ 41 + 2 * rate + (if 0 < x.slew then 2 ^ 31 else if x.slew < 0 then -(2 ^ 31) else 0)) := by
  have hx : x.time ++ x.frac = BitVec.ofInt 104 (x.time.toNat * 2 ^ 40 + x.frac.toNat : Nat) := by
    apply BitVec.eq_of_toNat_eq
    have htime := x.time.isLt
    have hfrac := x.frac.isLt
    rw [BitVec.toNat_append, ← Nat.shiftLeft_add_eq_or_of_lt hfrac, Nat.shiftLeft_eq, BitVec.toNat_ofInt]
    omega
  rw [hx, ← BitVec.ofInt_add, Domain.tick, ofInt_append_ofInt]
  congr 1
  split
  · omega
  · split <;> omega

/-- Without slew and rate a tick adds 2 ns. -/
theorem Domain.tick_rest {x : Domain} (h : x.slew = 0) :
    (x.tick 0).time = x.time + 2 ∧ (x.tick 0).frac = x.frac ∧ (x.tick 0).slew = 0 := by
  have htime := x.time.isLt
  have hfrac := x.frac.isLt
  refine ⟨BitVec.eq_of_toNat_eq ?time, BitVec.eq_of_toNat_eq ?frac, ?slew⟩
  case time =>
    simp only [Domain.tick, h, Int.lt_irrefl, if_false, BitVec.toNat_ofInt, BitVec.toNat_add, BitVec.reduceToNat]
    omega
  case frac =>
    simp only [Domain.tick, h, Int.lt_irrefl, if_false, BitVec.toNat_ofInt]
    omega
  case slew => simp only [Domain.tick, h, Int.lt_irrefl, if_false, Int.sub_zero]

/-- A tick uses up 2^-9 ns of slew. -/
theorem Domain.tick_slew (x : Domain) (rate : Int) : (x.tick rate).slew.natAbs = x.slew.natAbs - 1 := by
  simp only [Domain.tick]
  split
  · omega
  · split <;> omega

theorem Domain.act_nil {x : Domain} (h : x.acts = []) : x.act = x := by
  cases x; cases h; rfl

/-- Steps and loads leave the slew. -/
theorem Domain.act_slew (x : Domain) : x.act.slew = x.slew :=
  List.foldlRecOn (motive := fun y : Domain => y.slew = x.slew) _ _ rfl fun y hy a _ => by cases a <;> exact hy

theorem Domain.act_load {x : Domain} {v : BitVec 64} (h : x.acts = [.load v]) : x.act.time = v ∧ x.act.frac = 0 ∧ x.act.acts = [] := by
  simp [Domain.act, h]

theorem Domain.act_step {x : Domain} {v : Int} (h : x.acts = [.step v]) :
    x.act.time = x.time + BitVec.ofInt 64 v ∧ x.act.frac = x.frac ∧ x.act.acts = [] := by
  simp [Domain.act, h]

/-! ### The domains of the time unit in one cycle -/

@[simp] theorem State.dom_setDom_same (s : State) (d : Fin 4) (x : Domain) : (s.setDom d x).dom d = x := AMap.get_set_same ..

theorem State.dom_setDom_other (s : State) {d k : Fin 4} (x : Domain) (h : k ≠ d) : (s.setDom d x).dom k = s.dom k :=
  AMap.get_set_other _ _ _ h

/-- What a cycle makes of a domain: the increment of R234 while it is enabled, then the writes before the cycle (R235). -/
def State.domCycle (s : State) (d : Fin 4) : Domain :=
  (if s.domEnabled d then (s.dom d).tick (s.reg .tu 0 (Reg.TU_DdRATE d)).toInt else s.dom d).act

theorem State.domCycle_disabled {s : State} {d : Fin 4} (h : s.domEnabled d = false) : s.domCycle d = (s.dom d).act := by
  simp [State.domCycle, h]

theorem State.domCycle_enabled {s : State} {d : Fin 4} (h : s.domEnabled d = true) :
    s.domCycle d = ((s.dom d).tick (s.reg .tu 0 (Reg.TU_DdRATE d)).toInt).act := by
  simp [State.domCycle, h]

/-- A domain's cycle depends on the registers and on that domain only. -/
theorem State.domCycle_congr {s t : State} {d : Fin 4} (hr : t.regs = s.regs) (hd : t.dom d = s.dom d) : t.domCycle d = s.domCycle d := by
  have hreg (off : Nat) : t.reg .tu 0 off = s.reg .tu 0 off := by unfold State.reg; rw [hr]
  rw [State.domCycle, State.domEnabled, hreg, hreg, hd]
  rfl

/-- The domains of a list make their cycle. -/
def State.cycleDoms (s : State) (l : List (Fin 4)) : State := l.foldl (fun s d => s.setDom d (s.domCycle d)) s

theorem State.dom_cycleDoms (s : State) {l : List (Fin 4)} (hl : l.Nodup) (d : Fin 4) :
    (s.cycleDoms l).dom d = if d ∈ l then s.domCycle d else s.dom d := by
  induction l generalizing s with
  | nil => rfl
  | cons k l ih =>
    obtain ⟨hk, hl⟩ := List.nodup_cons.mp hl
    refine (ih (s.setDom k (s.domCycle k)) hl).trans ?_
    by_cases h : d = k
    · subst h; simp [hk]
    · rw [State.dom_setDom_other _ _ h, State.domCycle_congr (s.setDom_regs k _) (s.dom_setDom_other _ h)]
      simp [h]

theorem State.cycleDoms_leaves {β : Type} {g : State → β} (hdom : ∀ (s : State) d x, g (s.setDom d x) = g s) (s : State)
    (l : List (Fin 4)) : g (s.cycleDoms l) = g s :=
  List.foldlRecOn (motive := fun t => g t = g s) _ _ rfl fun t ht d _ => (hdom t d _).trans ht

/-! ### The clock (R233, R246, R247, R249) -/

/-- A cycle without captured edges leaves what no capture input holds. -/
theorem State.takeStamps_leaves {β : Type} {g : State → β} (hcap : ∀ (s : State) n x, g (s.setCap n x) = g s) {s : State}
    (h : ∀ e ∈ s.time.cap, e.2.edges = []) : g s.takeStamps = g s :=
  List.foldlRecOn (motive := fun t => g t = g s) _ _ rfl fun t ht e he => by
    rw [h e he]
    exact (hcap t _ _).trans ht

theorem State.clockTick_runs {s : State} (hf : s.time.frozen = false) (hon : s.domOn 86 = true) :
    s.clockTick = State.cycleDoms { s.takeStamps with time := { s.takeStamps.time with lt := s.takeStamps.time.lt + 2 } } (List.finRange 4) :=
  if_neg (by simp [hf, hon])

theorem State.clockTick_holds {s : State} (h : s.time.frozen = true ∨ s.domOn 86 = false) : s.clockTick = s :=
  if_pos (by obtain h | h := h <;> simp [h])

/-- An edge is stamped where the FIFO has room and 40 ns have passed since the last stamped one (R246). -/
theorem State.takeStamp_stamped {s : State} {n : Fin 32} {e : Word × Nat × Bool} (hroom : (s.cap n).fifo.length < 16)
    (hlast : ∀ l, (s.cap n).last = some l → l + 40 ≤ e.2.1) :
    s.takeStamp n e = s.setCap n { s.cap n with fifo := (s.cap n).fifo ++ [(e.1, e.2.2)], last := some e.2.1 } := by
  refine if_neg ?_
  cases hl : (s.cap n).last with
  | none => simp [hroom]
  | some l => simp [hroom, hlast l hl]

/-- Otherwise it is dropped and counted (R246). -/
theorem State.takeStamp_dropped {s : State} {n : Fin 32} {e : Word × Nat × Bool}
    (h : 16 ≤ (s.cap n).fifo.length ∨ ∃ l, (s.cap n).last = some l ∧ e.2.1 < l + 40) :
    s.takeStamp n e = ((s.setCap n { s.cap n with ovf := true }).count .tu 0 (Reg.TU_CAPDROPn n) 1).raiseSub .tu 0 1 n := by
  refine if_pos ?_
  obtain h | ⟨l, hl, hlt⟩ := h
  · simp [h]
  · simp [hl, hlt]

/-! ### A step on an empty queue -/

/-- The APLIC's cycle reaches the CPU complex and the triggers' interrupts, and nothing else (R510). -/
theorem State.aplicTick_leaves {β : Type} {g : State → β} (hcpu : ∀ (s : State) c, g { s with cpu := c } = g s)
    (htrig : ∀ (s : State) n x, g (s.setTrig n x) = g s) (s : State) : g s.aplicTick = g s := by
  have htook (t : State) (n : Nat) : g (t.aplicTook n) = g t := by
    unfold State.aplicTook
    split
    · exact htrig _ _ _
    · rfl
  have hlook (t : State) (k : Bool × Fin 1024) (x : AplicSrc) : g (t.aplicLook k x) = g t := by
    unfold State.aplicLook
    dsimp only
    split
    · rw [hcpu, htook]
      exact hcpu _ _
    · exact hcpu _ _
  unfold State.aplicTick
  split
  · exact List.foldlRecOn (motive := fun t => g t = g s) _ _ rfl fun t ht e _ => (hlook t _ _).trans ht
  · rfl

/-- With no shutdown in progress and no inbound request waiting a cycle is that of the clock and of the APLIC. -/
theorem State.idle_quiet {s : State} (hs : s.pwr.shutTo = none) (hp : s.clockTick.gw.pciInQ = []) : s.idle = s.clockTick.aplicTick := by
  have haplic : s.clockTick.aplicTick.gw = s.clockTick.gw :=
    State.aplicTick_leaves (g := State.gw) (fun _ _ => rfl) (fun _ _ _ => rfl) _
  simp only [State.idle, hs, State.pciDrain, haplic, hp]

section Step
variable {s : State} (hq : s.pending = []) (hs : s.pwr.shutTo = none) (hp : s.gw.pciInQ = [])
include hq hs hp

/-- A running time unit makes its cycle: LT advances and each domain makes its own. -/
theorem step_clockRuns (hf : s.time.frozen = false) (hon : s.domOn 86 = true) (hedges : ∀ e ∈ s.time.cap, e.2.edges = []) :
    ∃ t, step s = .next t ∧ t.time.lt = s.time.lt + 2 ∧ ∀ d, t.dom d = s.domCycle d := by
  have hruns := State.clockTick_runs hf hon
  have hgw : s.clockTick.gw = s.gw := by
    rw [hruns, State.cycleDoms_leaves (g := State.gw) (fun _ _ _ => rfl)]
    exact State.takeStamps_leaves (g := State.gw) (fun _ _ _ => rfl) hedges
  refine ⟨s.clockTick.aplicTick, by rw [step_idle hq, State.idle_quiet hs (by rw [hgw, hp])], ?lt, fun d => ?dom⟩
  case lt =>
    rw [State.aplicTick_leaves (g := fun t => t.time.lt) (fun _ _ => rfl) (fun _ _ _ => rfl), hruns,
      State.cycleDoms_leaves (g := fun t => t.time.lt) (fun _ _ _ => rfl)]
    exact congrArg (· + 2) (State.takeStamps_leaves (g := fun t => t.time.lt) (fun _ _ _ => rfl) hedges)
  case dom =>
    rw [State.aplicTick_leaves (g := fun t => t.dom d) (fun _ _ => rfl) (fun _ _ _ => rfl), hruns,
      State.dom_cycleDoms _ (List.nodup_finRange 4), if_pos (List.mem_finRange d)]
    exact State.domCycle_congr (State.takeStamps_leaves (g := State.regs) (fun _ _ _ => rfl) hedges)
      (State.takeStamps_leaves (g := fun t => t.dom d) (fun _ _ _ => rfl) hedges)

/-- A time unit that does not run holds its times (R249). -/
theorem step_clockHolds (h : s.time.frozen = true ∨ s.domOn 86 = false) :
    ∃ t, step s = .next t ∧ t.time.lt = s.time.lt ∧ t.time.dom = s.time.dom ∧ t.mem = s.mem := by
  have hholds := State.clockTick_holds h
  have hidle := State.idle_quiet hs (by rw [hholds, hp])
  rw [hholds] at hidle
  refine ⟨s.aplicTick, by rw [step_idle hq, hidle], ?_, ?_, ?_⟩
  · exact State.aplicTick_leaves (g := fun t => t.time.lt) (fun _ _ => rfl) (fun _ _ _ => rfl) s
  · exact State.aplicTick_leaves (g := fun t => t.time.dom) (fun _ _ => rfl) (fun _ _ _ => rfl) s
  · exact State.aplicTick_leaves (g := State.mem) (fun _ _ => rfl) (fun _ _ _ => rfl) s

end Step

/-- Settles O20: each domain makes the cycle of `State.domCycle`, which is a tick and then the writes before it. -/
theorem clockCycleAdvancesTime : Obligations.ClockCycleAdvancesTime := by
  unfold Obligations.ClockCycleAdvancesTime
  refine ⟨fun s hq => step_idle hq, fun s d hq hs hp hf hon hedges => ?ticks, fun s hq hs hp h => step_clockHolds hq hs hp h,
    fun s n e => ⟨State.takeStamp_stamped, State.takeStamp_dropped⟩⟩
  obtain ⟨t, hstep, hlt, hdom⟩ := step_clockRuns hq hs hp hf hon hedges
  refine ⟨t, hstep, hlt, ?_⟩
  rw [hdom d]
  refine ⟨fun hacts => ⟨fun hen => ?disabled, fun hen hslew hrate => ?rest, fun hen => ?count⟩, fun hen => ?slew, fun v hacts => ?load,
    fun v hacts hen => ?step⟩
  case disabled => rw [State.domCycle_disabled hen, Domain.act_nil hacts]
  case rest =>
    rw [State.domCycle_enabled hen, Domain.act_nil (by exact hacts), hrate]
    exact Domain.tick_rest hslew
  case count =>
    rw [State.domCycle_enabled hen, Domain.act_nil (by exact hacts)]
    exact Domain.tick_count ..
  case slew => rw [State.domCycle_enabled hen, Domain.act_slew, Domain.tick_slew]
  case load =>
    unfold State.domCycle
    split
    · exact Domain.act_load hacts
    · exact Domain.act_load hacts
  case step =>
    rw [State.domCycle_disabled hen]
    exact Domain.act_step hacts

end Sys2Proof.Machine
end

section
/-! PROOFS. Writes to the time unit: what a step, a load, an enable of a domain and a write of a trigger's configuration come to. -/

namespace Sys2Proof.Machine

/-! ### Domains (R235) -/

section Domain
variable {s : State} {d : Fin 4}

theorem State.domAct_free (h : s.bound d = false) (a : TimeAct) :
    s.domAct d a = s.setDom d { s.dom d with acts := (s.dom d).acts ++ [a] } := by
  simp [State.domAct, h]

theorem State.domAct_bound (h : s.bound d = true) (a : TimeAct) : s.domAct d a = s.count .tu 0 (Reg.TU_DdREFUSE d) 1 := by
  simp [State.domAct, State.refuseDom, h]

/-- The SET value is its two words side by side (R248). -/
theorem State.domSet_eq (s : State) (d : Fin 4) : s.domSet d = s.reg .tu 0 (Reg.TU_DdSETH d) ++ s.reg .tu 0 (Reg.TU_DdSETL d) :=
  (append_word_eq_or _ _).symm

theorem State.domEnable_taken {en : Bool} (h : en = true ∨ s.domEnabled d = false ∨ s.bound d = false) :
    s.domEnable d en = s.setFld .tu 0 (Reg.TU_DdCTRL d) 31 31 (if en then 1 else 0) := by
  refine if_neg ?_
  obtain h | h | h := h <;> simp [h]

theorem State.domEnable_refused (he : s.domEnabled d = true) (hb : s.bound d = true) :
    s.domEnable d false = s.count .tu 0 (Reg.TU_DdREFUSE d) 1 := by
  simp [State.domEnable, State.refuseDom, he, hb]

end Domain

/-! ### Configuration of a trigger (R242, R243) -/

/-- ENABLE lies outside the reserved field of TU_TRGCFGn. -/
theorem trgEn_mask (v : Word) : trgEn (v &&& 0xFFC0FFFF) = trgEn v := by
  simp [trgEn, bitOf]

theorem trgEn_cleared (v : Word) : trgEn (v &&& 0x7FFFFFFF) = false := by
  simp [trgEn, bitOf]

section Trigger
variable {s : State} {n : Fin 32} {v : Word} (h : trgEn (s.trgCfg n) = false)
include h

theorem State.writeTrig_enables (hv : trgEn v = true) (hok : s.trigOk n (v &&& 0xFFC0FFFF) = true) (hf : s.time.frozen = false) :
    s.writeTrig n v = s.trigEnable n (v &&& 0xFFC0FFFF) := by
  simp only [State.writeTrig, h, trgEn_mask, hv, hok, hf]
  rfl

theorem State.writeTrig_refuses (hv : trgEn v = true) (hok : s.trigOk n (v &&& 0xFFC0FFFF) = false) :
    s.writeTrig n v = (s.setReg .tu 0 (Reg.TU_TRGCFGn n) (v &&& 0xFFC0FFFF &&& 0x7FFFFFFF)).raise .tu 0 0 0 0 := by
  simp only [State.writeTrig, h, trgEn_mask, hv, hok]
  rfl

theorem State.writeTrig_stores (hv : trgEn v = false) : s.writeTrig n v = s.setReg .tu 0 (Reg.TU_TRGCFGn n) (v &&& 0xFFC0FFFF) := by
  simp only [State.writeTrig, h, trgEn_mask, hv]
  rfl

end Trigger

end Sys2Proof.Machine
end

section
/-! PROOFS. Commands of the time unit: the completion of each (O21). -/

namespace Sys2Proof.Machine

/-! ### Domains (R234, R235, R250) -/

/-- A write of a TU_ register that reaches it, under expert control and outside firmware's guard, is performed (R14, R250). -/
theorem State.tuWrite_allowed {s : State} {src : Src} {off : Nat} {guard : Bool} (hr : s.reaches src (vehRegs 0x1400000 + off) = true)
    (hw : s.mayWrite src .tu 0 = true) (hg : guard = false ∨ src.fw = true) (would : Bool) (f : State → State) :
    s.tuWrite src off guard would f = f s := by
  rw [State.tuWrite, State.regCommand_reaches hr, State.guarded_mayWrite hw]
  exact if_neg (by obtain h | h := hg <;> simp [h])

section Domain
variable {src : Src} {d : Fin 4} {s : State} (hw : s.mayWrite src .tu 0 = true) (hg : s.fwDomain d = false ∨ src.fw = true)
include hw hg

theorem execDomainStep_allowed {v : Word} (hr : s.reaches src (vehRegs 0x1400000 + Reg.TU_DdSTEP d) = true) :
    execDomainStep src d v s = .next (s.domAct d (.step v.toInt)) :=
  congrArg Host.Outcome.next (State.tuWrite_allowed hr hw hg _ _)

theorem execDomainLoad_allowed (hr : s.reaches src (vehRegs 0x1400000 + Reg.TU_DdLOAD d) = true) :
    execDomainLoad src d s =
      .next (s.domAct d (.load (s.reg .tu 0 (Reg.TU_DdSETH d) ++ s.reg .tu 0 (Reg.TU_DdSETL d)))) := by
  rw [execDomainLoad, State.tuWrite_allowed hr hw hg, State.domLoad, State.domSet_eq]

theorem execDomainSlew_allowed {v : Word} (hr : s.reaches src (vehRegs 0x1400000 + Reg.TU_DdSLEW d) = true) :
    execDomainSlew src d v s = .next (s.setDom d { s.dom d with slew := v.toInt * 512 }) :=
  congrArg Host.Outcome.next (State.tuWrite_allowed hr hw hg _ _)

theorem execDomainEnable_allowed {en : Bool} (hr : s.reaches src (vehRegs 0x1400000 + Reg.TU_DdCTRL d) = true) :
    execDomainEnable src d en s = .next (s.domEnable d en) :=
  congrArg Host.Outcome.next (State.tuWrite_allowed hr hw hg _ _)

end Domain

/-! ### Triggers (R241 to R244) -/

@[simp] theorem State.trig_setTrig_same (s : State) (n : Fin 32) (x : Trig) : (s.setTrig n x).trig n = x := AMap.get_set_same ..

theorem State.wheel_setWheel_other (s : State) {w k : Fin 4} (x : Wheel) (h : k ≠ w) : (s.setWheel w x).wheel k = s.wheel k :=
  AMap.get_set_other _ _ _ h

/-- An edge's start event reaches the wheels of a list (R241, R252). -/
def State.sendEvent (s : State) (ws : List (Fin 4)) (e : Nat) : State :=
  ws.foldl (fun s w => s.setWheel w { s.wheel w with event := some e }) s

@[simp] theorem State.trig_sendEvent (s : State) (ws : List (Fin 4)) (e : Nat) (n : Fin 32) : (s.sendEvent ws e).trig n = s.trig n :=
  List.foldlRecOn (motive := fun t : State => t.trig n = s.trig n) _ _ rfl fun _ ht _ _ => ht

theorem State.wheel_sendEvent (s : State) (ws : List (Fin 4)) (e : Nat) (w : Fin 4) :
    (s.sendEvent ws e).wheel w = if w ∈ ws then { s.wheel w with event := some e } else s.wheel w := by
  induction ws generalizing s with
  | nil => rfl
  | cons k ws ih =>
    refine (ih (s.setWheel k { s.wheel k with event := some e })).trans ?_
    by_cases h : w = k
    · subst h; simp
    · rw [State.wheel_setWheel_other _ _ h]
      simp [h]

/-- The trigger after its next edge and the `b` edges behind it: they are counted against COUNT, and one is produced (R244). -/
def State.edgeTaken (s : State) (n : Fin 32) (b : Nat) : Trig :=
  { s.trig n with
    next := (s.trig n).next + b + 1, produced := (s.trig n).produced + 1,
    active := !(s.trgPer n == 0 || (trgCount (s.trgCfg n) != 0 && decide (trgCount (s.trgCfg n) ≤ (s.trig n).next + b + 1))),
    irq := (s.trig n).irq || trgIrq (s.trgCfg n), late := (s.trig n).late || decide (0 < b),
    pulsed := Nat.max (s.trig n).pulsed ((s.trig n).next + b) }

section Trigger
variable {s : State} {n : Fin 32}

/-- An edge whose time has come is taken, and its start event reaches the wheels that follow the trigger. -/
theorem execTriggerEdge_due (hf : s.time.frozen = false) (hon : s.domOn 86 = true) (hen : trgEn (s.trgCfg n) = true)
    (ha : (s.trig n).active = true) (hdue : s.edgeTime n (s.trig n).next ≤ s.baseTime (trgBase (s.trgCfg n))) :
    execTriggerEdge n s = .next ((s.setTrig n (s.edgeTaken n (s.edgesBehind n))).sendEvent
      (if trgWheel (s.trgCfg n) then s.followers n else []) (s.edgeTime n ((s.trig n).next + s.edgesBehind n))) := by
  refine (if_neg (by simp [hf, hon, hen, ha, hdue])).trans (congrArg Host.Outcome.next ?_)
  cases trgWheel (s.trgCfg n) <;> rfl

theorem execTriggerPulseStart_due (hf : s.time.frozen = false) (hon : s.domOn 86 = true) (hen : trgEn (s.trgCfg n) = true)
    (hpin : trgPin (s.trgCfg n) = true) (ha : (s.trig n).active = true) (hnext : (s.trig n).pulsed = (s.trig n).next)
    (hp : (s.trig n).pulse = none) (hdue : s.edgeTime n (s.trig n).pulsed ≤ s.baseTime (trgBase (s.trgCfg n)) + s.trgAdv n) :
    execTriggerPulseStart n s =
      .next (s.setTrig n { s.trig n with pulse := some (s.trig n).pulsed, pulsed := (s.trig n).pulsed + 1 }) := by
  refine congrArg Host.Outcome.next (if_pos ?_)
  rw [if_pos hnext]
  simp [hf, hon, hen, hpin, ha, hp, hdue]

theorem execTriggerPulseEnd_due {k : Nat} (hp : (s.trig n).pulse = some k)
    (hdue : s.edgeTime n k + s.trgWid n ≤ s.baseTime (trgBase (s.trgCfg n)) + s.trgAdv n) :
    execTriggerPulseEnd n s = .next (s.setTrig n { s.trig n with pulse := none }) := by
  simp only [execTriggerPulseEnd, hp, hdue, decide_true, if_true]

end Trigger

/-! ### Captures and the failure of the clock (R245, R249) -/

/-- A selected edge at the pin joins the edges of its cycle with its stamp (R245). -/
theorem execCaptureEdge_pin {s : State} {n : Fin 32} {rising : Bool} (hf : s.time.frozen = false) (hon : s.domOn 86 = true)
    (hen : bitOf (s.reg .tu 0 (Reg.TU_CAPCFGn n)) 31 = true) (hpin : bitOf (s.reg .tu 0 (Reg.TU_CAPCFGn n)) 25 = false)
    (hsel : bitOf (s.reg .tu 0 (Reg.TU_CAPCFGn n)) (if rising then 26 else 27) = true) :
    execCaptureEdge n rising s = .next (s.setCap n { s.cap n with edges := (s.cap n).edges ++
      [(BitVec.ofNat 32 (s.baseTime (bitsOf (s.reg .tu 0 (Reg.TU_CAPCFGn n)) 30 28)), s.now, rising)] }) := by
  rw [apply_ite (bitOf _)] at hsel
  simp only [execCaptureEdge, State.captureEdge, hpin, hf, hon, hen, hsel]
  rfl

/-- A fold whose every step leaves the start as it is gives the start. -/
theorem foldl_unmoved {α β : Type} {f : β → α → β} {b : β} (h : ∀ a, f b a = b) (l : List α) : l.foldl f b = b := by
  induction l with
  | nil => rfl
  | cons a l ih => rw [List.foldl_cons, h, ih]

/-- A failure of the clock while no wheel is live freezes the time unit, and no wheel stops (R249, R257). -/
theorem execTimeClockLoss_noWheel {s : State} (hf : s.time.frozen = false) (hon : s.domOn 86 = true)
    (hw : ∀ w, (s.wheel w).live = false) :
    execTimeClockLoss s = .next (({ s with time := { s.time with
      frozen := true, trig := s.time.trig.map (fun (e : Fin 32 × Trig) => (e.1, { e.2 with pulse := none })) } } : State).raise .tu 0 2 0 0) := by
  refine (if_neg (by simp [hf, hon])).trans (congrArg Host.Outcome.next (foldl_unmoved (fun w => if_neg ?_) _))
  rw [State.wheel, State.raise_sched]
  exact Bool.eq_false_iff.mp (hw w)

/-! ### gPTP (R236, R237) -/

/-- A trace point leaves the time unit and the gPTP states as they are. -/
theorem State.trace_frame (s : State) (fp : Fin 9) (point : Nat) (args : List Nat) :
    (s.trace fp point args).time = s.time ∧ (s.trace fp point args).fw.gptpState = s.fw.gptpState := by
  unfold State.trace
  split
  · exact ⟨rfl, rfl⟩
  · split
    · exact ⟨rfl, rfl⟩
    · dsimp only
      split <;> exact ⟨rfl, rfl⟩

@[simp] theorem State.setGptp_time (s : State) (d : Fin 4) (st : Nat) (gm : Word) : (s.setGptp d st gm).time = s.time := by
  unfold State.setGptp
  split
  · rfl
  · exact (State.trace_frame ..).1

theorem State.setGptp_state (s : State) (d : Fin 4) (st : Nat) (gm : Word) : (s.setGptp d st gm).fw.gptpState.get d 0 = st := by
  unfold State.setGptp
  split
  · assumption
  · rw [(State.trace_frame ..).2]
    exact AMap.get_set_same ..

section Gptp
variable {s : State} {port : Fin 10} {d : Fin 4}

/-- A Sync is stamped and delivered, and ends holdover (R236, R237). -/
theorem execGptpFrameReceive_sync (hp : s.gptpPort ⟨port.val, by omega⟩ = true) (h5 : s.fpRuns 5 = true) (h6 : s.fpRuns 6 = true)
    {st : Fin 5} (hst : st.val ≠ 3) (gm : Word) :
    ∃ t, execGptpFrameReceive port d true st gm s = .next t ∧ t.time.gptpRx = s.time.gptpRx ++ [(⟨port.val, by omega⟩, s.now32)] ∧
      (t.dom d).holdover = false ∧ t.time.lastSync.get d 0 = s.now ∧ t.fw.gptpState.get d 0 = st := by
  refine ⟨_, congrArg Host.Outcome.next (if_pos (by simp [hp, h5, h6])), ?_, ?_, ?_, State.setGptp_state ..⟩
  · rw [State.setGptp_time]
    rfl
  · rw [State.dom, State.setGptp_time]
    refine (congrArg Domain.holdover (AMap.get_set_same _ _ _ _)).trans ?_
    simpa using hst
  · rw [State.setGptp_time]
    exact AMap.get_set_same ..

theorem execGptpSyncSend_open (hp : s.gptpPort ⟨port.val, by omega⟩ = true) (h5 : s.fpRuns 5 = true) (h6 : s.fpRuns 6 = true)
    {relayed : Option Word} (hs : s.fw.gptpState.get d 0 ≠ 0) (hres : (relayed.map s.residence).getD 0 ≤ 2000000) :
    execGptpSyncSend port d relayed s = .next { s with
      time := { s.time with gptpTx := s.time.gptpTx ++ [(⟨port.val, by omega⟩, s.now32, (relayed.map s.residence).getD 0)] } } :=
  congrArg Host.Outcome.next (if_pos (by simp [hp, h5, h6, hs, hres]))

theorem execGptpReceiptTimeout_synced (hs : s.fw.gptpState.get d 0 = 2) (h5 : s.fpRuns 5 = true) :
    execGptpReceiptTimeout d s = .next ((s.setDom d { s.dom d with holdover := true }).setGptp d 3 0) :=
  congrArg Host.Outcome.next (if_pos (by simp [hs, h5]))

end Gptp

/-- Settles O21: each clause is the completion of one command, stated above for it. -/
theorem timeUnitCommandsComplete : Obligations.TimeUnitCommandsComplete := by
  unfold Obligations.TimeUnitCommandsComplete
  refine ⟨fun src d s hw hg => ⟨fun v hr => ?step, fun hr => ?load, fun v hr => execDomainSlew_allowed hw hg hr, fun en hr => ?enable, rfl⟩,
    fun src n s => ⟨fun v hr hw hg hv hen hoff => ?config, fun hf hon hen ha hdue b hb => ?edge,
      execTriggerPulseStart_due, fun k => execTriggerPulseEnd_due⟩,
    fun src n d port s => ⟨fun rising => execCaptureEdge_pin, fun hr => ?pop, execTimeClockLoss_noWheel, fun hp h5 h6 => ?gptp,
      execGptpReceiptTimeout_synced⟩⟩
  case step =>
    have hstep := execDomainStep_allowed hw hg (v := v) hr
    exact ⟨fun h => hstep.trans (by rw [State.domAct_free h]), fun h => hstep.trans (by rw [State.domAct_bound h])⟩
  case load =>
    have hload := execDomainLoad_allowed hw hg hr
    exact ⟨fun h => hload.trans (by rw [State.domAct_free h]), fun h => hload.trans (by rw [State.domAct_bound h])⟩
  case enable =>
    have henable := execDomainEnable_allowed hw hg (en := en) hr
    refine ⟨fun h => henable.trans (by rw [State.domEnable_taken h]), fun hen he hb => henable.trans ?_⟩
    rw [hen, State.domEnable_refused he hb]
  case config =>
    have hwrite : execTriggerConfig src n v s = .next (s.writeTrig n v) :=
      congrArg Host.Outcome.next (State.tuWrite_allowed hr hw hg _ _)
    refine ⟨fun hok hf => hwrite.trans ?_, fun hok => hwrite.trans ?_⟩
    · rw [State.writeTrig_enables hoff hen (by rwa [hv]) hf, hv]
    · rw [State.writeTrig_refuses hoff hen (by rwa [hv]), hv]
  case edge =>
    subst hb
    refine ⟨_, execTriggerEdge_due hf hon hen ha hdue, ?_⟩
    rw [State.trig_sendEvent, State.trig_setTrig_same]
    refine ⟨rfl, rfl, rfl, rfl, fun w hwheel hmem => ?_, fun w hout => ?_⟩
    · rw [State.wheel_sendEvent, if_pos (by simp [hwheel, hmem])]
    · rw [State.wheel_sendEvent, if_neg (by obtain h | h := hout <;> simp [h])]
      rfl
  case pop => exact congrArg Host.Outcome.next (State.regCommand_reaches hr _ _ _)
  case gptp => exact ⟨execGptpFrameReceive_sync hp h5 h6 (by decide) 7, fun relayed => execGptpSyncSend_open hp h5 h6⟩

end Sys2Proof.Machine
end

section
/-! PROOFS. Ring commands on wheels, time, triggers and captures: the completion of each (O30). -/

namespace Sys2Proof.Machine

section Ring
variable {s : State} {p : Fin 64} {e : BitVec 512}

/-! ### WHEEL_SET (R257, R260) -/

section Wheel
variable {w : Fin 4}
  (h : s.accepts p 0x18 [5] [(8, 1, 0), (8, 2, 2), (8, 3, 3), (8, 8, 4), (8, 15, 12), (0xC, 31, 0)] true e)
  (hw : w = Fin.ofNat 4 (eBits e 8 1 0))
include h hw

theorem execWheelSet_blocked (hb : s.time.frozen = true ∨ s.admitted w = true ∧ eBits e 8 2 2 = 0) :
    execWheelSet p s = .next (s.refuseFree p) := by
  subst hw
  rw [execWheelSet, State.command_accepts h]
  refine congrArg Host.Outcome.next (if_pos ?_)
  obtain hb | ⟨hb, h0⟩ := hb
  · rw [hb, Bool.true_or]
  · rw [hb, h0, Bool.true_and]
    exact Bool.or_true _

/-- A wheel of no partition is disabled, found live, enabled, or refused. -/
theorem execWheelSet_free {c : Word}
    (hc : c = BitVec.ofNat 32 (eBits e 8 2 2 * 2 ^ 31 + eBits e 8 3 3 * 2 ^ 30 + eBits e 8 8 4 * 2 ^ 21 + eBits e 8 15 12 * 2 ^ 16))
    (hf : s.time.frozen = false) (ha : s.admitted w = false) :
    execWheelSet p s = .next (
      if eBits e 8 2 2 = 0 then ((s.setReg .whl 0 (Reg.WHL_PERw w) (eWord e 0xC)).writeWhlCfg w c).complete p 0 0 0 0
      else if (s.wheel w).live then s.complete p 0 0 0 0
      else if !s.enableOk w c (eWord e 0xC).toNat then s.refuseFree p
      else ((s.setReg .whl 0 (Reg.WHL_PERw w) (eWord e 0xC)).armWheel w c).complete p 0 0 0 0) := by
  subst hw hc
  rw [execWheelSet, State.command_accepts h]
  exact congrArg Host.Outcome.next (if_neg (by rw [hf, ha]; exact Bool.false_ne_true))

end Wheel

/-! ### TIME_SET (R234 to R236) -/

/-- The 64-bit operand at byte 16 of an entry. -/
theorem ofNat_eAddr (e : BitVec 512) : BitVec.ofNat 64 (eAddr e 0x10) = e.extractLsb' 128 64 := BitVec.ofNat_toNat ..

section TimeSet
variable {d : Fin 4} {v : BitVec 64} (h : s.accepts p 0x19 [5] [(8, 1, 0), (8, 7, 4), (0x10, 63, 0)] true e)
  (hd : d = Fin.ofNat 4 (eBits e 8 1 0)) (hv : v = e.extractLsb' 128 64)
include h hd hv

/-- An accepted TIME_SET performs its action. -/
theorem State.timeSet_accepts {action : Nat} (ha : eBits e 8 7 4 = action) (h6 : action ≤ 6) (k : Fin 4 → BitVec 64 → State) :
    s.timeSet p action k = k d v := by
  subst ha hd hv
  rw [State.timeSet, State.command_accepts h, if_neg (by omega), if_pos rfl, ofNat_eAddr]

theorem execTimeSetEnable_accepts (ha : eBits e 8 7 4 = 0) :
    execTimeSetEnable p s = .next ((s.setFld .tu 0 (Reg.TU_DdCTRL d) 31 31 1).complete p 0 0 0 0) := by
  rw [execTimeSetEnable, State.timeSet_accepts h hd hv ha (by decide), State.domEnable_taken (.inl rfl)]
  rfl

theorem execTimeSetDisable_free (ha : eBits e 8 7 4 = 1) (hb : s.bound d = false) :
    execTimeSetDisable p s = .next ((s.setFld .tu 0 (Reg.TU_DdCTRL d) 31 31 0).complete p 0 0 0 0) := by
  rw [execTimeSetDisable, State.timeSet_accepts h hd hv ha (by decide), if_neg (by simp [hb]), State.domEnable_taken (.inr (.inr hb))]
  rfl

theorem execTimeSetDisable_bound (ha : eBits e 8 7 4 = 1) (he : s.domEnabled d = true) (hb : s.bound d = true) :
    execTimeSetDisable p s = .next ((s.count .tu 0 (Reg.TU_DdREFUSE d) 1).refuseFree p) := by
  rw [execTimeSetDisable, State.timeSet_accepts h hd hv ha (by decide), if_pos (by simp [he, hb]), State.domEnable_refused he hb]

theorem execTimeSetRate_fits (ha : eBits e 8 7 4 = 2) (hfit : fits32 v = true) :
    execTimeSetRate p s = .next ((s.setReg .tu 0 (Reg.TU_DdRATE d) (v.setWidth 32)).complete p 0 0 0 0) := by
  rw [execTimeSetRate, State.timeSet_accepts h hd hv ha (by decide), if_pos hfit]
  rfl

theorem execTimeSetSlew_fits (ha : eBits e 8 7 4 = 3) (hfit : fits32 v = true) :
    execTimeSetSlew p s = .next ((s.domSlew d v.toInt).complete p 0 0 0 0) := by
  rw [execTimeSetSlew, State.timeSet_accepts h hd hv ha (by decide), if_pos hfit]
  rfl

theorem execTimeSetStep_free (ha : eBits e 8 7 4 = 4) (hb : s.bound d = false) : execTimeSetStep p s = .next
    (((s.setDom d { s.dom d with acts := (s.dom d).acts ++ [.step v.toInt] }).trace 5 0x0502
      [d, v.toNat % 2 ^ 32, v.toNat / 2 ^ 32]).complete p 0 0 0 0) := by
  rw [execTimeSetStep, State.timeSet_accepts h hd hv ha (by decide), if_neg (by simp [hb]), State.domStep, State.domAct_free hb]
  rfl

theorem execTimeSetStep_bound (ha : eBits e 8 7 4 = 4) (hb : s.bound d = true) :
    execTimeSetStep p s = .next ((s.count .tu 0 (Reg.TU_DdREFUSE d) 1).refuseFree p) := by
  rw [execTimeSetStep, State.timeSet_accepts h hd hv ha (by decide), if_pos hb, State.domStep, State.domAct_bound hb]

/-- TIME_SET action 5 writes the SET value; whether its load is refused is judged in the state that then stands (R235). -/
theorem execTimeSetLoad_accepts {u : State} (ha : eBits e 8 7 4 = 5)
    (hu : u = s.setReg2 .tu 0 (Reg.TU_DdSETL d) (Reg.TU_DdSETH d) v.toNat) :
    execTimeSetLoad p s = .next (if u.bound d then (u.domAct d (.load v)).refuseFree p else (u.domAct d (.load v)).complete p 0 0 0 0) := by
  subst hu
  rw [execTimeSetLoad, State.timeSet_accepts h hd hv ha (by decide)]
  rfl

theorem execTimeSetDomainNumber_accepts (ha : eBits e 8 7 4 = 6) (hn : v.toNat < 128) :
    execTimeSetDomainNumber p s = .next ((s.setFld .tu 0 (Reg.TU_DdCTRL d) 6 0 v.toNat).complete p 0 0 0 0) := by
  rw [execTimeSetDomainNumber, State.timeSet_accepts h hd hv ha (by decide), if_pos hn]
  rfl

end TimeSet

/-! ### TRIG_SET (R242, R243) -/

/-- The registers of a trigger that TRIG_SET writes before its configuration (R243). -/
def State.trigRegs (s : State) (n : Fin 32) (e : BitVec 512) : State :=
  ((((s.setReg .tu 0 (Reg.TU_TRGSTARTLn n) (eWord e 0x10)).setReg .tu 0 (Reg.TU_TRGSTARTHn n) (eWord e 0x14)).setReg
    .tu 0 (Reg.TU_TRGPERn n) (eWord e 0x18)).setReg .tu 0 (Reg.TU_TRGWIDn n) (eWord e 0x1C)).setReg .tu 0 (Reg.TU_TRGADVn n) (eWord e 0x20)

theorem State.trgCfg_trigRegs (s : State) (n : Fin 32) (e : BitVec 512) : (s.trigRegs n e).trgCfg n = s.trgCfg n := by
  simp only [State.trigRegs, State.trgCfg]
  repeat rw [State.reg_setReg_off _ _ _ _ (by simp)]

/-- A trigger that is enabled has the configuration of the enable. -/
theorem State.trgCfg_trigEnable (s : State) (n : Fin 32) (v : Word) : (s.trigEnable n v).trgCfg n = v := by
  have hset : (s.setReg .tu 0 (Reg.TU_TRGCFGn n) v).trgCfg n = v := State.reg_setReg_same ..
  unfold State.trigEnable
  dsimp only
  split
  · exact hset
  · exact hset

/-- An error of the time unit leaves the configuration of its triggers. -/
theorem State.trgCfg_raise (s : State) (bit addr info : Nat) (n : Fin 32) : (s.raise .tu 0 bit addr info).trgCfg n = s.trgCfg n := by
  refine State.raise_leaves (g := fun s => s.trgCfg n) (fun _ _ => rfl) (fun t c j off v hk => ?_) s 0 bit addr info
  refine State.reg_setReg_other _ _ _ _ _ _ _ _ fun e => ?_
  injection e with hc _ hq
  obtain rfl | ⟨-, hmem⟩ := hk
  · cases hc
  · simp only [errorOffsets, errRegs, List.mem_cons, List.not_mem_nil, or_false] at hmem
    have hcfg : 0x400 + n.val * 0x20 = off := hq
    omega

section TrigSet
variable {n : Fin 32} (h : s.accepts p 0x1A [5]
    [(8, 4, 0), (0xC, 31, 22), (0xC, 15, 0), (0x10, 31, 0), (0x14, 31, 0), (0x18, 31, 0), (0x1C, 31, 0), (0x20, 15, 0)] true e)
  (hn : n = Fin.ofNat 32 (eBits e 8 4 0))
include h hn

/-- On an enabled trigger TRIG_SET can only take the enable back (R243). -/
theorem execTrigSet_enabled (hen : trgEn (s.trgCfg n) = true) :
    execTrigSet p s = .next ((if trgEn (eWord e 0xC) then s else s.trigDisable n).complete p 0 0 1 0) := by
  subst hn
  rw [execTrigSet, State.command_accepts h]
  exact congrArg Host.Outcome.next (if_pos hen)

/-- On a disabled trigger TRIG_SET writes its registers, its configuration last, and is refused when ENABLE does not read as written. -/
theorem execTrigSet_disabled (hoff : trgEn (s.trgCfg n) = false) {u : State} (hu : u = (s.trigRegs n e).writeTrig n (eWord e 0xC)) :
    execTrigSet p s = .next (if trgEn (u.trgCfg n) = trgEn (eWord e 0xC) then u.complete p 0 0 0 0 else u.refuseFree p) := by
  subst hn hu
  rw [execTrigSet, State.command_accepts h]
  exact congrArg Host.Outcome.next (if_neg (Bool.eq_false_iff.mp hoff))

end TrigSet

/-! ### Reads of times and stamps (R247, R643) -/

theorem execCapRead_written {n : Fin 32} {s' : State} (h : s.accepts p 0x1D [5] [(8, 4, 0), (0x10, 47, 0)] true e)
    (hn : n = Fin.ofNat 32 (eBits e 8 4 0)) (hb : eAddr e 0x10 % 64 = 0)
    (hwr : s.fwWrite (p.val == 1) (eAddr e 0x10) ((s.cap n).fifo.flatMap (fun f => leBytes 4 f.1.toNat)) = (s', true)) :
    execCapRead p s = .next ((s'.setCap n { s'.cap n with fifo := [] }).complete p 0 0 (s.cap n).fifo.length 0) := by
  subst hn
  rw [execCapRead, State.command_accepts h]
  refine congrArg Host.Outcome.next ((if_neg (by omega)).trans ?_)
  rw [hwr]

end Ring

/-- Settles O30: each clause is the completion of one command, stated above for it. -/
theorem timeRingCommandsComplete : Obligations.TimeRingCommandsComplete := by
  unfold Obligations.TimeRingCommandsComplete
  refine fun p e s w d n v => ⟨fun c h hw hc => ?wheelSet, fun h hd hv => ?timeSet, fun h hn => ?trigSet, fun h hn => ?capSet,
    fun h hb => ?timeRead, fun s' => execCapRead_written⟩
  case wheelSet =>
    refine ⟨fun hf => execWheelSet_blocked h hw (.inl hf), fun ha h0 => execWheelSet_blocked h hw (.inr ⟨ha, h0⟩), fun hf ha => ?_⟩
    have hset := execWheelSet_free h hw hc hf ha
    exact ⟨fun h0 => hset.trans (by rw [if_pos h0]), fun h1 hl => hset.trans (by simp [h1, hl]),
      fun h1 hl hok => hset.trans (by simp [h1, hl, hok]), fun h1 hl hok => hset.trans (by simp [h1, hl, hok])⟩
  case timeSet =>
    refine ⟨execTimeSetEnable_accepts h hd hv, execTimeSetDisable_free h hd hv, execTimeSetDisable_bound h hd hv, execTimeSetRate_fits h hd hv,
      execTimeSetSlew_fits h hd hv, execTimeSetStep_free h hd hv, execTimeSetStep_bound h hd hv, fun u ha hu => ?_,
      execTimeSetDomainNumber_accepts h hd hv⟩
    have hload := execTimeSetLoad_accepts h hd hv ha hu
    exact ⟨fun hb => hload.trans (by rw [if_neg (by simp [hb]), State.domAct_free hb]),
      fun hb => hload.trans (by rw [if_pos hb, State.domAct_bound hb])⟩
  case trigSet =>
    refine ⟨fun hen hv => (execTrigSet_enabled h hn hen).trans (by rw [if_pos hv]),
      fun hen hv => (execTrigSet_enabled h hn hen).trans (by simp [hv]), fun u hoff hu => ?_⟩
    have hu' : u = s.trigRegs n e := hu
    have huoff : trgEn (u.trgCfg n) = false := by rw [hu', State.trgCfg_trigRegs, hoff]
    have hset := execTrigSet_disabled h hn hoff (u := u.writeTrig n (eWord e 0xC)) (by rw [hu'])
    refine ⟨fun hv hok hf => hset.trans ?_, fun hv hok => hset.trans ?_, fun hv => hset.trans ?_⟩
    · rw [State.writeTrig_enables huoff hv hok hf, State.trgCfg_trigEnable, trgEn_mask, if_pos rfl]
    · have hcleared : trgEn ((u.writeTrig n (eWord e 0xC)).trgCfg n) = false := by
        rw [State.writeTrig_refuses huoff hv hok, State.trgCfg_raise, State.trgCfg, State.reg_setReg_same, trgEn_cleared]
      rw [if_neg (by simp [hcleared, hv]), State.writeTrig_refuses huoff hv hok]
    · rw [State.writeTrig_stores huoff hv, State.trgCfg, State.reg_setReg_same, trgEn_mask, if_pos rfl]
  case capSet =>
    subst hn
    have hset : execCapSet p s = _ := congrArg Host.Outcome.next (State.command_accepts h _)
    exact ⟨fun hok => hset.trans (congrArg Host.Outcome.next (if_pos hok)),
      fun hok => hset.trans (congrArg Host.Outcome.next (if_neg (Bool.eq_false_iff.mp hok)))⟩
  case timeRead => exact congrArg Host.Outcome.next ((State.command_accepts h _).trans (if_neg (by omega)))

end Sys2Proof.Machine
end

section
/-! PROOFS. Schedule: what device firmware and the commands of ring pairs leave of wheels, partitions and jobs. -/

namespace Sys2Proof.Machine

/-! ### Folds -/

/-- What every step of a fold leaves as it is, the fold leaves. -/
theorem foldl_leaves {α σ β : Type} {g : σ → β} {f : σ → α → σ} (h : ∀ t a, g (f t a) = g t) (l : List α) (s : σ) :
    g (l.foldl f s) = g s :=
  List.foldlRecOn (motive := fun t => g t = g s) l f rfl fun t ht a _ => (h t a).trans ht

/-! ### Trace points (R364 to R366) -/

/-- A trace point reaches memory, the log of the firmware and the count of what it drops. -/
theorem State.trace_leaves {β : Type} {g : State → β} (hstore : ∀ (s : State) a bs, g (s.store a bs) = g s)
    (hlog : ∀ (s : State) n h, g { s with fw := { s.fw with logNext := n, logHeld := h } } = g s)
    (hreg : ∀ (s : State) off v, g (s.setReg .fw 0 off v) = g s) (s : State) (fp : Fin 9) (point : Nat) (args : List Nat) :
    g (s.trace fp point args) = g s := by
  unfold State.trace
  split
  · rfl
  · split
    · exact (hstore _ _ _).trans ((hlog _ _ _).trans (hstore _ _ _))
    · dsimp only
      split
      · exact hlog _ _ _
      · exact hreg _ _ _

/-! ### The schedule under operations on other parts of the package -/

@[simp] theorem State.store_sched (s : State) (a : Nat) (bs : List Byte) : (s.store a bs).sched = s.sched := rfl
@[simp] theorem State.store32_sched (s : State) (a : Nat) (v : Word) : (s.store32 a v).sched = s.sched := rfl
@[simp] theorem State.touch_sched (s : State) (ctx : BitVec 12) : (s.touch ctx).sched = s.sched := rfl
@[simp] theorem State.ignoredWrite_sched (s : State) (b : Blk) (i : Nat) : (s.ignoredWrite b i).sched = s.sched := rfl
@[simp] theorem State.setRing_sched (s : State) (p : Fin 64) (r : Ring) : (s.setRing p r).sched = s.sched := rfl

@[simp] theorem State.trace_sched (s : State) (fp : Fin 9) (point : Nat) (args : List Nat) : (s.trace fp point args).sched = s.sched :=
  State.trace_leaves (g := State.sched) (fun _ _ _ => rfl) (fun _ _ _ => rfl) (fun _ _ _ => rfl) s fp point args

@[simp] theorem State.putCore_sched (s : State) (c : CoreId) (x : CoreState) : (s.putCore c x).sched = s.sched := by
  unfold State.putCore
  refine foldl_leaves (g := State.sched) (fun _ _ => ?_) _ _
  rfl

/-! Lines of the caches (R502 to R507) -/

@[simp] theorem State.putLine_sched (s : State) (x : CLine) : (s.putLine x).sched = s.sched := rfl

@[simp] theorem State.writeDown_sched (s : State) (x : CLine) : (s.writeDown x).sched = s.sched := by
  unfold State.writeDown
  dsimp only
  split
  · split <;> rfl
  · rfl

@[simp] theorem State.evict_sched (s : State) (x : CLine) : (s.evict x).sched = s.sched := by
  have hcopies : ((s.copies x.world x.addr).foldl (fun s y => s.writeDown ((s.lineAt y.cache y.world y.addr).getD y)) s).sched = s.sched :=
    foldl_leaves (g := State.sched) (fun _ _ => State.writeDown_sched _ _) _ s
  simp only [State.evict, State.writeDown_sched, apply_ite State.sched, hcopies, ite_self]

@[simp] theorem State.loseLine_sched (s : State) (x : CLine) : (s.loseLine x).sched = s.sched := by
  unfold State.loseLine
  dsimp only
  split <;> rfl

@[simp] theorem State.allocate_sched (s : State) (c : CacheAt) (world : Bool) (a : Nat) (ways : BitVec 16) :
    (s.allocate c world a ways).sched = s.sched := by
  unfold State.allocate
  split
  · rfl
  · dsimp only
    split
    · rfl
    · split
      · rw [State.putLine_sched, State.evict_sched]
        rfl
      · rfl

@[simp] theorem State.lineError_sched (s : State) (pair : Nat) (x : CLine) : (s.lineError pair x).1.sched = s.sched := by
  unfold State.lineError
  dsimp only
  split <;> simp

/-- A hart's line comes into the shared cache and, where that has room, into those of the CPUs (R503). -/
theorem State.allocateAll_sched (s : State) (world : Bool) (a : Nat) (ways : BitVec 16) (cpus : List (Fin 16)) :
    (if ((s.allocate .shared world a ways).lineAt .shared world a).isSome then
      cpus.foldl (fun (s : State) k => (s.allocate (.l2 k) world a 0xFF).allocate (.l1d k) world a 0xF) (s.allocate .shared world a ways)
    else s.allocate .shared world a ways).sched = s.sched := by
  split
  · exact (foldl_leaves (g := State.sched) (fun _ _ => by simp) _ _).trans (State.allocate_sched ..)
  · exact State.allocate_sched ..

/-- A write ends the other copies of its line and makes its own dirty (R503). -/
theorem State.dirtyLine_sched (s : State) (world : Bool) (a : Nat) (old : List Byte) (others : List CLine) (cpus : List (Fin 16)) :
    (cpus.foldl (fun (s : State) k => match s.lineAt (.l1d k) world a with
      | some x => if x.dirty.isSome then s else s.putLine { x with dirty := some old }
      | none => s) (others.foldl (fun s x => s.writeDown x) s)).sched = s.sched := by
  refine (foldl_leaves (g := State.sched) (fun t k => ?_) _ _).trans (foldl_leaves (g := State.sched) (fun _ _ => State.writeDown_sched ..) _ _)
  split
  · split <;> rfl
  · rfl

/-- The caches at one line of an access are lines, memory and errors (R503, R507). -/
@[simp] theorem State.cachedLine_sched (s : State) (src : Src) (write : Bool) (a : Nat) : (s.cachedLine src write a).1.sched = s.sched := by
  unfold State.cachedLine
  dsimp only
  generalize hmet : List.foldl _ (s, false) _ = met
  have hm : met.1.sched = s.sched := by
    subst hmet
    refine foldl_leaves (g := fun r : State × Bool => r.1.sched) (fun r x => ?_) _ _
    split
    · rfl
    · split
      · exact State.lineError_sched ..
      · rfl
  clear hmet
  obtain ⟨t, lost⟩ := met
  dsimp only at hm ⊢
  split
  · exact hm
  · cases src.hart with
    | none =>
      dsimp only
      split
      · exact hm
      · exact (State.dirtyLine_sched ..).trans hm
    | some h =>
      have hin := (t.allocateAll_sched src.world a (t.hartWays h src) (s.hartCpus h)).trans hm
      dsimp only
      split
      · exact hin
      · exact (State.dirtyLine_sched ..).trans hin

@[simp] theorem State.cached_sched (s : State) (src : Src) (a n : Nat) (write : Bool) : (s.cached src a n write).1.sched = s.sched := by
  unfold State.cached
  split
  · refine foldl_leaves (g := fun r : State × Bool => r.1.sched) (fun _ _ => ?_) _ _
    exact State.cachedLine_sched ..
  · rfl

/-! A posted write of a unit (R213, R223, R224) -/

@[simp] theorem State.shareSlot_sched (s : State) (b : Blk) (i : Nat) (waiting : List (Fin 32)) :
    (s.shareSlot b i waiting).1.sched = s.sched := by
  unfold State.shareSlot
  dsimp only
  split
  · rfl
  · split
    all_goals
      refine foldl_leaves (g := State.sched) (fun t e => ?_) _ s
      split
      · rfl
      · split <;> rfl

@[simp] theorem State.serveAt_sched (s : State) (b : Blk) (i : Nat) (src : Src) (n slots : Nat) :
    (s.serveAt b i src n slots).sched = s.sched :=
  foldl_leaves (g := State.sched) (fun _ _ => State.shareSlot_sched ..) (List.range slots) s

@[simp] theorem State.cross_sched (s : State) (src : Src) (a n : Nat) (write : Bool) : (s.cross src a n write).sched = s.sched :=
  foldl_leaves (g := State.sched) (fun _ _ => State.serveAt_sched ..) _ s

@[simp] theorem State.serve_sched (s : State) (src : Src) (a n : Nat) (write : Bool) : (s.serve src a n write).sched = s.sched := by
  unfold State.serve
  split
  · exact foldl_leaves (g := State.sched) (fun _ _ => State.serveAt_sched ..) _ _
  · rfl

@[simp] theorem State.recordEcc_sched (s : State) (g : Nat) (e : EccErr) : (s.recordEcc g e).sched = s.sched := by
  unfold State.recordEcc
  split <;> simp [apply_ite State.sched]

@[simp] theorem State.rmw_sched (s : State) (a n : Nat) : (s.rmw a n).1.sched = s.sched :=
  foldl_leaves (g := State.sched) (fun _ _ => State.recordEcc_sched ..) _ s

@[simp] theorem State.logDirty_sched (s : State) (a n : Nat) : (s.logDirty a n).sched = s.sched := by
  unfold State.logDirty
  split
  · split <;> rfl
  · rfl

@[simp] theorem State.dirWrite_sched (s : State) (a : Nat) (bs : List Byte) : (s.dirWrite a bs).sched = s.sched := by
  unfold State.dirWrite
  dsimp only
  rw [apply_ite State.sched, State.ignoredWrite_sched, ite_self]
  refine foldl_leaves (g := State.sched) (fun _ _ => ?_) _ _
  split <;> rfl

@[simp] theorem State.landWrite_sched (s : State) (src : Src) (a : Nat) (bs : List Byte) : (s.landWrite src a bs).1.sched = s.sched := by
  unfold State.landWrite
  dsimp only
  split
  · simp
  · split
    · split <;> simp
    · split <;> simp
    all_goals simp

@[simp] theorem State.secViol_sched (s : State) (src : Src) (a reason : Nat) : (s.secViol src a reason).sched = s.sched := by
  unfold State.secViol
  dsimp only
  split <;> simp

@[simp] theorem State.recordRefusal_sched (s : State) (src : Src) (a : Nat) (r : Refused) : (s.recordRefusal src a r).sched = s.sched := by
  unfold State.recordRefusal
  split
  · simp
  · simp
  · simp
  · dsimp only
    split <;> rfl
  · rfl

@[simp] theorem State.pwFail_sched (s : State) (src : Src) (a code : Nat) (target : Fin 8) : (s.pwFail src a code target).sched = s.sched := by
  rw [State.pwFail_eq]
  have hrecord := s.pwRecord_leaves src a code target (g := State.sched) (fun _ _ => rfl) (fun _ _ => rfl) (fun _ _ _ _ _ => rfl)
  unfold State.pwCount
  split
  · rw [State.putCore_sched, hrecord]
  · exact hrecord
  · exact hrecord

@[simp] theorem State.fwWrite_sched (s : State) (world : Bool) (a : Nat) (bs : List Byte) : (s.fwWrite world a bs).1.sched = s.sched := by
  unfold State.fwWrite State.unitWriteOk
  dsimp only
  split
  · simp
  · have hland := (State.landWrite_sched (s.cross (fwSrc world) a bs.length true) (fwSrc world) a bs).trans (State.cross_sched ..)
    split
    · next ht => rwa [ht] at hland
    · next ht => rwa [ht, ← State.pwFail_sched] at hland

/-! Completions (R334, R336, R339, R342) -/

@[simp] theorem State.post_sched (s : State) (p : Fin 64) (bs : List Byte) (droppable : Bool) : (s.post p bs droppable).sched = s.sched := by
  have hwrite : (s.cqWrite p bs).sched = s.sched := by
    simp only [State.cqWrite, State.cqPend, apply_ite State.sched, State.setReg_sched, State.setRing_sched, State.fwWrite_sched, ite_self]
  unfold State.post
  dsimp only
  split
  · rfl
  · split
    · exact hwrite
    · split
      · simp
      · rfl

@[simp] theorem State.finish_sched (s : State) (p : Fin 64) (status detail v0 v1 : Nat) : (s.finish p status detail v0 v1).sched = s.sched := by
  unfold State.finish
  dsimp only
  split
  · rfl
  · simp

@[simp] theorem State.closeRing_sched (s : State) (p : Fin 64) : (s.closeRing p).sched = s.sched := by
  unfold State.closeRing
  dsimp only
  generalize hu : (if s.load32 (ringCb p + 0x18) != (s.ring p).sqHead then s.touch (s.ring p).ctx else s) = u
  have hsched : u.sched = s.sched := by
    subst hu
    split <;> rfl
  rw [State.setRing_sched, ← hsched]
  split <;> rfl

/-- The completion of a command leaves the schedule as it is. -/
@[simp] theorem State.complete_sched (s : State) (p : Fin 64) (status detail v0 v1 : Nat) :
    (s.complete p status detail v0 v1).sched = s.sched := by
  unfold State.complete
  dsimp only
  split
  · split <;> simp
  · simp

theorem State.part_congr {s t : State} (h : t.sched = s.sched) (pid : Fin 32) : t.part pid = s.part pid := by
  simp only [State.part, h]

end Sys2Proof.Machine
end

section
/-! PROOFS. Partitions and watchdogs: admission, unload and the restarts of firmware processors, and the completion of each command (O33). -/

namespace Sys2Proof.Machine

/-! ### Admission (R275, R276, R633 to R635) -/

section Load
variable {s s1 s2 s3 s4 s5 s6 : State} {p : Fin 64} {e : BitVec 512} {hdr dbs ch cbs fh img : List Byte} {n : Nat} {d : PDesc} {c : Cert}
  (h : s.accepts p 0x10 [1] [(8, 47, 0), (0x10, 47, 0), (0x18, 47, 0)] false e)
  (hhdr : s.fwRead (p.val == 1) (eAddr e 8) 0x20 = (s1, some hdr)) (hn : descRecs hdr = some n)
  (hdesc : s1.fwRead (p.val == 1) (eAddr e 8) (0x20 + 8 * n) = (s2, some dbs))
  (hch : s2.fwRead (p.val == 1) (eAddr e 0x18) 0x60 = (s3, some ch))
  (hcert : s3.fwRead (p.val == 1) (eAddr e 0x18) (certLen ch) = (s4, some cbs))
  (hfh : s4.fwRead (p.val == 1) (eAddr e 0x10) 0x40 = (s5, some fh))
  (himg : s5.fwRead (p.val == 1) (eAddr e 0x10) (bWord fh 8 * 64) = (s6, some img))
  (hd : parseDesc dbs = some d) (hc : parseCert cbs n = some c) (hu : s6.mayUse p d.ctx = true) (hl : d.ctx ≠ 0 → s6.ctxLive d.ctx = true)
include h hhdr hn hdesc hch hcert hfh himg hd hc hu hl

/-- Once descriptor, certificate and image are read and the context may be used, admission alone decides. -/
theorem execPartLoad_judged (sigOk : Bool) (code : List (CoreId × Nat × List Byte)) (locks : List Nat) {r : Nat}
    (hr : r = s6.admitCode d c sigOk (c.formula == sha256 img && c.placement == sha256 (dbs.drop 0x20) && formulaOk fh 0x4E5A4631 c.toolver)) :
    execPartLoad p sigOk code locks s = .next (if r ≠ 0 then (s6.trace 1 0x0202 [d.pid, d.ctx.toNat, r]).refuse p r
      else (State.trace (s6.admitPart d c (eAddr e 0x10) (sha256 cbs) code (locks.take (bBits fh 0x14 8 0))) 1 0x0201
          [d.pid, d.ctx.toNat, (d.recs.map (fun r => r.coreList.length)).foldl (· + ·) 0]).complete p 0 0 0 0) := by
  have hlive : ¬(d.ctx ≠ 0 ∧ (!s6.ctxLive d.ctx) = true) := fun ⟨h0, h1⟩ => by simp [hl h0] at h1
  subst hr
  rw [execPartLoad, State.command_accepts h]
  simp only [hhdr, hn, hdesc, hch, hcert, hfh, State.readImage, himg, hd, hc, hu]
  rw [if_neg (by simp), if_neg hlive]
  rfl

end Load

/-! ### Unload (R278) -/

section Unload
variable {s : State} {pid : Fin 32} {x : Part}

theorem execPartUnload_begins {p : Fin 64} {e : BitVec 512} (h : s.accepts p 0x11 [1] [(8, 4, 0)] false e)
    (hpid : pid = Fin.ofNat 32 (eBits e 8 4 0)) (hx : s.part pid = some x) (hun : x.unloading = false) (hby : x.unloadBy = none)
    (hu : s.mayUse p x.ctx = true) : execPartUnload p s = .next (s.beginUnload pid (some p)) := by
  subst hpid
  rw [execPartUnload, State.command_accepts h]
  simp only [hx, hby, hu, hun]
  rfl

/-- A partition is gone, and the command that waits for its unload completes. -/
def State.unloaded (s : State) (pid : Fin 32) : Option (Fin 64) → State
  | some p => (s.removePart pid).complete p 0 0 0 0
  | none => s.removePart pid

/-- Once every launched job has its outcome and FP1 runs, the unload is done. -/
theorem execUnloadFinish_quiet (hx : s.part pid = some x) (hun : x.unloading = true) (hq : s.partQuiet pid = true) (hf : s.fpRuns 1 = true) :
    execUnloadFinish pid s = .next (s.unloaded pid x.unloadBy) := by
  simp only [execUnloadFinish, hx, hun, hq, hf]
  cases x.unloadBy <;> rfl

/-- Step 4 of an unload leaves no partition of that number. -/
theorem State.part_removePart (s : State) (pid : Fin 32) : (s.removePart pid).part pid = none := by
  unfold State.removePart
  cases hx : s.part pid with
  | none => exact hx
  | some x =>
    dsimp only
    refine (State.part_congr (State.trace_sched ..) pid).trans ?_
    refine (foldl_leaves (g := fun t : State => t.part pid) (fun t r => ?_) _ _).trans (AMap.get?_erase_same _ pid)
    split <;> rfl

theorem State.part_unloaded (s : State) (pid : Fin 32) (by_ : Option (Fin 64)) : (s.unloaded pid by_).part pid = none := by
  cases by_ with
  | none => exact s.part_removePart pid
  | some p => exact (State.part_congr (State.complete_sched ..) pid).trans (s.part_removePart pid)

end Unload

/-! ### Firmware processors (R358 to R362, R369, R479) -/

section Fp
variable {s : State} {k : Fin 8} {src : Src}

@[simp] theorem State.fp_setFp_same (s : State) (k : Fin 8) (x : Fp) : (s.setFp k x).fp k = x := AMap.get_set_same ..

@[simp] theorem State.fp_trace (s : State) (fp : Fin 9) (point : Nat) (args : List Nat) (k : Fin 8) : (s.trace fp point args).fp k = s.fp k :=
  State.trace_leaves (g := fun s => s.fp k) (fun _ _ _ => rfl) (fun _ _ _ => rfl) (fun _ _ _ => rfl) s fp point args

@[simp] theorem State.fp_raise (s : State) (b : Blk) (i bit addr info : Nat) (k : Fin 8) : (s.raise b i bit addr info).fp k = s.fp k :=
  State.raise_leaves (g := fun s => s.fp k) (fun _ _ => rfl) (fun _ _ _ _ _ _ => rfl) s i bit addr info

/-- A restarted processor starts, and the contexts whose work waits for it are kept (R359, R361). -/
theorem State.fp_restartFp (s : State) (k : Fin 8) : (s.restartFp k).fp k = { s.fp k with
    st := .starting, restarts := (s.fp k).restarts + 1, resetAt := s.now, affected := s.affectedNow } := by
  have hdoms (t : State) (l : List (Fin 4)) : (l.foldl (fun (t : State) (d : Fin 4) =>
      if t.domEnabled d then t.setDom d { t.dom d with holdover := true } else t) t).fp k = t.fp k := by
    refine foldl_leaves (g := fun t : State => t.fp k) (fun t d => ?_) l t
    split <;> rfl
  simp only [State.restartFp, apply_ite (fun t : State => t.fp k), hdoms, State.fp_trace, State.fp_raise, State.fp_setFp_same, ite_self]

section Runs
variable (h : s.fpRuns k = true)
include h

theorem execWatchdogKick_self : execWatchdogKick src true k s = .next (s.setFp k { s.fp k with lastKick := s.now }) :=
  congrArg Host.Outcome.next (if_pos h)

theorem execWatchdogExpire_due (hdue : Nat.max (s.fp k).lastKick (s.fp k).runAt + 250000 ≤ s.now) :
    execWatchdogExpire k s = .next (s.restartFp k) :=
  congrArg Host.Outcome.next (if_pos (by rw [h, Bool.true_and, decide_eq_true hdue]))

theorem execFpException_runs : execFpException k s = .next (s.restartFp k) := congrArg Host.Outcome.next (if_pos h)

theorem execFpRestart_allowed {v : Word} (hr : s.reaches src (vehRegs 0x1300000 + Reg.FW_FPCTRLk k) = true) (hv : bitOf v 0 = true)
    (ht : k = 4 → src.world = true) (hw : s.mayWrite src .fw 0 = true) : execFpRestart src k v s = .next (s.restartFp k) := by
  have htrusted : ¬(k = 4 ∧ (!src.world) = true) := fun ⟨h4, hn⟩ => by simp [ht h4] at hn
  rw [execFpRestart, State.regCommand_reaches hr, if_neg (by simp [hv]), if_neg htrusted, State.guarded_mayWrite hw, if_pos h]

end Runs

theorem execWatchdogKick_other (hr : s.reaches src (vehRegs 0x1300000 + Reg.FW_WDKICKk k) = true) :
    execWatchdogKick src false k s = .next (s.ignoredWrite .fw 0) :=
  congrArg Host.Outcome.next ((if_neg Bool.false_ne_true).trans (State.regCommand_reaches hr _ _ _))

section Starting
variable (hst : (s.fp k).st = .starting)
include hst

/-- A processor that starts in time runs again; FP4 only with the image of the manifest, and otherwise the package fails. -/
theorem execFpRunning_inTime (hnow : s.now ≤ (s.fp k).resetAt + 2000000) (digest : List Word) :
    execFpRunning k digest s = .next (if k = 4 then
      (if digest.flatMap (fun (w : Word) => leBytes 4 w.toNat) = s.fp4Digest then (s.measureFp4 digest).fpBack 4
        else ((State.raise (s.measureFp4 digest) .sec 0 2 0 0).setFp 4 { s.fp k with st := .reset }).packageFail)
      else s.fpBack k) := by
  have hin : ¬((s.fp k).st != .starting || decide ((s.fp k).resetAt + 2000000 < s.now)) = true := by simp [hst, hnow]
  exact congrArg Host.Outcome.next (if_neg hin)

theorem execFpStartTimeout_due (hdue : (s.fp k).resetAt + 2000000 ≤ s.now) :
    execFpStartTimeout k s = .next ((State.raise (s.setFp k { s.fp k with st := .held }) .fw 0 3 0 0).packageFail) :=
  congrArg Host.Outcome.next (if_pos (by simp [hst, hdue]))

end Starting
end Fp

/-! ### The management core (R363, R420) -/

section Mc
variable {s : State} (h : s.fw.mcRunning = true)
include h

theorem execMcWatchdogKick_self (src : Src) :
    execMcWatchdogKick src true s = .next { s with fw := { s.fw with mcKick := s.now } } :=
  congrArg Host.Outcome.next (if_pos h)

theorem execMcWatchdogExpire_due (hdue : s.fw.mcKick + 1000000 ≤ s.now) : execMcWatchdogExpire s = .next s.mcFail :=
  congrArg Host.Outcome.next (if_pos (by rw [h, Bool.true_and, decide_eq_true hdue]))

theorem execMcShadowMismatch_runs : execMcShadowMismatch s = .next s.mcFail := congrArg Host.Outcome.next (if_pos h)

end Mc

theorem execMcWatchdogKick_other {s : State} {src : Src} (hr : s.reaches src (vehRegs 0x1300000 + Reg.FW_MCWDKICK) = true) :
    execMcWatchdogKick src false s = .next (s.ignoredWrite .fw 0) :=
  congrArg Host.Outcome.next ((if_neg Bool.false_ne_true).trans (State.regCommand_reaches hr _ _ _))

/-- Settles O33: each clause is the completion of one command, stated above for it. -/
theorem partitionAndWatchdogCommandsComplete : Obligations.PartitionAndWatchdogCommandsComplete := by
  unfold Obligations.PartitionAndWatchdogCommandsComplete
  refine fun p e s pid x k src v => ⟨?load, execPartUnload_begins, ?finish, fun h => ?runs, execWatchdogKick_other, fun digest hst hnow => ?running,
    execFpStartTimeout_due, fun h => ⟨execMcWatchdogKick_self h src, execMcWatchdogExpire_due h, execMcShadowMismatch_runs h⟩,
    execMcWatchdogKick_other⟩
  case load =>
    intro sigOk code locks hdr n dbs ch cbs fh img d c s1 s2 s3 s4 s5 s6 h hhdr hn hdesc hch hcert hfh himg hd hc hu hl r hr
    have hjudged := execPartLoad_judged h hhdr hn hdesc hch hcert hfh himg hd hc hu hl sigOk code locks hr
    exact ⟨fun h0 => hjudged.trans (by rw [if_neg (not_not_intro h0)]), fun h0 => hjudged.trans (by rw [if_pos h0])⟩
  case finish =>
    intro hx hun hq hf
    have hfinish := execUnloadFinish_quiet hx hun hq hf
    exact ⟨fun hby => hfinish.trans (by rw [hby, State.unloaded]),
      fun hby => hfinish.trans (by rw [hby, State.unloaded]), _, hfinish, s.part_unloaded pid x.unloadBy⟩
  case runs =>
    exact ⟨execWatchdogKick_self h, execWatchdogExpire_due h, execFpException_runs h, execFpRestart_allowed h, s.fp_restartFp k⟩
  case running =>
    have hrunning := execFpRunning_inTime hst hnow digest
    refine ⟨fun hk => hrunning.trans (by rw [if_neg hk]), fun hk hdig => ?_, fun hk hdig => ?_⟩
    · subst hk
      exact hrunning.trans (by rw [if_pos rfl, if_pos hdig])
    · subst hk
      exact hrunning.trans (by rw [if_pos rfl, if_neg hdig])

end Sys2Proof.Machine
end

section
/-! PROOFS. Wheels: the completion of each command (O18), the numbers of frames, and the stop of every wheel with the clock (O19). -/

namespace Sys2Proof.Machine

/-! ### Ticks and source events (R251 to R258) -/

section Commands
variable {s : State} {w : Fin 4}

section Clock
variable (hf : s.time.frozen = false) (hon : s.domOn 86 = true)
include hf hon

theorem State.wheelClock_runs : s.wheelClock = true := by rw [State.wheelClock, hf, hon]; rfl

/-- A tick within a frame (R251). -/
theorem State.phaseTick_advances (hg : (s.wheel w).going = true) (hstart : (s.wheel w).startDue = false)
    (hdue : s.tickDue w ((s.wheel w).phase.toNat + 1) = true) (hp : (s.wheel w).phase ≠ 0xFFFF) :
    s.phaseTick w = (s.setWheel w { s.wheel w with phase := (s.wheel w).phase + 1, tickLt := s.now }).tickEffects w := by
  have hclock := State.wheelClock_runs hf hon
  simp only [State.phaseTick, hclock, hg, hstart, hdue, if_neg hp]
  rfl

/-- A frame that its source has ended makes way for the next one (R253, R256). -/
theorem State.phaseTick_starts (hg : (s.wheel w).going = true) (hstart : (s.wheel w).startDue = true)
    (hdue : (s.wheel w).st = .freeRun ∨ (s.wheel w).hold = true ∨ s.tickDue w ((s.wheel w).phase.toNat + 1) = true) :
    s.phaseTick w = s.startFrame w s.now (s.wheel w).st := by
  have hclock := State.wheelClock_runs hf hon
  have hends : ((s.wheel w).st = .freeRun ∨ (s.wheel w).hold = true) ∨ s.tickDue w ((s.wheel w).phase.toNat + 1) = true := or_assoc.mpr hdue
  simp [State.phaseTick, hclock, hg, hstart, hends]

/-- A held wheel whose source stays away loses it (R256). -/
theorem execSourceHoldTimeout_due (hh : (s.wheel w).hold = true) (hc : whlCamera (s.whlCfg w) = true)
    (hdue : s.tickDue w (65536 + 1024) = true) : execSourceHoldTimeout w s = .next (s.loseSource w) :=
  congrArg Host.Outcome.next (if_pos (by rw [State.wheelClock_runs hf hon, hh, hc, hdue]; rfl))

/-- The fourth frame without a source ends in a stop (R256, R258). -/
theorem execFreeRunExpire_due (hst : (s.wheel w).st = .freeRun) (hn : (s.wheel w).freeFrames = 4) (hp : (s.wheel w).phase = 0xFFFF)
    (hstart : (s.wheel w).startDue = false) (hdue : s.tickDue w 65536 = true) : execFreeRunExpire w s = .next (s.wheelStop w) := by
  refine congrArg Host.Outcome.next (if_pos ?_)
  rw [State.wheelClock_runs hf hon, hst, hn, hp, hstart, hdue]
  rfl

end Clock

/-- A held wheel that loses its source ends its frame at once and runs free in LT; the jobs on it are marked (R256, R282). -/
theorem State.loseSource_held (hh : (s.wheel w).hold = true) (hst : (s.wheel w).st = .running) {v : State}
    (hv : v = s.setWheel w { s.wheel w with
      st := .freeRun, freeFrames := 0, anchorT := s.now, anchorPh := (s.wheel w).phase.toNat, startDue := true, hold := false }) :
    s.loseSource w = (({ v with sched := { v.sched with
      jobs := v.sched.jobs.map (fun j => if v.jobOn w j then { j with freerun := true } else j) } } : State).raiseSub .whl 0 1 w).count
        .whl 0 (Reg.WHL_LOSSCNTw w) 1 := by
  subst hv
  rw [State.loseSource, if_pos hst, hh]

/-- The start event of an armed wheel begins its first frame; while its trigger goes on, the source is not lost (R241, R252). -/
theorem execWheelStartEvent_armed {t : Nat} (hf : s.time.frozen = false) (he : (s.wheel w).event = some t) (hst : (s.wheel w).st = .armed)
    {u : State} (hu : u = (s.setWheel w { s.wheel w with event := none }).startFrame w t .running)
    (ha : (u.trig (whlTrig (u.whlCfg w))).active = true) : execWheelStartEvent w s = .next u := by
  have hsource : (s.setWheel w { s.wheel w with event := none }).sourceEvent w t false = u := by
    simp [State.sourceEvent, hf, hst, hu]
  simp only [execWheelStartEvent, he, hsource, if_pos ha]

/-- An accepted enable of a wheel that is not live arms it (R257, R260, R300). -/
theorem execWheelEnable_accepted {src : Src} {v : Word} (hr : s.reaches src (vehRegs 0x1410000 + Reg.WHL_CFGw w) = true)
    (hw : s.mayWrite src .whl 0 = true) (ha : s.admitted w = false ∨ src.fw = true) (hv : v &&& 0xC3EF0000 = v) (hen : whlEnabled v = true)
    (hl : (s.wheel w).live = false) (hok : s.enableOk w v (s.reg .whl 0 (Reg.WHL_PERw w)).toNat = true) :
    execWheelEnable src w v s = .next (s.armWheel w v) := by
  have hopen : ¬(s.admitted w && !src.fw) = true := by obtain h | h := ha <;> simp [h]
  rw [execWheelEnable, State.whlWrite, State.regCommand_reaches hr, if_neg hopen, State.guarded_mayWrite hw, State.writeWhlCfg]
  simp only [hv, hen, hl, hok]
  rfl

end Commands

/-- Settles O18: each clause is the completion of one command, stated above for it. -/
theorem wheelCommandsComplete : Obligations.WheelCommandsComplete := by
  unfold Obligations.WheelCommandsComplete
  refine fun w s hf hon => ⟨fun hg hstart hdue hp => congrArg Host.Outcome.next (State.phaseTick_advances hf hon hg hstart hdue hp),
    fun hg hstart hdue => congrArg Host.Outcome.next (State.phaseTick_starts hf hon hg hstart hdue),
    fun t he hst ha => execWheelStartEvent_armed hf he hst rfl ha, fun hh hc hdue hst v hv => ?hold, execFreeRunExpire_due hf hon,
    fun src v => execWheelEnable_accepted⟩
  exact (execSourceHoldTimeout_due hf hon hh hc hdue).trans (congrArg Host.Outcome.next (State.loseSource_held hh hst hv))

end Sys2Proof.Machine
end

section
/-! PROOFS. Frames: what jobs, cores and errors leave of the wheels, the number of the frame that begins, and the stop of every wheel with
the clock (O19). -/

namespace Sys2Proof.Machine

/-- The wheels, the time unit and the registers of the wheel master. -/
def State.wheelView (s : State) : AMap (Fin 4) Wheel × TimeState × (Nat → Word) := (s.sched.wheels, s.time, s.reg .whl 0)

theorem State.wheel_of_wheelView {s t : State} (h : t.wheelView = s.wheelView) (w : Fin 4) : t.wheel w = s.wheel w :=
  congrArg (fun m : AMap (Fin 4) Wheel × TimeState × (Nat → Word) => m.1.get w Wheel.reset) h

theorem State.reg_of_wheelView {s t : State} (h : t.wheelView = s.wheelView) (off : Nat) : t.reg .whl 0 off = s.reg .whl 0 off :=
  congrArg (fun m : AMap (Fin 4) Wheel × TimeState × (Nat → Word) => m.2.2 off) h

/-! ### Errors, trace points and cores -/

section View
variable (s : State)

/-- A register of another block is none of the wheel master. -/
theorem State.setReg_wheelView {b : Blk} (hb : b ≠ .whl) (i off : Nat) (v : Word) : (s.setReg b i off v).wheelView = s.wheelView := by
  have hreg : (s.setReg b i off v).reg .whl 0 = s.reg .whl 0 :=
    funext fun _ => State.reg_setReg_other _ _ _ _ _ _ _ _ fun e => hb (congrArg RegKey.blk e).symm
  rw [State.wheelView, hreg]
  rfl

theorem State.raise_wheelView {b : Blk} (hb : b ≠ .whl) (i bit addr info : Nat) : (s.raise b i bit addr info).wheelView = s.wheelView := by
  refine State.raise_leaves (g := State.wheelView) (fun _ _ => rfl) (fun t c j off v hc => t.setReg_wheelView ?_ j off v) s i bit addr info
  obtain rfl | ⟨rfl, -⟩ := hc
  · decide
  · exact hb

@[simp] theorem State.trace_wheelView (fp : Fin 9) (point : Nat) (args : List Nat) : (s.trace fp point args).wheelView = s.wheelView :=
  State.trace_leaves (g := State.wheelView) (fun _ _ _ => rfl) (fun _ _ _ => rfl) (fun t _ _ => t.setReg_wheelView (by decide) _ _ _) s fp point
    args

@[simp] theorem State.putCore_wheelView (c : CoreId) (x : CoreState) : (s.putCore c x).wheelView = s.wheelView := by
  unfold State.putCore
  refine foldl_leaves (g := State.wheelView) (fun _ _ => ?_) _ _
  rfl

@[simp] theorem State.release_wheelView (c : CoreId) (rd : Nat) (v : Word) : (s.release c rd v).wheelView = s.wheelView :=
  State.putCore_wheelView ..

@[simp] theorem State.setCadCore_wheelView (c : CoreId) (v : Nat) : (s.setCadCore c v).wheelView = s.wheelView :=
  State.setReg_wheelView _ (by decide) _ _ _

@[simp] theorem State.barClear_wheelView (c : CoreId) : (s.barClear c).wheelView = s.wheelView := by
  refine foldl_leaves (g := State.wheelView) (fun t slot => ?_) _ s
  split
  · split
    · rw [State.barRelease_eq]
      refine foldl_leaves (g := State.wheelView) (fun u d => ?_) _ _
      obtain ⟨rd, e⟩ | ⟨e, -⟩ := u.freeFrom_cases slot 1 d <;> rw [e]
      exact State.release_wheelView ..
    · rfl
  · rfl

@[simp] theorem State.stopCore_wheelView (c : CoreId) : (s.stopCore c).wheelView = s.wheelView := by
  simp [State.stopCore]

/-! ### Jobs and kinds -/

@[simp] theorem State.setJob_wheelView (j : Job) : (s.setJob j).wheelView = s.wheelView := rfl
@[simp] theorem State.setPart_wheelView (pid : Fin 32) (x : Part) : (s.setPart pid x).wheelView = s.wheelView := rfl

@[simp] theorem State.modKind_wheelView (pid kn : Fin 32) (f : Kind → Kind) : (s.modKind pid kn f).wheelView = s.wheelView := by
  unfold State.modKind
  split <;> rfl

/-- What the filling of the mailbox brings: its highest count, and MBHIGH above 6,144 records (R360). -/
def State.markMailbox (s : State) : State :=
  let n := s.mbCount
  let s := if (s.reg .fw 0 Reg.FW_MBMAX).toNat < n then s.setReg .fw 0 Reg.FW_MBMAX (BitVec.ofNat 32 n) else s
  if 6144 < n then (s.raise .fw 0 2 0 0).trace 2 0x0004 [n] else s

theorem State.mailboxPush_eq (j : Job) : s.mailboxPush j = State.markMailbox { s.touch j.ctx with
    sched := { s.sched with mailbox := s.sched.mailbox ++ [j] } } := rfl

theorem State.markMailbox_wheelView : s.markMailbox.wheelView = s.wheelView := by
  have hmax : (if (s.reg .fw 0 Reg.FW_MBMAX).toNat < s.mbCount then s.setReg .fw 0 Reg.FW_MBMAX (BitVec.ofNat 32 s.mbCount)
      else s).wheelView = s.wheelView := by
    split
    · exact s.setReg_wheelView (by decide) _ _ _
    · rfl
  unfold State.markMailbox
  dsimp only
  split
  · rw [State.trace_wheelView, State.raise_wheelView _ (by decide), hmax]
  · exact hmax

@[simp] theorem State.mailboxPush_wheelView (j : Job) : (s.mailboxPush j).wheelView = s.wheelView := by
  rw [State.mailboxPush_eq, State.markMailbox_wheelView]
  rfl

@[simp] theorem State.finalize_wheelView (j : Job) (out : JOut) : (s.finalize j out).wheelView = s.wheelView := by
  unfold State.finalize
  split
  · dsimp only
    split
    · rfl
    · simp
  · rfl

@[simp] theorem State.stopJob_wheelView (j : Job) : (s.stopJob j).wheelView = s.wheelView := by
  unfold State.stopJob
  split
  · dsimp only
    refine (foldl_leaves (g := State.wheelView) (fun _ _ => State.stopCore_wheelView ..) _ _).trans
      (foldl_leaves (g := State.wheelView) (fun t e => ?_) _ s)
    split
    · rw [State.setCadCore_wheelView, State.setReg_wheelView _ (by decide)]
    · rfl
  · rfl

@[simp] theorem State.prefail_wheelView (pid kn : Fin 32) (lead : ClusterId) (j : Job) (cs : List CoreId) :
    (s.prefail pid kn lead j cs).wheelView = s.wheelView := by
  rw [State.prefail, State.raise_wheelView _ (by decide), State.faultJob, State.stopJob_wheelView, State.finalize_wheelView]

@[simp] theorem State.disarmAll_wheelView (pid : Fin 32) : (s.disarmAll pid).wheelView = s.wheelView := by
  have hunstage (t : State) (p : Part) (k : Kind) : (t.unstage p k).wheelView = t.wheelView := by
    unfold State.unstage
    split
    · refine foldl_leaves (g := State.wheelView) (fun u c => ?_) _ t
      split <;> simp
    · rfl
  unfold State.disarmAll
  split
  · exact (State.setPart_wheelView ..).trans (foldl_leaves (g := State.wheelView) (fun _ _ => hunstage ..) _ s)
  · rfl

/-! ### Ticks (R251, R296) -/

/-- A tick leaves the wheels as it finds them. -/
@[simp] theorem State.tickEffects_wheelView (w : Fin 4) : (s.tickEffects w).wheelView = s.wheelView := by
  have hprefail (t : State) : (t.prefailTick w).wheelView = t.wheelView := by
    refine foldl_leaves (g := State.wheelView) (fun u e => ?_) _ t
    split
    · rfl
    · refine foldl_leaves (g := State.wheelView) (fun v k => ?_) _ u
      dsimp only
      split
      · exact foldl_leaves (g := State.wheelView) (fun _ _ => State.prefail_wheelView ..) _ v
      · rw [State.modKind_wheelView]
        exact foldl_leaves (g := State.wheelView) (fun _ _ => State.prefail_wheelView ..) _ v
  have hrelease (t : State) : (t.releasePhases w).wheelView = t.wheelView := by
    refine foldl_leaves (g := State.wheelView) (fun u e => ?_) _ t
    split
    · split <;> simp
    · rfl
  exact (hrelease _).trans (hprefail _)

end View

/-! ### The number of a frame (R252, R262) -/

/-- The wheel at tick 0 of a frame that begins now. -/
def State.frameWheel (s : State) (w : Fin 4) (at_ : Nat) (st : WheelSt) : Wheel :=
  { s.wheel w with
    st := st, frame := if (s.wheel w).begun then (s.wheel w).frame + 1 else 0, begun := true, phase := 0, startLt := s.now32,
    startDue := false, hold := false, tickLt := s.now, anchorT := at_, anchorPh := 0,
    freeFrames := if st = .freeRun then (s.wheel w).freeFrames + 1 else 0 }

theorem State.startFrame_eq (s : State) (w : Fin 4) (at_ : Nat) (st : WheelSt) : s.startFrame w at_ st =
    (((s.setWheel w (s.frameWheel w at_ st)).setReg .whl 0 (Reg.WHL_FRAMEw w) (s.frameWheel w at_ st).frame).setReg
      .whl 0 (Reg.WHL_STARTw w) (s.frameWheel w at_ st).startLt).tickEffects w := rfl

theorem State.wheel_startFrame (s : State) (w : Fin 4) (at_ : Nat) (st : WheelSt) : (s.startFrame w at_ st).wheel w = s.frameWheel w at_ st := by
  rw [State.startFrame_eq, State.wheel_of_wheelView (State.tickEffects_wheelView _ w)]
  exact State.wheel_setWheel_same ..

theorem State.frameReg_startFrame (s : State) (w : Fin 4) (at_ : Nat) (st : WheelSt) :
    (s.startFrame w at_ st).reg .whl 0 (Reg.WHL_FRAMEw w) = (s.frameWheel w at_ st).frame := by
  have hoff : Reg.WHL_FRAMEw w ≠ Reg.WHL_STARTw w := by simp [Reg.WHL_FRAMEw, Reg.WHL_STARTw]
  rw [State.startFrame_eq, State.reg_of_wheelView (State.tickEffects_wheelView _ w), State.reg_setReg_off _ _ _ _ hoff, State.reg_setReg_same]

/-! ### The stop of the wheels (R249, R257, R258) -/

theorem State.raiseSub_sched (s : State) (b : Blk) (i bit sub : Nat) : (s.raiseSub b i bit sub).sched = s.sched := by
  rw [State.raiseSub, State.raise_sched]
  split <;> rfl

theorem State.raiseSub_time (s : State) (b : Blk) (i bit sub : Nat) : (s.raiseSub b i bit sub).time = s.time := by
  rw [State.raiseSub, State.raise_leaves (g := State.time) (fun _ _ => rfl) (fun _ _ _ _ _ _ => rfl)]
  split <;> rfl

/-- What the stop of its wheel brings to a partition: launched jobs end WHEELSTOP, kinds are disarmed (R258). -/
def State.stopPart (s : State) (e : Fin 32 × Part) : State :=
  let s := (s.openJobs e.1).foldl (fun s j => if j.launched then (s.finalize j .wheelStop).stopJob j else s) s
  let armed := (e.2.kinds.filter (fun k => k.armed)).map (fun k => k.num)
  match (s.disarmAll e.1).part e.1 with
  | some x => (s.disarmAll e.1).setPart e.1 { x with rearm := x.rearm ++ armed }
  | none => s

theorem State.stopPart_wheelView (s : State) (e : Fin 32 × Part) : (s.stopPart e).wheelView = s.wheelView := by
  have hjobs : ((s.openJobs e.1).foldl (fun s j => if j.launched then (s.finalize j .wheelStop).stopJob j else s) s).wheelView = s.wheelView := by
    refine foldl_leaves (g := State.wheelView) (fun t j => ?_) _ s
    split <;> simp
  unfold State.stopPart
  dsimp only
  split
  · rw [State.setPart_wheelView, State.disarmAll_wheelView, hjobs]
  · exact hjobs

/-- The state in which a wheel is stopped, its error stands, and its partitions have still to follow. -/
def State.wheelHalt (s : State) (w : Fin 4) : State :=
  (s.setWheel w { s.wheel w with st := .stopped, startDue := false, hold := false, event := none }).raiseSub .whl 0 2 w

theorem State.wheelStop_eq (s : State) (w : Fin 4) : s.wheelStop w = ((s.wheelHalt w).boundParts w).foldl State.stopPart (s.wheelHalt w) := rfl

theorem State.wheelStop_wheelView (s : State) (w : Fin 4) : (s.wheelStop w).wheelView = (s.wheelHalt w).wheelView := by
  rw [State.wheelStop_eq]
  exact foldl_leaves (g := State.wheelView) State.stopPart_wheelView _ _

/-- The time unit and the other wheels go on as before. -/
theorem State.wheelStop_time (s : State) (w : Fin 4) : (s.wheelStop w).time = s.time :=
  (congrArg (fun m : AMap (Fin 4) Wheel × TimeState × (Nat → Word) => m.2.1) (s.wheelStop_wheelView w)).trans (State.raiseSub_time ..)

theorem State.wheel_wheelStop (s : State) (w k : Fin 4) :
    (s.wheelStop w).wheel k = if k = w then { s.wheel w with st := .stopped, startDue := false, hold := false, event := none } else s.wheel k := by
  rw [State.wheel_of_wheelView (s.wheelStop_wheelView w), State.wheel, State.wheelHalt, State.raiseSub_sched]
  split
  · next h => rw [h]; exact State.wheel_setWheel_same ..
  · next h => exact State.wheel_setWheel_other _ _ h

/-- A live wheel stops with its clock. -/
def State.stopLive (s : State) (w : Fin 4) : State := if (s.wheel w).live then s.wheelStop w else s

theorem State.stopLive_time (s : State) (w : Fin 4) : (s.stopLive w).time = s.time := by
  unfold State.stopLive
  split
  · exact s.wheelStop_time w
  · rfl

theorem State.stopLive_same (s : State) (w : Fin 4) : ((s.stopLive w).wheel w).live = false := by
  unfold State.stopLive
  split
  · rw [State.wheel_wheelStop, if_pos rfl]
    rfl
  · next h => exact Bool.eq_false_iff.mpr h

theorem State.stopLive_other (s : State) {w k : Fin 4} (h : k ≠ w) : (s.stopLive w).wheel k = s.wheel k := by
  unfold State.stopLive
  split
  · rw [State.wheel_wheelStop, if_neg h]
  · rfl

/-- A wheel among those that stop, or one that was not live, is not live afterwards. -/
theorem State.foldl_stopLive (s : State) (l : List (Fin 4)) (k : Fin 4) (h : k ∈ l ∨ (s.wheel k).live = false) :
    ((l.foldl State.stopLive s).wheel k).live = false := by
  induction l generalizing s with
  | nil => exact h.resolve_left List.not_mem_nil
  | cons w l ih =>
    refine ih (s.stopLive w) ?_
    by_cases hk : k = w
    · subst hk
      exact .inr (s.stopLive_same k)
    · rw [s.stopLive_other hk]
      exact h.imp_left fun hm => (List.mem_cons.mp hm).resolve_left hk

/-- The time unit whose clock has failed: times are frozen and pulses end (R249). -/
def State.clockLost (s : State) : State :=
  ({ s with time := { s.time with
    frozen := true, trig := s.time.trig.map (fun (e : Fin 32 × Trig) => (e.1, { e.2 with pulse := none })) } } : State).raise .tu 0 2 0 0

theorem State.clockLost_frozen (s : State) : s.clockLost.time.frozen = true := by
  rw [State.clockLost, State.raise_leaves (g := State.time) (fun _ _ => rfl) (fun _ _ _ _ _ _ => rfl)]

theorem execTimeClockLoss_runs {s : State} (hf : s.time.frozen = false) (hon : s.domOn 86 = true) :
    execTimeClockLoss s = .next ((List.finRange 4).foldl State.stopLive s.clockLost) :=
  if_neg (by simp [hf, hon])

/-- Settles O19: a tick leaves the wheel and the register that the frame's start has written, and a stop leaves the other wheels. -/
theorem framesAreNumberedUntilTheClockFails : Obligations.FramesAreNumberedUntilTheClockFails := by
  unfold Obligations.FramesAreNumberedUntilTheClockFails
  refine ⟨fun w s at_ st => ?frame, fun s w hf hon => ⟨_, execTimeClockLoss_runs hf hon, ?frozen, ?stopped⟩⟩
  case frame =>
    rw [State.wheel_startFrame, State.frameReg_startFrame]
    exact ⟨rfl, rfl, rfl, rfl⟩
  case frozen =>
    rw [foldl_leaves (g := State.time) State.stopLive_time]
    exact s.clockLost_frozen
  case stopped => exact State.foldl_stopLive _ _ w (.inl (List.mem_finRange w))

end Sys2Proof.Machine
end

section
/-! PROOFS. Job commands of ring pairs: what JOB_ARM leaves of a kind, and the kind for which the statement about it fails (O29). -/

namespace Sys2Proof.Machine

/-! ### JOB_ARM (R276, R339, R344) -/

section Arm
variable {s : State} {p : Fin 64} {e : BitVec 512} {x : Part} {k : Kind} {pid kn : Fin 32}

/-- A command that names a kind of the sort it is for acts on it. -/
theorem State.withKind_found {queued : Bool} (hx : s.livePart pid = some x) (hu : s.mayUse p x.ctx = true) (hk : x.kind kn = some k)
    (ht : (k.typ == .queued) = queued) (f : Part → Kind → State) : s.withKind p pid kn queued f = f x k := by
  simp [State.withKind, hx, hu, hk, ht]

/-- A kind that is not armed is armed from the frame after the next one, or from frame 1; the frame of its last launch stays, since its
accord slot is still checked in that frame (R276, R289). -/
theorem execJobArm_arms (h : s.accepts p 0x12 [] jobFields false e) (hpid : pid = Fin.ofNat 32 (eBits e 8 4 0))
    (hkn : kn = Fin.ofNat 32 (eBits e 8 12 8)) (hx : s.livePart pid = some x) (hu : s.mayUse p x.ctx = true)
    (hn : (entryDesc p e).notify.val ≠ 3) (harg : (entryDesc p e).arg % 256 = 0) (hres : (entryDesc p e).res % 64 = 0)
    (hk : x.kind kn = some k) (ht : k.typ ≠ .queued) (hh : s.headerOk x.ctx (entryDesc p e).res = true) (hf : x.failed = false)
    (ha : k.armed = false) {n : Word} (hframe : n = if (s.wheel x.wheel).begun then (s.wheel x.wheel).frame + 2 else 1) :
    execJobArm p s = .next ((s.setPart pid { x.setKind { k with
      armed := true, armFrame := n, desc := some (entryDesc p e), staged := none } with
      rearm := x.rearm.filter (· != kn) }).complete p 0 0 n.toNat 0) := by
  subst hpid hkn hframe
  rw [execJobArm, State.command_accepts h]
  refine congrArg Host.Outcome.next ((if_neg (by simp [hn, harg, hres])).trans ?_)
  refine (State.withKind_found hx hu hk (beq_false_of_ne ht) _).trans ?_
  simp only [hh, hf, ha]
  rfl

end Arm

/-! ### A kind that has launched -/

/-- JOB_ARM of kind 0 of partition 0, with a result header in DRAM of the Vehicle die. -/
def armEntry : BitVec 512 := BitVec.ofNat 512 (0x12 * 2 ^ 24 + 0xC00000701000 * 2 ^ (0x18 * 8))

/-- A disarmed periodic kind whose last launch was in frame 7. -/
def launchedKind : Kind :=
  { typ := .periodic, num := 0, firstRec := 0, lastRec := 0, launch := 200, deadline := 500, worst := 100, accLen := 98, accPhase := 1000,
    entry := 0x40, qdepth := 0, plead := 0, input := 0, armed := false, armFrame := 0, desc := none, staged := none, nextSeq := 1,
    lastFrame := some 7, hit := none }

/-- Its partition. -/
def launchedPart : Part :=
  { ctx := 0, wheel := 0, cls := 0, paired := false, recs := [], yline := 0x1000, argline := 0x2000, kinds := [launchedKind], res := [],
    formula := [], cert := [], wpkg := [], group := 0, unloading := false, failed := false, fenced := false, rearm := [],
    unloadBy := none, code := [] }

/-- Control pair 0 has taken the command, and the processor that serves it runs. -/
def armTaken : State :=
  { State.reset with
    sched := { SchedState.reset with parts := [(0, launchedPart)] }
    fw := { State.reset.fw with
      fps := [(0, ⟨.running, 0, 0, 0, 0, []⟩)]
      rings := [(0, { Ring.closed with isOpen := true, taken := some armEntry })] } }

theorem armEntry_names : (0 : Fin 32) = Fin.ofNat 32 (eBits armEntry 8 4 0) ∧ (0 : Fin 32) = Fin.ofNat 32 (eBits armEntry 8 12 8) := by
  decide +kernel

theorem armEntry_formed :
    (entryDesc 0 armEntry).notify.val ≠ 3 ∧ (entryDesc 0 armEntry).arg % 256 = 0 ∧ (entryDesc 0 armEntry).res % 64 = 0 := by
  decide +kernel

theorem armTaken_accepts : armTaken.accepts 0 0x12 [] jobFields false armEntry := by
  unfold State.accepts
  decide +kernel

theorem armTaken_headerOk : armTaken.headerOk launchedPart.ctx (entryDesc 0 armEntry).res = true := by decide +kernel

theorem armTaken_mayUse : armTaken.mayUse 0 launchedPart.ctx = true := by decide +kernel

/-- Refutes O29: its JOB_ARM clears the frame of the last launch, which the model keeps, so a kind that has launched and is armed again tells
them apart. -/
theorem not_jobRingCommandsComplete : ¬ Obligations.JobRingCommandsComplete := by
  unfold Obligations.JobRingCommandsComplete
  intro h
  obtain ⟨hpid, hkn⟩ := armEntry_names
  obtain ⟨hn, harg, hres⟩ := armEntry_formed
  have hk : launchedPart.kind 0 = some launchedKind := rfl
  have ht : launchedKind.typ ≠ .queued := by decide
  obtain ⟨harm, -⟩ := h 0 armEntry launchedPart launchedKind (newJob 0 launchedPart launchedKind (entryDesc 0 armEntry) false 0) armTaken 0 0
    hpid hkn rfl armTaken_mayUse
  have hclaimed := (harm armTaken_accepts hn harg hres hk ht armTaken_headerOk rfl).1 rfl
  have hmodel := execJobArm_arms armTaken_accepts hpid hkn rfl armTaken_mayUse hn harg hres hk ht armTaken_headerOk rfl rfl rfl
  have hparts := congrArg (fun t : State => t.part 0) (Host.Outcome.next.inj (hclaimed.symm.trans hmodel))
  simp only [State.part_congr (State.complete_sched ..), State.part_setPart_same, Option.some.injEq] at hparts
  exact absurd (congrArg (fun x : Part => x.kinds.map Kind.lastFrame) hparts) (by decide)

end Sys2Proof.Machine
end

section
/-! PROOFS. Job instances: the completion of each command (O32). -/

namespace Sys2Proof.Machine

/-! ### Argument blocks and periodic launches (R263, R264, R271, R279, R287, R296) -/

section Periodic
variable {s u : State} {pid kn : Fin 32} {p : Part} {k : Kind} {d : JobDesc} {n : Word}
  (hp : s.part pid = some p) (hk : p.kind kn = some k) (hd : k.desc = some d) (hg : (s.wheel p.wheel).going = true)
  (hl : p.launches k n = true)
include hp hk hd hg hl

/-- In the 64 ticks before a launch its block is read, once, and kept for the launch's frame. -/
theorem State.argumentRead_due (hn : n = (ticksTo (s.wheel p.wheel) k.launch.toNat).2) (h0 : 0 < (ticksTo (s.wheel p.wheel) k.launch.toNat).1)
    (h64 : (ticksTo (s.wheel p.wheel) k.launch.toNat).1 ≤ 64) (hst : ∀ st, k.staged = some st → st.1 ≠ n) {b : Option (List Byte)}
    (hr : s.argRead pid p k d.arg = (u, b)) :
    s.argumentRead pid kn = (if b.isSome then
        (p.kindCores k).foldl (fun (s : State) c => if s.coreFree c then s.setCadCore c 1 else s) u else u).modKind pid kn
      (fun k => { k with staged := some (n, b) }) := by
  subst hn
  simp only [State.argumentRead, hp, hk, hd]
  rw [if_neg, hr]
  simp only [hg, hl, Bool.not_true, Bool.or_self, Bool.false_or, Bool.or_eq_true, decide_eq_true_eq, not_or, Nat.not_lt.mpr h64, not_false_eq_true,
    Nat.ne_of_gt h0, true_and, Bool.not_eq_true]
  split
  · next st h => exact beq_false_of_ne (hst st h)
  · rfl

/-- The queued jobs that hold cores of a kind (R296). -/
def State.holder (s : State) (p : Part) (k : Kind) : Option Job :=
  s.sched.jobs.find? (fun j => j.queued && !j.stopping && j.out == .empty && j.running.any (p.kindCores k).contains)

/-- What a launch for frame `n` makes of its new job: without its block it is FAULTED; a start after the launch tick, or after the stop of a
queued job, is late (R271, R287, R296). -/
def State.startInstance (u : State) (x : Wheel) (p : Part) (k : Kind) (n : Word) (j : Job) : Option (List Byte) → State
  | none => u.finalize j .faulted
  | some bs =>
    if x.frame = n ∧ x.phase = k.launch ∧ k.hit ≠ some n then u.launch p k j bs
    else match (p.kindCores k).head? with
      | some c => (u.launch p k j bs).lateEvent c
      | none => u.launch p k j bs

section Passed
variable {b : Option (List Byte)} (hst : k.staged = some (n, b)) (hpass : (s.wheel p.wheel).passed n k.launch.toNat = true)
  (hlast : k.lastFrame ≠ some n)
include hst hpass hlast

/-- A queued job still on a core of the kind is stopped first (R296). -/
theorem State.periodicLaunch_prefails {y : Job} (hy : s.holder p k = some y) :
    s.periodicLaunch pid kn = (s.prefail pid kn p.lead y (p.kindCores k)).modKind pid kn (fun k => { k with hit := some n }) := by
  unfold State.holder at hy
  simp only [State.periodicLaunch, hp, hk, hd, hst, hy]
  exact if_neg (by simp [hg, hl, hpass, hlast])

/-- On free cores the job is made and started (R263, R264, R279). -/
theorem State.periodicLaunch_free (hy : s.holder p k = none) (hfree : (p.kindCores k).all s.coreFree = true) {j : Job}
    (hj : j = newJob pid p k d false (if b.isSome then (s.wheel p.wheel).frame else n))
    (hu : u = (s.modKind pid kn (fun k => { k with staged := none, lastFrame := some n, hit := none })).addJob j) :
    s.periodicLaunch pid kn = u.startInstance (s.wheel p.wheel) p k n j b := by
  subst hj hu
  unfold State.holder at hy
  simp only [State.periodicLaunch, hp, hk, hd, hst, hy]
  rw [if_neg (by simp [hg, hl, hpass, hlast]), if_neg (by simp [hfree])]
  cases b <;> rfl

end Passed
end Periodic

/-! ### Launch entries (R301) -/

section Entry
variable {s : State} {cl : ClusterId} {i : Fin 64} {c : CoreId} (he : s.expertEntry cl i = true) (hc : s.entryCores cl i = [c])
include he hc

/-- An expert launch entry starts its core at its phase, once a tick. -/
theorem execPeriodicLaunch_entry (hup : s.up (domCluster cl) = true) (hg : (s.wheel (s.core c).jobWheel).going = true)
    (hph : (s.wheel (s.core c).jobWheel).phase.toNat = s.fld .cad cl.inst (Reg.CAD_LTABi i) 15 0) (hf : s.coreFree c = true)
    (hlt : (s.core c).startLt < (s.wheel (s.core c).jobWheel).tickLt) : execPeriodicLaunch (.entry cl i) s =
      .next ((s.startCore c (BitVec.ofNat 20 (s.fld .cad cl.inst (Reg.CAD_LENTRYi i) 19 3 * 8)) (s.core c).jobWheel).modCore c
        (fun y => { y with entry := some i })) := by
  refine congrArg Host.Outcome.next ((if_neg (by simp [he, hup])).trans ?_)
  rw [hc, List.foldl_cons, List.foldl_nil]
  exact if_pos (by simp [hg, hph, hf, hlt])

/-- A core that an expert launch entry started and that has not ended at the deadline is stopped. -/
theorem execDeadlineCheck_entry {dl : Nat} {n : Word} (hdl : s.fld .cad cl.inst (Reg.CAD_LDLi i) 16 0 = dl) (hne : dl ≠ 0x1FFFF)
    (hrun : (s.core c).run = true) (hentry : (s.core c).entry = some i) (hn : n = (s.core c).jobFrame.get (s.core c).jobWheel 0)
    (hpass : (s.wheel (s.core c).jobWheel).passed (if dl < 0x10000 then n else n + 1) (dl % 0x10000) = true) :
    execDeadlineCheck (.entry cl i) s = .next ((s.stopCore c).raise .cad cl.inst 1 0
      (cadInfo 0 (s.fld .cad cl.inst (Reg.CAD_LTABi i) 28 24) c.k)) := by
  subst hdl hn
  refine congrArg Host.Outcome.next ((if_neg (by simp [he, hne])).trans ?_)
  rw [hc, List.foldl_cons, List.foldl_nil]
  exact if_pos (by rw [hrun, hentry, BEq.rfl, hpass]; rfl)

end Entry

/-! ### Queued jobs (R280, R292, R294, R298) -/

section Queued
variable {s u : State} {pid : Fin 32} {p : Part} {k : Kind} {j : Job}

theorem execQueuedLaunch_ready {bs : List Byte} (hr : s.queuedReady pid false = some (p, k, j))
    (ha : s.argRead pid p k j.desc.arg = (u, some bs)) :
    execQueuedLaunch pid s = .next (((u.setAcct p.ctx (fun a => { a with
      qwaitmax := if a.qwaitmax.toNat < u.now - j.acceptLt then satAdd (0 : Word) (u.now - j.acceptLt) else a.qwaitmax,
      qwaitsum := satAdd a.qwaitsum (u.now - j.acceptLt) })).touch p.ctx).launch p k j bs) := by
  simp only [execQueuedLaunch, hr, ha]

/-- The one queued job that runs is asked to yield when a periodic launch on its cores lies PLEAD ticks ahead. -/
theorem execYieldRequest_running {c : CoreId} (hp : s.part pid = some p) (hk : p.kind j.kind = some k) (hc : (p.kindCores k).head? = some c)
    (hj : s.sched.jobs.filter (fun j => j.part == pid && j.queued && j.out == .empty && j.launched && !j.yielded && !j.stopping) = [j]) :
    execYieldRequest pid s = .next (if s.yieldDue p k then s.store32 (lsBase c + p.yline.toNat) 1 else s) := by
  simp only [execYieldRequest, hp, hj, List.foldl_cons, List.foldl_nil, hk, hc]

theorem execYieldRelaunch_ready (hr : s.queuedReady pid true = some (p, k, j)) :
    execYieldRelaunch pid s = .next (j.resume.foldl (fun (s : State) (e : CoreId × BitVec 20) =>
      (s.setReg .cad e.1.cl.inst (Reg.CAD_RESUMEk e.1.k) 0).startCore e.1 e.2 p.wheel)
      ((s.setAcct p.ctx (fun a => { a with preemptns := satAdd a.preemptns (s.now - j.yieldLt) })).setJob
        { j with yielded := false, running := j.resume.map (·.1), resume := [] })) := by
  simp only [execYieldRelaunch, hr]

end Queued

/-! ### END (R281, R286, R288, R294) -/

section End
variable {s u z : State} {c : CoreId} {p : Part} {k : Kind} {j y : Job}

/-- The lead takes the END of a core that ran a job: where the deadline has passed the job is missed; otherwise it goes on, completes, or
yields. -/
theorem State.endNotice_taken {r : Word} (hend : (s.core c).ended = true) (hch : s.isChecker c = false)
    (hu : u = (s.putCore c { s.core c with ended := false, endFails := 0 }).setCadCore c 3) (hj : u.jobOf c = some j)
    (hp : u.part j.part = some p) (hk : p.kind j.kind = some k) (hr : r = u.load32 (lsBase c + p.yline.toNat + 4))
    (hy : y = { j with running := j.running.filter (· != c), pwfail := satAdd j.pwfail (s.core c).endFails.toNat,
                       resume := if r = 0 then j.resume else j.resume ++ [(c, r.setWidth 20)] })
    (hz : z = (u.setAcct p.ctx (fun a => { a with
      corecyc := satAdd a.corecyc (cyclesOf ((s.core c).endLt - (s.core c).startLt)),
      arrbusy := satAdd a.arrbusy (if (s.core c).arrBase ≤ u.reg .tc c.inst Reg.TC_ARRBUSY
        then (u.reg .tc c.inst Reg.TC_ARRBUSY - (s.core c).arrBase).toNat else (u.reg .tc c.inst Reg.TC_ARRBUSY).toNat) })).setJob y) :
    s.endNotice c = if z.deadlineDue p k y then z.missJob y.part y.kind p y
      else if !y.running.isEmpty then z else if y.resume.isEmpty then z.finalize y .done else z.yieldJob p k y := by
  subst hu hr hy hz
  rw [State.endNotice, if_neg (by simp [hend, hch])]
  simp only [hj, hp, hk]

end End

/-! ### Deadlines (R263, R288) -/

theorem execDeadlineCheck_missed {s : State} {pid kn : Fin 32} {p : Part} {k : Kind} {j : Job} (hp : s.part pid = some p)
    (hk : p.kind kn = some k) (hj : s.sched.jobs.filter (fun j => j.part == pid && j.kind == kn && j.launched && j.out == .empty) = [j])
    (hdue : s.deadlineDue p k j = true) : execDeadlineCheck (.job pid kn) s = .next (s.missJob pid kn p j) := by
  simp only [execDeadlineCheck, State.deadlineCheck, hp, hk, hj, List.foldl_cons, List.foldl_nil, hdue, if_true]

/-! ### Accord slots (R289, R290) -/

section Accord
variable {s : State} {c : CoreId} {v : Word}

/-- A core that has begun no ACCORD in its slot slips at the slot's end. -/
theorem execAccordSlotCheck_slips {pid : Fin 32} {p : Part} {k : Kind} (hp : s.partOf c = some (pid, p)) (hk : p.slotKind c = some k)
    (hg : (s.wheel p.wheel).going = true) (hlive : k.slotLive (s.wheel p.wheel).frame = true)
    (hend : (s.wheel p.wheel).phase.toNat = k.accPhase.toNat + k.accLen) (hno : s.accordIn c (s.wheel p.wheel).frame k.inSlot = false) :
    execAccordSlotCheck c s = .next (s.accslip c pid k.num) := by
  simp only [execAccordSlotCheck, hp, hk]
  exact congrArg Host.Outcome.next (if_pos (by simp [hg, hlive, hend, hno]))

/-- The idle accord job of a core of no partition slips at a later phase of its frame. -/
theorem execAccordSlotCheck_idleSlips (hv : s.reg .cad c.cl.inst Reg.CAD_IDLEACC = v) (hp : s.partOf c = none) (hen : bitOf v 31 = true)
    (hce : s.coreEnabled c = true) (hg : (s.wheel (Fin.ofNat 4 (bitsOf v 17 16))).going = true)
    (hph : bitsOf v 15 0 < (s.wheel (Fin.ofNat 4 (bitsOf v 17 16))).phase.toNat)
    (hno : s.accordIn c (s.wheel (Fin.ofNat 4 (bitsOf v 17 16))).frame (fun ph => ph.toNat == bitsOf v 15 0) = false) :
    execAccordSlotCheck c s = .next (s.accslip c 0 0) := by
  simp only [execAccordSlotCheck, hp, hv]
  exact congrArg Host.Outcome.next (if_pos (by rw [hen, hce, hg, hno, decide_eq_true hph]; rfl))

theorem execIdleAccordStart_due {cl : ClusterId} (hv : s.reg .cad cl.inst Reg.CAD_IDLEACC = v) (hen : bitOf v 31 = true)
    (hup : s.up (domCluster cl) = true) (hg : (s.wheel (Fin.ofNat 4 (bitsOf v 17 16))).going = true)
    (hph : (s.wheel (Fin.ofNat 4 (bitsOf v 17 16))).phase.toNat = bitsOf v 15 0) :
    execIdleAccordStart cl s = .next (cl.cores.foldl (fun (s : State) c =>
      if s.coreEnabled c && (s.partOf c).isNone && s.coreFree c && !s.isChecker c then
        (s.putCore c { s.core c with wait := .accord 0 }).accordBegin c
      else s) s) := by
  subst hv
  exact congrArg Host.Outcome.next (if_pos (by rw [hen, hup, hg, hph, BEq.rfl]; rfl))

end Accord

/-! ### Stops and aborts (R285, R286, R455) -/

section Stops
variable {s u : State} {pid kn : Fin 32} {j : Job} {cl : ClusterId}

/-- The cores of a stopped job that have run out become idle. -/
theorem execJobStopComplete_idle {n : Word} (hj : s.findJob pid kn n = some j) (hst : j.stopping = true)
    (hidle : ∀ c ∈ j.running, (s.core c).unitsIdle = true ∧ ∀ ch, (Chan.get (s.core c) ch).st ≠ .active) :
    execJobStopComplete pid kn n s = .next ((j.running.foldl (fun (s : State) c =>
      (((s.revokeLocks c).revokeChans c).putCore c { ((s.revokeLocks c).revokeChans c).core c with
        run := false, ended := false, pend := none }).setCadCore c 5) s).setJob { j with running := [], stopping := false }) := by
  have hout : j.running.all (fun c => (s.core c).unitsIdle && (List.finRange 8).all (fun i => (Chan.get (s.core c) i).st != .active)) = true :=
    List.all_eq_true.mpr fun c hc => by simp [hidle c hc]
  simp only [execJobStopComplete, hj]
  exact congrArg Host.Outcome.next (if_neg (by rw [hst, hout]; exact Bool.false_ne_true))

/-- An abort that device firmware writes is carried out by the unit; other writers are ignored (R286, R300). -/
theorem execCadAbort_firmware {src : Src} {v : Word} (hr : s.reaches src (cadBase cl + Reg.CAD_ABORT) = true) (hf : src.fw = true) :
    execCadAbort src cl v s = .next (s.cadAbort cl v) := by
  rw [execCadAbort, State.regCommand_reaches hr, if_pos hf]

theorem execCadAbort_other {src : Src} {v : Word} (hr : s.reaches src (cadBase cl + Reg.CAD_ABORT) = true) (hf : src.fw = false)
    (hv : bitOf v 31 = true) : execCadAbort src cl v s = .next (s.ignoredWrite .cad cl.inst) := by
  rw [execCadAbort, State.regCommand_reaches hr, if_neg (by simp [hf]), if_pos hv]

section Firmware
variable {v : Word} (hv : bitOf v 31 = true) (hpid : pid = Fin.ofNat 32 (bitsOf v 28 24)) (hkn : kn = Fin.ofNat 32 (bitsOf v 20 16))
  (hu : u = s.setReg .cad cl.inst Reg.CAD_ABORTRES 0)
include hv hpid hu

theorem State.cadAbort_noPart (hp : u.part pid = none) : s.cadAbort cl v = u.abortResult cl (false, 0) := by
  subst hpid hu
  rw [State.cadAbort, if_neg (by simp [hv])]
  simp only [hp]

include hkn

/-- The lead takes the abort itself. -/
theorem State.cadAbort_lead {p : Part} (hp : u.part pid = some p) (hl : p.lead = cl) :
    s.cadAbort cl v = (u.abortJob pid kn (v.setWidth 16)).1.abortResult cl (u.abortJob pid kn (v.setWidth 16)).2 := by
  subst hpid hkn hu
  rw [State.cadAbort, if_neg (by simp [hv])]
  simp only [hp, if_pos hl]

/-- Another unit forwards it. -/
theorem State.cadAbort_forwards {p : Part} (hp : u.part pid = some p) (hl : p.lead ≠ cl) :
    s.cadAbort cl v = { u with sched := { u.sched with aborts := u.sched.aborts ++ [⟨cl, pid, kn, v.setWidth 16, none⟩] } } := by
  subst hpid hkn hu
  rw [State.cadAbort, if_neg (by simp [hv])]
  simp only [hp, if_neg hl]

end Firmware

theorem execAbortForward_oldest {m : AbortMsg} {r : Bool × Nat}
    (hm : s.sched.aborts.find? (fun (m : AbortMsg) => m.part == pid && m.answer.isNone) = some m)
    (hr : s.abortJob m.part m.kind m.num = (u, r)) :
    execAbortForward pid s = .next { u with sched := { u.sched with
      aborts := mapFirst (fun (m : AbortMsg) => m.part == pid && m.answer.isNone) (fun m => { m with answer := some r }) u.sched.aborts } } := by
  simp only [execAbortForward, hm, hr]

theorem execAbortResult_oldest {m : AbortMsg} {r : Bool × Nat}
    (hm : s.sched.aborts.find? (fun (m : AbortMsg) => m.unit == cl && m.answer.isSome) = some m) (hr : m.answer = some r) :
    execAbortResult cl s = .next (State.abortResult { s with
      sched := { s.sched with aborts := removeFirst (fun (m : AbortMsg) => m.unit == cl && m.answer.isSome) s.sched.aborts } } cl r) := by
  simp only [execAbortResult, hm, hr]

end Stops

/-! ### Records (R345, R360) -/

theorem execJobRecordPost_oldest {s : State} {j : Job} {t : List Job} (hm : s.sched.mailbox = j :: t) (hf : s.fpRuns 2 = true) :
    execJobRecordPost s = .next (s.postRecord j t) := by
  simp only [execJobRecordPost, hm, if_pos hf]

/-- Settles O32: each clause is the completion of one command, stated above for it. -/
theorem jobInstancesComplete : Obligations.JobInstancesComplete := by
  unfold Obligations.JobInstancesComplete
  refine fun pid kn p k d j c cl i src v n bs s u => ⟨?argument, ?periodic, ?entry, execQueuedLaunch_ready, ?yield, execYieldRelaunch_ready, ?ended,
    execDeadlineCheck_missed, ?entryDeadline, execAccordSlotCheck_slips, execAccordSlotCheck_idleSlips, execIdleAccordStart_due,
    execJobStopComplete_idle, fun hf hr hv hpid hkn hu => ?abort, fun hf hr hv => execCadAbort_other hr hf hv, fun m r => execAbortForward_oldest,
    fun m r => execAbortResult_oldest, fun t => execJobRecordPost_oldest⟩
  case argument =>
    exact fun hp hk hd hg hn hl h0 h64 hst b hr => congrArg Host.Outcome.next (State.argumentRead_due hp hk hd hg hl hn h0 h64 hst hr)
  case periodic =>
    refine fun b hp hk hd hst hg hl hpass hlast => ⟨fun y hy => ?_, fun hy hfree hj hu => ?_⟩
    · exact congrArg Host.Outcome.next (State.periodicLaunch_prefails hp hk hd hg hl hst hpass hlast hy)
    · have hmade : execPeriodicLaunch (.job pid kn) s = _ :=
        congrArg Host.Outcome.next (State.periodicLaunch_free hp hk hd hg hl hst hpass hlast hy hfree hj hu)
      refine ⟨fun hb => hmade.trans ?_, fun hb hframe hphase hhit => hmade.trans ?_, fun hb hlate hhead => hmade.trans ?_⟩
      · rw [hb, State.startInstance]
      · rw [hb, State.startInstance, if_pos ⟨hframe, hphase, hhit⟩]
      · rw [hb, State.startInstance, if_neg hlate, hhead]
  case entry => exact fun he hup hc hg hph hf hlt => execPeriodicLaunch_entry he hc hup hg hph hf hlt
  case yield =>
    intro hp hk hc hj
    have hyield := execYieldRequest_running hp hk hc hj
    exact ⟨fun h => hyield.trans (by rw [if_pos h]), fun h => hyield.trans (by rw [if_neg (Bool.eq_false_iff.mp h)])⟩
  case ended =>
    intro y z r hend hch hu hj hp hk hr hy hz
    have htaken : execEndNotice c s = _ := congrArg Host.Outcome.next (State.endNotice_taken hend hch hu hj hp hk hr hy hz)
    refine ⟨fun h => htaken.trans (by rw [if_pos h]), fun h => ⟨fun hrun => htaken.trans ?_, fun hrun hres => htaken.trans ?_,
      fun hrun hres => htaken.trans ?_⟩⟩
    · rw [if_neg (Bool.eq_false_iff.mp h), if_pos (by simpa using hrun)]
    · rw [if_neg (Bool.eq_false_iff.mp h), if_neg (by simp [hrun]), if_pos (by simp [hres])]
    · rw [if_neg (Bool.eq_false_iff.mp h), if_neg (by simp [hrun]), if_neg (by simpa using hres)]
  case entryDeadline =>
    exact fun dl he hdl hne hc hrun hentry hn hpass => execDeadlineCheck_entry he hc hdl hne hrun hentry hn hpass
  case abort =>
    have hwritten := execCadAbort_firmware (v := v) hr hf
    exact ⟨fun hp => hwritten.trans (congrArg Host.Outcome.next (State.cadAbort_noPart hv hpid hu hp)),
      fun hp hl => hwritten.trans (congrArg Host.Outcome.next (State.cadAbort_lead hv hpid hkn hu hp hl)),
      fun hp hl => hwritten.trans (congrArg Host.Outcome.next (State.cadAbort_forwards hv hpid hkn hu hp hl))⟩

end Sys2Proof.Machine
end

section
/-! PROOFS. Ring pairs: what a posted write of device firmware leaves of the firmware's own state, which commands a pair turns away, and how
a completion is posted or held (O28). -/

namespace Sys2Proof.Machine

/-! ### Posted writes of device firmware leave its state as it is (R224, R464)

A write of device firmware comes from no hart and no core, so it fills no cache and counts in no core. -/

@[simp] theorem State.raise_fw (s : State) (b : Blk) (i bit addr info : Nat) : (s.raise b i bit addr info).fw = s.fw :=
  State.raise_leaves (g := State.fw) (fun _ _ => rfl) (fun _ _ _ _ _ _ => rfl) s i bit addr info

@[simp] theorem State.count_fw (s : State) (b : Blk) (i off n : Nat) : (s.count b i off n).fw = s.fw := rfl
@[simp] theorem State.putLine_fw (s : State) (x : CLine) : (s.putLine x).fw = s.fw := rfl

@[simp] theorem State.writeDown_fw (s : State) (x : CLine) : (s.writeDown x).fw = s.fw := by
  unfold State.writeDown
  dsimp only
  split
  · split <;> rfl
  · rfl

@[simp] theorem State.loseLine_fw (s : State) (x : CLine) : (s.loseLine x).fw = s.fw := by
  unfold State.loseLine
  dsimp only
  split <;> rfl

@[simp] theorem State.lineError_fw (s : State) (pair : Nat) (x : CLine) : (s.lineError pair x).1.fw = s.fw := by
  unfold State.lineError
  dsimp only
  split <;> simp

@[simp] theorem State.shareSlot_fw (s : State) (b : Blk) (i : Nat) (waiting : List (Fin 32)) : (s.shareSlot b i waiting).1.fw = s.fw := by
  unfold State.shareSlot
  dsimp only
  split
  · rfl
  · split
    all_goals
      refine foldl_leaves (g := State.fw) (fun t e => ?_) _ s
      split
      · rfl
      · split <;> rfl

@[simp] theorem State.serveAt_fw (s : State) (b : Blk) (i : Nat) (src : Src) (n slots : Nat) : (s.serveAt b i src n slots).fw = s.fw :=
  foldl_leaves (g := State.fw) (fun _ _ => State.shareSlot_fw ..) (List.range slots) s

@[simp] theorem State.cross_fw (s : State) (src : Src) (a n : Nat) (write : Bool) : (s.cross src a n write).fw = s.fw :=
  foldl_leaves (g := State.fw) (fun _ _ => State.serveAt_fw ..) _ s

@[simp] theorem State.serve_fw (s : State) (src : Src) (a n : Nat) (write : Bool) : (s.serve src a n write).fw = s.fw := by
  unfold State.serve
  split
  · exact foldl_leaves (g := State.fw) (fun _ _ => State.serveAt_fw ..) _ _
  · rfl

@[simp] theorem State.recordEcc_fw (s : State) (g : Nat) (e : EccErr) : (s.recordEcc g e).fw = s.fw := by
  unfold State.recordEcc
  split <;> simp [apply_ite State.fw]

@[simp] theorem State.rmw_fw (s : State) (a n : Nat) : (s.rmw a n).1.fw = s.fw :=
  foldl_leaves (g := State.fw) (fun _ _ => State.recordEcc_fw ..) _ s

@[simp] theorem State.logDirty_fw (s : State) (a n : Nat) : (s.logDirty a n).fw = s.fw := by
  unfold State.logDirty
  split
  · split <;> rfl
  · rfl

@[simp] theorem State.recordRefusal_fw (s : State) (src : Src) (a : Nat) (r : Refused) : (s.recordRefusal src a r).fw = s.fw := by
  unfold State.recordRefusal
  split
  · exact State.raise_fw ..
  · exact State.raise_fw ..
  · unfold State.secViol
    dsimp only
    split
    · exact State.raise_fw ..
    · exact State.raise_fw ..
  · dsimp only
    split <;> rfl
  · rfl

section FwSource
variable (s : State) (world : Bool) (a : Nat)

@[simp] theorem fwSrc_hart : (fwSrc world).hart = none := rfl

@[simp] theorem State.pwFail_fwSrc_fw (code : Nat) (target : Fin 8) : (s.pwFail (fwSrc world) a code target).fw = s.fw :=
  s.pwRecord_leaves (fwSrc world) a code target (g := State.fw) (fun _ _ => rfl) (fun _ _ => rfl) (fun _ _ _ _ _ => rfl)

@[simp] theorem State.cachedLine_fwSrc_fw (write : Bool) : (s.cachedLine (fwSrc world) write a).1.fw = s.fw := by
  unfold State.cachedLine
  dsimp only [fwSrc_hart]
  generalize hmet : List.foldl _ (s, false) _ = met
  have hm : met.1.fw = s.fw := by
    subst hmet
    refine foldl_leaves (g := fun r : State × Bool => r.1.fw) (fun r x => ?_) _ _
    split
    · rfl
    · split
      · exact State.lineError_fw ..
      · rfl
  clear hmet
  split
  · exact hm
  · split
    · exact hm
    · exact (foldl_leaves (g := State.fw) (fun _ _ => State.writeDown_fw ..) _ _).trans hm

@[simp] theorem State.cached_fwSrc_fw (n : Nat) (write : Bool) : (s.cached (fwSrc world) a n write).1.fw = s.fw := by
  unfold State.cached
  split
  · refine foldl_leaves (g := fun r : State × Bool => r.1.fw) (fun _ _ => ?_) _ _
    exact State.cachedLine_fwSrc_fw ..
  · rfl

@[simp] theorem State.landWrite_fwSrc_fw (bs : List Byte) : (s.landWrite (fwSrc world) a bs).1.fw = s.fw := by
  have hcached := (State.cached_fwSrc_fw (s.serve (fwSrc world) a bs.length true) world a bs.length true).trans (State.serve_fw ..)
  unfold State.landWrite
  dsimp only
  generalize (s.serve (fwSrc world) a bs.length true).cached (fwSrc world) a bs.length true = met at hcached
  obtain ⟨t, lost⟩ := met
  dsimp only at hcached ⊢
  split
  · exact hcached
  · split
    · have hrmw := (State.rmw_fw t a bs.length).trans hcached
      split
      · exact hrmw
      · exact (State.logDirty_fw ..).trans hrmw
    all_goals exact hcached

/-- A posted write of device firmware leaves its own state as it is. -/
@[simp] theorem State.fwWrite_fw (bs : List Byte) : (s.fwWrite world a bs).1.fw = s.fw := by
  have hcross := State.cross_fw s (fwSrc world) a bs.length true
  unfold State.fwWrite State.unitWriteOk
  dsimp only
  generalize s.cross (fwSrc world) a bs.length true = t at hcross
  split
  · simp [hcross]
  · have hland := (State.landWrite_fwSrc_fw t world a bs).trans hcross
    split
    · next ht => rwa [ht] at hland
    · next ht => rwa [ht, ← State.pwFail_fwSrc_fw] at hland

end FwSource

/-! ### A pair after an update (R331, R334, R342) -/

section Pair
variable (s : State) (p : Fin 64)

@[simp] theorem State.ring_setRing_same (r : Ring) : (s.setRing p r).ring p = r := AMap.get_set_same ..

@[simp] theorem State.ring_trace (fp : Fin 9) (point : Nat) (args : List Nat) : (s.trace fp point args).ring p = s.ring p :=
  State.trace_leaves (g := fun t => t.ring p) (fun _ _ _ => rfl) (fun _ _ _ => rfl) (fun _ _ _ => rfl) s fp point args

theorem State.ring_congr {s t : State} (h : t.fw = s.fw) (p : Fin 64) : t.ring p = s.ring p := by
  simp only [State.ring, h]

/-- An entry in the completion ring moves CQ_TAIL past it. -/
theorem State.ring_cqWrite (bs : List Byte) : (s.cqWrite p bs).ring p = { s.ring p with cqTail := (s.ring p).cqTail + 1 } := by
  have hwrite (w : Bool) (a : Nat) : (s.fwWrite w a bs).1.ring p = s.ring p := State.ring_congr (State.fwWrite_fw ..) p
  have hpend (t : State) : (t.cqPend p).ring p = t.ring p := by
    unfold State.cqPend
    split <;> rfl
  rw [State.cqWrite, hpend, State.ring_setRing_same, hwrite]

/-- A pair with one more completion: with room and nothing held before it, it is in the ring, and otherwise it is held. -/
def Ring.posted (r : Ring) (bs : List Byte) : Ring :=
  if r.held.isEmpty && r.room then { r with cqTail := r.cqTail + 1 } else { r with held := r.held ++ [bs] }

theorem State.ring_post {s : State} {p : Fin 64} (ho : (s.ring p).isOpen = true) (bs : List Byte) :
    (s.post p bs false).ring p = (s.ring p).posted bs := by
  unfold State.post Ring.posted
  rw [if_neg (by simp [ho])]
  split
  · exact s.ring_cqWrite p bs
  · exact s.ring_setRing_same p _

theorem Ring.posted_taken (r : Ring) (bs : List Byte) : (r.posted bs).taken = r.taken := by
  unfold Ring.posted
  split <;> rfl

theorem Ring.posted_closing (r : Ring) (bs : List Byte) : (r.posted bs).closing = r.closing := by
  unfold Ring.posted
  split <;> rfl

theorem Ring.posted_room {r : Ring} (hh : r.held = []) (hr : r.room = true) (bs : List Byte) :
    r.posted bs = { r with cqTail := r.cqTail + 1 } :=
  if_pos (by simp [hh, hr])

theorem Ring.posted_full {r : Ring} (hr : r.room = false) (bs : List Byte) : r.posted bs = { r with held := r.held ++ [bs] } :=
  if_neg (by simp [hr])

end Pair

/-! ### Completion of a taken command (R336, R337) -/

/-- A pair whose taken command is done with, so that it can take the next one (R337). -/
def Ring.freed (r : Ring) : Ring := { r with taken := none }

/-- The completion of a taken command frees its pair and posts one entry. -/
theorem State.ring_complete {s : State} {p : Fin 64} {e : BitVec 512} (ho : (s.ring p).isOpen = true) (hc : (s.ring p).closing = false)
    (ht : (s.ring p).taken = some e) (status detail v0 v1 : Nat) :
    ∃ bs, (s.complete p status detail v0 v1).ring p = (s.ring p).freed.posted bs := by
  have hfinish : ∃ bs, (s.finish p status detail v0 v1).ring p = (s.ring p).freed.posted bs := by
    simp only [State.finish, ht, State.ring_trace]
    refine ⟨_, (State.ring_post ?_ _).trans (congrArg (Ring.posted · _) (State.ring_setRing_same ..))⟩
    rwa [State.ring_setRing_same]
  obtain ⟨bs, hfinish⟩ := hfinish
  refine ⟨bs, ?_⟩
  unfold State.complete
  dsimp only
  have hstays : ((s.ring p).freed.posted bs).closing = false := (Ring.posted_closing _ bs).trans hc
  rw [hfinish, if_neg (by simp [hstays]), hfinish]

/-! ### Commands turned away (R339, R340, R394) -/

theorem State.takenCmd_none {s : State} {p : Fin 64} (h : (s.ring p).taken = none) (op : Nat) (needs : List (Fin 8)) :
    s.takenCmd p op needs = none := by
  simp only [State.takenCmd, h]

theorem State.takenCmd_otherOp {s : State} {p : Fin 64} {e : BitVec 512} (h : (s.ring p).taken = some e) {op : Nat} (hop : eOp e ≠ op)
    (needs : List (Fin 8)) : s.takenCmd p op needs = none := by
  simp only [State.takenCmd, h]
  exact if_neg fun hall => hop hall.1

section Away
variable {s : State} {p : Fin 64} {op : Nat} {needs : List (Fin 8)} {e : BitVec 512} (h : s.takenCmd p op needs = some e)
  (fields : List (Nat × Nat × Nat)) (ctl : Bool) (k : BitVec 512 → State)
include h

/-- A command of a control pair sent through a context pair is denied. -/
theorem State.command_controlOnly {fields : List (Nat × Nat × Nat)} (hp : s.pkg ≠ pkSHUTTING) (he : eClean e fields = true)
    (hc : isControl p = false) : s.command p op needs fields true k = s.complete p stDENIED 0 0 0 := by
  simp [State.command, h, hp, he, hc]

/-- SHUTTING denies every command but PWR_READ. -/
theorem State.command_shutting (hp : s.pkg = pkSHUTTING) (hop : op ≠ 0x2A) :
    s.command p op needs fields ctl k = s.complete p stDENIED 0 0 0 := by
  simp [State.command, h, hp, hop]

end Away

/-- Settles O28: a command is turned away before it is performed, and a completion frees its pair and posts one entry. -/
theorem ringPairsTurnAwayAndPost : Obligations.RingPairsTurnAwayAndPost := by
  unfold Obligations.RingPairsTurnAwayAndPost
  refine ⟨fun s p op needs fields ctl k e => ⟨fun h => State.command_none (State.takenCmd_none h op needs) fields ctl k,
    fun h hop => State.command_none (State.takenCmd_otherOp h hop needs) fields ctl k, fun h hp he => State.command_bad h hp he ctl k,
    fun h hp he hctl hc => hctl ▸ State.command_controlOnly h k hp he hc, fun h hp hop => State.command_shutting h fields ctl k hp hop⟩, ?posts⟩
  case posts =>
    intro s p e status detail v0 v1 ho hc ht
    obtain ⟨bs, hring⟩ := State.ring_complete ho hc ht status detail v0 v1
    rw [hring]
    refine ⟨Ring.posted_taken _ bs, fun hh hr => ?_, fun hr => ?_⟩
    · exact congrArg Ring.cqTail (Ring.posted_room (r := (s.ring p).freed) hh hr bs)
    · rw [Ring.posted_full (r := (s.ring p).freed) hr]
      exact ⟨rfl, List.length_append⟩

end Sys2Proof.Machine
end

section
/-! PROOFS. Ring commands: doorbells and polls, and the completion of NOP, RING_OPEN, RING_CLOSE, LOG_CFG, ACCT_READ and STATUS_READ (O27). -/

namespace Sys2Proof.Machine

section Ring
variable {s : State} {p q : Fin 64} {e : BitVec 512}

/-! ### Inspection of a pair (R332, R333, R368) -/

theorem State.inspect_served (ho : (s.ring p).isOpen = true) (hf : s.fpRuns (ringFp p) = true) (hs : s.served p = true) :
    s.inspect p = (((s.takeHead p).takeTail p).cqMove 65537 p).takeCommand p :=
  if_pos (by rw [ho, hf, hs]; rfl)

/-- A doorbell from FP6 or from the world of the pair has the pair inspected. -/
theorem State.doorbell_allowed {src : Src} (h : src = fp6Src ∨ src.world = (s.ring p).world) : s.doorbell src p = s.inspect p :=
  if_pos (by simpa using h)

theorem execDoorbell_allowed {src : Src} (hr : s.reaches src (vehRegs 0x1300000 + Reg.FW_DBp p) = true)
    (hsrc : src = fp6Src ∨ src.world = (s.ring p).world) : execDoorbell src p s = .next (s.inspect p) := by
  rw [execDoorbell, State.regCommand_reaches hr, State.doorbell_allowed hsrc]

/-! ### RING_OPEN (R339, R349, R641) -/

/-- The operands of RING_OPEN. -/
def openFields : List (Nat × Nat × Nat) :=
  [(8, 5, 0), (8, 16, 16), (8, 17, 17), (8, 27, 24), (8, 31, 28), (0xC, 11, 0), (0x10, 47, 0), (0x18, 47, 0), (0x20, 47, 0)]

/-- A well-formed RING_OPEN of pair `q`: the operands are in their ranges, and the context is one that it may name, of the pair's world. -/
structure State.OpensRing (s : State) (e : BitVec 512) (q : Fin 64) (ctx : BitVec 12) (world : Bool) (sn cn : Nat) : Prop where
  pair : q = Fin.ofNat 64 (eBits e 8 5 0)
  sqSize : sn = eBits e 8 27 24
  cqSize : cn = eBits e 8 31 28
  worldBit : world = (eBits e 8 16 16 == 1)
  ctxBits : ctx = BitVec.ofNat 12 (eBits e 0xC 11 0)
  sizes : (4 ≤ sn ∧ sn ≤ 12) ∧ 4 ≤ cn ∧ cn ≤ 12
  bases : eAddr e 0x10 % 4096 = 0 ∧ eAddr e 0x18 % 4096 = 0
  named : s.named ctx = true
  ctxWorld : ctx ≠ 0 → world = s.ctxWorld ctx

/-- It passes the checks on its operands. -/
theorem State.OpensRing.inRange {ctx : BitVec 12} {world : Bool} {sn cn : Nat} (ho : s.OpensRing e q ctx world sn cn)
    (hrd : eBits e 8 17 17 = 1 ∨ eAddr e 0x20 = 0) :
    ¬(sn < 4 ∨ 12 < sn ∨ cn < 4 ∨ 12 < cn ∨ eAddr e 0x10 % 4096 ≠ 0 ∨ eAddr e 0x18 % 4096 ≠ 0 ∨
      (!(eBits e 8 17 17 == 1)) = true ∧ eAddr e 0x20 ≠ 0) := by
  obtain ⟨⟨hs4, hs12⟩, hc4, hc12⟩ := ho.sizes
  obtain ⟨hsb, hcb⟩ := ho.bases
  have hdescr : ¬((!(eBits e 8 17 17 == 1)) = true ∧ eAddr e 0x20 ≠ 0) := by
    obtain h | h := hrd <;> simp [h]
  simp only [not_or]
  exact ⟨Nat.not_lt.mpr hs4, Nat.not_lt.mpr hs12, Nat.not_lt.mpr hc4, Nat.not_lt.mpr hc12, not_not_intro hsb, not_not_intro hcb, hdescr⟩

/-- It names a context of the world that it asks for. -/
theorem State.OpensRing.ownWorld {ctx : BitVec 12} {world : Bool} {sn cn : Nat} (ho : s.OpensRing e q ctx world sn cn) :
    ¬(ctx ≠ 0 ∧ world ≠ s.ctxWorld ctx) :=
  fun ⟨h0, h1⟩ => h1 (ho.ctxWorld h0)

section Open
variable {ctx : BitVec 12} {sn cn : Nat} {world : Bool} (h : s.accepts p 0x02 [] openFields true e) (ho : s.OpensRing e q ctx world sn cn)
include h ho

/-- For a local pair: an open one is refused, a closed one opens. -/
theorem execRingOpen_local (hl : eBits e 8 17 17 = 0) (hrd : eAddr e 0x20 = 0) :
    execRingOpen p s = .next (if (s.ring q).isOpen then s.refuseFree p
      else (s.openRing q world false ctx sn cn (eAddr e 0x10) (eAddr e 0x18) []).complete p 0 0 0 0) := by
  have hrange := ho.inRange (.inr hrd)
  have hworld := ho.ownWorld
  obtain ⟨rfl, rfl, rfl, rfl, rfl, -, -, hn, -⟩ := ho
  refine congrArg Host.Outcome.next ((State.command_accepts h _).trans ((if_neg hrange).trans ((if_neg (by simp [hn])).trans
    ((if_neg hworld).trans ?_))))
  rw [hl]
  rfl

/-- For a remote pair the descriptor is read, and the ring key takes a slot. -/
theorem execRingOpen_remote {d bs : List Byte} {ws : List (Nat × Nat × Bool × Bool)} {n : Nat} {u v w : State} (hr : eBits e 8 17 17 = 1)
    (hclosed : (s.ring q).isOpen = false) (hf : s.fpRuns 4 = true) (hd : s.fwRead (p.val == 1) (eAddr e 0x20) 0x21 = (u, some d))
    (hwn : n = (d.getD 0x20 0).toNat) (hn8 : n ≤ 8) (hb : u.fwRead (p.val == 1) (eAddr e 0x20) (0x28 + n * 16) = (v, some bs))
    (hws : allSome ((List.range n).map (parseWindow bs)) = some ws) (hk : v.ringSlot q ctx (bs.take 32) = some w) :
    execRingOpen p s = .next ((w.openRing q world true ctx sn cn (eAddr e 0x10) (eAddr e 0x18) ws).complete p 0 0 0 0) := by
  have hrange := ho.inRange (.inl hr)
  have hworld := ho.ownWorld
  obtain ⟨rfl, rfl, rfl, rfl, rfl, -, -, hn, -⟩ := ho
  subst hwn
  refine congrArg Host.Outcome.next ((State.command_accepts h _).trans ((if_neg hrange).trans ((if_neg (by simp [hn])).trans
    ((if_neg hworld).trans ?_))))
  simp only [hclosed, hr, hf, hd, hb, hws, hk]
  exact if_neg (Nat.not_lt.mpr hn8)

end Open

/-! ### RING_CLOSE (R339) -/

/-- A context pair that is open closes at once, or when its taken command has completed. -/
theorem execRingClose_open (h : s.accepts p 0x03 [] [(8, 5, 0)] true e) (hq : q = Fin.ofNat 64 (eBits e 8 5 0)) (h2 : 2 ≤ q.val)
    (ho : (s.ring q).isOpen = true) (hc : (s.ring q).closing = false) :
    execRingClose p s = .next (if (s.ring q).taken.isNone then (s.closeRing q).complete p 0 0 0 0
      else s.setRing q { s.ring q with closing := true, closeBy := some p }) := by
  have hctl : ¬ isControl q = true := by rw [isControl, decide_eq_true_iff]; omega
  subst hq
  rw [execRingClose, State.command_accepts h]
  simp only [if_neg hctl, ho, hc]
  rfl

/-! ### LOG_CFG (R366) -/

/-- The low half of a word of an entry. -/
theorem ofNat_eBits_half (e : BitVec 512) : BitVec.ofNat 16 (eBits e 8 15 0) = e.extractLsb' 64 16 := by
  refine BitVec.eq_of_toNat_eq ?_
  simp only [eBits, eWord, bitsOf, nbits, BitVec.toNat_ofNat, BitVec.extractLsb'_toNat]
  omega

theorem execLogCfg_accepts (h : s.accepts p 0x22 [7] [(8, 15, 0)] true e) :
    execLogCfg p s = .next ((({ s with fw := { s.fw with traceMask := e.extractLsb' 64 16 } } : State).store32 (dirBase + 0x20)
      ((e.extractLsb' 64 16).setWidth 32)).complete p 0 0 0 0) := by
  rw [execLogCfg, State.command_accepts h, ofNat_eBits_half]
  rfl

/-! ### ACCT_READ and STATUS_READ (R297, R339, R341) -/

theorem execAcctRead_accepts {ctx : BitVec 12} (h : s.accepts p 0x21 [2] [(8, 11, 0), (0x10, 47, 0)] false e)
    (hctx : ctx = BitVec.ofNat 12 (eBits e 8 11 0)) (hb : eAddr e 0x10 % 64 = 0) (hu : s.mayUse p ctx = true) (hn : s.named ctx = true) :
    execAcctRead p s = .next (s.copyOut p (eAddr e 0x10) (s.acct ctx).bytes 0 0) := by
  subst hctx
  rw [execAcctRead, State.command_accepts h]
  exact congrArg Host.Outcome.next ((if_neg (by omega)).trans ((if_neg (by simp [hu])).trans (if_neg (by simp [hn]))))

theorem execStatusRead_control {s' : State} {bs : List Byte}
    (h : s.accepts p 0x20 [] [(8, 2, 0), (0x10, 47, 0), (0x18, 9, 0), (0x20, 47, 0)] false e) (hc : isControl p = true)
    (h0 : 0 < eBits e 0x18 9 0) (h4 : eAddr e 0x10 % 4 = 0) (hlo : 0x180000000000 ≤ eAddr e 0x10)
    (hhi : eAddr e 0x10 + 4 * eBits e 0x18 9 0 ≤ 2 ^ 45) (hb : eAddr e 0x20 % 64 = 0)
    (hr : State.statusWords (p.val == 1) true (eBits e 0x18 9 0) s (dieBase (eBits e 8 2 0) + eAddr e 0x10) = (s', some bs)) :
    execStatusRead p s = .next (s'.copyBuf p (eAddr e 0x20) bs 0 0) := by
  rw [execStatusRead, State.command_accepts h]
  refine congrArg Host.Outcome.next ((if_neg (by omega)).trans ((if_neg (by simp [hc])).trans ?_))
  rw [hc, hr]

end Ring

/-- Settles O27: each clause is the completion of one command, stated above for it. -/
theorem ringCommandsComplete : Obligations.RingCommandsComplete := by
  unfold Obligations.RingCommandsComplete
  refine fun src p q e s => ⟨fun ho hf hs => ?inspected, fun h => ?nop, ?opened, fun h hq h2 ho hc => ?closed, execLogCfg_accepts,
    fun h hb hu hn => execAcctRead_accepts h rfl hb hu hn, fun s' bs => execStatusRead_control⟩
  case inspected =>
    have hserved := congrArg (Host.Outcome.next (φ := Fault) (ρ := Refusal)) (State.inspect_served ho hf hs)
    have hpoll : exec (.ringPoll p) s = .next (s.inspect p) := rfl
    exact ⟨hpoll.trans hserved, fun hr hsrc => (execDoorbell_allowed hr hsrc).trans hserved⟩
  case nop => exact congrArg Host.Outcome.next (State.command_accepts h _)
  case opened =>
    intro ctx d bs ws n sn cn world u v w h hq hsn hcn hw hctx hs4 hs12 hc4 hc12 hsb hcb hn hcw
    have ho : s.OpensRing e q ctx world sn cn := ⟨hq, hsn, hcn, hw, hctx, ⟨⟨hs4, hs12⟩, hc4, hc12⟩, ⟨hsb, hcb⟩, hn, hcw⟩
    have hlocal := execRingOpen_local h ho
    exact ⟨fun hl hrd hopen => (hlocal hl hrd).trans (by rw [if_pos hopen]),
      fun hl hrd hopen => (hlocal hl hrd).trans (by rw [if_neg (Bool.eq_false_iff.mp hopen)]), execRingOpen_remote h ho⟩
  case closed =>
    have hclose := execRingClose_open h hq h2 ho hc
    exact ⟨fun ht => hclose.trans (by rw [if_pos (Option.isNone_iff_eq_none.mpr ht)]),
      fun ht => hclose.trans (by rw [if_neg fun h => ht (Option.isNone_iff_eq_none.mp h)])⟩

end Sys2Proof.Machine
end

section
/-! PROOFS. Remote access: the completion of each command on datagrams as they arrive (O31). -/

namespace Sys2Proof.Machine

section Datagram
variable {q : RapDgram} {p : Fin 64} {x : Session} {s u : State}

/-! ### Datagrams that FP6 takes (R350, R357) -/

section Taken
variable (hq : s.rapFor q = true) (hf : s.fpRuns 6 = true) (hp : s.rapPair (tpPair q.bytes) = true) {op tag : Nat}
  (hform : tpForm 0x4852 q.bytes tag = true)
include hq hf hp hform

/-- A well-formed datagram of a command's operation, or of an undefined one, is taken for its pair. -/
theorem State.rapTake_taken (hop : tpOp q.bytes = op ∨ rapOps.contains (tpOp q.bytes) = false) (k : Fin 64 → State) :
    s.rapTake q op tag k = k (tpPair q.bytes) := by
  have hmine : ¬(!s.rapFor q || (rapOps.contains (tpOp q.bytes) && tpOp q.bytes != op)) = true := by
    obtain rfl | hop := hop <;> simp_all
  exact (if_neg hmine).trans (if_neg (by simp [hf, hform, hp]))

end Taken

/-! ### OPEN (R353) -/

/-- A half-open session with its answer to OPEN. -/
def State.addHalfOpen (s : State) (q : RapDgram) (p : Fin 64) (id : Word) (nd : List Byte) : State :=
  let y : Session := ⟨p, id, false, s.now, s.now, none, tpPayload q.bytes, nd, q.peer, []⟩
  let s : State := { s with fw := { s.fw with sessions := s.fw.sessions ++ [y] } }
  s.rapSend ⟨p, q.peer, s.openAnswer y⟩

/-- An OPEN with a fresh session number and fewer than 4 half-open sessions adds one, and is answered in clear with a tag. -/
theorem execRapOpen_opens {id : Word} {nd : List Byte} {y : Session} (hpair : p = tpPair q.bytes) (hq : s.rapFor q = true)
    (hf : s.fpRuns 6 = true) (hp : s.rapPair p = true) (hform : tpForm 0x4852 q.bytes 0 = true) (hop : tpOp q.bytes = 1)
    (hsess : tpSession q.bytes = 0) (hseq : tpSeq q.bytes = 0) (hlen : tpLen q.bytes = 16) (hid : id ≠ 0) (hnew : s.session p id = none)
    (hhalf : (s.fw.sessions.filter (fun x => x.pair == p && !x.established)).length < 4)
    (hy : y = ⟨p, id, false, s.now, s.now, none, tpPayload q.bytes, nd, q.peer, []⟩) :
    execRapOpen q id nd s = .next (({ s with fw := { s.fw with sessions := s.fw.sessions ++ [y] } } : State).rapSend
      ⟨p, q.peer, ({ s with fw := { s.fw with sessions := s.fw.sessions ++ [y] } } : State).openAnswer y⟩) := by
  subst hpair hy
  refine congrArg Host.Outcome.next ((if_neg (by simp [hop])).trans ((State.rapTake_taken hq hf hp hform (.inl hop) _).trans ?_))
  refine (if_neg (by simp [hsess, hseq, hlen])).trans ((if_neg (by simpa [hnew] using hid)).trans ?_)
  refine congrArg (State.addHalfOpen · q (tpPair q.bytes) id nd) (a₂ := s) ?_
  split
  · exact if_neg (Nat.not_le.mpr hhalf)
  · rfl

/-! ### Sealed requests (R352 to R357) -/

/-- The establishment of a session takes no time. -/
theorem State.now_establish (s : State) (q : RapDgram) (x : Session) : (s.establish q x).now = s.now :=
  State.trace_leaves (g := State.now) (fun _ _ _ => rfl) (fun _ _ _ => rfl) (fun _ _ _ => rfl) _ _ _ _

/-- The session of a good request: established, with the time and the source of its last valid request. -/
def State.rapHeard (s : State) (q : RapDgram) (x : Session) : State :=
  (if x.established then s else s.establish q x).putSession { x with established := true, lastValid := s.now, peer := q.peer }

/-- How a session that has been heard is served: an answer that is kept goes out again, a sequence behind the window of 64 is dropped, and a
new one is performed, or answered BADOP where its operation is undefined. -/
def State.rapServe (u : State) (q : RapDgram) (p : Fin 64) (x : Session) (op : Nat) (performed : State) : State :=
  match x.done.find? (fun e => e.1 == tpSeq q.bytes) with
  | some e => u.rapSend ⟨p, q.peer, e.2⟩
  | none =>
    if x.done.length = 64 ∧ x.done.all (fun e => decide (tpSeq q.bytes < e.1)) then u.rapDrop
    else if tpOp q.bytes = op then performed
    else u.rapRespond p q 3 []

section Served
variable (u : State) (q : RapDgram) (p : Fin 64) (op : Nat) (performed : State)

theorem State.rapServe_repeated {x : Session} {y : BitVec 64 × List Byte} (h : x.done.find? (fun y => y.1 == tpSeq q.bytes) = some y) :
    u.rapServe q p x op performed = u.rapSend ⟨p, q.peer, y.2⟩ := by
  simp only [State.rapServe, h]

theorem State.rapServe_new {x : Session} (hnew : ∀ y ∈ x.done, y.1 ≠ tpSeq q.bytes) (hroom : x.done.length < 64) :
    u.rapServe q p x op performed = if tpOp q.bytes = op then performed else u.rapRespond p q 3 [] := by
  have hnone : x.done.find? (fun e => e.1 == tpSeq q.bytes) = none := List.find?_eq_none.mpr fun y hy => by simpa using hnew y hy
  simp only [State.rapServe, hnone]
  exact if_neg fun h => Nat.ne_of_lt hroom h.1

end Served

section Sealed
variable (hpair : p = tpPair q.bytes) (hq : s.rapFor q = true) (hf : s.fpRuns 6 = true) (hp : s.rapPair p = true)
  (hform : tpForm 0x4852 q.bytes 16 = true) {op : Nat} (hop : tpOp q.bytes = op ∨ rapOps.contains (tpOp q.bytes) = false)
  (k : Fin 64 → List Byte → State → State)
include hpair hq hf hp hform hop

/-- A request of no session is dropped and counted. -/
theorem State.rapRequest_noSession (hx : s.session p (tpSession q.bytes) = none) : s.rapRequest q op k = s.count .fw 0 Reg.FW_RAPDROP 1 := by
  subst hpair
  rw [State.rapRequest, State.rapTake_taken hq hf hp hform hop]
  simp only [hx]
  rfl

section Session
variable (hx : s.session p (tpSession q.bytes) = some x)
include hx

/-- A request whose tag fails is dropped, counted and traced. -/
theorem State.rapRequest_badTag (ho : tpOpened (s.sessionKey x) q.bytes = none) : s.rapRequest q op k = s.rapAuthFail p q := by
  subst hpair
  rw [State.rapRequest, State.rapTake_taken hq hf hp hform hop]
  simp only [hx, ho]

section Good
variable {pt : List Byte} (ho : tpOpened (s.sessionKey x) q.bytes = some pt) (h0 : tpSeq q.bytes ≠ 0) (h62 : (tpSeq q.bytes).toNat ≤ 2 ^ 62)
  (hest : x.established = true ∨ tpSeq q.bytes = 1)
include ho h0 h62 hest

/-- A good request is heard, and its session is served. -/
theorem State.rapRequest_heard : s.rapRequest q op k = (s.rapHeard q x).rapServe q p x op (k p pt (s.rapHeard q x)) := by
  have hgood : ¬(tpSeq q.bytes = 0 ∨ 2 ^ 62 < (tpSeq q.bytes).toNat ∨ (!x.established) = true ∧ tpSeq q.bytes ≠ 1) := by
    rintro (h | h | ⟨hx, hseq⟩)
    · exact h0 h
    · exact Nat.not_lt.mpr h62 h
    · obtain hest | hest := hest
      · simp [hest] at hx
      · exact hseq hest
  have hheard : (if x.established then s else s.establish q x).putSession { x with
      established := true, lastValid := (if x.established then s else s.establish q x).now, peer := q.peer } = s.rapHeard q x := by
    rw [apply_ite State.now, State.now_establish, ite_self, State.rapHeard]
  subst hpair
  rw [State.rapRequest, State.rapTake_taken hq hf hp hform hop]
  simp only [hx, ho, if_neg hgood, hheard]
  rfl

end Good
end Session
end Sealed

end Datagram

/-- Settles O31: each clause is the completion of one command, by what a sealed request comes to. -/
theorem remoteAccessCommandsComplete : Obligations.RemoteAccessCommandsComplete := by
  unfold Obligations.RemoteAccessCommandsComplete
  refine fun q p x s hpair => ⟨fun id nd y => execRapOpen_opens hpair, fun hq hf hp hform =>
    ⟨fun hop hx => ?noSession, fun hx => ⟨fun hop ho => ?badTag, ?good⟩⟩, ?notify,
    fun p => ⟨_, rfl, fun y => ?timeout, rfl, rfl⟩, fun p => ⟨_, rfl, fun y => ?halfOpen, rfl, rfl⟩⟩
  case noSession => exact congrArg Host.Outcome.next (State.rapRequest_noSession hpair hq hf hp hform (.inl hop) _ hx)
  case badTag => exact congrArg Host.Outcome.next (State.rapRequest_badTag hpair hq hf hp hform (.inl hop) _ hx ho)
  case good =>
    intro pt u ho h0 h62 hest hu
    obtain rfl : u = s.rapHeard q x := hu
    have hserved {op : Nat} (hop : tpOp q.bytes = op ∨ rapOps.contains (tpOp q.bytes) = false) (k : Fin 64 → List Byte → State → State) :=
      State.rapRequest_heard hpair hq hf hp hform hop k hx ho h0 h62 hest
    refine ⟨fun y hop hy => congrArg Host.Outcome.next ((hserved (.inl hop) _).trans (State.rapServe_repeated _ q p _ _ hy)),
      fun hnew hroom => ?_⟩
    have hperform {op : Nat} (hop : tpOp q.bytes = op) (k : Fin 64 → List Byte → State → State) :
        s.rapRequest q op k = k p pt (s.rapHeard q x) :=
      (hserved (.inl hop) k).trans ((State.rapServe_new _ q p op _ hnew hroom).trans (if_pos hop))
    refine ⟨fun hop => ?keepalive, fun hop => ?close, fun hop => ?doorbell, fun n t bs hop hn hlt hst hr => ?read, fun t hop hst hw => ?write,
      fun hop => ?undefined⟩
    case keepalive => exact congrArg Host.Outcome.next (hperform hop _)
    case close => exact congrArg Host.Outcome.next (hperform hop _)
    case doorbell => exact congrArg Host.Outcome.next (hperform hop _)
    case read =>
      have hval : leNat pt = n := by rw [hn, leNat_leBytes, Nat.mod_eq_of_lt (by omega)]
      have hlen : pt.length = 4 := by rw [hn, leBytes_length]
      refine congrArg Host.Outcome.next ((hperform hop _).trans ?_)
      simp only [hval, if_pos hlen, hst, hr]
      rfl
    case write =>
      refine congrArg Host.Outcome.next ((hperform hop _).trans ?_)
      simp only [hst, hw]
      rfl
    case undefined =>
      refine congrArg Host.Outcome.next ((hserved (.inr hop) _).trans ((State.rapServe_new _ q p _ _ hnew hroom).trans (if_neg ?_)))
      intro h6
      rw [h6] at hop
      exact absurd hop (by decide)
  case notify =>
    intro hf hp hx hl hcq hirq
    refine congrArg Host.Outcome.next ?_
    simp only [hx, hl]
    exact if_pos (by simp [hf, hp, hcq, hirq])
  case timeout =>
    simp only [List.mem_filter, Bool.not_eq_true', Bool.eq_false_iff, ne_eq, Bool.and_eq_true, beq_iff_eq, decide_eq_true_eq, and_assoc]
  case halfOpen =>
    simp only [List.mem_filter, Bool.not_eq_true', Bool.eq_false_iff, ne_eq, Bool.and_eq_true, beq_iff_eq, decide_eq_true_eq, and_assoc]

end Sys2Proof.Machine
end

section
/-! PROOFS. The management network: sessions, the requests of a session, and the completion of each command (O51). -/

namespace Sys2Proof.Machine

section Management
variable {s u : State} {q : MgmtDgram} {x : Mgmt}

/-! ### HELLO and AUTH (R490, R491) -/

/-- A HELLO outside the lock-out, with a fresh session number, adds a session that waits for AUTH and is answered with a CHALLENGE. -/
theorem execMgmtHello_opens {id : Word} {cred : Fin 8} {nd sig pt : List Byte} (hup : s.mgmtUp = true) (hq : s.mgmtFor q = true)
    (hop : tpOp q.bytes = 1) (hform : tpForm 0x484D q.bytes 0 = true) (hsess : tpSession q.bytes = 0) (hpt : pt = tpPayload q.bytes)
    (hlen : pt.length = 36) (h8 : mgWord pt 8 < 8) (hcred : cred = Fin.ofNat 8 (mgWord pt 8)) (hlock : s.sec.lockUntil = none) (hid : id ≠ 0)
    (hnew : s.mgmtOf id = none) :
    execMgmtHello q id nd sig s = .next (State.mgmtSend { s with
      sec := { s.sec with mgmt := s.sec.mgmt.filter (fun x => x.established || x.cred != cred) ++
        [⟨id, cred, pt.take 32, nd, [], false, s.now, []⟩] } } q
      (tpHeader 0x484D 0x81 0 (nd ++ sig).length id 0 (BitVec.ofNat 64 (2 ^ 63)) ++ nd ++ sig)) := by
  subst hcred hpt
  exact congrArg Host.Outcome.next (if_neg (by simpa [hup, hq, hop, hform, hsess, hlen, h8, hlock, hnew] using hid))

section Auth
variable (hup : s.mgmtUp = true) (hq : s.mgmtFor q = true) (hop : tpOp q.bytes = 3) (hm : tpMagic q.bytes = 0x484D01)
  (hx : s.mgmtOf (tpSession q.bytes) = some x) (he : x.established = false)
include hup hq hop hm hx he

/-- An AUTH that does not verify ends its session and counts. -/
theorem execMgmtAuth_fails : execMgmtAuth q none s = .next (s.dropMgmt (tpSession q.bytes)).authFail := by
  refine congrArg Host.Outcome.next ((if_neg (by simp [hup, hq, hop, hm])).trans ?_)
  simp only [hx]
  exact if_neg (by simp [he])

/-- An AUTH of a credential that is not revoked establishes its session while fewer than two others are open, in place of the one that the
credential had. -/
theorem execMgmtAuth_establishes {secret : List Byte} (hr : s.sec.revoked.getLsbD x.cred.val = false)
    (h2 : (s.sec.mgmt.filter (fun y => y.established && y.cred != x.cred)).length < 2) :
    execMgmtAuth q (some secret) s = .next ((State.putMgmt { s with
      sec := { s.sec with mgmt := s.sec.mgmt.filter (fun y => y.id == tpSession q.bytes || !(y.established && y.cred == x.cred)) } }
        { x with established := true, secret := secret, lastValid := s.now }).mgmtSend q
          (Mgmt.answer { x with established := true, secret := secret, lastValid := s.now } 3 0 (tpSeq q.bytes) [])) := by
  refine congrArg Host.Outcome.next ((if_neg (by simp [hup, hq, hop, hm])).trans ?_)
  simp only [hx]
  exact (if_neg (by simp [he])).trans ((if_neg (Bool.eq_false_iff.mp hr)).trans (if_neg (Nat.not_le.mpr h2)))

end Auth

/-! ### Requests of a session (R356, R489, R490) -/

/-- A repeated request gets the answer that is kept. -/
theorem State.mgmtRequest_repeated {op : Nat} {pt bs : List Byte} (k : Mgmt → List Byte → State → State × Nat × List Byte)
    (hup : s.mgmtUp = true) (hq : s.mgmtFor q = true) (hform : tpForm 0x484D q.bytes 16 = true) (hop : tpOp q.bytes = op)
    (hx : s.mgmtOf (tpSession q.bytes) = some x) (ho : tpOpened x.key q.bytes = some pt) (he : x.established = true) (h0 : tpSeq q.bytes ≠ 0)
    (h62 : (tpSeq q.bytes).toNat ≤ 2 ^ 62) (hdone : x.done.find? (fun e => e.1 == tpSeq q.bytes) = some (tpSeq q.bytes, bs)) :
    s.mgmtRequest q op k = (s.heard x).mgmtSend q bs := by
  subst hop
  refine (if_neg (by simp [hup, hq, hform])).trans ?_
  simp only [hx, ho]
  refine (if_neg (by simpa [he] using ⟨h0, h62⟩)).trans ?_
  simp only [hdone]
  rfl

section Admitted
variable {pt : List Byte} {n : Fin 64} {y : Slice}

theorem execSliceCreate_creates {m : Fin 64} (h : s.admits q 0x10 x pt) (hp : parseSlice pt = some (m, y))
    (hr : (s.heard x).sliceRole x = true) (hf : (s.heard x).sliceFits m y = true) :
    execSliceCreate q s = .next (State.answered { s.heard x with
      sec := { (s.heard x).sec with slices := (s.heard x).sec.slices.set m y } } q x 0 []) := by
  refine congrArg Host.Outcome.next (State.mgmtRequest_admits h _ ?_ rfl)
  simp only [hp]
  exact if_pos (by rw [hf, Bool.and_true]; exact hr)

theorem execSliceCreate_refused (h : s.admits q 0x10 x pt) (hp : parseSlice pt = none) :
    execSliceCreate q s = .next ((s.heard x).answered q x mgREFUSED []) := by
  refine congrArg Host.Outcome.next (State.mgmtRequest_admits h _ ?_ rfl)
  simp only [hp]

theorem execSliceDestroy_destroys (h : s.admits q 0x11 x pt) (hn : n = Fin.ofNat 64 (mgWord pt 0)) (h64 : mgWord pt 0 < 64)
    (hr : (s.heard x).sliceRole x = true) (hs : ((s.heard x).sec.slices.get? n).isSome = true) (hc : (s.heard x).ctxsOf n = []) :
    execSliceDestroy q s = .next (State.answered { s.heard x with
      sec := { (s.heard x).sec with slices := (s.heard x).sec.slices.erase n } } q x 0 []) := by
  subst hn
  refine congrArg Host.Outcome.next (State.mgmtRequest_admits h _ (if_pos ?_) rfl)
  rw [hs, hc, decide_eq_true h64, Bool.and_true, List.isEmpty_nil, Bool.and_true, Bool.and_true]
  exact hr

theorem execSliceRead_reads (h : s.admits q 0x12 x pt) (hn : n = Fin.ofNat 64 (mgWord pt 0)) (h64 : mgWord pt 0 < 64)
    (hr : (s.heard x).sliceRole x = true) (hs : (s.heard x).sec.slices.get? n = some y) :
    execSliceRead q s = .next ((s.heard x).answered q x 0 (y.bytes n ++
      leBytes 8 (Config.sliceUse ((s.heard x).slotsOf n) ((s.heard x).sliceParts n).length ((s.heard x).ctxsOf n).length).toNat)) := by
  subst hn
  refine congrArg Host.Outcome.next (State.mgmtRequest_admits h _ ?_ rfl)
  simp only [hs]
  refine if_pos ?_
  rw [decide_eq_true h64, Bool.and_true]
  exact hr

theorem execCredRevoke_revokes (h : s.admits q 0x13 x pt) (h8 : mgWord pt 0 < 8) (hr : (s.heard x).revokeRole x = true) :
    execCredRevoke q s = .next (State.answered { s.heard x with
      sec := { (s.heard x).sec with revoked := (s.heard x).sec.revoked ||| BitVec.ofNat 8 (1 <<< mgWord pt 0) } } q x 0 []) := by
  refine congrArg Host.Outcome.next (State.mgmtRequest_admits h _ (if_pos ?_) rfl)
  rw [decide_eq_true h8, Bool.and_true]
  exact hr

theorem execCredRevoke_refused (h : s.admits q 0x13 x pt) (hr : (s.heard x).revokeRole x = false) :
    execCredRevoke q s = .next ((s.heard x).answered q x mgREFUSED []) := by
  refine congrArg Host.Outcome.next (State.mgmtRequest_admits h _ (if_neg ?_) rfl)
  rw [Bool.and_eq_true]
  exact fun hb => Bool.eq_false_iff.mp hr hb.1

/-- The first report for a nonce is built, signed and kept. -/
theorem execPkgAttest_reports {sig r : List Byte} (h : s.admits q 0x14 x pt) (hf : s.fpRuns 4 = true) (hn : s.sec.report = none)
    (hr : r = (s.heard x).attest none (pt.take 32) sig) :
    execPkgAttest q sig s = .next (State.answered { s.heard x with sec := { (s.heard x).sec with report := some (pt.take 32, r) } } q x 0
      (leBytes 4 r.length ++ (r.drop (mgWord pt 8)).take 1020)) := by
  have hnone : (s.heard x).sec.report = none := hn
  subst hr
  refine congrArg Host.Outcome.next ((if_neg (by simp [hf])).trans (State.mgmtRequest_admits h _ ?_ rfl))
  simp only [hnone]
  rfl

end Admitted
end Management

/-- Settles O51: each clause is the completion of one command, stated above for it, and a repeat is answered from what is kept. -/
theorem managementCommandsComplete : Obligations.ManagementCommandsComplete := by
  unfold Obligations.ManagementCommandsComplete
  refine ⟨fun q x id cred nd sig secret pt n y s u => ⟨execMgmtHello_opens, fun hup hq hop hm hx he => ?auth,
    fun hu hn => ?requests, rfl, fun t ht hdue => ?lockout⟩,
    fun s q x op pt bs k => State.mgmtRequest_repeated k⟩
  case auth => exact ⟨execMgmtAuth_fails hup hq hop hm hx he, execMgmtAuth_establishes hup hq hop hm hx he⟩
  case requests =>
    subst hu
    exact ⟨fun h => ⟨fun m => execSliceCreate_creates h, execSliceCreate_refused h⟩, fun h => execSliceDestroy_destroys h hn,
      fun h => execSliceRead_reads h hn, fun h => ⟨execCredRevoke_revokes h, execCredRevoke_refused h⟩, fun r => execPkgAttest_reports,
      fun h => congrArg Host.Outcome.next (State.mgmtRequest_admits h _ rfl rfl),
      fun h => congrArg Host.Outcome.next (State.mgmtRequest_admits h _ rfl rfl)⟩
  case lockout =>
    refine congrArg Host.Outcome.next ?_
    simp only [ht]
    exact if_pos hdue

end Sys2Proof.Machine
end

section
/-! PROOFS. The management core's watchdog: what its expiry leaves of a package that has failed before, and the state for which the statement
about READY fails (O52). -/

namespace Sys2Proof.Machine

/-- A register of another block stands. -/
theorem State.reg_setReg_blk (s : State) {b c : Blk} (h : c ≠ b) (i j off off' : Nat) (v : Word) :
    (s.setReg b i off v).reg c j off' = s.reg c j off' :=
  State.reg_setReg_other _ _ _ _ _ _ _ _ fun e => h (congrArg RegKey.blk e)

/-- A package that has failed does not leave FAILED (R380), so its READY bit stands too. -/
theorem State.packageFail_failed {s : State} (h : s.pkg = pkFAILED) :
    s.packageFail = s.withdraw.setFld .flt 0 Reg.FLT_PINHOLD 1 1 1 := by
  rw [State.packageFail, State.setPkg, if_pos h]

/-- On a package that has failed the fault of the management core reaches no register of the power manager. -/
theorem State.reg_pwr_mcFail {s : State} (h : s.pkg = pkFAILED) (off : Nat) : s.mcFail.reg .pwr 0 off = s.reg .pwr 0 off := by
  unfold State.mcFail
  generalize hu : State.raise _ .fw 0 4 0 0 = u
  have hraised (off : Nat) : u.reg .pwr 0 off = s.reg .pwr 0 off := by
    subst hu
    refine State.raise_leaves (g := fun t => t.reg .pwr 0 off) (fun _ _ => rfl) (fun t c j o v hc => t.reg_setReg_blk ?_ j 0 o off v) _ 0 4 0 0
    obtain rfl | ⟨rfl, -⟩ := hc <;> decide
  have hfailed : u.pkg = pkFAILED := by rw [← h, State.pkg, State.pkg, State.fld, State.fld, hraised]
  rw [State.packageFail_failed hfailed]
  exact (u.withdraw.reg_setReg_blk (by decide) ..).trans (hraised off)

/-- FAILED with a READY bit that is still high, and a management core that has not kicked its watchdog for 1 ms. Device firmware lowers READY
as it enters FAILED, so no run from reset is known to come here; the statement is about every state. -/
def failedWithReady : State :=
  { State.reset with
    regs := [(⟨.pwr, 0, Reg.PWR_STAT⟩, 0x40000001)]
    time := { TimeState.reset with lt := 1000000 }
    fw := { FwState.reset with mcRunning := true } }

theorem failedWithReady_pkg : failedWithReady.pkg = pkFAILED := by decide

theorem failedWithReady_ready : failedWithReady.fld .pwr 0 Reg.PWR_STAT 0 0 = 1 := by decide

theorem failedWithReady_due : failedWithReady.fw.mcKick + 1000000 ≤ failedWithReady.now := by decide

/-- Refutes O52: a package that has failed keeps the READY bit that it holds, and the expiry of the watchdog does not lower it. -/
theorem not_pairsAreServedAndTheManagementCoreIsWatched : ¬ Obligations.PairsAreServedAndTheManagementCoreIsWatched := by
  unfold Obligations.PairsAreServedAndTheManagementCoreIsWatched
  rintro ⟨-, -, hwatched⟩
  obtain ⟨-, -, hexpire⟩ := hwatched (fwSrc false) failedWithReady rfl
  obtain ⟨t, ht, -, hready, -⟩ := hexpire failedWithReady_due
  have hmodel : exec .mcWatchdogExpire failedWithReady = .next failedWithReady.mcFail := execMcWatchdogExpire_due rfl failedWithReady_due
  obtain rfl := Host.Outcome.next.inj (ht.symm.trans hmodel)
  have hkept : failedWithReady.mcFail.fld .pwr 0 Reg.PWR_STAT 0 0 = 1 := by
    rw [State.fld, State.reg_pwr_mcFail failedWithReady_pkg, ← State.fld, failedWithReady_ready]
  exact absurd (hready.symm.trans hkept) (by decide)

end Sys2Proof.Machine
end

section
/-! PROOFS. The power cap: which watts PWR_CAP takes (O53). -/

namespace Sys2Proof.Machine

/-- A cap below 120 W or above 560 W is refused with BADARG (R391, R396). -/
theorem execPwrCap_out_of_range {s : State} {p : Fin 64} {e : BitVec 512} (ha : s.accepts p 0x29 [] [(8, 9, 0)] true e)
    (hw : eBits e 8 9 0 < 120 ∨ 560 < eBits e 8 9 0) : execPwrCap p s = .next (s.complete p 2 0 0 0) := by
  rw [execPwrCap, State.command_accepts ha]
  exact congrArg Host.Outcome.next (if_pos hw)

theorem reg_pwrCap_reset : State.reset.reg .pwr 0 Reg.PWR_CAP = 560 := by
  rw [State.reg_reset]
  decide

/-- Settles O53: out of its range a cap is BADARG, and in its range the budget sum decides whether it is taken. -/
theorem powerCapStaysInItsRange : Obligations.PowerCapStaysInItsRange := by
  unfold Obligations.PowerCapStaysInItsRange
  refine ⟨reg_pwrCap_reset, fun p e w s ha hw => ⟨fun hout => ?badArg, fun h1 h2 hb => ?budget, fun h1 h2 hb => ?taken⟩⟩
  case badArg => exact execPwrCap_out_of_range ha (hw ▸ hout)
  case budget => exact (execPwrCap_accepts ha hw h1 h2).trans (by rw [if_pos hb])
  case taken => exact (execPwrCap_accepts ha hw h1 h2).trans (by rw [if_neg (by omega)])

end Sys2Proof.Machine
end

section
/-! PROOFS. Bring-up: what the end of step 8 makes of the package state, and the state for which the statement about it fails (O35). -/

namespace Sys2Proof.Machine

/-! ### The package state (R371, R372, R380) -/

/-- Fields of PWR_STAT below the package state are apart from it. -/
theorem State.pkg_setFld_stat (s : State) {hi lo : Nat} (v : Nat) (h : hi < 28) : (s.setFld .pwr 0 Reg.PWR_STAT hi lo v).pkg = s.pkg :=
  State.fld_setFld_apart _ _ _ _ _ (by decide) (.inl h)

theorem State.pkg_setReg_off (s : State) {off : Nat} (v : Word) (h : Reg.PWR_STAT ≠ off) : (s.setReg .pwr 0 off v).pkg = s.pkg := by
  rw [State.pkg, State.fld, State.reg_setReg_off _ _ _ _ h, State.pkg, State.fld]

theorem State.pkg_setFld_blk (s : State) {b : Blk} (h : Blk.pwr ≠ b) (i off hi lo v : Nat) : (s.setFld b i off hi lo v).pkg = s.pkg := by
  rw [State.pkg, State.fld, State.setFld, State.reg_setReg_blk _ h, State.pkg, State.fld]

theorem State.pkg_congr {s t : State} (h : t.regs = s.regs) : t.pkg = s.pkg := by
  simp only [State.pkg, State.fld, State.reg, h]

/-- The package enters a state unless it is in FAILED, which only RESET_N leaves (R380). -/
theorem State.pkg_setPkg (s : State) {k : Nat} (h : k < 16) : (s.setPkg k).pkg = if s.pkg = pkFAILED then pkFAILED else k := by
  unfold State.setPkg
  split
  · assumption
  · rw [State.pkg_setFld_stat _ _ (by decide), State.pkg, State.fld_setFld_same (hi := 31) (lo := 28) _ _ _ _ _ (by decide)]
    exact Nat.mod_eq_of_lt h

/-! ### CPU pairs that are released (R375, R499) -/

section Release
variable {β : Type} {g : State → β} (hcpu : ∀ (s : State) c, g { s with cpu := c } = g s) (hmem : ∀ (s : State) m, g { s with mem := m } = g s)
include hcpu hmem

theorem State.loseLine_leaves (s : State) (x : CLine) : g (s.loseLine x) = g s := by
  unfold State.loseLine
  dsimp only
  split
  · exact (hcpu _ _).trans (hcpu s _)
  · exact (hmem _ _).trans (hcpu s _)
  · exact hcpu s _

/-- A release of CPU pairs reaches the CPU complex and the memory that its lost lines cover. -/
theorem State.releaseListed_leaves (s : State) : g s.releaseListed = g s := by
  refine foldl_leaves (fun t p => ?_) _ s
  split
  · have hempty : g (t.emptyPair p) = g t := foldl_leaves (State.loseLine_leaves hcpu hmem) _ t
    exact (hcpu _ _).trans ((hcpu _ _).trans ((hcpu _ _).trans hempty))
  · rfl

end Release

theorem State.releaseListed_pkg (s : State) : s.releaseListed.pkg = s.pkg :=
  s.releaseListed_leaves (fun _ _ => rfl) (fun _ _ => rfl)

theorem State.releaseListed_pwr (s : State) : s.releaseListed.pwr = s.pwr :=
  s.releaseListed_leaves (fun _ _ => rfl) (fun _ _ => rfl)

/-! ### The end of step 8 (R370, R375, R382) -/

theorem State.openControl_regs (s : State) (p : Fin 64) : (s.openControl p).regs = s.regs := by
  unfold State.openControl
  split <;> rfl

theorem State.openControl_pwr (s : State) (p : Fin 64) : (s.openControl p).pwr = s.pwr := by
  unfold State.openControl
  split <;> rfl

theorem State.serve8_pwr (s : State) (cool : Bool) : (s.serve8 cool).pwr = s.pwr := by
  simp only [State.serve8, State.openControl_pwr, State.setFld_pwr, State.setPkg_pwr]

/-- The package begins to serve unless it is in FAILED. -/
theorem State.serve8_pkg (s : State) (cool : Bool) :
    (s.serve8 cool).pkg = if s.pkg = pkFAILED then pkFAILED else if cool then pkREADY else pkPARTIAL := by
  simp only [State.serve8, State.pkg_congr (State.openControl_regs _ _)]
  rw [State.pkg_setFld_stat _ _ (by decide), State.pkg_setFld_blk _ (by decide), State.pkg_setFld_stat _ _ (by decide),
    State.pkg_setPkg _ (by cases cool <;> decide)]

theorem startStep_le (d : Nat) : startStep d ≤ 5 := by
  unfold startStep
  split
  · split
    · decide
    · split <;> decide
  · split <;> decide

/-- Step 8 switches no domain on. -/
theorem State.bootWork_eight (s : State) (doms : List Nat) (fail : Option BootFail) : s.bootWork 8 doms fail = s := by
  have hnone : doms.filter (fun d => startStep d == 8 && !s.domOn d) = [] := by
    refine List.filter_eq_nil_iff.mpr fun d _ => ?_
    have hle := startStep_le d
    simp [show startStep d ≠ 8 by omega]
  simp [State.bootWork, hnone]

/-- Without a failure and without coolant that came late, the end of step 8 leaves the package in READY or in PARTIAL, unless it is in FAILED. -/
theorem State.bootStep_eight_pkg {s : State} {r : BootStep} (hr : r.fail = none) (hl : s.pwr.lateCool = none) (doms : List Nat) (cool : Bool) :
    (s.bootStep 8 doms cool r).pkg = if s.pkg = pkFAILED then pkFAILED else if cool then pkREADY else pkPARTIAL := by
  have hcheck : (r.fail.orElse fun _ => (s.bootClock r.us).bootCheck 8 doms cool) = none := by rw [hr]; rfl
  simp only [State.bootStep, State.bootWork_eight, hcheck, OfNat.ofNat_ne_one, if_false, if_true, Nat.reduceEqDiff]
  generalize hu : ({ s.bootClock r.us with pwr := _ } : State) = u
  have hpkg : u.pkg = s.pkg := by subst hu; rfl
  have hlate : u.pwr.lateCool = none := by subst hu; exact hl
  rw [State.lateStart]
  simp only [State.setReg_pwr, State.releaseListed_pwr, State.serve8_pwr, hlate]
  rw [State.pkg_setReg_off _ _ (by decide), State.releaseListed_pkg, State.serve8_pkg, hpkg]

/-! ### The package that stays in FAILED -/

/-- A package that enters FAILED from the state of reset. -/
def failedFromReset : State := State.reset.setPkg pkFAILED

theorem failedFromReset_pkg : failedFromReset.pkg = pkFAILED := by
  rw [failedFromReset, State.pkg_setPkg _ (by decide), ite_self]

/-- Refutes O35: its clause on the end of step 8 speaks of every state, and a package in FAILED stays there, since only RESET_N leaves
FAILED (R380). RESET_RELEASE ends steps of a package in BOOTING only, and of every package that is not in FAILED the clause is true. -/
theorem not_bringUpCommandsComplete : ¬ Obligations.BringUpCommandsComplete := by
  unfold Obligations.BringUpCommandsComplete
  intro h
  obtain ⟨-, -, hstep8, -⟩ := h true ⟨0, none⟩ 0 failedFromReset 0
  have hready : (failedFromReset.bootStep 8 [] true ⟨0, none⟩).pkg = pkREADY := hstep8 [] rfl rfl
  have hfailed : (failedFromReset.bootStep 8 [] true ⟨0, none⟩).pkg = pkFAILED := by
    rw [State.bootStep_eight_pkg rfl rfl, if_pos failedFromReset_pkg]
  exact absurd (hready.symm.trans hfailed) (by decide)

end Sys2Proof.Machine
end

section
/-! PROOFS. What a step takes from the queue (O57, O58). -/

namespace Sys2Proof.Machine

/-- Settles O57: the front of the queue is what `step` looks at. -/
theorem stepRunsTheFrontCommand : Obligations.StepRunsTheFrontCommand := by
  unfold Obligations.StepRunsTheFrontCommand
  intro c t s h
  rw [step, h]

/-- Settles O58: every command answers a next state, and none of them touches the rest of the queue or the fixed data. -/
theorem everyStepTakesOneCommand : Obligations.EveryStepTakesOneCommand := by
  unfold Obligations.EveryStepTakesOneCommand
  intro s
  obtain ⟨t, ht, k⟩ := step_keeps s
  exact ⟨t, ht, k.pending, k.fixed⟩

end Sys2Proof.Machine
end

section
/-! PROOFS. The windowed counters of fault sources: when an event makes its source lasting (O49). -/

namespace Sys2Proof.Machine

/-- Without a rule three events within one second count (R445). -/
theorem State.winRule_none {s : State} (h : s.flt.rules = []) (src : Word) : s.winRule src = (none, 3, 1000000000) := by
  unfold State.winRule
  split
  next n hn =>
    have hmatch := List.find?_some hn
    simp [h, AMap.get?] at hmatch
  next => rfl

theorem State.countEvent_fatal {s : State} {e : Ev} (h : e.cls = 2) : s.countEvent e = s.act e.scope := if_pos h

/-- The state in which an event's stamp is pushed on its source's history. -/
def State.stamped (s : State) (e : Ev) : State :=
  { s with flt := { s.flt with hist := s.flt.hist.set e.source (pushStamp (s.flt.hist.get e.source []) e.stamp (s.winRule e.source).2.1) } }

/-- The state in which an event's source is lasting, from its scope. -/
def State.becameLasting (s : State) (e : Ev) : State :=
  { s.stamped e with flt := { (s.stamped e).flt with lasting := s.flt.lasting ++ [(e.source, e.scope.ends)] } }

theorem State.becameLasting_isLasting (s : State) (e : Ev) : (s.becameLasting e).isLasting e.source = true := by
  simp [State.becameLasting, State.isLasting]

section Counted
variable {s : State} {e : Ev} (hu : e.cls = 1) (hl : s.isLasting e.source = false)
include hu hl

/-- An event that does not fill its window leaves its stamp only. -/
theorem State.countEvent_stamps
    (hn : nowLasting (pushStamp (s.flt.hist.get e.source []) e.stamp (s.winRule e.source).2.1) (s.winRule e.source).2.1
      (s.winRule e.source).2.2 = false) : s.countEvent e = s.stamped e := by
  simp [State.countEvent, State.stamped, hu, hl, hn]

/-- An event of class U that fills its window acts on its scope and pulses SAFE_ERR_N. -/
theorem State.countEvent_lasts
    (hn : nowLasting (pushStamp (s.flt.hist.get e.source []) e.stamp (s.winRule e.source).2.1) (s.winRule e.source).2.1
      (s.winRule e.source).2.2 = true) : s.countEvent e = ((s.becameLasting e).act e.scope).fwPulse 7 true := by
  simp [State.countEvent, State.becameLasting, State.stamped, hu, hl, hn]

end Counted

theorem nowLasting_three (t t1 t2 w : Nat) : nowLasting (pushStamp [t1, t2] t 3) 3 w = decide (t - t2 ≤ w) := rfl

/-- Settles O49: the third stamp fills the window of one second, or misses it. -/
theorem thirdEventInTheWindowIsLasting : Obligations.ThirdEventInTheWindowIsLasting := by
  unfold Obligations.ThirdEventInTheWindowIsLasting
  intro s e t1 t2
  refine ⟨State.countEvent_fatal, fun hu hr hl hh _ _ => ?_⟩
  have hw := State.winRule_none hr e.source
  refine ⟨fun hin => ⟨s.becameLasting e, s.becameLasting_isLasting e, State.countEvent_lasts hu hl ?_⟩, fun hout => ?_⟩
  · rw [hw, hh, nowLasting_three, decide_eq_true hin]
  · rw [State.countEvent_stamps hu hl (by rw [hw, hh, nowLasting_three, decide_eq_false (Nat.not_le.mpr hout)])]
    exact hl

end Sys2Proof.Machine
end

section
/-! PROOFS. Completion of the commands of the checker engine, the comparator and their pairings (O47). -/

namespace Sys2Proof.Machine

section CheckerEngine
variable {s t0 u v w : State} {p : Fin 64} {e : BitVec 512} {m i : Fin 16} {sl wh : Fin 4} {x : Monitor} {y : Pairing} {pt : Part} {k : Kind}
  {c : CoreId} {cert : Cert} {bs pb : List Byte} {f : Word}

/-! ### Monitors (R400 to R404) -/

theorem execSafeMonLoad_loads {ch fh img : List Byte} (ha : s.accepts p 0x30 [] [(8, 3, 0), (8, 9, 8), (0x10, 47, 0), (0x18, 47, 0)] true e)
    (hch : s.fwRead (p.val == 1) (eAddr e 0x18) 0x60 = (t0, some ch))
    (hbs : t0.fwRead (p.val == 1) (eAddr e 0x18) (certLen ch) = (u, some bs)) (hfh : u.fwRead (p.val == 1) (eAddr e 0x10) 0x40 = (v, some fh))
    (himg : v.readImage (p.val == 1) (eAddr e 0x10) fh = (w, some img)) (hc : parseCert bs 1 = some cert) (hk : monCert cert = some k)
    (hup : w.up 100 = true) (hw : monWheel (Fin.ofNat 4 (eBits e 8 9 8)) cert.placement = some wh) (hd : cert.formula = sha256 img)
    (hf : formulaOk fh 0x4E5A4D31 cert.toolver = true)
    (h0 : w.monCode (Fin.ofNat 16 (eBits e 8 3 0)) (Fin.ofNat 4 (eBits e 8 9 8)) wh cert k true true = 0) :
    exec (.safeMonLoad p true) s = .next (((w.installAll cert.res).1.setMon (Fin.ofNat 16 (eBits e 8 3 0)) ⟨Fin.ofNat 4 (eBits e 8 9 8), wh,
      k.launch.toNat, k.deadline.toNat, (w.installAll cert.res).2, cert.formula, sha256 bs, none, none⟩).complete p 0 0 0 0) := by
  have hgood : (cert.formula == sha256 img && (some wh).isSome && formulaOk fh 0x4E5A4D31 cert.toolver) = true := by rw [hf, hd]; simp
  show execSafeMonLoad p true s = _
  rw [execSafeMonLoad, State.command_accepts ha]
  simp only [hch, hbs, hfh, himg, hc, hk, hw, hgood, hup, Option.getD_some, h0]
  rfl

theorem execSafeMonUnload_unloads (ha : s.accepts p 0x31 [] [(8, 3, 0)] true e) (hm : s.mon (Fin.ofNat 16 (eBits e 8 3 0)) = some x)
    (hn : s.namedBy (Fin.ofNat 16 (eBits e 8 3 0)) = []) (hu : u = x.shares.foldl (fun (s : State) r => s.removeRes r) s) :
    exec (.safeMonUnload p) s =
      .next (State.complete { u with chk := { u.chk with mons := u.chk.mons.erase (Fin.ofNat 16 (eBits e 8 3 0)) } } p 0 0 0 0) := by
  subst hu
  show execSafeMonUnload p s = _
  rw [execSafeMonUnload, State.command_accepts ha]
  simp only [hm]
  exact congrArg Host.Outcome.next (if_neg (not_not.mpr hn))

/-- A monitor starts once in a frame, in its span, while its slice runs no other (R403). -/
theorem execMonitorLaunch_starts {t : List (Fin 16 × Pairing)} (hm : s.mon m = some x) (hn : s.namedBy m = (i, y) :: t) (hup : s.up 100 = true)
    (hg : (s.wheel x.wheel).going = true) (hb : (s.wheel x.wheel).begun = true) (hr : x.running = none)
    (hf : ∀ r, x.final = some r → r.1 ≠ (s.wheel x.wheel).frame) (hl : x.launch ≤ (s.wheel x.wheel).phase.toNat)
    (hd : (s.wheel x.wheel).phase.toNat < x.deadline) (hs : s.chk.mons.any (fun e => e.2.slice == x.slice && e.2.running.isSome) = false) :
    exec (.monitorLaunch m) s = .next (match s.unitRead (chkSrc 7) y.marg 256 with
      | (s', none) => s'.setMon m { x with final := some ((s.wheel x.wheel).frame, false, false) }
      | (s', some _) => s'.setMon m { x with running := some (s.wheel x.wheel).frame }) := by
  have hnew : (x.final.map (fun f => f.1 == (s.wheel x.wheel).frame)).getD false = false := by
    cases hx : x.final with
    | none => rfl
    | some r => simpa using hf r hx
  show execMonitorLaunch m s = _
  unfold execMonitorLaunch
  simp only [hm, hn, List.head?_cons]
  refine congrArg Host.Outcome.next ((if_neg ?_).trans rfl)
  simp [hup, hg, hb, hr, hnew, hl, hd, hs]

theorem execMonitorComplete_clean {writes : List (Addr × List Byte)} (hm : s.mon m = some x) (hr : x.running = some f) :
    exec (.monitorComplete m writes 0) s = .next ((writes.foldl (fun (s : State) e => s.unitWrite (chkSrc 6) e.1.toNat e.2) s).setMon m { x with
      running := none, final := some (f, true, false) }) := by
  show execMonitorComplete m writes 0 s = _
  simp only [execMonitorComplete, hm, hr]
  rfl

theorem execMonitorComplete_corrected {writes : List (Addr × List Byte)} (hm : s.mon m = some x) (hr : x.running = some f) :
    exec (.monitorComplete m writes 1) s = .next ((writes.foldl (fun (s : State) e => s.unitWrite (chkSrc 6) e.1.toNat e.2)
      (s.chkRaise 1 x.slice ((((s.namedBy m).head?).map (·.1)).getD 0))).setMon m { x with running := none, final := some (f, true, false) }) := by
  show execMonitorComplete m writes 1 s = _
  simp only [execMonitorComplete, hm, hr]
  rfl

theorem execMonitorComplete_uncorrectable {writes : List (Addr × List Byte)} (hm : s.mon m = some x) (hr : x.running = some f) :
    exec (.monitorComplete m writes 2) s = .next ((s.chkRaise 2 x.slice ((((s.namedBy m).head?).map (·.1)).getD 0)).setMon m { x with
      running := none, final := some (f, false, true) }) := by
  show execMonitorComplete m writes 2 s = _
  simp only [execMonitorComplete, hm, hr]
  rfl

theorem execMonitorDeadline_misses (hm : s.mon m = some x) (hr : x.running = some f) (hp : (s.wheel x.wheel).passed f x.deadline = true)
    (hu : u = s.setMon m { x with running := none, final := some (f, false, false) }) :
    exec (.monitorDeadline m) s = .next ((u.namedBy m).foldl (fun (s : State) e => s.chkRaise 5 x.slice e.1) u) := by
  subst hu
  show execMonitorDeadline m s = _
  simp only [execMonitorDeadline, hm, hr]
  exact congrArg Host.Outcome.next (if_neg (by simp [hp]))

/-! ### Pairings (R405, R406, R413) -/

theorem execSafePair_pairs {g : Prog} {q : Kind} {r : Monitor} (ha : s.accepts p 0x32 [] [(8, 47, 0)] true e)
    (hb : s.fwRead (p.val == 1) (eAddr e 8) 64 = (u, some bs)) (hp : parsePairing bs = some (i, y))
    (hg : u.fwRead (p.val == 1) y.prog 320 = (v, some pb)) (hpt : v.part y.part = some pt) (hm : v.mayUse p pt.ctx = true)
    (hok : v.pairingOk i y = some (pt, q, r)) (hpr : parseProg pb = some g) :
    exec (.safePair p) s = .next ((v.setPairing i { y with
      firstFrame := if (v.wheel pt.wheel).begun then (v.wheel pt.wheel).frame + 1 else 0, lasting := pt.failed }).complete p 0 0 0 0) := by
  show execSafePair p s = _
  rw [execSafePair, State.command_accepts ha]
  simp only [hb, hp, hg, hpt, hok, hpr, Option.map_some, Option.getD_some, hm]
  rfl

section Unpair
variable (ha : s.accepts p 0x33 [] [(8, 3, 0)] true e) (hi : i = Fin.ofNat 16 (eBits e 8 3 0)) (hy : s.pairing i = some y)
  (hact : y.active = true) (hby : y.by_ = none)
include ha hi hy hact hby

theorem execSafeUnpair_done (hp : y.pend = []) :
    exec (.safeUnpair p) s = .next (State.complete { s with chk := { s.chk with pairs := s.chk.pairs.erase i } } p 0 0 0 0) := by
  subst hi
  show execSafeUnpair p s = _
  rw [execSafeUnpair, State.command_accepts ha]
  simp only [hy, hact, hby, hp]
  rfl

/-- While an entry is still to be written the command waits, and the pairing is no longer active. -/
theorem execSafeUnpair_waits (hp : y.pend ≠ []) : exec (.safeUnpair p) s = .next (s.setPairing i { y with active := false, by_ := some p }) := by
  have hne : y.pend.isEmpty = false := by simpa using hp
  subst hi
  show execSafeUnpair p s = _
  rw [execSafeUnpair, State.command_accepts ha]
  simp only [hy, hact, hby, hne]
  rfl

end Unpair

/-! ### Comparisons (R410 to R415) -/

theorem execComparisonStart_compares {vd r : Nat} {cn : Counts} (hy : s.pairing i = some y) (hpt : s.part y.part = some pt)
    (hact : y.active = true) (hup : s.up 100 = true) (hdue : s.compareDue y pt y.next = true)
    (hcmp : s.compareFrame i y y.next = (u, vd, r, cn)) (hsl : sl = ((u.mon y.mon).map (·.slice)).getD 0)
    (hv : v = (if vd = 1 then u.count .chk 0 (Reg.CHK_AGREEi i) 1
      else if vd = 2 then (u.count .chk 0 (Reg.CHK_DISAGi i) 1).chkRaise 3 sl i
      else (u.count .chk 0 (Reg.CHK_INDETi i) 1).chkRaise 4 sl i)) :
    exec (.comparisonStart i) s = .next (v.setPairing i { y with
      compared := some y.next, pend := y.pend ++ [⟨y.next, vd, r, cn.up, cn.um, cn.cm, cn.bv, cn.matched, v.now32,
        (s.primaryOut y y.next).code, v.accordOk pt, v.partDebug pt⟩] }) := by
  subst hv hsl
  show execComparisonStart i s = _
  simp only [execComparisonStart, hy, hpt, hact, hup, hdue, hcmp]
  rfl

theorem execVerdictWrite_writes {vd : Verdict} {t : List Verdict} (hy : s.pairing i = some y) (hp : y.pend = vd :: t) (hact : y.active = true)
    (h3 : s.fpRuns 3 = true)
    (hu : u = (s.fwWrite false (y.vtab + vd.frame.toNat % 64 * 32) (vd.bytes (y.lasting || ((s.part y.part).map (·.failed)).getD false))).1) :
    exec (.verdictWrite i) s = .next ((u.trace 3 0x0402 [y.part, vd.frame.toNat, vd.verdict]).setPairing i { y with pend := t }) := by
  subst hu
  show execVerdictWrite i s = _
  simp only [execVerdictWrite, hy, hp, hact, h3]
  rfl

theorem execAccordSignatureCheck_checks {r : Nat} {good : Bool} (hd : s.chk.due.get? c = some r) (h3 : s.fpRuns 3 = true)
    (hg : good = (s.reg .cad c.cl.inst (Reg.CAD_ACCSIGk c.k) == accordExpect r))
    (hu : u = { s with chk := { s.chk with due := s.chk.due.erase c, accord := s.chk.accord.set c (good, s.chk.begun.get c 0) } }) :
    exec (.accordSignatureCheck c) s = .next (if good then u else u.accmis c) := by
  subst hu hg
  show execAccordSignatureCheck c s = _
  simp only [execAccordSignatureCheck, hd, h3]
  rfl

/-! ### Self-test, retest and status (R423 to R427) -/

theorem execComparatorSelfTest_due (h3 : s.fpRuns 3 = true) (hup : s.up 100 = true) (ht : s.chk.selfTest + 1000000000 ≤ s.now) (pass : Bool) :
    execComparatorSelfTest pass s = .next (if pass then { s with chk := { s.chk with selfTest := s.now } }
      else State.chkRaise { s with chk := { s.chk with selfTest := s.now } } 6 0 0) :=
  congrArg Host.Outcome.next (if_neg (by simp [h3, hup, ht]))

theorem execSafeRetest_tests (ha : s.accepts p 0x34 [] [(8, 6, 0)] true e) (hd : eBits e 8 6 0 < 116)
    (hl : [84, 85, 89, 90].contains (eBits e 8 6 0) = false) (hr : s.pkg = pkREADY) (hup : s.up (eBits e 8 6 0) = true)
    (hi : s.retestInUse (eBits e 8 6 0) = false) (silent : Option (Fin 11 × Nat)) :
    execSafeRetest p silent s = .next (match silent with
      | none => (s.blotter (eBits e 8 6 0) (silent.map (fun x => (x.1.val, x.2)))).ok p
      | some _ => (((s.blotter (eBits e 8 6 0) (silent.map (fun x => (x.1.val, x.2)))).raise .pwr 0 1 0 0).powerOff (eBits e 8 6 0)).ok p) := by
  rw [execSafeRetest, State.command_accepts ha]
  refine congrArg Host.Outcome.next ((if_neg (Nat.not_le.mpr hd)).trans ((if_neg (Bool.eq_false_iff.mp hl)).trans
    ((if_neg (by simp [hr, hup])).trans ((if_neg (Bool.eq_false_iff.mp hi)).trans rfl))))

theorem execSafeStatus_copies (ha : s.accepts p 0x35 [] [(0x10, 47, 0)] true e) :
    exec (.safeStatus p) s = .next (s.copyBuf p (eAddr e 0x10) ((([s.chkStat, (s.reg .chk 0 Reg.CHK_ERRSTAT).toNat] ++
      ((List.finRange 16).flatMap (fun i => [s.chkPair i, (s.reg .chk 0 (Reg.CHK_AGREEi i)).toNat, (s.reg .chk 0 (Reg.CHK_DISAGi i)).toNat,
        (s.reg .chk 0 (Reg.CHK_INDETi i)).toNat])) ++ (List.finRange 8).map s.lksStat ++ [(s.reg .blt 0 Reg.BLT_STAT).toNat]).flatMap
          (leBytes 4)).take 256) 0 0) :=
  congrArg Host.Outcome.next (State.command_accepts ha _)

end CheckerEngine

/-- Settles O47: each clause is the completion of one command, stated above for it; what a comparison answers before any list is read follows
the order in which R411 asks. -/
theorem safetyCommandsComplete : Obligations.SafetyCommandsComplete := by
  unfold Obligations.SafetyCommandsComplete
  refine ⟨fun p e m i sl wh x y pt k c cert bs pb s t0 u v w f => ⟨?load, ?unload, ?launch, ?complete, ?pair, ?unpair, ?compare, ?verdict,
    ?accord, ?selfTest, ?retest, execSafeStatus_copies⟩, fun s i y f => ⟨fun hl => ?lasting, fun hl ho => ?primary, fun hl ho hm => ?monitor⟩⟩
  case load =>
    rintro ch fh img res ha rfl rfl hch hbs hfh himg hc hk hup hw hd hf h0 rfl
    exact execSafeMonLoad_loads ha hch hbs hfh himg hc hk hup hw hd hf h0
  case unload =>
    rintro ha rfl hm hn hu
    exact execSafeMonUnload_unloads ha hm hn hu
  case launch =>
    intro t hm hn hup hg hb hr hf hl hd hs
    rw [execMonitorLaunch_starts hm hn hup hg hb hr hf hl hd hs]
    exact ⟨fun h => by rw [h], fun h => by rw [h]⟩
  case complete =>
    intro writes hm hr
    refine ⟨execMonitorComplete_clean hm hr, ?_, execMonitorDeadline_misses hm hr⟩
    rintro rfl
    exact ⟨execMonitorComplete_corrected hm hr, execMonitorComplete_uncorrectable hm hr⟩
  case pair => exact fun _ _ _ => execSafePair_pairs
  case unpair => exact fun ha hi hy hact hby => ⟨execSafeUnpair_done ha hi hy hact hby, execSafeUnpair_waits ha hi hy hact hby⟩
  case compare => exact fun _ _ _ => execComparisonStart_compares
  case verdict => exact fun _ _ => execVerdictWrite_writes
  case accord => exact fun _ _ => execAccordSignatureCheck_checks
  case selfTest =>
    rintro h3 hup ht rfl
    exact ⟨execComparatorSelfTest_due h3 hup ht true, execComparatorSelfTest_due h3 hup ht false⟩
  case retest =>
    rintro d ha rfl hd hl hr hup hi
    exact ⟨execSafeRetest_tests ha hd hl hr hup hi none, fun z => execSafeRetest_tests ha hd hl hr hup hi (some z)⟩
  case lasting => exact if_pos hl
  case primary => exact (if_neg (by simp [hl])).trans (if_pos ho)
  case monitor =>
    refine (if_neg (by simp [hl])).trans ((if_neg (by simp [ho])).trans ((if_neg ?_).trans (if_pos ?_))) <;> simp [hm]

end Sys2Proof.Machine
end

section
/-! PROOFS. Completion of the commands of fault collection (O48). -/

namespace Sys2Proof.Machine

section FaultCollection
variable {b : Blk} {i n m : Nat} {src : Src} {v : Word} {p : Fin 64} {e : BitVec 512} {c : CoreId} {ch d cls : Fin 8} {q : Fin 7} {pid : Fin 32}
  {pt : Part} {s u : State} {x : BitVec 64}

/-! ### Service (R433 to R439) -/

section Service
variable (h7 : s.fpRuns 7 = true)
include h7

theorem execFaultService_block (hb : s.inten b i &&& s.errBits b i ≠ 0) :
    exec (.faultService (.block b i)) s = .next (s.serviceBits b i 0xFFFFFFFF) :=
  congrArg Host.Outcome.next ((if_neg (by simp [h7])).trans (if_neg hb))

theorem execFaultService_ignored {j : Nat} {t : List (Blk × Nat)} (hq : s.flt.ignWr = (b, j) :: t)
    (hu : u = { s with flt := { s.flt with ignWr := t } }) :
    exec (.faultService .ignored) s = .next ((u.fwPulse 7 false).faultRecord ⟨b, j, 25, 0, .report, 0, 0, u.sourceCtx b j .report, 0, 0, 0⟩) := by
  subst hu
  refine congrArg Host.Outcome.next ((if_neg (by simp [h7])).trans ?_)
  simp only [hq]

theorem execFaultService_cond {k : FwCond} {t : List FwCond} (hq : s.flt.conds = k :: t) (hu : u = { s with flt := { s.flt with conds := t } }) :
    exec (.faultService .cond) s =
      .next (u.faultRecord ⟨k.blk, k.inst, k.cond, 0, u.scopeOf k.blk k.inst k.cond none, 0, 0, k.ctx, k.addr, 0, 0⟩) := by
  subst hu
  refine congrArg Host.Outcome.next ((if_neg (by simp [h7])).trans ?_)
  simp only [hq]

theorem execFaultSweep_sweeps : exec .faultSweep s = .next ((List.finRange 8).foldl (fun (s : State) (d : Fin 8) =>
    if (s.fab.pwlog.get d []).isEmpty && s.fld .fab d Reg.FAB_PWLOGCNT 31 31 == 0 then s else s.drainLog d)
    (s.faulty.foldl (fun (s : State) (x : Blk × Nat) => s.serviceBits x.1 x.2 (~~~(s.inten x.1 x.2))) s)) :=
  congrArg Host.Outcome.next (if_neg (by simp [h7]))

end Service

theorem execWindowEvent_counts {a : Ev} {t : List Ev} (hq : s.flt.events = a :: t) (h3 : s.fpRuns 3 = true) :
    exec .windowEvent s = .next (State.countEvent { s with flt := { s.flt with events := t } } a) := by
  show execWindowEvent s = _
  simp only [execWindowEvent, hq]
  exact congrArg Host.Outcome.next (if_pos h3)

/-! ### Pins (R440 to R443, R463) -/

theorem execPinPulseEnd_err (hx : s.flt.errPulse = some x) (ht : x.toNat + 10000 ≤ s.now) :
    exec (.pinPulseEnd true) s = .next { s with flt := { s.flt with errPulse := none } } := by
  show execPinPulseEnd true s = _
  simp only [execPinPulseEnd, if_true, hx]
  exact congrArg Host.Outcome.next (if_neg (Nat.not_lt.mpr ht))

theorem execPinPulseEnd_warn (hx : s.flt.warnPulse = some x) (ht : x.toNat + 10000 ≤ s.now) :
    exec (.pinPulseEnd false) s = .next { s with flt := { s.flt with warnPulse := none } } := by
  show execPinPulseEnd false s = _
  simp only [execPinPulseEnd, Bool.false_eq_true, if_false, hx]
  exact congrArg Host.Outcome.next (if_neg (Nat.not_lt.mpr ht))

section Pulse
variable (hr : s.reaches src (vehRegs 0x1700000 + Reg.FLT_PULSE) = true)
include hr

theorem execFltPulse_firmware (hf : src.fw = true) : exec (.fltPulse src v) s =
    .next (if bitOf v 0 then (if bitOf v 1 then s.pulse true else s).pulse false else if bitOf v 1 then s.pulse true else s) :=
  congrArg Host.Outcome.next ((State.regCommand_reaches hr _ _ _).trans (if_neg (by simp [hf])))

theorem execFltPulse_others (hf : src.fw = false) (hv : v &&& 3 ≠ 0) : exec (.fltPulse src v) s = .next (s.ignoredWrite .flt 0) :=
  congrArg Host.Outcome.next ((State.regCommand_reaches hr _ _ _).trans ((if_pos (by simp [hf])).trans (if_neg hv)))

end Pulse

theorem execFltPin_refused (ha : s.accepts p 0x3A [] [(8, 1, 0), (8, 10, 8)] true e) (h1 : eBits e 8 1 1 = 1) (hf : s.pkg = pkFAILED) :
    exec (.fltPin p) s = .next (s.complete p 3 1 0 0) :=
  congrArg Host.Outcome.next ((State.command_accepts ha _).trans ((if_pos ⟨h1, hf⟩).trans rfl))

/-- Each pin that the command selects is held as it says, and held automatically as it says when it says so. -/
theorem execFltPin_sets (ha : s.accepts p 0x3A [] [(8, 1, 0), (8, 10, 8)] true e) (hf : eBits e 8 1 1 = 0 ∨ s.pkg ≠ pkFAILED) :
    exec (.fltPin p) s = .next (([0, 1].foldl (fun (s : State) b =>
      if eBits e 8 b b = 0 then s
      else if eBits e 8 9 9 = 1 then (s.setFld .flt 0 Reg.FLT_PINHOLD b b (eBits e 8 8 8)).setFld .flt 0 Reg.FLT_PINAUTO b b (eBits e 8 10 10)
      else s.setFld .flt 0 Reg.FLT_PINHOLD b b (eBits e 8 8 8)) s).complete p 0 0 0 0) := by
  refine congrArg Host.Outcome.next ((State.command_accepts ha _).trans ((if_neg ?_).trans rfl))
  rintro ⟨h1, hfail⟩
  obtain h0 | hne := hf
  · omega
  · exact hne hfail

/-! ### Leases (R452 to R457) -/

section Leases
variable (hmc : s.fw.mcRunning = true)
include hmc

theorem execLeaseExpire_lock {a t : Nat} {l : Nat} (hl : s.flt.locks.find? (fun l => l.1 == a) = some (l, c, t)) (ht : t + 100000 ≤ s.now)
    (hj : s.sched.jobs.any (fun j => j.stopping && j.running.contains c) = false) :
    exec (.leaseExpire (.lock a)) s = .next (s.holderFaulted c) := by
  show execLeaseExpire (.lock a) s = _
  simp only [execLeaseExpire, hl]
  exact congrArg Host.Outcome.next (if_neg (by rw [hmc, hj]; simp [ht]))

theorem execLeaseExpire_chan {l t : Nat} (hl : s.flt.chanLease.get? (c, ch) = some (l, t)) (ht : t + 100000 ≤ s.now)
    (hst : (Chan.get (s.core c) ch).st = .active) (hr : s.fab.tx.any (fun x => x.isRead && x.src.core == some c && x.chan.val == ch.val) = false)
    (hj : s.sched.jobs.any (fun j => j.stopping && j.running.contains c) = false) :
    exec (.leaseExpire (.chan c ch)) s = .next (s.holderFaulted c) := by
  show execLeaseExpire (.chan c ch) s = _
  simp only [execLeaseExpire, hl]
  exact congrArg Host.Outcome.next (if_neg (by rw [hmc, hst, hr, hj]; simp [ht]))

theorem execLeaseExpire_credit {y : Credit}
    (hy : s.fab.credits.find? (fun x => x.die == d && x.port == q && x.cls == cls && decide (x.since + 100000 ≤ s.now)) = some y) :
    exec (.leaseExpire (.credit d q cls)) s = .next (s.creditExpired d q y) := by
  show execLeaseExpire (.credit d q cls) s = _
  simp only [execLeaseExpire, hy]
  exact congrArg Host.Outcome.next (if_pos hmc)

end Leases

/-! ### Fault commands (R445, R458 to R461, R644) -/

theorem execFltRead_copies {first next start : Word} (ha : s.accepts p 0x38 [7] [(8, 31, 0), (0xC, 6, 0), (0x10, 47, 0)] true e)
    (hn : n = eBits e 0xC 6 0) (h0 : 0 < n) (h64 : n ≤ 64) (hfirst : first = eWord e 8) (hnext : next = s.reg .flt 0 Reg.FLT_LOGNEXT)
    (hstart : start = (if 65536 < (next - first).toNat then next - 65536 else first)) (hm : m = Nat.min n (next - start).toNat) :
    exec (.fltRead p) s = .next (s.copyBuf p (eAddr e 0x10)
      ((List.range m).flatMap (fun i => s.load (s.fixed.fltBase + (start.toNat + i) % 65536 * 32) 32)) m next.toNat) := by
  subst hm hstart hnext hfirst hn
  exact congrArg Host.Outcome.next ((State.command_accepts ha _).trans (if_neg (by omega)))

section Window
variable (ha : s.accepts p 0x39 [3] [(8, 5, 0), (8, 8, 8), (0xC, 31, 0), (0x10, 31, 0), (0x14, 3, 0), (0x18, 31, 0)] true e)
include ha

theorem execFltWindow_removes (h0 : eBits e 8 8 8 = 0) : exec (.fltWindow p) s = .next (State.complete { s with
    flt := { s.flt with rules := s.flt.rules.erase (Fin.ofNat 64 (eBits e 8 5 0)) } } p 0 0 0 0) :=
  congrArg Host.Outcome.next ((State.command_accepts ha _).trans ((if_pos h0).trans rfl))

theorem execFltWindow_sets (h1 : eBits e 8 8 8 = 1) (hn : n = eBits e 0x14 3 0) (hm : m = eBits e 0x18 31 0) (hn0 : 0 < n) (hm0 : 0 < m)
    (hm1 : m ≤ 60000) : exec (.fltWindow p) s = .next (State.complete { s with
      flt := { s.flt with rules := s.flt.rules.set (Fin.ofNat 64 (eBits e 8 5 0)) ⟨eWord e 0xC, eWord e 0x10, n, m⟩ } } p 0 0 0 0) := by
  subst hn hm
  exact congrArg Host.Outcome.next ((State.command_accepts ha _).trans ((if_neg (by omega)).trans ((if_neg (by omega)).trans rfl)))

end Window

section PartReset
variable (ha : s.accepts p 0x3B [] [(8, 4, 0)] true e) (hid : pid = Fin.ofNat 32 (eBits e 8 4 0)) (hpt : s.livePart pid = some pt)
  (hu : s.mayUse p pt.ctx = true) (hd : s.flt.drains.get? pid = none)
include ha hid hpt hu hd

theorem execFltPartreset_begins (hf : pt.failed = false) : exec (.fltPartreset p) s = .next (s.beginReset pid pt p) := by
  subst hid
  show execFltPartreset p s = _
  rw [execFltPartreset, State.command_accepts ha]
  simp only [hpt, hu, hd, hf]
  rfl

/-- A partition with a lasting fault is not loaded again (R460). -/
theorem execFltPartreset_failed (hf : pt.failed = true) : exec (.fltPartreset p) s = .next (s.complete p 3 0x20 0 0) := by
  subst hid
  show execFltPartreset p s = _
  rw [execFltPartreset, State.command_accepts ha]
  simp only [hpt, hu, hd, hf]
  rfl

end PartReset

theorem execPartresetDrainEnd_ends {y : Fin 64} {t : Nat} (hd : s.flt.drains.get? pid = some (y, t)) (hpt : s.part pid = some pt)
    (hq : s.partQuiet pid = true) (hp : s.partPosted pt = [] ∨ t + 100000 ≤ s.now) :
    exec (.partresetDrainEnd pid) s =
      .next ((State.endReset { s with flt := { s.flt with drains := s.flt.drains.erase pid } } pid pt).complete y 0 0 0 0) := by
  show execPartresetDrainEnd pid s = _
  simp only [execPartresetDrainEnd, hd, hpt]
  refine congrArg Host.Outcome.next ((if_neg ?_).trans rfl)
  obtain h | h := hp <;> simp [hq, h]

theorem execFltLeases_copies {bs : List Byte} (ha : s.accepts p 0x3C [] [(8, 2, 0), (0x10, 47, 0)] true e)
    (hb : bs = ((s.leaseList (Fin.ofNat 8 (eBits e 8 2 0))).take 64).flatten) :
    exec (.fltLeases p) s =
      .next (State.copyBuf { s with freeCtr := s.freeCtr + 1 } p (eAddr e 0x10) (bs ++ leBytes (1024 - bs.length) 0) 0 0) := by
  subst hb
  exact congrArg Host.Outcome.next (State.command_accepts ha _)

theorem execFltPwsticky_clears {off : Nat} {old : Word} (ha : s.accepts p 0x3E [] [(8, 2, 0), (8, 12, 8), (0xC, 31, 0)] true e)
    (hd : d = Fin.ofNat 8 (eBits e 8 2 0)) (ho : off = Reg.FAB_PWSTICKYw (eBits e 8 12 8)) (hup : s.up (domFab d) = true)
    (hf : (regFields ⟨.fab, d, off⟩).isSome = true) (hold : old = s.reg .fab d off) :
    exec (.fltPwsticky p) s = .next ((s.setReg .fab d off (old &&& ~~~(eWord e 0xC))).complete p 0 0 old.toNat 0) := by
  subst hold ho hd
  refine congrArg Host.Outcome.next ((State.command_accepts ha _).trans ((if_neg (by rw [hup]; decide)).trans ((if_neg ?_).trans rfl)))
  rw [← Option.not_isSome, hf]
  decide

end FaultCollection

/-- Settles O48: each clause is the completion of one command, stated above for it. -/
theorem faultCommandsComplete : Obligations.FaultCommandsComplete := by
  unfold Obligations.FaultCommandsComplete
  exact fun b i src v p e c ch d q cls pid pt s u n m x => ⟨fun h7 => ⟨execFaultService_block h7, fun _ _ => execFaultService_ignored h7,
      fun _ _ => execFaultService_cond h7, execFaultSweep_sweeps h7⟩, fun _ _ => execWindowEvent_counts, execPinPulseEnd_err,
    execPinPulseEnd_warn, fun hf hr => execFltPulse_firmware hr hf, fun hf hr => execFltPulse_others hr hf,
    fun hmc => ⟨fun _ _ _ => execLeaseExpire_lock hmc, fun _ _ => execLeaseExpire_chan hmc, fun _ => execLeaseExpire_credit hmc⟩,
    fun _ _ _ => execFltRead_copies, fun ha => ⟨execFltWindow_removes ha, execFltWindow_sets ha⟩,
    fun ha => ⟨execFltPin_refused ha, execFltPin_sets ha⟩,
    fun ha hid hpt hu hd => ⟨execFltPartreset_begins ha hid hpt hu hd, execFltPartreset_failed ha hid hpt hu hd⟩,
    fun _ _ => execPartresetDrainEnd_ends, fun _ => execFltLeases_copies, fun ha => congrArg Host.Outcome.next (State.command_accepts ha _),
    fun _ _ => execFltPwsticky_clears⟩

end Sys2Proof.Machine
end

section
/-! PROOFS. Completion of the security commands (O50). -/

namespace Sys2Proof.Machine

/-- A context that the pair may name lets its command go on (R492, R641). -/
theorem State.withSecCtx_accepts {s : State} {p : Fin 64} {ctx : BitVec 12} (hc : s.secCtx ctx = true) (hm : s.mayUse p ctx = true)
    (k : State → State) : s.withSecCtx p ctx k = k s :=
  (if_neg (by simp [hc])).trans (if_neg (by simp [hm]))

section Security
variable {p : Fin 64} {e : BitVec 512} {ctx : BitVec 12} {sl : Fin 64} {n : Fin 256} {d : Fin 8} {a b c : Nat} {bs gk : List Byte} {g : Word}
  {r : Removal} {keyErr : Bool} {s u v w : State}

/-! ### Contexts (R465, R472, R482) -/

section Create
variable (ha : s.accepts p 0x40 [4] [(8, 11, 0), (8, 21, 16), (8, 24, 24)] true e) (hc : ctx = eCtx e) (hsl : sl = Fin.ofNat 64 (eBits e 8 21 16))
  (h0 : ctx ≠ 0) (hnew : s.sec.ctxs.get? ctx = none) (hs : sl ≠ 0 → ∃ y, s.sec.slices.get? sl = some y ∧ y.world = (p.val == 1))
  (hl : (s.ctxsOf sl).length < s.sliceLimit sl 4095 (·.ctxs))
include ha hc hsl h0 hnew hs hl

/-- What CTX_CREATE does when the limits of the slice hold: it takes a key slot of its own when it asks for one. -/
theorem execCtxCreate_accepted (hslots : eBits e 8 24 24 = 1 → s.slotsOf sl < s.sliceLimit sl 255 (·.slots)) {o : Fin 256}
    (ho : (if eBits e 8 24 24 == 1 then s.freeSlot else some 0) = some o) :
    exec (.ctxCreate p) s = .next (
      let s' := State.setAcct { s with sec := { s.sec with ctxs := s.sec.ctxs.set ctx ⟨p.val == 1, sl, o, false, false, 0⟩ } } ctx (fun _ => Acct.zero)
      (if eBits e 8 24 24 == 1 then (s'.setSlot o (some ⟨1, ctx⟩)).drawKey o else s').ok p) := by
  have hfresh : ¬(ctx = 0 ∨ (s.sec.ctxs.get? ctx).isSome = true) := by
    rw [hnew]
    rintro (hz | hold)
    · exact h0 hz
    · cases hold
  have hslice : ¬(sl ≠ 0 ∧ (s.sec.slices.get? sl).isNone = true) := by
    rintro ⟨hne, hnone⟩
    obtain ⟨y, hy, -⟩ := hs hne
    simp [hy] at hnone
  have hfull : ¬(s.sliceLimit sl 4095 (·.ctxs) ≤ (s.ctxsOf sl).length ∨
      (eBits e 8 24 24 == 1) = true ∧ s.sliceLimit sl 255 (·.slots) ≤ s.slotsOf sl) := by
    rintro (hle | ⟨henc, hle⟩)
    · omega
    · have := hslots (by simpa using henc)
      omega
  have hworld : ¬(sl ≠ 0 ∧ ((s.sec.slices.get? sl).map (fun y => y.world != (p.val == 1))).getD false = true) := by
    rintro ⟨hne, hother⟩
    obtain ⟨y, hy, hw⟩ := hs hne
    simp [hy, hw] at hother
  subst hc hsl
  show execCtxCreate p s = _
  rw [execCtxCreate, State.command_accepts ha]
  refine congrArg Host.Outcome.next ((if_neg hfresh).trans ((if_neg hslice).trans ((if_neg hfull).trans ?_)))
  simp only [ho]
  exact if_neg hworld

theorem execCtxCreate_plain (h24 : eBits e 8 24 24 = 0) : exec (.ctxCreate p) s = .next ((State.setAcct { s with
    sec := { s.sec with ctxs := s.sec.ctxs.set ctx ⟨p.val == 1, sl, 0, false, false, 0⟩ } } ctx (fun _ => Acct.zero)).complete p 0 0 0 0) := by
  rw [execCtxCreate_accepted ha hc hsl h0 hnew hs hl (by omega) (if_neg (by simp [h24]))]
  exact congrArg (fun t : State => Host.Outcome.next (t.ok p)) (if_neg (by simp [h24]))

theorem execCtxCreate_encrypted (h24 : eBits e 8 24 24 = 1) (hk : s.slotsOf sl < s.sliceLimit sl 255 (·.slots)) (hf : s.freeSlot = some n) :
    exec (.ctxCreate p) s = .next ((((State.setAcct { s with
      sec := { s.sec with ctxs := s.sec.ctxs.set ctx ⟨p.val == 1, sl, n, false, false, 0⟩ } } ctx (fun _ => Acct.zero)).setSlot n
        (some ⟨1, ctx⟩)).drawKey n).complete p 0 0 0 0) := by
  rw [execCtxCreate_accepted ha hc hsl h0 hnew hs hl (fun _ => hk) ((if_pos (by simp [h24])).trans hf)]
  exact congrArg (fun t : State => Host.Outcome.next (t.ok p)) (if_pos (by simp [h24]))

end Create

/-! ### Removal (R483, R484) -/

theorem execCtxDestroy_fences (ha : s.accepts p 0x41 [1, 4] [(8, 11, 0)] true e) (hc : ctx = eCtx e) (hs : s.secCtx ctx = true)
    (hm : s.mayUse p ctx = true) (hr : s.sec.removals.any (fun r => r.ctx == ctx && r.pair == p && r.cmdid == eCmd e) = false)
    (hu : u = s.fenceCtx ctx) :
    exec (.ctxDestroy p) s = .next { u with sec := { u.sec with removals := u.sec.removals ++ [⟨ctx, p, eCmd e, u.now, false⟩] } } := by
  subst hu hc
  exact congrArg Host.Outcome.next ((State.command_accepts ha _).trans ((if_neg (Bool.eq_false_iff.mp hr)).trans
    (State.withSecCtx_accepts hs hm _)))

section Removals
variable (hr : s.removalOf ctx = some r) (h4 : s.fpRuns 4 = true)
include hr h4

theorem execCtxDestroyDrainEnd_advances (ha : r.advanced = false) (ht : s.ctxTx ctx = [] ∨ r.since + 50000 ≤ s.now)
    (hu : u = (if keyErr then (s.advanceGen ctx).raise .sec 0 3 0 0 else s.advanceGen ctx)) :
    exec (.ctxDestroyDrainEnd ctx keyErr) s = .next { u with
      sec := { u.sec with removals := u.sec.removals.map (fun (x : Removal) => if x.ctx = ctx then { x with advanced := true } else x) } } := by
  subst hu
  show execCtxDestroyDrainEnd ctx keyErr s = _
  simp only [execCtxDestroyDrainEnd, hr]
  refine congrArg Host.Outcome.next (if_neg ?_)
  obtain h | h := ht <;> simp [ha, h4, h]

theorem execCtxDestroyRelease_releases {x : Ctx} (ha : r.advanced = true) (hx : s.sec.ctxs.get? ctx = some x) (hn : x.slot = n)
    (hu : u = (if n.val = 0 then s else { s.setSlot n none with sec := { (s.setSlot n none).sec with memKey := s.sec.memKey.erase n } })) :
    exec (.ctxDestroyRelease ctx) s = .next (State.complete { u with
      sec := { u.sec with
        ctxs := u.sec.ctxs.erase ctx, regions := u.sec.regions.filter (fun y => y.ctx != ctx), dirty := u.sec.dirty.erase ctx,
        wpkgs := u.sec.wpkgs.filter (fun w => w.ctx != ctx), removals := u.sec.removals.filter (fun y => y.ctx != ctx) }
      sched := { u.sched with acct := u.sched.acct.erase ctx } } r.pair 0 0 x.discards 0) := by
  subst hu hn
  show execCtxDestroyRelease ctx s = _
  simp only [execCtxDestroyRelease, hr, hx]
  exact congrArg Host.Outcome.next (if_neg (by simp [ha, h4]))

end Removals

/-! ### Regions (R468, R482) -/

section Map
variable (ha : s.accepts p 0x42 [] [(8, 11, 0), (8, 18, 16), (0x10, 63, 0), (0x18, 63, 0)] true e) (hc : ctx = eCtx e)
  (hd : d = Fin.ofNat 8 (eBits e 8 18 16)) (hbase : eAddr e 0x10 = a * unit2M) (hsize : eAddr e 0x18 = b * unit2M) (hb : 0 < b)
  (hin : a * unit2M + b * unit2M ≤ s.dramBytes d) (hs : s.secCtx ctx = true) (hm : s.mayUse p ctx = true)
  (hlim : c = s.sliceLimit (s.sliceOfCtx ctx) (s.dramUnits d) (fun x => x.dram.get d 0))
include ha hc hd hbase hsize hb hin hs hm hlim

/-- MEM_MAP of whole units inside the die's DRAM, in units. -/
theorem execMemMap_units : exec (.memMap p) s = .next (
    if c < s.unitsOf (s.sliceOfCtx ctx) d + b then s.refuse p 2
    else if 256 ≤ (s.allRegions.filter (fun r => r.die == d)).length then s.refuse p 3
    else if (d.val = 6 ∧ a < 256) ∨ s.allRegions.any (fun r => r.die == d && decide (r.base < a + b) && decide (a < r.base + r.size)) then s.refuse p 4
    else State.ok { s with sec := { s.sec with regions := s.sec.regions ++ [⟨d, a, b, ctx, s.ctxWorld ctx⟩] } } p) := by
  have hunit : 0 < unit2M := by decide
  have hpos : b * unit2M ≠ 0 := (Nat.mul_pos hb hunit).ne'
  subst hc hd hlim
  show execMemMap p s = _
  rw [execMemMap, State.command_accepts ha]
  simp only [hbase, hsize, Nat.mul_mod_left, Nat.mul_div_cancel _ hunit]
  exact congrArg Host.Outcome.next ((if_neg (by simp only [ne_eq, not_true_eq_false, hpos, false_or]; omega)).trans
    (State.withSecCtx_accepts hs hm _))

theorem execMemMap_maps (hfit : s.unitsOf (s.sliceOfCtx ctx) d + b ≤ c) (hlen : (s.allRegions.filter (fun r => r.die == d)).length < 256)
    (hres : d.val = 6 → 256 ≤ a) (hapart : ∀ r ∈ s.allRegions, r.die = d → r.base + r.size ≤ a ∨ a + b ≤ r.base) :
    exec (.memMap p) s = .next (State.complete { s with
      sec := { s.sec with regions := s.sec.regions ++ [⟨d, a, b, ctx, s.ctxWorld ctx⟩] } } p 0 0 0 0) := by
  have hfree : ¬(s.allRegions.any (fun r => r.die == d && decide (r.base < a + b) && decide (a < r.base + r.size)) = true) := by
    simp only [List.any_eq_true, Bool.and_eq_true, beq_iff_eq, decide_eq_true_eq, not_exists, not_and]
    rintro r hr ⟨hdie, hlt⟩ hlt'
    have := hapart r hr hdie
    omega
  rw [execMemMap_units ha hc hd hbase hsize hb hin hs hm hlim]
  refine congrArg Host.Outcome.next ((if_neg (by omega)).trans ((if_neg (by omega)).trans ((if_neg ?_).trans rfl)))
  rintro (⟨h6, hlow⟩ | hmeets)
  · exact absurd (hres h6) (by omega)
  · exact hfree hmeets

theorem execMemMap_quota (hover : c < s.unitsOf (s.sliceOfCtx ctx) d + b) : exec (.memMap p) s = .next (s.complete p 3 2 0 0) := by
  rw [execMemMap_units ha hc hd hbase hsize hb hin hs hm hlim]
  exact congrArg Host.Outcome.next ((if_pos hover).trans rfl)

end Map

/-! ### Weight packages and group keys (R474 to R476) -/

/-- WPKG_LOAD from the unwrapping of the package's key on: `h` is the header at `src`, `gk` the key of its group. -/
def State.wpkgUnwrap (s : State) (p : Fin 64) (ctx : BitVec 12) (src dest : Nat) (gk h : List Byte) : State :=
  let n := bWord h 0xC
  match unwrapPk gk h with
  | none => (s.zero dest (n * 64)).refuse p 8
  | some pk => match s.fwRead true (src + 128) (n * 64 + 16) with
    | (s, none) => (s.zero dest (n * 64)).complete p stFAULT 0 0 0
    | (s, some bs) => match gcmOpen pk (bBytes h 0x6C 12) h (bs.take (n * 64)) (bs.drop (n * 64)) with
      | none => (s.zero dest (n * 64)).refuse p 8
      | some plain =>
        if bBytes h 0x10 32 ≠ sha256 plain then (s.zero dest (n * 64)).refuse p 9
        else
          let (s, landed) := s.placePlain dest plain n
          if !landed then (s.zero dest (n * 64)).complete p stFAULT 0 0 0
          else State.ok { s with sec := { s.sec with wpkgs := s.sec.wpkgs.filter (fun (y : WPkg) => y.dest != dest) ++
            [⟨ctx, dest, bBytes h 0x10 32, sha256 (h ++ bs), BitVec.ofNat 32 (bWord h 8)⟩] } } p

section Package
variable (ha : s.accepts p 0x43 [4] [(8, 11, 0), (0x10, 47, 0), (0x18, 47, 0)] true e) (hc : ctx = eCtx e) (hdest : a = eAddr e 0x18)
  (hread : s.fwRead true (eAddr e 0x10) 128 = (u, some bs)) (hmagic : bWord bs 0 = 0x57504B31) (hver : bWord bs 4 = 0x00800001)
  (hn : b = bWord bs 0xC) (hb : 0 < b) (hz : bZero bs [(0x78, 31, 0), (0x7C, 31, 0)] = true) (hg : g = BitVec.ofNat 32 (bWord bs 8))
  (hs : u.secCtx ctx = true) (hm : u.mayUse p ctx = true) (hgk : u.sec.groups.get? g = some gk) (hin : u.inRegions ctx a (b * 64) = true)
include ha hc hdest hread hmagic hver hn hb hz hg hs hm hgk hin

/-- A well-formed package for a destination of the context comes to the unwrapping of its key. -/
theorem execWpkgLoad_unwraps : exec (.wpkgLoad p) s = .next (u.wpkgUnwrap p ctx (eAddr e 0x10) a gk bs) := by
  subst hc hdest hn hg
  show execWpkgLoad p s = _
  rw [execWpkgLoad, State.command_accepts ha]
  simp only [hread]
  refine congrArg Host.Outcome.next ((if_neg ?_).trans ((State.withSecCtx_accepts hs hm _).trans ?_))
  · simp [hmagic, hver, hz, hb.ne']
  · simp only [hgk]
    exact (if_neg (by simp [hin])).trans rfl

end Package

/-! ### Group keys (R474, R475) -/

theorem execGroupKeyInstall_installs (ha : s.accepts p 0x44 [4] groupFields true e) (h0 : eBits e 8 0 0 = 0)
    (hread : s.fwRead true (eAddr e 0x10) 0x320 = (u, some bs)) (hmagic : bWord bs 0 = 0x474B4231) (hver : bWord bs 4 = 0x03200001)
    (hg : g = BitVec.ofNat 32 (bWord bs 8)) (hg0 : g ≠ 0) (hz : bZero bs [(0xC, 31, 2)] = true)
    (hid : leNat (bBytes bs 0x10 16) = leNat u.fixed.devid) (hroom : (u.sec.groups.get? g).isSome = true ∨ u.sec.groups.length < 16) :
    exec (.groupKeyInstall p (some gk)) s = .next (State.complete { u with sec := { u.sec with groups := u.sec.groups.set g gk } } p 0 0 0 0) := by
  subst hg
  show execGroupKeyInstall p (some gk) s = _
  rw [execGroupKeyInstall, State.command_accepts ha]
  simp only [hread]
  refine congrArg Host.Outcome.next ((if_neg (by omega)).trans ((if_neg ?_).trans ((if_neg ?_).trans rfl)))
  · simp only [hmagic, hver, hg0, hz, hid]
    simp
  · rintro ⟨hnone, hfull⟩
    obtain h | h := hroom
    · rw [← Option.not_isSome, h] at hnone
      cases hnone
    · omega

theorem execGroupKeyRemove_removes (ha : s.accepts p 0x44 [4] groupFields true e) (h1 : eBits e 8 0 0 = 1)
    (hg : (s.sec.groups.get? (eWord e 0xC)).isSome = true) : exec (.groupKeyRemove p) s =
      .next (State.complete { s with sec := { s.sec with groups := s.sec.groups.erase (eWord e 0xC) } } p 0 0 0 0) := by
  refine congrArg Host.Outcome.next ((State.command_accepts ha _).trans ((if_neg (by omega)).trans ((if_neg ?_).trans rfl)))
  rw [← Option.not_isSome, hg]
  decide

/-! ### Attestation (R478) -/

theorem execAttest_reports {sig : List Byte} {o : Option (BitVec 12)}
    (ha : s.accepts p 0x45 [4] [(8, 0, 0), (8, 23, 12), (0x10, 47, 0), (0x18, 47, 0)] true e) (h64 : eAddr e 0x18 % 64 = 0)
    (hc : ctx = BitVec.ofNat 12 (eBits e 8 23 12)) (ho : o = (if eBits e 8 0 0 == 1 then some ctx else none))
    (hctx : eBits e 8 0 0 = 1 → (ctx ≠ 0 → s.ctxLive ctx = true) ∧ s.mayUse p ctx = true)
    (hread : s.fwRead (p.val == 1) (eAddr e 0x10) 32 = (u, some bs)) :
    exec (.attest p sig) s = .next (u.copyOut p (eAddr e 0x18) (u.attest o bs sig) (u.attest o bs sig).length 0) := by
  have hlive : ¬((eBits e 8 0 0 == 1) = true ∧ ctx ≠ 0 ∧ (!s.ctxLive ctx) = true) := by
    rintro ⟨hone, hne, hdead⟩
    rw [(hctx (by simpa using hone)).1 hne] at hdead
    cases hdead
  have hmay : ¬((eBits e 8 0 0 == 1) = true ∧ (!s.mayUse p ctx) = true) := by
    rintro ⟨hone, hnot⟩
    rw [(hctx (by simpa using hone)).2] at hnot
    cases hnot
  subst hc ho
  show execAttest p sig s = _
  rw [execAttest, State.command_accepts ha]
  refine congrArg Host.Outcome.next ((if_neg (by omega)).trans ((if_neg hlive).trans ((if_neg hmay).trans ?_)))
  simp only [hread]

/-! ### Write logging (R485, R486) -/

section Dirty
variable (hc : ctx = eCtx e) (hs : s.secCtx ctx = true) (hm : s.mayUse p ctx = true)
include hc hs hm

theorem execDirtyStart_starts (ha : s.accepts p 0x46 [] [(8, 11, 0)] true e) (hnew : s.sec.dirty.get? ctx = none)
    (h4 : s.sec.dirty.length < 4) :
    exec (.dirtyStart p) s = .next (State.complete { s with sec := { s.sec with dirty := s.sec.dirty.set ctx [] } } p 0 0 0 0) := by
  subst hc
  exact congrArg Host.Outcome.next ((State.command_accepts ha _).trans ((State.withSecCtx_accepts hs hm _).trans
    ((if_neg (by simp [hnew])).trans ((if_neg (by omega)).trans rfl))))

theorem execDirtyStart_again (ha : s.accepts p 0x46 [] [(8, 11, 0)] true e) (hold : (s.sec.dirty.get? ctx).isSome = true) :
    exec (.dirtyStart p) s = .next (s.complete p 0 0 0 0) := by
  subst hc
  exact congrArg Host.Outcome.next ((State.command_accepts ha _).trans ((State.withSecCtx_accepts hs hm _).trans ((if_pos hold).trans rfl)))

theorem execDirtyRead_reads {l : List (Fin 8 × Nat)} (ha : s.accepts p 0x47 [] [(8, 11, 0), (8, 18, 16), (0x10, 47, 0)] true e)
    (hd : d = Fin.ofNat 8 (eBits e 8 18 16)) (h64 : eAddr e 0x10 % 64 = 0) (hl : s.sec.dirty.get? ctx = some l) :
    exec (.dirtyRead p) s = .next (State.copyOut { s with
      sec := { s.sec with dirty := s.sec.dirty.set ctx (l.filter (fun g => g.1 != d)) } } p (eAddr e 0x10) (s.bitmap d l)
        (s.bitmap d l).length 0) := by
  subst hc hd
  refine congrArg Host.Outcome.next ((State.command_accepts ha _).trans ((if_neg (by omega)).trans ((State.withSecCtx_accepts hs hm _).trans ?_)))
  simp only [hl]

theorem execDirtyStop_stops (ha : s.accepts p 0x48 [] [(8, 11, 0)] true e) :
    exec (.dirtyStop p) s = .next (State.complete { s with sec := { s.sec with dirty := s.sec.dirty.erase ctx } } p 0 0 0 0) := by
  subst hc
  exact congrArg Host.Outcome.next ((State.command_accepts ha _).trans (State.withSecCtx_accepts hs hm _))

end Dirty

/-! ### Clock gating (R487, R488) -/

section Gate
variable (ha : s.accepts p 0x49 [] [(8, 6, 0), (8, 8, 8)] true e) (hd : a = eBits e 8 6 0) (h116 : a < 116)
  (hw : s.trustedOwns a = (p.val == 1)) (hq : s.pwr.queue = []) (hb : s.busy.getLsbD a = false) (hon : s.domOn a = true)
include ha hd h116 hw hq hb hon

theorem execDomClock_reaches : exec (.domClock p) s = .next (
    if s.gated.getLsbD a = (eBits e 8 8 8 == 1) then s.ok p
    else if s.gateCode a (eBits e 8 8 8 == 1) ≠ 0 then s.refuse p (s.gateCode a (eBits e 8 8 8 == 1))
    else State.ok { s with gated := if eBits e 8 8 8 == 1 then s.gated ||| BitVec.ofNat 116 (2 ^ a) else s.gated &&& ~~~(BitVec.ofNat 116 (2 ^ a)) } p) := by
  subst hd
  exact congrArg Host.Outcome.next ((State.command_accepts ha _).trans ((if_neg (by omega)).trans ((if_neg (not_not.mpr hw)).trans
    ((if_neg (by rw [hq, hb]; decide)).trans ((if_neg (by simp [hon])).trans rfl)))))

theorem execDomClock_gates (h1 : eBits e 8 8 8 = 1) (hg : s.gated.getLsbD a = false) (hc : s.gateCode a true = 0) :
    exec (.domClock p) s = .next (State.complete { s with gated := s.gated ||| BitVec.ofNat 116 (2 ^ a) } p 0 0 0 0) := by
  rw [execDomClock_reaches ha hd h116 hw hq hb hon, hg, h1]
  exact congrArg Host.Outcome.next ((if_neg (by decide)).trans ((if_neg (not_not.mpr hc)).trans rfl))

theorem execDomClock_ungates (h0 : eBits e 8 8 8 = 0) (hg : s.gated.getLsbD a = true) (hc : s.gateCode a false = 0) :
    exec (.domClock p) s = .next (State.complete { s with gated := s.gated &&& ~~~(BitVec.ofNat 116 (2 ^ a)) } p 0 0 0 0) := by
  rw [execDomClock_reaches ha hd h116 hw hq hb hon, hg, h0]
  exact congrArg Host.Outcome.next ((if_neg (by decide)).trans ((if_neg (not_not.mpr hc)).trans rfl))

theorem execDomClock_same (hg : s.gated.getLsbD a = (eBits e 8 8 8 == 1)) : exec (.domClock p) s = .next (s.complete p 0 0 0 0) := by
  rw [execDomClock_reaches ha hd h116 hw hq hb hon]
  exact congrArg Host.Outcome.next ((if_pos hg).trans rfl)

end Gate
end Security

/-- Settles O50: each clause is the completion of one command, stated above for it. -/
theorem securityCommandsComplete : Obligations.SecurityCommandsComplete := by
  unfold Obligations.SecurityCommandsComplete
  intro p e ctx sl n d a b c bs gk g r keyErr s u v w
  refine ⟨fun ha hc hsl h0 hnew hs hl => ⟨execCtxCreate_plain ha hc hsl h0 hnew hs hl, execCtxCreate_encrypted ha hc hsl h0 hnew hs hl⟩,
    execCtxDestroy_fences, fun hr h4 => ⟨execCtxDestroyDrainEnd_advances hr h4, fun _ => execCtxDestroyRelease_releases hr h4⟩,
    fun ha hc hd hbase hsize hb hin hs hm hlim => ⟨execMemMap_maps ha hc hd hbase hsize hb hin hs hm hlim,
      execMemMap_quota ha hc hd hbase hsize hb hin hs hm hlim⟩,
    fun ha hc hdest hread hmagic hver hn hb hz hg hs hm hgk hin => ?package,
    fun ha => ⟨execGroupKeyInstall_installs ha, execGroupKeyRemove_removes ha⟩, fun _ _ => execAttest_reports,
    fun hc hs hm => ⟨fun ha => ⟨execDirtyStart_starts hc hs hm ha, execDirtyStart_again hc hs hm ha⟩, fun _ => execDirtyRead_reads hc hs hm,
      execDirtyStop_stops hc hs hm⟩,
    fun ha hd h116 hw hq hb hon => ⟨execDomClock_gates ha hd h116 hw hq hb hon, execDomClock_ungates ha hd h116 hw hq hb hon,
      execDomClock_same ha hd h116 hw hq hb hon⟩⟩
  case package =>
    rw [execWpkgLoad_unwraps ha hc hdest hread hmagic hver hn hb hz hg hs hm hgk hin, State.wpkgUnwrap]
    subst hn hg
    refine ⟨fun hk => by rw [hk]; rfl, fun pk ps hk hps => ?_⟩
    simp only [hk, hps]
    refine ⟨fun ho => by rw [ho]; rfl, fun plain ho => ?_⟩
    simp only [ho]
    refine ⟨fun hf => congrArg Host.Outcome.next ((if_pos hf).trans rfl), fun hf hw => ?_⟩
    rw [hw]
    exact congrArg Host.Outcome.next ((if_neg (not_not.mpr hf)).trans rfl)

end Sys2Proof.Machine
end

section
/-! PROOFS. Completion of the commands of the switch, MDIO, the host queues and the signal gateway (O37). -/

namespace Sys2Proof.Machine

section Switch
variable {p : Fin 14} {q : Fin 8} {bytes : List Byte} {pass : Bool} {ecc : Option EccErr} {f : EthFrame} {t : List EthFrame} {src : Src} {i : Fin 32}
  {n : Fin 8192} {v : Word} {data : BitVec 16} {s u w : State}

/-! ### Frames (R524, R531, R547) -/

section Receive
variable (hup : s.gwUp = true) (hp : s.portEnabled p = true) (hl : s.portLink p = true) (hu : u = s.count .sw 0 (Reg.SW_RXFRMp p) 1)
include hup hp hl hu

theorem execSwitchFrameReceive_forwards (h60 : 60 ≤ bytes.length) (h9212 : bytes.length ≤ 9212) (ht : ethType bytes ≠ 0x8808) :
    exec (.switchFrameReceive p bytes pass ecc) s = .next (u.swForward ⟨bytes, p, u.now32, none⟩ pass ecc).1 := by
  subst hu
  refine congrArg Host.Outcome.next ((if_neg (by simp [hup, hp, hl])).trans (if_neg ?_))
  rintro (h | h | h)
  · omega
  · omega
  · exact ht h

theorem execSwitchFrameReceive_drops (hbad : bytes.length < 60 ∨ 9212 < bytes.length ∨ ethType bytes = 0x8808) :
    exec (.switchFrameReceive p bytes pass ecc) s = .next (u.swDrop p) := by
  subst hu
  exact congrArg Host.Outcome.next ((if_neg (by simp [hup, hp, hl])).trans (if_pos hbad))

end Receive

section Egress
variable (hup : s.gwUp = true) (hq : s.egressQ p q = f :: t) (hu : u = { s with gw := { s.gw with egress := s.gw.egress.set (p, q) t } })
include hup hq hu

/-- A frame without an error that is sent leaves by its port; the last copy of a descriptor's frame ends the descriptor. -/
theorem execSwitchFrameEgress_sends : exec (.switchFrameEgress p q true none) s =
    .next (let t := (u.count .sw 0 (Reg.SW_TXFRMp p) 1).swDeliver p q f
      match f.queue with
      | some i => t.txCopyEnds i false t.now32
      | none => t) := by
  subst hu
  refine congrArg Host.Outcome.next ((if_neg (by simp [hup])).trans ?_)
  simp only [hq]
  rfl

theorem execSwitchFrameEgress_single : exec (.switchFrameEgress p q true (some .single)) s =
    .next (let t := ((u.raise .sw 0 0 0 0).count .sw 0 (Reg.SW_TXFRMp p) 1).swDeliver p q f
      match f.queue with
      | some i => t.txCopyEnds i false t.now32
      | none => t) := by
  subst hu
  refine congrArg Host.Outcome.next ((if_neg (by simp [hup])).trans ?_)
  simp only [hq]
  rfl

theorem execSwitchFrameEgress_double : exec (.switchFrameEgress p q true (some .double)) s =
    .next (let t := (u.raise .sw 0 1 0 0).swDrop f.ingress
      match f.queue with
      | some i => t.txCopyEnds i true t.now32
      | none => t) := by
  subst hu
  refine congrArg Host.Outcome.next ((if_neg (by simp [hup])).trans ?_)
  simp only [hq]
  rfl

theorem execSwitchFrameEgress_dropped : exec (.switchFrameEgress p q false none) s =
    .next (match f.queue with
      | some i => u.txCopyEnds i true u.now32
      | none => u) := by
  subst hu
  refine congrArg Host.Outcome.next ((if_neg (by simp [hup])).trans ?_)
  simp only [hq]
  rfl

end Egress

/-! ### MDIO (R522, R547) -/

theorem execMdioCommand_goes (hr : s.reaches src (vehRegs 0x1B00000 + Reg.SW_MDIOCMD) = true) (hw : s.mayWrite src .sw 0 = true)
    (hgo : bitOf v 31 = true) (hidle : s.gw.mdio = none) : ∃ t, exec (.mdioCommand src v) s = .next t ∧ t.reg .sw 0 Reg.SW_MDIORES = 0 ∧
      t.gw.mdio = some ⟨Fin.ofNat 2 (bitsOf v 30 30), bitsOf v 29 28, bitsOf v 27 23, bitsOf v 22 18, bitsOf v 15 0⟩ :=
  ⟨_, congrArg Host.Outcome.next ((State.expertCommand hr hw (fun _ => bitOf v 31) _).trans (if_pos (by simp [hgo, hidle]))),
    s.reg_setReg_same _ _ _ _, rfl⟩

theorem execMdioDone_answers {m : Mdio} (hm : s.gw.mdio = some m) : ∃ t, exec (.mdioDone data) s = .next t ∧ t.gw.mdio = none ∧
    t.reg .sw 0 Reg.SW_MDIORES = BitVec.ofNat 32 (2 ^ 31 + (if m.op = 2 then data.toNat else 0)) := by
  refine ⟨{ s.setReg .sw 0 Reg.SW_MDIORES (BitVec.ofNat 32 (2 ^ 31 + (if m.op = 2 then data.toNat else 0))) with
    gw := { s.gw with mdio := none } }, congrArg Host.Outcome.next ?_, rfl, s.reg_setReg_same _ _ _ _⟩
  simp only [hm]

/-! ### Host queues (R531, R532) -/

theorem execQueueTxWriteback_writes {err : Nat} {stamp ctrl : Word} (hd : (s.gwq i).done = some (err, stamp, ctrl)) (hst : (s.gwq i).st = 1) :
    exec (.queueTxWriteback i) s = .next ((s.setGwq i { s.gwq i with done := none }).qWriteBack i none ctrl.toNat err 0
      (if bitOf ctrl 30 && err == 0 then some stamp else none) (bitOf ctrl 29)) := by
  refine congrArg Host.Outcome.next ?_
  simp only [hd]
  exact if_pos hst

theorem execQueueRxWriteback_writes {r : RxDone} {t : List RxDone} (hr : (s.gwq i).rx = r :: t) (hst : (s.gwq i).st = 1) :
    exec (.queueRxWriteback i) s = .next ((s.setGwq i { s.gwq i with rx := t }).qWriteBack i (some r.len) r.ctrl.toNat r.err r.port
      (some r.stamp) (bitOf r.ctrl 29)) := by
  refine congrArg Host.Outcome.next ?_
  simp only [hr]
  exact if_pos hst

theorem execGwQueuePoll_checks : exec (.gwQueuePoll i) s = .next (s.qCheck i) := rfl

section TxQueue
variable {d bs : List Byte} (hup : s.gwUp = true) (hst : (s.gwq i).st = 1) (htx : isTxQueue i = true) (hfly : (s.gwq i).fly = none)
  (hdone : (s.gwq i).done = none) (hread : s.unitRead (s.queueSrc i) ((s.gwq i).descAt (s.gwq i).next) 16 = (u, some d))
include hup hst htx hfly hdone hread

/-- A transmit queue that is on and idle looks at its next descriptor. -/
theorem State.qCheck_looks : s.qCheck i = (if !bitOf (dCtrl d) 31 then u
    else match u.unitRead (u.queueSrc i) (dBuf d) (dLen d) with
      | (s', none) => s'.setGwq i { s'.gwq i with done := some (4, 0, dCtrl d) }
      | (s', some bs) =>
        if (s.gwq i).kind = 0 then s'.qSendEth i bs (dCtrl d)
        else if (s.gwq i).kind = 1 then s'.qSendCan i bs (dCtrl d)
        else s'.qSendLin i bs (dCtrl d)) := by
  refine (if_neg (by simp [hup, hst, htx, hfly, hdone])).trans ?_
  simp only [hread] <;> rfl

theorem State.qCheck_hostOwns (hown : bitOf (dCtrl d) 31 = false) : s.qCheck i = u := by
  rw [State.qCheck_looks hup hst htx hfly hdone hread]
  exact if_pos (by rw [hown]; rfl)

theorem State.qCheck_owns (hown : bitOf (dCtrl d) 31 = true) (hbuf : u.unitRead (u.queueSrc i) (dBuf d) (dLen d) = (w, some bs)) :
    s.qCheck i = (if (s.gwq i).kind = 0 then w.qSendEth i bs (dCtrl d)
      else if (s.gwq i).kind = 1 then w.qSendCan i bs (dCtrl d)
      else w.qSendLin i bs (dCtrl d)) := by
  rw [State.qCheck_looks hup hst htx hfly hdone hread, hbuf]
  exact if_neg (by rw [hown]; decide)

end TxQueue

/-! ### Signal gateway (R534, R538) -/

section Pdus
variable {y : Pdu} (hy : s.pdu n = some y) (hup : s.gwUp = true) (hper : y.period ≠ 0)
include hy hup hper

theorem execPduSourceTimeout_late (hsrc : y.target = false) (hnew : y.timedOut = false) (hlate : y.lastRx + y.period * 100000 ≤ s.now)
    (hu : u = s.setPdu n { y with timedOut := true }) :
    exec (.pduSourceTimeout n) s = .next ((u.runGroup ((u.routesOf n).filter rTosub) (fun _ r => 2 ^ (bitsOf r 41 37 + 1) - 1)).raise
      .gw 0 2 0 (2 ^ 30 + n.val)) := by
  subst hu
  refine congrArg Host.Outcome.next ?_
  simp only [hy]
  exact if_pos (by simp [hup, hper, hsrc, hnew, hlate])

theorem execPduPeriodicSend_due (htgt : y.target = true) (hmode : y.txmode = 1) (hphase : s.now / 100000 % y.period = y.phase % y.period)
    (hlast : y.lastSent ≠ some (s.now / 100000)) :
    exec (.pduPeriodicSend n) s = .next ((s.setPdu n { y with lastSent := some (s.now / 100000) }).pduSend n) := by
  refine congrArg Host.Outcome.next ?_
  simp only [hy]
  exact if_pos (by simp [hup, hper, htgt, hmode, hphase, hlast])

end Pdus
end Switch

/-- Settles O37: each clause is the completion of one command, stated above for it. -/
theorem switchCommandsComplete : Obligations.SwitchCommandsComplete := by
  unfold Obligations.SwitchCommandsComplete
  refine ⟨fun p x q bytes pass linked verified ecc f t src i n v data s u => ⟨fun hup hp hl hu =>
      ⟨execSwitchFrameReceive_forwards hup hp hl hu, execSwitchFrameReceive_drops hup hp hl hu⟩,
    fun hup hq hu => ⟨fun hf => ?wire, fun hf => ?queued⟩, fun hup => congrArg Host.Outcome.next (if_pos hup), execMdioCommand_goes,
    fun _ => execMdioDone_answers, fun hr => congrArg Host.Outcome.next (State.regCommand_reaches hr _ _ _), execGwQueuePoll_checks,
    fun _ _ _ => execQueueTxWriteback_writes, fun _ _ => execQueueRxWriteback_writes,
    fun _ hy hup hper => ⟨execPduSourceTimeout_late hy hup hper, execPduPeriodicSend_due hy hup hper⟩⟩,
    fun i d bs s u w hup hst htx hfly hdone hread => ⟨fun hown => congrArg Host.Outcome.next
      (State.qCheck_hostOwns hup hst htx hfly hdone hread hown), fun hown hbuf => ?owns⟩⟩
  case wire =>
    rw [execSwitchFrameEgress_sends hup hq hu, execSwitchFrameEgress_single hup hq hu, execSwitchFrameEgress_double hup hq hu,
      execSwitchFrameEgress_dropped hup hq hu, hf]
    exact ⟨rfl, rfl, rfl, rfl⟩
  case queued =>
    rw [execSwitchFrameEgress_sends hup hq hu, execSwitchFrameEgress_double hup hq hu, execSwitchFrameEgress_dropped hup hq hu, hf]
    exact ⟨rfl, rfl, rfl⟩
  case owns =>
    rw [execGwQueuePoll_checks, State.qCheck_owns hup hst htx hfly hdone hread hown hbuf]
    exact ⟨fun h0 => congrArg _ (if_pos h0), fun h1 => congrArg _ ((if_neg (by rw [h1]; decide)).trans (if_pos h1)),
      fun h0 h1 => congrArg _ ((if_neg h0).trans (if_neg h1))⟩

end Sys2Proof.Machine
end

section
/-! PROOFS. Completion of the ring commands of the switch and the signal gateway (O38). -/

namespace Sys2Proof.Machine

section GatewayRing
variable {p : Fin 64} {e : BitVec 512} {k n : Nat} {bs : List Byte} {es : List (BitVec 128)} {s u t : State}

theorem execSwPort_sets (ha : s.accepts p 0x52 [] [(8, 3, 0), (0xC, 31, 25), (0xC, 11, 0), (0x10, 23, 0), (0x14, 7, 0), (0x18, 47, 0)] true e)
    (hn : eBits e 8 3 0 = n) (h13 : n ≤ 13) (h8 : n < 8 → bitsOf (eWord e 0xC) 30 28 ≤ 4)
    (h10 : 8 ≤ n → n < 10 → bitsOf (eWord e 0xC) 30 28 ≤ 1)
    (hu : u = ((s.setReg .sw 0 (Reg.SW_PCFGp n) (if n < 10 then eWord e 0xC else eWord e 0xC &&& 0x8DFFFFFF)).setReg .sw 0 (Reg.SW_PCPMAPp n)
      (eWord e 0x10)).setReg .sw 0 (Reg.SW_EXPMASKp n) (eWord e 0x14)) :
    exec (.swPort p) s = .next (State.complete { u with
      gw := { u.gw with shapers := u.gw.shapers.set (Fin.ofNat 14 n) (eAddr e 0x18) } } p 0 0 0 0) := by
  subst hu hn
  refine congrArg Host.Outcome.next ((State.command_accepts ha _).trans ((if_neg (Nat.not_lt.mpr h13)).trans ((if_neg ?_).trans rfl)))
  rintro (⟨hlt, hs⟩ | ⟨hge, hlt, hs⟩)
  · exact absurd (h8 hlt) (Nat.not_le.mpr hs)
  · exact absurd (h10 hge hlt) (Nat.not_le.mpr hs)

section Vlan
variable {vid : BitVec 12} (ha : s.accepts p 0x53 [] [(8, 11, 0), (8, 30, 16)] true e) (hv : vid = BitVec.ofNat 12 (eBits e 8 11 0)) (h0 : vid ≠ 0)
  (h4095 : vid ≠ 4095)
include ha hv h0 h4095

theorem execSwVlan_sets (h30 : eBits e 8 30 30 = 1) : exec (.swVlan p) s = .next (State.complete { s with
    gw := { s.gw with vlans := s.gw.vlans.set vid (BitVec.ofNat 14 (eBits e 8 29 16)) } } p 0 0 0 0) := by
  subst hv
  refine congrArg Host.Outcome.next ((State.command_accepts ha _).trans ((if_neg (not_or.mpr ⟨h0, h4095⟩)).trans ?_))
  rw [if_pos h30]
  rfl

theorem execSwVlan_removes (h30 : eBits e 8 30 30 = 0) : exec (.swVlan p) s =
    .next (State.complete { s with gw := { s.gw with vlans := s.gw.vlans.erase vid } } p 0 0 0 0) := by
  subst hv
  refine congrArg Host.Outcome.next ((State.command_accepts ha _).trans ((if_neg (not_or.mpr ⟨h0, h4095⟩)).trans ?_))
  rw [if_neg (by omega)]
  rfl

end Vlan

/-! ### The flow table (R525 to R528) -/

section Flows
variable (hk : k = eBits e 8 8 0) (h0 : 0 < k) (h256 : k ≤ 256) (hread : s.fwRead (p.val == 1) (eAddr e 0x10) (16 * k) = (u, some bs))
  (hes : es = (unpack 16 k bs).map (BitVec.ofNat 128))
include hk h0 h256 hread hes

/-- An entry array of 1 to 256 entries that firmware can read comes to its command. -/
theorem State.withFlows_reads {op : Nat} (ha : s.accepts p op [] flowFields true e) (f : State → List (BitVec 128) → State) :
    s.withFlows p op f = f u es := by
  subst hk hes
  refine (State.command_accepts ha _).trans ((if_neg (by omega)).trans ?_)
  simp only [hread]

theorem execFlowAdd_placed (ha : s.accepts p 0x54 [] flowFields true e) (hok : es.all flowOk = true)
    (hp : State.flowPlaceAll es u 0 = (t, n, true)) : exec (.flowAdd p) s = .next (t.complete p 0 0 n 0) := by
  refine congrArg Host.Outcome.next ((State.withFlows_reads hk h0 h256 hread hes ha _).trans ((if_neg (by rw [hok]; decide)).trans ?_))
  simp only [hp]

theorem execFlowAdd_full (ha : s.accepts p 0x54 [] flowFields true e) (hok : es.all flowOk = true)
    (hp : State.flowPlaceAll es u 0 = (t, n, false)) : exec (.flowAdd p) s = .next (t.complete p 3 3 n 0) := by
  refine congrArg Host.Outcome.next ((State.withFlows_reads hk h0 h256 hread hes ha _).trans ((if_neg (by rw [hok]; decide)).trans ?_))
  simp only [hp]

/-- FLOW_DEL answers how many of its entries the table held. -/
theorem execFlowDel_removes (ha : s.accepts p 0x55 [] flowFields true e) (hf : es.foldl (fun (r : State × Nat) e =>
      match r.1.flowFind (flowKey e) with
      | some (t, _) => ({ r.1 with gw := { r.1.gw with flows := r.1.gw.flows.erase t } }, r.2 + 1)
      | none => r) (u, 0) = (t, n)) : exec (.flowDel p) s = .next (t.complete p 0 0 n 0) :=
  congrArg Host.Outcome.next ((State.withFlows_reads hk h0 h256 hread hes ha _).trans
    (congrArg (fun r : State × Nat => r.1.complete p stOK 0 r.2 0) hf))

end Flows

theorem execFlowRead_found {w : Nat} {x : BitVec 128} (ha : s.accepts p 0x56 [] [(0x10, 47, 0), (0x18, 47, 0)] true e)
    (h64 : eAddr e 0x18 % 64 = 0) (hread : s.fwRead (p.val == 1) (eAddr e 0x10) 16 = (u, some bs))
    (hx : u.flowFind (flowKey (BitVec.ofNat 128 (leNat bs))) = some (w, x)) :
    exec (.flowRead p) s = .next (u.copyOut p (eAddr e 0x18) (leBytes 16 x.toNat) 0 0) := by
  refine congrArg Host.Outcome.next ((State.command_accepts ha _).trans ((if_neg (not_not.mpr h64)).trans ?_))
  simp only [hread, hx]

/-! ### PDUs, routes and queues (R529, R534 to R537) -/

section GwPdu
variable {i : Fin 8192} {y : Pdu} (ha : s.accepts p 0x57 [] [(8, 12, 0), (8, 25, 16), (0x10, 47, 0)] true e)
  (hi : i = Fin.ofNat 8192 (eBits e 8 12 0))
include ha

section Template
variable (h17 : eBits e 8 17 17 = 1)
include h17

theorem execGwPdu_dropsTemplate (h16 : eBits e 8 16 16 = 1) : exec (.gwPdu p) s = .next (State.complete { s with
    gw := { s.gw with templates := s.gw.templates.erase (Fin.ofNat 256 (eBits e 8 25 18)) } } p 0 0 0 0) :=
  congrArg Host.Outcome.next ((State.command_accepts ha _).trans ((if_pos h17).trans ((if_pos h16).trans rfl)))

theorem execGwPdu_takesTemplate (h16 : eBits e 8 16 16 = 0) (hread : s.fwRead (p.val == 1) (eAddr e 0x10) 62 = (u, some bs))
    (h62 : headerLen bs ≤ 62) : exec (.gwPdu p) s = .next (State.complete { u with
      gw := { u.gw with templates := u.gw.templates.set (Fin.ofNat 256 (eBits e 8 25 18)) (bs.take (headerLen bs)) } } p 0 0 0 0) := by
  refine congrArg Host.Outcome.next ((State.command_accepts ha _).trans ((if_pos h17).trans ((if_neg (by omega)).trans ?_)))
  simp only [hread]
  exact (if_neg (Nat.not_lt.mpr h62)).trans rfl

end Template

variable (h17 : eBits e 8 17 17 = 0)
include hi h17

theorem execGwPdu_drops (h16 : eBits e 8 16 16 = 1) (hfree : s.pduInUse i = false) :
    exec (.gwPdu p) s = .next (State.complete { s with gw := { s.gw with pdus := s.gw.pdus.erase i } } p 0 0 0 0) := by
  subst hi
  exact congrArg Host.Outcome.next ((State.command_accepts ha _).trans ((if_neg (by omega)).trans ((if_pos h16).trans
    ((if_neg (Bool.eq_false_iff.mp hfree)).trans rfl))))

section Install
variable (h16 : eBits e 8 16 16 = 0) (hread : s.fwRead (p.val == 1) (eAddr e 0x10) 16 = (u, some bs)) (hy : parsePdu bs 0 u.now = some y)
  (hfree : u.pduInUse i = false)
include h16 hread hy hfree

/-- A descriptor that parses gives its PDU, with a buffer of its controller when it is a CAN target. -/
theorem execGwPdu_parses : exec (.gwPdu p) s = .next (if y.target = true ∧ y.bus = 0 then
      match u.freeCanSlot y.ctrl i with
      | none => u.refuse p 1
      | some k => (u.setPdu i { y with slot := k }).ok p
    else (u.setPdu i y).ok p) := by
  subst hi
  refine congrArg Host.Outcome.next ((State.command_accepts ha _).trans ((if_neg (by omega)).trans ((if_neg (by omega)).trans ?_)))
  simp only [hread, hy]
  exact (if_neg (Bool.eq_false_iff.mp hfree)).trans rfl

theorem execGwPdu_installs (hn : ¬(y.target = true ∧ y.bus = 0)) : exec (.gwPdu p) s = .next ((u.setPdu i y).complete p 0 0 0 0) := by
  rw [execGwPdu_parses ha hi h17 h16 hread hy hfree]
  exact congrArg Host.Outcome.next ((if_neg hn).trans rfl)

theorem execGwPdu_installsTarget (ht : y.target = true) (hb : y.bus = 0) (hs : u.freeCanSlot y.ctrl i = some k) :
    exec (.gwPdu p) s = .next ((u.setPdu i { y with slot := k }).complete p 0 0 0 0) := by
  rw [execGwPdu_parses ha hi h17 h16 hread hy hfree, hs]
  exact congrArg Host.Outcome.next ((if_pos ⟨ht, hb⟩).trans rfl)

end Install
end GwPdu

section Route
variable (ha : s.accepts p 0x58 [] [(8, 26, 0), (0x10, 47, 0)] true e) (hk : k = eBits e 8 26 16) (hn : n = eBits e 8 15 0) (h0 : 0 < k)
  (h1024 : k ≤ 1024) (hin : n + k ≤ 65536) (hread : s.fwRead (p.val == 1) (eAddr e 0x10) (16 * k) = (u, some bs))
  (hes : es = (unpack 16 k bs).map (BitVec.ofNat 128))
include ha hk hn h0 h1024 hin hread hes

theorem execGwRoute_installs (ht : t = installRoutes u es n) (hgood : firstBad u es n = none) (hroom : overFull t es n = none) :
    exec (.gwRoute p) s = .next (t.complete p 0 0 0 0) := by
  subst ht hes hn hk
  refine congrArg Host.Outcome.next ((State.command_accepts ha _).trans ((if_neg (by omega)).trans ?_))
  simp only [hread, hgood, hroom]
  rfl

theorem execGwRoute_refused {i : Nat} (hbad : firstBad u es n = some i) : exec (.gwRoute p) s = .next (u.complete p 3 2 i 0) := by
  subst hes hn hk
  refine congrArg Host.Outcome.next ((State.command_accepts ha _).trans ((if_neg (by omega)).trans ?_))
  simp only [hread, hbad]

end Route

section Queue
variable {i : Fin 32} (ha : s.accepts p 0x59 [] [(8, 4, 0), (8, 18, 8), (0xC, 11, 0), (0xC, 19, 16), (0x10, 47, 0)] true e)
  (hi : i = Fin.ofNat 32 (eBits e 8 4 0))
include ha hi

theorem execGwQueue_stops (h8 : eBits e 8 8 8 = 0) : exec (.gwQueue p) s = .next ((s.setGwq i GwQueue.off).complete p 0 0 0 0) := by
  subst hi
  exact congrArg Host.Outcome.next ((State.command_accepts ha _).trans ((if_pos h8).trans rfl))

theorem execGwQueue_starts (h8 : eBits e 8 8 8 = 1) (hk3 : eBits e 8 10 9 ≠ 3) (hcan : eBits e 8 10 9 = 1 → eBits e 8 15 11 ≤ 23)
    (hlin : eBits e 8 10 9 = 2 → eBits e 8 15 11 ≤ 7) (hc0 : eBits e 8 18 16 ≠ 0) (hc7 : eBits e 8 18 16 ≠ 7) (hn4 : 4 ≤ eBits e 0xC 19 16)
    (hn12 : eBits e 0xC 19 16 ≤ 12) (h16 : eAddr e 0x10 % 16 = 0)
    (hctx : eBits e 0xC 11 0 ≠ 0 → s.ctxLive (BitVec.ofNat 12 (eBits e 0xC 11 0)) = true ∧
      s.ctxWorld (BitVec.ofNat 12 (eBits e 0xC 11 0)) = decide (i.val / 16 = 1)) :
    exec (.gwQueue p) s = .next ((s.setGwq i { GwQueue.off with
      st := 1, ctx := BitVec.ofNat 12 (eBits e 0xC 11 0), cls := Fin.ofNat 8 (eBits e 8 18 16), kind := Fin.ofNat 4 (eBits e 8 10 9),
      ctrl := eBits e 8 15 11, n := eBits e 0xC 19 16, base := eAddr e 0x10 }).complete p 0 0 0 0) := by
  subst hi
  have hlive := fun (h : BitVec.ofNat 12 (eBits e 0xC 11 0) ≠ 0) => hctx fun hz => h (by rw [hz]; rfl)
  refine congrArg Host.Outcome.next ((State.command_accepts ha _).trans ((if_neg (by omega)).trans ((if_neg (by omega)).trans
    ((if_neg ?dead).trans ((if_neg ?other).trans rfl)))))
  case dead =>
    rintro ⟨hne, hdead⟩
    rw [(hlive hne).1] at hdead
    cases hdead
  case other => exact fun ⟨hne, hother⟩ => hother (hlive hne).2

end Queue
end GatewayRing

/-- Settles O38: each clause is the completion of one command, stated above for it. -/
theorem gatewayRingCommandsComplete : Obligations.GatewayRingCommandsComplete := by
  unfold Obligations.GatewayRingCommandsComplete
  exact fun p e k n bs es s u t => ⟨execSwPort_sets, fun _ ha hv h0 h4095 => ⟨execSwVlan_sets ha hv h0 h4095, execSwVlan_removes ha hv h0 h4095⟩,
    fun hk h0 h256 hread hes => ⟨fun ha hok => ⟨execFlowAdd_placed hk h0 h256 hread hes ha hok, execFlowAdd_full hk h0 h256 hread hes ha hok⟩,
      execFlowDel_removes hk h0 h256 hread hes⟩,
    fun _ _ => execFlowRead_found,
    fun _ _ ha hi => ⟨execGwPdu_drops ha hi, fun h17 h16 hread hy hfree =>
      ⟨execGwPdu_installs ha hi h17 h16 hread hy hfree, execGwPdu_installsTarget ha hi h17 h16 hread hy hfree⟩,
      execGwPdu_dropsTemplate ha, execGwPdu_takesTemplate ha⟩,
    fun ha hk hn h0 h1024 hin hread hes ht => ⟨execGwRoute_installs ha hk hn h0 h1024 hin hread hes ht,
      fun _ => execGwRoute_refused ha hk hn h0 h1024 hin hread hes⟩,
    fun _ ha hi => ⟨execGwQueue_stops ha hi, execGwQueue_starts ha hi⟩⟩

end Sys2Proof.Machine
end

section
/-! PROOFS. Completion of the ring commands of the message fabric (O45). -/

namespace Sys2Proof.Machine

/-- A context that the pair may name, or context 0, lets its command go on (R465, R583). -/
theorem State.withCtx_accepts {s : State} {p : Fin 64} {ctx : BitVec 12} (hl : ctx ≠ 0 → s.ctxLive ctx = true) (hm : s.mayUse p ctx = true)
    (world : Nat) (k : State → State) : s.withCtx p ctx world k = k s := by
  refine (if_neg ?_).trans (if_neg (by rw [hm]; decide))
  rintro ⟨hne, hdead⟩
  rw [hl hne] at hdead
  cases hdead

section WoadeRing
variable {p : Fin 64} {e : BitVec 512} {n : Fin 8} {f : Fin 256} {q : Fin 16} {r : Fin 64} {ctx : BitVec 12} {y : WFlow} {bs : List Byte} {s u : State}

theorem execWdeTopo_sets (ha : s.accepts p 0x60 [] [(8, 13, 0), (0xC, 4, 0), (0xC, 12, 8), (0xC, 19, 16), (0xC, 25, 24)] true e)
    (hd : s.domEnabled (Fin.ofNat 4 (eBits e 0xC 25 24)) = true) (hb : s.wdeBound = false) :
    exec (.wdeTopo p) s = .next (((s.setReg .wde 0 Reg.WDE_ID (BitVec.ofNat 32 (eBits e 8 13 0))).setReg .wde 0 Reg.WDE_TOPO
      (BitVec.ofNat 32 (eBits e 0xC 4 0 * 2 ^ 24 + eBits e 0xC 12 8 * 2 ^ 16 + eBits e 0xC 19 16 * 2 ^ 8 + eBits e 0xC 25 24))).complete p 0 0 0 0) :=
  congrArg Host.Outcome.next ((State.command_accepts ha _).trans ((if_neg (by rw [hd]; decide)).trans ((if_neg (by rw [hb]; decide)).trans rfl)))

/-! ### Ports (R608) -/

section Port
variable (ha : s.accepts p 0x61 [] [(8, 2, 0), (8, 8, 8)] true e) (hn : n = Fin.ofNat 8 (eBits e 8 2 0))
include ha hn

theorem execWdePort_stopsUp (h8 : eBits e 8 8 8 = 0) (hst : (s.wport n).st = 2) :
    exec (.wdePort p) s = .next ((s.wportOff n 0).complete p 0 0 0 0) := by
  subst hn
  exact congrArg Host.Outcome.next ((State.command_accepts ha _).trans ((if_pos h8).trans (congrArg (fun t : State => t.ok p) (if_pos hst))))

theorem execWdePort_stops (h8 : eBits e 8 8 8 = 0) (hst : (s.wport n).st ≠ 2) :
    exec (.wdePort p) s = .next ((s.setWport n { s.wport n with st := 0 }).complete p 0 0 0 0) := by
  subst hn
  exact congrArg Host.Outcome.next ((State.command_accepts ha _).trans ((if_pos h8).trans (congrArg (fun t : State => t.ok p) (if_neg hst))))

/-- A port that is off begins to train; the command waits for it. -/
theorem execWdePort_trains (h8 : eBits e 8 8 8 = 1) (hup : s.wdeUp = true) (hst : (s.wport n).st = 0) :
    exec (.wdePort p) s = .next (s.setWport n { s.wport n with st := 1, since := s.now }) := by
  subst hn
  exact congrArg Host.Outcome.next ((State.command_accepts ha _).trans ((if_neg (by omega)).trans
    ((if_neg (by rw [hup, hst]; simp)).trans (if_pos hst))))

theorem execWdePort_isUp (h8 : eBits e 8 8 8 = 1) (hst : (s.wport n).st = 2) : exec (.wdePort p) s = .next (s.complete p 0 0 2 0) := by
  subst hn
  refine congrArg Host.Outcome.next ((State.command_accepts ha _).trans ((if_neg (by omega)).trans ((if_pos (.inr (.inl hst))).trans ?_)))
  rw [hst]

end Port

/-! ### Flows and the schedule (R597, R598, R601) -/

section Flow
variable (ha : s.accepts p 0x62 [] [(8, 9, 0), (8, 18, 16), (0xC, 11, 0), (0x10, 13, 0), (0x10, 21, 16)] true e)
  (hf : f = Fin.ofNat 256 (eBits e 8 7 0)) (h255 : f ≠ 255)
include ha hf h255

theorem execWdeFlow_removes (h8 : eBits e 8 8 8 = 0) (hq : s.wde.sqs.any (fun q => q.2.flow == f) = false) : exec (.wdeFlow p) s =
    .next ((s.setWde { s.wde with flows := s.wde.flows.filter (fun x => x.1.val != f.val) }).complete p 0 0 0 0) := by
  subst hf
  exact congrArg Host.Outcome.next ((State.command_accepts ha _).trans ((if_neg h255).trans ((if_pos h8).trans
    ((if_neg (Bool.eq_false_iff.mp hq)).trans rfl))))

theorem execWdeFlow_sets (hc : ctx = BitVec.ofNat 12 (eBits e 0xC 11 0)) (h8 : eBits e 8 8 8 = 1) (hl : ctx ≠ 0 → s.ctxLive ctx = true)
    (hm : s.mayUse p ctx = true) : exec (.wdeFlow p) s = .next ((s.setWflow f ⟨ctx, Fin.ofNat 8 (eBits e 8 18 16), decide (eBits e 8 9 9 = 1),
      BitVec.ofNat 14 (eBits e 0x10 13 0), Fin.ofNat 64 (eBits e 0x10 21 16), 0, []⟩).complete p 0 0 0 0) := by
  subst hf hc
  exact congrArg Host.Outcome.next ((State.command_accepts ha _).trans ((if_neg h255).trans ((if_neg (by omega)).trans
    (State.withCtx_accepts hl hm _ _))))

end Flow

theorem execWdeSched_sets {es : List ((Fin 8 × Fin 1024) × Word)} (ha : s.accepts p 0x63 [] [(8, 31, 0), (0x10, 47, 0)] true e)
    (h64 : eAddr e 0x10 % 64 = 0) (hread : s.fwRead (p.val == 1) (eAddr e 0x10) 16384 = (u, some bs))
    (hes : es = (List.finRange 8192).map (schedEntry bs)) (hgood : es.any schedBad = false)
    (h2 : 2 ≤ (eWord e 8 - BitVec.ofNat 32 s.roundNow).toNat) (h31 : (eWord e 8 - BitVec.ofNat 32 s.roundNow).toNat < 2 ^ 31) :
    exec (.wdeSched p) s = .next (((u.setWde { u.wde with
      pending := some (eWord e 8, (es.filter (fun x => bitOf x.2 15)).map (fun x =>
        (x.1, (⟨bitOf x.2 14, Fin.ofNat 8 (bitsOf x.2 13 11), Fin.ofNat 256 (bitsOf x.2 7 0)⟩ : WEntry)))) }).setReg .wde 0 Reg.WDE_NEXTRND
          (eWord e 8)).complete p 0 0 0 0) := by
  show execWdeSched p s = _
  rw [execWdeSched, State.command_accepts ha]
  simp only [hread, ← hes]
  rw [if_neg (not_not.mpr h64), if_neg (Bool.eq_false_iff.mp hgood), if_neg (by omega)]
  rfl

/-! ### Queues and the pair (R603, R604, R606) -/

section Queues
variable (h8 : eBits e 8 8 8 = 1)
include h8

theorem execWdeSqueue_starts (ha : s.accepts p 0x64 [] [(8, 3, 0), (8, 8, 8), (8, 23, 16), (0xC, 3, 0), (0x10, 47, 0)] true e)
    (hq : q = Fin.ofNat 16 (eBits e 8 3 0)) (hf : f = Fin.ofNat 256 (eBits e 8 23 16)) (hn4 : 4 ≤ eBits e 0xC 3 0)
    (hn12 : eBits e 0xC 3 0 ≤ 12) (h16 : eAddr e 0x10 % 16 = 0) (hy : s.wflow f = some y) :
    exec (.wdeSqueue p) s = .next ((s.setWsq q ⟨1, f, eBits e 0xC 3 0, eAddr e 0x10, 0, 0, []⟩).complete p 0 0 0 0) := by
  subst hq hf
  refine congrArg Host.Outcome.next ((State.command_accepts ha _).trans ((if_neg (by omega)).trans ((if_neg (by omega)).trans ?_)))
  simp only [hy]
  rfl

theorem execWdeRqueue_starts (ha : s.accepts p 0x65 [] [(8, 5, 0), (8, 8, 8), (8, 18, 16), (8, 27, 24), (0xC, 11, 0), (0x10, 47, 0),
      (0x18, 13, 0), (0x18, 29, 16)] true e) (hr : r = Fin.ofNat 64 (eBits e 8 5 0)) (hc : ctx = BitVec.ofNat 12 (eBits e 0xC 11 0))
    (hn4 : 4 ≤ eBits e 8 27 24) (hn12 : eBits e 8 27 24 ≤ 12) (h16 : eAddr e 0x10 % 16 = 0) (hl : ctx ≠ 0 → s.ctxLive ctx = true)
    (hm : s.mayUse p ctx = true) : exec (.wdeRqueue p) s = .next ((s.setWrq r
      { st := 1, ctx := ctx, cls := Fin.ofNat 8 (eBits e 8 18 16), n := eBits e 8 27 24, base := eAddr e 0x10, next := 0,
        lo := BitVec.ofNat 14 (eBits e 0x18 13 0), hi := BitVec.ofNat 14 (eBits e 0x18 29 16) }).complete p 0 0 0 0) := by
  subst hr hc
  exact congrArg Host.Outcome.next ((State.command_accepts ha _).trans ((if_neg (by omega)).trans ((if_neg (by omega)).trans
    (State.withCtx_accepts hl hm _ _))))

theorem execWdePair_sets (ha : s.accepts p 0x66 [] [(8, 8, 8), (8, 3, 0), (0xC, 13, 0)] true e) (hm : eBits e 8 3 0 ≠ 0)
    (hp : BitVec.ofNat 14 (eBits e 0xC 13 0) ≠ s.wdeId) : exec (.wdePair p) s = .next ((s.setWde { s.wde with
      pair := ⟨true, BitVec.ofNat 14 (eBits e 0xC 13 0), eBits e 8 3 0, false, false, 0, 0, false, 0⟩ }).complete p 0 0 0 0) :=
  congrArg Host.Outcome.next ((State.command_accepts ha _).trans ((if_neg (by omega)).trans ((if_neg (not_or.mpr ⟨hm, hp⟩)).trans rfl)))

end Queues

section Stopped
variable (h8 : eBits e 8 8 8 = 0)
include h8

theorem execWdeSqueue_stops (ha : s.accepts p 0x64 [] [(8, 3, 0), (8, 8, 8), (8, 23, 16), (0xC, 3, 0), (0x10, 47, 0)] true e)
    (hq : q = Fin.ofNat 16 (eBits e 8 3 0)) :
    exec (.wdeSqueue p) s = .next ((s.setWde { s.wde with sqs := s.wde.sqs.erase q }).complete p 0 0 0 0) := by
  subst hq
  exact congrArg Host.Outcome.next ((State.command_accepts ha _).trans ((if_pos h8).trans rfl))

theorem execWdeRqueue_stops (ha : s.accepts p 0x65 [] [(8, 5, 0), (8, 8, 8), (8, 18, 16), (8, 27, 24), (0xC, 11, 0), (0x10, 47, 0),
      (0x18, 13, 0), (0x18, 29, 16)] true e) (hr : r = Fin.ofNat 64 (eBits e 8 5 0)) :
    exec (.wdeRqueue p) s = .next ((s.setWde { s.wde with rqs := s.wde.rqs.erase r }).complete p 0 0 0 0) := by
  subst hr
  exact congrArg Host.Outcome.next ((State.command_accepts ha _).trans ((if_pos h8).trans rfl))

theorem execWdePair_ends (ha : s.accepts p 0x66 [] [(8, 8, 8), (8, 3, 0), (0xC, 13, 0)] true e) :
    exec (.wdePair p) s = .next ((s.setWde { s.wde with pair := WoadeState.reset.pair }).complete p 0 0 0 0) :=
  congrArg Host.Outcome.next ((State.command_accepts ha _).trans ((if_pos h8).trans rfl))

end Stopped
end WoadeRing

/-- Settles O45: each clause is the completion of one command, stated above for it. -/
theorem woadeRingCommandsComplete : Obligations.WoadeRingCommandsComplete := by
  unfold Obligations.WoadeRingCommandsComplete
  exact fun p e n f q r ctx y bs s u => ⟨execWdeTopo_sets,
    fun ha hn => ⟨fun h8 => ⟨execWdePort_stopsUp ha hn h8, execWdePort_stops ha hn h8⟩, execWdePort_trains ha hn, execWdePort_isUp ha hn⟩,
    fun ha hf h255 hc => ⟨execWdeFlow_removes ha hf h255, execWdeFlow_sets ha hf h255 hc⟩,
    fun _ => execWdeSched_sets,
    fun ha hq hf => ⟨fun h8 => execWdeSqueue_stops h8 ha hq, fun h8 => execWdeSqueue_starts h8 ha hq hf⟩,
    fun ha hr hc => ⟨fun h8 => execWdeRqueue_stops h8 ha hr, fun h8 hn4 hn12 h16 hl hm =>
      ⟨_, execWdeRqueue_starts h8 ha hr hc hn4 hn12 h16 hl hm, rfl, rfl, rfl, rfl, rfl, rfl, rfl⟩⟩,
    fun ha => ⟨fun h8 => execWdePair_ends h8 ha, fun h8 => execWdePair_sets h8 ha⟩⟩

end Sys2Proof.Machine
end

section
/-! PROOFS. Completion of the link commands of the message fabric, and what a port sends in a slot (O44). -/

namespace Sys2Proof.Machine

/-! ### What a port sends in a slot (R595, R599) -/

@[simp] theorem State.wport_setWport_same (s : State) (p : Fin 8) (x : WPort) : (s.setWport p x).wport p = x := by
  simp [State.wport, State.setWport, State.setWde]

theorem State.wport_count (s : State) (p : Fin 8) (b : Blk) (i off n : Nat) : (s.count b i off n).wport p = s.wport p := rfl

/-- Messages give no more flits than they are asked for. -/
theorem takeFlits_length (now : Nat) (mk : WMsg → Nat → Flit) (l : List WMsg) (k : Nat) : (takeFlits now mk l k).2.2.length ≤ k := by
  induction l generalizing k with
  | nil => exact Nat.zero_le k
  | cons m t ih =>
    rw [takeFlits]
    split
    · exact Nat.zero_le k
    · split
      next hle =>
        rw [List.length_append, List.length_map, List.length_range]
        exact (Nat.add_le_add_left (ih (k - m.left)) _).trans (by omega)
      next => simp

theorem State.sendFlits_length (s : State) (f : Fin 256) (n : Nat) (sched : Bool) (vc : Fin 2) : (s.sendFlits f n sched vc).2.length ≤ n := by
  unfold State.sendFlits
  split
  · exact Nat.zero_le n
  · exact takeFlits_length ..

theorem takeTransit_length (p : Fin 8) (l : List (Fin 8 × Flit)) (n : Nat) (r : VcRoom) : (takeTransit p l n r).2.1.length ≤ n := by
  induction l generalizing n r with
  | nil => exact Nat.zero_le n
  | cons e t ih =>
    rw [takeTransit]
    split
    next hgo =>
      rw [List.length_cons]
      exact (Nat.add_le_add_right (ih (n - 1) (r.less e.2.vc 1)) 1).trans (by omega)
    next => exact ih n r

/-- A fold keeps what each of its steps keeps. -/
theorem foldl_invariant {α β : Type} {P : α → Prop} {f : α → β → α} (h : ∀ a b, P a → P (f a b)) (l : List β) {a : α} (ha : P a) :
    P (l.foldl f a) := by
  induction l generalizing a with
  | nil => exact ha
  | cons b t ih => exact ih (h a b ha)

/-- Unscheduled traffic fills what scheduled traffic leaves of a slot, and no more. -/
theorem State.sendUnscheduled_length (s : State) (p : Fin 8) (n : Nat) (room : VcRoom) : (s.sendUnscheduled p n room).2.1.length ≤ n := by
  unfold State.sendUnscheduled
  generalize List.finRange 256 = l
  refine foldl_invariant (P := fun r : State × List Flit × VcRoom => r.2.1.length ≤ n) (fun r f hr => ?_) l (takeTransit_length p _ n room)
  split
  next => exact hr
  next x _ =>
    refine iteInduction (motive := fun r : State × List Flit × VcRoom => r.2.1.length ≤ n) (fun _ => ?_) (fun _ => hr)
    show (r.2.1 ++ _).length ≤ n
    rw [List.length_append]
    refine (Nat.add_le_add_left ((State.sendFlits_length ..).trans (Nat.min_le_left ..)) _).trans ?_
    omega

/-- The scheduled flits of a port in a slot: the transit flits that its entry names, or those of its local flow. -/
def State.slotFlits (s : State) (p : Fin 8) (j : Nat) (arrived : List (Fin 8 × Flit)) : State × List Flit :=
  match s.wentry p j with
  | some e =>
    if (s.wport p).suspended then (s, [])
    else if e.transit then (s, ((arrived.filter (fun (a : Fin 8 × Flit) => a.1 == e.inport && a.2.flow == e.flow)).map (·.2)).take 96)
    else s.sendFlits e.flow 96 true 0
  | none => (s, [])

theorem State.slotFlits_length (s : State) (p : Fin 8) (j : Nat) (arrived : List (Fin 8 × Flit)) : (s.slotFlits p j arrived).2.length ≤ 96 := by
  unfold State.slotFlits
  split
  · split
    · exact Nat.zero_le 96
    · split
      · exact List.length_take_le ..
      · exact s.sendFlits_length ..
  · exact Nat.zero_le 96

/-- What a slot leaves of a port that sent `fs` from its schedule, and `sent.2.1` besides, with room for `sent.2.2` more. -/
def slotSent (p : Fin 8) (j stamp : Nat) (fs : List Flit) (sent : State × List Flit × VcRoom) : State :=
  let x := sent.1.wport p
  let m : Option Maint := if j = 0 then some ⟨stamp, x.got, sent.1.heartbeat p⟩ else x.maint
  (sent.1.setWport p { x with
    cred := (Nat.min 64 (64 - sent.2.2.1), Nat.min 64 (64 - sent.2.2.2)), maint := m, out := fs ++ sent.2.1,
    replay := (sent.2.1.reverse ++ x.replay).take 256 }).countTx p ((if j = 0 then 1 else 0) + fs.length + sent.2.1.length)

theorem wport_slotSent (p : Fin 8) (j stamp : Nat) (fs : List Flit) (sent : State × List Flit × VcRoom) :
    ((slotSent p j stamp fs sent).wport p).out = fs ++ sent.2.1 ∧
      ((slotSent p j stamp fs sent).wport p).cred = (Nat.min 64 (64 - sent.2.2.1), Nat.min 64 (64 - sent.2.2.2)) := by
  simp [slotSent, State.countTx, State.wport_count]

/-- A port that is up serves its schedule first; unscheduled traffic has what is left of 96 flits, one of them maintenance in slot 0. -/
theorem State.portSlot_up {s : State} {p : Fin 8} (hup : s.wportUp p = true) (j stamp : Nat) (back : Nat × Nat) (arrived : List (Fin 8 × Flit)) :
    ∃ room, s.portSlot p j stamp back arrived = slotSent p j stamp (s.slotFlits p j arrived).2
      ((s.slotFlits p j arrived).1.sendUnscheduled p (96 - (if j = 0 then 1 else 0) - (s.slotFlits p j arrived).2.length) room) := by
  refine ⟨(64 - ((s.slotFlits p j arrived).1.wport p).cred.1 + back.1, 64 - ((s.slotFlits p j arrived).1.wport p).cred.2 + back.2), ?_⟩
  unfold State.portSlot
  rw [if_neg (by rw [hup]; decide)]
  generalize State.sendUnscheduled = send
  rfl

/-- A port that is up sends at most 96 flits in a slot, and at most 64 of each channel are without a credit. -/
theorem State.portSlot_bounds {s : State} {p : Fin 8} (hup : s.wportUp p = true) (j stamp : Nat) (back : Nat × Nat)
    (arrived : List (Fin 8 × Flit)) : ((s.portSlot p j stamp back arrived).wport p).out.length ≤ 96 ∧
      ((s.portSlot p j stamp back arrived).wport p).cred.1 ≤ 64 ∧ ((s.portSlot p j stamp back arrived).wport p).cred.2 ≤ 64 := by
  obtain ⟨room, hslot⟩ := State.portSlot_up hup j stamp back arrived
  have hfs := s.slotFlits_length p j arrived
  have hmore := (s.slotFlits p j arrived).1.sendUnscheduled_length p (96 - (if j = 0 then 1 else 0) - (s.slotFlits p j arrived).2.length) room
  rw [hslot]
  generalize State.sendUnscheduled _ _ _ _ = sent at hmore ⊢
  obtain ⟨hout, hcred⟩ := wport_slotSent p j stamp (s.slotFlits p j arrived).2 sent
  rw [hout, hcred, List.length_append]
  exact ⟨by omega, Nat.min_le_left .., Nat.min_le_left ..⟩

section Links
variable {p : Fin 8} {q : Fin 16} {f : Fin 256} {n : Nat} {src : Src} {x : Flit} {m : WRx} {t : List WRx} {fl : WFlow} {offset : Int} {h : Heartbeat}
  {mt : Maint} {back : List (Nat × Nat)} {even odd : Fin 5} {s u w : State}

/-! ### Rounds and slots (R595 to R598) -/

/-- The pending schedule takes effect when its round has come. -/
def State.scheduleDue (s : State) : State :=
  match s.wde.pending with
  | some (n, tab) =>
    if 0 ≤ (BitVec.ofNat 32 s.roundNow - n).toInt then
      (s.setWde { s.wde with sched := tab, pending := none }).setReg .wde 0 Reg.WDE_NEXTRND 0xFFFFFFFF
    else s
  | none => s

/-- The round is that of the device's time domain, which WDE_TOPO names. -/
theorem State.roundNow_setReg (s : State) {off : Nat} (h : Reg.WDE_TOPO ≠ off) (v : Word) : (s.setReg .wde 0 off v).roundNow = s.roundNow := by
  have hdom : (s.setReg .wde 0 off v).wdeDomain = s.wdeDomain := by rw [State.wdeDomain, State.fld, State.reg_setReg_off _ _ _ _ h]; rfl
  rw [State.roundNow, State.slotTime, hdom]
  rfl

theorem State.scheduleDue_roundNow (s : State) : s.scheduleDue.roundNow = s.roundNow := by
  unfold State.scheduleDue
  split
  · split
    · exact State.roundNow_setReg _ (by decide) _
    · rfl
  · rfl

theorem execWoadeRoundStart_eq (hup : s.wdeUp = true) (hr : s.roundNow ≠ s.wde.round) : exec .woadeRoundStart s = .next (
    (s.scheduleDue.setWde { s.scheduleDue.wde with
      round := s.scheduleDue.roundNow, slot := 1024,
      ports := s.scheduleDue.wde.ports.map (fun (e : Fin 8 × WPort) => (e.1, { e.2 with suspended := e.2.susNext })) }).setReg .wde 0 Reg.WDE_ROUND
        (BitVec.ofNat 32 s.scheduleDue.roundNow)) := by
  refine congrArg Host.Outcome.next ((if_neg (by simp [hup, hr])).trans ?_)
  unfold State.scheduleDue
  cases s.wde.pending with
  | none => rfl
  | some x => simp only [decide_eq_true_eq]; rfl

/-- A new round begins before its slot 0, under the schedule that is due. -/
theorem execWoadeRoundStart_starts (hup : s.wdeUp = true) (hr : s.roundNow ≠ s.wde.round) :
    ∃ t, exec .woadeRoundStart s = .next t ∧ t.wde.round = s.roundNow ∧ t.wde.slot = 1024 ∧
      (∀ a b, s.wde.pending = some (a, b) →
        (0 ≤ (BitVec.ofNat 32 s.roundNow - a).toInt → t.wde.sched = b ∧ t.wde.pending = none) ∧
        ((BitVec.ofNat 32 s.roundNow - a).toInt < 0 → t.wde.sched = s.wde.sched ∧ t.wde.pending = s.wde.pending)) := by
  refine ⟨_, execWoadeRoundStart_eq hup hr, s.scheduleDue_roundNow, rfl, fun a b hp => ?_⟩
  simp only [State.setReg_wde, State.setWde, State.scheduleDue, hp]
  refine ⟨fun hdue => ?_, fun hearly => ?_⟩
  · rw [if_pos hdue]
    exact ⟨rfl, rfl⟩
  · rw [if_neg (Int.not_le.mpr hearly)]
    exact ⟨rfl, hp⟩

theorem execWoadeSlotStart_serves {j : Nat} {arr : List (Fin 8 × Flit)} (hj : j = s.slotNow) (harr : arr = s.wde.arrived) (hup : s.wdeUp = true)
    (hr : s.roundNow = s.wde.round) (hnew : j ≠ s.wde.slot) (hu : u = s.setWde { s.wde with slot := j, arrived := [] })
    (hw : w = (if j = 1 then u.heartbeatRound else u)) :
    exec (.woadeSlotStart back) s = .next ((List.finRange 8).foldl (fun (s : State) (p : Fin 8) =>
      s.portSlot p j s.slotTime (back.getD p (0, 0)) arr) (arr.foldl (fun (s : State) a => s.sortArrival j a) w)) := by
  subst hw hu harr hj
  exact congrArg Host.Outcome.next (if_neg (by simp [hup, hr, hnew]))

/-! ### Maintenance (R596, R606) -/

theorem State.linkCheck_near (hw : w = u.setReg .wdp p Reg.WDP_SKEWp (BitVec.ofInt 32 offset)) (hn : offset.natAbs ≤ 30) :
    u.linkCheck p offset = w.setWport p { u.wport p with
      good := (u.wport p).good + 1, susNext := (u.wport p).susNext && decide ((u.wport p).good + 1 < 4) } := by
  subst hw
  exact if_neg (Nat.not_lt.mpr hn)

theorem State.linkCheck_far (hw : w = u.setReg .wdp p Reg.WDP_SKEWp (BitVec.ofInt 32 offset)) (hf : 30 < offset.natAbs) :
    u.linkCheck p offset = (w.setWport p { u.wport p with good := 0, susNext := true }).wdeRaise 3 p 0 := by
  subst hw
  exact if_pos hf

section Maintained
variable (hup : s.wportUp p = true)
include hup

/-- What a maintenance flit from the partner does, when it echoes a stamp. -/
theorem execMaintenanceFlit_echo {sent echoed : Nat} (he : mt.echo = some (sent, echoed)) (hh : mt.hb = none)
    (hu : u = (s.setWport p { s.wport p with got := some (mt.stamp, s.slotTime) }).count .wdp p Reg.WDP_RXFLITp 1)
    (ho : offset = linkOffset sent echoed mt.stamp u.slotTime) : exec (.maintenanceFlit p mt) s = .next (u.linkCheck p offset) := by
  subst ho hu
  refine congrArg Host.Outcome.next ((if_neg (by rw [hup]; decide)).trans ?_)
  simp only [he, hh]

/-- A good heartbeat on a pair port counts as seen and gives the partner's word. -/
theorem execMaintenanceFlit_heartbeat (h6 : 6 ≤ p.val) (he : mt.echo = none) (hh : mt.hb = some h) (hen : s.wde.pair.enabled = true)
    (hdev : h.dev = s.wde.pair.partner) (hrdy : h.ready = true) (hpkg : h.pkg.toNat = pkREADY) :
    ∃ t, exec (.maintenanceFlit p mt) s = .next t ∧ t.wde.pair.seen = true ∧ t.wde.pair.count = 0 ∧
      t.wde.pair.good = s.wde.pair.good ∧ t.reg .wde 0 Reg.WDE_PARTNERWORD = h.word := by
  let u := (s.setWport p { s.wport p with got := some (mt.stamp, s.slotTime) }).count .wdp p Reg.WDP_RXFLITp 1
  have hgood : (h.ready && h.pkg.toNat == pkREADY) = true := by rw [hrdy, hpkg]; decide
  have hmine : ¬((!u.wde.pair.enabled || decide (p.val < 6) || h.dev != u.wde.pair.partner) = true) := by
    simp [show u.wde.pair = s.wde.pair from rfl, hen, hdev, h6]
  refine ⟨(u.setWde { u.wde with pair := { s.wde.pair with pkg := h.pkg, seen := true, count := 0 } }).setReg .wde 0 Reg.WDE_PARTNERWORD h.word,
    congrArg Host.Outcome.next ((if_neg (by rw [hup]; decide)).trans ?_), rfl, rfl, rfl, State.reg_setReg_same ..⟩
  simp only [he, hh, hgood]
  exact (if_neg hmine).trans rfl

/-! ### Flits (R594, R597, R607, R608) -/

section Lost
variable {l : List Nat} (hu : u = (s.count .wdp p Reg.WDP_FECUEp 1).wdeRaise 1 p 0) (hl : l = (u.now :: (u.wport p).lostAt).take 16)
  (hw : w = u.setWport p { u.wport p with lostAt := l })
include hu hl hw

theorem execWoadeFlitReceive_lost : exec (.woadeFlitReceive p .lost) s = .next (match l[15]? with
    | some t => if w.now ≤ t + 10000 then w.wportDown p else w
    | none => w) := by
  subst hw hl hu
  exact congrArg Host.Outcome.next ((if_neg (by rw [hup]; decide)).trans rfl)

theorem execWoadeFlitReceive_lostFew (hlen : l.length < 16) : exec (.woadeFlitReceive p .lost) s = .next w := by
  rw [execWoadeFlitReceive_lost hup hu hl hw, List.getElem?_eq_none (by omega)]

/-- The sixteenth frame lost within 10 µs takes the port down. -/
theorem execWoadeFlitReceive_lostSixteen {t : Nat} (ht : l[15]? = some t) (hnow : w.now ≤ t + 10000) :
    exec (.woadeFlitReceive p .lost) s = .next (w.wportDown p) := by
  rw [execWoadeFlitReceive_lost hup hu hl hw, ht]
  exact congrArg Host.Outcome.next (if_pos hnow)

end Lost

theorem execWoadeFlitReceive_replay {k : Fin 256} (hk : (s.wport p).replay[k.val]? = some x) : exec (.woadeFlitReceive p (.replay k)) s =
    .next (((s.setWport p { s.wport p with out := (s.wport p).out ++ [x] }).count .wdp p Reg.WDP_REPLAYp 1).countTx p 1) := by
  refine congrArg Host.Outcome.next ((if_neg (by rw [hup]; decide)).trans ?_)
  simp only [hk]

section Arrives
variable (hn : n = even.val + odd.val) (hu : u = (if n = 0 then s.count .wdp p Reg.WDP_RXFLITp 1
  else ((s.count .wdp p Reg.WDP_RXFLITp 1).count .wdp p Reg.WDP_FECCp n).wdeRaise 0 p 0))
include hn hu

/-- Where a flit goes once it and its corrections have been counted. -/
theorem execWoadeFlitReceive_counts : exec (.woadeFlitReceive p (.flit even odd x)) s = .next (
    if x.dst = u.wdeId then u.joinFlit p x
    else if x.sched then u.setWde { u.wde with arrived := u.wde.arrived ++ [(p, x)] }
    else match u.wdeRoute x.dst with
      | .port o => if u.wportUp o then u.setWde { u.wde with transit := u.wde.transit ++ [(o, { x with vc := u.wdeVc o x.vc })] } else u
      | _ => u.wdeRaise 8 p 0) := by
  subst hu hn
  exact congrArg Host.Outcome.next ((if_neg (by rw [hup]; decide)).trans rfl)

theorem execWoadeFlitReceive_joins (hd : x.dst = u.wdeId) : exec (.woadeFlitReceive p (.flit even odd x)) s = .next (u.joinFlit p x) := by
  rw [execWoadeFlitReceive_counts hup hn hu, if_pos hd]

theorem execWoadeFlitReceive_waits (hd : x.dst ≠ u.wdeId) (hs : x.sched = true) : exec (.woadeFlitReceive p (.flit even odd x)) s =
    .next (u.setWde { u.wde with arrived := u.wde.arrived ++ [(p, x)] }) := by
  rw [execWoadeFlitReceive_counts hup hn hu, if_neg hd, if_pos hs]

theorem execWoadeFlitReceive_goesOn {o : Fin 8} (hd : x.dst ≠ u.wdeId) (hs : x.sched = false) (hr : u.wdeRoute x.dst = .port o)
    (ho : u.wportUp o = true) : exec (.woadeFlitReceive p (.flit even odd x)) s =
      .next (u.setWde { u.wde with transit := u.wde.transit ++ [(o, { x with vc := u.wdeVc o x.vc })] }) := by
  rw [execWoadeFlitReceive_counts hup hn hu, if_neg hd, if_neg (Bool.eq_false_iff.mp hs), hr]
  exact congrArg Host.Outcome.next (if_pos ho)

end Arrives
end Maintained

theorem State.wport_wportOff (s : State) (p : Fin 8) (st : Nat) : (s.wportOff p st).wport p = { WPort.reset with
    st := st, suspended := ((s.restartWaits p).wport p).suspended, susNext := ((s.restartWaits p).wport p).susNext, since := s.now, downAt := s.now } :=
  State.wport_setWport_same ..

/-! ### Messages (R600, R604) -/

/-- A message as it arrived: its words, its destination queue, its source, its flow and its sequence number. -/
def WRx.word (m : WRx) (o : Nat) : Word := BitVec.ofNat 32 (leNat ((m.bytes.drop o).take 4))
def WRx.len (m : WRx) : Nat := bitsOf (m.word 4) 12 0
def WRx.data (m : WRx) : List Byte := (m.bytes.drop 16).take m.len
def WRx.queue (m : WRx) : Fin 64 := Fin.ofNat 64 (bitsOf (m.word 4) 21 16)
def WRx.source (m : WRx) : BitVec 14 := BitVec.ofNat 14 (bitsOf (m.word 0) 29 16)
def WRx.flow (m : WRx) : Fin 256 := Fin.ofNat 256 (bitsOf (m.word 4) 31 24)
def WRx.seq (m : WRx) : BitVec 16 := BitVec.ofNat 16 (bitsOf (m.word 8) 15 0)
def WRx.whole (m : WRx) : Bool := decide (16 + m.len ≤ m.bytes.length) && crc32c (m.bytes.take 12 ++ m.data) == m.word 0xC

section Arrived
variable (hm : s.wde.ready = m :: t) (hu : u = s.setWde { s.wde with ready := t })
include hm hu

theorem execWoadeMessageReceive_takes : exec .woadeMessageReceive s = .next (
    if m.bytes.length < 16 then u
    else if !m.whole then (u.msgLost m.queue 1 m.port).seqSkip m.source m.flow m.seq
    else
      let r := u.seqCheck m.source m.flow m.seq
      (if r.2 = 0 then r.1 else r.1.msgLost m.queue r.2 m.port).rqDeliver m.queue m.source m.data m) := by
  subst hu
  show execWoadeMessageReceive s = _
  simp only [execWoadeMessageReceive, hm]
  rfl

theorem execWoadeMessageReceive_short (hlen : m.bytes.length < 16) : exec .woadeMessageReceive s = .next u := by
  rw [execWoadeMessageReceive_takes hm hu, if_pos hlen]

theorem execWoadeMessageReceive_cut (h16 : 16 ≤ m.bytes.length) (hcut : m.bytes.length < 16 + m.len) :
    exec .woadeMessageReceive s = .next ((u.msgLost m.queue 1 m.port).seqSkip m.source m.flow m.seq) := by
  have hpart : m.whole = false := by rw [WRx.whole, decide_eq_false (Nat.not_le.mpr hcut), Bool.false_and]
  rw [execWoadeMessageReceive_takes hm hu, if_neg (Nat.not_lt.mpr h16), hpart]
  rfl

theorem execWoadeMessageReceive_delivers (h16 : 16 ≤ m.bytes.length) (hall : 16 + m.len ≤ m.bytes.length)
    (hcrc : crc32c (m.bytes.take 12 ++ m.data) = m.word 0xC) (hseq : u.seqCheck m.source m.flow m.seq = (w, 0)) :
    exec .woadeMessageReceive s = .next (w.rqDeliver m.queue m.source m.data m) := by
  have hwhole : m.whole = true := by rw [WRx.whole, decide_eq_true hall, hcrc, Bool.true_and, beq_self_eq_true]
  rw [execWoadeMessageReceive_takes hm hu, if_neg (Nat.not_lt.mpr h16), hwhole, hseq]
  rfl

end Arrived

theorem execWoadeSendWriteback_writes {y : WSq} {err : Nat} {stamp : Word} {t : List (Nat × Word)} {d : List Byte} {a : Nat}
    (hy : s.wde.sqs.get? q = some y) (hd : y.done = (err, stamp) :: t) (hf : s.wflow y.flow = some fl)
    (ha : a = y.base + y.wb % 2 ^ y.n * 16) (hread : s.unitRead (s.wdeSrc fl.ctx fl.cls) a 16 = (u, some d))
    (hwrite : u.unitWriteOk (s.wdeSrc fl.ctx fl.cls) a (d.take 8 ++
      leBytes 4 (bitsOf (BitVec.ofNat 32 (leNat ((d.drop 8).take 4))) 29 29 * 2 ^ 29 + bitsOf (BitVec.ofNat 32 (leNat ((d.drop 8).take 4))) 30 30 * 2 ^ 30 +
        (if err = 0 then 0 else 2 ^ 28 + err * 2 ^ 24)) ++ leBytes 4 (if err = 0 then stamp.toNat else 0)) = (w, true)) :
    exec (.woadeSendWriteback q) s = .next (if bitOf (BitVec.ofNat 32 (leNat ((d.drop 8).take 4))) 29
      then (w.setWsq q { y with wb := y.wb + 1, done := t }).setFld .wde 0 (Reg.WDE_SQPENDq q) 0 0 1
      else w.setWsq q { y with wb := y.wb + 1, done := t }) := by
  subst ha
  show execWoadeSendWriteback q s = _
  simp only [execWoadeSendWriteback, hy, hd, hf, hread, hwrite]

/-! ### Ports (R599, R606, R608) -/

section Ports
variable (hup : s.wdeUp = true)
include hup

theorem execWoadePortUp_up (hst : (s.wport p).st = 1) : exec (.woadePortUp p) s = .next (s.setWport p { s.wport p with st := 2 }) :=
  congrArg Host.Outcome.next (if_pos (by simp [hup, hst]))

theorem execWoadeTrainTimeout_times (hst : (s.wport p).st = 1) (ht : (s.wport p).since + 30000000 ≤ s.now) :
    exec (.woadeTrainTimeout p) s = .next ((s.setWport p { s.wport p with st := 3, since := s.now }).wdeRaise 7 p 0) :=
  congrArg Host.Outcome.next (if_pos (by simp [hup, hst, ht]))

theorem execWoadeTrainRetry_retries (hst : (s.wport p).st = 3) (ht : (s.wport p).since + 1000000000 ≤ s.now) :
    exec (.woadeTrainRetry p) s = .next (s.setWport p { s.wport p with st := 1, since := s.now }) :=
  congrArg Host.Outcome.next (if_pos (by simp [hup, hst, ht]))

section Discard
variable {g : WMsg} {t : List WMsg} (hf : s.wflow f = some fl) (hb : fl.buf = g :: t)
include hf hb

theorem execWoadeMessageDiscard_waited (hr : s.wdeRoute fl.dev = .port p) (hw : g.wait + 1000000 ≤ s.now)
    (hp : s.wportUp p = false ∨ fl.sched = false) :
    exec (.woadeMessageDiscard f) s = .next (((s.setWflow f { fl with buf := t }).count .wdp p Reg.WDP_XMITDROPp 1).sqEnd g.sq 4) := by
  show execWoadeMessageDiscard f s = _
  simp only [execWoadeMessageDiscard, hf, hr, hb]
  refine congrArg Host.Outcome.next (if_pos ?_)
  obtain h | h := hp <;> simp [hup, hw, h]

theorem execWoadeMessageDiscard_nowhere (hr : s.wdeRoute fl.dev = .nowhere) :
    exec (.woadeMessageDiscard f) s = .next ((s.setWflow f { fl with buf := t }).sqEnd g.sq 3) := by
  show execWoadeMessageDiscard f s = _
  simp only [execWoadeMessageDiscard, hf, hr, hb]
  exact congrArg Host.Outcome.next (if_pos hup)

end Discard

theorem execPartnerLoss_lost (hdown : ∀ r : Fin 8, 6 ≤ r.val → (s.wport r).st ≠ 2 ∧ (s.wport r).downAt + 100000 ≤ s.now)
    (hen : s.wde.pair.enabled = true) (hl : s.wde.pair.lost = false) :
    exec .partnerLoss s = .next ((s.setWde { s.wde with pair := { s.wde.pair with lost := true, alive := false } }).wdeRaise 6 0 0) := by
  obtain ⟨h6, ht6⟩ := hdown 6 (by decide)
  obtain ⟨h7, ht7⟩ := hdown 7 (by decide)
  exact congrArg Host.Outcome.next ((if_pos (by simp [hup, h6, ht6, h7, ht7])).trans (if_neg (by simp [hen, hl])))

end Ports
end Links

/-- Settles O44: each clause is the completion of one command, stated above for it; the bounds of a slot are those of `portSlot_bounds`. -/
theorem woadeLinkCommandsComplete : Obligations.WoadeLinkCommandsComplete := by
  unfold Obligations.WoadeLinkCommandsComplete
  refine fun p q f n src x m t fl offset h mt back even odd s u w => ⟨execWoadeRoundStart_starts, fun _ _ => execWoadeSlotStart_serves,
    fun hup => ⟨fun sent echoed he hh hu ho hw => ?echo, execMaintenanceFlit_heartbeat hup, fun l hu hl hw =>
        ⟨execWoadeFlitReceive_lostFew hup hu hl hw, fun _ => execWoadeFlitReceive_lostSixteen hup hu hl hw⟩,
      fun _ => execWoadeFlitReceive_replay hup,
      fun hn hu => ⟨execWoadeFlitReceive_joins hup hn hu, execWoadeFlitReceive_waits hup hn hu, fun _ => execWoadeFlitReceive_goesOn hup hn hu⟩,
      congrArg Host.Outcome.next (if_pos hup), rfl, congrArg WPort.st (s.wport_wportOff p 1), congrArg WPort.cred (s.wport_wportOff p 1),
      congrArg WPort.downAt (s.wport_wportOff p 1), fun j stamp cr arr => State.portSlot_bounds hup j stamp cr arr⟩,
    fun hm hu => ⟨execWoadeMessageReceive_short hm hu, execWoadeMessageReceive_cut hm hu, fun len data h16 hlen hdata hall hcrc hseq => ?delivers⟩,
    fun hr => congrArg Host.Outcome.next (State.regCommand_reaches hr _ _ _), rfl, fun _ _ _ _ _ _ => execWoadeSendWriteback_writes,
    fun hup => ⟨execWoadePortUp_up hup, execWoadeTrainTimeout_times hup, execWoadeTrainRetry_retries hup,
      fun _ _ hf hr hb => execWoadeMessageDiscard_waited hup hf hb hr, fun _ _ hf hr hb => execWoadeMessageDiscard_nowhere hup hf hb hr,
      execPartnerLoss_lost hup⟩⟩
  case echo =>
    rw [execMaintenanceFlit_echo hup he hh hu ho]
    exact ⟨fun hn => congrArg _ (State.linkCheck_near hw hn), fun hf => congrArg _ (State.linkCheck_far hw hf)⟩
  case delivers =>
    subst hlen hdata
    exact execWoadeMessageReceive_delivers hm hu h16 hall hcrc hseq

end Sys2Proof.Machine
end

section
/-! PROOFS. Completion of the PCIe commands (O39). -/

namespace Sys2Proof.Machine

/-! ### A posted write takes no time of its own: LT and the time domains stand (R224) -/

@[simp] theorem State.raise_time (s : State) (b : Blk) (i bit addr info : Nat) : (s.raise b i bit addr info).time = s.time :=
  State.raise_leaves (g := State.time) (fun _ _ => rfl) (fun _ _ _ _ _ _ => rfl) s i bit addr info

@[simp] theorem State.count_time (s : State) (b : Blk) (i off n : Nat) : (s.count b i off n).time = s.time := rfl
@[simp] theorem State.putLine_time (s : State) (x : CLine) : (s.putLine x).time = s.time := rfl

@[simp] theorem State.writeDown_time (s : State) (x : CLine) : (s.writeDown x).time = s.time := by
  unfold State.writeDown
  dsimp only
  split
  · split <;> rfl
  · rfl

@[simp] theorem State.evict_time (s : State) (x : CLine) : (s.evict x).time = s.time := by
  unfold State.evict
  refine (State.writeDown_time ..).trans ?_
  split
  · exact foldl_leaves (g := State.time) (fun _ _ => State.writeDown_time ..) _ s
  · rfl

@[simp] theorem State.allocate_time (s : State) (c : CacheAt) (world : Bool) (a : Nat) (ways : BitVec 16) :
    (s.allocate c world a ways).time = s.time := by
  unfold State.allocate
  dsimp only
  split
  · rfl
  · split
    · rfl
    · split
      · exact State.evict_time ..
      · rfl

@[simp] theorem State.lineError_time (s : State) (pair : Nat) (x : CLine) : (s.lineError pair x).1.time = s.time := by
  unfold State.lineError
  dsimp only
  split
  · rfl
  · exact (State.raise_time ..).trans (State.loseLine_leaves (g := State.time) (fun _ _ => rfl) (fun _ _ => rfl) s x)
  · exact State.raise_time ..

/-- The lines that a write makes dirty, after every other copy outside its CPU has been written down. -/
theorem foldl_dirtyLines_time (f : State → Fin 16 → State) (hf : ∀ t k, f t k = t ∨ ∃ x, f t k = t.putLine x) (ks : List (Fin 16))
    (xs : List CLine) (s : State) : (ks.foldl f (xs.foldl (fun s x => s.writeDown x) s)).time = s.time := by
  refine (foldl_leaves (g := State.time) (fun t k => ?_) ks _).trans (foldl_leaves (g := State.time) (fun _ _ => State.writeDown_time ..) xs s)
  obtain h | ⟨x, h⟩ := hf t k <;> rw [h]
  rfl

theorem State.cachedLine_time (s : State) (src : Src) (write : Bool) (a : Nat) : (s.cachedLine src write a).1.time = s.time := by
  unfold State.cachedLine
  dsimp only
  generalize hmet : List.foldl _ (s, false) _ = met
  have hm : met.1.time = s.time := by
    subst hmet
    refine foldl_leaves (g := fun r : State × Bool => r.1.time) (fun r x => ?_) _ _
    split
    · rfl
    · split
      · exact State.lineError_time ..
      · rfl
  clear hmet
  split
  · exact hm
  · cases src.hart with
    | none =>
      dsimp only
      split
      · exact hm
      · exact (foldl_leaves (g := State.time) (fun _ _ => State.writeDown_time ..) _ _).trans hm
    | some h =>
      dsimp only
      generalize hin : (if ((met.1.allocate .shared src.world a (met.1.hartWays h src)).lineAt .shared src.world a).isSome = true then
        _ else _ : State) = t
      have ht : t.time = s.time := by
        subst hin
        split
        · refine (foldl_leaves (g := State.time) (fun t k => ?_) _ _).trans ((State.allocate_time ..).trans hm)
          rw [State.allocate_time, State.allocate_time]
        · exact (State.allocate_time ..).trans hm
      split
      · exact ht
      · refine (foldl_dirtyLines_time _ (fun t k => ?_) _ _ _).trans ht
        split
        · split
          · exact .inl rfl
          · exact .inr ⟨_, rfl⟩
        · exact .inl rfl

theorem State.cached_time (s : State) (src : Src) (a n : Nat) (write : Bool) : (s.cached src a n write).1.time = s.time := by
  unfold State.cached
  split
  · refine foldl_leaves (g := fun r : State × Bool => r.1.time) (fun _ _ => ?_) _ _
    exact State.cachedLine_time ..
  · rfl

@[simp] theorem State.shareSlot_time (s : State) (b : Blk) (i : Nat) (waiting : List (Fin 32)) : (s.shareSlot b i waiting).1.time = s.time := by
  unfold State.shareSlot
  dsimp only
  split
  · rfl
  · split
    all_goals
      refine foldl_leaves (g := State.time) (fun t e => ?_) _ s
      split
      · rfl
      · split <;> rfl

@[simp] theorem State.serveAt_time (s : State) (b : Blk) (i : Nat) (src : Src) (n slots : Nat) : (s.serveAt b i src n slots).time = s.time :=
  foldl_leaves (g := State.time) (fun _ _ => State.shareSlot_time ..) (List.range slots) s

@[simp] theorem State.cross_time (s : State) (src : Src) (a n : Nat) (write : Bool) : (s.cross src a n write).time = s.time :=
  foldl_leaves (g := State.time) (fun _ _ => State.serveAt_time ..) _ s

@[simp] theorem State.serve_time (s : State) (src : Src) (a n : Nat) (write : Bool) : (s.serve src a n write).time = s.time := by
  unfold State.serve
  split
  · exact foldl_leaves (g := State.time) (fun _ _ => State.serveAt_time ..) _ _
  · rfl

theorem State.recordEcc_time (s : State) (g : Nat) (e : EccErr) : (s.recordEcc g e).time = s.time := by
  unfold State.recordEcc
  split <;> simp [apply_ite State.time]

theorem State.rmw_time (s : State) (a n : Nat) : (s.rmw a n).1.time = s.time :=
  foldl_leaves (g := State.time) (fun _ _ => State.recordEcc_time ..) _ s

theorem State.logDirty_time (s : State) (a n : Nat) : (s.logDirty a n).time = s.time := by
  unfold State.logDirty
  split
  · split <;> rfl
  · rfl

theorem State.ignoredWrite_time (s : State) (b : Blk) (i : Nat) : (s.ignoredWrite b i).time = s.time := rfl

theorem State.dirWrite_time (s : State) (a : Nat) (bs : List Byte) : (s.dirWrite a bs).time = s.time := by
  unfold State.dirWrite
  dsimp only
  have hstore (l : List (Nat × Byte)) : State.time (l.foldl (fun s p => if hostBits p.1 = 0 then s
      else s.store p.1 [(memGet s.mem p.1 &&& ~~~(hostBits p.1)) ||| (p.2 &&& hostBits p.1)]) s) = s.time :=
    foldl_leaves (g := State.time) (fun t p => by split <;> rfl) l s
  split
  · exact (State.ignoredWrite_time ..).trans (hstore _)
  · exact hstore _

theorem State.landWrite_time (s : State) (src : Src) (a : Nat) (bs : List Byte) : (s.landWrite src a bs).1.time = s.time := by
  have hcached := (State.cached_time (s.serve src a bs.length true) src a bs.length true).trans (State.serve_time ..)
  unfold State.landWrite
  dsimp only
  generalize (s.serve src a bs.length true).cached src a bs.length true = met at hcached
  obtain ⟨t, lost⟩ := met
  dsimp only at hcached ⊢
  split
  · exact hcached
  · split
    · have hrmw := (State.rmw_time t a bs.length).trans hcached
      split
      · exact hrmw
      · exact (State.logDirty_time ..).trans hrmw
    · refine Eq.trans ?_ hcached
      split
      · exact State.dirWrite_time ..
      · rfl
    all_goals exact hcached

theorem State.recordRefusal_time (s : State) (src : Src) (a : Nat) (r : Refused) : (s.recordRefusal src a r).time = s.time := by
  unfold State.recordRefusal
  split
  · exact State.raise_time ..
  · exact State.raise_time ..
  · unfold State.secViol
    dsimp only
    split
    · exact State.raise_time ..
    · exact State.raise_time ..
  · dsimp only
    split <;> rfl
  · rfl

theorem State.putCore_time (s : State) (c : CoreId) (x : CoreState) : (s.putCore c x).time = s.time := by
  refine foldl_leaves (g := State.time) (fun _ _ => ?_) _ s
  rfl

theorem State.pwFail_time (s : State) (src : Src) (a code : Nat) (target : Fin 8) : (s.pwFail src a code target).time = s.time := by
  have hrec := s.pwRecord_leaves src a code target (g := State.time) (fun _ _ => rfl) (fun _ _ => rfl) (fun _ _ _ _ _ => rfl)
  rw [State.pwFail_eq]
  unfold State.pwCount
  split
  · rw [State.putCore_time, hrec]
  · exact hrec
  · exact hrec

theorem State.unitWrite_time (s : State) (src : Src) (a : Nat) (bs : List Byte) : (s.unitWrite src a bs).time = s.time := by
  have hcross := State.cross_time s src a bs.length true
  unfold State.unitWrite State.unitWriteOk
  dsimp only
  generalize s.cross src a bs.length true = t at hcross
  split
  · exact (State.pwFail_time ..).trans ((State.recordRefusal_time ..).trans hcross)
  · have hland := (State.landWrite_time t src a bs).trans hcross
    split
    · next ht => rwa [ht] at hland
    · next ht =>
      rw [ht] at hland
      exact (State.pwFail_time ..).trans hland

section Pcie
variable {src : Src} {a : Addr} {len id : Nat} {data : List Byte} {reply : Option (List Byte)} {p : Fin 64} {e : BitVec 512} {w : Fin 8} {n : Fin 17}
  {s u : State}

/-! ### Outbound (R512, R540) -/

/-- An access that has a tracker, its slots and its credits leaves its die. -/
theorem State.sendPci_crosses {isRead : Bool} {m : Nat} (ht : s.trackerFree isRead src a.toNat = true)
    (hc : s.mayCross src a.toNat m (!isRead) = true) (hk : s.takeCredits src a.toNat (flits (!isRead) m) = some u) :
    s.sendPci isRead src a.toNat m data = (u.cross src a.toNat m (!isRead)).addTx isRead src a.toNat m data none 8 := by
  refine (if_neg (by rw [ht, hc]; decide)).trans ?_
  simp only [hk]

section Outbound
variable (hpci : s.isPci a.toNat = true)
include hpci

theorem execPcieOutboundRequest_read (hy : s.gw.pciYield = false) (hr : s.refusal src a.toNat len false = none)
    (h256 : (s.pciTx true).length < 256) (ht : s.trackerFree true src a.toNat = true) (hc : s.mayCross src a.toNat len false = true)
    (hk : s.takeCredits src a.toNat (flits false len) = some u) : exec (.pcieOutboundRequest src a true len data reply) s =
      .next ((u.cross src a.toNat len false).addTx true src a.toNat len ((reply.getD []).take len) none 8) := by
  refine congrArg Host.Outcome.next ((if_neg (by rw [hpci]; decide)).trans ?_)
  simp only [Bool.not_true, hr, if_true]
  exact (if_neg (Bool.eq_false_iff.mp hy)).trans ((if_neg (Nat.not_le.mpr h256)).trans (State.sendPci_crosses ht hc hk))

section Write
variable (hr : s.refusal src a.toNat data.length true = none) (hy : s.gw.pciYield = false)
include hr hy

theorem execPcieOutboundRequest_write (hup : s.pciUp = true) (h64 : (s.pciTx false).length < 64)
    (ht : s.trackerFree false src a.toNat = true) (hc : s.mayCross src a.toNat data.length true = true)
    (hk : s.takeCredits src a.toNat (flits true data.length) = some u) : exec (.pcieOutboundRequest src a false len data reply) s =
      .next ((u.cross src a.toNat data.length true).addTx false src a.toNat data.length data none 8) := by
  refine congrArg Host.Outcome.next ((if_neg (by rw [hpci]; decide)).trans ?_)
  simp only [Bool.not_false, Bool.false_eq_true, if_false, hr]
  exact (if_neg (Bool.eq_false_iff.mp hy)).trans ((if_neg (by rw [hup]; decide)).trans ((if_neg (Nat.not_le.mpr h64)).trans
    (State.sendPci_crosses ht hc hk)))

/-- A posted write fails at once while the link is down. -/
theorem execPcieOutboundRequest_down (hup : s.pciUp = false) :
    exec (.pcieOutboundRequest src a false len data reply) s = .next (s.pwFail src a.toNat 6 (addrDie a.toNat)) := by
  refine congrArg Host.Outcome.next ((if_neg (by rw [hpci]; decide)).trans ?_)
  simp only [Bool.not_false, Bool.false_eq_true, if_false, hr]
  exact (if_neg (Bool.eq_false_iff.mp hy)).trans (if_pos (by rw [hup]; rfl))

end Write
end Outbound

theorem execPcieCompletionTimeout_fails {t : Tx} (ht : s.txOf id = some t) (hr : t.isRead = true) (hp : s.isPci t.addr = true)
    (h50 : t.since + 50000 ≤ s.now) :
    exec (.pcieCompletionTimeout id) s = .next (((s.dropTx id).raise .pci 0 2 t.addr 0).readFailed t 6) := by
  refine congrArg Host.Outcome.next ?_
  simp only [ht]
  exact if_pos (by simp [hr, hp, h50])

theorem execPcieLinkDown_falls (hup : s.up 103 = true) (hl : s.fld .pci 0 Reg.PCI_STAT 31 28 ≠ 0) : exec .pcieLinkDown s = .next s.pciDown :=
  congrArg Host.Outcome.next (if_pos (by simp [hup, hl]))

/-! ### Inbound (R513, R541, R542) -/

section Inbound
variable (hup : s.pciUp = true)
include hup

section Read
variable (hq : s.gw.pciInQ = [])
include hq

theorem execPcieInboundRequest_readUnmapped (hw : s.pciWindow a.toNat len = none) : exec (.pcieInboundRequest a true len data false) s =
    .next { s.raise .pci 0 1 a.toNat 0 with gw := { (s.raise .pci 0 1 a.toNat 0).gw with pciIn := some (a.toNat, none) } } := by
  refine congrArg Host.Outcome.next ((if_neg (by rw [hup, hq]; decide)).trans ?_)
  simp only [Bool.false_eq_true, if_false, if_true, hw]

theorem execPcieInboundRequest_read {r : Option (List Byte)} (hw : s.pciWindow a.toNat len = some w)
    (hr : s.unitRead (s.winSrc w) a.toNat len = (u, r)) : exec (.pcieInboundRequest a true len data false) s =
      .next { u with gw := { u.gw with pciIn := some (a.toNat, r) } } := by
  refine congrArg Host.Outcome.next ((if_neg (by rw [hup, hq]; decide)).trans ?_)
  simp only [Bool.false_eq_true, if_false, if_true, hw, hr]

end Read

section Posted
variable (h64 : s.gw.pciInQ.length < 64)
include h64

theorem execPcieInboundRequest_writeUnmapped (hw : s.pciWindow a.toNat data.length = none) :
    exec (.pcieInboundRequest a false len data false) s = .next (s.raise .pci 0 1 a.toNat 0) := by
  refine congrArg Host.Outcome.next ((if_neg (by simp [hup, h64])).trans ?_)
  simp only [Bool.false_eq_true, if_false, hw]

/-- A posted request in a window is an MSI, goes to the fabric, or waits in the port behind what it may not pass. -/
theorem execPcieInboundRequest_write (hw : s.pciWindow a.toNat data.length = some w) :
    exec (.pcieInboundRequest a false len data false) s = .next (
      if bitOf (s.winAttr w) 30 then s.msi a.toNat data
      else if s.gw.pciInQ.isEmpty && s.mayCross (s.winSrc w) a.toNat data.length true then (s.unitWrite (s.winSrc w) a.toNat data).pciProgress
      else { s with gw := { s.gw with pciInQ := s.gw.pciInQ ++ [(s.winSrc w, a.toNat, data)] } }) := by
  refine congrArg Host.Outcome.next ((if_neg (by simp [hup, h64])).trans ?_)
  simp only [Bool.false_eq_true, if_false, hw]

end Posted

theorem execPcieYield_yields (hy : s.gw.pciYield = false) (h64 : 64 ≤ (s.pciTx false).length) (hq : 64 ≤ s.gw.pciInQ.length)
    (hc : s.gw.pciCredAt + 400 ≤ s.now) : exec (.pcieYield n) s = .next (upTo n.val (fun _ (s : State) => s.pciPop) {
      s.count .pci 0 Reg.PCI_YIELDCNT 1 with gw := { (s.count .pci 0 Reg.PCI_YIELDCNT 1).gw with pciYield := true } }) :=
  congrArg Host.Outcome.next (if_pos (by simp [hup, hy, h64, hq, hc]))

end Inbound

/-! ### Windows and the link (R541, R543) -/

theorem execPciWindow_sets {ctx : BitVec 12} (ha : s.accepts p 0x5A [] [(8, 2, 0), (8, 13, 8), (8, 27, 16), (0x10, 47, 0), (0x18, 63, 0)] true e)
    (hw : w = Fin.ofNat 8 (eBits e 8 2 0)) (hc : ctx = BitVec.ofNat 12 (eBits e 8 27 16))
    (hgood : eBits e 8 8 8 = 0 ∨ (eAddr e 0x10 % 4096 = 0 ∧ eAddr e 0x18 % 4096 = 0 ∧ eAddr e 0x18 ≠ 0 ∧
      eAddr e 0x10 + eAddr e 0x18 ≤ 2 ^ 48 ∧ (ctx ≠ 0 → s.ctxLive ctx = true ∧ s.ctxWorld ctx = (eBits e 8 10 10 == 1)) ∧
      ∀ x : Fin 8, x ≠ w → bitOf (s.winAttr x) 31 = true →
        s.winBase x + s.winSize x ≤ eAddr e 0x10 ∨ eAddr e 0x10 + eAddr e 0x18 ≤ s.winBase x)) :
    exec (.pciWindow p) s = .next ((((s.setReg2 .pci 0 (Reg.PCI_WINBASELw w) (Reg.PCI_WINBASEHw w) (eAddr e 0x10)).setReg .pci 0
      (Reg.PCI_WINSIZEw w) (BitVec.ofNat 32 (eAddr e 0x18 / 4096))).setReg .pci 0 (Reg.PCI_WINATTRw w) (BitVec.ofNat 32
        (b2n (eBits e 8 8 8 == 1) * 2 ^ 31 + eBits e 8 9 9 * 2 ^ 30 + b2n (eBits e 8 10 10 == 1) * 2 ^ 29 + eBits e 8 13 11 * 2 ^ 26 +
          ctx.toNat))).complete p 0 0 0 0) := by
  subst hw hc
  refine congrArg Host.Outcome.next ((State.command_accepts ha _).trans ((if_neg ?range).trans ((if_neg ?dead).trans ((if_neg ?overlap).trans
    ((if_neg ?world).trans rfl)))))
  all_goals
    rintro ⟨hvalid, hbad⟩
    have hone : eBits e 8 8 8 = 1 := by simpa using hvalid
    obtain hzero | ⟨hbase, hsize, hne, htop, hctx, hapart⟩ := hgood
    · omega
  case range => omega
  case dead =>
    obtain ⟨hne0, hdead⟩ := hbad
    rw [(hctx hne0).1] at hdead
    cases hdead
  case overlap =>
    simp only [List.any_eq_true, Bool.and_eq_true, bne_iff_ne, decide_eq_true_eq] at hbad
    obtain ⟨x, -, ⟨⟨hx, hv⟩, hlo⟩, hhi⟩ := hbad
    obtain h | h := hapart x hx hv <;> omega
  case world => exact hbad.2 (hctx hbad.1).2.symm

/-- An action of PCI_LINK is that of its operand. -/
theorem State.pciLink_acts (ha : s.accepts p 0x5B [] [(8, 1, 0)] true e) {action : Nat} (h : eBits e 8 1 0 = action) (h3 : action ≠ 3)
    (k : State → State) : s.pciLink p action k = (k s).complete p 0 0 0 0 :=
  (State.command_accepts ha _).trans ((if_neg (h.trans_ne h3)).trans ((if_pos h).trans rfl))

end Pcie

/-- Settles O39: each clause is the completion of one command, stated above for it; that a credit counts from now uses that a posted write takes
no time. -/
theorem pcieCommandsComplete : Obligations.PcieCommandsComplete := by
  unfold Obligations.PcieCommandsComplete
  refine fun src a len id data reply p e w n s u => ⟨fun hpci hy => ⟨execPcieOutboundRequest_read hpci hy,
      fun hr => execPcieOutboundRequest_write hpci hr hy, fun hr => execPcieOutboundRequest_down hpci hr hy⟩,
    fun _ => execPcieCompletionTimeout_fails, execPcieLinkDown_falls,
    fun hup hq => ⟨execPcieInboundRequest_readUnmapped hup hq, execPcieInboundRequest_writeUnmapped hup (by simp [hq]),
      fun _ => execPcieInboundRequest_read hup hq, fun hw hm hc => ?goes⟩,
    fun hup hw h64 => ⟨fun hm => ?msi, fun hm hwait => ?waits⟩, execPcieYield_yields, fun _ => execPciWindow_sets,
    fun ha => ⟨fun h0 => ⟨fun rate width hp hup => ?trained, congrArg Host.Outcome.next (State.pciLink_acts ha h0 (by decide) _)⟩,
      fun h1 hu => ?asserted, fun h2 => congrArg Host.Outcome.next (State.pciLink_acts ha h2 (by decide) _)⟩⟩
  case goes =>
    have htime : (s.unitWrite (s.winSrc w) a.toNat data).now = s.now := by rw [State.now, State.unitWrite_time, State.now]
    refine ⟨_, execPcieInboundRequest_write hup (by simp [hq]) hw, ?_⟩
    rw [if_neg (Bool.eq_false_iff.mp hm), if_pos (by simp [hq, hc])]
    exact ⟨htime, rfl⟩
  case msi => rw [execPcieInboundRequest_write hup h64 hw, if_pos hm]
  case waits =>
    rw [execPcieInboundRequest_write hup h64 hw, if_neg (Bool.eq_false_iff.mp hm), if_neg]
    rw [Bool.and_eq_true, List.isEmpty_iff]
    rintro ⟨hempty, hcross⟩
    obtain h | h := hwait
    · exact h hempty
    · rw [h] at hcross
      cases hcross
  case trained =>
    refine congrArg Host.Outcome.next ((State.pciLink_acts ha h0 (by decide) _).trans (congrArg (fun t : State => t.complete p 0 0 0 0) ?_))
    exact if_neg (by rw [hp, hup]; decide)
  case asserted =>
    subst hu
    exact congrArg Host.Outcome.next (State.pciLink_acts ha h1 (by decide) _)

end Sys2Proof.Machine
end

section
/-! PROOFS. Completion of the camera commands, and how a frame begins (O40). -/

namespace Sys2Proof.Machine

@[simp] theorem State.stream_setStream_same (s : State) (sid : Fin 64) (x : Stream) : (s.setStream sid x).stream sid = some x :=
  AMap.get?_set_same ..

section Camera
variable {r : Fin 16} {vc : Fin 16} {sid : Fin 64} {x : Stream} {dt : BitVec 6} {payload bs : List Byte} {crcOk room ecc sync : Bool} {p : Fin 64}
  {e : BitVec 512} {s u : State}

/-! ### Packets (R554, R555) -/

section Packet
variable (hup : s.up (camDomain r) = true)
include hup

/-- A packet with a good header is acted on as its kind says. -/
theorem execCsiPacketReceive_good (k : CsiKind) : exec (.csiPacketReceive r .good vc k) s = .next (match k with
    | .lineSync => s
    | .frameStart => s.frameStart r vc
    | .frameEnd => (s.streamsOf r vc).foldl (fun (s : State) sid => s.endFrame sid (some s.now)) s
    | .line dt payload crcOk room ispEcc =>
      (s.streamsOf r vc).foldl (fun (s : State) sid => s.camLine sid dt payload crcOk room ispEcc) s) :=
  congrArg Host.Outcome.next ((if_neg (by rw [hup]; decide)).trans rfl)

theorem execCsiPacketReceive_corrected (hs : s.streamsOf r vc = [sid]) :
    exec (.csiPacketReceive r .corrected vc .lineSync) s = .next (s.raise .cam r 0 0 (sidIdx sid)) := by
  refine congrArg Host.Outcome.next ((if_neg (by rw [hup]; decide)).trans ?_)
  simp only [if_true, hs]
  rfl

end Packet

/-! ### Frame records and due checks (R557, R559) -/

theorem execFrameRecordFinal_writes {f : FrameRx} {t : List FrameRx} (hx : s.stream sid = some x) (he : x.ended = f :: t)
    (hu : u = (match f.eof with
      | some _ => s
      | none => s.freeWord.2)) :
    exec (.frameRecordFinal sid) s = .next (((u.unitWrite (u.streamSrc sid x) (x.recordAt f.frame)
      (frameRecord f (match f.eof with
        | some v => BitVec.ofNat 32 v
        | none => s.freeWord.1) ((u.wheel x.wheel).encode f.frame))).setStream sid { x with ended := t }).setReg .cam (sidRecv sid)
        (Reg.CAM_SFRAMEs (sidIdx sid)) f.frame) := by
  subst hu
  show execFrameRecordFinal sid s = _
  simp only [execFrameRecordFinal, hx, he]
  cases f.eof <;> rfl

theorem execStreamDueCheck_late {f : FrameRx} (hx : s.stream sid = some x) (hc : x.cur = some f) (he : x.ended = []) (hl : f.late = false)
    (hd : s.dueBegun x f = true) :
    exec (.streamDueCheck sid) s = .next ((s.camRaise sid 4).setStream sid { x with cur := some { f with late := true }, ended := [] }) := by
  have hdue : (!f.late && s.dueBegun x f) = true := by rw [hl, hd]; rfl
  show execStreamDueCheck sid s = _
  simp only [execStreamDueCheck, hx, hc, he]
  refine congrArg Host.Outcome.next ((if_pos (by simp [hl, hd])).trans ?_)
  simp only [Option.map_some, List.map_nil, if_pos hdue]

/-! ### Configuration (R556, R561, R583) -/

theorem execCamStream_sets (ha : s.accepts p 0x68 [] [(8, 5, 0), (8, 8, 8), (0xC, 7, 0), (0x10, 47, 0)] true e)
    (hsid : sid = Fin.ofNat 64 (eBits e 8 5 0)) (h8 : eBits e 8 8 8 = 1) (hread : s.fwRead (p.val == 1) (eAddr e 0x10) 64 = (u, some bs))
    (hx : parseStream sid bs = some x) (hlanes : eBits e 0xC 2 0 = 1 ∨ eBits e 0xC 2 0 = 2 ∨ eBits e 0xC 2 0 = 4) (hnew : u.stream sid = none)
    (hapart : u.media.streams.any (fun o => sidRecv o.1 == sidRecv sid && o.2.vc == x.vc && o.2.dt == x.dt) = false)
    (hctx : x.ctx ≠ 0 → u.ctxLive x.ctx = true) (hfits : ispFits (x :: u.media.streams.map (·.2)) = true) :
    exec (.camStream p) s = .next (((u.setReg .cam (sidRecv sid) Reg.CAM_CFG (eWord e 0xC)).setStream sid x).complete p 0 0 0 0) := by
  have hlive : ¬(x.ctx ≠ 0 ∧ (!u.ctxLive x.ctx) = true) := by
    rintro ⟨hne, hdead⟩
    rw [hctx hne] at hdead
    cases hdead
  subst hsid
  refine congrArg Host.Outcome.next ((State.command_accepts ha _).trans ((if_neg (by omega)).trans ?_))
  simp only [hread, hx]
  exact (if_neg (by omega)).trans ((if_neg (by rw [hnew, hapart]; decide)).trans ((if_neg hlive).trans ((if_neg (by rw [hfits]; decide)).trans rfl)))

section Tune
variable (ha : s.accepts p 0x69 [] [(8, 5, 0), (0x10, 47, 0)] true e) (hsid : sid = Fin.ofNat 64 (eBits e 8 5 0)) (hx : s.stream sid = some x)
include ha hsid hx

theorem execIspTune_tunes (hisp : x.isp = true) : exec (.ispTune p true) s = .next (State.complete {
    s.setStream sid { x with tuneNext := s.freeCtr + 1 } with freeCtr := s.freeCtr + 1 } p 0 0 0 0) := by
  subst hsid
  refine congrArg Host.Outcome.next ((State.command_accepts ha _).trans ?_)
  simp only [hx]
  exact (if_neg (by rw [hisp]; decide)).trans rfl

theorem execIspTune_bad : exec (.ispTune p false) s = .next ((s.raise .isp 0 1 0 0).complete p 3 1 0 0) := by
  subst hsid
  refine congrArg Host.Outcome.next ((State.command_accepts ha _).trans ?_)
  simp only [hx]
  exact (if_pos rfl).trans rfl

end Tune

/-! ### Frames (R557, R560) -/

section Begin
variable (hx : s.stream sid = some x)
include hx

/-- While the wheel is stopped or armed a frame only counts as a drop. -/
theorem State.beginFrame_drops (hg : (s.wheel x.wheel).going = false) :
    s.beginFrame sid = s.count .cam (sidRecv sid) (Reg.CAM_SDROPs (sidIdx sid)) 1 := by
  simp only [State.beginFrame, hx, hg]
  rfl

/-- A frame begins with no line received and not late, under the number of the wheel's current frame, which a start that is due advances. -/
theorem State.beginFrame_begins (hg : (s.wheel x.wheel).going = true) : ∃ f, ((s.beginFrame sid).stream sid).bind (·.cur) = some f ∧
    f.lines = 0 ∧ f.late = false ∧ f.frame = if (s.wheel x.wheel).startDue then (s.wheel x.wheel).frame + 1 else (s.wheel x.wheel).frame := by
  simp only [State.beginFrame, hx, hg, Bool.not_true, Bool.false_eq_true, if_false, State.stream_setStream_same, Option.bind_some]
  exact ⟨_, rfl, rfl, rfl, rfl⟩

end Begin
end Camera

/-- Settles O40: each clause is the completion of one command, stated above for it. -/
theorem cameraCommandsComplete : Obligations.CameraCommandsComplete := by
  unfold Obligations.CameraCommandsComplete
  exact ⟨fun r vc sid x dt payload bs crcOk room ecc sync p e s u => ⟨fun hup => ⟨congrArg Host.Outcome.next (if_neg (by rw [hup]; decide)),
        execCsiPacketReceive_good hup _, execCsiPacketReceive_good hup _, execCsiPacketReceive_good hup _, execCsiPacketReceive_corrected hup,
        congrArg Host.Outcome.next (if_pos hup)⟩,
      fun _ _ => execFrameRecordFinal_writes, fun _ => execStreamDueCheck_late,
      fun ha hsid => ⟨fun h0 => hsid ▸ congrArg Host.Outcome.next ((State.command_accepts ha _).trans ((if_pos h0).trans rfl)),
        execCamStream_sets ha hsid⟩,
      fun ha hsid hx hisp => ⟨execIspTune_tunes ha hsid hx hisp, execIspTune_bad ha hsid hx⟩⟩,
    fun sid x s hx => ⟨State.beginFrame_drops hx, State.beginFrame_begins hx⟩⟩

end Sys2Proof.Machine
end

section
/-! PROOFS. Completion of the graphics commands, and what the end of a pass leaves of its queue (O41). -/

namespace Sys2Proof.Machine

@[simp] theorem State.gfx_setGfx_same (s : State) (q : Fin 16) (x : GfxQueue) : (s.setGfx q x).gfx q = x := AMap.get_set_same ..

section Graphics
variable {src : Src} {q c : Fin 16} {ps pt pu : Pass} {d : PassDesc} {po : Pool} {bs : List Byte} {need stalls n fl ch : Nat} {acts : List GfxAct}
  {p : Fin 64} {e : BitVec 512} {ctx : BitVec 12} {s u v w : State} {fits : Bool}

/-! ### Queues and passes (R563 to R572) -/

/-- A queue that is on and has no pass takes the entry that it owns; the pass waits to start. -/
theorem State.gfxCheck_takes (hup : s.rasterUp = true) (hst : (s.gfx q).st ≠ 0) (hp : (s.gfx q).pass = none)
    (hr : s.unitRead (s.gfxSrc q 56) (s.gfx q).entryAt 32 = (u, some bs))
    (hown : bitOf (BitVec.ofNat 32 (leNat ((bs.drop 4).take 4))) 31 = true) :
    ∃ x, s.gfxCheck q = u.setGfx q { s.gfx q with pass := some x } ∧ x.entry = (s.gfx q).entryAt ∧ x.started = false ∧ x.flushes = 0 := by
  refine ⟨?x, (if_neg (by simp [hup, hst, hp])).trans ?takes, ?fields⟩
  case takes =>
    simp only [hr, hown]
    rfl
  case fields => exact ⟨rfl, rfl, rfl⟩

section Start
variable (hp : (s.gfx q).pass = some ps) (hup : s.rasterUp = true) (hnew : ps.started = false) (hst : (s.gfx q).st = 1)
  (hidle : s.gfxRunning = none) (hw : s.waitMet ps = true)
include hp hup hnew hst hidle hw

theorem execRenderPassStart_bad : exec (.renderPassStart q none need stalls acts) s = .next ((s.emptyTex.setGfx q { s.gfx q with
    st := 2, pass := some { ps with started := true, res := 2 } }).raise .gfx 0 4 0 q) := by
  refine congrArg Host.Outcome.next ?_
  simp only [hp]
  exact (if_neg (by rw [hup, hnew, hst, hidle, hw]; decide)).trans rfl

/-- A pass starts with the chunks that its lists take from the pool, or with NOSPACE when they do not fit. -/
theorem execRenderPassStart_runs (hok : d.ok = true) (hpo : s.pool (s.gfx q).ctx = some po)
    (hk : poolTake (s.pool (s.gfx q).ctx) d.spill.isSome need = (fl, ch, fits))
    (hu : u = (State.count { s.emptyTex with media := { s.emptyTex.media with
      pools := s.media.pools.set (s.gfx q).ctx { po with used := po.used + ch } } } .gfx 0 Reg.GFX_TLFLUSH fl).count .gfx 0 Reg.GFX_SBSTALL stalls)
    (hv : (if fits then u else u.raise .gfx 0 3 0 q).fastClears q { ps with
      started := true, desc := d, res := if fits then 0 else 1, flushes := fl, flushLeft := fl, chunks := ch } = (v, pt))
    (hacts : v.gfxActs q pt (v.heldPass pt) (if d.draws then acts else []) = (w, pu)) :
    exec (.renderPassStart q (some d) need stalls acts) s = .next (w.setGfx q { s.gfx q with st := 2, pass := some pu }) := by
  have hpool : s.emptyTex.pool (s.gfx q).ctx = some po := hpo
  rw [hpo] at hk
  rw [hu, show s.media.pools = s.emptyTex.media.pools from rfl] at hv
  refine congrArg Host.Outcome.next ?_
  simp only [hp, Option.filter_some, hok, if_true]
  refine (if_neg (by rw [hup, hnew, hst, hidle, hw]; decide)).trans ?_
  simp only [hpool, hk, hv, hacts]

end Start

/-! ### The end of a pass (R564, R571, R578, R580) -/

section Writeback
variable (hp : (s.gfx q).pass = some ps) (hup : s.rasterUp = true) (hst : ps.started = true) (h2 : (s.gfx q).st = 2)
  (hheld : s.heldPass ps = false)
include hp hup hst h2 hheld

/-- A running pass whose image is not latched ends once the rest of it is rendered, and hands its image to its plane. -/
theorem execPassWriteback_ends {r : State × Pass}
    (hr : (if ps.res = 0 then s.renderRest q ps acts else if ps.res = 1 then s.spoil q ps else (s, ps)) = r) (hd : r.2.desc = ps.desc) :
    exec (.passWriteback q acts) s = .next (
      let t := r.1.passEnd q r.2 (if r.2.failed then 2 else r.2.res)
      match ps.desc.present with
      | some pr => t.present pr
      | none => t) := by
  subst hr
  rw [← hd]
  refine congrArg Host.Outcome.next ?_
  simp only [hp]
  exact (if_neg (by rw [hup, hst, h2, hheld]; decide)).trans rfl

end Writeback

section Preempt
variable {x : Fin 16 × GfxQueue}
  (hx : s.media.gfx.find? (fun e => e.2.compositor && e.2.st == 1 && (e.2.pass.map (fun ps => !ps.started && s.waitMet ps)).getD false) = some x)
  (hc : s.gfxRunning = some c) (hp : (s.gfx c).pass = some ps)
include hx hc hp

/-- A compositor pass that may start stops the running pass at its next boundary. -/
theorem execCompositorPreempt_stops : exec (.compositorPreempt acts) s = .next (
    let r := if ps.res = 0 ∧ ps.desc.draws then s.gfxActs c ps (s.heldPass ps) acts else (s, ps)
    (r.1.setGfx c { r.1.gfx c with st := 3, pass := some r.2 }).count .gfx 0 Reg.GFX_PREEMPT 1) := by
  refine congrArg Host.Outcome.next ?_
  simp only [hx, hc, hp]

end Preempt

/-! ### Configuration (R563, R568, R576, R583) -/

section Queue
variable (ha : s.accepts p 0x6A [] [(8, 3, 0), (8, 9, 8), (8, 18, 16), (8, 27, 24), (0xC, 11, 0), (0x10, 47, 0)] true e)
  (hq : q = Fin.ofNat 16 (eBits e 8 3 0))
include ha hq

theorem execGfxQueue_stops (h8 : eBits e 8 8 8 = 0) : exec (.gfxQueue p) s = .next ((s.setGfx q GfxQueue.off).complete p 0 0 0 0) := by
  subst hq
  exact congrArg Host.Outcome.next ((State.command_accepts ha _).trans ((if_pos h8).trans rfl))

theorem execGfxQueue_starts (hctx : ctx = BitVec.ofNat 12 (eBits e 0xC 11 0)) (h8 : eBits e 8 8 8 = 1)
    (hcls : eBits e 8 18 16 = 3 ∨ eBits e 8 18 16 = 4) (hn4 : 4 ≤ eBits e 8 27 24) (hn12 : eBits e 8 27 24 ≤ 12) (h32 : eAddr e 0x10 % 32 = 0)
    (hcomp : eBits e 8 9 9 = 1 → s.media.gfx.any (fun o => o.1 != q && o.2.compositor && o.2.st != 0) = false)
    (hl : ctx ≠ 0 → s.ctxLive ctx = true) (hm : s.mayUse p ctx = true) :
    exec (.gfxQueue p) s = .next ((s.setGfx q { GfxQueue.off with
      st := 1, ctx := ctx, cls := Fin.ofNat 8 (eBits e 8 18 16), n := eBits e 8 27 24, base := eAddr e 0x10,
      compositor := decide (eBits e 8 9 9 = 1) }).complete p 0 0 0 0) := by
  subst hq hctx
  refine congrArg Host.Outcome.next ((State.command_accepts ha _).trans ((if_neg (by omega)).trans ((if_neg (by omega)).trans
    ((if_neg ?_).trans (State.withCtx_accepts hl hm _ _)))))
  rintro ⟨hone, hany⟩
  rw [hcomp hone] at hany
  cases hany

end Queue

theorem execGfxPool_sets (ha : s.accepts p 0x6B [] [(8, 11, 0), (0x10, 47, 0), (0x18, 31, 0)] true e) (hctx : ctx = BitVec.ofNat 12 (eBits e 8 11 0))
    (hl : ctx ≠ 0 → s.ctxLive ctx = true) (hm : s.mayUse p ctx = true) (hidle : s.ctxPass ctx = false) (hn : n = (eWord e 0x18).toNat) :
    exec (.gfxPool p) s = .next (State.complete { s with
      media := { s.media with pools := if n = 0 then s.media.pools.erase ctx else s.media.pools.set ctx ⟨eAddr e 0x10, n, 0⟩ } } p 0 0 0 0) := by
  subst hn hctx
  exact congrArg Host.Outcome.next ((State.command_accepts ha _).trans ((State.withCtx_accepts hl hm _ _).trans
    ((if_neg (Bool.eq_false_iff.mp hidle)).trans rfl)))

end Graphics

/-- The end of a pass of a queue that is not the compositor's: the queue goes on with its next entry and its next number. -/
theorem State.gfx_passEnd {s : State} {q : Fin 16} (hc : (s.gfx q).compositor = false) (ps : Pass) (res : Nat) :
    (s.passEnd q ps res).gfx q = { s.gfx q with st := 1, next := (s.gfx q).next + 1, seq := (s.gfx q).seq + 1, pass := none } := by
  simp only [State.passEnd, hc, Bool.false_eq_true, if_false]
  split
  · exact State.gfx_setGfx_same ..
  · exact State.gfx_setGfx_same ..

/-- Settles O41: each clause is the completion of one command, stated above for it. -/
theorem graphicsCommandsComplete : Obligations.GraphicsCommandsComplete := by
  unfold Obligations.GraphicsCommandsComplete
  refine ⟨fun src q c ps d po bs need stalls n acts p e ctx s u v pt pu fits fl ch => ⟨fun hr => congrArg Host.Outcome.next
      (State.regCommand_reaches hr _ _ _), rfl, State.gfxCheck_takes, fun hp hup hnew hst hidle hw => ⟨execRenderPassStart_bad hp hup hnew hst hidle hw,
      fun hok hpo hk hu hv _ => execRenderPassStart_runs hp hup hnew hst hidle hw hok hpo hk hu hv⟩,
    fun hp hup hst h2 hheld => ?writeback, fun x hx hc hp => ?preempt,
    fun ha hq hctx => ⟨execGfxQueue_stops ha hq, execGfxQueue_starts ha hq hctx⟩, execGfxPool_sets⟩, fun q ps res s hc => ?passEnd⟩
  case writeback =>
    have ends {r : State × Pass} := execPassWriteback_ends (acts := acts) (r := r) hp hup hst h2 hheld
    refine ⟨fun hn h0 hr hd => ?plain, fun pr hpr h0 hr hd => ?presents, fun hn h1 hr hd => ?noSpace, fun hn h2 => ?faulted⟩
    case plain => rw [ends (by rw [if_pos h0, hr]) hd, hn]
    case presents => rw [ends (by rw [if_pos h0, hr]) hd, hpr]
    case noSpace => rw [ends (by rw [if_neg (by omega), if_pos h1, hr]) hd, hn]
    case faulted =>
      rw [ends (by rw [if_neg (by omega), if_neg (by omega)]) rfl, hn, h2]
      exact congrArg (fun res => Host.Outcome.next (s.passEnd q ps res)) (ite_self _)
  case preempt =>
    rw [execCompositorPreempt_stops hx hc hp]
    exact ⟨fun h0 hd hr => by rw [if_pos ⟨h0, hd⟩, hr], fun hd => by rw [if_neg (by rw [hd]; simp)]⟩
  case passEnd =>
    rw [State.gfx_passEnd hc]
    exact ⟨rfl, rfl, rfl, rfl⟩

end Sys2Proof.Machine
end

section
/-! PROOFS. Completion of the display and codec commands (O43). -/

namespace Sys2Proof.Machine

/-! ### The release of the images that a frame shows (R580) -/

theorem State.plane_setPlane_same (s : State) (o : Fin 6) (k : Fin 4) (x : Plane) : (s.setPlane o k x).plane o k = some x :=
  AMap.get?_set_same ..

theorem State.plane_setPlane_other (s : State) (o : Fin 6) {k j : Fin 4} (h : j ≠ k) (x : Plane) : (s.setPlane o k x).plane o j = s.plane o j :=
  AMap.get?_set_other _ _ fun e => h (congrArg Prod.snd e)

/-- A plane's latched images are released. -/
def State.releasePlane (s : State) (o : Fin 6) (k : Fin 4) : State :=
  match s.plane o k with
  | some x => s.setPlane o k { x with latched := [] }
  | none => s

/-- No image of a plane is latched. -/
def State.released (s : State) (o : Fin 6) (k : Fin 4) : Prop := ∀ y, s.plane o k = some y → y.latched = []

theorem State.releasePlane_same (s : State) (o : Fin 6) (k : Fin 4) : (s.releasePlane o k).released o k := by
  intro y hy
  unfold State.releasePlane at hy
  split at hy
  · rw [State.plane_setPlane_same] at hy
    obtain rfl := Option.some.inj hy
    rfl
  next hnone => rw [hnone] at hy; cases hy

theorem State.releasePlane_keeps_released {s : State} {o : Fin 6} {j : Fin 4} (h : s.released o j) (k : Fin 4) :
    (s.releasePlane o k).released o j := by
  by_cases hj : j = k
  · exact hj ▸ s.releasePlane_same o k
  · unfold State.releasePlane
    split
    · intro y hy
      rw [State.plane_setPlane_other _ _ hj] at hy
      exact h y hy
    · exact h

/-- Releasing planes one after the other releases each of them. -/
theorem State.foldl_releasePlane_released (o : Fin 6) (ks : List (Fin 4)) {s : State} {j : Fin 4} (h : j ∈ ks ∨ s.released o j) :
    (ks.foldl (fun s k => s.releasePlane o k) s).released o j := by
  induction ks generalizing s with
  | nil => exact h.resolve_left (List.not_mem_nil)
  | cons k ks ih =>
    refine ih ?_
    obtain hmem | hdone := h
    · obtain rfl | hlater := List.mem_cons.mp hmem
      · exact .inr (s.releasePlane_same o j)
      · exact .inl hlater
    · exact .inr (State.releasePlane_keeps_released hdone k)

section Media
variable {o : Fin 6} {arrived : Bool} {p : Fin 64} {e : BitVec 512} {k : Fin 4} {j : Fin 16} {x : Codec} {src : Src} {a l : Nat} {c : Word}
  {d out : List Byte} {len : BitVec 16} {err : Fin 4} {r : PlaneRec} {ctx : BitVec 12} {s u v w : State} {ok : Bool}

/-! ### Lines (R577 to R580, R587) -/

section Lines
variable (hup : s.dspUp o = true)
include hup

theorem execImageRelease_releases (hl : s.curLine o = s.vActive o) :
    ∃ t, exec (.imageRelease o) s = .next t ∧ ∀ k y, t.plane o k = some y → y.latched = [] :=
  ⟨(List.finRange 4).foldl (fun s k => s.releasePlane o k) s, congrArg Host.Outcome.next ((if_pos (by simp [hup, hl])).trans rfl),
    fun k => State.foldl_releasePlane_released o _ (.inl (List.mem_finRange k))⟩

/-- A line other than the first goes out, and its number advances round the frame. -/
theorem execScanOutLine_sends {n : Nat} (hl : s.curLine o = l) (h0 : 0 < l)
    (hv : s.vActive o ≤ l ∧ (v, ok) = (s, true) ∨ l < s.vActive o ∧ s.composeLine o arrived l = (v, ok))
    (hw : w = (if ok then v else (v.raise .dsp o 0 0 0).count .dsp o Reg.DSP_UNDERCNT 1)) (hn : n = (if w.vTotal o ≤ l + 1 then 0 else l + 1))
    (hu : u = State.setFld { w with media := { w.media with line := w.media.line.set o n } } .dsp o Reg.DSP_STAT 31 16 n) :
    exec (.scanOutLine o arrived) s = .next (if n = u.vActive o then u.internalEvent (16 + o.val) else u) := by
  have hline : (if l < s.vActive o then s.composeLine o arrived l else (s, true)) = (v, ok) := by
    obtain ⟨hge, hsame⟩ | ⟨hlt, hcomposed⟩ := hv
    · rw [if_neg (Nat.not_lt.mpr hge), hsame]
    · rw [if_pos hlt, hcomposed]
  have hunder : (if (!ok) = true then (v.raise .dsp o 0 0 0).count .dsp o Reg.DSP_UNDERCNT 1 else v) = w := by
    rw [hw]
    cases ok <;> rfl
  subst hu hn
  refine congrArg Host.Outcome.next ((if_neg (by rw [hup]; decide)).trans ?_)
  simp only [hl, if_neg h0.ne', hline, hunder]

end Lines

/-! ### Outputs and planes (R577, R578, R583) -/

section Output
variable (ha : s.accepts p 0x6C [] [(8, 2, 0), (8, 8, 8), (0xC, 31, 0), (0x10, 2, 0), (0x14, 31, 0), (0x18, 31, 0), (0x1C, 7, 0)] true e)
  (ho : eBits e 8 2 0 = o.val)
include ha ho

theorem execDspOut_stops (h8 : eBits e 8 8 8 = 0) (hu : u = s.setFld .dsp o Reg.DSP_CFG 31 31 0) : exec (.dspOut p arrived) s =
    .next (State.complete { u with
      media := { u.media with trained := u.media.trained &&& ~~~(1#6 <<< o.val), line := u.media.line.erase o } } p 0 0 0 0) := by
  subst hu
  refine congrArg Host.Outcome.next ((State.command_accepts ha _).trans ?_)
  simp only [ho, Fin.ofNat_val_eq_self]
  exact (if_neg (by omega)).trans ((if_pos h8).trans rfl)

theorem execDspOut_trains (h8 : eBits e 8 8 8 = 1) (hcfg : dspCfgOk o.val (eWord e 0xC) (eWord e 0x14) (eWord e 0x18) = true)
    (hu : u = ((((s.setReg .dsp o Reg.DSP_CFG (putBits (eWord e 0xC) 31 31 1)).setReg .dsp o Reg.DSP_INTEN (eWord e 0x10)).setReg .dsp o
      Reg.DSP_HTIM (eWord e 0x14)).setReg .dsp o Reg.DSP_VTIM (eWord e 0x18)).setReg .dsp o Reg.DSP_LATCH (eWord e 0x1C)) :
    exec (.dspOut p true) s = .next (State.complete { u with
      media := { u.media with
        trained := (u.media.trained &&& ~~~(1#6 <<< o.val)) ||| (1#6 <<< o.val), line := u.media.line.erase o } } p 0 0 0 0) := by
  subst hu
  refine congrArg Host.Outcome.next ((State.command_accepts ha _).trans ?_)
  simp only [ho, Fin.ofNat_val_eq_self]
  exact (if_neg (by omega)).trans ((if_neg (by omega)).trans ((if_neg (by rw [hcfg]; decide)).trans rfl))

end Output

section PlaneOf
variable (ha : s.accepts p 0x6D [] [(8, 2, 0), (8, 5, 4), (8, 9, 8), (0xC, 11, 0), (0x10, 47, 0)] true e) (ho : eBits e 8 2 0 = o.val)
  (hk : k = Fin.ofNat 4 (eBits e 8 5 4))
include ha ho hk

theorem execDspPlane_removes (h8 : eBits e 8 8 8 = 0) (y : Option PlaneRec) : exec (.dspPlane p y) s =
    .next (State.complete { s with media := { s.media with planeNext := s.media.planeNext.set (o, k) none } } p 0 0 0 0) := by
  subst hk
  refine congrArg Host.Outcome.next ((State.command_accepts ha _).trans ?_)
  simp only [ho, Fin.ofNat_val_eq_self]
  exact (if_neg (by omega)).trans ((if_pos h8).trans rfl)

theorem execDspPlane_sets (hc : ctx = BitVec.ofNat 12 (eBits e 0xC 11 0)) (h8 : eBits e 8 8 8 = 1)
    (hok : r.ok (decide (eBits e 8 9 9 = 1)) = true) (hl : ctx ≠ 0 → s.ctxLive ctx = true) (hm : s.mayUse p ctx = true) :
    exec (.dspPlane p (some r)) s = .next (State.complete { s with
      media := { s.media with
        planeNext := s.media.planeNext.set (o, k) (some ⟨ctx, decide (eBits e 8 9 9 = 1), r, [], none, [], []⟩) } } p 0 0 0 0) := by
  subst hk hc
  refine congrArg Host.Outcome.next ((State.command_accepts ha _).trans ?_)
  simp only [ho, Fin.ofNat_val_eq_self, Option.filter_some, hok, if_true]
  exact (if_neg (by omega)).trans ((if_neg (by omega)).trans (State.withCtx_accepts hl hm _ _))

end PlaneOf

/-! ### The codec (R581, R582) -/

section Session
variable (ha : s.accepts p 0x6E [] [(8, 3, 0), (8, 12, 8), (0xC, 11, 0), (0x10, 31, 0), (0x18, 47, 0)] true e) (hj : j = Fin.ofNat 16 (eBits e 8 3 0))
include ha hj

theorem execCodecSession_ends (h8 : eBits e 8 8 8 = 0) : exec (.codecSession p) s =
    .next (State.complete { s with media := { s.media with codecs := s.media.codecs.erase j } } p 0 0 0 0) := by
  subst hj
  exact congrArg Host.Outcome.next ((State.command_accepts ha _).trans ((if_pos h8).trans rfl))

theorem execCodecSession_opens (hc : ctx = BitVec.ofNat 12 (eBits e 0xC 11 0)) (h8 : eBits e 8 8 8 = 1) (hc0 : eBits e 8 12 10 ≠ 0)
    (hc7 : eBits e 8 12 10 ≠ 7) (h16 : eAddr e 0x18 % 16 = 0)
    (hrate : (eWord e 0x10).toNat + ((s.media.codecs.filter (fun o => o.1 != j && o.2.encode == decide (eBits e 8 9 9 = 1))).map
      (fun o => o.2.rate)).foldl (· + ·) 0 ≤ codecMax (decide (eBits e 8 9 9 = 1)))
    (hl : ctx ≠ 0 → s.ctxLive ctx = true) (hm : s.mayUse p ctx = true) :
    exec (.codecSession p) s = .next (State.complete { s with
      media := { s.media with codecs := s.media.codecs.set j ⟨ctx, Fin.ofNat 8 (eBits e 8 12 10), decide (eBits e 8 9 9 = 1),
        (eWord e 0x10).toNat, eAddr e 0x18, 0⟩ } } p 0 0 0 0) := by
  subst hj hc
  exact congrArg Host.Outcome.next ((State.command_accepts ha _).trans ((if_neg (by omega)).trans ((if_neg (by omega)).trans
    ((if_neg (Nat.not_lt.mpr hrate)).trans (State.withCtx_accepts hl hm _ _)))))

end Session

section Picture
variable (hx : s.media.codecs.get? j = some x) (hsrc : src = ⟨7, 80, s.ctxWorld x.ctx, x.ctx, s.gen x.ctx, x.cls, false⟩)
  (haddr : a = x.ring + (x.next % (Config.codecLast + 1)) * 16) (hup : s.up 115 = true) (hread : s.unitRead src a 16 = (u, some d))
  (hc : c = BitVec.ofNat 32 (leNat ((d.drop 8).take 4)))
include hx hsrc haddr hup hread hc

theorem execCodecPicture_hostOwns (hown : bitOf c 31 = false) : exec (.codecPicture j out len err none) s = .next u := by
  subst hc haddr hsrc
  refine congrArg Host.Outcome.next ?_
  simp only [hx, hup, hread, hown]
  rfl

/-- A picture advances its session to the next descriptor, whatever becomes of its writes. -/
theorem execCodecPicture_advances (hown : bitOf c 31 = true) :
    ∃ t, exec (.codecPicture j out len err none) s = .next t ∧ t.media.codecs.get? j = some { x with next := x.next + 1 } := by
  subst hc haddr hsrc
  refine ⟨_, rfl, ?_⟩
  simp only [hx, hup, hread, hown, Bool.not_true, Bool.false_eq_true, if_false]
  exact AMap.get?_set_same ..

end Picture
end Media

/-- Settles O43: each clause is the completion of one command, stated above for it. -/
theorem displayAndCodecCommandsComplete : Obligations.DisplayAndCodecCommandsComplete := by
  unfold Obligations.DisplayAndCodecCommandsComplete
  exact fun o arrived p e k j x src a l c d out len err r ctx s u v w ok => ⟨fun hup => ⟨fun hl => congrArg Host.Outcome.next
        (if_pos (by simp [hup, hl])), execImageRelease_releases hup, congrArg Host.Outcome.next (if_pos hup), fun _ => execScanOutLine_sends hup⟩,
    fun ha ho => ⟨execDspOut_stops ha ho, execDspOut_trains ha ho⟩,
    fun ha ho hk hc => ⟨execDspPlane_removes ha ho hk, execDspPlane_sets ha ho hk hc⟩,
    fun ha hj hc => ⟨execCodecSession_ends ha hj, execCodecSession_opens ha hj hc⟩,
    fun hx hsrc haddr hup hread hc => ⟨execCodecPicture_hostOwns hx hsrc haddr hup hread hc,
      fun hown _ _ _ => execCodecPicture_advances hx hsrc haddr hup hread hc hown⟩⟩

end Sys2Proof.Machine
end

section
/-! PROOFS. Tiles and textures (R567, R572 to R574, O42). -/

namespace Sys2Proof.Machine

/-! ### Submission order (R567) -/

/-- The model's order is the library's insertion sort by submission number. -/
theorem submitted_eq_insertionSort (fs : List Frag) : submitted fs = fs.insertionSort (fun f g => f.sub ≤ g.sub) := by
  induction fs with
  | nil => rfl
  | cons f fs ih =>
    rw [List.insertionSort_cons, List.orderedInsert_eq_take_drop, ← ih]
    simp only [not_le]
    rfl

theorem submitted_pairwise (fs : List Frag) : (submitted fs).Pairwise (fun f g => f.sub ≤ g.sub) := by
  have : Std.Total (fun f g : Frag => f.sub ≤ g.sub) := ⟨fun _ _ => le_total ..⟩
  have : IsTrans Frag (fun f g => f.sub ≤ g.sub) := ⟨fun _ _ _ => le_trans⟩
  rw [submitted_eq_insertionSort]
  exact List.pairwise_insertionSort ..

/-! ### Texel layout (R573) -/

theorem nbits_one_bit (v i : Nat) : nbits v i i = (v.testBit i).toNat := by
  rw [Nat.toNat_testBit, nbits, Nat.add_sub_cancel_left, Nat.shiftRight_eq_div_pow, pow_one]

/-- The low `n` bits of two coordinates, interleaved. -/
def interleaved (n x y : Nat) : Nat :=
  ((List.range n).map (fun i => nbits x i i * 2 ^ (2 * i) + nbits y i i * 2 ^ (2 * i + 1))).foldl (· + ·) 0

theorem interleaved_succ (n x y : Nat) :
    interleaved (n + 1) x y = 2 ^ (2 * n) * ((x.testBit n).toNat + 2 * (y.testBit n).toNat) + interleaved n x y := by
  simp only [interleaved, List.range_succ, List.map_append, List.map_cons, List.map_nil, List.foldl_append, List.foldl_cons, List.foldl_nil,
    nbits_one_bit]
  ring

theorem interleaved_lt (n x y : Nat) : interleaved n x y < 2 ^ (2 * n) := by
  induction n with
  | zero => exact Nat.zero_lt_one
  | succ n ih =>
    have hx := (x.testBit n).toNat_le
    have hy := (y.testBit n).toNat_le
    rw [interleaved_succ, Nat.mul_succ, pow_add]
    nlinarith

theorem interleaved_testBit {i n : Nat} (x y : Nat) (h : i < n) :
    (interleaved n x y).testBit (2 * i) = x.testBit i ∧ (interleaved n x y).testBit (2 * i + 1) = y.testBit i := by
  induction n with
  | zero => omega
  | succ n ih =>
    simp only [interleaved_succ, Nat.testBit_two_pow_mul_add _ (interleaved_lt n x y)]
    by_cases hi : i = n
    · subst hi
      cases x.testBit i <;> cases y.testBit i <;> simp <;> rfl
    · simpa [show 2 * i < 2 * n by omega, show 2 * i + 1 < 2 * n by omega] using ih (by omega)

/-- A page's texels in the order of their interleaved bits; a page wider than high ends with the last bit of x. -/
def texelIndex (log : Fin 5) (x y : Nat) : Nat :=
  2 ^ (2 * pageH log) * (if pageH log < pageW log then (x.testBit (pageH log)).toNat else 0) + interleaved (pageH log) x y

theorem texelOffset_eq (log : Fin 5) (x y : Nat) : texelOffset log x y = 2 ^ log.val * texelIndex log x y := by
  simp only [texelOffset, texelIndex, nbits_one_bit, interleaved]
  split <;> ring

theorem page_shape (log : Fin 5) : log.val + pageW log + pageH log = 16 ∧ (pageW log = pageH log ∨ pageW log = pageH log + 1) := by
  revert log; decide

theorem texelIndex_lt (log : Fin 5) (x y : Nat) : texelIndex log x y < 2 ^ (pageW log + pageH log) := by
  have hl := interleaved_lt (pageH log) x y
  have hx := (x.testBit (pageH log)).toNat_le
  obtain ⟨-, h | h⟩ := page_shape log
  · rw [texelIndex, if_neg (by omega), h, ← two_mul]; simpa
  · rw [texelIndex, if_pos (by omega), h, show pageH log + 1 + pageH log = 2 * pageH log + 1 by ring, pow_succ]
    nlinarith

theorem texelIndex_testBit_x {log : Fin 5} {i : Nat} (x y : Nat) (h : i < pageW log) :
    (texelIndex log x y).testBit (2 * i) = x.testBit i := by
  obtain ⟨-, hs⟩ := page_shape log
  rw [texelIndex, Nat.testBit_two_pow_mul_add _ (interleaved_lt ..)]
  by_cases hi : i < pageH log
  · rw [if_pos (by omega), (interleaved_testBit x y hi).1]
  · obtain rfl : i = pageH log := by omega
    rw [if_neg (by omega), if_pos h, Nat.sub_self]
    cases x.testBit (pageH log) <;> rfl

theorem texelIndex_testBit_y {log : Fin 5} {i : Nat} (x y : Nat) (h : i < pageH log) :
    (texelIndex log x y).testBit (2 * i + 1) = y.testBit i := by
  rw [texelIndex, Nat.testBit_two_pow_mul_add _ (interleaved_lt ..), if_pos (by omega), (interleaved_testBit x y h).2]

theorem texelOffset_lt (log : Fin 5) (x y : Nat) : texelOffset log x y < 65536 := by
  obtain ⟨h, -⟩ := page_shape log
  calc texelOffset log x y = 2 ^ log.val * texelIndex log x y := texelOffset_eq ..
    _ < 2 ^ log.val * 2 ^ (pageW log + pageH log) := Nat.mul_lt_mul_of_pos_left (texelIndex_lt ..) (by positivity)
    _ = 65536 := by rw [← pow_add, ← add_assoc, h]; rfl

theorem texelOffset_bit (log : Fin 5) (x y k : Nat) :
    texelOffset log x y / 2 ^ (log.val + k) % 2 = ((texelIndex log x y).testBit k).toNat := by
  rw [texelOffset_eq, pow_add, Nat.mul_div_mul_left _ _ (by positivity), Nat.toNat_testBit]

/-! ### Fast clear and residency (R572, R574) -/

theorem State.loadAtt_of_flagged {s u : State} {src : Src} {ps : Pass} {a : Attach} {t : Nat} (i : Nat)
    (hf : ps.flushed.contains t = false) (ho : a.op = .load) (hg : s.flagged src a t = (u, true)) :
    s.loadAtt src ps i a t = (u, allSamples (1024 * ps.desc.samples) (clearBytes a.clear a.bpp)) := by
  simp only [State.loadAtt, hf, ho, hg, Bool.false_eq_true, if_false, if_true]

theorem State.lookup_of_not_resident {s u : State} {src : Src} {ps : Pass} {t : Texture} {res fb : Addr} {x y : Nat} {bs : List Byte}
    (ht : t.sparse = some (res, fb)) (hr : s.passRead src (res.toNat + t.page x y / 8) 1 = (u, bs)) (hb : mapBit bs (t.page x y) = false) :
    s.lookup src ps t x y =
      u.putBit src { ps with given := ps.given ++ [.texel false (List.replicate (2 ^ t.log.val) 0)] } fb (t.page x y) true := by
  simp only [State.lookup, ht, hr, hb, Bool.false_eq_true, if_false]

/-- Settles O42: the order by the insertion sort, the layout by the bits of `texelIndex`, and one lookup or load each. -/
theorem tilesAndTexturesFollowTheirLayout : Obligations.TilesAndTexturesFollowTheirLayout := by
  unfold Obligations.TilesAndTexturesFollowTheirLayout
  refine ⟨fun fs => ⟨?order, submitted_pairwise fs⟩, fun log x y i => ⟨texelOffset_lt .., ?aligned, fun h => ?x, fun h => ?y⟩,
    fun _ _ _ _ i _ _ => State.loadAtt_of_flagged i, fun _ _ _ _ _ _ _ _ _ _ => State.lookup_of_not_resident⟩
  case order => rw [submitted_eq_insertionSort]; exact List.perm_insertionSort ..
  case aligned => rw [texelOffset_eq]; exact Nat.mul_mod_right ..
  case x => rw [texelOffset_bit, texelIndex_testBit_x x y h, Nat.toNat_testBit]
  case y => rw [add_assoc, texelOffset_bit, texelIndex_testBit_y x y h, Nat.toNat_testBit]

end Sys2Proof.Machine
end

section
/-! PROOFS. Application CPUs: custom CSRs, pairs, caches and wired sources (R419, R421, R496 to R511, R618, O34). -/

namespace Sys2Proof.Machine

section Cpu
variable {s u : State} {h : Fin 16} {p : Fin 8} {src : Src} {v : BitVec 64} {cmd w : Word} {a : Addr} {data : List Byte} {size : Nat}
  {virt : Bool} {vmid : BitVec 12} {image : List Byte}

/-! ### What a running hart executes (R497, R499, R501, R508, R509) -/

theorem State.hartRuns_isHart (hr : s.hartRuns h = true) : s.isHart h = true := by
  simp only [State.hartRuns, Bool.and_eq_true] at hr
  exact hr.1.1

/-- A park bit is the number of the hart in its pair. -/
theorem getLsbD_or_hartBit (v : BitVec 2) (h : Fin 16) : ∀ n < 2,
    (v ||| BitVec.ofNat 2 (1 <<< (h.val % 2))).getLsbD n = (v.getLsbD n || n == h.val % 2) := by
  have hbit : ∀ h : Fin 16, ∀ n < 2, (BitVec.ofNat 2 (1 <<< (h.val % 2))).getLsbD n = (n == h.val % 2) := by decide
  intro n hn
  rw [BitVec.getLsbD_or, hbit h n hn]

section Runs
variable (hr : s.hartRuns h = true)
include hr

theorem execMxpark_locked (hl : s.lockPair (hartPair h) = true) :
    exec (.mxpark h) s = .next (s.setCpuPair (hartPair h) { s.cpuPair (hartPair h) with st := .stopping, parked := 3 }) :=
  congrArg Host.Outcome.next ((if_pos hr).trans (by rw [hl]; rfl))

theorem execMxpark_split (hl : s.lockPair (hartPair h) = false) : ∃ t, exec (.mxpark h) s = .next t ∧
    (t.cpuPair (hartPair h)).st = .stopping ∧
    ∀ n < 2, (t.cpuPair (hartPair h)).parked.getLsbD n = ((s.cpuPair (hartPair h)).parked.getLsbD n || n == h.val % 2) := by
  refine ⟨_, congrArg Host.Outcome.next (if_pos hr), ?_⟩
  simp only [hl, State.cpuPair, State.setCpuPair, AMap.get_set_same]
  exact ⟨trivial, getLsbD_or_hartBit _ h⟩

theorem execMxwdkick_kicks (h2 : h.val % 2 = 0) : exec (.mxwdkick h) s =
    .next (s.setCpuPair (hartPair h) { s.cpuPair (hartPair h) with lastKick := s.now }) :=
  congrArg Host.Outcome.next (if_pos (by simp [hr, h2]))

theorem execCpuPwb_reads (ht : s.hartTx h false = 0) :
    exec (.cpuPwb h) s = .next (s.setHart h { s.hart h with pwb := (s.hart h).fails, fails := 0 }) :=
  congrArg Host.Outcome.next (if_pos (by simp [hr, ht]))

variable (hd : addrDie a.toNat ≠ 6)
include hd

theorem execCpuIoLoad_issues (hok : ioOk a.toNat size = true) (hc : s.ctxBit (s.hartSrc h virt vmid).ctx = true) (ht : s.hartTx h true < 16)
    (hi : s.issueRead (s.hartSrc h virt vmid) a.toNat size none = some u) : exec (.cpuIoLoad h a size virt vmid) s = .next u :=
  congrArg Host.Outcome.next ((if_neg (by simp [hr, hd])).trans ((if_neg (by simp [hok])).trans ((if_neg (by simp [hc])).trans
    ((if_neg (by omega)).trans (by rw [hi]; rfl)))))

theorem execCpuIoStore_issues (hok : ioOk a.toNat data.length = true) (hc : s.ctxBit (s.hartSrc h virt vmid).ctx = true)
    (ht : s.hartTx h false < 64) (hi : s.issueWrite (s.hartSrc h virt vmid) a.toNat data 8 = some u) :
    exec (.cpuIoStore h a data virt vmid) s = .next u :=
  congrArg Host.Outcome.next ((if_neg (by simp [hr, hd])).trans ((if_neg (by simp [hok])).trans ((if_neg (by simp [hc])).trans
    ((if_neg (by omega)).trans (by rw [hi]; rfl)))))

theorem execCpuIoLoad_faults (hok : ioOk a.toNat size = false) : exec (.cpuIoLoad h a size virt vmid) s = .next (s.accessFault h a.toNat) :=
  congrArg Host.Outcome.next ((if_neg (by simp [hr, hd])).trans (if_pos (by simp [hok])))

theorem execCpuIoStore_faults (hok : ioOk a.toNat data.length = false) :
    exec (.cpuIoStore h a data virt vmid) s = .next (s.accessFault h a.toNat) :=
  congrArg Host.Outcome.next ((if_neg (by simp [hr, hd])).trans (if_pos (by simp [hok])))

end Runs

/-! ### Pairs (R499 to R501, R511) -/

theorem execCpuWatchdogExpire_halts (ht : s.trustedPair p = true) (hw : s.fixed.cpuWd.get p 0 ≠ 0) (hs : (s.cpuPair p).st = .running)
    (hl : (s.cpuPair p).lastKick + s.fixed.cpuWd.get p 0 * 1000000 ≤ s.now) :
    exec (.cpuWatchdogExpire p) s = .next ((s.raise .cpu 0 4 (p.val * 2 ^ 48) 0).setCpuPair p { s.cpuPair p with
      st := .halted, reloading := true, debug := false }) :=
  congrArg Host.Outcome.next (if_pos (by simp [ht, hw, hs, hl]))

section Image
variable (hs : (s.cpuPair p).st = .halted) (hr : (s.cpuPair p).reloading = true) (hu : u = s.store (s.fixed.cpuImage.get p (0, [])).1 image)
include hs hr hu

theorem execTrustedPairRelease_releases (hm : sha256 image = (s.fixed.cpuImage.get p (0, [])).2) : exec (.trustedPairRelease p image) s =
    .next ((u.releasePair p).setFld .cpu 0 (Reg.CPU_RESTARTp p) 15 0 (u.fld .cpu 0 (Reg.CPU_RESTARTp p) 15 0 + 1)) := by
  subst hu
  exact congrArg Host.Outcome.next ((if_pos (by rw [hs, hr]; rfl)).trans (if_pos hm))

theorem execTrustedPairRelease_rejects (hm : sha256 image ≠ (s.fixed.cpuImage.get p (0, [])).2) : exec (.trustedPairRelease p image) s =
    .next ((u.raise .cpu 0 5 (p.val * 2 ^ 48) 0).setCpuPair p { s.cpuPair p with reloading := false }) := by
  subst hu
  exact congrArg Host.Outcome.next ((if_pos (by rw [hs, hr]; rfl)).trans (if_neg hm))

end Image

section Command
variable (hreach : s.reaches src (vehRegs 0x1900000 + Reg.CPU_PAIRCMDp p) = true) (hw : src.world = s.trustedOwns (cpuDomain p))
  (hm : s.mayWrite src .cpu 0 = true)
include hreach hw hm

theorem State.pairCmd_accepts (f : State → State) : s.pairCmd src p f = f s :=
  (State.regCommand_reaches hreach ..).trans ((if_neg (by simp [hw])).trans (State.guarded_mayWrite hm ..))

theorem execCpuPairStop_stops (h1 : bitOf cmd 1 = true) (h0 : bitOf cmd 0 = false) (hs : (s.cpuPair p).st = .running) :
    exec (.cpuPairStop src p cmd) s = .next (s.stopPair p) :=
  congrArg Host.Outcome.next ((State.pairCmd_accepts hreach hw hm _).trans (if_pos (by rw [h1, h0, hs]; rfl)))

theorem execCpuPairStart_starts (h0 : bitOf cmd 0 = true) (h1 : bitOf cmd 1 = false) (hs : (s.cpuPair p).st = .stopped) :
    exec (.cpuPairStart src p cmd) s = .next (s.releasePair p) :=
  congrArg Host.Outcome.next ((State.pairCmd_accepts hreach hw hm _).trans (if_pos (by rw [h1, h0, hs]; rfl)))

end Command

theorem hartPair_main (p : Fin 8) : hartPair ⟨2 * p.val, by omega⟩ = p := by revert p; decide
theorem hartPair_second (p : Fin 8) : hartPair ⟨2 * p.val + 1, by omega⟩ = p := by revert p; decide

theorem execCpuPairStopped_stops (hs : (s.cpuPair p).st = .stopping) (hp : (s.cpuPair p).parked = 3)
    (hq : ∀ g : Fin 16, hartPair g = p → s.hartTx g true = 0 ∧ s.hartTx g false = 0) :
    exec (.cpuPairStopped p) s = .next ((s.flushPair p).setCpuPair p { s.cpuPair p with st := .stopped }) := by
  obtain ⟨mainR, mainW⟩ := hq _ (hartPair_main p)
  obtain ⟨secondR, secondW⟩ := hq _ (hartPair_second p)
  exact congrArg Host.Outcome.next (if_pos (by simp [hs, hp, mainR, mainW, secondR, secondW]))

theorem execCpuLockstepMismatch_halts (kind : Fin 8) (hl : s.lockPair p = true) (hs : (s.cpuPair p).st = .running) (hf : s.freeWord = (w, u)) :
    exec (.cpuLockstepMismatch p kind a) s = .next ((((((u.setReg .lks p Reg.LKS_MISCYC
      (BitVec.ofNat 32 ((s.now - (s.cpuPair p).releasedLt) * 12 / 5 + w.toNat % 5))).setReg .lks p Reg.LKS_MISKIND
      (BitVec.ofNat 32 kind.val)).setReg2 .lks p Reg.LKS_MISADDRL Reg.LKS_MISADDRH a.toNat).raise .lks p 2 0 0)).haltPair p) := by
  obtain ⟨rfl, rfl⟩ := Prod.mk.inj hf
  exact congrArg Host.Outcome.next (if_pos (by rw [hl, hs]; rfl))

theorem execJtagAccess_debugs (enter : Bool) (hp : s.pkg ≠ pkRESET) (ht : s.trustedPair p = false) (hs : (s.cpuPair p).st = .running) :
    exec (.jtagAccess none p enter) s = .next (s.setCpuPair p { s.cpuPair p with debug := enter }) :=
  congrArg Host.Outcome.next (if_pos ⟨hp, by simp [ht], hs⟩)

/-! ### A released pair (R499) -/

theorem State.loseLine_fixed (s : State) (x : CLine) : (s.loseLine x).fixed = s.fixed :=
  State.loseLine_leaves (g := State.fixed) (fun _ _ => rfl) (fun _ _ => rfl) s x

theorem State.emptyPair_normalWays (s : State) (p : Fin 8) : (s.emptyPair p).normalWays = s.normalWays :=
  congrArg (fun f : Fixed => BitVec.ofNat 16 (2 ^ (16 - f.trustedWays) - 1)) (foldl_leaves (g := State.fixed) State.loseLine_fixed _ s)

theorem State.releasePair_runs (s : State) (p : Fin 8) : ((s.releasePair p).cpuPair p).st = .running :=
  (congrArg CpuPair.st (AMap.get_set_same ..)).trans rfl

theorem State.hart_setHart_other (s : State) {g h : Fin 16} (hn : g ≠ h) (x : Hart) : (s.setHart h x).hart g = s.hart g :=
  AMap.get_set_other _ _ _ hn

theorem State.hart_releasePair (s : State) (hp : hartPair h = p) : (s.releasePair p).hart h = Hart.reset s.normalWays (s.cpuEntryOf p) := by
  rw [← State.emptyPair_normalWays s p]
  have hcases : h.val = 2 * p.val + 1 ∨ h.val = 2 * p.val := by
    simp only [hartPair, Fin.ext_iff, Fin.val_ofNat] at hp
    omega
  obtain hsecond | hmain := hcases
  · rw [show h = ⟨2 * p.val + 1, by omega⟩ from Fin.ext hsecond]
    exact State.hart_setHart_same ..
  · rw [show h = ⟨2 * p.val, by omega⟩ from Fin.ext hmain]
    exact (State.hart_setHart_other _ (by simp [Fin.ext_iff]) _).trans (State.hart_setHart_same ..)

/-! ### Lost lines (R506, R507) -/

/-- Two lines are the same place of a cache: what dropping a line goes by. -/
def CLine.Same (x y : CLine) : Prop := x.cache = y.cache ∧ x.world = y.world ∧ x.addr = y.addr

theorem State.mem_dropLine {x y : CLine} : y ∈ (s.dropLine x).cpu.lines ↔ y ∈ s.cpu.lines ∧ ¬ y.Same x := by
  simp [State.dropLine, State.setLines, CLine.Same, or_iff_not_imp_left]

/-- A line that is lost leaves its cache, and no line comes in: one above it only changes what it holds below. -/
theorem State.mem_loseLine {x y : CLine} (hy : y ∈ (s.loseLine x).cpu.lines) : (∃ z ∈ s.cpu.lines, y.Same z) ∧ ¬ y.Same x := by
  have hdrop {y} (hy : y ∈ (s.dropLine x).cpu.lines) : (∃ z ∈ s.cpu.lines, y.Same z) ∧ ¬ y.Same x :=
    ⟨⟨y, (State.mem_dropLine.mp hy).1, rfl, rfl, rfl⟩, (State.mem_dropLine.mp hy).2⟩
  unfold State.loseLine at hy
  dsimp only at hy
  split at hy
  · next b above _ hfind =>
    obtain hy | hy := List.mem_append.mp hy
    · exact hdrop (State.mem_dropLine.mp hy).1
    · obtain rfl := List.mem_singleton.mp hy
      exact hdrop (y := above) (List.mem_of_find?_eq_some hfind)
  · exact hdrop hy
  · exact hdrop hy

theorem State.mem_loseLines {xs : List CLine} {y : CLine} (hy : y ∈ (xs.foldl State.loseLine s).cpu.lines) :
    (∃ z ∈ s.cpu.lines, y.Same z) ∧ ∀ x ∈ xs, ¬ y.Same x := by
  induction xs generalizing s with
  | nil => exact ⟨⟨y, hy, rfl, rfl, rfl⟩, fun _ h => nomatch h⟩
  | cons x xs ih =>
    obtain ⟨⟨z, hz, hyz⟩, hxs⟩ := ih hy
    obtain ⟨⟨z', hz', hzz'⟩, hx⟩ := State.mem_loseLine hz
    have same_trans {w : CLine} (hw : z.Same w) : y.Same w :=
      ⟨hyz.1.trans hw.1, hyz.2.1.trans hw.2.1, hyz.2.2.trans hw.2.2⟩
    refine ⟨⟨z', hz', same_trans hzz'⟩, List.forall_mem_cons.mpr ⟨fun hyx => hx ?_, hxs⟩⟩
    exact ⟨hyz.1.symm.trans hyx.1, hyz.2.1.symm.trans hyx.2.1, hyz.2.2.symm.trans hyx.2.2⟩

theorem State.invalidate_empties (s : State) (a n : Nat) : ∀ y ∈ (s.invalidate a n).cpu.lines, ¬(a ≤ y.addr ∧ y.addr < a + n) := by
  intro y hy hin
  obtain ⟨⟨z, hz, hyz⟩, hgone⟩ := State.mem_loseLines hy
  exact hgone z (List.mem_filter.mpr ⟨hz, by simpa [← hyz.2.2] using hin⟩) hyz

section Uncorrectable
variable {x : CLine} {b : List Byte} (he : x.err = some .double) (hd : x.dirty = some b) (pair : Nat)
include he hd

theorem State.lineError_dirty_double : s.lineError pair x =
    ((s.loseLine x).raise .cpu 0 ((if x.cache = .shared then 0 else 2) + 1) (pair * 2 ^ 48 + x.addr) 0, true) := by
  simp only [State.lineError, he, hd]

theorem State.lineError_loses : ∀ y ∈ (s.lineError pair x).1.cpu.lines, ¬ y.Same x := by
  rw [State.lineError_dirty_double he hd,
    State.raise_leaves (g := State.cpu) (fun _ _ => rfl) (fun _ _ _ _ _ _ => rfl)]
  exact fun y hy => (State.mem_loseLine hy).2

theorem State.lineError_sets_bit :
    bitOf ((s.lineError pair x).1.reg .cpu 0 (errRegs .cpu).stat) (if x.cache = .shared then 1 else 3) = true := by
  rw [State.lineError_dirty_double he hd]
  split <;> exact State.raise_sets _ _ _ (by decide) _ _

end Uncorrectable

/-! ### Wired sources (R510) -/

theorem State.aplicTook_cpu (s : State) (n : Nat) : (s.aplicTook n).cpu = s.cpu := by
  unfold State.aplicTook; split <;> rfl

theorem State.msiSet_pending (s : State) (world : Bool) (page eiid : Nat) (h : eiid < 256) :
    ((s.msiSet world page eiid).cpu.imsic.get (world, page) 0).getLsbD eiid = true := by
  refine (congrArg (BitVec.getLsbD · eiid) (AMap.get_set_same ..)).trans ?_
  rw [BitVec.getLsbD_or, BitVec.getLsbD_ofNat, Nat.one_shiftLeft, Nat.testBit_two_pow_self]
  simp [h]

theorem State.aplicLook_low {k : Bool × Fin 1024} {x : AplicSrc} (hl : s.aplicLevel k.2 = false) :
    ((s.aplicLook k x).cpu.aplic.get k x).pend = false ∧ (s.aplicLook k x).cpu.imsic = s.cpu.imsic := by
  simp only [State.aplicLook, hl, Bool.and_false, Bool.false_and, Bool.false_eq_true, if_false, AMap.get_set_same, and_self]

section Source
variable {k : Bool × Fin 1024} {x : AplicSrc} (hw : s.aplicWorld k.2 = k.1)
include hw

theorem State.aplicLook_sends (hl : s.aplicLevel k.2 = true) (hs : x.seen = false) (he : x.enable = true) :
    ((s.aplicLook k x).cpu.imsic.get (k.1, x.page) 0).getLsbD x.eiid = true := by
  simp only [State.aplicLook, hw, hl, hs, he, beq_self_eq_true, Bool.and_self, Bool.not_false, Bool.or_true, if_true, State.aplicTook_cpu]
  exact State.msiSet_pending _ _ _ _ x.eiid.isLt

theorem State.aplicLook_pends (hl : s.aplicLevel k.2 = true) (hs : x.seen = false) (he : x.enable = false) :
    ((s.aplicLook k x).cpu.aplic.get k x).pend = true := by
  simp only [State.aplicLook, hw, hl, hs, he, beq_self_eq_true, Bool.and_self, Bool.not_false, Bool.or_true, Bool.and_false,
    Bool.false_eq_true, if_false, AMap.get_set_same]

end Source
end Cpu

/-- Settles O34: each command's clause is its completion above; lost lines by `Same`, wired sources by their level. -/
theorem cpuCommandsComplete : Obligations.CpuCommandsComplete := by
  unfold Obligations.CpuCommandsComplete
  refine ⟨fun h p src v cmd a data size virt vmid s u => ⟨fun hr => ?hart, execCpuWatchdogExpire_halts,
      fun image hs hr hu => ⟨execTrustedPairRelease_releases hs hr hu, execTrustedPairRelease_rejects hs hr hu⟩,
      fun hreach hw hm => ⟨execCpuPairStop_stops hreach hw hm, execCpuPairStart_starts hreach hw hm⟩, execCpuPairStopped_stops,
      fun kind _ => execCpuLockstepMismatch_halts kind, fun _ _ hp => congrArg Host.Outcome.next (if_pos hp), execJtagAccess_debugs⟩,
    fun p h s hp => ⟨State.releasePair_runs s p, State.hart_releasePair s hp⟩,
    fun s a n pair x b => ⟨State.invalidate_empties s a n, fun he hd => ⟨?lost, State.lineError_loses he hd pair,
      State.lineError_sets_bit he hd pair⟩⟩,
    fun s k x hw => ⟨fun hl hs => ⟨State.aplicLook_sends hw hl hs, State.aplicLook_pends hw hl hs⟩, State.aplicLook_low⟩⟩
  case hart =>
    exact ⟨congrArg Host.Outcome.next (if_pos hr), congrArg Host.Outcome.next (if_pos hr), execMxpark_locked hr, execMxpark_split hr,
      execMxwdkick_kicks hr, execCpuPwb_reads hr, fun hd => ⟨execCpuIoLoad_issues hr hd, execCpuIoStore_issues hr hd,
        execCpuIoLoad_faults hr hd, execCpuIoStore_faults hr hd⟩⟩
  case lost => rw [State.lineError_dirty_double he hd]

end Sys2Proof.Machine
end
